-- ==== Sys2Proof/Word.lean ====
section
/-!
DEFINITION. The word types of the Y8400 and the plainest arithmetic on them.
Registers are 32 bits wide (R16); memory is counted in bytes, little-endian (R13).
-/

namespace Sys2Proof

/-- A register word (R16). -/
abbrev Word := BitVec 32

/-- One byte of memory. -/
abbrev Byte := BitVec 8

/-- A 64-bit quantity: two registers, low half first (R16); also one mesh flit's payload (Table 9.2). -/
abbrev DWord := BitVec 64

/-- A finite map in one canonical form: keys strictly rising, and no entry equal to what an
unlisted key reads as. -/
abbrev Sparse (β : Type) := List (Nat × β)

/-- The low half of a 64-bit quantity. -/
def lowWord (d : DWord) : Word := BitVec.ofNat 32 d.toNat

/-- The high half of a 64-bit quantity. -/
def highWord (d : DWord) : Word := BitVec.ofNat 32 (d.toNat / 4294967296)

/-- Two register words as one 64-bit quantity, low half first (R16). -/
def joinWords (lo hi : Word) : DWord := BitVec.ofNat 64 (hi.toNat * 4294967296 + lo.toNat)

end Sys2Proof
end

