-- ==== Sys2Proof/Config.lean ====
section
/-!
DEFINITION. What the spec leaves open: free values without a body, so that nothing can be proved of the value they
take. Each is named in the assumption log.
-/

namespace Sys2Proof.Config

/-- The n-th free 32-bit value: the step that needs one applies it to the counter `Chip.free` and advances the
counter (contents after OFF, digests of R343, random words). -/
opaque freeWord : Nat → Word

/-- Contents of memory that lost its contents (R502, chapter "Power"): of loss `k`, the byte at device address `a`. -/
opaque freeByte : Nat → Nat → Byte

/-- Twice the exact component of a filter bank bin (R200), rounded down: coefficients c[0] up, samples newest first, LOG2B, P,
the bin, and whether the component is the imaginary one. The spec gives no transform. -/
opaque filterBin : List Int → List (Int × Int) → Nat → Nat → Nat → Bool → Int

/-- Flits that the fabric switch and the transit lanes hold for one FVC toward engine `e` (R313): the spec gives no size. -/
opaque switchDepth : Nat → Nat → Nat

/-- ENC_PIPE_LAT of a configuration (R197): the words ENC_LINK_CFG, ENC_CHAN_CFG, ENC_FEAT_CFG, ENC_SEG, QNT_CFG. -/
opaque pipeLat : List Word → BitVec 16

/-! ### Algorithms that the spec names and does not define (Table 17.2) -/

/-- SHA-256. -/
opaque sha256 : List Byte → List Byte

/-- Verification under SLH-DSA-SHA2-192s: public key, message, signature. -/
opaque slhVerify : List Byte → List Byte → List Byte → Bool

/-- Hedged signing under SLH-DSA-SHA2-128f: key seeds, message, the count of free values taken for the hedge. -/
opaque slhSign : List Byte → List Byte → Nat → List Byte

/-- The public key of SLH-DSA-SHA2-128f key seeds. -/
opaque slhPublic : List Byte → List Byte

/-- Opening under AES-256-GCM: key, initial value, additional data, ciphertext with its tag; none when the tag fails. -/
opaque gcmOpen : List Byte → List Byte → List Byte → List Byte → Option (List Byte)

/-- The counter-mode KDF: seed, label. -/
opaque kdf : List Byte → List Byte → List Byte

/-! ### Load checks whose computation the model leaves open (log entry 70) -/

/-- Whether the image's declared rates keep R295, for the sections of the image (TYPE, FIELDS and content) and the mask of the
jobs that keep running: no section states a rate. -/
opaque ratesOk : List (Nat × Nat × List Byte) → Nat → Bool

/-- The latest census completion of the schedule of a job of the image (R357), in phase units from the tick. -/
opaque censusEnd : List (Nat × Nat × List Byte) → Nat → Nat

end Sys2Proof.Config
end

