-- ==== Sys2Proof/Machine/Bits.lean ====
section
/-!
DEFINITION. Bit fields, saturating counts, byte order and the checksums of R540.
-/

namespace Sys2Proof.Machine

/-- Bits `hi` to `lo` of a number, both included (R13). -/
def bits (v hi lo : Nat) : Nat := v / 2 ^ lo % 2 ^ (hi + 1 - lo)

/-- Bit `i` of a number. -/
def bit (v i : Nat) : Bool := v / 2 ^ i % 2 == 1

/-- Field [hi:lo] of a register word. -/
def fld (v : Word) (hi lo : Nat) : Nat := bits v.toNat hi lo

/-- Bit `i` of a register word. -/
def flag (v : Word) (i : Nat) : Bool := bit v.toNat i

/-- A number shifted into field [hi:lo] of an otherwise empty word. -/
def mk (hi lo x : Nat) : Nat := x % 2 ^ (hi + 1 - lo) * 2 ^ lo

/-- The mask of bits [hi:lo]. -/
def maskOf (hi lo : Nat) : Word := BitVec.ofNat 32 ((2 ^ (hi + 1 - lo) - 1) * 2 ^ lo)

/-- The word with field [hi:lo] replaced by `x`. -/
def putFld (v : Word) (hi lo x : Nat) : Word :=
  (v &&& ~~~ maskOf hi lo) ||| BitVec.ofNat 32 (mk hi lo x)

/-- The word with bit `i` set to `b`. -/
def putBit (v : Word) (i : Nat) (b : Bool) : Word := putFld v i i (if b then 1 else 0)

/-- 1 for true, 0 for false. -/
def b2n (b : Bool) : Nat := if b then 1 else 0

/-- A count that stops at its maximum (R23). -/
def satAdd (v : Word) (n : Nat) : Word := BitVec.ofNat 32 (min (v.toNat + n) 4294967295)

/-- The two's complement value of the low `w` bits of `v` (R14). -/
def signed (w v : Nat) : Int :=
  let x := v % 2 ^ w
  if 2 ^ w ≤ 2 * x then (x : Int) - 2 ^ w else x

/-- The low `w` bits of an integer in two's complement (R14). -/
def unsign (w : Nat) (x : Int) : Nat := (x % (2 ^ w : Int)).toNat

/-- `x` held between `lo` and `hi`. -/
def clampInt (lo hi x : Int) : Int := if x < lo then lo else if hi < x then hi else x

/-- Saturation to a signed value of `w` bits. -/
def satInt (w : Nat) (x : Int) : Int := clampInt (-(2 ^ (w - 1) : Int)) (2 ^ (w - 1) - 1) x

/-- The bytes of `x`, least significant first (R13). -/
def toBytes : Nat → Nat → List Byte
  | 0, _ => []
  | n + 1, x => BitVec.ofNat 8 x :: toBytes n (x / 256)

/-- The little-endian number of a byte list (R13). -/
def ofBytes : List Byte → Nat
  | [] => 0
  | b :: bs => b.toNat + 256 * ofBytes bs

/-- One bit of a reflected CRC register. -/
def crcBit (poly c : Nat) : Nat := if c % 2 = 1 then (c / 2).xor poly else c / 2

/-- `n` bits of a reflected CRC register. -/
def crcBits (poly : Nat) : Nat → Nat → Nat
  | 0, c => c
  | n + 1, c => crcBits poly n (crcBit poly c)

/-- A reflected CRC register run over bytes in ascending order, each least significant bit first (R540). -/
def crcRun (poly : Nat) (c : Nat) : List Byte → Nat
  | [] => c
  | b :: bs => crcRun poly (crcBits poly 8 (c.xor b.toNat)) bs

/-- CRC-32 of R540. -/
def crc32 (bs : List Byte) : Nat := (crcRun 0xEDB88320 0xFFFFFFFF bs).xor 0xFFFFFFFF

/-- CRC-32C of R343, in the form R540 gives. -/
def crc32c (bs : List Byte) : Nat := (crcRun 0x82F63B78 0xFFFFFFFF bs).xor 0xFFFFFFFF

/-- The bytes of a text, one per character. -/
def textBytes (t : String) : List Byte := t.toList.map (fun ch => BitVec.ofNat 8 ch.toNat)

/-- How many bits of `x` below bit `n` are set. -/
def popCount : Nat → Nat → Nat
  | 0, _ => 0
  | n + 1, x => x % 2 + popCount n (x / 2)

/-- The set bits of `x` below bit `n`, rising. -/
def setBits (n x : Nat) : List Nat := (List.range n).filter (fun i => bit x i)

/-- `x` put in its place in a list sorted by `f`. -/
def insertBy {α : Type} (f : α → Nat) (x : α) : List α → List α
  | [] => [x]
  | y :: ys => if f x ≤ f y then x :: y :: ys else y :: insertBy f x ys

/-- A list sorted by `f`, rising; equal elements keep their order. -/
def sortBy {α : Type} (f : α → Nat) : List α → List α
  | [] => []
  | x :: xs => insertBy f x (sortBy f xs)

end Sys2Proof.Machine
end

