-- ==== Sys2Proof/Machine/Operands.lean ====
section
/-!
DEFINITION. The operand forms of the spec: the fields of flits, schedule words, axon entries, row headers, population
parameters and neuron states, and the positions of tiles, fields and taps.
-/

namespace Sys2Proof.Machine

/-! ### Positions (R29, R30, R34 to R36) -/

/-- Column of tile `t` (R29). -/
def tileX (t : Nat) : Nat := t % 128

/-- Row of tile `t` (R29). -/
def tileY (t : Nat) : Nat := t / 128

/-- Tile index of (X, Y) (R29). -/
def tileAt (x y : Nat) : Nat := y * 128 + x

/-- Field of tile `t` (R30). -/
def fieldOf (t : Nat) : Nat := tileY t / 8 * 8 + tileX t / 16

/-- The 128 tiles of field `f` (R30). -/
def fieldTiles (f : Nat) : List Nat :=
  (List.range 128).map (fun i => tileAt (16 * (f % 8) + i % 16) (8 * (f / 8) + i / 16))

/-- Whether tile `t` is a tap tile (R34). -/
def isTap (t : Nat) : Bool :=
  decide (tileX t % 16 = 8) && decide (tileY t % 5 = 2) && decide (tileY t ≤ 57)

/-- Tap number of tap tile `t` (R35). -/
def tapOf (t : Nat) : Nat := (tileY t - 2) / 5 * 8 + (tileX t - 8) / 16

/-- Tile of tap `k` (R35). -/
def tapTile (k : Nat) : Nat := tileAt (8 + 16 * (k % 8)) (2 + 5 * (k / 8))

/-- The kinds of unit a tap serves (Table 1.3). -/
inductive TapUnit
  | engine (e : Nat) | port (p : Nat) | memory (m : Nat) | cluster
  deriving DecidableEq, Repr

/-- The unit of tap `k` (R36, R539, Table 21.6). -/
def tapUnit (k : Nat) : TapUnit :=
  let x := k % 8
  match k / 8 with
  | 1 | 8 => .port (x % 4 + 8 * (x / 4))
  | 3 | 10 => .port (4 + x % 4 + 8 * (x / 4))
  | 4 => .memory (2 * (x / 4))
  | 9 => .memory (1 + 2 * (x / 4))
  | 6 => .cluster
  | _ => .engine x

/-- Whether tap `k` serves an optical engine's gateway. -/
def isGatewayTap (k : Nat) : Bool := match tapUnit k with | .engine _ => true | _ => false

/-- The two taps of stream port `p` (Table 1.4). -/
def portTaps (p : Nat) : List Nat :=
  let x := p % 4 + 4 * (p / 8)
  if p / 4 % 2 = 0 then [8 + x, 64 + x] else [24 + x, 80 + x]

/-- The five taps of optical engine `e` (Table 1.4). -/
def engineTaps (e : Nat) : List Nat := [e, 16 + e, 40 + e, 56 + e, 88 + e]

/-- The four taps of memory controller `m` (Table 1.4). -/
def memoryTaps (m : Nat) : List Nat :=
  (List.range 4).map (fun i => (if m % 2 = 0 then 32 else 72) + 4 * (m / 2) + i)

/-- The eight control taps (Table 1.4). -/
def controlTaps : List Nat := (List.range 8).map (fun i => 48 + i)

/-! ### Flits (Tables 9.2, 9.3, 9.8) -/

/-- KIND of a flit. -/
def fKind (f : DWord) : Nat := bits f.toNat 63 61
/-- EPOCH of a flit. -/
def fEpoch (f : DWord) : Nat := bits f.toNat 60 60
/-- FENCE of a flit. -/
def fFence (f : DWord) : Bool := bit f.toNat 59
/-- PARITY of a flit. -/
def fParity (f : DWord) : Nat := bits f.toNat 58 58
/-- CAST of an event flit. -/
def fCast (f : DWord) : Nat := bits f.toNat 57 56
/-- TAPDST of a packet's head. -/
def fTapdst (f : DWord) : Bool := bit f.toNat 57
/-- Destination X. -/
def fDx (f : DWord) : Nat := bits f.toNat 55 49
/-- Destination Y. -/
def fDy (f : DWord) : Nat := bits f.toNat 48 43
/-- SPAN_END of an event flit. -/
def fSpan (f : DWord) : Nat := bits f.toNat 42 36
/-- Axon key of an event flit. -/
def fAxon (f : DWord) : Nat := bits f.toNat 35 20
/-- VALUE of an event flit. -/
def fValue (f : DWord) : Nat := bits f.toNat 19 12
/-- BODY of a packet's head. -/
def fBody (f : DWord) : Nat := bits f.toNat 42 38
/-- SRC of a packet's head. -/
def fSrc (f : DWord) : Nat := bits f.toNat 37 25
/-- SUB of a packet's head. -/
def fSub (f : DWord) : Nat := bits f.toNat 24 8
/-- The 56 data bits of a body flit (R249). -/
def fData (f : DWord) : Nat := bits f.toNat 63 8

/-- One bit of CHECK (R250). -/
def checkBit (c : Nat) (b : Bool) : Nat :=
  let i := (b2n b).xor (c / 128 % 2)
  let d := c * 2 % 256
  if i = 1 then d.xor 0x2F else d

/-- CHECK over bits `n + 7` down to 8 of a flit (R250). -/
def checkRun (f : Nat) : Nat → Nat → Nat
  | 0, c => c
  | n + 1, c => checkRun f n (checkBit c (bit f (n + 8)))

/-- flit_check of R250. -/
def flitCheck (f : Nat) : Nat := checkRun f 56 0xFF

/-- A flit with its CHECK set (R250); bits [7:0] of the argument are dropped. -/
def withCheck (f : Nat) : DWord := BitVec.ofNat 64 (f / 256 * 256 + flitCheck f)

/-- Whether a flit's CHECK agrees (R251). -/
def checkOk (f : DWord) : Bool := decide (f.toNat % 256 = flitCheck f.toNat)

/-- An event flit of Table 9.2. -/
def mkEvent (kind epoch fence parity cast dx dy span axon value : Nat) : DWord :=
  withCheck (mk 63 61 kind + mk 60 60 epoch + mk 59 59 fence + mk 58 58 parity + mk 57 56 cast + mk 55 49 dx +
    mk 48 43 dy + mk 42 36 span + mk 35 20 axon + mk 19 12 value)

/-- A head flit of Table 9.3 with PARITY 0. -/
def mkHead (kind epoch fence tapdst dx dy body src sub : Nat) : DWord :=
  withCheck (mk 63 61 kind + mk 60 60 epoch + mk 59 59 fence + mk 57 57 tapdst + mk 55 49 dx + mk 48 43 dy +
    mk 42 38 body + mk 37 25 src + mk 24 8 sub)

/-- A collective flit of Table 9.8. -/
def mkColl (parity ckind tb dir item value : Nat) : DWord :=
  withCheck (mk 63 61 3 + mk 58 58 parity + mk 57 54 ckind + mk 53 50 tb + mk 49 49 dir + mk 48 44 item +
    mk 43 8 value)

/-- A body flit with 56 data bits (R249). -/
def mkBody (d : Nat) : DWord := withCheck (d % 2 ^ 56 * 256)

/-- Bytes cut into body flits of 7 (R249, R288). -/
def bodyFlits : Nat → List Byte → List DWord
  | 0, _ => []
  | n + 1, bs => mkBody (ofBytes (bs.take 7)) :: bodyFlits n (bs.drop 7)

/-- The data bytes of body flits, in order (R249). -/
def bodyBytes (fs : List DWord) : List Byte := fs.flatMap (fun f => toBytes 7 (fData f))

/-- The copies a flit makes: 1 for a unicast, the span's tiles else (R261, R278). -/
def copies (f : DWord) : Nat :=
  match fCast f with
  | 1 => (fSpan f - fDx f) + (fDx f - fSpan f) + 1
  | 2 => (fSpan f % 64 - fDy f) + (fDy f - fSpan f % 64) + 1
  | _ => 1

/-- Whether a flit is an event: KIND 0, 1 or 6 (R248). -/
def isEvent (f : DWord) : Bool := fKind f == 0 || fKind f == 1 || fKind f == 6

/-- The virtual channel of a flit by KIND, with VC1 for events of inbound gateways (Table 9.5). -/
def vcOf (kind : Nat) (inbound : Bool) : Nat :=
  match kind with
  | 2 => 2
  | 3 | 7 => 5
  | 4 => 3
  | 5 => 4
  | _ => if inbound then 1 else 0

/-! ### Schedule words (Tables 3.5 and 3.6) -/

/-- OPCODE of a schedule word. -/
def wOp (w : Nat) : Nat := bits w 31 26

/-- Whether a schedule word is illegal (R108). -/
def wIllegal (w : Nat) : Bool :=
  (decide (0x0D ≤ wOp w) && decide (wOp w ≤ 0x3E)) || (wOp w == 1 && bits w 25 24 == 3)

/-! ### Axon entries and row headers (Tables 5.1 to 5.3) -/

/-- MODE of an axon entry. -/
def aMode (a : Nat) : Nat := bits a 63 62
/-- WIDTH of an axon entry. -/
def aWidth (a : Nat) : Nat := bits a 61 61
/-- LEARN of an axon entry. -/
def aLearn (a : Nat) : Nat := bits a 60 60
/-- GSIZE of an axon entry. -/
def aGsize (a : Nat) : Nat := bits a 59 58
/-- ROW_PTR of an axon entry. -/
def aRow (a : Nat) : Nat := bits a 57 43
/-- LEN of a scatter entry, TGT_COUNT of a gather entry. -/
def aLen (a : Nat) : Nat := bits a 42 32
/-- TGT_BASE of an axon entry. -/
def aTgt (a : Nat) : Nat := bits a 31 22
/-- Neuron step between targets of a scatter entry: STRIDE + 1. -/
def aStep (a : Nat) : Nat := bits a 21 18 + 1
/-- IN_SIGNED of a gather entry. -/
def aSigned (a : Nat) : Bool := bit a 21
/-- IN_BASE of a gather entry. -/
def aIn (a : Nat) : Nat := bits a 20 9

/-- Group size G of a GSIZE code. -/
def groupSize (g : Nat) : Nat := 32 * (g + 1)

/-- ALT_PTR of a row header. -/
def hAlt (h : Nat) : Nat := bits h 63 49
/-- LEARN of a row header. -/
def hLearn (h : Nat) : Nat := bits h 48 48
/-- SCALE_PTR of a row header. -/
def hScale (h : Nat) : Nat := bits h 47 33
/-- CB_ID of a row header. -/
def hCb (h : Nat) : Nat := bits h 32 30
/-- GSIZE of a row header. -/
def hGsize (h : Nat) : Nat := bits h 29 28
/-- WIDTH of a row header. -/
def hWidth (h : Nat) : Nat := bits h 27 27
/-- TAG of a row header. -/
def hTag (h : Nat) : Nat := bits h 15 13
/-- LEN of a row header. -/
def hLen (h : Nat) : Nat := bits h 12 0

/-- Whether a header agrees with its entry (R146). -/
def headerOk (a h : Nat) : Bool :=
  hTag h == 5 && hWidth h == aWidth a && hGsize h == aGsize a && hLearn h == aLearn a &&
    (aMode a != 0 || hLen h == aLen a)

/-- Codes in one store unit: 16 of 4 bits, 8 of 8 bits (Table 5.4). -/
def codesPerUnit (width : Nat) : Nat := if width = 1 then 8 else 16

/-- Code `j` within its unit (Table 5.4). -/
def codeIn (width j u : Nat) : Nat :=
  if width = 1 then bits u (8 * (j % 8) + 7) (8 * (j % 8)) else bits u (4 * (j % 16) + 3) (4 * (j % 16))

/-- Units of codes of a row of `n` codes. -/
def codeUnits (width n : Nat) : Nat := (n + codesPerUnit width - 1) / codesPerUnit width

/-- Units of scales of a scatter row of `n` targets in groups of `g`. -/
def scaleUnits (n g : Nat) : Nat := ((n + g - 1) / g + 3) / 4

/-! ### Population parameters and neuron states (Tables 4.1 to 4.5) -/

/-- A population's parameters as the engine acts on them (R116, R542). -/
structure Pop where
  routes : Nat
  mute : Bool
  emitKind : Nat
  shift : Nat
  refract : Nat
  reset : Nat
  graded : Bool
  theta : Nat
  resetValue : Int
  bias : Int
  base : Nat
  count : Nat
  decay : Nat
  route0 : Nat
  route1 : Nat
  leakPos : List Nat
  leakNeg : List Nat
  deriving DecidableEq, Repr

/-- The 16-bit little-endian words of a byte list. -/
def halves : Nat → List Byte → List Nat
  | 0, _ => []
  | n + 1, bs => ofBytes (bs.take 2) :: halves n (bs.drop 2)

/-- The parameters in a 128-byte block (Table 4.1), with out-of-range values read as R542 gives. -/
def popOf (bs : List Byte) : Pop :=
  let n (o k : Nat) : Nat := ofBytes ((bs.drop o).take k)
  let c := n 0 4
  let kind := bits c 15 13
  { routes := min (bits c 23 22) 2
    mute := bit c 21
    emitKind := if kind = 0 ∨ kind = 1 ∨ kind = 6 then kind else 1
    shift := bits c 12 8
    refract := bits c 7 4
    reset := min (bits c 3 2) 2
    graded := decide (bits c 1 0 ≠ 0)
    theta := if n 4 3 = 0 then 1 else n 4 3
    resetValue := signed 24 (n 8 3)
    bias := signed 16 (n 0xC 2)
    base := bits (n 0x10 2) 9 0
    count := bits (n 0x12 2) 10 0
    decay := bits (n 0x14 1) 3 0
    route0 := n 0x18 8
    route1 := n 0x20 8
    leakPos := halves 16 (bs.drop 0x40)
    leakNeg := halves 16 (bs.drop 0x60) }

/-- A neuron's state (Table 4.4). -/
structure NState where
  v : Int
  pop : Nat
  refLeft : Nat
  flags : Nat
  burst : Nat
  last : Nat
  pre : Nat
  post : Nat
  biasOvr : Int
  events : Nat
  lastValue : Nat
  spare : Nat
  deriving DecidableEq, Repr

/-- The state in 16 bytes (Table 4.4). -/
def nstateOf (bs : List Byte) : NState :=
  let n (o k : Nat) : Nat := ofBytes ((bs.drop o).take k)
  { v := signed 24 (n 0 3), pop := bits (n 3 1) 7 4, refLeft := bits (n 3 1) 3 0, flags := n 4 1, burst := n 5 1,
    last := n 6 2, pre := n 8 1, post := n 9 1, biasOvr := signed 16 (n 10 2), events := n 12 2, lastValue := n 14 1,
    spare := n 15 1 }

/-- The 16 bytes of a state (Table 4.4). -/
def nstateBytes (s : NState) : List Byte :=
  toBytes 3 (unsign 24 s.v) ++ toBytes 1 (16 * (s.pop % 16) + s.refLeft % 16) ++ toBytes 1 s.flags ++
    toBytes 1 s.burst ++ toBytes 2 s.last ++ toBytes 1 s.pre ++ toBytes 1 s.post ++ toBytes 2 (unsign 16 s.biasOvr) ++
    toBytes 2 s.events ++ toBytes 1 s.lastValue ++ toBytes 1 s.spare

end Sys2Proof.Machine
end

