-- ==== Sys2Proof/Machine/RegAddr.lean ====
section
/-!
DEFINITION. The device address of every register, under the spec's own name with its index letters as arguments
(R534, R536 and the register maps of spec/). A tile's registers take the tile index `t` first, a stream port's the port
`p`, an engine's `e`, a field's `f`.
-/

namespace Sys2Proof.Machine.Reg

/-- TICK_SYSREF_CFG, Table 2.7. -/
def TICK_SYSREF_CFG : Nat := 0x200000500000

/-- TICK_SYSREF_STATUS, Table 2.7. -/
def TICK_SYSREF_STATUS : Nat := 0x200000500004

/-- TICK_SYSREF_SLIP_COUNT, Table 2.7. -/
def TICK_SYSREF_SLIP_COUNT : Nat := 0x200000500008

/-- TICK_SYSREF_MISS_COUNT, Table 2.7. -/
def TICK_SYSREF_MISS_COUNT : Nat := 0x20000050000C

/-- TICK_QSNAP_CFG, Table 2.7. -/
def TICK_QSNAP_CFG : Nat := 0x200000500010

/-- TICK_IRQ_STATUS, Table 2.7. -/
def TICK_IRQ_STATUS : Nat := 0x200000500014

/-- TICK_IRQ_ENABLE, Table 2.7. -/
def TICK_IRQ_ENABLE : Nat := 0x200000500018

/-- TICK_TIMER_SEL, Table 2.7. -/
def TICK_TIMER_SEL : Nat := 0x20000050001C

/-- TICK_TB_CTRL, Table 2.7. -/
def TICK_TB_CTRL (j : Nat) : Nat := 0x200000500100 + 0x80 * j

/-- TICK_TB_OFFSET, Table 2.7. -/
def TICK_TB_OFFSET (j : Nat) : Nat := 0x200000500104 + 0x80 * j

/-- TICK_TB_USTART, Table 2.7. -/
def TICK_TB_USTART (j : Nat) : Nat := 0x200000500108 + 0x80 * j

/-- TICK_TB_UEND, Table 2.7. -/
def TICK_TB_UEND (j : Nat) : Nat := 0x20000050010C + 0x80 * j

/-- TICK_TB_STRETCH, Table 2.7. -/
def TICK_TB_STRETCH (j : Nat) : Nat := 0x200000500110 + 0x80 * j

/-- TICK_TB_FREE_MIN, Table 2.7. -/
def TICK_TB_FREE_MIN (j : Nat) : Nat := 0x200000500114 + 0x80 * j

/-- TICK_TB_FREE_MAX, Table 2.7. -/
def TICK_TB_FREE_MAX (j : Nat) : Nat := 0x200000500118 + 0x80 * j

/-- TICK_TB_PERIOD, Table 2.7. -/
def TICK_TB_PERIOD (j : Nat) : Nat := 0x20000050011C + 0x80 * j

/-- TICK_TB_NOW_LO, Table 2.7. -/
def TICK_TB_NOW_LO (j : Nat) : Nat := 0x200000500120 + 0x80 * j

/-- TICK_TB_NOW_HI, Table 2.7. -/
def TICK_TB_NOW_HI (j : Nat) : Nat := 0x200000500124 + 0x80 * j

/-- TICK_TB_START_LO, Table 2.7. -/
def TICK_TB_START_LO (j : Nat) : Nat := 0x200000500128 + 0x80 * j

/-- TICK_TB_START_HI, Table 2.7. -/
def TICK_TB_START_HI (j : Nat) : Nat := 0x20000050012C + 0x80 * j

/-- TICK_TB_EVENT, Table 2.7. -/
def TICK_TB_EVENT (j : Nat) : Nat := 0x200000500130 + 0x80 * j

/-- TICK_TB_OVERRUN_COUNT, Table 2.7. -/
def TICK_TB_OVERRUN_COUNT (j : Nat) : Nat := 0x200000500134 + 0x80 * j

/-- TICK_TB_LATE_COUNT, Table 2.7. -/
def TICK_TB_LATE_COUNT (j : Nat) : Nat := 0x200000500138 + 0x80 * j

/-- TICK_TB_LAST_OVERRUN, Table 2.7. -/
def TICK_TB_LAST_OVERRUN (j : Nat) : Nat := 0x20000050013C + 0x80 * j

/-- TICK_TB_STRETCH_LAST, Table 2.7. -/
def TICK_TB_STRETCH_LAST (j : Nat) : Nat := 0x200000500140 + 0x80 * j

/-- TICK_TB_STRETCH_MAX, Table 2.7. -/
def TICK_TB_STRETCH_MAX (j : Nat) : Nat := 0x200000500144 + 0x80 * j

/-- TICK_TB_HOLD_SKIPPED, Table 2.7. -/
def TICK_TB_HOLD_SKIPPED (j : Nat) : Nat := 0x200000500148 + 0x80 * j

/-- TICK_TB_QUIESCE_LAST, Table 2.7. -/
def TICK_TB_QUIESCE_LAST (j : Nat) : Nat := 0x20000050014C + 0x80 * j

/-- TICK_TB_ALIGN_CFG, Table 2.7. -/
def TICK_TB_ALIGN_CFG (j : Nat) : Nat := 0x200000500150 + 0x80 * j

/-- TICK_TB_ALIGN_ERR_COUNT, Table 2.7. -/
def TICK_TB_ALIGN_ERR_COUNT (j : Nat) : Nat := 0x200000500154 + 0x80 * j

/-- TILE_ID, Table 3.9. -/
def TILE_ID (t : Nat) : Nat := 0x100000080000 + 0x100000 * t

/-- TILE_CTRL, Table 3.9. -/
def TILE_CTRL (t : Nat) : Nat := 0x100000080004 + 0x100000 * t

/-- TILE_STATUS, Table 3.9. -/
def TILE_STATUS (t : Nat) : Nat := 0x100000080008 + 0x100000 * t

/-- TILE_SCHED_CFG, Table 3.9. -/
def TILE_SCHED_CFG (t : Nat) : Nat := 0x10000008000C + 0x100000 * t

/-- TILE_RING, Table 3.9. -/
def TILE_RING (t : Nat) : Nat := 0x100000080010 + 0x100000 * t

/-- TILE_FAULT, Table 3.9. -/
def TILE_FAULT (t : Nat) : Nat := 0x100000080014 + 0x100000 * t

/-- TILE_FAULT_PC, Table 3.9. -/
def TILE_FAULT_PC (t : Nat) : Nat := 0x100000080018 + 0x100000 * t

/-- TILE_IRQ_ENABLE, Table 3.9. -/
def TILE_IRQ_ENABLE (t : Nat) : Nat := 0x10000008001C + 0x100000 * t

/-- TILE_SRAM_RET, Table 3.9. -/
def TILE_SRAM_RET (t : Nat) : Nat := 0x100000080020 + 0x100000 * t

/-- TILE_SRAM_RET_STATUS, Table 3.9. -/
def TILE_SRAM_RET_STATUS (t : Nat) : Nat := 0x100000080024 + 0x100000 * t

/-- TILE_SRAM_USE, Table 3.9. -/
def TILE_SRAM_USE (t : Nat) : Nat := 0x100000080028 + 0x100000 * t

/-- TILE_SRAM_CE, Table 3.9. -/
def TILE_SRAM_CE (t : Nat) : Nat := 0x10000008002C + 0x100000 * t

/-- TILE_SRAM_UE, Table 3.9. -/
def TILE_SRAM_UE (t : Nat) : Nat := 0x100000080030 + 0x100000 * t

/-- TILE_STORE_CE, Table 3.9. -/
def TILE_STORE_CE (t : Nat) : Nat := 0x100000080034 + 0x100000 * t

/-- TILE_STORE_UE, Table 3.9. -/
def TILE_STORE_UE (t : Nat) : Nat := 0x100000080038 + 0x100000 * t

/-- TILE_ECC_LAST, Table 3.9. -/
def TILE_ECC_LAST (t : Nat) : Nat := 0x10000008003C + 0x100000 * t

/-- TILE_EQ_STATUS, Table 3.9. -/
def TILE_EQ_STATUS (t : Nat) : Nat := 0x100000080040 + 0x100000 * t

/-- TILE_EQ_HWM, Table 3.9. -/
def TILE_EQ_HWM (t : Nat) : Nat := 0x100000080044 + 0x100000 * t

/-- TILE_DROP_LATE, Table 3.9. -/
def TILE_DROP_LATE (t : Nat) : Nat := 0x100000080048 + 0x100000 * t

/-- TILE_DROP_OVERFLOW, Table 3.9. -/
def TILE_DROP_OVERFLOW (t : Nat) : Nat := 0x10000008004C + 0x100000 * t

/-- TILE_DROP_FENCED, Table 3.9. -/
def TILE_DROP_FENCED (t : Nat) : Nat := 0x100000080050 + 0x100000 * t

/-- TILE_PEPPER_SEED_LO, Table 3.9. -/
def TILE_PEPPER_SEED_LO (t : Nat) : Nat := 0x100000080054 + 0x100000 * t

/-- TILE_PEPPER_SEED_HI, Table 3.9. -/
def TILE_PEPPER_SEED_HI (t : Nat) : Nat := 0x100000080058 + 0x100000 * t

/-- TILE_PEPPER_TICK_LO, Table 3.9. -/
def TILE_PEPPER_TICK_LO (t : Nat) : Nat := 0x10000008005C + 0x100000 * t

/-- TILE_PEPPER_TICK_HI, Table 3.9. -/
def TILE_PEPPER_TICK_HI (t : Nat) : Nat := 0x100000080060 + 0x100000 * t

/-- TILE_END_CLK, Table 3.9. -/
def TILE_END_CLK (t : Nat) : Nat := 0x100000080064 + 0x100000 * t

/-- TILE_END_MAX, Table 3.9. -/
def TILE_END_MAX (t : Nat) : Nat := 0x100000080068 + 0x100000 * t

/-- TILE_REGION_n, Table 3.9. -/
def TILE_REGION (t n : Nat) : Nat := 0x100000080070 + 0x100000 * t + 0x4 * n

/-- TILE_PEPPER_PREV_LO, Table 3.9. -/
def TILE_PEPPER_PREV_LO (t : Nat) : Nat := 0x100000080090 + 0x100000 * t

/-- TILE_PEPPER_PREV_HI, Table 3.9. -/
def TILE_PEPPER_PREV_HI (t : Nat) : Nat := 0x100000080094 + 0x100000 * t

/-- NRN_CTRL, Table 4.8. -/
def NRN_CTRL (t : Nat) : Nat := 0x100000081000 + 0x100000 * t

/-- NRN_STATUS, Table 4.8. -/
def NRN_STATUS (t : Nat) : Nat := 0x100000081004 + 0x100000 * t

/-- NRN_FAULT, Table 4.8. -/
def NRN_FAULT (t : Nat) : Nat := 0x100000081008 + 0x100000 * t

/-- NRN_IRQ_ENABLE, Table 4.8. -/
def NRN_IRQ_ENABLE (t : Nat) : Nat := 0x10000008100C + 0x100000 * t

/-- NRN_FIRED_LAST, Table 4.8. -/
def NRN_FIRED_LAST (t : Nat) : Nat := 0x100000081010 + 0x100000 * t

/-- NRN_FIRED_TOTAL, Table 4.8. -/
def NRN_FIRED_TOTAL (t : Nat) : Nat := 0x100000081014 + 0x100000 * t

/-- NRN_SUPPRESSED, Table 4.8. -/
def NRN_SUPPRESSED (t : Nat) : Nat := 0x100000081018 + 0x100000 * t

/-- NRN_EMIT_LATE, Table 4.8. -/
def NRN_EMIT_LATE (t : Nat) : Nat := 0x10000008101C + 0x100000 * t

/-- NRN_EMIT_HWM, Table 4.8. -/
def NRN_EMIT_HWM (t : Nat) : Nat := 0x100000081020 + 0x100000 * t

/-- NRN_UPDATE_CLK, Table 4.8. -/
def NRN_UPDATE_CLK (t : Nat) : Nat := 0x100000081024 + 0x100000 * t

/-- NRN_POP_SKIPPED, Table 4.8. -/
def NRN_POP_SKIPPED (t : Nat) : Nat := 0x100000081028 + 0x100000 * t

/-- NRN_BMP_SEL, Table 4.8. -/
def NRN_BMP_SEL (t : Nat) : Nat := 0x10000008102C + 0x100000 * t

/-- NRN_BMP_w, Table 4.8. -/
def NRN_BMP (t w : Nat) : Nat := 0x100000081100 + 0x100000 * t + 0x4 * w

/-- SYN_CTRL, Table 5.8. -/
def SYN_CTRL (t : Nat) : Nat := 0x100000082000 + 0x100000 * t

/-- SYN_STATUS, Table 5.8. -/
def SYN_STATUS (t : Nat) : Nat := 0x100000082004 + 0x100000 * t

/-- SYN_FAULT, Table 5.8. -/
def SYN_FAULT (t : Nat) : Nat := 0x100000082008 + 0x100000 * t

/-- SYN_IRQ_ENABLE, Table 5.8. -/
def SYN_IRQ_ENABLE (t : Nat) : Nat := 0x10000008200C + 0x100000 * t

/-- SYN_KEY_CFG, Table 5.8. -/
def SYN_KEY_CFG (t : Nat) : Nat := 0x100000082010 + 0x100000 * t

/-- SYN_GIN_CFG, Table 5.8. -/
def SYN_GIN_CFG (t : Nat) : Nat := 0x100000082014 + 0x100000 * t

/-- SYN_CB_CFG, Table 5.8. -/
def SYN_CB_CFG (t : Nat) : Nat := 0x100000082018 + 0x100000 * t

/-- SYN_STRM_CFG, Table 5.8. -/
def SYN_STRM_CFG (t : Nat) : Nat := 0x10000008201C + 0x100000 * t

/-- SYN_EVENTS, Table 5.8. -/
def SYN_EVENTS (t : Nat) : Nat := 0x100000082020 + 0x100000 * t

/-- SYN_FETCHES, Table 5.8. -/
def SYN_FETCHES (t : Nat) : Nat := 0x100000082024 + 0x100000 * t

/-- SYN_REUSES, Table 5.8. -/
def SYN_REUSES (t : Nat) : Nat := 0x100000082028 + 0x100000 * t

/-- SYN_DROP_NOKEY, Table 5.8. -/
def SYN_DROP_NOKEY (t : Nat) : Nat := 0x10000008202C + 0x100000 * t

/-- SYN_ACC_SAT, Table 5.8. -/
def SYN_ACC_SAT (t : Nat) : Nat := 0x100000082030 + 0x100000 * t

/-- SYN_HDR_MISMATCH, Table 5.8. -/
def SYN_HDR_MISMATCH (t : Nat) : Nat := 0x100000082034 + 0x100000 * t

/-- SYN_GIN_LATE, Table 5.8. -/
def SYN_GIN_LATE (t : Nat) : Nat := 0x100000082038 + 0x100000 * t

/-- SYN_GIN_DUP, Table 5.8. -/
def SYN_GIN_DUP (t : Nat) : Nat := 0x10000008203C + 0x100000 * t

/-- SYN_STRM_DISCARD, Table 5.8. -/
def SYN_STRM_DISCARD (t : Nat) : Nat := 0x100000082040 + 0x100000 * t

/-- SYN_SLIP_COUNT, Table 5.8. -/
def SYN_SLIP_COUNT (t : Nat) : Nat := 0x100000082044 + 0x100000 * t

/-- SYN_SLIP_LAST, Table 5.8. -/
def SYN_SLIP_LAST (t : Nat) : Nat := 0x100000082048 + 0x100000 * t

/-- SYN_SLIP_ENTRY, Table 5.8. -/
def SYN_SLIP_ENTRY (t : Nat) : Nat := 0x10000008204C + 0x100000 * t

/-- SYN_GATHER_CLK, Table 5.8. -/
def SYN_GATHER_CLK (t : Nat) : Nat := 0x100000082050 + 0x100000 * t

/-- SYN_STRM_OUT, Table 5.8. -/
def SYN_STRM_OUT (t : Nat) : Nat := 0x100000082054 + 0x100000 * t

/-- QNT_CFG, Table 6.7. -/
def QNT_CFG (p : Nat) : Nat := 0x200000A08000 + 0x10000 * p

/-- QNT_SCALE_FLOOR, Table 6.7. -/
def QNT_SCALE_FLOOR (p : Nat) : Nat := 0x200000A08004 + 0x10000 * p

/-- QNT_SCALE_INIT, Table 6.7. -/
def QNT_SCALE_INIT (p : Nat) : Nat := 0x200000A08008 + 0x10000 * p

/-- QNT_SCALE_AXON, Table 6.7. -/
def QNT_SCALE_AXON (p : Nat) : Nat := 0x200000A0800C + 0x10000 * p

/-- QNT_STATUS, Table 6.7. -/
def QNT_STATUS (p : Nat) : Nat := 0x200000A08010 + 0x10000 * p

/-- QNT_CLIP_COUNT, Table 6.7. -/
def QNT_CLIP_COUNT (p : Nat) : Nat := 0x200000A08014 + 0x10000 * p

/-- QNT_FLOOR_COUNT, Table 6.7. -/
def QNT_FLOOR_COUNT (p : Nat) : Nat := 0x200000A08018 + 0x10000 * p

/-- QNT_GROUP_SEL, Table 6.7. -/
def QNT_GROUP_SEL (p : Nat) : Nat := 0x200000A0801C + 0x10000 * p

/-- QNT_GROUP_SCALE, Table 6.7. -/
def QNT_GROUP_SCALE (p : Nat) : Nat := 0x200000A08020 + 0x10000 * p

/-- QNT_GROUP_MAX, Table 6.7. -/
def QNT_GROUP_MAX (p : Nat) : Nat := 0x200000A08024 + 0x10000 * p

/-- QNT_FAULT, Table 6.7. -/
def QNT_FAULT (p : Nat) : Nat := 0x200000A08028 + 0x10000 * p

/-- QNT_IRQ_ENABLE, Table 6.7. -/
def QNT_IRQ_ENABLE (p : Nat) : Nat := 0x200000A0802C + 0x10000 * p

/-- ENC_CTRL, Table 7.8. -/
def ENC_CTRL (p : Nat) : Nat := 0x200000A00000 + 0x10000 * p

/-- ENC_STATUS, Table 7.8. -/
def ENC_STATUS (p : Nat) : Nat := 0x200000A00004 + 0x10000 * p

/-- ENC_LINK_CFG, Table 7.8. -/
def ENC_LINK_CFG (p : Nat) : Nat := 0x200000A00008 + 0x10000 * p

/-- ENC_LANE_MAP, Table 7.8. -/
def ENC_LANE_MAP (p : Nat) : Nat := 0x200000A0000C + 0x10000 * p

/-- ENC_LINK_STATUS, Table 7.8. -/
def ENC_LINK_STATUS (p : Nat) : Nat := 0x200000A00010 + 0x10000 * p

/-- ENC_CHAN_CFG, Table 7.8. -/
def ENC_CHAN_CFG (p : Nat) : Nat := 0x200000A00014 + 0x10000 * p

/-- ENC_FEAT_CFG, Table 7.8. -/
def ENC_FEAT_CFG (p : Nat) : Nat := 0x200000A00018 + 0x10000 * p

/-- ENC_SEG, Table 7.8. -/
def ENC_SEG (p : Nat) : Nat := 0x200000A0001C + 0x10000 * p

/-- ENC_SPT, Table 7.8. -/
def ENC_SPT (p : Nat) : Nat := 0x200000A00020 + 0x10000 * p

/-- ENC_CAPTURE_LEAD, Table 7.8. -/
def ENC_CAPTURE_LEAD (p : Nat) : Nat := 0x200000A00024 + 0x10000 * p

/-- ENC_PIPE_LAT, Table 7.8. -/
def ENC_PIPE_LAT (p : Nat) : Nat := 0x200000A00028 + 0x10000 * p

/-- ENC_GEN_CFG, Table 7.8. -/
def ENC_GEN_CFG (p : Nat) : Nat := 0x200000A0002C + 0x10000 * p

/-- ENC_EVT_MAX, Table 7.8. -/
def ENC_EVT_MAX (p : Nat) : Nat := 0x200000A00030 + 0x10000 * p

/-- ENC_INJ_DEADLINE, Table 7.8. -/
def ENC_INJ_DEADLINE (p : Nat) : Nat := 0x200000A00034 + 0x10000 * p

/-- ENC_PEPPER_SEED_LO, Table 7.8. -/
def ENC_PEPPER_SEED_LO (p : Nat) : Nat := 0x200000A00038 + 0x10000 * p

/-- ENC_PEPPER_SEED_HI, Table 7.8. -/
def ENC_PEPPER_SEED_HI (p : Nat) : Nat := 0x200000A0003C + 0x10000 * p

/-- ENC_REPLAY_BASE_LO, Table 7.8. -/
def ENC_REPLAY_BASE_LO (p : Nat) : Nat := 0x200000A00040 + 0x10000 * p

/-- ENC_REPLAY_BASE_HI, Table 7.8. -/
def ENC_REPLAY_BASE_HI (p : Nat) : Nat := 0x200000A00044 + 0x10000 * p

/-- ENC_REPLAY_LEN, Table 7.8. -/
def ENC_REPLAY_LEN (p : Nat) : Nat := 0x200000A00048 + 0x10000 * p

/-- ENC_REPLAY_POS, Table 7.8. -/
def ENC_REPLAY_POS (p : Nat) : Nat := 0x200000A0004C + 0x10000 * p

/-- ENC_FAULT, Table 7.8. -/
def ENC_FAULT (p : Nat) : Nat := 0x200000A00050 + 0x10000 * p

/-- ENC_IRQ_ENABLE, Table 7.8. -/
def ENC_IRQ_ENABLE (p : Nat) : Nat := 0x200000A00054 + 0x10000 * p

/-- ENC_EVENTS, Table 7.8. -/
def ENC_EVENTS (p : Nat) : Nat := 0x200000A00058 + 0x10000 * p

/-- ENC_DROP_BUDGET, Table 7.8. -/
def ENC_DROP_BUDGET (p : Nat) : Nat := 0x200000A0005C + 0x10000 * p

/-- ENC_DROP_LATE, Table 7.8. -/
def ENC_DROP_LATE (p : Nat) : Nat := 0x200000A00060 + 0x10000 * p

/-- ENC_GAP_INTERVALS, Table 7.8. -/
def ENC_GAP_INTERVALS (p : Nat) : Nat := 0x200000A00064 + 0x10000 * p

/-- ENC_UNIT_SUPP, Table 7.8. -/
def ENC_UNIT_SUPP (p : Nat) : Nat := 0x200000A00068 + 0x10000 * p

/-- ENC_CH_SAT, Table 7.8. -/
def ENC_CH_SAT (p : Nat) : Nat := 0x200000A0006C + 0x10000 * p

/-- ENC_CRC_ERR, Table 7.8. -/
def ENC_CRC_ERR (p : Nat) : Nat := 0x200000A00070 + 0x10000 * p

/-- ENC_LINK_DROPS, Table 7.8. -/
def ENC_LINK_DROPS (p : Nat) : Nat := 0x200000A00074 + 0x10000 * p

/-- ENC_INJ_LAST, Table 7.8. -/
def ENC_INJ_LAST (p : Nat) : Nat := 0x200000A00078 + 0x10000 * p

/-- ENC_EPOCH, Table 7.8. -/
def ENC_EPOCH (p : Nat) : Nat := 0x200000A0007C + 0x10000 * p

/-- ENC_HOLD_OLDEST, Table 7.8. -/
def ENC_HOLD_OLDEST (p : Nat) : Nat := 0x200000A00080 + 0x10000 * p

/-- ENC_REPLAYS, Table 7.8. -/
def ENC_REPLAYS (p : Nat) : Nat := 0x200000A00084 + 0x10000 * p

/-- ENC_ROUTE_s_n, Table 7.8. -/
def ENC_ROUTE (p s n w : Nat) : Nat := 0x200000A01000 + 0x10000 * p + 0x200 * s + 0x10 * n + 0x4 * w

/-- ENC_COEF, Table 7.8. -/
def ENC_COEF (p i : Nat) : Nat := 0x200000A04000 + 0x10000 * p + 0x4 * i

/-- DEC_S_CFG, Table 7.14. -/
def DEC_S_CFG (p : Nat) : Nat := 0x200000A0C000 + 0x10000 * p

/-- DEC_S_STATUS, Table 7.14. -/
def DEC_S_STATUS (p : Nat) : Nat := 0x200000A0C004 + 0x10000 * p

/-- DEC_S_RECORDS, Table 7.14. -/
def DEC_S_RECORDS (p : Nat) : Nat := 0x200000A0C008 + 0x10000 * p

/-- DEC_S_RETRACTS, Table 7.14. -/
def DEC_S_RETRACTS (p : Nat) : Nat := 0x200000A0C00C + 0x10000 * p

/-- DEC_S_GAP, Table 7.14. -/
def DEC_S_GAP (p : Nat) : Nat := 0x200000A0C010 + 0x10000 * p

/-- DEC_S_DISCARD, Table 7.14. -/
def DEC_S_DISCARD (p : Nat) : Nat := 0x200000A0C014 + 0x10000 * p

/-- DEC_S_LAST_w, Table 7.14. -/
def DEC_S_LAST (p w : Nat) : Nat := 0x200000A0C020 + 0x10000 * p + 0x4 * w

/-- DEC_CTRL, Table 7.15. -/
def DEC_CTRL (t : Nat) : Nat := 0x100000088000 + 0x100000 * t

/-- DEC_POPS, Table 7.15. -/
def DEC_POPS (t : Nat) : Nat := 0x100000088004 + 0x100000 * t

/-- DEC_WINDOW, Table 7.15. -/
def DEC_WINDOW (t : Nat) : Nat := 0x100000088008 + 0x100000 * t

/-- DEC_CLASS_BASE, Table 7.15. -/
def DEC_CLASS_BASE (t : Nat) : Nat := 0x10000008800C + 0x100000 * t

/-- DEC_RING, Table 7.15. -/
def DEC_RING (t : Nat) : Nat := 0x100000088010 + 0x100000 * t

/-- DEC_OUT, Table 7.15. -/
def DEC_OUT (t : Nat) : Nat := 0x100000088014 + 0x100000 * t

/-- DEC_STATUS, Table 7.15. -/
def DEC_STATUS (t : Nat) : Nat := 0x100000088018 + 0x100000 * t

/-- DEC_LAST, Table 7.15. -/
def DEC_LAST (t : Nat) : Nat := 0x10000008801C + 0x100000 * t

/-- DEC_CALC_CLK, Table 7.15. -/
def DEC_CALC_CLK (t : Nat) : Nat := 0x100000088020 + 0x100000 * t

/-- LRN_CTRL, Table 8.3. -/
def LRN_CTRL (t : Nat) : Nat := 0x100000083000 + 0x100000 * t

/-- LRN_STATUS, Table 8.3. -/
def LRN_STATUS (t : Nat) : Nat := 0x100000083004 + 0x100000 * t

/-- LRN_FAULT, Table 8.3. -/
def LRN_FAULT (t : Nat) : Nat := 0x100000083008 + 0x100000 * t

/-- LRN_IRQ_ENABLE, Table 8.3. -/
def LRN_IRQ_ENABLE (t : Nat) : Nat := 0x10000008300C + 0x100000 * t

/-- LRN_CFG, Table 8.3. -/
def LRN_CFG (t : Nat) : Nat := 0x100000083010 + 0x100000 * t

/-- LRN_TRACE_CFG, Table 8.3. -/
def LRN_TRACE_CFG (t : Nat) : Nat := 0x100000083014 + 0x100000 * t

/-- LRN_EPOCH_CFG, Table 8.3. -/
def LRN_EPOCH_CFG (t : Nat) : Nat := 0x100000083018 + 0x100000 * t

/-- LRN_CKPT_CFG, Table 8.3. -/
def LRN_CKPT_CFG (t : Nat) : Nat := 0x10000008301C + 0x100000 * t

/-- LRN_MOW_CFG, Table 8.3. -/
def LRN_MOW_CFG (t : Nat) : Nat := 0x100000083020 + 0x100000 * t

/-- LRN_FB_POS, Table 8.3. -/
def LRN_FB_POS (t : Nat) : Nat := 0x100000083024 + 0x100000 * t

/-- LRN_FB_NEG, Table 8.3. -/
def LRN_FB_NEG (t : Nat) : Nat := 0x100000083028 + 0x100000 * t

/-- LRN_LABEL_CFG, Table 8.3. -/
def LRN_LABEL_CFG (t : Nat) : Nat := 0x10000008302C + 0x100000 * t

/-- LRN_LABEL_NRN, Table 8.3. -/
def LRN_LABEL_NRN (t : Nat) : Nat := 0x100000083030 + 0x100000 * t

/-- LRN_LABEL_PUSH, Table 8.3. -/
def LRN_LABEL_PUSH (t : Nat) : Nat := 0x100000083034 + 0x100000 * t

/-- LRN_LABEL_STATUS, Table 8.3. -/
def LRN_LABEL_STATUS (t : Nat) : Nat := 0x100000083038 + 0x100000 * t

/-- LRN_MOW_COUNT, Table 8.3. -/
def LRN_MOW_COUNT (t : Nat) : Nat := 0x10000008303C + 0x100000 * t

/-- LRN_MOW_COUNT_SET, Table 8.3. -/
def LRN_MOW_COUNT_SET (t : Nat) : Nat := 0x100000083040 + 0x100000 * t

/-- LRN_INCS, Table 8.3. -/
def LRN_INCS (t : Nat) : Nat := 0x100000083044 + 0x100000 * t

/-- LRN_FB_EVENTS, Table 8.3. -/
def LRN_FB_EVENTS (t : Nat) : Nat := 0x100000083048 + 0x100000 * t

/-- LRN_FB_NOKEY, Table 8.3. -/
def LRN_FB_NOKEY (t : Nat) : Nat := 0x10000008304C + 0x100000 * t

/-- LRN_DELTA_ADDS, Table 8.3. -/
def LRN_DELTA_ADDS (t : Nat) : Nat := 0x100000083050 + 0x100000 * t

/-- LRN_MOW_ROWS, Table 8.3. -/
def LRN_MOW_ROWS (t : Nat) : Nat := 0x100000083054 + 0x100000 * t

/-- LRN_MOW_CHANGED, Table 8.3. -/
def LRN_MOW_CHANGED (t : Nat) : Nat := 0x100000083058 + 0x100000 * t

/-- LRN_MOW_CLAMP, Table 8.3. -/
def LRN_MOW_CLAMP (t : Nat) : Nat := 0x10000008305C + 0x100000 * t

/-- LRN_MOW_PARTIAL, Table 8.3. -/
def LRN_MOW_PARTIAL (t : Nat) : Nat := 0x100000083060 + 0x100000 * t

/-- LRN_REPLAY_SKIP, Table 8.3. -/
def LRN_REPLAY_SKIP (t : Nat) : Nat := 0x100000083064 + 0x100000 * t

/-- LRN_LABEL_APPLIED, Table 8.3. -/
def LRN_LABEL_APPLIED (t : Nat) : Nat := 0x100000083068 + 0x100000 * t

/-- LRN_LABEL_STALE, Table 8.3. -/
def LRN_LABEL_STALE (t : Nat) : Nat := 0x10000008306C + 0x100000 * t

/-- LRN_LABEL_DROP, Table 8.3. -/
def LRN_LABEL_DROP (t : Nat) : Nat := 0x100000083070 + 0x100000 * t

/-- LRN_MOW_CLK, Table 8.3. -/
def LRN_MOW_CLK (t : Nat) : Nat := 0x100000083074 + 0x100000 * t

/-- LRN_BLK_n_A, Table 8.3. -/
def LRN_BLK_A (t n : Nat) : Nat := 0x100000083080 + 0x100000 * t + 0x10 * n

/-- LRN_BLK_n_B, Table 8.3. -/
def LRN_BLK_B (t n : Nat) : Nat := 0x100000083084 + 0x100000 * t + 0x10 * n

/-- LRN_BLK_n_C, Table 8.3. -/
def LRN_BLK_C (t n : Nat) : Nat := 0x100000083088 + 0x100000 * t + 0x10 * n

/-- RTR_CTRL, Table 9.13. -/
def RTR_CTRL (t : Nat) : Nat := 0x100000084000 + 0x100000 * t

/-- RTR_STATUS, Table 9.13. -/
def RTR_STATUS (t : Nat) : Nat := 0x100000084004 + 0x100000 * t

/-- RTR_FAULT, Table 9.13. -/
def RTR_FAULT (t : Nat) : Nat := 0x100000084008 + 0x100000 * t

/-- RTR_IRQ_ENABLE, Table 9.13. -/
def RTR_IRQ_ENABLE (t : Nat) : Nat := 0x10000008400C + 0x100000 * t

/-- RTR_EPOCH, Table 9.13. -/
def RTR_EPOCH (t : Nat) : Nat := 0x100000084010 + 0x100000 * t

/-- RTR_TAP_CFG, Table 9.13. -/
def RTR_TAP_CFG (t : Nat) : Nat := 0x100000084014 + 0x100000 * t

/-- RTR_TREE, Table 9.13. -/
def RTR_TREE (t : Nat) : Nat := 0x100000084018 + 0x100000 * t

/-- RTR_WDOG_CFG, Table 9.13. -/
def RTR_WDOG_CFG (t : Nat) : Nat := 0x10000008401C + 0x100000 * t

/-- RTR_CRC_ERR, Table 9.13. -/
def RTR_CRC_ERR (t : Nat) : Nat := 0x100000084020 + 0x100000 * t

/-- RTR_DROP_LATE, Table 9.13. -/
def RTR_DROP_LATE (t : Nat) : Nat := 0x100000084024 + 0x100000 * t

/-- RTR_DROP_PRUNE, Table 9.13. -/
def RTR_DROP_PRUNE (t : Nat) : Nat := 0x100000084028 + 0x100000 * t

/-- RTR_DROP_NOROUTE, Table 9.13. -/
def RTR_DROP_NOROUTE (t : Nat) : Nat := 0x10000008402C + 0x100000 * t

/-- RTR_WAIT_MAX, Table 9.13. -/
def RTR_WAIT_MAX (t : Nat) : Nat := 0x100000084030 + 0x100000 * t

/-- RTR_CNS_SENT, Table 9.13. -/
def RTR_CNS_SENT (t : Nat) : Nat := 0x100000084034 + 0x100000 * t

/-- RTR_CNS_DELIV, Table 9.13. -/
def RTR_CNS_DELIV (t : Nat) : Nat := 0x100000084038 + 0x100000 * t

/-- RTR_CNS_DROP, Table 9.13. -/
def RTR_CNS_DROP (t : Nat) : Nat := 0x10000008403C + 0x100000 * t

/-- RTR_CREDIT_p, Table 9.13. -/
def RTR_CREDIT (t p : Nat) : Nat := 0x100000084040 + 0x100000 * t + 0x4 * p

/-- RTR_OCC_p, Table 9.13. -/
def RTR_OCC (t p : Nat) : Nat := 0x100000084060 + 0x100000 * t + 0x4 * p

/-- RTR_FLITS_p, Table 9.13. -/
def RTR_FLITS (t p : Nat) : Nat := 0x100000084080 + 0x100000 * t + 0x4 * p

/-- RTR_XT_s_w, Table 9.13. -/
def RTR_XT (t s w : Nat) : Nat := 0x100000084100 + 0x100000 * t + 0x80 * s + 0x4 * w

/-- RTR_YT_s_w, Table 9.13. -/
def RTR_YT (t s w : Nat) : Nat := 0x100000084140 + 0x100000 * t + 0x80 * s + 0x4 * w

/-- SEAM_ROW_GOOD_LO, Table 9.19. -/
def SEAM_ROW_GOOD_LO : Nat := 0x200000D00000

/-- SEAM_ROW_GOOD_HI, Table 9.19. -/
def SEAM_ROW_GOOD_HI : Nat := 0x200000D00004

/-- SEAM_ROW_EN_LO, Table 9.19. -/
def SEAM_ROW_EN_LO : Nat := 0x200000D00008

/-- SEAM_ROW_EN_HI, Table 9.19. -/
def SEAM_ROW_EN_HI : Nat := 0x200000D0000C

/-- SEAM_STATUS, Table 9.19. -/
def SEAM_STATUS : Nat := 0x200000D00010

/-- SEAM_FAULT, Table 9.19. -/
def SEAM_FAULT : Nat := 0x200000D00014

/-- SEAM_IRQ_ENABLE, Table 9.19. -/
def SEAM_IRQ_ENABLE : Nat := 0x200000D00018

/-- SEAM_BUDGET, Table 9.19. -/
def SEAM_BUDGET : Nat := 0x200000D0001C

/-- SEAM_OVER_COUNT, Table 9.19. -/
def SEAM_OVER_COUNT : Nat := 0x200000D00020

/-- SEAM_ROW_SEL, Table 9.19. -/
def SEAM_ROW_SEL : Nat := 0x200000D00024

/-- SEAM_ROW_LAST, Table 9.19. -/
def SEAM_ROW_LAST : Nat := 0x200000D00028

/-- SEAM_ROW_MAX, Table 9.19. -/
def SEAM_ROW_MAX : Nat := 0x200000D0002C

/-- SEAM_EPOCH_SWITCH, Table 9.19. -/
def SEAM_EPOCH_SWITCH : Nat := 0x200000D00030

/-- SEAM_EPOCH_STATUS, Table 9.19. -/
def SEAM_EPOCH_STATUS : Nat := 0x200000D00034

/-- SEAM_MGMT_EPOCH, Table 9.19. -/
def SEAM_MGMT_EPOCH : Nat := 0x200000D00038

/-- SEAM_DRAIN_CTRL, Table 9.19. -/
def SEAM_DRAIN_CTRL : Nat := 0x200000D0003C

/-- SEAM_DRAIN_RESULT, Table 9.19. -/
def SEAM_DRAIN_RESULT : Nat := 0x200000D00040

/-- CHN_STATUS, Table 10.8. -/
def CHN_STATUS (t : Nat) : Nat := 0x100000085000 + 0x100000 * t

/-- CHN_FAULT, Table 10.8. -/
def CHN_FAULT (t : Nat) : Nat := 0x100000085004 + 0x100000 * t

/-- CHN_IRQ_ENABLE, Table 10.8. -/
def CHN_IRQ_ENABLE (t : Nat) : Nat := 0x100000085008 + 0x100000 * t

/-- CHN_SENT, Table 10.8. -/
def CHN_SENT (t : Nat) : Nat := 0x10000008500C + 0x100000 * t

/-- CHN_ACCEPTED, Table 10.8. -/
def CHN_ACCEPTED (t : Nat) : Nat := 0x100000085010 + 0x100000 * t

/-- CHN_COMMITTED, Table 10.8. -/
def CHN_COMMITTED (t : Nat) : Nat := 0x100000085014 + 0x100000 * t

/-- CHN_OVERFLOW, Table 10.8. -/
def CHN_OVERFLOW (t : Nat) : Nat := 0x100000085018 + 0x100000 * t

/-- CHN_DISCARD, Table 10.8. -/
def CHN_DISCARD (t : Nat) : Nat := 0x10000008501C + 0x100000 * t

/-- CHN_POISON, Table 10.8. -/
def CHN_POISON (t : Nat) : Nat := 0x100000085020 + 0x100000 * t

/-- CHN_TX_INVALID, Table 10.8. -/
def CHN_TX_INVALID (t : Nat) : Nat := 0x100000085024 + 0x100000 * t

/-- CHN_BC_CTRL, Table 10.8. -/
def CHN_BC_CTRL (t : Nat) : Nat := 0x100000085028 + 0x100000 * t

/-- CHN_BC_STATUS, Table 10.8. -/
def CHN_BC_STATUS (t : Nat) : Nat := 0x10000008502C + 0x100000 * t

/-- CHN_BC_MAP_LO, Table 10.8. -/
def CHN_BC_MAP_LO (t : Nat) : Nat := 0x100000085030 + 0x100000 * t

/-- CHN_BC_MAP_HI, Table 10.8. -/
def CHN_BC_MAP_HI (t : Nat) : Nat := 0x100000085034 + 0x100000 * t

/-- CHN_BC_CRC, Table 10.8. -/
def CHN_BC_CRC (t : Nat) : Nat := 0x100000085038 + 0x100000 * t

/-- CHN_BC_EXPECT, Table 10.8. -/
def CHN_BC_EXPECT (t : Nat) : Nat := 0x10000008503C + 0x100000 * t

/-- CHN_BC_DROP, Table 10.8. -/
def CHN_BC_DROP (t : Nat) : Nat := 0x100000085040 + 0x100000 * t

/-- CHN_TX_n, Table 10.8. -/
def CHN_TX (t n : Nat) : Nat := 0x100000085100 + 0x100000 * t + 0x4 * n

/-- CHN_RX_n_CFG, Table 10.8. -/
def CHN_RX_CFG (t n : Nat) : Nat := 0x100000085200 + 0x100000 * t + 0x10 * n

/-- CHN_RX_n_WPTR, Table 10.8. -/
def CHN_RX_WPTR (t n : Nat) : Nat := 0x100000085204 + 0x100000 * t + 0x10 * n

/-- CHN_RX_n_RPTR, Table 10.8. -/
def CHN_RX_RPTR (t n : Nat) : Nat := 0x100000085208 + 0x100000 * t + 0x10 * n

/-- CHN_RX_n_STAT, Table 10.8. -/
def CHN_RX_STAT (t n : Nat) : Nat := 0x10000008520C + 0x100000 * t + 0x10 * n

/-- NLK_CTRL, Table 11.12. -/
def NLK_CTRL (e : Nat) : Nat := 0x200000B00000 + 0x10000 * e

/-- NLK_STATUS, Table 11.12. -/
def NLK_STATUS (e : Nat) : Nat := 0x200000B00004 + 0x10000 * e

/-- NLK_FAULT, Table 11.12. -/
def NLK_FAULT (e : Nat) : Nat := 0x200000B00008 + 0x10000 * e

/-- NLK_IRQ_ENABLE, Table 11.12. -/
def NLK_IRQ_ENABLE (e : Nat) : Nat := 0x200000B0000C + 0x10000 * e

/-- NLK_CFG, Table 11.12. -/
def NLK_CFG (e : Nat) : Nat := 0x200000B00010 + 0x10000 * e

/-- NLK_WDOG, Table 11.12. -/
def NLK_WDOG (e : Nat) : Nat := 0x200000B00014 + 0x10000 * e

/-- NLK_CRC_ERR, Table 11.12. -/
def NLK_CRC_ERR (e : Nat) : Nat := 0x200000B00018 + 0x10000 * e

/-- NLK_RETRIES, Table 11.12. -/
def NLK_RETRIES (e : Nat) : Nat := 0x200000B0001C + 0x10000 * e

/-- NLK_RETRAINS, Table 11.12. -/
def NLK_RETRAINS (e : Nat) : Nat := 0x200000B00020 + 0x10000 * e

/-- NLK_FEC_CORR, Table 11.12. -/
def NLK_FEC_CORR (e : Nat) : Nat := 0x200000B00024 + 0x10000 * e

/-- NLK_FEC_UNCORR, Table 11.12. -/
def NLK_FEC_UNCORR (e : Nat) : Nat := 0x200000B00028 + 0x10000 * e

/-- NLK_TX_FRAMES, Table 11.12. -/
def NLK_TX_FRAMES (e : Nat) : Nat := 0x200000B0002C + 0x10000 * e

/-- NLK_RX_FRAMES, Table 11.12. -/
def NLK_RX_FRAMES (e : Nat) : Nat := 0x200000B00030 + 0x10000 * e

/-- NLK_RETRY_OCC, Table 11.12. -/
def NLK_RETRY_OCC (e : Nat) : Nat := 0x200000B00034 + 0x10000 * e

/-- NLK_RTT, Table 11.12. -/
def NLK_RTT (e : Nat) : Nat := 0x200000B00038 + 0x10000 * e

/-- NLK_CREDIT_v, Table 11.12. -/
def NLK_CREDIT (e v : Nat) : Nat := 0x200000B00040 + 0x10000 * e + 0x4 * v

/-- NLK_RXOCC_v, Table 11.12. -/
def NLK_RXOCC (e v : Nat) : Nat := 0x200000B00080 + 0x10000 * e + 0x4 * v

/-- GW_TOPO, Table 11.15. -/
def GW_TOPO : Nat := 0x200000C00000

/-- GW_STATUS, Table 11.15. -/
def GW_STATUS : Nat := 0x200000C00004

/-- GW_FAULT, Table 11.15. -/
def GW_FAULT : Nat := 0x200000C00008

/-- GW_IRQ_ENABLE, Table 11.15. -/
def GW_IRQ_ENABLE : Nat := 0x200000C0000C

/-- GW_KT_ADDR, Table 11.15. -/
def GW_KT_ADDR : Nat := 0x200000C00010

/-- GW_KT_DATA_LO, Table 11.15. -/
def GW_KT_DATA_LO : Nat := 0x200000C00014

/-- GW_KT_DATA_HI, Table 11.15. -/
def GW_KT_DATA_HI : Nat := 0x200000C00018

/-- GW_OUT_ADDR, Table 11.15. -/
def GW_OUT_ADDR : Nat := 0x200000C0001C

/-- GW_OUT_DATA_LO, Table 11.15. -/
def GW_OUT_DATA_LO : Nat := 0x200000C00020

/-- GW_OUT_DATA_HI, Table 11.15. -/
def GW_OUT_DATA_HI : Nat := 0x200000C00024

/-- GW_COLL_TO, Table 11.15. -/
def GW_COLL_TO : Nat := 0x200000C00028

/-- GW_OUT_WIN_d, Table 11.15. -/
def GW_OUT_WIN (d : Nat) : Nat := 0x200000C00030 + 0x4 * d

/-- GW_DROP_NOKEY, Table 11.15. -/
def GW_DROP_NOKEY : Nat := 0x200000C00040

/-- GW_DROP_LATE, Table 11.15. -/
def GW_DROP_LATE : Nat := 0x200000C00044

/-- GW_DROP_FULL, Table 11.15. -/
def GW_DROP_FULL : Nat := 0x200000C00048

/-- GW_DROP_UNREACH, Table 11.15. -/
def GW_DROP_UNREACH : Nat := 0x200000C0004C

/-- GW_DROP_RESET, Table 11.15. -/
def GW_DROP_RESET : Nat := 0x200000C00050

/-- GW_HOLD_OVF, Table 11.15. -/
def GW_HOLD_OVF : Nat := 0x200000C00054

/-- GW_REPLAYS, Table 11.15. -/
def GW_REPLAYS : Nat := 0x200000C00058

/-- GW_FENCE_HELD, Table 11.15. -/
def GW_FENCE_HELD : Nat := 0x200000C0005C

/-- GW_KT_CE, Table 11.15. -/
def GW_KT_CE : Nat := 0x200000C00060

/-- GW_KT_UE, Table 11.15. -/
def GW_KT_UE : Nat := 0x200000C00064

/-- GW_TOK_d, Table 11.15. -/
def GW_TOK (d : Nat) : Nat := 0x200000C00070 + 0x4 * d

/-- GW_JOB_j_CFG, Table 11.15. -/
def GW_JOB_CFG (j : Nat) : Nat := 0x200000C00100 + 0x20 * j

/-- GW_JOB_j_RECT, Table 11.15. -/
def GW_JOB_RECT (j : Nat) : Nat := 0x200000C00104 + 0x20 * j

/-- GW_JOB_j_CMD, Table 11.15. -/
def GW_JOB_CMD (j : Nat) : Nat := 0x200000C00108 + 0x20 * j

/-- GW_JOB_j_EVENT, Table 11.15. -/
def GW_JOB_EVENT (j : Nat) : Nat := 0x200000C0010C + 0x20 * j

/-- GW_JOB_j_REWIND, Table 11.15. -/
def GW_JOB_REWIND (j : Nat) : Nat := 0x200000C00110 + 0x20 * j

/-- GW_JOB_j_DRAIN, Table 11.15. -/
def GW_JOB_DRAIN (j : Nat) : Nat := 0x200000C00114 + 0x20 * j

/-- GW_JOB_j_QLAST, Table 11.15. -/
def GW_JOB_QLAST (j : Nat) : Nat := 0x200000C00118 + 0x20 * j

/-- CHK_CTRL, Table 12.7. -/
def CHK_CTRL : Nat := 0x200000600000

/-- CHK_STATUS, Table 12.7. -/
def CHK_STATUS : Nat := 0x200000600004

/-- CHK_IRQ_STATUS, Table 12.7. -/
def CHK_IRQ_STATUS : Nat := 0x200000600008

/-- CHK_IRQ_ENABLE, Table 12.7. -/
def CHK_IRQ_ENABLE : Nat := 0x20000060000C

/-- CHK_CNT_n, Table 12.7. -/
def CHK_CNT (n : Nat) : Nat := 0x200000600100 + 0x4 * n

/-- CHK_THR_n, Table 12.7. -/
def CHK_THR (n : Nat) : Nat := 0x200000600140 + 0x4 * n

/-- CHK_JOB_j_CFG, Table 12.7. -/
def CHK_JOB_CFG (j : Nat) : Nat := 0x200000600200 + 0x40 * j

/-- CHK_JOB_j_STATE, Table 12.7. -/
def CHK_JOB_STATE (j : Nat) : Nat := 0x200000600204 + 0x40 * j

/-- CHK_JOB_j_EVENT, Table 12.7. -/
def CHK_JOB_EVENT (j : Nat) : Nat := 0x200000600208 + 0x40 * j

/-- CHK_JOB_j_CAUSE, Table 12.7. -/
def CHK_JOB_CAUSE (j : Nat) : Nat := 0x20000060020C + 0x40 * j

/-- CHK_JOB_j_FAIL_LO, Table 12.7. -/
def CHK_JOB_FAIL_LO (j : Nat) : Nat := 0x200000600210 + 0x40 * j

/-- CHK_JOB_j_CONF_LO, Table 12.7. -/
def CHK_JOB_CONF_LO (j : Nat) : Nat := 0x200000600214 + 0x40 * j

/-- CHK_JOB_j_SUSPECT, Table 12.7. -/
def CHK_JOB_SUSPECT (j : Nat) : Nat := 0x200000600218 + 0x40 * j

/-- CHK_JOB_j_RESUME, Table 12.7. -/
def CHK_JOB_RESUME (j : Nat) : Nat := 0x20000060021C + 0x40 * j

/-- CHK_JOB_j_SAMPLE, Table 12.7. -/
def CHK_JOB_SAMPLE (j : Nat) : Nat := 0x200000600220 + 0x40 * j

/-- CHK_T_STATUS, Table 12.11. -/
def CHK_T_STATUS (t : Nat) : Nat := 0x100000086000 + 0x100000 * t

/-- CHK_T_DIGEST, Table 12.11. -/
def CHK_T_DIGEST (t : Nat) : Nat := 0x100000086004 + 0x100000 * t

/-- CHK_T_PEER, Table 12.11. -/
def CHK_T_PEER (t : Nat) : Nat := 0x100000086008 + 0x100000 * t

/-- CHK_T_COMPARES, Table 12.11. -/
def CHK_T_COMPARES (t : Nat) : Nat := 0x10000008600C + 0x100000 * t

/-- CHK_T_MISMATCH, Table 12.11. -/
def CHK_T_MISMATCH (t : Nat) : Nat := 0x100000086010 + 0x100000 * t

/-- CHK_T_CFG, Table 12.11. -/
def CHK_T_CFG (t : Nat) : Nat := 0x100000086014 + 0x100000 * t

/-- IMG_CMD, Table 13.17. -/
def IMG_CMD : Nat := 0x200000700000

/-- IMG_STATUS, Table 13.17. -/
def IMG_STATUS : Nat := 0x200000700004

/-- IMG_SRC_LO, Table 13.17. -/
def IMG_SRC_LO : Nat := 0x200000700008

/-- IMG_SRC_HI, Table 13.17. -/
def IMG_SRC_HI : Nat := 0x20000070000C

/-- IMG_LEN_LO, Table 13.17. -/
def IMG_LEN_LO : Nat := 0x200000700010

/-- IMG_LEN_HI, Table 13.17. -/
def IMG_LEN_HI : Nat := 0x200000700014

/-- IMG_PLAIN_LO, Table 13.17. -/
def IMG_PLAIN_LO : Nat := 0x200000700018

/-- IMG_PLAIN_HI, Table 13.17. -/
def IMG_PLAIN_HI : Nat := 0x20000070001C

/-- IMG_ID, Table 13.17. -/
def IMG_ID : Nat := 0x200000700020

/-- IMG_HDR_INFO, Table 13.17. -/
def IMG_HDR_INFO : Nat := 0x200000700024

/-- IMG_FEATURES, Table 13.17. -/
def IMG_FEATURES : Nat := 0x200000700028

/-- IMG_FP_REV, Table 13.17. -/
def IMG_FP_REV : Nat := 0x20000070002C

/-- IMG_RESULT, Table 13.17. -/
def IMG_RESULT : Nat := 0x200000700030

/-- IMG_DETAIL, Table 13.17. -/
def IMG_DETAIL : Nat := 0x200000700034

/-- IMG_VERIFIED, Table 13.17. -/
def IMG_VERIFIED : Nat := 0x200000700038

/-- IMG_REJECTED, Table 13.17. -/
def IMG_REJECTED : Nat := 0x20000070003C

/-- IMG_LOCK_VIOL, Table 13.17. -/
def IMG_LOCK_VIOL : Nat := 0x200000700040

/-- IMG_FP_STALE, Table 13.17. -/
def IMG_FP_STALE : Nat := 0x200000700044

/-- LIC_CMD, Table 13.19. -/
def LIC_CMD : Nat := 0x200000708000

/-- LIC_ADDR_LO, Table 13.19. -/
def LIC_ADDR_LO : Nat := 0x200000708004

/-- LIC_ADDR_HI, Table 13.19. -/
def LIC_ADDR_HI : Nat := 0x200000708008

/-- LIC_LEN, Table 13.19. -/
def LIC_LEN : Nat := 0x20000070800C

/-- LIC_STATUS, Table 13.19. -/
def LIC_STATUS : Nat := 0x200000708010

/-- LIC_COUNT, Table 13.19. -/
def LIC_COUNT : Nat := 0x200000708014

/-- LIC_REJECTED, Table 13.19. -/
def LIC_REJECTED : Nat := 0x200000708018

/-- LIC_GRANT_n, Table 13.19. -/
def LIC_GRANT (n : Nat) : Nat := 0x20000070801C + 0x4 * n

/-- BOOT_STATUS, Table 14.10. -/
def BOOT_STATUS : Nat := 0x200000000000

/-- BOOT_CMD, Table 14.10. -/
def BOOT_CMD : Nat := 0x200000000004

/-- BOOT_FAIL_COUNT, Table 14.10. -/
def BOOT_FAIL_COUNT : Nat := 0x200000000008

/-- BOOT_FALLOW_CAUSE, Table 14.10. -/
def BOOT_FALLOW_CAUSE : Nat := 0x20000000000C

/-- BOOT_FAIL_HIST, Table 14.10. -/
def BOOT_FAIL_HIST : Nat := 0x200000000010

/-- BOOT_ELAPSED, Table 14.10. -/
def BOOT_ELAPSED : Nat := 0x200000000014

/-- BOOT_CFG, Table 14.10. -/
def BOOT_CFG : Nat := 0x200000000018

/-- BOOT_WDOG_CFG, Table 14.10. -/
def BOOT_WDOG_CFG : Nat := 0x20000000001C

/-- BOOT_WDOG_KICK, Table 14.10. -/
def BOOT_WDOG_KICK : Nat := 0x200000000020

/-- BOOT_RST_TILE, Table 14.10. -/
def BOOT_RST_TILE : Nat := 0x200000000024

/-- BOOT_RST_FIELD, Table 14.10. -/
def BOOT_RST_FIELD : Nat := 0x200000000028

/-- BOOT_RST_DIE, Table 14.10. -/
def BOOT_RST_DIE : Nat := 0x20000000002C

/-- BOOT_RST_CC, Table 14.10. -/
def BOOT_RST_CC : Nat := 0x200000000030

/-- BOOT_RST_STATUS, Table 14.10. -/
def BOOT_RST_STATUS : Nat := 0x200000000034

/-- BOOT_FAULT, Table 14.10. -/
def BOOT_FAULT : Nat := 0x200000000038

/-- BOOT_IRQ_ENABLE, Table 14.10. -/
def BOOT_IRQ_ENABLE : Nat := 0x20000000003C

/-- BOOT_STAGE_TIME_n, Table 14.10. -/
def BOOT_STAGE_TIME (n : Nat) : Nat := 0x200000000040 + 0x4 * n

/-- BOOT_FP_CTRL, Table 14.10. -/
def BOOT_FP_CTRL : Nat := 0x200000000070

/-- BOOT_FP_REV, Table 14.10. -/
def BOOT_FP_REV : Nat := 0x200000000074

/-- BOOT_FP_GOOD, Table 14.10. -/
def BOOT_FP_GOOD : Nat := 0x200000000078

/-- FUSE_STATUS, Table 14.14. -/
def FUSE_STATUS : Nat := 0x200000008000

/-- FUSE_SERIAL_LO, Table 14.14. -/
def FUSE_SERIAL_LO : Nat := 0x200000008004

/-- FUSE_SERIAL_HI, Table 14.14. -/
def FUSE_SERIAL_HI : Nat := 0x200000008008

/-- FUSE_VARIANT, Table 14.14. -/
def FUSE_VARIANT : Nat := 0x20000000800C

/-- FUSE_DEFECT_COUNT, Table 14.14. -/
def FUSE_DEFECT_COUNT : Nat := 0x200000008010

/-- FUSE_DEFECT_SEL, Table 14.14. -/
def FUSE_DEFECT_SEL : Nat := 0x200000008014

/-- FUSE_DEFECT_DATA, Table 14.14. -/
def FUSE_DEFECT_DATA : Nat := 0x200000008018

/-- FUSE_TEST_DISAGREE_PASS, Table 14.14. -/
def FUSE_TEST_DISAGREE_PASS : Nat := 0x20000000801C

/-- FUSE_TEST_DISAGREE_FAIL, Table 14.14. -/
def FUSE_TEST_DISAGREE_FAIL : Nat := 0x200000008020

/-- FUSE_MAP_COUNT, Table 14.14. -/
def FUSE_MAP_COUNT : Nat := 0x200000008024

/-- FUSE_MAP_SEL, Table 14.14. -/
def FUSE_MAP_SEL : Nat := 0x200000008028

/-- FUSE_MAP_DATA, Table 14.14. -/
def FUSE_MAP_DATA : Nat := 0x20000000802C

/-- PWR_DEV_CMD, Table 15.10. -/
def PWR_DEV_CMD : Nat := 0x200000100000

/-- PWR_DEV_STATUS, Table 15.10. -/
def PWR_DEV_STATUS : Nat := 0x200000100004

/-- PWR_FAULT, Table 15.10. -/
def PWR_FAULT : Nat := 0x200000100008

/-- PWR_IRQ_ENABLE, Table 15.10. -/
def PWR_IRQ_ENABLE : Nat := 0x20000010000C

/-- PWR_HALF_W, Table 15.10. -/
def PWR_HALF_W : Nat := 0x200000100010

/-- PWR_HALF_E, Table 15.10. -/
def PWR_HALF_E : Nat := 0x200000100014

/-- PWR_FLOOR, Table 15.10. -/
def PWR_FLOOR : Nat := 0x200000100018

/-- PWR_THERM_CFG, Table 15.10. -/
def PWR_THERM_CFG : Nat := 0x20000010001C

/-- PWR_THERM_STATUS, Table 15.10. -/
def PWR_THERM_STATUS : Nat := 0x200000100020

/-- PWR_TEMP_MAX, Table 15.10. -/
def PWR_TEMP_MAX : Nat := 0x200000100024

/-- PWR_FLOOR_BREACH, Table 15.10. -/
def PWR_FLOOR_BREACH : Nat := 0x200000100028

/-- PWR_PAD_RELEASE, Table 15.10. -/
def PWR_PAD_RELEASE : Nat := 0x20000010002C

/-- PWR_PAD_HELD, Table 15.10. -/
def PWR_PAD_HELD : Nat := 0x200000100030

/-- PWR_LAST_REFUSE, Table 15.10. -/
def PWR_LAST_REFUSE : Nat := 0x200000100034

/-- PWR_DEV_REFUSE, Table 15.10. -/
def PWR_DEV_REFUSE : Nat := 0x200000100038

/-- PWR_NEED_w, Table 15.10. -/
def PWR_NEED (w : Nat) : Nat := 0x200000100040 + 0x4 * w

/-- PWR_DOM_d, Table 15.10. -/
def PWR_DOM (d : Nat) : Nat := 0x200000100100 + 0x4 * d

/-- PWR_REFUSE_COUNT_d, Table 15.10. -/
def PWR_REFUSE_COUNT (d : Nat) : Nat := 0x200000100300 + 0x4 * d

/-- IRQ_INFO, Table 16.3. -/
def IRQ_INFO : Nat := 0x200000200000

/-- IRQ_FAULT, Table 16.3. -/
def IRQ_FAULT : Nat := 0x200000200004

/-- IRQ_PEND_w, Table 16.3. -/
def IRQ_PEND (w : Nat) : Nat := 0x200000200100 + 0x4 * w

/-- IRQ_PEND_SET_w, Table 16.3. -/
def IRQ_PEND_SET (w : Nat) : Nat := 0x200000200140 + 0x4 * w

/-- IRQ_PEND_CLR_w, Table 16.3. -/
def IRQ_PEND_CLR (w : Nat) : Nat := 0x200000200180 + 0x4 * w

/-- IRQ_MASK_w, Table 16.3. -/
def IRQ_MASK (w : Nat) : Nat := 0x2000002001C0 + 0x4 * w

/-- IRQ_MASK_SET_w, Table 16.3. -/
def IRQ_MASK_SET (w : Nat) : Nat := 0x200000200200 + 0x4 * w

/-- IRQ_MASK_CLR_w, Table 16.3. -/
def IRQ_MASK_CLR (w : Nat) : Nat := 0x200000200240 + 0x4 * w

/-- IRQ_LINE_w, Table 16.3. -/
def IRQ_LINE (w : Nat) : Nat := 0x200000200280 + 0x4 * w

/-- IRQ_INSVC_w, Table 16.3. -/
def IRQ_INSVC (w : Nat) : Nat := 0x2000002002C0 + 0x4 * w

/-- IRQ_SRC_s, Table 16.3. -/
def IRQ_SRC (s : Nat) : Nat := 0x200000201000 + 0x4 * s

/-- IRQ_FIELD_f_w, Table 16.3. -/
def IRQ_FIELD (f w : Nat) : Nat := 0x200000202000 + 0x10 * f + 0x4 * w

/-- IRQ_T_k_THRESH, Table 16.3. -/
def IRQ_T_THRESH (k : Nat) : Nat := 0x200000203000 + 0x100 * k

/-- IRQ_T_k_CLAIM, Table 16.3. -/
def IRQ_T_CLAIM (k : Nat) : Nat := 0x200000203004 + 0x100 * k

/-- IRQ_T_k_DONE, Table 16.3. -/
def IRQ_T_DONE (k : Nat) : Nat := 0x200000203008 + 0x100 * k

/-- IRQ_T_k_STATUS, Table 16.3. -/
def IRQ_T_STATUS (k : Nat) : Nat := 0x20000020300C + 0x100 * k

/-- CHN_CC_n_CFG, Table 16.3. -/
def CHN_CC_CFG (n : Nat) : Nat := 0x200000208000 + 0x10 * n

/-- CHN_CC_n_WPTR, Table 16.3. -/
def CHN_CC_WPTR (n : Nat) : Nat := 0x200000208004 + 0x10 * n

/-- CHN_CC_n_RPTR, Table 16.3. -/
def CHN_CC_RPTR (n : Nat) : Nat := 0x200000208008 + 0x10 * n

/-- CHN_CC_n_STAT, Table 16.3. -/
def CHN_CC_STAT (n : Nat) : Nat := 0x20000020800C + 0x10 * n

/-- CHN_CC_COMMITTED, Table 16.3. -/
def CHN_CC_COMMITTED : Nat := 0x200000208400

/-- CHN_CC_OVERFLOW, Table 16.3. -/
def CHN_CC_OVERFLOW : Nat := 0x200000208404

/-- CHN_CC_DISCARD, Table 16.3. -/
def CHN_CC_DISCARD : Nat := 0x200000208408

/-- CHN_CC_POISON, Table 16.3. -/
def CHN_CC_POISON : Nat := 0x20000020840C

/-- TMR_SNAP, Table 16.8. -/
def TMR_SNAP : Nat := 0x200000300000

/-- TMR_RUN, Table 16.8. -/
def TMR_RUN : Nat := 0x200000300004

/-- TMR_WDOG_CFG, Table 16.8. -/
def TMR_WDOG_CFG : Nat := 0x200000300010

/-- TMR_WDOG_KICK, Table 16.8. -/
def TMR_WDOG_KICK : Nat := 0x200000300014

/-- TMR_WDOG_LEFT, Table 16.8. -/
def TMR_WDOG_LEFT : Nat := 0x200000300018

/-- TMR_n_CFG, Table 16.8. -/
def TMR_CFG (n : Nat) : Nat := 0x200000300100 + 0x10 * n

/-- TMR_n_COUNT, Table 16.8. -/
def TMR_COUNT (n : Nat) : Nat := 0x200000300104 + 0x10 * n

/-- TMR_n_CMP, Table 16.8. -/
def TMR_CMP (n : Nat) : Nat := 0x200000300108 + 0x10 * n

/-- TMR_n_STATUS, Table 16.8. -/
def TMR_STATUS (n : Nat) : Nat := 0x20000030010C + 0x10 * n

/-- REC_CTRL, Table 16.10. -/
def REC_CTRL : Nat := 0x200000400000

/-- REC_PERIOD, Table 16.10. -/
def REC_PERIOD : Nat := 0x200000400004

/-- REC_STATUS, Table 16.10. -/
def REC_STATUS : Nat := 0x200000400008

/-- REC_LAST, Table 16.10. -/
def REC_LAST : Nat := 0x20000040000C

/-- REC_MIRROR_SEQ, Table 16.10. -/
def REC_MIRROR_SEQ : Nat := 0x200000400010

/-- REC_NOTE, Table 16.10. -/
def REC_NOTE : Nat := 0x200000400014

/-- REC_FAULT, Table 16.10. -/
def REC_FAULT : Nat := 0x200000400018

/-- REC_IRQ_ENABLE, Table 16.10. -/
def REC_IRQ_ENABLE : Nat := 0x20000040001C

/-- REC_WATCH, Table 16.10. -/
def REC_WATCH : Nat := 0x200000400020

/-- REC_WRITTEN, Table 16.10. -/
def REC_WRITTEN : Nat := 0x200000400024

/-- REC_RING, Table 16.10. -/
def REC_RING (i : Nat) : Nat := 0x200000480000 + 0x4 * i

/-- SEC_m_CMD, Table 17.10. -/
def SEC_CMD (m : Nat) : Nat := 0x200000E00000 + 0x100 * m

/-- SEC_m_STATUS, Table 17.10. -/
def SEC_STATUS (m : Nat) : Nat := 0x200000E00004 + 0x100 * m

/-- SEC_m_ADDR_LO, Table 17.10. -/
def SEC_ADDR_LO (m : Nat) : Nat := 0x200000E00008 + 0x100 * m

/-- SEC_m_ADDR_HI, Table 17.10. -/
def SEC_ADDR_HI (m : Nat) : Nat := 0x200000E0000C + 0x100 * m

/-- SEC_m_LEN_LO, Table 17.10. -/
def SEC_LEN_LO (m : Nat) : Nat := 0x200000E00010 + 0x100 * m

/-- SEC_m_LEN_HI, Table 17.10. -/
def SEC_LEN_HI (m : Nat) : Nat := 0x200000E00054 + 0x100 * m

/-- SEC_m_ARG_i, Table 17.10. -/
def SEC_ARG (m i : Nat) : Nat := 0x200000E00014 + 0x100 * m + 0x4 * i

/-- SEC_m_RES_i, Table 17.10. -/
def SEC_RES (m i : Nat) : Nat := 0x200000E00034 + 0x100 * m + 0x4 * i

/-- SEC_INFO, Table 17.10. -/
def SEC_INFO : Nat := 0x200000E00200

/-- SEC_EVENT, Table 17.10. -/
def SEC_EVENT : Nat := 0x200000E00204

/-- SEC_REFUSED, Table 17.10. -/
def SEC_REFUSED : Nat := 0x200000E00208

/-- SEC_SELFTEST, Table 17.10. -/
def SEC_SELFTEST : Nat := 0x200000E0020C

/-- HIF_PCI_ID, Table 18.8. -/
def HIF_PCI_ID : Nat := 0x200000800000

/-- HIF_LINK_STATUS, Table 18.8. -/
def HIF_LINK_STATUS : Nat := 0x200000800004

/-- HIF_CTRL, Table 18.8. -/
def HIF_CTRL : Nat := 0x200000800008

/-- HIF_FAULT, Table 18.8. -/
def HIF_FAULT : Nat := 0x20000080000C

/-- HIF_IRQ_ENABLE, Table 18.8. -/
def HIF_IRQ_ENABLE : Nat := 0x200000800010

/-- HIF_APERTURE_BASE, Table 18.8. -/
def HIF_APERTURE_BASE : Nat := 0x200000800014

/-- HIF_AP_UNMAPPED, Table 18.8. -/
def HIF_AP_UNMAPPED : Nat := 0x200000800018

/-- HIF_HOST_DENIED, Table 18.8. -/
def HIF_HOST_DENIED : Nat := 0x20000080001C

/-- HIF_RCV_CTRL, Table 18.8. -/
def HIF_RCV_CTRL : Nat := 0x200000800020

/-- HIF_RCV_STATUS, Table 18.8. -/
def HIF_RCV_STATUS : Nat := 0x200000800024

/-- HIF_FLR_COUNT, Table 18.8. -/
def HIF_FLR_COUNT : Nat := 0x200000800028

/-- HIF_RR_p_BASE_LO, Table 18.8. -/
def HIF_RR_BASE_LO (p : Nat) : Nat := 0x200000800100 + 0x20 * p

/-- HIF_RR_p_BASE_HI, Table 18.8. -/
def HIF_RR_BASE_HI (p : Nat) : Nat := 0x200000800104 + 0x20 * p

/-- HIF_RR_p_CFG, Table 18.8. -/
def HIF_RR_CFG (p : Nat) : Nat := 0x200000800108 + 0x20 * p

/-- HIF_RR_p_WPTR, Table 18.8. -/
def HIF_RR_WPTR (p : Nat) : Nat := 0x20000080010C + 0x20 * p

/-- HIF_RR_p_RPTR, Table 18.8. -/
def HIF_RR_RPTR (p : Nat) : Nat := 0x200000800110 + 0x20 * p

/-- HIF_RR_p_WB_LO, Table 18.8. -/
def HIF_RR_WB_LO (p : Nat) : Nat := 0x200000800114 + 0x20 * p

/-- HIF_RR_p_WB_HI, Table 18.8. -/
def HIF_RR_WB_HI (p : Nat) : Nat := 0x200000800118 + 0x20 * p

/-- HIF_RR_p_DROP, Table 18.8. -/
def HIF_RR_DROP (p : Nat) : Nat := 0x20000080011C + 0x20 * p

/-- HIF_CQ_q_CFG, Table 18.8. -/
def HIF_CQ_CFG (q : Nat) : Nat := 0x200000800400 + 0x40 * q

/-- HIF_CQ_q_HEAD, Table 18.8. -/
def HIF_CQ_HEAD (q : Nat) : Nat := 0x200000800404 + 0x40 * q

/-- HIF_CQ_q_TAIL, Table 18.8. -/
def HIF_CQ_TAIL (q : Nat) : Nat := 0x200000800408 + 0x40 * q

/-- HIF_CQ_q_TAKE, Table 18.8. -/
def HIF_CQ_TAKE (q : Nat) : Nat := 0x20000080040C + 0x40 * q

/-- HIF_CQ_q_CPL_LO, Table 18.8. -/
def HIF_CQ_CPL_LO (q : Nat) : Nat := 0x200000800410 + 0x40 * q

/-- HIF_CQ_q_CPL_HI, Table 18.8. -/
def HIF_CQ_CPL_HI (q : Nat) : Nat := 0x200000800414 + 0x40 * q

/-- HIF_CQ_q_CPL_WPTR, Table 18.8. -/
def HIF_CQ_CPL_WPTR (q : Nat) : Nat := 0x200000800418 + 0x40 * q

/-- HIF_CQ_q_CPL_DATA_i, Table 18.8. -/
def HIF_CQ_CPL_DATA (q i : Nat) : Nat := 0x200000800420 + 0x40 * q + 0x4 * i

/-- MEM_CFG, Table 19.5. -/
def MEM_CFG : Nat := 0x200000900000

/-- MEM_STATUS, Table 19.5. -/
def MEM_STATUS : Nat := 0x200000900004

/-- MEM_DENIED, Table 19.5. -/
def MEM_DENIED : Nat := 0x200000900008

/-- MEM_SCRUB_CFG, Table 19.5. -/
def MEM_SCRUB_CFG : Nat := 0x20000090000C

/-- MEM_SCRUB_PASSES, Table 19.5. -/
def MEM_SCRUB_PASSES : Nat := 0x200000900010

/-- MEM_REGION_n_BASE, Table 19.5. -/
def MEM_REGION_BASE (n : Nat) : Nat := 0x200000900100 + 0x10 * n

/-- MEM_REGION_n_SIZE, Table 19.5. -/
def MEM_REGION_SIZE (n : Nat) : Nat := 0x200000900104 + 0x10 * n

/-- MEM_REGION_n_ATTR, Table 19.5. -/
def MEM_REGION_ATTR (n : Nat) : Nat := 0x200000900108 + 0x10 * n

/-- MEM_m_STATUS, Table 19.5. -/
def MEM_M_STATUS (m : Nat) : Nat := 0x200000901000 + 0x1000 * m

/-- MEM_m_FAULT, Table 19.5. -/
def MEM_M_FAULT (m : Nat) : Nat := 0x200000901004 + 0x1000 * m

/-- MEM_m_IRQ_ENABLE, Table 19.5. -/
def MEM_M_IRQ_ENABLE (m : Nat) : Nat := 0x200000901008 + 0x1000 * m

/-- MEM_m_CE, Table 19.5. -/
def MEM_M_CE (m : Nat) : Nat := 0x20000090100C + 0x1000 * m

/-- MEM_m_UE, Table 19.5. -/
def MEM_M_UE (m : Nat) : Nat := 0x200000901010 + 0x1000 * m

/-- MEM_m_CE_THR, Table 19.5. -/
def MEM_M_CE_THR (m : Nat) : Nat := 0x200000901014 + 0x1000 * m

/-- MEM_m_ERR_ADDR_LO, Table 19.5. -/
def MEM_M_ERR_ADDR_LO (m : Nat) : Nat := 0x200000901018 + 0x1000 * m

/-- MEM_m_ERR_ADDR_HI, Table 19.5. -/
def MEM_M_ERR_ADDR_HI (m : Nat) : Nat := 0x20000090101C + 0x1000 * m

/-- MEM_m_PPR, Table 19.5. -/
def MEM_M_PPR (m : Nat) : Nat := 0x200000901020 + 0x1000 * m

/-- MEM_m_REQS, Table 19.5. -/
def MEM_M_REQS (m : Nat) : Nat := 0x200000901024 + 0x1000 * m

/-- MEM_m_RD_LINES, Table 19.5. -/
def MEM_M_RD_LINES (m : Nat) : Nat := 0x200000901028 + 0x1000 * m

/-- MEM_m_WR_LINES, Table 19.5. -/
def MEM_M_WR_LINES (m : Nat) : Nat := 0x20000090102C + 0x1000 * m

/-- PWR_FLD_TEMP, Table 21.4. -/
def PWR_FLD_TEMP (f : Nat) : Nat := 0x200001000000 + 0x40000 * f

/-- PWR_FLD_VDD, Table 21.4. -/
def PWR_FLD_VDD (f : Nat) : Nat := 0x200001000004 + 0x40000 * f

/-- REC_FLD_HIST_b, Table 21.4. -/
def REC_FLD_HIST (f b : Nat) : Nat := 0x200001000100 + 0x40000 * f + 0x4 * b

/-- REC_FLD_WAIT_MAX, Table 21.4. -/
def REC_FLD_WAIT_MAX (f : Nat) : Nat := 0x200001000140 + 0x40000 * f

/-- REC_FLD_STEPS, Table 21.4. -/
def REC_FLD_STEPS (f : Nat) : Nat := 0x200001000144 + 0x40000 * f

end Sys2Proof.Machine.Reg
end

