-- ==== Sys2Proof/Machine/Sparse.lean ====
section
/-!
DEFINITION. The canonical finite map behind every sparse store of the model: registers, memory, tiles, routers.
An unlisted key `k` reads as `d k`.
-/

namespace Sys2Proof.Machine

/-- What key `k` holds: its entry, or `d k` where none is listed. -/
def mapGet {β : Type} (d : Nat → β) : Sparse β → Nat → β
  | [], k => d k
  | (j, v) :: m, k => if j = k then v else mapGet d m k

/-- The map without any entry of key `k`. -/
def mapErase {β : Type} : Sparse β → Nat → Sparse β
  | [], _ => []
  | (j, v) :: m, k => if j = k then mapErase m k else (j, v) :: mapErase m k

/-- The map with an entry for `k` placed in key order; `k` must not be listed. -/
def mapInsert {β : Type} : Sparse β → Nat → β → Sparse β
  | [], k, v => [(k, v)]
  | (j, w) :: m, k, v => if k < j then (k, v) :: (j, w) :: m else (j, w) :: mapInsert m k v

/-- The map with `v` at `k`; writing what an unlisted key reads as removes the entry. -/
def mapPut {β : Type} [DecidableEq β] (d : Nat → β) (m : Sparse β) (k : Nat) (v : β) : Sparse β :=
  if v = d k then mapErase m k else mapInsert (mapErase m k) k v

/-- The canonical form: keys strictly rising, no entry equal to the default of its key. -/
def mapWf {β : Type} [DecidableEq β] (d : Nat → β) : Sparse β → Bool
  | [] => true
  | [(j, v)] => decide (v ≠ d j)
  | (j, v) :: (k, w) :: m => decide (v ≠ d j) && decide (j < k) && mapWf d ((k, w) :: m)

end Sys2Proof.Machine
end

