-- ==== Sys2Proof/Machine/RegMap.lean ====
section
/-!
DEFINITION. The register map: every register of the tables of spec/ with its device address, its access bits and its
reset value (R16 to R21, R534, R536, Tables 21.2 and 21.3). Written from the register maps of spec/.
-/

namespace Sys2Proof.Machine

/-- One row of a register map: offset in its block, two index ranges with their strides, the bits a write sets
(`rw`), the bits a written 1 clears (`w1c`), the bits only hardware changes (`ro`), and the reset value. Bits in none of
the three are reserved or write-only and read as zero (R19, R20). -/
structure RegRow where
  off : Nat
  n1 : Nat
  s1 : Nat
  n2 : Nat
  s2 : Nat
  rw : Nat
  w1c : Nat
  ro : Nat
  rst : Nat
  deriving DecidableEq, Repr

/-- A register block: base of unit 0, units, distance between units, size of one unit's window, rows. -/
structure RegBlock where
  base : Nat
  units : Nat
  stride : Nat
  size : Nat
  rows : List RegRow
  deriving DecidableEq, Repr

/-- Rows of Table 2.7 (spec/02_time_and_steps.md). -/
def rowsTICK : List RegRow :=
  [⟨0x0, 1, 0x0, 1, 0x0, 0x00FFFF03, 0x00000000, 0x00000000, 0x00020802⟩,
   ⟨0x4, 1, 0x0, 1, 0x0, 0x00000000, 0x00000000, 0xFFFFFFFF, 0x00000000⟩,
   ⟨0x8, 1, 0x0, 1, 0x0, 0xFFFFFFFF, 0x00000000, 0x00000000, 0x00000000⟩,
   ⟨0xC, 1, 0x0, 1, 0x0, 0xFFFFFFFF, 0x00000000, 0x00000000, 0x00000000⟩,
   ⟨0x10, 1, 0x0, 1, 0x0, 0x000000FF, 0x00000000, 0x00000000, 0x00000008⟩,
   ⟨0x14, 1, 0x0, 1, 0x0, 0x00000000, 0x0003FFFF, 0x00000000, 0x00000000⟩,
   ⟨0x18, 1, 0x0, 1, 0x0, 0x0003FFFF, 0x00000000, 0x00000000, 0x00000000⟩,
   ⟨0x1C, 1, 0x0, 1, 0x0, 0x0000000F, 0x00000000, 0x00000000, 0x00000000⟩,
   ⟨0x100, 16, 0x80, 1, 0x0, 0x93F0FFFF, 0x00000000, 0x68000000, 0x00000001⟩,
   ⟨0x104, 16, 0x80, 1, 0x0, 0x007FFFFF, 0x00000000, 0x00000000, 0x00000000⟩,
   ⟨0x108, 16, 0x80, 1, 0x0, 0x007FFFFF, 0x00000000, 0x00000000, 0x00000000⟩,
   ⟨0x10C, 16, 0x80, 1, 0x0, 0x007FFFFF, 0x00000000, 0x00000000, 0x00000000⟩] ++
  [⟨0x110, 16, 0x80, 1, 0x0, 0x0000001F, 0x00000000, 0x00000000, 0x00000000⟩,
   ⟨0x114, 16, 0x80, 1, 0x0, 0x007FFFFF, 0x00000000, 0x00000000, 0x00000000⟩,
   ⟨0x118, 16, 0x80, 1, 0x0, 0x007FFFFF, 0x00000000, 0x00000000, 0x005F5E10⟩,
   ⟨0x11C, 16, 0x80, 1, 0x0, 0x00000000, 0x00000000, 0x007FFFFF, 0x00000000⟩,
   ⟨0x120, 16, 0x80, 1, 0x0, 0x00000000, 0x00000000, 0xFFFFFFFF, 0x00000000⟩,
   ⟨0x124, 16, 0x80, 1, 0x0, 0x00000000, 0x00000000, 0x0000FFFF, 0x00000000⟩,
   ⟨0x128, 16, 0x80, 1, 0x0, 0xFFFFFFFF, 0x00000000, 0x00000000, 0x00000000⟩,
   ⟨0x12C, 16, 0x80, 1, 0x0, 0x0000FFFF, 0x00000000, 0x00000000, 0x00000000⟩,
   ⟨0x130, 16, 0x80, 1, 0x0, 0x00000000, 0x0000001F, 0x00000000, 0x00000000⟩,
   ⟨0x134, 16, 0x80, 1, 0x0, 0xFFFFFFFF, 0x00000000, 0x00000000, 0x00000000⟩,
   ⟨0x138, 16, 0x80, 1, 0x0, 0xFFFFFFFF, 0x00000000, 0x00000000, 0x00000000⟩,
   ⟨0x13C, 16, 0x80, 1, 0x0, 0x00000000, 0x00000000, 0xFFFFFFFF, 0x00000000⟩] ++
  [⟨0x140, 16, 0x80, 1, 0x0, 0x00000000, 0x00000000, 0x007FFFFF, 0x00000000⟩,
   ⟨0x144, 16, 0x80, 1, 0x0, 0x007FFFFF, 0x00000000, 0x00000000, 0x00000000⟩,
   ⟨0x148, 16, 0x80, 1, 0x0, 0x00000000, 0x00000000, 0xFFFFFFFF, 0x00000000⟩,
   ⟨0x14C, 16, 0x80, 1, 0x0, 0x00000000, 0x00000000, 0x007FFFFF, 0x00000000⟩,
   ⟨0x150, 16, 0x80, 1, 0x0, 0x83FF0FFF, 0x00000000, 0x00000000, 0x00000400⟩,
   ⟨0x154, 16, 0x80, 1, 0x0, 0xFFFFFFFF, 0x00000000, 0x00000000, 0x00000000⟩]

/-- Rows of Table 3.9 (spec/03_tile.md). -/
def rowsTILE : List RegRow :=
  [⟨0x0, 1, 0x0, 1, 0x0, 0x00000000, 0x00000000, 0xFFFFFFFF, 0x00000000⟩,
   ⟨0x4, 1, 0x0, 1, 0x0, 0x80000001, 0x00000000, 0x00000000, 0x00000000⟩,
   ⟨0x8, 1, 0x0, 1, 0x0, 0x00000000, 0x00000000, 0xFC0007FF, 0x00000000⟩,
   ⟨0xC, 1, 0x0, 1, 0x0, 0x0FFF07FF, 0x00000000, 0x00000000, 0x00000000⟩,
   ⟨0x10, 1, 0x0, 1, 0x0, 0x00000003, 0x00000000, 0x00000000, 0x00000000⟩,
   ⟨0x14, 1, 0x0, 1, 0x0, 0x00000000, 0x0000007F, 0x00000000, 0x00000000⟩,
   ⟨0x18, 1, 0x0, 1, 0x0, 0x00000000, 0x00000000, 0x000007FF, 0x00000000⟩,
   ⟨0x1C, 1, 0x0, 1, 0x0, 0x0000007F, 0x00000000, 0x00000000, 0x0000007F⟩,
   ⟨0x20, 1, 0x0, 1, 0x0, 0x000000FF, 0x00000000, 0x00000000, 0x00000000⟩,
   ⟨0x24, 1, 0x0, 1, 0x0, 0x00000000, 0x00000000, 0x0000FFFF, 0x00000000⟩,
   ⟨0x28, 1, 0x0, 1, 0x0, 0x000000FF, 0x00000000, 0x00000000, 0x000000FF⟩,
   ⟨0x2C, 1, 0x0, 1, 0x0, 0xFFFFFFFF, 0x00000000, 0x00000000, 0x00000000⟩] ++
  [⟨0x30, 1, 0x0, 1, 0x0, 0xFFFFFFFF, 0x00000000, 0x00000000, 0x00000000⟩,
   ⟨0x34, 1, 0x0, 1, 0x0, 0xFFFFFFFF, 0x00000000, 0x00000000, 0x00000000⟩,
   ⟨0x38, 1, 0x0, 1, 0x0, 0xFFFFFFFF, 0x00000000, 0x00000000, 0x00000000⟩,
   ⟨0x3C, 1, 0x0, 1, 0x0, 0x00000000, 0x00000000, 0x8007FFFF, 0x00000000⟩,
   ⟨0x40, 1, 0x0, 1, 0x0, 0x00000000, 0x00000000, 0x07FF01FF, 0x00000000⟩,
   ⟨0x44, 1, 0x0, 1, 0x0, 0x000007FF, 0x00000000, 0x00000000, 0x00000000⟩,
   ⟨0x48, 1, 0x0, 1, 0x0, 0xFFFFFFFF, 0x00000000, 0x00000000, 0x00000000⟩,
   ⟨0x4C, 1, 0x0, 1, 0x0, 0xFFFFFFFF, 0x00000000, 0x00000000, 0x00000000⟩,
   ⟨0x50, 1, 0x0, 1, 0x0, 0xFFFFFFFF, 0x00000000, 0x00000000, 0x00000000⟩,
   ⟨0x54, 1, 0x0, 1, 0x0, 0xFFFFFFFF, 0x00000000, 0x00000000, 0x00000000⟩,
   ⟨0x58, 1, 0x0, 1, 0x0, 0xFFFFFFFF, 0x00000000, 0x00000000, 0x00000000⟩,
   ⟨0x5C, 1, 0x0, 1, 0x0, 0x00000000, 0x00000000, 0xFFFFFFFF, 0x00000000⟩] ++
  [⟨0x60, 1, 0x0, 1, 0x0, 0x00000000, 0x00000000, 0xFFFFFFFF, 0x00000000⟩,
   ⟨0x64, 1, 0x0, 1, 0x0, 0x00000000, 0x00000000, 0x01FFFFFF, 0x00000000⟩,
   ⟨0x68, 1, 0x0, 1, 0x0, 0x01FFFFFF, 0x00000000, 0x00000000, 0x00000000⟩,
   ⟨0x70, 8, 0x4, 1, 0x0, 0x0FFF07FF, 0x00000000, 0x00000000, 0x00000000⟩,
   ⟨0x90, 1, 0x0, 1, 0x0, 0x00000000, 0x00000000, 0xFFFFFFFF, 0x00000000⟩,
   ⟨0x94, 1, 0x0, 1, 0x0, 0x00000000, 0x00000000, 0xFFFFFFFF, 0x00000000⟩]

/-- Rows of Table 4.8 (spec/04_neurons.md). -/
def rowsNRN : List RegRow :=
  [⟨0x0, 1, 0x0, 1, 0x0, 0x00000001, 0x00000000, 0x00000000, 0x00000000⟩,
   ⟨0x4, 1, 0x0, 1, 0x0, 0x00000000, 0x00000000, 0xF1FF01FF, 0x00000000⟩,
   ⟨0x8, 1, 0x0, 1, 0x0, 0x00000000, 0x00000007, 0x00000000, 0x00000000⟩,
   ⟨0xC, 1, 0x0, 1, 0x0, 0x00000007, 0x00000000, 0x00000000, 0x00000007⟩,
   ⟨0x10, 1, 0x0, 1, 0x0, 0x00000000, 0x00000000, 0x000007FF, 0x00000000⟩,
   ⟨0x14, 1, 0x0, 1, 0x0, 0xFFFFFFFF, 0x00000000, 0x00000000, 0x00000000⟩,
   ⟨0x18, 1, 0x0, 1, 0x0, 0xFFFFFFFF, 0x00000000, 0x00000000, 0x00000000⟩,
   ⟨0x1C, 1, 0x0, 1, 0x0, 0xFFFFFFFF, 0x00000000, 0x00000000, 0x00000000⟩,
   ⟨0x20, 1, 0x0, 1, 0x0, 0x0000003F, 0x00000000, 0x00000000, 0x00000000⟩,
   ⟨0x24, 1, 0x0, 1, 0x0, 0x00000000, 0x00000000, 0x01FFFFFF, 0x00000000⟩,
   ⟨0x28, 1, 0x0, 1, 0x0, 0xFFFFFFFF, 0x00000000, 0x00000000, 0x00000000⟩,
   ⟨0x2C, 1, 0x0, 1, 0x0, 0x00000007, 0x00000000, 0x00000000, 0x00000000⟩] ++
  [⟨0x100, 32, 0x4, 1, 0x0, 0x00000000, 0x00000000, 0xFFFFFFFF, 0x00000000⟩]

/-- Rows of Table 5.8 (spec/05_synapses.md). -/
def rowsSYN : List RegRow :=
  [⟨0x0, 1, 0x0, 1, 0x0, 0x00000000, 0x00000000, 0x00000000, 0x00000000⟩,
   ⟨0x4, 1, 0x0, 1, 0x0, 0x00000000, 0x00000000, 0xFC0007FF, 0x00000000⟩,
   ⟨0x8, 1, 0x0, 1, 0x0, 0x00000000, 0x0000000F, 0x00000000, 0x00000000⟩,
   ⟨0xC, 1, 0x0, 1, 0x0, 0x0000000F, 0x00000000, 0x00000000, 0x00000007⟩,
   ⟨0x10, 1, 0x0, 1, 0x0, 0xFFFF0FFF, 0x00000000, 0x00000000, 0x00000000⟩,
   ⟨0x14, 1, 0x0, 1, 0x0, 0xFFFF1FFF, 0x00000000, 0x00000000, 0x00000000⟩,
   ⟨0x18, 1, 0x0, 1, 0x0, 0x00077FFF, 0x00000000, 0x00000000, 0x00000000⟩,
   ⟨0x1C, 1, 0x0, 1, 0x0, 0x00000007, 0x00000000, 0x00000000, 0x00000002⟩,
   ⟨0x20, 1, 0x0, 1, 0x0, 0xFFFFFFFF, 0x00000000, 0x00000000, 0x00000000⟩,
   ⟨0x24, 1, 0x0, 1, 0x0, 0xFFFFFFFF, 0x00000000, 0x00000000, 0x00000000⟩,
   ⟨0x28, 1, 0x0, 1, 0x0, 0xFFFFFFFF, 0x00000000, 0x00000000, 0x00000000⟩,
   ⟨0x2C, 1, 0x0, 1, 0x0, 0xFFFFFFFF, 0x00000000, 0x00000000, 0x00000000⟩] ++
  [⟨0x30, 1, 0x0, 1, 0x0, 0xFFFFFFFF, 0x00000000, 0x00000000, 0x00000000⟩,
   ⟨0x34, 1, 0x0, 1, 0x0, 0xFFFFFFFF, 0x00000000, 0x00000000, 0x00000000⟩,
   ⟨0x38, 1, 0x0, 1, 0x0, 0xFFFFFFFF, 0x00000000, 0x00000000, 0x00000000⟩,
   ⟨0x3C, 1, 0x0, 1, 0x0, 0xFFFFFFFF, 0x00000000, 0x00000000, 0x00000000⟩,
   ⟨0x40, 1, 0x0, 1, 0x0, 0xFFFFFFFF, 0x00000000, 0x00000000, 0x00000000⟩,
   ⟨0x44, 1, 0x0, 1, 0x0, 0xFFFFFFFF, 0x00000000, 0x00000000, 0x00000000⟩,
   ⟨0x48, 1, 0x0, 1, 0x0, 0x00000000, 0x00000000, 0xFFFFFFC0, 0x00000000⟩,
   ⟨0x4C, 1, 0x0, 1, 0x0, 0x00000000, 0x00000000, 0x000007FF, 0x00000000⟩,
   ⟨0x50, 1, 0x0, 1, 0x0, 0x00000000, 0x00000000, 0x01FFFFFF, 0x00000000⟩,
   ⟨0x54, 1, 0x0, 1, 0x0, 0x00000000, 0x00000000, 0x00000007, 0x00000000⟩]

/-- Rows of Table 6.7 (spec/06_number_formats_and_quantisation.md). -/
def rowsQNT : List RegRow :=
  [⟨0x0, 1, 0x0, 1, 0x0, 0x00000373, 0x00000000, 0x00000000, 0x00000031⟩,
   ⟨0x4, 1, 0x0, 1, 0x0, 0x0000FFFF, 0x00000000, 0x00000000, 0x00008000⟩,
   ⟨0x8, 1, 0x0, 1, 0x0, 0x0000FFFF, 0x00000000, 0x00000000, 0x00008000⟩,
   ⟨0xC, 1, 0x0, 1, 0x0, 0x0000FFFF, 0x00000000, 0x00000000, 0x00000000⟩,
   ⟨0x10, 1, 0x0, 1, 0x0, 0x00000000, 0x00000000, 0x800F01FF, 0x00000000⟩,
   ⟨0x14, 1, 0x0, 1, 0x0, 0xFFFFFFFF, 0x00000000, 0x00000000, 0x00000000⟩,
   ⟨0x18, 1, 0x0, 1, 0x0, 0xFFFFFFFF, 0x00000000, 0x00000000, 0x00000000⟩,
   ⟨0x1C, 1, 0x0, 1, 0x0, 0x000000FF, 0x00000000, 0x00000000, 0x00000000⟩,
   ⟨0x20, 1, 0x0, 1, 0x0, 0x00000000, 0x00000000, 0x0000FFFF, 0x00000000⟩,
   ⟨0x24, 1, 0x0, 1, 0x0, 0x00000000, 0x00000000, 0x003FFFFF, 0x00000000⟩,
   ⟨0x28, 1, 0x0, 1, 0x0, 0x00000000, 0x00000003, 0x00000000, 0x00000000⟩,
   ⟨0x2C, 1, 0x0, 1, 0x0, 0x00000003, 0x00000000, 0x00000000, 0x00000002⟩]

/-- Rows of Table 7.8 (spec/07_stream_ports_encoders_decoders.md). -/
def rowsENC : List RegRow :=
  [⟨0x0, 1, 0x0, 1, 0x0, 0x0000FF07, 0x00000000, 0x00000000, 0x00000000⟩,
   ⟨0x4, 1, 0x0, 1, 0x0, 0x00000000, 0x00000000, 0xFF003FFF, 0x00000000⟩,
   ⟨0x8, 1, 0x0, 1, 0x0, 0xFF3F3F00, 0x00000000, 0x00000000, 0x00000000⟩,
   ⟨0xC, 1, 0x0, 1, 0x0, 0x00000FFF, 0x00000000, 0x00000000, 0x000000E4⟩,
   ⟨0x10, 1, 0x0, 1, 0x0, 0x00000000, 0x00000000, 0x00000FF3, 0x00000000⟩,
   ⟨0x14, 1, 0x0, 1, 0x0, 0x800F9F0F, 0x00000000, 0x00000000, 0x00000000⟩,
   ⟨0x18, 1, 0x0, 1, 0x0, 0xF9FFFFFF, 0x00000000, 0x00000000, 0x00000000⟩,
   ⟨0x1C, 1, 0x0, 1, 0x0, 0x00FFFFFF, 0x00000000, 0x00000000, 0x00000000⟩,
   ⟨0x20, 1, 0x0, 1, 0x0, 0xFFFFFFFF, 0x00000000, 0x00000000, 0x00000000⟩,
   ⟨0x24, 1, 0x0, 1, 0x0, 0x0000FFFF, 0x00000000, 0x00000000, 0x00000000⟩,
   ⟨0x28, 1, 0x0, 1, 0x0, 0x00000000, 0x00000000, 0x0000FFFF, 0x00000000⟩,
   ⟨0x2C, 1, 0x0, 1, 0x0, 0x00007F0F, 0x00000000, 0x00000000, 0x00001000⟩] ++
  [⟨0x30, 1, 0x0, 1, 0x0, 0x00003FFF, 0x00000000, 0x00000000, 0x00002000⟩,
   ⟨0x34, 1, 0x0, 1, 0x0, 0x007FFFFF, 0x00000000, 0x00000000, 0x00000000⟩,
   ⟨0x38, 1, 0x0, 1, 0x0, 0xFFFFFFFF, 0x00000000, 0x00000000, 0x00000000⟩,
   ⟨0x3C, 1, 0x0, 1, 0x0, 0xFFFFFFFF, 0x00000000, 0x00000000, 0x00000000⟩,
   ⟨0x40, 1, 0x0, 1, 0x0, 0xFFFFFFC0, 0x00000000, 0x00000000, 0x00000000⟩,
   ⟨0x44, 1, 0x0, 1, 0x0, 0x0000001F, 0x00000000, 0x00000000, 0x00000000⟩,
   ⟨0x48, 1, 0x0, 1, 0x0, 0xFFFFFFFF, 0x00000000, 0x00000000, 0x00000000⟩,
   ⟨0x4C, 1, 0x0, 1, 0x0, 0x00000000, 0x00000000, 0xFFFFFFFF, 0x00000000⟩,
   ⟨0x50, 1, 0x0, 1, 0x0, 0x00000000, 0x000003FF, 0x00000000, 0x00000000⟩,
   ⟨0x54, 1, 0x0, 1, 0x0, 0x000003FF, 0x00000000, 0x00000000, 0x0000037F⟩,
   ⟨0x58, 1, 0x0, 1, 0x0, 0xFFFFFFFF, 0x00000000, 0x00000000, 0x00000000⟩,
   ⟨0x5C, 1, 0x0, 1, 0x0, 0xFFFFFFFF, 0x00000000, 0x00000000, 0x00000000⟩] ++
  [⟨0x60, 1, 0x0, 1, 0x0, 0xFFFFFFFF, 0x00000000, 0x00000000, 0x00000000⟩,
   ⟨0x64, 1, 0x0, 1, 0x0, 0xFFFFFFFF, 0x00000000, 0x00000000, 0x00000000⟩,
   ⟨0x68, 1, 0x0, 1, 0x0, 0xFFFFFFFF, 0x00000000, 0x00000000, 0x00000000⟩,
   ⟨0x6C, 1, 0x0, 1, 0x0, 0xFFFFFFFF, 0x00000000, 0x00000000, 0x00000000⟩,
   ⟨0x70, 1, 0x0, 1, 0x0, 0xFFFFFFFF, 0x00000000, 0x00000000, 0x00000000⟩,
   ⟨0x74, 1, 0x0, 1, 0x0, 0xFFFFFFFF, 0x00000000, 0x00000000, 0x00000000⟩,
   ⟨0x78, 1, 0x0, 1, 0x0, 0x00000000, 0x00000000, 0x007FFFFF, 0x00000000⟩,
   ⟨0x7C, 1, 0x0, 1, 0x0, 0x00000000, 0x00000000, 0x00000001, 0x00000000⟩,
   ⟨0x80, 1, 0x0, 1, 0x0, 0x00000000, 0x00000000, 0xFFFFFFFF, 0x00000000⟩,
   ⟨0x84, 1, 0x0, 1, 0x0, 0xFFFFFFFF, 0x00000000, 0x00000000, 0x00000000⟩,
   ⟨0x1000, 128, 0x4, 2, 0x200, 0xFFFFFFFF, 0x00000000, 0x00000000, 0x00000000⟩,
   ⟨0x4000, 4096, 0x4, 1, 0x0, 0xFFFFFFFF, 0x00000000, 0x00000000, 0x00000000⟩]

/-- Rows of Table 7.14 (spec/07_stream_ports_encoders_decoders.md). -/
def rowsDECS : List RegRow :=
  [⟨0x0, 1, 0x0, 1, 0x0, 0x8F001FFF, 0x00000000, 0x00000000, 0x00000000⟩,
   ⟨0x4, 1, 0x0, 1, 0x0, 0x00000000, 0x00000000, 0x000000FF, 0x00000001⟩,
   ⟨0x8, 1, 0x0, 1, 0x0, 0xFFFFFFFF, 0x00000000, 0x00000000, 0x00000000⟩,
   ⟨0xC, 1, 0x0, 1, 0x0, 0xFFFFFFFF, 0x00000000, 0x00000000, 0x00000000⟩,
   ⟨0x10, 1, 0x0, 1, 0x0, 0xFFFFFFFF, 0x00000000, 0x00000000, 0x00000000⟩,
   ⟨0x14, 1, 0x0, 1, 0x0, 0xFFFFFFFF, 0x00000000, 0x00000000, 0x00000000⟩,
   ⟨0x20, 8, 0x4, 1, 0x0, 0x00000000, 0x00000000, 0xFFFFFFFF, 0x00000000⟩]

/-- Rows of Table 7.15 (spec/07_stream_ports_encoders_decoders.md). -/
def rowsDEC : List RegRow :=
  [⟨0x0, 1, 0x0, 1, 0x0, 0x000000F1, 0x00000000, 0x00000000, 0x00000000⟩,
   ⟨0x4, 1, 0x0, 1, 0x0, 0x001F01FF, 0x00000000, 0x00000000, 0x00000000⟩,
   ⟨0x8, 1, 0x0, 1, 0x0, 0x000000FF, 0x00000000, 0x00000000, 0x00000003⟩,
   ⟨0xC, 1, 0x0, 1, 0x0, 0x0000FFFF, 0x00000000, 0x00000000, 0x00000000⟩,
   ⟨0x10, 1, 0x0, 1, 0x0, 0x000007FF, 0x00000000, 0x00000000, 0x00000000⟩,
   ⟨0x14, 1, 0x0, 1, 0x0, 0x00000FFF, 0x00000000, 0x00000000, 0x00000000⟩,
   ⟨0x18, 1, 0x0, 1, 0x0, 0x00000000, 0x00000000, 0x81FFFFFF, 0x00000000⟩,
   ⟨0x1C, 1, 0x0, 1, 0x0, 0x00000000, 0x00000000, 0xFFFFFFFF, 0x00000000⟩,
   ⟨0x20, 1, 0x0, 1, 0x0, 0x00000000, 0x00000000, 0x000001FF, 0x00000000⟩]

/-- Rows of Table 8.3 (spec/08_learning.md). -/
def rowsLRN : List RegRow :=
  [⟨0x0, 1, 0x0, 1, 0x0, 0x00000003, 0x00000000, 0x00000000, 0x00000000⟩,
   ⟨0x4, 1, 0x0, 1, 0x0, 0x00000000, 0x00000000, 0xFFFFFFFF, 0x00000000⟩,
   ⟨0x8, 1, 0x0, 1, 0x0, 0x00000000, 0x0000003F, 0x00000000, 0x00000000⟩,
   ⟨0xC, 1, 0x0, 1, 0x0, 0x0000003F, 0x00000000, 0x00000000, 0x00000021⟩,
   ⟨0x10, 1, 0x0, 1, 0x0, 0xFFFFFF03, 0x00000000, 0x00000000, 0x00000000⟩,
   ⟨0x14, 1, 0x0, 1, 0x0, 0xFFFFFFFF, 0x00000000, 0x00000000, 0x00000000⟩,
   ⟨0x18, 1, 0x0, 1, 0x0, 0x1FFF0FFF, 0x00000000, 0x00000000, 0x00000000⟩,
   ⟨0x1C, 1, 0x0, 1, 0x0, 0x0000FFFF, 0x00000000, 0x00000000, 0x00000000⟩,
   ⟨0x20, 1, 0x0, 1, 0x0, 0x00000077, 0x00000000, 0x00000000, 0x00000000⟩,
   ⟨0x24, 1, 0x0, 1, 0x0, 0xFFFF07FF, 0x00000000, 0x00000000, 0x00000000⟩,
   ⟨0x28, 1, 0x0, 1, 0x0, 0xFFFF0000, 0x00000000, 0x00000000, 0x00000000⟩,
   ⟨0x2C, 1, 0x0, 1, 0x0, 0xFFFFFFFF, 0x00000000, 0x00000000, 0x00000000⟩] ++
  [⟨0x30, 1, 0x0, 1, 0x0, 0x7FFF03FF, 0x00000000, 0x00000000, 0x00000000⟩,
   ⟨0x34, 1, 0x0, 1, 0x0, 0x00000000, 0x00000000, 0x00000000, 0x00000000⟩,
   ⟨0x38, 1, 0x0, 1, 0x0, 0x00000000, 0x00000000, 0xFFFF000F, 0x00000000⟩,
   ⟨0x3C, 1, 0x0, 1, 0x0, 0x00000000, 0x00000000, 0xFFFFFFFF, 0x00000000⟩,
   ⟨0x40, 1, 0x0, 1, 0x0, 0x00000000, 0x00000000, 0x00000000, 0x00000000⟩,
   ⟨0x44, 1, 0x0, 1, 0x0, 0xFFFFFFFF, 0x00000000, 0x00000000, 0x00000000⟩,
   ⟨0x48, 1, 0x0, 1, 0x0, 0xFFFFFFFF, 0x00000000, 0x00000000, 0x00000000⟩,
   ⟨0x4C, 1, 0x0, 1, 0x0, 0xFFFFFFFF, 0x00000000, 0x00000000, 0x00000000⟩,
   ⟨0x50, 1, 0x0, 1, 0x0, 0xFFFFFFFF, 0x00000000, 0x00000000, 0x00000000⟩,
   ⟨0x54, 1, 0x0, 1, 0x0, 0xFFFFFFFF, 0x00000000, 0x00000000, 0x00000000⟩,
   ⟨0x58, 1, 0x0, 1, 0x0, 0xFFFFFFFF, 0x00000000, 0x00000000, 0x00000000⟩,
   ⟨0x5C, 1, 0x0, 1, 0x0, 0xFFFFFFFF, 0x00000000, 0x00000000, 0x00000000⟩] ++
  [⟨0x60, 1, 0x0, 1, 0x0, 0xFFFFFFFF, 0x00000000, 0x00000000, 0x00000000⟩,
   ⟨0x64, 1, 0x0, 1, 0x0, 0xFFFFFFFF, 0x00000000, 0x00000000, 0x00000000⟩,
   ⟨0x68, 1, 0x0, 1, 0x0, 0xFFFFFFFF, 0x00000000, 0x00000000, 0x00000000⟩,
   ⟨0x6C, 1, 0x0, 1, 0x0, 0xFFFFFFFF, 0x00000000, 0x00000000, 0x00000000⟩,
   ⟨0x70, 1, 0x0, 1, 0x0, 0xFFFFFFFF, 0x00000000, 0x00000000, 0x00000000⟩,
   ⟨0x74, 1, 0x0, 1, 0x0, 0x00000000, 0x00000000, 0x01FFFFFF, 0x00000000⟩,
   ⟨0x80, 4, 0x10, 1, 0x0, 0x87FF0FFF, 0x00000000, 0x00000000, 0x00000000⟩,
   ⟨0x84, 4, 0x10, 1, 0x0, 0x00003FFF, 0x00000000, 0x00000000, 0x00000000⟩,
   ⟨0x88, 4, 0x10, 1, 0x0, 0xF7FF03FF, 0x00000000, 0x00000000, 0x00000000⟩]

/-- Rows of Table 9.13 (spec/09_mesh_fabric.md). -/
def rowsRTR : List RegRow :=
  [⟨0x0, 1, 0x0, 1, 0x0, 0x00003F01, 0x00000000, 0x00000000, 0x00000000⟩,
   ⟨0x4, 1, 0x0, 1, 0x0, 0x00000000, 0x00000000, 0xF0003F3F, 0x00000000⟩,
   ⟨0x8, 1, 0x0, 1, 0x0, 0x00000000, 0x0000003F, 0x00000000, 0x00000000⟩,
   ⟨0xC, 1, 0x0, 1, 0x0, 0x0000003F, 0x00000000, 0x00000000, 0x00000007⟩,
   ⟨0x10, 1, 0x0, 1, 0x0, 0x00000103, 0x00000000, 0x00000000, 0x00000000⟩,
   ⟨0x14, 1, 0x0, 1, 0x0, 0xFFFFFFFF, 0x00000000, 0x00000000, 0x00000000⟩,
   ⟨0x18, 1, 0x0, 1, 0x0, 0x00003F07, 0x00000000, 0x00000000, 0x00000000⟩,
   ⟨0x1C, 1, 0x0, 1, 0x0, 0x0000FFFF, 0x00000000, 0x00000000, 0x00001000⟩,
   ⟨0x20, 1, 0x0, 1, 0x0, 0xFFFFFFFF, 0x00000000, 0x00000000, 0x00000000⟩,
   ⟨0x24, 1, 0x0, 1, 0x0, 0xFFFFFFFF, 0x00000000, 0x00000000, 0x00000000⟩,
   ⟨0x28, 1, 0x0, 1, 0x0, 0xFFFFFFFF, 0x00000000, 0x00000000, 0x00000000⟩,
   ⟨0x2C, 1, 0x0, 1, 0x0, 0xFFFFFFFF, 0x00000000, 0x00000000, 0x00000000⟩] ++
  [⟨0x30, 1, 0x0, 1, 0x0, 0x0000FFFF, 0x00000000, 0x00000000, 0x00000000⟩,
   ⟨0x34, 1, 0x0, 1, 0x0, 0x00000000, 0x00000000, 0xFFFFFFFF, 0x00000000⟩,
   ⟨0x38, 1, 0x0, 1, 0x0, 0x00000000, 0x00000000, 0xFFFFFFFF, 0x00000000⟩,
   ⟨0x3C, 1, 0x0, 1, 0x0, 0x00000000, 0x00000000, 0xFFFFFFFF, 0x00000000⟩,
   ⟨0x40, 6, 0x4, 1, 0x0, 0x00000000, 0x00000000, 0xFFFFFFFF, 0x00024924⟩,
   ⟨0x60, 6, 0x4, 1, 0x0, 0x00000000, 0x00000000, 0xFFFFFFFF, 0x00000000⟩,
   ⟨0x80, 6, 0x4, 1, 0x0, 0xFFFFFFFF, 0x00000000, 0x00000000, 0x00000000⟩,
   ⟨0x100, 16, 0x4, 2, 0x80, 0xFFFFFFFF, 0x00000000, 0x00000000, 0x00000000⟩,
   ⟨0x140, 8, 0x4, 2, 0x80, 0xFFFFFFFF, 0x00000000, 0x00000000, 0x00000000⟩]

/-- Rows of Table 9.19 (spec/09_mesh_fabric.md). -/
def rowsSEAM : List RegRow :=
  [⟨0x0, 1, 0x0, 1, 0x0, 0x00000000, 0x00000000, 0xFFFFFFFF, 0x00000000⟩,
   ⟨0x4, 1, 0x0, 1, 0x0, 0x00000000, 0x00000000, 0xFFFFFFFF, 0x00000000⟩,
   ⟨0x8, 1, 0x0, 1, 0x0, 0xFFFFFFFF, 0x00000000, 0x00000000, 0x00000000⟩,
   ⟨0xC, 1, 0x0, 1, 0x0, 0xFFFFFFFF, 0x00000000, 0x00000000, 0x00000000⟩,
   ⟨0x10, 1, 0x0, 1, 0x0, 0x00000000, 0x00000000, 0xFFFF0001, 0x00000000⟩,
   ⟨0x14, 1, 0x0, 1, 0x0, 0x00000000, 0x00000003, 0x00000000, 0x00000000⟩,
   ⟨0x18, 1, 0x0, 1, 0x0, 0x00000003, 0x00000000, 0x00000000, 0x00000002⟩,
   ⟨0x1C, 1, 0x0, 1, 0x0, 0x000FFFFF, 0x00000000, 0x00000000, 0x00000000⟩,
   ⟨0x20, 1, 0x0, 1, 0x0, 0xFFFFFFFF, 0x00000000, 0x00000000, 0x00000000⟩,
   ⟨0x24, 1, 0x0, 1, 0x0, 0x0000003F, 0x00000000, 0x00000000, 0x00000000⟩,
   ⟨0x28, 1, 0x0, 1, 0x0, 0x00000000, 0x00000000, 0xFFFFFFFF, 0x00000000⟩,
   ⟨0x2C, 1, 0x0, 1, 0x0, 0xFFFFFFFF, 0x00000000, 0x00000000, 0x00000000⟩] ++
  [⟨0x30, 1, 0x0, 1, 0x0, 0x00000000, 0x00000000, 0x00000000, 0x00000000⟩,
   ⟨0x34, 1, 0x0, 1, 0x0, 0x00000000, 0x00000000, 0xFFFFFFFF, 0x00000000⟩,
   ⟨0x38, 1, 0x0, 1, 0x0, 0x00000001, 0x00000000, 0x00000000, 0x00000000⟩,
   ⟨0x3C, 1, 0x0, 1, 0x0, 0x00000000, 0x00000000, 0x00000000, 0x00000000⟩,
   ⟨0x40, 1, 0x0, 1, 0x0, 0x00000000, 0x00000000, 0x80FFFFFF, 0x00000000⟩]

/-- Rows of Table 10.8 (spec/10_message_channels.md). -/
def rowsCHN : List RegRow :=
  [⟨0x0, 1, 0x0, 1, 0x0, 0x00000000, 0x00000000, 0x00000077, 0x00000000⟩,
   ⟨0x4, 1, 0x0, 1, 0x0, 0x00000000, 0x0000007F, 0x00000000, 0x00000000⟩,
   ⟨0x8, 1, 0x0, 1, 0x0, 0x0000007F, 0x00000000, 0x00000000, 0x00000027⟩,
   ⟨0xC, 1, 0x0, 1, 0x0, 0xFFFFFFFF, 0x00000000, 0x00000000, 0x00000000⟩,
   ⟨0x10, 1, 0x0, 1, 0x0, 0xFFFFFFFF, 0x00000000, 0x00000000, 0x00000000⟩,
   ⟨0x14, 1, 0x0, 1, 0x0, 0xFFFFFFFF, 0x00000000, 0x00000000, 0x00000000⟩,
   ⟨0x18, 1, 0x0, 1, 0x0, 0xFFFFFFFF, 0x00000000, 0x00000000, 0x00000000⟩,
   ⟨0x1C, 1, 0x0, 1, 0x0, 0xFFFFFFFF, 0x00000000, 0x00000000, 0x00000000⟩,
   ⟨0x20, 1, 0x0, 1, 0x0, 0xFFFFFFFF, 0x00000000, 0x00000000, 0x00000000⟩,
   ⟨0x24, 1, 0x0, 1, 0x0, 0xFFFFFFFF, 0x00000000, 0x00000000, 0x00000000⟩,
   ⟨0x28, 1, 0x0, 1, 0x0, 0x00000001, 0x00000000, 0x00000000, 0x00000001⟩,
   ⟨0x2C, 1, 0x0, 1, 0x0, 0x00000000, 0x00000000, 0xC0001FFF, 0x00000000⟩] ++
  [⟨0x30, 1, 0x0, 1, 0x0, 0x00000000, 0x00000000, 0xFFFFFFFF, 0x00000000⟩,
   ⟨0x34, 1, 0x0, 1, 0x0, 0x00000000, 0x00000000, 0xFFFFFFFF, 0x00000000⟩,
   ⟨0x38, 1, 0x0, 1, 0x0, 0x00000000, 0x00000000, 0xFFFFFFFF, 0x00000000⟩,
   ⟨0x3C, 1, 0x0, 1, 0x0, 0x00000000, 0x00000000, 0xFFFFFFFF, 0x00000000⟩,
   ⟨0x40, 1, 0x0, 1, 0x0, 0xFFFFFFFF, 0x00000000, 0x00000000, 0x00000000⟩,
   ⟨0x100, 64, 0x4, 1, 0x0, 0xFF7F3F01, 0x00000000, 0x00000000, 0x00000000⟩,
   ⟨0x200, 64, 0x10, 1, 0x0, 0x8FFF07FF, 0x00000000, 0x00000000, 0x00000000⟩,
   ⟨0x204, 64, 0x10, 1, 0x0, 0x00000000, 0x00000000, 0x00007FFF, 0x00000000⟩,
   ⟨0x208, 64, 0x10, 1, 0x0, 0x00007FFF, 0x00000000, 0x00000000, 0x00000000⟩,
   ⟨0x20C, 64, 0x10, 1, 0x0, 0x00000000, 0x00000000, 0x00FF7FFF, 0x00010000⟩]

/-- Rows of Table 11.12 (spec/11_nelmond_fabric.md). -/
def rowsNLK : List RegRow :=
  [⟨0x0, 1, 0x0, 1, 0x0, 0x80000100, 0x00000000, 0x00000000, 0x00000000⟩,
   ⟨0x4, 1, 0x0, 1, 0x0, 0x00000000, 0x00000000, 0xFFF01FFF, 0x00000000⟩,
   ⟨0x8, 1, 0x0, 1, 0x0, 0x00000000, 0x0000003F, 0x00000000, 0x00000000⟩,
   ⟨0xC, 1, 0x0, 1, 0x0, 0x0000003F, 0x00000000, 0x00000000, 0x00000038⟩,
   ⟨0x10, 1, 0x0, 1, 0x0, 0xFFFFFFFF, 0x00000000, 0x00000000, 0x009D0040⟩,
   ⟨0x14, 1, 0x0, 1, 0x0, 0x00FFFFFF, 0x00000000, 0x00000000, 0x00003D09⟩,
   ⟨0x18, 1, 0x0, 1, 0x0, 0xFFFFFFFF, 0x00000000, 0x00000000, 0x00000000⟩,
   ⟨0x1C, 1, 0x0, 1, 0x0, 0xFFFFFFFF, 0x00000000, 0x00000000, 0x00000000⟩,
   ⟨0x20, 1, 0x0, 1, 0x0, 0xFFFFFFFF, 0x00000000, 0x00000000, 0x00000000⟩,
   ⟨0x24, 1, 0x0, 1, 0x0, 0xFFFFFFFF, 0x00000000, 0x00000000, 0x00000000⟩,
   ⟨0x28, 1, 0x0, 1, 0x0, 0xFFFFFFFF, 0x00000000, 0x00000000, 0x00000000⟩,
   ⟨0x2C, 1, 0x0, 1, 0x0, 0xFFFFFFFF, 0x00000000, 0x00000000, 0x00000000⟩] ++
  [⟨0x30, 1, 0x0, 1, 0x0, 0xFFFFFFFF, 0x00000000, 0x00000000, 0x00000000⟩,
   ⟨0x34, 1, 0x0, 1, 0x0, 0x00000000, 0x00000000, 0x000003FF, 0x00000000⟩,
   ⟨0x38, 1, 0x0, 1, 0x0, 0x00000000, 0x00000000, 0x0000FFFF, 0x00000000⟩,
   ⟨0x40, 10, 0x4, 1, 0x0, 0x00000000, 0x00000000, 0x000000FF, 0x00000000⟩,
   ⟨0x80, 10, 0x4, 1, 0x0, 0x00000000, 0x00000000, 0x000000FF, 0x00000000⟩]

/-- Rows of Table 11.15 (spec/11_nelmond_fabric.md). -/
def rowsGW : List RegRow :=
  [⟨0x0, 1, 0x0, 1, 0x0, 0x000FFFFF, 0x00000000, 0x00000000, 0x00000000⟩,
   ⟨0x4, 1, 0x0, 1, 0x0, 0x00000000, 0x00000000, 0xF000FFFF, 0x00000000⟩,
   ⟨0x8, 1, 0x0, 1, 0x0, 0x00000000, 0xFFFF007F, 0x00000000, 0x00000000⟩,
   ⟨0xC, 1, 0x0, 1, 0x0, 0xFFFF007F, 0x00000000, 0x00000000, 0xFFFF0078⟩,
   ⟨0x10, 1, 0x0, 1, 0x0, 0x0007FFFF, 0x00000000, 0x00000000, 0x00000000⟩,
   ⟨0x14, 1, 0x0, 1, 0x0, 0xFFFFFFFF, 0x00000000, 0x00000000, 0x00000000⟩,
   ⟨0x18, 1, 0x0, 1, 0x0, 0xFFFFFFFF, 0x00000000, 0x00000000, 0x00000000⟩,
   ⟨0x1C, 1, 0x0, 1, 0x0, 0x0003FFFF, 0x00000000, 0x00000000, 0x00000000⟩,
   ⟨0x20, 1, 0x0, 1, 0x0, 0xFFFFFFFF, 0x00000000, 0x00000000, 0x00000000⟩,
   ⟨0x24, 1, 0x0, 1, 0x0, 0xFFFFFFFF, 0x00000000, 0x00000000, 0x00000000⟩,
   ⟨0x28, 1, 0x0, 1, 0x0, 0x0000FFFF, 0x00000000, 0x00000000, 0x00000014⟩,
   ⟨0x30, 4, 0x4, 1, 0x0, 0xFFFFFFFF, 0x00000000, 0x00000000, 0x00000000⟩] ++
  [⟨0x40, 1, 0x0, 1, 0x0, 0xFFFFFFFF, 0x00000000, 0x00000000, 0x00000000⟩,
   ⟨0x44, 1, 0x0, 1, 0x0, 0xFFFFFFFF, 0x00000000, 0x00000000, 0x00000000⟩,
   ⟨0x48, 1, 0x0, 1, 0x0, 0xFFFFFFFF, 0x00000000, 0x00000000, 0x00000000⟩,
   ⟨0x4C, 1, 0x0, 1, 0x0, 0xFFFFFFFF, 0x00000000, 0x00000000, 0x00000000⟩,
   ⟨0x50, 1, 0x0, 1, 0x0, 0xFFFFFFFF, 0x00000000, 0x00000000, 0x00000000⟩,
   ⟨0x54, 1, 0x0, 1, 0x0, 0xFFFFFFFF, 0x00000000, 0x00000000, 0x00000000⟩,
   ⟨0x58, 1, 0x0, 1, 0x0, 0xFFFFFFFF, 0x00000000, 0x00000000, 0x00000000⟩,
   ⟨0x5C, 1, 0x0, 1, 0x0, 0xFFFFFFFF, 0x00000000, 0x00000000, 0x00000000⟩,
   ⟨0x60, 1, 0x0, 1, 0x0, 0xFFFFFFFF, 0x00000000, 0x00000000, 0x00000000⟩,
   ⟨0x64, 1, 0x0, 1, 0x0, 0xFFFFFFFF, 0x00000000, 0x00000000, 0x00000000⟩,
   ⟨0x70, 4, 0x4, 1, 0x0, 0x00000000, 0x00000000, 0x03FF03FF, 0x02000200⟩,
   ⟨0x100, 16, 0x20, 1, 0x0, 0x800003FF, 0x00000000, 0x00000000, 0x00000000⟩] ++
  [⟨0x104, 16, 0x20, 1, 0x0, 0x000FFFFF, 0x00000000, 0x00000000, 0x00000000⟩,
   ⟨0x108, 16, 0x20, 1, 0x0, 0x00000000, 0x00000000, 0x00000000, 0x00000000⟩,
   ⟨0x10C, 16, 0x20, 1, 0x0, 0x00000000, 0x0000001F, 0x00000000, 0x00000000⟩,
   ⟨0x110, 16, 0x20, 1, 0x0, 0x00000000, 0x00000000, 0x03FFFFFF, 0x00000000⟩,
   ⟨0x114, 16, 0x20, 1, 0x0, 0x00000000, 0x00000000, 0x80FFFFFF, 0x00000000⟩,
   ⟨0x118, 16, 0x20, 1, 0x0, 0x00000000, 0x00000000, 0x007FFFFF, 0x00000000⟩]

/-- Rows of Table 12.7 (spec/12_integrity_and_recovery.md). -/
def rowsCHK : List RegRow :=
  [⟨0x0, 1, 0x0, 1, 0x0, 0x00000001, 0x00000000, 0x00000000, 0x00000001⟩,
   ⟨0x4, 1, 0x0, 1, 0x0, 0x00000000, 0x00000000, 0xFFFFFFFF, 0x00000000⟩,
   ⟨0x8, 1, 0x0, 1, 0x0, 0x00000000, 0xFFFFFFFF, 0x00000000, 0x00000000⟩,
   ⟨0xC, 1, 0x0, 1, 0x0, 0xFFFFFFFF, 0x00000000, 0x00000000, 0xFFFF0030⟩,
   ⟨0x100, 16, 0x4, 1, 0x0, 0xFFFFFFFF, 0x00000000, 0x00000000, 0x00000000⟩,
   ⟨0x140, 16, 0x4, 1, 0x0, 0xFFFFFFFF, 0x00000000, 0x00000000, 0x00000000⟩,
   ⟨0x200, 16, 0x40, 1, 0x0, 0x8000001F, 0x00000000, 0x00000000, 0x00000000⟩,
   ⟨0x204, 16, 0x40, 1, 0x0, 0x00000000, 0x00000000, 0xE000FFFF, 0x00000000⟩,
   ⟨0x208, 16, 0x40, 1, 0x0, 0x00000000, 0x0000003F, 0x00000000, 0x00000000⟩,
   ⟨0x20C, 16, 0x40, 1, 0x0, 0x00000000, 0x00000000, 0x00001FFF, 0x00000000⟩,
   ⟨0x210, 16, 0x40, 1, 0x0, 0x00000000, 0x00000000, 0xFFFFFFFF, 0x00000000⟩,
   ⟨0x214, 16, 0x40, 1, 0x0, 0x00000000, 0x00000000, 0xFFFFFFFF, 0x00000000⟩] ++
  [⟨0x218, 16, 0x40, 1, 0x0, 0x00000000, 0x00000000, 0xC3FFFFFF, 0x00000000⟩,
   ⟨0x21C, 16, 0x40, 1, 0x0, 0x8000FFFF, 0x00000000, 0x00000000, 0x00000000⟩,
   ⟨0x220, 16, 0x40, 1, 0x0, 0x00000000, 0x00000000, 0x0000003F, 0x00000000⟩]

/-- Rows of Table 12.11 (spec/12_integrity_and_recovery.md). -/
def rowsCHKT : List RegRow :=
  [⟨0x0, 1, 0x0, 1, 0x0, 0x00000000, 0x00000000, 0xF000FFFF, 0x00000000⟩,
   ⟨0x4, 1, 0x0, 1, 0x0, 0x00000000, 0x00000000, 0xFFFFFFFF, 0x00000000⟩,
   ⟨0x8, 1, 0x0, 1, 0x0, 0x00000000, 0x00000000, 0xFFFFFFFF, 0x00000000⟩,
   ⟨0xC, 1, 0x0, 1, 0x0, 0xFFFFFFFF, 0x00000000, 0x00000000, 0x00000000⟩,
   ⟨0x10, 1, 0x0, 1, 0x0, 0xFFFFFFFF, 0x00000000, 0x00000000, 0x00000000⟩,
   ⟨0x14, 1, 0x0, 1, 0x0, 0x00000001, 0x00000000, 0x00000000, 0x00000000⟩]

/-- Rows of Table 13.17 (spec/13_configuration_image.md). -/
def rowsIMG : List RegRow :=
  [⟨0x0, 1, 0x0, 1, 0x0, 0x00000000, 0x00000000, 0x00000000, 0x00000000⟩,
   ⟨0x4, 1, 0x0, 1, 0x0, 0x00000000, 0x00000000, 0xFFFF00FF, 0x00000000⟩,
   ⟨0x8, 1, 0x0, 1, 0x0, 0xFFFFFFC0, 0x00000000, 0x00000000, 0x00000000⟩,
   ⟨0xC, 1, 0x0, 1, 0x0, 0x0000001F, 0x00000000, 0x00000000, 0x00000000⟩,
   ⟨0x10, 1, 0x0, 1, 0x0, 0xFFFFFFFF, 0x00000000, 0x00000000, 0x00000000⟩,
   ⟨0x14, 1, 0x0, 1, 0x0, 0x0000001F, 0x00000000, 0x00000000, 0x00000000⟩,
   ⟨0x18, 1, 0x0, 1, 0x0, 0xFFFFFFC0, 0x00000000, 0x00000000, 0x00000000⟩,
   ⟨0x1C, 1, 0x0, 1, 0x0, 0x0000001F, 0x00000000, 0x00000000, 0x00000000⟩,
   ⟨0x20, 1, 0x0, 1, 0x0, 0x00000000, 0x00000000, 0xFFFFFFFF, 0x00000000⟩,
   ⟨0x24, 1, 0x0, 1, 0x0, 0x00000000, 0x00000000, 0xFFFFFE00, 0x00000000⟩,
   ⟨0x28, 1, 0x0, 1, 0x0, 0x00000000, 0x00000000, 0xFFFF001F, 0x00000000⟩,
   ⟨0x2C, 1, 0x0, 1, 0x0, 0x00000000, 0x00000000, 0xFFFFFFFF, 0x00000000⟩] ++
  [⟨0x30, 1, 0x0, 1, 0x0, 0xFF00FFFF, 0x00000000, 0x00000000, 0x00000000⟩,
   ⟨0x34, 1, 0x0, 1, 0x0, 0xFFFFFFFF, 0x00000000, 0x00000000, 0x00000000⟩,
   ⟨0x38, 1, 0x0, 1, 0x0, 0xFFFFFFFF, 0x00000000, 0x00000000, 0x00000000⟩,
   ⟨0x3C, 1, 0x0, 1, 0x0, 0xFFFFFFFF, 0x00000000, 0x00000000, 0x00000000⟩,
   ⟨0x40, 1, 0x0, 1, 0x0, 0xFFFFFFFF, 0x00000000, 0x00000000, 0x00000000⟩,
   ⟨0x44, 1, 0x0, 1, 0x0, 0xFFFFFFFF, 0x00000000, 0x00000000, 0x00000000⟩]

/-- Rows of Table 13.19 (spec/13_configuration_image.md). -/
def rowsLIC : List RegRow :=
  [⟨0x0, 1, 0x0, 1, 0x0, 0x00000000, 0x00000000, 0x00000000, 0x00000000⟩,
   ⟨0x4, 1, 0x0, 1, 0x0, 0xFFFFFFC0, 0x00000000, 0x00000000, 0x00000000⟩,
   ⟨0x8, 1, 0x0, 1, 0x0, 0x0000001F, 0x00000000, 0x00000000, 0x00000000⟩,
   ⟨0xC, 1, 0x0, 1, 0x0, 0x0000FFFF, 0x00000000, 0x00000000, 0x00000000⟩,
   ⟨0x10, 1, 0x0, 1, 0x0, 0x00000000, 0x00000000, 0xE00000FF, 0x00000000⟩,
   ⟨0x14, 1, 0x0, 1, 0x0, 0x00000000, 0x00000000, 0x000000FF, 0x00000000⟩,
   ⟨0x18, 1, 0x0, 1, 0x0, 0xFFFFFFFF, 0x00000000, 0x00000000, 0x00000000⟩,
   ⟨0x20, 5, 0x4, 1, 0x0, 0x00000000, 0x00000000, 0x8000FFFF, 0x00000000⟩]

/-- Rows of Table 14.10 (spec/14_bring_up_and_reset.md). -/
def rowsBOOT : List RegRow :=
  [⟨0x0, 1, 0x0, 1, 0x0, 0x00000000, 0x00000000, 0xFE000000, 0x00000000⟩,
   ⟨0x4, 1, 0x0, 1, 0x0, 0x00000000, 0x00000000, 0x00000000, 0x00000000⟩,
   ⟨0x8, 1, 0x0, 1, 0x0, 0x00000000, 0x00000000, 0x00000003, 0x00000000⟩,
   ⟨0xC, 1, 0x0, 1, 0x0, 0x00000000, 0x00000000, 0x000000FF, 0x00000000⟩,
   ⟨0x10, 1, 0x0, 1, 0x0, 0x00000000, 0x00000000, 0xFFFFFFFF, 0x00000000⟩,
   ⟨0x14, 1, 0x0, 1, 0x0, 0x00000000, 0x00000000, 0xFFFFFFFF, 0x00000000⟩,
   ⟨0x18, 1, 0x0, 1, 0x0, 0xC000FFFF, 0x00000000, 0x00000000, 0x00000000⟩,
   ⟨0x1C, 1, 0x0, 1, 0x0, 0x0000FFFF, 0x00000000, 0x00000000, 0x00002710⟩,
   ⟨0x20, 1, 0x0, 1, 0x0, 0x00000000, 0x00000000, 0x00000000, 0x00000000⟩,
   ⟨0x24, 1, 0x0, 1, 0x0, 0x00000000, 0x00000000, 0x00000000, 0x00000000⟩,
   ⟨0x28, 1, 0x0, 1, 0x0, 0x00000000, 0x00000000, 0x00000000, 0x00000000⟩,
   ⟨0x2C, 1, 0x0, 1, 0x0, 0x00000000, 0x00000000, 0x00000000, 0x00000000⟩] ++
  [⟨0x30, 1, 0x0, 1, 0x0, 0x00000000, 0x00000000, 0x00000000, 0x00000000⟩,
   ⟨0x34, 1, 0x0, 1, 0x0, 0x00000000, 0x00000000, 0xF0001FFF, 0x00000000⟩,
   ⟨0x38, 1, 0x0, 1, 0x0, 0x00000000, 0x0000001F, 0x00000000, 0x00000000⟩,
   ⟨0x3C, 1, 0x0, 1, 0x0, 0x0000001F, 0x00000000, 0x00000000, 0x0000000F⟩,
   ⟨0x40, 10, 0x4, 1, 0x0, 0x00000000, 0x00000000, 0xFFFFFFFF, 0x00000000⟩,
   ⟨0x70, 1, 0x0, 1, 0x0, 0x00000000, 0x00000000, 0x00000000, 0x00000000⟩,
   ⟨0x74, 1, 0x0, 1, 0x0, 0x00000000, 0x00000000, 0xFFFFFFFF, 0x00000000⟩,
   ⟨0x78, 1, 0x0, 1, 0x0, 0x00000000, 0x00000000, 0x00003FFF, 0x00000000⟩]

/-- Rows of Table 14.14 (spec/14_bring_up_and_reset.md). -/
def rowsFUSE : List RegRow :=
  [⟨0x0, 1, 0x0, 1, 0x0, 0x00000000, 0x00000000, 0xC0000000, 0x00000000⟩,
   ⟨0x4, 1, 0x0, 1, 0x0, 0x00000000, 0x00000000, 0xFFFFFFFF, 0x00000000⟩,
   ⟨0x8, 1, 0x0, 1, 0x0, 0x00000000, 0x00000000, 0xFFFFFFFF, 0x00000000⟩,
   ⟨0xC, 1, 0x0, 1, 0x0, 0x00000000, 0x00000000, 0x0001FF03, 0x00000000⟩,
   ⟨0x10, 1, 0x0, 1, 0x0, 0x00000000, 0x00000000, 0x000003FF, 0x00000000⟩,
   ⟨0x14, 1, 0x0, 1, 0x0, 0x000001FF, 0x00000000, 0x00000000, 0x00000000⟩,
   ⟨0x18, 1, 0x0, 1, 0x0, 0x00000000, 0x00000000, 0xFFFFFFFF, 0x00000000⟩,
   ⟨0x1C, 1, 0x0, 1, 0x0, 0xFFFFFFFF, 0x00000000, 0x00000000, 0x00000000⟩,
   ⟨0x20, 1, 0x0, 1, 0x0, 0xFFFFFFFF, 0x00000000, 0x00000000, 0x00000000⟩,
   ⟨0x24, 1, 0x0, 1, 0x0, 0x00000000, 0x00000000, 0x00001FFF, 0x00000000⟩,
   ⟨0x28, 1, 0x0, 1, 0x0, 0x00000FFF, 0x00000000, 0x00000000, 0x00000000⟩,
   ⟨0x2C, 1, 0x0, 1, 0x0, 0x00000000, 0x00000000, 0xFFFFFFFF, 0x00000000⟩]

/-- Rows of Table 15.10 (spec/15_power.md). -/
def rowsPWR : List RegRow :=
  [⟨0x0, 1, 0x0, 1, 0x0, 0x00000000, 0x00000000, 0x00000000, 0x00000000⟩,
   ⟨0x4, 1, 0x0, 1, 0x0, 0x00000000, 0x00000000, 0xE700FFFF, 0x00000000⟩,
   ⟨0x8, 1, 0x0, 1, 0x0, 0x00000000, 0x0000001F, 0x00000000, 0x00000000⟩,
   ⟨0xC, 1, 0x0, 1, 0x0, 0x0000001F, 0x00000000, 0x00000000, 0x0000001E⟩,
   ⟨0x10, 1, 0x0, 1, 0x0, 0x00000003, 0x00000000, 0x8703FFF0, 0x00000000⟩,
   ⟨0x14, 1, 0x0, 1, 0x0, 0x00000003, 0x00000000, 0x8703FFF0, 0x00000000⟩,
   ⟨0x18, 1, 0x0, 1, 0x0, 0x00000303, 0x00000000, 0x00000000, 0x00000303⟩,
   ⟨0x1C, 1, 0x0, 1, 0x0, 0x0000FFFF, 0x00000000, 0x00000000, 0x0000655F⟩,
   ⟨0x20, 1, 0x0, 1, 0x0, 0x00000000, 0x00000000, 0xFFFFFF07, 0x00000000⟩,
   ⟨0x24, 1, 0x0, 1, 0x0, 0x000000FF, 0x00000000, 0x00000000, 0x00000000⟩,
   ⟨0x28, 1, 0x0, 1, 0x0, 0xFFFFFFFF, 0x00000000, 0x00000000, 0x00000000⟩,
   ⟨0x2C, 1, 0x0, 1, 0x0, 0x00000000, 0x00000000, 0x00000000, 0x00000000⟩] ++
  [⟨0x30, 1, 0x0, 1, 0x0, 0x00000000, 0x00000000, 0x000FFFFF, 0x00000000⟩,
   ⟨0x34, 1, 0x0, 1, 0x0, 0x00000000, 0x00000000, 0xFFFF007F, 0x00000000⟩,
   ⟨0x38, 1, 0x0, 1, 0x0, 0xFFFFFFFF, 0x00000000, 0x00000000, 0x00000000⟩,
   ⟨0x40, 3, 0x4, 1, 0x0, 0xFFFFFFFF, 0x00000000, 0x00000000, 0x00000000⟩,
   ⟨0x100, 96, 0x4, 1, 0x0, 0x00000003, 0x00000000, 0xE7000000, 0x00000000⟩,
   ⟨0x300, 96, 0x4, 1, 0x0, 0xFFFFFFFF, 0x00000000, 0x00000000, 0x00000000⟩]

/-- Rows of Table 16.3 (spec/16_control_cluster.md). -/
def rowsIRQ : List RegRow :=
  [⟨0x0, 1, 0x0, 1, 0x0, 0x00000000, 0x00000000, 0x00FFFFFF, 0x00060200⟩,
   ⟨0x4, 1, 0x0, 1, 0x0, 0x00000000, 0x00000003, 0x00000000, 0x00000000⟩,
   ⟨0x100, 16, 0x4, 1, 0x0, 0x00000000, 0x00000000, 0xFFFFFFFF, 0x00000000⟩,
   ⟨0x140, 16, 0x4, 1, 0x0, 0x00000000, 0x00000000, 0xFFFFFFFF, 0x00000000⟩,
   ⟨0x180, 16, 0x4, 1, 0x0, 0x00000000, 0x00000000, 0xFFFFFFFF, 0x00000000⟩,
   ⟨0x1C0, 16, 0x4, 1, 0x0, 0x00000000, 0x00000000, 0xFFFFFFFF, 0xFFFFFFFF⟩,
   ⟨0x200, 16, 0x4, 1, 0x0, 0x00000000, 0x00000000, 0xFFFFFFFF, 0xFFFFFFFF⟩,
   ⟨0x240, 16, 0x4, 1, 0x0, 0x00000000, 0x00000000, 0xFFFFFFFF, 0xFFFFFFFF⟩,
   ⟨0x280, 16, 0x4, 1, 0x0, 0x00000000, 0x00000000, 0xFFFFFFFF, 0x00000000⟩,
   ⟨0x2C0, 16, 0x4, 1, 0x0, 0x00000000, 0x00000000, 0xFFFFFFFF, 0x00000000⟩,
   ⟨0x1000, 512, 0x4, 1, 0x0, 0x003F017F, 0x00000000, 0x00000000, 0x00000000⟩,
   ⟨0x2000, 64, 0x10, 4, 0x4, 0x00000000, 0x00000000, 0xFFFFFFFF, 0x00000000⟩] ++
  [⟨0x3000, 6, 0x100, 1, 0x0, 0x0000000F, 0x00000000, 0x00000000, 0x00000000⟩,
   ⟨0x3004, 6, 0x100, 1, 0x0, 0x00000000, 0x00000000, 0x800F01FF, 0x00000000⟩,
   ⟨0x3008, 6, 0x100, 1, 0x0, 0x00000000, 0x00000000, 0x00000000, 0x00000000⟩,
   ⟨0x300C, 6, 0x100, 1, 0x0, 0x00000000, 0x00000000, 0x80FF01FF, 0x00000000⟩,
   ⟨0x8000, 64, 0x10, 1, 0x0, 0x8FFFFFFF, 0x00000000, 0x00000000, 0x00000000⟩,
   ⟨0x8004, 64, 0x10, 1, 0x0, 0x00000000, 0x00000000, 0x00007FFF, 0x00000000⟩,
   ⟨0x8008, 64, 0x10, 1, 0x0, 0x00007FFF, 0x00000000, 0x00000000, 0x00000000⟩,
   ⟨0x800C, 64, 0x10, 1, 0x0, 0x00000000, 0x00000000, 0x00FF7FFF, 0x00010000⟩,
   ⟨0x8400, 1, 0x0, 1, 0x0, 0xFFFFFFFF, 0x00000000, 0x00000000, 0x00000000⟩,
   ⟨0x8404, 1, 0x0, 1, 0x0, 0xFFFFFFFF, 0x00000000, 0x00000000, 0x00000000⟩,
   ⟨0x8408, 1, 0x0, 1, 0x0, 0xFFFFFFFF, 0x00000000, 0x00000000, 0x00000000⟩,
   ⟨0x840C, 1, 0x0, 1, 0x0, 0xFFFFFFFF, 0x00000000, 0x00000000, 0x00000000⟩]

/-- Rows of Table 16.8 (spec/16_control_cluster.md). -/
def rowsTMR : List RegRow :=
  [⟨0x0, 1, 0x0, 1, 0x0, 0x00000000, 0x00000000, 0xFFFFFFFF, 0x00000000⟩,
   ⟨0x4, 1, 0x0, 1, 0x0, 0x00000000, 0x00000000, 0x0000FFFF, 0x00000000⟩,
   ⟨0x10, 1, 0x0, 1, 0x0, 0x8000FFFF, 0x00000000, 0x00000000, 0x00000000⟩,
   ⟨0x14, 1, 0x0, 1, 0x0, 0x00000000, 0x00000000, 0x00000000, 0x00000000⟩,
   ⟨0x18, 1, 0x0, 1, 0x0, 0x00000000, 0x00000000, 0x0000FFFF, 0x00000000⟩,
   ⟨0x100, 16, 0x10, 1, 0x0, 0x3F00FF00, 0x00000000, 0x80000000, 0x30000000⟩,
   ⟨0x104, 16, 0x10, 1, 0x0, 0xFFFFFFFF, 0x00000000, 0x00000000, 0x00000000⟩,
   ⟨0x108, 16, 0x10, 1, 0x0, 0xFFFFFFFF, 0x00000000, 0x00000000, 0xFFFFFFFF⟩,
   ⟨0x10C, 16, 0x10, 1, 0x0, 0x00000000, 0x00000003, 0x00000000, 0x00000000⟩]

/-- Rows of Table 16.10 (spec/16_control_cluster.md). -/
def rowsREC : List RegRow :=
  [⟨0x0, 1, 0x0, 1, 0x0, 0x800003FE, 0x00000000, 0x00000000, 0x800003FE⟩,
   ⟨0x4, 1, 0x0, 1, 0x0, 0x0000FFFF, 0x00000000, 0x00000000, 0x000003E8⟩,
   ⟨0x8, 1, 0x0, 1, 0x0, 0x00000000, 0x00000000, 0xC0000FFF, 0x00000000⟩,
   ⟨0xC, 1, 0x0, 1, 0x0, 0x00000000, 0x00000000, 0xFFFFFFFF, 0x00000000⟩,
   ⟨0x10, 1, 0x0, 1, 0x0, 0x00000000, 0x00000000, 0xFFFFFFFF, 0x00000000⟩,
   ⟨0x14, 1, 0x0, 1, 0x0, 0x00000000, 0x00000000, 0x00000000, 0x00000000⟩,
   ⟨0x18, 1, 0x0, 1, 0x0, 0x00000000, 0x00000007, 0x00000000, 0x00000000⟩,
   ⟨0x1C, 1, 0x0, 1, 0x0, 0x00000007, 0x00000000, 0x00000000, 0x00000006⟩,
   ⟨0x20, 1, 0x0, 1, 0x0, 0xFFFFFFFF, 0x00000000, 0x00000000, 0x00000000⟩,
   ⟨0x24, 1, 0x0, 1, 0x0, 0xFFFFFFFF, 0x00000000, 0x00000000, 0x00000000⟩,
   ⟨0x80000, 65536, 0x4, 1, 0x0, 0x00000000, 0x00000000, 0xFFFFFFFF, 0x00000000⟩]

/-- Rows of Table 17.10 (spec/17_security.md). -/
def rowsSEC : List RegRow :=
  [⟨0x0, 2, 0x100, 1, 0x0, 0x00000000, 0x00000000, 0x00000000, 0x00000000⟩,
   ⟨0x4, 2, 0x100, 1, 0x0, 0x00000000, 0x00000000, 0xE0FF00FF, 0x00000000⟩,
   ⟨0x8, 2, 0x100, 1, 0x0, 0xFFFFFFC0, 0x00000000, 0x00000000, 0x00000000⟩,
   ⟨0xC, 2, 0x100, 1, 0x0, 0x0000001F, 0x00000000, 0x00000000, 0x00000000⟩,
   ⟨0x10, 2, 0x100, 1, 0x0, 0xFFFFFFFF, 0x00000000, 0x00000000, 0x00000000⟩,
   ⟨0x54, 2, 0x100, 1, 0x0, 0x0000001F, 0x00000000, 0x00000000, 0x00000000⟩,
   ⟨0x14, 8, 0x4, 2, 0x100, 0xFFFFFFFF, 0x00000000, 0x00000000, 0x00000000⟩,
   ⟨0x34, 8, 0x4, 2, 0x100, 0x00000000, 0x00000000, 0xFFFFFFFF, 0x00000000⟩,
   ⟨0x200, 1, 0x0, 1, 0x0, 0x00000000, 0x00000000, 0xEF31C0FF, 0x00000000⟩,
   ⟨0x204, 1, 0x0, 1, 0x0, 0x00000000, 0x00000003, 0x00000000, 0x00000000⟩,
   ⟨0x208, 1, 0x0, 1, 0x0, 0xFFFFFFFF, 0x00000000, 0x00000000, 0x00000000⟩,
   ⟨0x20C, 1, 0x0, 1, 0x0, 0x00000000, 0x00000000, 0xFFFFFFFF, 0x00000000⟩]

/-- Rows of Table 18.8 (spec/18_host_interface.md). -/
def rowsHIF : List RegRow :=
  [⟨0x0, 1, 0x0, 1, 0x0, 0x00000000, 0x00000000, 0xFFFFFFFF, 0x00000000⟩,
   ⟨0x4, 1, 0x0, 1, 0x0, 0x00000000, 0x00000000, 0x000F0707, 0x00000000⟩,
   ⟨0x8, 1, 0x0, 1, 0x0, 0x00000003, 0x00000000, 0x00000000, 0x00000000⟩,
   ⟨0xC, 1, 0x0, 1, 0x0, 0x00000000, 0x0000000F, 0x00000000, 0x00000000⟩,
   ⟨0x10, 1, 0x0, 1, 0x0, 0x0000000F, 0x00000000, 0x00000000, 0x0000000B⟩,
   ⟨0x14, 1, 0x0, 1, 0x0, 0x0000FFFF, 0x00000000, 0x00000000, 0x00000000⟩,
   ⟨0x18, 1, 0x0, 1, 0x0, 0xFFFFFFFF, 0x00000000, 0x00000000, 0x00000000⟩,
   ⟨0x1C, 1, 0x0, 1, 0x0, 0xFFFFFFFF, 0x00000000, 0x00000000, 0x00000000⟩,
   ⟨0x20, 1, 0x0, 1, 0x0, 0x00000000, 0x00000000, 0x00000000, 0x00000000⟩,
   ⟨0x24, 1, 0x0, 1, 0x0, 0x00000000, 0x00000000, 0xE00000FF, 0x00000000⟩,
   ⟨0x28, 1, 0x0, 1, 0x0, 0x00000000, 0x00000000, 0xFFFFFFFF, 0x00000000⟩,
   ⟨0x100, 16, 0x20, 1, 0x0, 0xFFFFFFC0, 0x00000000, 0x00000000, 0x00000000⟩] ++
  [⟨0x104, 16, 0x20, 1, 0x0, 0xFFFFFFFF, 0x00000000, 0x00000000, 0x00000000⟩,
   ⟨0x108, 16, 0x20, 1, 0x0, 0xBF1FFFFF, 0x00000000, 0x00000000, 0x00080000⟩,
   ⟨0x10C, 16, 0x20, 1, 0x0, 0x00000000, 0x00000000, 0x0001FFFF, 0x00000000⟩,
   ⟨0x110, 16, 0x20, 1, 0x0, 0x0001FFFF, 0x00000000, 0x00000000, 0x00000000⟩,
   ⟨0x114, 16, 0x20, 1, 0x0, 0xFFFFFFF8, 0x00000000, 0x00000000, 0x00000000⟩,
   ⟨0x118, 16, 0x20, 1, 0x0, 0xFFFFFFFF, 0x00000000, 0x00000000, 0x00000000⟩,
   ⟨0x11C, 16, 0x20, 1, 0x0, 0xFFFFFFFF, 0x00000000, 0x00000000, 0x00000000⟩,
   ⟨0x400, 32, 0x40, 1, 0x0, 0xBF000000, 0x00000000, 0x00000000, 0x00000000⟩,
   ⟨0x404, 32, 0x40, 1, 0x0, 0x00000000, 0x00000000, 0x000001FF, 0x00000000⟩,
   ⟨0x408, 32, 0x40, 1, 0x0, 0x00000000, 0x00000000, 0x000001FF, 0x00000000⟩,
   ⟨0x40C, 32, 0x40, 1, 0x0, 0x00000000, 0x00000000, 0x00000000, 0x00000000⟩,
   ⟨0x410, 32, 0x40, 1, 0x0, 0xFFFFF000, 0x00000000, 0x00000000, 0x00000000⟩] ++
  [⟨0x414, 32, 0x40, 1, 0x0, 0xFFFFFFFF, 0x00000000, 0x00000000, 0x00000000⟩,
   ⟨0x418, 32, 0x40, 1, 0x0, 0x00000000, 0x00000000, 0x000001FF, 0x00000000⟩,
   ⟨0x420, 32, 0x40, 4, 0x4, 0x00000000, 0x00000000, 0x00000000, 0x00000000⟩]

/-- Rows of Table 19.5 (spec/19_external_memory.md). -/
def rowsMEM : List RegRow :=
  [⟨0x0, 1, 0x0, 1, 0x0, 0x80000000, 0x00000000, 0x00000000, 0x80000000⟩,
   ⟨0x4, 1, 0x0, 1, 0x0, 0x00000000, 0x00000000, 0xC00F00FF, 0x00000000⟩,
   ⟨0x8, 1, 0x0, 1, 0x0, 0xFFFFFFFF, 0x00000000, 0x00000000, 0x00000000⟩,
   ⟨0xC, 1, 0x0, 1, 0x0, 0x800000FF, 0x00000000, 0x00000000, 0x80000018⟩,
   ⟨0x10, 1, 0x0, 1, 0x0, 0x00000000, 0x00000000, 0xFFFFFFFF, 0x00000000⟩,
   ⟨0x100, 16, 0x10, 1, 0x0, 0x001FFFFF, 0x00000000, 0x00000000, 0x00000000⟩,
   ⟨0x104, 16, 0x10, 1, 0x0, 0x003FFFFF, 0x00000000, 0x00000000, 0x00000000⟩,
   ⟨0x108, 16, 0x10, 1, 0x0, 0x80000703, 0x00000000, 0x00000000, 0x00000000⟩,
   ⟨0x1000, 4, 0x1000, 1, 0x0, 0x00000000, 0x00000000, 0xF800007F, 0x00000000⟩,
   ⟨0x1004, 4, 0x1000, 1, 0x0, 0x00000000, 0x0000000F, 0x00000000, 0x00000000⟩,
   ⟨0x1008, 4, 0x1000, 1, 0x0, 0x0000000F, 0x00000000, 0x00000000, 0x0000000E⟩,
   ⟨0x100C, 4, 0x1000, 1, 0x0, 0xFFFFFFFF, 0x00000000, 0x00000000, 0x00000000⟩] ++
  [⟨0x1010, 4, 0x1000, 1, 0x0, 0xFFFFFFFF, 0x00000000, 0x00000000, 0x00000000⟩,
   ⟨0x1014, 4, 0x1000, 1, 0x0, 0xFFFFFFFF, 0x00000000, 0x00000000, 0x00000000⟩,
   ⟨0x1018, 4, 0x1000, 1, 0x0, 0x00000000, 0x00000000, 0xFFFFFFC1, 0x00000000⟩,
   ⟨0x101C, 4, 0x1000, 1, 0x0, 0x00000000, 0x00000000, 0x0000001F, 0x00000000⟩,
   ⟨0x1020, 4, 0x1000, 1, 0x0, 0x00000000, 0x00000000, 0x0000FFFF, 0x00000000⟩,
   ⟨0x1024, 4, 0x1000, 1, 0x0, 0xFFFFFFFF, 0x00000000, 0x00000000, 0x00000000⟩,
   ⟨0x1028, 4, 0x1000, 1, 0x0, 0xFFFFFFFF, 0x00000000, 0x00000000, 0x00000000⟩,
   ⟨0x102C, 4, 0x1000, 1, 0x0, 0xFFFFFFFF, 0x00000000, 0x00000000, 0x00000000⟩]

/-- Rows of Table 21.4 (spec/21_address_map.md). -/
def rowsFLD : List RegRow :=
  [⟨0x0, 1, 0x0, 1, 0x0, 0x00000000, 0x00000000, 0x000000FF, 0x00000000⟩,
   ⟨0x4, 1, 0x0, 1, 0x0, 0x00000000, 0x00000000, 0x0000FFFF, 0x00000000⟩,
   ⟨0x100, 16, 0x4, 1, 0x0, 0x00000000, 0x00000000, 0xFFFFFFFF, 0x00000000⟩,
   ⟨0x140, 1, 0x0, 1, 0x0, 0x00000000, 0x00000000, 0x0000FFFF, 0x00000000⟩,
   ⟨0x144, 1, 0x0, 1, 0x0, 0x00000000, 0x00000000, 0xFFFFFFFF, 0x00000000⟩]

/-- Every register block with the place Table 21.2 or Table 21.3 gives it. -/
def regBlocks : List RegBlock :=
  [⟨0x200000500000, 1, 0x100000, 0x100000, rowsTICK⟩,
   ⟨0x100000080000, 8192, 0x100000, 0x1000, rowsTILE⟩,
   ⟨0x100000081000, 8192, 0x100000, 0x1000, rowsNRN⟩,
   ⟨0x100000082000, 8192, 0x100000, 0x1000, rowsSYN⟩,
   ⟨0x200000A08000, 16, 0x10000, 0x4000, rowsQNT⟩,
   ⟨0x200000A00000, 16, 0x10000, 0x8000, rowsENC⟩,
   ⟨0x200000A0C000, 16, 0x10000, 0x4000, rowsDECS⟩,
   ⟨0x100000088000, 8192, 0x100000, 0x1000, rowsDEC⟩,
   ⟨0x100000083000, 8192, 0x100000, 0x1000, rowsLRN⟩,
   ⟨0x100000084000, 8192, 0x100000, 0x1000, rowsRTR⟩,
   ⟨0x200000D00000, 1, 0x100000, 0x100000, rowsSEAM⟩,
   ⟨0x100000085000, 8192, 0x100000, 0x1000, rowsCHN⟩,
   ⟨0x200000B00000, 8, 0x10000, 0x10000, rowsNLK⟩,
   ⟨0x200000C00000, 1, 0x100000, 0x100000, rowsGW⟩,
   ⟨0x200000600000, 1, 0x100000, 0x100000, rowsCHK⟩,
   ⟨0x100000086000, 8192, 0x100000, 0x1000, rowsCHKT⟩,
   ⟨0x200000700000, 1, 0x8000, 0x8000, rowsIMG⟩,
   ⟨0x200000708000, 1, 0x8000, 0x8000, rowsLIC⟩,
   ⟨0x200000000000, 1, 0x8000, 0x8000, rowsBOOT⟩,
   ⟨0x200000008000, 1, 0x8000, 0x8000, rowsFUSE⟩,
   ⟨0x200000100000, 1, 0x100000, 0x100000, rowsPWR⟩,
   ⟨0x200000200000, 1, 0x100000, 0x100000, rowsIRQ⟩,
   ⟨0x200000300000, 1, 0x100000, 0x100000, rowsTMR⟩,
   ⟨0x200000400000, 1, 0x100000, 0x100000, rowsREC⟩,
   ⟨0x200000E00000, 1, 0x100000, 0x100000, rowsSEC⟩,
   ⟨0x200000800000, 1, 0x40000, 0x40000, rowsHIF⟩,
   ⟨0x200000900000, 1, 0x100000, 0x100000, rowsMEM⟩,
   ⟨0x200001000000, 64, 0x40000, 0x40000, rowsFLD⟩]

/-- Whether a row occupies offset `o`. -/
def rowHas (r : RegRow) (o : Nat) : Bool :=
  (List.range r.n2).any (fun k =>
    let b := r.off + r.s2 * k
    decide (b ≤ o) && (if r.s1 = 0 then decide (o = b) else
      decide ((o - b) % r.s1 = 0) && decide ((o - b) / r.s1 < r.n1)))

/-- The row of a block's table that occupies offset `o`. -/
def findRow (rows : List RegRow) (o : Nat) : Option RegRow := rows.find? (fun r => rowHas r o)

/-- Whether a block's window covers address `a`. -/
def blockHas (b : RegBlock) (a : Nat) : Bool :=
  decide (b.base ≤ a) && decide ((a - b.base) / b.stride < b.units) && decide ((a - b.base) % b.stride < b.size)

/-- The block whose window covers address `a`. -/
def findBlock (a : Nat) : Option RegBlock := regBlocks.find? (fun b => blockHas b a)

/-- The row of the register at device address `a`; `none` where no register stands (R18, R535). -/
def regRow (a : Nat) : Option RegRow :=
  match findBlock a with
  | none => none
  | some b => findRow b.rows ((a - b.base) % b.stride)

end Sys2Proof.Machine
end

