-- ==== Sys2Proof/Syntax.lean ====
section
/-!
DEFINITION. The commands of the Y8400: one constructor per row of spec/opcode_table.json, with the operands the
command carries. A time `now` counts phase units (R63) and an `at_` counts rclk; a `clk` operand is the duration in clk
that the hardware measures for the register the rule names.
-/

namespace Sys2Proof

/-- Who makes a register access: a Bracken core, the power controller, the Thistle core or the host (Table 0.4). -/
inductive Initiator
  | core (k : Fin 4) | power | thistle | host
  deriving DecidableEq, Repr

/-- Where a packet of the mesh ends or starts: a tile's own units, or the I/O-die unit of a tap. -/
inductive Target
  | tile (t : Fin 8192) | tap (k : Fin 96)
  deriving DecidableEq, Repr

/-- The commands, in the order of spec/opcode_table.json. -/
inductive Instr
  /-- REGISTER_WRITE (R20): A write to a register that has no row of its own, acting as its access code gives (RW,
  W1C, W1S, SET, CLR, RWO, counter clear) or being ignored where a rule forbids it. -/
  | registerWrite (who : Initiator) (addr : BitVec 48) (value : DWord) (wide : Bool)
  /-- REGISTER_ACCESS_BAD (R18): A register-space access of wrong size or alignment, or to an unoccupied offset,
  completes without effect and reads zero. -/
  | registerAccessBad (who : Initiator) (addr : BitVec 48) (size : Nat) (write : Bool)
  /-- TICK (R48): A tick boundary of a timebase begins step t, sets TICK_NOW and starts every unit of the job on
  its new step. -/
  | tick (j : Fin 16) (now : Nat)
  /-- QUIESCENCE_STROBE (R59): Every SNAP_INTERVAL rclk the tick controller strobes every unit to latch its clean
  bits and combines them by AND on VC5. -/
  | quiescenceStrobe (now : Nat)
  /-- UPDATE_GO (R70): At the later of quiescence and USTART the timebase opens parity t mod 2, closes the other,
  and every tile begins its update. -/
  | updateGo (j : Fin 16) (now : Nat)
  /-- FORCED_UPDATE_GO (R71): When quiescence has not come by USTART + S the controller forces update go and marks
  the step overrun. -/
  | forcedUpdateGo (j : Fin 16) (now : Nat)
  /-- FREE_TIMEOUT (R75): In free-run mode update go is forced after FREE_MAX without quiescence and
  EVENT.FREE_TIMEOUT is set. -/
  | freeTimeout (j : Fin 16) (now : Nat)
  /-- UPDATE_END (R48): The update phase ends at update go plus UEND − USTART and settle words may run. -/
  | updateEnd (j : Fin 16) (now : Nat)
  /-- FREE_RUN_TICK (R74): In free-run mode the next tick comes once settle is complete and FREE_MIN has passed. -/
  | freeRunTick (j : Fin 16) (now : Nat)
  /-- TB_ENABLE (R65): Setting TICK_TB_CTRL.ENABLE checks the timebase against Table 2.3 and either arms its first
  tick or sets REFUSED. -/
  | tbEnable (j : Fin 16) (value : Word)
  /-- TB_DISABLE (R66): Clearing ENABLE sets STOP_PENDING and lets the running step complete its settle phase. -/
  | tbDisable (j : Fin 16)
  /-- TB_STOP_COMPLETE (R66): After the running step's settle the timebase stops and STOP_PENDING clears. -/
  | tbStopComplete (j : Fin 16)
  /-- SYSREF_EDGE (R67): A SYSREF edge of group 0 is sampled, checked against the prediction, counted for lock and
  for each locked-mode timebase. -/
  | sysrefEdge (at_ : Nat)
  /-- SYSREF_MISS (R68): No edge by prediction plus SYSREF_TOL counts a miss and enters holdover or stops ticks. -/
  | sysrefMiss (at_ : Nat)
  /-- HOLDOVER_EDGE (R68): In holdover an edge is generated from the measured period. -/
  | holdoverEdge (at_ : Nat)
  /-- NOP (R106): Schedule word NOP takes 1 clk. -/
  | nop (t : Fin 8192)
  /-- WAIT_UNTIL (R105): Schedule word WAIT_UNTIL holds the sequencer until OFFSET phase units after its BASE
  moment. -/
  | waitUntil (t : Fin 8192) (now : Nat)
  /-- WAIT_UNTIL_EXPIRE (R105): The time named by a WAIT_UNTIL arrives and the sequencer moves on. -/
  | waitUntilExpire (t : Fin 8192) (now : Nat)
  /-- INTEGRATE (R99): Schedule word INTEGRATE opens the event queue to the synapse engine until the next tick. -/
  | integrate (t : Fin 8192)
  /-- UPDATE (R131): Schedule word UPDATE updates the active neurons of its populations, fires them and queues
  emitted flits. -/
  | update (t : Fin 8192) (clk : Nat)
  /-- EMIT_FLIT (R135): The emission queue sends one flit per clk on VC0 through the Local port. -/
  | emitFlit (t : Fin 8192) (clk : Nat)
  /-- EMIT_MESSAGE (R286): Schedule word EMIT_MESSAGE hands a message to the assembler, which sends its head and
  body flits on VC2. -/
  | emitMessage (t : Fin 8192)
  /-- GATHER_BEGIN (R157): Schedule word GATHER_BEGIN starts a resident or streamed gather of one axon entry. -/
  | gatherBegin (t : Fin 8192)
  /-- GATHER_END (R106): Schedule word GATHER_END waits until the named gather is fully accumulated. -/
  | gatherEnd (t : Fin 8192)
  /-- GATHER_DONE (R158): A gather completes its sums and releases any waiting GATHER_END and the next queued
  gather. -/
  | gatherDone (t : Fin 8192) (clk : Nat)
  /-- DIGEST (R344): Schedule word DIGEST compares the sampled tile's digest with its checker's and reports a
  mismatch. -/
  | digest (t : Fin 8192)
  /-- TRACE_STEP (R225): Schedule word TRACE_STEP decays neuron traces and, in the first such word, axon traces by
  stochastic rounding. -/
  | traceStep (t : Fin 8192)
  /-- MOW (R234): Schedule word MOW in an epoch-end step requantises each learnable row into its alternate slot
  and flips ROW_PTR. -/
  | mow (t : Fin 8192) (n : Nat) (clk : Nat)
  /-- ROTATE_STATE (R106): Schedule word ROTATE_STATE advances TILE_RING.HEAD by 1 mod 3. -/
  | rotateState (t : Fin 8192)
  /-- SAMPLE_CHECK (R344): Schedule word SAMPLE_CHECK closes the mirrored operand stream and waits for the
  checker's digest. -/
  | sampleCheck (t : Fin 8192) (agree : Bool)
  /-- CENSUS (R277): Schedule word CENSUS contributes the tile's sent, delivered and dropped counts to the STEP
  collective. -/
  | census (t : Fin 8192)
  /-- END (R103): Schedule word END ends the step's schedule and idles the sequencer until the next tick. -/
  | endWord (t : Fin 8192) (clk : Nat)
  /-- ILLEGAL_WORD (R108): Fetching an illegal word or a control-store word with an uncorrectable error stops the
  sequencer and fences the tile. -/
  | illegalWord (t : Fin 8192)
  /-- SEQ_EN_SET (R109): Setting TILE_CTRL.SEQ_EN starts the sequencer at the next tick. -/
  | seqEnSet (t : Fin 8192)
  /-- SEQ_EN_CLEAR (R109): Clearing SEQ_EN lets the running step complete and then idles the sequencer. -/
  | seqEnClear (t : Fin 8192)
  /-- FENCE_SET (R102): Setting TILE_CTRL.FENCE stops the sequencer, drops every held event and makes the tile
  report clean. -/
  | fenceSet (t : Fin 8192)
  /-- PEPPER_RELOAD (R111): A write of 1 to PEPPER_RELOAD loads the pepper state from the seed. -/
  | pepperReload (t : Fin 8192)
  /-- PRIME (R126): NRN_CTRL.PRIME sets every UPD and PST bit and clears UNION_LEFT. -/
  | prime (t : Fin 8192)
  /-- SRAM_RET_REQUEST (R92): A write to TILE_SRAM_RET retains or wakes banks, refusing retention of used banks. -/
  | sramRetRequest (t : Fin 8192) (banks : Byte)
  /-- BANK_WAKE_DONE (R94): A bank leaves the waking state 157 rclk after its retention bit is cleared. -/
  | bankWakeDone (t : Fin 8192) (bank : Fin 8)
  /-- EVENT_ARRIVE (R98): An event delivered at the Local port enters the event queue or the spill, or is dropped
  on overflow. -/
  | eventArrive (t : Fin 8192)
  /-- SCATTER_EVENT (R149): The synapse engine takes an event, resolves its key, fetches or reuses its row and
  accumulates weighted terms into target neurons. -/
  | scatterEvent (t : Fin 8192) (n : Nat)
  /-- GATHER_INPUT (R156): A gather input writes its value into the parity bank of the gather input buffer. -/
  | gatherInput (t : Fin 8192)
  /-- STREAM_REPLY (R163): A streamed weight or scale reply packet is queued by its sequence number or discarded,
  and pairing is applied. -/
  | streamReply (t : Fin 8192)
  /-- PARTNER_WAIT_EXPIRE (R164): A row-2 partner wait that sees no block within 64 clk ends in scale slip cause
  2. -/
  | partnerWaitExpire (t : Fin 8192)
  /-- CB_LOAD (R148): SYN_CTRL.CB_LOAD copies codebooks into the codebook file while SEQ_EN is 0. -/
  | cbLoad (t : Fin 8192)
  /-- CB_LOAD_DONE (R148): The codebook copy completes and CB_VALID is set. -/
  | cbLoadDone (t : Fin 8192)
  /-- LEARN_INCREMENT (R224): The learning unit applies one queued axon trace increment. -/
  | learnIncrement (t : Fin 8192)
  /-- FEEDBACK_EVENT (R228): The learning unit resolves a KIND 6 feedback event and adds to the deltas of every
  block it reaches. -/
  | feedbackEvent (t : Fin 8192)
  /-- LABEL_PUSH (R230): A write of LRN_LABEL_PUSH queues a label or drops it when the queue is full or the class
  is out of range. -/
  | labelPush (t : Fin 8192) (value : Word)
  /-- CKPT_ACK (R240): A write of 1 to LRN_CTRL.CKPT_ACK clears CKPT_DUE. -/
  | ckptAck (t : Fin 8192)
  /-- MOW_COUNT_SET (R242): A write of LRN_MOW_COUNT_SET loads LRN_MOW_COUNT while SEQ_EN is 0. -/
  | mowCountSet (t : Fin 8192) (value : Word)
  /-- FLIT_RX (R251): A router receives a flit, checks CHECK and sideband, routes it and forwards it, drops it or
  delivers it. -/
  | flitRx (t : Fin 8192) (port : Fin 6) (vc : Fin 6)
  /-- CREDIT_RETURN (R254): A returned credit increments the sender's count for that VC. -/
  | creditReturn (t : Fin 8192) (port : Fin 6) (vc : Fin 6)
  /-- ROUTER_WATCHDOG (R264): A head flit waiting LIMIT clk without credit fences the output, prunes its flits and
  reports a replay. -/
  | routerWatchdog (t : Fin 8192) (port : Fin 6) (vc : Fin 6) (waited : Nat)
  /-- OUT_FENCE_CLEAR (R265): Clearing an OUT_FENCE bit sets the port's credits to 4 and clears its WDOG_FENCE
  bit. -/
  | outFenceClear (t : Fin 8192) (port : Fin 6)
  /-- ROUTE_TABLE_WRITE (R269): A write to an RTR_XT or RTR_YT word is applied or discarded with TBL_BUSY while
  flits of that slot are held. -/
  | routeTableWrite (t : Fin 8192) (off : BitVec 12) (value : Word)
  /-- INJ_STOP (R271): Setting RTR_CTRL.INJ_STOP stops the router taking new VC0 to VC2 packets from Local and
  Tap. -/
  | injStop (t : Fin 8192)
  /-- MGMT_READ (R543): A management request OP 0 reads LEN bytes and replies, or replies STATUS 3 if malformed. -/
  | mgmtRead (target : Target)
  /-- MGMT_WRITE (R90): A management request OP 1 writes LEN bytes through the DMA port and replies. -/
  | mgmtWrite (target : Target)
  /-- MGMT_OP_RESERVED (R543): A request with OP 3 to 15 gets reply STATUS 3. -/
  | mgmtOpReserved (target : Target)
  /-- MGMT_REPLY (R249): A reply packet arrives at its requester with STATUS and TAG. -/
  | mgmtReply (target : Target)
  /-- SEAM_EPOCH_SWITCH (R268): A write of SEAM_EPOCH_SWITCH arms a timebase's epoch change at step T, or applies
  it at once on a disabled timebase. -/
  | seamEpochSwitch (value : Word)
  /-- DRAIN_GO (R270): SEAM_DRAIN_CTRL.GO sends a drain strobe and starts the DRAIN collective for an epoch. -/
  | drainGo (value : Word)
  /-- DRAIN_DONE (R270): The DRAIN collective returns its sum to SEAM_DRAIN_RESULT and sets DONE. -/
  | drainDone
  /-- COLLECTIVE_RX (R275): A router combines a collective contribution from its tile and children and forwards it
  to its parent. -/
  | collectiveRx (t : Fin 8192)
  /-- STEP_CENSUS_DONE (R280): The STEP census sums reach the integrity block, which adds late drops and checks
  the balance. -/
  | stepCensusDone (j : Fin 16)
  /-- MESSAGE_HEAD (R289): A message head at a tile's Local port takes a staging buffer or waits in the router. -/
  | messageHead (t : Fin 8192) (port : Fin 6)
  /-- MESSAGE_TAIL (R290): When a message's tail arrives the assembler discards it or commits it to its receive
  ring. -/
  | messageTail (t : Fin 8192) (slot : Fin 4)
  /-- RPTR_WRITE (R296): A reader's write of CHN_RX_n_RPTR advances the read pointer or is ignored with RPTR_BAD. -/
  | rptrWrite (t : Fin 8192) (n : Fin 64) (value : Word)
  /-- RING_OPEN (R297): Setting OPEN resets the ring's pointers and sequence. -/
  | ringOpen (t : Fin 8192) (n : Fin 64) (value : Word)
  /-- RING_CLOSE (R297): Clearing OPEN lets a begun commit finish and discards later messages. -/
  | ringClose (t : Fin 8192) (n : Fin 64)
  /-- COLUMN_LOAD (R301): A column-span half-block packet is taken into region 3 if in the tile's rows and updates
  the bitmap and CRC. -/
  | columnLoad (t : Fin 8192) (busy : Bool)
  /-- TILE_LOAD (R304): A unicast half-block packet is taken by one tile like a COLUMN_LOAD. -/
  | tileLoad (t : Fin 8192) (busy : Bool)
  /-- BC_CLEAR (R301): CHN_BC_CTRL.CLEAR clears the bitmap, accumulator and COMPLETE. -/
  | bcClear (t : Fin 8192)
  /-- LOAD_CENSUS (R303): The LOAD collective sums complete tiles per field. -/
  | loadCensus
  /-- ECHO (R405): A maintenance ECHO makes the tile return its body as ECHO_REPLY. -/
  | echo (t : Fin 8192)
  /-- ECHO_REPLY (R405): An ECHO_REPLY is delivered at Local or at Tap. -/
  | echoReply (target : Target)
  /-- LINK_EN_SET (R194): Setting ENC_CTRL.LINK_EN makes the port acquire sync header lock, multiblock lock and
  LEMC alignment. -/
  | linkEnSet (p : Fin 16)
  /-- DATA_PHASE (R194): All lanes hold both locks with LEMC aligned and the link enters data phase. -/
  | dataPhase (p : Fin 16) (skew : Bool) (now : Nat)
  /-- MULTIBLOCK_RX (R195): A multiblock is released with its CRC-12 checked and counted on failure. -/
  | multiblockRx (p : Fin 16) (now : Nat) (samples : List (BitVec 16)) (bad : Bool)
  /-- LANE_LOCK_LOSS (R195): A lane losing lock drops the link out of data phase and reacquires it. -/
  | laneLockLoss (p : Fin 16) (lane : Fin 4) (now : Nat)
  /-- PORT_SYSREF_EDGE (R195): A port SYSREF edge off the LEMC boundary in data phase sets SYSREF_MISALIGN. -/
  | portSysrefEdge (p : Fin 16) (aligned : Bool)
  /-- ENC_RUN_SET (R199): Setting RUN arms the encoder or refuses the start. -/
  | encRunSet (p : Fin 16)
  /-- ENC_RUN_CLEAR (R199): Clearing RUN disarms or stops the encoder according to its state. -/
  | encRunClear (p : Fin 16)
  /-- ENCODER_INJECT (R209): A tap injects one of the encoder's flits on VC0 when it holds a credit. -/
  | encoderInject (p : Fin 16) (tap : Fin 2) (now : Nat)
  /-- INJ_DEADLINE (R210): Injection incomplete at ENC_INJ_DEADLINE sets INJ_LATE. -/
  | injDeadline (p : Fin 16)
  /-- ENCODER_REPLAY (R211): A replay request re-injects a held interval or reports HOLD_MISS. -/
  | encoderReplay (p : Fin 16)
  /-- ENC_ROUTE_WRITE (R207): A write to a route entry of the set not in force is taken, one to the set in force
  ignored. -/
  | encRouteWrite (p : Fin 16) (set : Fin 2) (n : Fin 32) (word : Fin 4) (value : Word)
  /-- QNT_FREEZE (R187): A write of QNT_CFG.FREEZE holds or releases the group scales from the next tick. -/
  | qntFreeze (p : Fin 16) (hold : Bool)
  /-- DEC_CLEAR (R215): DEC_CTRL.CLEAR zeroes the count ring, clears AGE_FULL and restarts the window. -/
  | decClear (t : Fin 8192)
  /-- RESULT_MESSAGE (R217): A message for the result engine is checked and completed into a result record for its
  stream, or discarded. -/
  | resultMessage (k : Fin 8)
  /-- RESULT_RELEASE (R349): The result engine releases a stream's record, confirmed at update go of the next step
  or early on arrival. -/
  | resultRelease (p : Fin 16)
  /-- RESULT_RING_WRITE (R489): A result record is written to its ring slot, held while no room, or dropped when
  the hold overflows. -/
  | resultRingWrite (p : Fin 16)
  /-- RR_RPTR_WRITE (R489): The host writes HIF_RR_p_RPTR, ignored with RPTR_BAD if beyond WPTR. -/
  | rrRptrWrite (p : Fin 16) (value : Word)
  /-- NLK_EN_SET (R317): Setting NLK_CTRL.EN starts training of an optical link. -/
  | nlkEnSet (e : Fin 8)
  /-- LINK_TRAINED (R317): Training completes and the link enters handshake. -/
  | linkTrained (e : Fin 8) (lanes : Byte)
  /-- HELLO (R317): A HELLO control frame is received and the engine answers with HELLO_ACK after checking its
  peer. -/
  | hello (e : Fin 8) (frame : BitVec 256)
  /-- HELLO_ACK (R317): A HELLO_ACK sets credits from the peer's FREE, resends frames and sends READY. -/
  | helloAck (e : Fin 8) (frame : BitVec 256) (rtt : Nat)
  /-- READY (R317): The link enters up. -/
  | ready (e : Fin 8)
  /-- RETRAIN (R317): A write of NLK_CTRL.RETRAIN starts a retrain keeping the retry buffer. -/
  | retrain (e : Fin 8)
  /-- RETRAIN_FAIL (R317): A retrain not reaching up within 2 ms sets FAILED and discards the retry buffer. -/
  | retrainFail (e : Fin 8)
  /-- TRAIN_RETRY (R317): A failed link retries training once a second while EN is 1. -/
  | trainRetry (e : Fin 8)
  /-- LINK_FRAME_RX (R315): A frame is received, checked by CRC and SEQ, and its data, ACK and credits taken. -/
  | linkFrameRx (e : Fin 8) (frame : BitVec 256)
  /-- RETRY_REQUEST (R315): A retry request makes the sender resend every unacknowledged frame. -/
  | retryRequest (e : Fin 8) (frame : BitVec 256) (recent : Nat)
  /-- RETRY_TIMEOUT (R315): The oldest unacknowledged frame waiting RETRY_TO resends all unacknowledged frames. -/
  | retryTimeout (e : Fin 8) (recent : Nat)
  /-- NLK_CREDIT_WDOG (R318): A head flit waiting NLK_WDOG without credit sets WDOG and retrains. -/
  | nlkCreditWdog (e : Fin 8) (v : Fin 10)
  /-- OUTBOUND_EVENT (R321): An event at a gateway tap is looked up in the outbound table and sent as a fabric
  event flit. -/
  | outboundEvent (k : Fin 96)
  /-- FABRIC_TRANSIT (R313): A packet passing through the device crosses the fabric switch or transit lanes to the
  engine of its lane. -/
  | fabricTransit (e : Fin 8) (v : Fin 10)
  /-- INBOUND_EVENT (R324): An inbound fabric event reads the key table and is dropped or injected on VC1 through
  the named tap. -/
  | inboundEvent (e : Fin 8) (v : Fin 10)
  /-- FENCE_MARK (R326): A FENCE mark arriving on the other lane releases its held fenced flit. -/
  | fenceMark (e : Fin 8) (v : Fin 10)
  /-- END_MARK (R334): An END mark is counted and forwarded, and fabric quiescence is reached once all marks are
  held. -/
  | endMark (e : Fin 8) (v : Fin 10) (now : Nat)
  /-- BARRIER (R74): A BARRIER collective reduces to the root and broadcasts to let the next free-run tick come. -/
  | barrier (job : Fin 16)
  /-- ALIGN_START (R79): An ALIGN_START collective gives every device the start tick number and the edge count for
  enabling. -/
  | alignStart (job : Fin 16)
  /-- ALIGN_CHECK (R80): An alignment check compares the root's tick number with TICK_NOW and fails the job on
  mismatch. -/
  | alignCheck (job : Fin 16)
  /-- FABRIC_CENSUS (R330): The CENSUS collective sums fabric sent, received and dropped and reports an imbalance. -/
  | fabricCensus (job : Fin 16)
  /-- EPOCH_SWITCH (R335): An EPOCH_SWITCH collective arms the timebase's epoch switch on every device. -/
  | epochSwitch (job : Fin 16)
  /-- REWIND (R352): A rewind of step f reopens parity, restores ring, pepper and epoch position, empties queues
  and starts the replay. -/
  | rewind (job : Fin 16)
  /-- REWIND_COLLECTIVE (R337): A REWIND collective is forwarded toward the root and broadcast once per step to
  every device. -/
  | rewindCollective (job : Fin 16)
  /-- REWIND_ACK_ROUND (R356): The ITEM 1 REWIND round returns and gateways resend. -/
  | rewindAckRound (job : Fin 16)
  /-- FABRIC_DRAIN (R336): A DRAIN collective sums the flits of an epoch across the job. -/
  | fabricDrain (job : Fin 16)
  /-- COLL_TIMEOUT (R333): A reduce incomplete GW_COLL_TO µs after its start sets COLL_TIMEOUT. -/
  | collTimeout (job : Fin 16)
  /-- GW_CMD_ALIGN_START (R79): GW_JOB_j_CMD ALIGN_START on the root starts the ALIGN_START collective. -/
  | gwCmdAlignStart (job : Fin 16) (value : Word)
  /-- GW_CMD_EPOCH_SWITCH (R335): GW_JOB_j_CMD EPOCH_SWITCH on the root starts the EPOCH_SWITCH collective. -/
  | gwCmdEpochSwitch (job : Fin 16) (value : Word)
  /-- GW_CMD_DRAIN (R336): GW_JOB_j_CMD DRAIN on the root starts the DRAIN collective. -/
  | gwCmdDrain (job : Fin 16) (value : Word)
  /-- GW_TABLE_COMMIT (R339): A write of a table's DATA_HI commits the entry and increments INDEX. -/
  | gwTableCommit (out : Bool) (value : Word)
  /-- GW_TABLE_READ (R339): A read of DATA_LO latches the entry and a read of DATA_HI returns it and increments
  INDEX. -/
  | gwTableRead (out : Bool) (high : Bool)
  /-- FAIL_REPORT (R346): A unit reports a cause of step failure to the integrity block. -/
  | failReport
  /-- REPLAY_END_STEP (R354): The replay reaches END on every tile and step f + 1 begins or the job restarts. -/
  | replayEndStep (job : Fin 16) (now : Nat)
  /-- RESUME_WRITE (R359): A write of CHK_JOB_j_RESUME arms the resume at step q or is ignored. -/
  | resumeWrite (job : Fin 16) (value : Word)
  /-- VERIFY (R368): IMG_CMD VERIFY locks the staging range and starts the Thistle core's checks. -/
  | verify
  /-- VERIFY_DONE (R368): Verification ends with STATE 2 or STATE 3 and a code, and sets SEC_EVENT.IMG_DONE. -/
  | verifyDone
  /-- RELEASE (R368): IMG_CMD RELEASE in STATE 2 releases the lock and sets STATE 0. -/
  | release
  /-- ABORT (R387): IMG_CMD ABORT stops verification with code 0x21 or releases the lock. -/
  | abort
  /-- LIC_GO (R390): LIC_CMD.GO starts verification of a licence record. -/
  | licGo
  /-- LIC_DONE (R5): Licence verification accepts and merges the record or rejects it with a reason. -/
  | licDone
  /-- POWER_ON (R391): PWR_GOOD rising begins the cold start. -/
  | powerOn (strap : Bool)
  /-- START_STAGE_DONE (R391): A start stage completes and the next stage begins, or the start fails with its
  cause. -/
  | startStageDone (ms : Nat) (cause : Nat) (defects : List Word)
  /-- START_FAIL (R406): A failed start counts the failure, writes flash and holds before retrying or enters
  fallow mode. -/
  | startFail (cause : Nat)
  /-- START_HOLD_EXPIRE (R406): After HOLD seconds the power controller begins the next cold start. -/
  | startHoldExpire
  /-- START_TIME_LIMIT (R406): READY not written within 600 s or 5 s fails the start with cause 0x07. -/
  | startTimeLimit
  /-- BOOT_WDOG_EXPIRE (R407): A bring-up watchdog period without a kick fails the start with cause 0x07. -/
  | bootWdogExpire
  /-- BOOT_WDOG_KICK (R407): A write of BOOT_WDOG_KICK restarts the bring-up watchdog period. -/
  | bootWdogKick
  /-- BOOT_READY (R395): BOOT_CMD READY after stage 9 completes the start and clears the failure count. -/
  | bootReady (ms : Nat)
  /-- BOOT_WARM (R411): BOOT_CMD WARM performs a device warm reset and warm start. -/
  | bootWarm
  /-- BOOT_COLD (R411): BOOT_CMD COLD performs a cold reset and cold start. -/
  | bootCold
  /-- RESET_N_LOW (R411): RESET_N held low for 1 µs resets the switched domains and the warm start begins at its
  rising edge. -/
  | resetNLow
  /-- PWR_GOOD_FALL (R523): PWR_GOOD falling, or VAON dropping below 0.72 V for 1 µs, is a cold reset. -/
  | pwrGoodFall
  /-- PERST_N (R493): PERST_N resets the PCI Express port and host interface and retrains the link. -/
  | perstN
  /-- RST_TILE (R412): BOOT_RST_TILE resets one tile or is refused. -/
  | rstTile (value : Word)
  /-- RST_FIELD (R412): BOOT_RST_FIELD resets one field or is refused. -/
  | rstField (value : Word)
  /-- RST_DIE (R414): BOOT_RST_DIE resets the compute die and stops every job. -/
  | rstDie (value : Word)
  /-- RST_CC (R448): BOOT_RST_CC resets the control cluster and restarts the Thistle core. -/
  | rstCc (value : Word)
  /-- RESET_DONE (R413): A tile or field reset completes and bad tiles are fenced in the next rclk. -/
  | resetDone
  /-- FP_COMMIT (R403): BOOT_FP_CTRL.COMMIT publishes a new floor plan revision or is refused. -/
  | fpCommit
  /-- DOMAIN_REQUEST (R421): A write of PWR_DOM_d.REQ asks for a domain state, carried out or refused. -/
  | domainRequest (d : Fin 96) (value : Word)
  /-- DOMAIN_ENTRY_DONE (R423): A domain completes its entry to RET or OFF. -/
  | domainEntryDone (d : Fin 96)
  /-- DOMAIN_WAKE_DONE (R425): A domain completes its wake to ON and holds its pads. -/
  | domainWakeDone (d : Fin 96)
  /-- PAD_RELEASE (R424): A write of PWR_PAD_RELEASE releases the latched pads of ON domains. -/
  | padRelease (value : Word)
  /-- POINT_REQUEST (R431): A write of PWR_HALF_W or PWR_HALF_E.REQ asks for an operating point, carried out or
  refused. -/
  | pointRequest (east : Bool) (value : Word)
  /-- POINT_STEP_DONE (R431): A one-code voltage ramp and clock switch of a half completes. -/
  | pointStepDone (east : Bool)
  /-- FLOOR_WRITE (R432): A write of PWR_FLOOR sets the clock floor and raises the half to it or refuses with id
  3. -/
  | floorWrite (value : Word)
  /-- DEV_RUN (R428): PWR_DEV_CMD RUN wakes the device domains and resumes the timebases. -/
  | devRun
  /-- DEV_HOLD (R428): PWR_DEV_CMD HOLD stops the timebases and retains the fields. -/
  | devHold (value : Word)
  /-- DEV_DEEP (R428): PWR_DEV_CMD DEEP stops the timebases and retains fields, seam and controllers. -/
  | devDeep (value : Word)
  /-- DEV_STATE_DONE (R428): A device-state change completes and WAKE_DONE is set. -/
  | devStateDone
  /-- THERMAL_SAMPLE (R433): Every 100 µs the hottest sensor of each half is compared with THROTTLE, EMERGENCY and
  the trip levels. -/
  | thermalSample (west : Int) (east : Int) (io : Int)
  /-- THERMAL_STEP (R433): While a lowering threshold holds the half is lowered one code every 1 ms. -/
  | thermalStep (east : Bool)
  /-- THERMAL_DIE_RESET (R433): 104 °C for 10 ms at code 3 resets the compute die. -/
  | thermalDieReset
  /-- SYS_CLK_LOSS (R525): SYS_CLK lost or off frequency for 2 µs switches rclk to the internal oscillator and
  removes switched supplies. -/
  | sysClkLoss
  /-- SYS_CLK_RESTORED (R525): SYS_CLK good for 10 ms begins a warm start. -/
  | sysClkRestored
  /-- RUNTIME_WDOG_EXPIRE (R438): A runtime watchdog period without a kick causes a control-cluster reset. -/
  | runtimeWdogExpire
  /-- RUNTIME_WDOG_KICK (R438): A write of TMR_WDOG_KICK restarts the runtime watchdog period. -/
  | runtimeWdogKick
  /-- IRQ_LINE (R442): A source line's assertion or rising edge sets its pending bit. -/
  | irqLine (src : Fin 512)
  /-- IRQ_CLAIM (R444): A read of IRQ_T_k_CLAIM returns and claims the highest-priority deliverable source. -/
  | irqClaim (k : Fin 6)
  /-- IRQ_DONE (R444): A write of IRQ_T_k_DONE ends a source's service or sets BAD_DONE. -/
  | irqDone (k : Fin 6) (value : Word)
  /-- IRQ_PEND_SET (R442): A write of IRQ_PEND_SET_w sets pending bits. -/
  | irqPendSet (w : Fin 16) (value : Word)
  /-- IRQ_PEND_CLR (R442): A write of IRQ_PEND_CLR_w clears pending bits. -/
  | irqPendClr (w : Fin 16) (value : Word)
  /-- IRQ_MASK_SET (R443): A write of IRQ_MASK_SET_w masks sources. -/
  | irqMaskSet (w : Fin 16) (value : Word)
  /-- IRQ_MASK_CLR (R443): A write of IRQ_MASK_CLR_w unmasks sources. -/
  | irqMaskClr (w : Fin 16) (value : Word)
  /-- IRQ_SRC_WRITE (R441): A write of IRQ_SRC_s configures a source or is denied for target 4. -/
  | irqSrcWrite (who : Initiator) (n : Fin 512) (value : Word)
  /-- MSIX_REQUEST (R484): An MSI-X message is sent for a vector or held pending while masked. -/
  | msixRequest (v : Fin 64)
  /-- CLUSTER_MESSAGE (R449): A message at a control tap with RESULT 0 commits to a cluster receive ring. -/
  | clusterMessage (k : Fin 8)
  /-- TIMER_COUNT (R451): A count event of an enabled timer increments COUNT and applies overflow and match
  actions. -/
  | timerCount (n : Fin 16)
  /-- TIMER_COUNT_READ (R454): A read of TMR_n_COUNT latches the next chained timer into the reader's TMR_SNAP. -/
  | timerCountRead (who : Initiator) (n : Fin 16)
  /-- TIMER_ENABLE (R453): A write of 1 to TMR_n_CFG.EN starts the timer until a cold reset. -/
  | timerEnable (n : Fin 16) (value : Word)
  /-- RECORDER_INTERVAL (R457): Every REC_PERIOD ms the recorder closes an interval and writes its records. -/
  | recorderInterval
  /-- REC_NOTE (R457): A write of REC_NOTE writes a NOTE record. -/
  | recNote (who : Initiator) (value : Word)
  /-- MIRROR (R459): Every 600 s the recorder copies its ring to flash. -/
  | mirror
  /-- MIRROR_DONE (R459): The flash mirror completes with a MIRROR record or fails with MIRROR_ERR. -/
  | mirrorDone (ok : Bool)
  /-- SEC_GO (R477): A write of SEC_m_CMD with GO queues a Thistle command or is refused. -/
  | secGo (m : Fin 2) (value : Word)
  /-- STATUS (R470): SEC service STATUS returns SEC_INFO. -/
  | secStatus
  /-- SELFTEST (R473): SEC service SELFTEST runs the known-answer tests and enters the error state on failure. -/
  | secSelftest (failed : Word)
  /-- ATTEST (R471): SEC service ATTEST writes a signed quote and the identity certificate. -/
  | secAttest
  /-- FW_UPDATE (R467): SEC service FW_UPDATE checks a firmware package and writes it to the inactive slot. -/
  | secFwUpdate
  /-- KEY_LOAD (R469): SEC service KEY_LOAD unwraps a key record into its key slot. -/
  | secKeyLoad
  /-- KEY_CLEAR (R470): SEC service KEY_CLEAR clears one or all key slots. -/
  | secKeyClear
  /-- REVOKE (R465): SEC service REVOKE blows the revocation fuse of a slot unless it is the last one. -/
  | secRevoke
  /-- DEBUG_UNLOCK (R472): SEC service DEBUG_UNLOCK opens the debug scope of a token until cold reset. -/
  | secDebugUnlock
  /-- ZEROIZE (R476): SEC service ZEROIZE clears keys and DRBG, and with FINAL blows SEED_KILL. -/
  | secZeroize
  /-- CORE_START (R437): SEC service CORE_START starts a Bracken core at a given address. -/
  | secCoreStart
  /-- RANDOM (R470): SEC service RANDOM returns 32 DRBG bytes. -/
  | secRandom
  /-- SEC_UNKNOWN_OP (R470): An unknown OP or wrong mailbox ends with CODE 1. -/
  | secUnknownOp
  /-- COMMAND_POST (R485): A host write of a command slot's SEQ byte posts records in order. -/
  | commandPost (q : Fin 32) (slot : Fin 256) (record : List Byte)
  /-- CQ_TAKE (R486): A write of HIF_CQ_q_TAKE advances HEAD by one. -/
  | cqTake (who : Initiator) (q : Fin 32)
  /-- CQ_COMPLETE (R487): A write of HIF_CQ_q_CPL_DATA word 3 writes the completion entry and may notify. -/
  | cqComplete (who : Initiator) (q : Fin 32) (value : Word)
  /-- CMD_NOP (R486): Host command NOP completes with result 0. -/
  | cmdNop (q : Fin 32)
  /-- IMG_LOAD (R384): Host command IMG_LOAD verifies, checks and applies an image. -/
  | cmdImgLoad (q : Fin 32)
  /-- JOB_STOP (R66): Host command JOB_STOP stops each named job. -/
  | cmdJobStop (q : Fin 32)
  /-- LABEL (R230): Host command LABEL pushes a label to the error tile of a stream's job. -/
  | cmdLabel (q : Fin 32)
  /-- FREEZE (R223): Host command FREEZE sets or clears LRN_CTRL.FREEZE on a job's learning tiles. -/
  | cmdFreeze (q : Fin 32)
  /-- LICENCE (R390): Host command LICENCE loads a licence record. -/
  | cmdLicence (q : Fin 32)
  /-- DEVICE_STATE (R429): Host command DEVICE_STATE writes PWR_DEV_CMD. -/
  | cmdDeviceState (q : Fin 32)
  /-- BAR0_WRITE (R479): A host BAR0 write acts on an allowed register or is denied and counted. -/
  | bar0Write (off : BitVec 26) (value : DWord) (wide : Bool)
  /-- BAR2_ACCESS (R480): A host BAR2 access is split into management or memory requests, or denied. -/
  | bar2Access (off : BitVec 32) (write : Bool) (data : List Byte) (len : Nat)
  /-- APERTURE_BASE_WRITE (R481): A write of HIF_APERTURE_BASE applies to later BAR2 accesses. -/
  | apertureBaseWrite (value : Word)
  /-- FUNCTION_LEVEL_RESET (R493): A function-level reset resets the host interface, disables queues and rings and
  increments HIF_FLR_COUNT. -/
  | functionLevelReset
  /-- RECOVERY_PIECE (R494): A write of HIF_RCV_CTRL.GO in fallow mode hands a recovery piece to the recovery
  runtime. -/
  | recoveryPiece (value : Word)
  /-- MEM_REQUEST (R508): A controller accepts a request from a tap or port, queues it and replies in order. -/
  | memRequest (m : Fin 4)
  /-- STREAM_READ (R506): A management request OP 2 reads a weight or scale block and replies with TAG. -/
  | streamRead (m : Fin 4)
  /-- SCRUB_READ (R500): The scrubber reads and corrects one line in an idle controller cycle. -/
  | scrubRead (m : Fin 4)
  /-- REGION_WRITE (R511): A write of a MEM_REGION register takes effect or is ignored for overlap or a running
  job. -/
  | regionWrite (n : Fin 16) (word : Fin 3) (value : Word)
  /-- I3C_INDEX_WRITE (R528): A one-byte I3C private write sets the read index. -/
  | i3cIndexWrite (index : Byte)
  /-- I3C_READ (R528): An I3C private read returns 4 bytes of the window and advances the index. -/
  | i3cRead
  /-- I3C_IBI (R528): The I3C target raises an in-band interrupt when THROTTLE or DIE_RESET becomes set. -/
  | i3cIbi
  /-- OPTICAL_LANE_LOSES_LOCK (R317): An optical lane of a Nelmond engine loses lock, which starts a retrain that
  keeps the retry buffer and the sequence numbers. -/
  | opticalLaneLosesLock (e : Fin 8) (lane : Fin 8)
  /-- PCIE_LINK_DOWN (R491): The PCI Express link goes down; the result engine holds records and
  HIF_FAULT.LINK_DOWN is set. -/
  | pcieLinkDown
  /-- PCIE_LINK_UP (R491): The PCI Express link returns after being down, and the result engine writes the records
  it held. -/
  | pcieLinkUp (rate : Nat) (width : Nat)
  /-- EMPTY_REPORT_TIMEOUT (R422): A field RET or OFF request whose routers have not all reported EMPTY within 1
  ms is refused with refuser id 1. -/
  | emptyReportTimeout (d : Fin 96)
  /-- INBOUND_PACKET (R319): A prefix flit and a KIND 2, 4, 5 or 7 packet arriving from the fabric for this device
  are injected into the mesh by the inbound gateway. -/
  | inboundPacket (e : Fin 8) (v : Fin 10) (row : Fin 5)
  /-- OUTBOUND_PACKET (R322): A message, request, reply or maintenance packet leaving the device is given its lane
  and a prefix flit and is sent into the fabric by an outbound gateway. -/
  | outboundPacket (k : Fin 96) (dest : BitVec 10)
  /-- MSIX_UNMASK (R484): A host write that clears an MSI-X vector mask or the function mask sends once each
  message left pending while the vector was masked. -/
  | msixUnmask (v : Fin 64) (word : Fin 4) (value : Word) (fnMask : Bool)
  /-- RESULT_RING_ENABLE (R489): A write of HIF_RR_p_CFG.EN sets WPTR and RPTR to 0 and releases held records, or,
  when clearing EN, makes the engine hold later records. -/
  | resultRingEnable (p : Fin 16) (value : Word)
  /-- CONTROLLER_TRAINED (R502): An LPDDR5X controller woken from OFF completes its training and its STATE reads
  ready. -/
  | controllerTrained (m : Fin 4) (restored : Bool)
  deriving DecidableEq, Repr

end Sys2Proof
end

