-- ==== Sys2Proof/Machine/State.lean ====
section
/-!
DEFINITION. The state of the Y8400 as plain data: everything the spec gives the block, and the queue of waiting
commands. `Chip` is the hardware; `State` is the hardware with its queue.

Registers are one sparse file keyed by device address; an address that is not listed holds its reset value
(Machine/RegMap.lean). Memories are sparse byte lists. A unit that is not listed in a keyed store is at its reset value.
-/

namespace Sys2Proof.Machine

/-- The reasons a step can stop with a fault. The spec gives every command of the table an effect, so no meaning
raises one; the type is not empty because the host's interface names a fault. -/
inductive Fault
  /-- Raised by no meaning of this model (safe: nothing stops on it). -/
  | noSuchFault
  deriving DecidableEq, Repr

/-- The reasons a command can be refused. -/
inductive Refusal
  /-- Raised only by an arm of `exec` whose command has no meaning yet (safe: the run stops there). -/
  | notModelled (mnemonic : String)
  deriving DecidableEq, Repr

/-- A flit on a link, with its sideband (R246): `bad` marks a sideband parity error (R252). `epoch` is the EPOCH of its
packet's head, which a body flit does not carry itself (R269, R270). -/
structure Flit where
  data : DWord
  vc : Nat
  head : Bool
  tail : Bool
  poison : Bool
  bad : Bool
  epoch : Nat
  deriving DecidableEq, Repr

/-- A flit in an input buffer, with its order of arrival at the router (Table 9.11) and whether a span's local copy
is already made (R262). -/
structure Held where
  flit : Flit
  stamp : Nat
  copied : Bool
  deriving DecidableEq, Repr

/-- A collective being combined at a router (R275): the ports that have contributed and the combined value. -/
structure Coll where
  got : List Nat
  value : Nat
  deriving DecidableEq, Repr

/-- The router of a tile (R245, R254). `dropping`: the packet at the buffer's head is dropped to its TAIL; `rxDropping`: the
packet being received is (R251); `kept`: the
flits that a fenced input has discarded and whose credits it keeps back (R252). `strobe`: the number latched at a drain
strobe and not yet taken into the collective (R270). `buf`, `path`, `dropping`, `rxDropping`
and `kept` are keyed 8 × input port + VC, `credit` and
`alloc` 8 × output port + VC. `path` holds 0 for no packet in passage, 1 + output port for a plain packet, 8 + output
port for a packet in a span and 15 for one at its span's end; `alloc` holds 0 for a free output VC and 1 + input port
else. `collOut` holds combined collectives that still wait to leave, with their time of waiting and their output port. -/
structure Router where
  buf : Sparse (List Held) := []
  credit : Sparse Nat := []
  path : Sparse Nat := []
  alloc : Sparse Nat := []
  dropping : Sparse Bool := []
  rxDropping : Sparse Bool := []
  kept : Sparse (List Flit) := []
  stamp : Nat := 0
  collIn : List (Nat × DWord) := []
  coll : Sparse Coll := []
  collOut : List (Nat × Nat × DWord) := []
  strobe : Option Nat := none
  deriving DecidableEq, Repr

/-- What the sequencer of a tile is doing (SEQ_STATE of Table 3.12). -/
inductive SeqMode
  | stopped | waitTick | executing | waiting | ended | fault | fenced
  deriving DecidableEq, Repr

/-- The sequencer (R103 to R109). `integrate`: INTEGRATE is in force. `traced`: a TRACE_STEP word has run in this step.
`rotated`: ROTATE_STATE has run. `begun` and `begunBefore`: the schedule started in this step, and in the one before. `replay`: the schedule runs in replay (R352). `sampleClosed`: SAMPLE_CHECK has closed
the stream. `censused`: the tile has given its counts to the step census (R277). -/
structure Seq where
  mode : SeqMode := .stopped
  pc : Nat := 0
  integrate : Bool := false
  traced : Bool := false
  replay : Bool := false
  rotated : Bool := false
  sampleClosed : Bool := false
  censused : Bool := false
  begun : Bool := false
  begunBefore : Bool := false
  deriving DecidableEq, Repr

/-- The event queue with the place of its spill in region 7 (R98), the Local port's arrived events, and the key of
the event just processed (R99). -/
structure Evq where
  arrived : List Flit := []
  queue : List DWord := []
  spillHead : Nat := 0
  spillLen : Nat := 0
  lastKey : Option Nat := none
  deriving DecidableEq, Repr

/-- The neuron engine (R123 to R135). `upd` and `pst` are keyed by slot, `acc` by accumulator bank. `updLeft` holds the
active neurons still to be updated by the UPDATE word in progress, `emitPend` the flits that found the emission queue
full. `activeNow` counts the lines of the running step, `activeLines` shows those of the last step that updated (Table 4.10).
`carryFrom`: when the carry began, phase units; none where a REWIND, whose command bears no time, began it. -/
structure Nrn where
  upd : Sparse (BitVec 1024) := []
  pst : Sparse (BitVec 1024) := []
  acc : Sparse (BitVec 1024) := []
  unionLeft : Nat := 0
  emitq : List DWord := []
  emitPend : List DWord := []
  updLeft : Option (List Nat) := none
  firedNow : Nat := 0
  activeNow : Nat := 0
  activeLines : Nat := 0
  carryLines : Nat := 0
  carryClk : Nat := 0
  carryFrom : Option Nat := some 0
  deriving DecidableEq, Repr

/-- A gather begun and not completed (R157, R159): its entry, the entry's word and the row's header as its fetch read them
(R143, R153), the addresses of a streamed layer's weights and scales (R161), the accumulator bank, whether it streams, the
number of pairs of the whole layer, pairs requested and pairs consumed. -/
structure Gather where
  entry : Nat
  word : Nat
  header : Nat
  wAddr : Nat
  sAddr : Nat
  bank : Nat
  streamed : Bool
  pairs : Nat
  requested : Nat
  consumed : Nat
  deriving DecidableEq, Repr

/-- A streamed block in the stream buffer (R163): its sequence number and its bytes. -/
structure Block where
  seq : Nat
  data : List Byte
  deriving DecidableEq, Repr

/-- A stream request not yet answered completely (R163): its TAG, the bytes asked for, the reply packets received, the
bytes so far, whether the block is spoiled, and whether a packet carried STATUS 1. -/
structure Req where
  tag : Nat
  len : Nat
  got : Nat
  data : List Byte
  spoiled : Bool
  ue : Bool
  deriving DecidableEq, Repr

/-- The row buffer (R152): the axon key it serves, the entry's index and word, and the row's units: header, scales,
codes. -/
structure Row where
  key : Nat
  index : Nat
  entry : Nat
  header : Nat
  scales : List Nat
  codes : List Nat
  deriving DecidableEq, Repr

/-- The synapse engine. `cb` is the codebook file keyed 256 × codebook + entry (R147); `gin` the gather input buffer
keyed 4,096 × bank + position with its written and consumed marks (R156); `wq` and `sq` the queues of arrived weight
and scale blocks; `reqs` the stream requests of the running pass not yet answered (R163). -/
structure Syn where
  cb : Sparse (BitVec 16) := []
  cbLoading : Bool := false
  cbValid : Bool := false
  row : Option Row := none
  gin : Sparse Byte := []
  ginWritten : Sparse Bool := []
  ginUsed : Sparse Bool := []
  run : Option Gather := none
  wait : Option Gather := none
  wq : List Block := []
  sq : List Block := []
  reqs : List Req := []
  /-- The number of the running stream pass (log entry 12). -/
  pass : Nat := 0
  /-- Row 2's partner wait: 1 waits at the weight queue, 2 at the scale queue (R164). -/
  pwait : Nat := 0
  /-- The scatter event in progress: the event, its row and the next target (R153, R155). -/
  fetching : Option (DWord × Row × Nat) := none
  entry : Nat := 0
  deriving DecidableEq, Repr

/-- The learning unit (R224 to R240). An increment is (entry, value, parity), a label (STEP16, class).
`labelled` holds the S16 of recent steps in which a label was applied (R231), `table` the requantisation table, keyed
256 × codebook + entry, with the codebooks it holds in `tableOf` (R234). -/
structure Lrn where
  incs : List (Nat × Nat × Nat) := []
  labels : List (Nat × Nat) := []
  epochPos : Nat := 0
  prevEpochPos : Nat := 0
  epochFresh : Bool := true
  last16 : Nat := 0
  /-- The LAST16 held at a rewind, while learning work is skipped (R238). -/
  skipTo : Option Nat := none
  frozen : Bool := false
  labelled : List Nat := []
  table : Sparse (BitVec 16) := []
  tableOf : List Nat := []
  /-- Entries still to be handled by the MOW word in progress (R234). -/
  mowLeft : Option (List Nat) := none
  heldFb : Bool := false
  deriving DecidableEq, Repr

/-- A message in a staging buffer (R289): its head, the input port it comes by, its body flits so far, whether its TAIL
has arrived, whether any flit carried POISON. -/
structure Staged where
  head : DWord
  port : Nat
  body : List DWord
  done : Bool
  poison : Bool
  deriving DecidableEq, Repr

/-- The message assembler and the broadcast receiver (R286 to R302). Rings' write pointers and next sequence numbers
stand in CHN_RX_n_WPTR and CHN_RX_n_STAT. `dma` collects the flits of packets for the tile's DMA port and maintenance
receiver, keyed 8 × input port + VC. -/
structure Chn where
  staging : List Staged := []
  dma : Sparse (List Flit) := []
  deriving DecidableEq, Repr

/-- The check lane (R341 to R344). -/
structure Chk where
  sampled : Bool := false
  west : Bool := false
  checked : Bool := false
  noServe : Bool := false
  digest : Word := 0#32
  peer : Word := 0#32
  deriving DecidableEq, Repr

/-- The decoder of a tile (R212 to R215): `start` of R213, whether the next step becomes start, the populations updated
in the running step, whether its output is written. -/
structure Dec where
  start : Nat := 0
  fresh : Bool := true
  seen : Nat := 0
  done : Bool := false
  deriving DecidableEq, Repr

/-- One tile beside its router, its memories and its registers. `census` is keyed 4 × parity + item: sent, delivered,
dropped, late (R278). The state of the pepper generator (R111) is 1 at reset, the value that a reload from a zero seed gives
(DESIGN CHOICE, log entry 165). -/
structure Tile where
  seq : Seq := {}
  evq : Evq := {}
  pepper : DWord := 1#64
  nrn : Nrn := {}
  syn : Syn := {}
  lrn : Lrn := {}
  chn : Chn := {}
  chk : Chk := {}
  dec : Dec := {}
  census : Sparse Nat := []
  deriving DecidableEq, Repr

/-- Where in its step a timebase stands (Table 2.1). -/
inductive Phase
  | idle | integrate | update | settle
  deriving DecidableEq, Repr

/-- A timebase of the tick controller beside its registers (R48 to R81). -/
structure Timebase where
  /-- Enabled, first boundary awaited (R65). -/
  armed : Bool := false
  /-- A timer pulse has come since the enable (R65). -/
  pulse : Bool := false
  /-- The time, in phase units, of the tick boundary that is due next (R67). -/
  dueAt : Option Nat := none
  /-- The tick moves to the returned SYSREF grid: it waits for a real edge (R69). -/
  regrid : Bool := false
  /-- SYSREF edges since edge 0 (R67). -/
  edges : Nat := 0
  /-- Edges still to pass before an aligned enable (R79). -/
  alignEdges : Option Nat := none
  /-- The open parity (R54). -/
  parity : Nat := 0
  /-- When the current step's tick came, phase units. -/
  tickAt : Nat := 0
  /-- When the tick that came during a replay stood, phase units (R354). -/
  laterTick : Nat := 0
  phase : Phase := .idle
  /-- Update go and update end of the current step, phase units from its tick. -/
  goAt : Nat := 0
  endAt : Nat := 0
  /-- Quiescence of the closing parity has been found (R59). -/
  quiet : Bool := false
  /-- Fabric quiescence of the closing parity is complete (R61). -/
  fabricQuiet : Bool := false
  /-- The fabric barrier of the running step is complete (R74). -/
  barrier : Bool := false
  /-- The step's census collective is complete (R74). -/
  censusDone : Bool := false
  /-- A stop was asked by HOLD (R81), and the timebase is held. -/
  holdReq : Bool := false
  held : Bool := false
  /-- The armed epoch switch: step T and the new epoch (R268). -/
  switchAt : Option (Nat × Nat) := none
  /-- The step after which a HOLD stops the timebase, when T16 armed one. -/
  holdAt : Option Nat := none
  deriving DecidableEq, Repr

/-- SYSREF tracking of stream port group 0 (R67 to R69), times in rclk. -/
structure Sysref where
  lastEdge : Option Nat := none
  predicted : Option Nat := none
  good : Nat := 0
  /-- SYSREF returned during holdover: the grid moves at the next tick (R69). -/
  returning : Bool := false
  deriving DecidableEq, Repr

/-- A section of an image as it reads in the clear (Table 13.2): TYPE, FLAGS.RELOC, FIELDS, content. -/
structure Section where
  typ : Nat
  reloc : Bool
  fields : Nat
  data : List Byte
  deriving DecidableEq, Repr

/-- An image that the Thistle core has verified: its header and its sections in the clear. -/
structure Image where
  hdr : List Byte := []
  ss : List Section := []
  deriving DecidableEq, Repr

/-- A job as the applied image gives it (R51) with its integrity state (R346 to R361). `causes` and `verdict` are keyed
by step number: causes as bits of Table 12.2; verdict 1 pass, 2 fail, 3 unverified. `marks` is keyed by step number:
bit 0 overrun, 1 scale slip, 2 replayed, 3 gap, 4 confirmed, 5 unverified. -/
structure Job where
  present : Bool := false
  fields : BitVec 64 := 0#64
  tb : Fin 16 := 0
  multi : Bool := false
  compat : Bool := false
  census : Bool := false
  streams : BitVec 16 := 0#16
  /-- The image's minimum tick, phase units (Table 2.3). -/
  minTick : Nat := 0
  /-- The point codes of the image's clock floors, west and east (R378). -/
  floorW : Nat := 3
  floorE : Nat := 3
  /-- The last step whose fabric census balanced (R348). -/
  fabricOk : Option Nat := none
  /-- The step of a rewind that waits to be carried out (R351, R356). -/
  rewindDue : Option Nat := none
  causes : Sparse Nat := []
  verdict : Sparse Nat := []
  marks : Sparse Nat := []
  /-- The step being replayed (R354). -/
  replay : Option Nat := none
  /-- Tick f + 1 came during the replay (R354). -/
  tickInReplay : Bool := false
  /-- replayed_step of R356. -/
  replayed : Option Nat := none
  /-- The mismatches that the first pass of a step reported: step, sampled tile and first checker, in order (R355). -/
  suspects : List (Nat × Nat × Nat) := []
  /-- The replay of this step has reached its END, and its verdict is still to be formed (R354, R355); whether its STEP
  census is still to come. -/
  unjudged : Option (Nat × Bool) := none
  /-- Step and tile of the uncorrectable errors reported in the first pass of the last steps (R359). -/
  ueTiles : List (Nat × Nat) := []
  /-- The tiles that a failure has identified as faulty (R355, R359, R108). -/
  faulty : List Nat := []
  /-- Early release was granted when the job's image was loaded (R7, R349). -/
  early : Bool := false
  /-- The tiles that run a schedule, as the FIELDS section gives them (Table 13.5). -/
  placed : List Nat := []
  /-- The image that placed the job, from which Bracken reloads it (R359), and the address of its relocation copies. -/
  image : Image := {}
  copyBase : Nat := 0
  /-- The step named by an accepted RESUME (R359). -/
  resume : Option Nat := none
  restarting : Bool := false
  /-- A rewound job of several devices awaits its second REWIND round before anything is sent again (R356). -/
  resendDue : Bool := false
  deriving DecidableEq, Repr

/-- A report of a cause of step failure on its way to the integrity block (R346): job, step, cause bit of Table 12.2,
reporting tile and, for a digest mismatch, its checker. -/
structure Report where
  job : Nat
  step : Nat
  cause : Nat
  tile : Nat
  checker : Nat
  deriving DecidableEq, Repr

/-- What a port brought in (R194 to R198): samples released, or the link lost or come up, with its time in phase units.
`kind`: 0 samples, 1 link lost, 2 link up. -/
structure Capture where
  time : Nat
  kind : Nat
  data : List (BitVec 16)
  deriving DecidableEq, Repr

/-- An interval in an encoder's hold (R211): the step that consumes it, and its flits with the tap each names. -/
structure HeldInterval where
  step : Nat
  flits : List (Nat × DWord)
  deriving DecidableEq, Repr

/-- An encoder beside its registers (R196 to R211). `cap` holds what was captured since the last cut, oldest first;
`hist` the samples of the filter bank, newest first, with `hop` samples since the last frame; `prev` and `prevBins` the
predecessors of R201; `ref` and `lvl` the state of R204; `maxima` the history of R184, newest first; `pos` the bytes
read from a replay source; `census` is keyed 4 × parity + item (R278). -/
structure Enc where
  cap : List Capture := []
  downAtStart : Bool := false
  pos : Nat := 0
  hist : List (Int × Int) := []
  hop : Nat := 0
  prev : Int × Int := (0, 0)
  prevBins : List (Int × Int) := []
  ref : Sparse Int := []
  lvl : Sparse Int := []
  pepper : DWord := 1#64
  maxima : List (List Nat) := []
  lastMax : List Nat := []
  scales : List Nat := []
  held : List HeldInterval := []
  live : List (Nat × DWord) := []
  resend : List (Nat × DWord) := []
  asked : List Nat := []
  census : Sparse Nat := []
  deriving DecidableEq, Repr

/-- A result record before its sequence number and flags (Table 7.6). -/
structure Record where
  step : Nat
  wlen : Nat
  cls : Nat
  score : Nat
  ruCls : Nat
  ruScore : Nat
  anomaly : Nat
  deriving DecidableEq, Repr

/-- A stream at the result engine (R216 to R218, R349, R350, R361, R489 to R493). `waiting`: records not yet released;
`out`: released records not yet in the ring; `early`: window step and WLEN of EARLY records not yet confirmed; `gapNext`:
the next record carries GAP; `notified`: the ring's message is out; `dropping`: a function-level reset drops records
until the ring is enabled. -/
structure Stream where
  waiting : List Record := []
  out : List (List Byte) := []
  early : List (Nat × Nat) := []
  gapNext : Bool := false
  notified : Bool := false
  dropping : Bool := false
  deriving DecidableEq, Repr

/-- A command that Bracken has taken (R486, R487): its queue, its 64 bytes, and how far its action is: 0 not begun, 1 begun,
2 complete. `live`: its completion may still be written; a function-level reset takes that away (R493). -/
structure Taken where
  queue : Nat
  record : List Byte
  phase : Nat
  live : Bool
  deriving DecidableEq, Repr

/-- The host side of the host interface beside its registers (R482 to R490). `mem`: host memory as the device has
written it; `table`: the MSI-X table, keyed 4 × entry + word; `pend`: the pending bit array; `fnMask`: the function mask;
`head`, `tail` and `cpl`: records taken, posted and completed of each queue since its enable; `taken`: the commands taken
and not completed, oldest first. -/
structure HostSide where
  mem : List Host.Cell := []
  table : Sparse Word := []
  pend : DWord := 0#64
  fnMask : Bool := false
  head : Sparse Nat := []
  tail : Sparse Nat := []
  cpl : Sparse Nat := []
  taken : List Taken := []
  deriving DecidableEq, Repr

/-- A flit that waits to leave on an engine: its FVC, the flit, the timebase of an event of this device's own
outbound gateway (R322), and the EPOCH of its packet, none for a collective or a mark (R336). -/
structure TxFlit where
  fvc : Nat
  flit : DWord
  tb : Option Nat
  epoch : Option Nat
  deriving DecidableEq, Repr

/-- An optical engine's link beside its registers (R314 to R318). `queue`: the buffers of the switch, the transit lanes and
the outbound gateways toward the engine, one for each FVC, listed together by age; `retry`: unacknowledged frames with
their SEQ and flits; `rx`: the receive buffer of each FVC; `helloDue`: HELLO is sent until one is received; `fwd` and `loc`: whether the flit at the front of an FVC has been forwarded
and copied; `owed`: credits to return; `out`: the frames sent, oldest first. -/
structure Link where
  txSeq : Nat := 0
  retry : List (Nat × List TxFlit) := []
  rxNext : Nat := 0
  nak : Bool := false
  retraining : Bool := false
  readySent : Bool := false
  helloDue : Bool := false
  queue : List TxFlit := []
  rx : Sparse (List DWord) := []
  fwd : Sparse Bool := []
  loc : Sparse Bool := []
  owed : Sparse Nat := []
  out : List (BitVec 256) := []
  deriving DecidableEq, Repr

/-- An event copy in the inbound reassembly (R325, R326): direction, lane, the mesh flit, its tap, its timebase, whether
its fence still holds it, and when it was accepted. -/
structure Inbound where
  no : Nat
  dir : Nat
  lane : Nat
  flit : DWord
  tap : Nat
  tb : Nat
  fenced : Bool
  deriving DecidableEq, Repr

/-- A FENCE mark that has arrived (R326): direction, lane, when it was accepted, and the mark. -/
structure FenceHeld where
  dir : Nat
  lane : Nat
  no : Nat
  mark : DWord
  deriving DecidableEq, Repr

/-- A request from the fabric that has entered the mesh (R319): its source device, its SRC tile and its TAG. -/
structure Asked where
  src : Nat
  tile : Nat
  tag : Nat
  deriving DecidableEq, Repr

/-- A job's fabric state (R332 to R337). `coll`: collectives being reduced, keyed 64 × FCK + 16 × parity + item, with
the directions heard (4 the device itself), and `halves` the dimensions, as bits, in which a contribution came on half 1; `did`: the step (plus 1) of the device's last own contribution, keyed by FCK;
`items`: items of a broadcast, keyed 4 × FCK + item, plus 1; `marks` and `sent`: END marks held and sent, keyed
2 × phase + parity; `seen` and `told`: S16 of REWINDs forwarded and broadcast. -/
structure FabJob where
  coll : Sparse Coll := []
  halves : Sparse Nat := []
  did : Sparse Nat := []
  items : Sparse Nat := []
  marks : Sparse Nat := []
  sent : Sparse Bool := []
  seen : List Nat := []
  told : List Nat := []
  checkDue : Bool := false
  drainDue : Bool := false
  /-- The drain strobes of the device when the DRAIN in progress came to it (R336). -/
  drainFrom : Nat := 0
  ackDue : Option Nat := none
  deriving DecidableEq, Repr

/-- The gateways and the fabric switch beside their registers (R321 to R338). Tables are keyed slot × entries + index;
`ktMark` holds the error marks of the two key table copies, keyed 524,288 × die + entry; `hold` is keyed by engine and
holds (step, timebase, flit); `census` (R278) is keyed 8 × timebase + 4 × parity + item, `fab` (R330) the same with items
sent, received and dropped; `fmarks` holds arrived FENCE marks; `stamp` numbers what the reassembly accepts; `asked` holds
requests from the fabric that have not been answered, oldest first. -/
structure Gateway where
  keyTable : Sparse DWord := []
  outTable : Sparse DWord := []
  ktMark : Sparse Nat := []
  ktLatch : DWord := 0#64
  outLatch : DWord := 0#64
  hold : Sparse (List (Nat × Nat × DWord)) := []
  notHeld : List (Nat × Nat) := []
  fenceNo : Sparse Nat := []
  fmarks : List FenceHeld := []
  stamp : Nat := 0
  asked : List Asked := []
  reasm : List Inbound := []
  census : Sparse Nat := []
  fab : Sparse Nat := []
  deriving DecidableEq, Repr

/-- The fuses outside the Thistle core (R2, R398, R417): serial, FUSE_VARIANT and the fused defect entries. Nothing
writes them. -/
structure Fuses where
  serial : DWord := 0#64
  variant : Word := 0x0000FF00#32
  defects : List Word := []
  deriving DecidableEq, Repr

/-- The on-package flash (R398, R402, R406, R416, R459): failure count, history and fallow cause, BOOT_CFG, the field map,
the last floor plan revision with its record, and the recorder's mirror with its newest SEQ. -/
structure Flash where
  failCount : Nat := 0
  hist : Word := 0#32
  fallowCause : Nat := 0
  cfg : Word := 0x00008001#32
  fieldMap : List Word := []
  fpRev : Nat := 0
  fpLast : List Byte := []
  mirror : Sparse Word := []
  mirrorSeq : Nat := 0
  deriving DecidableEq, Repr

/-- A control-store broadcast that runs (R304): the blocks loaded, their bytes, and the repair rounds done. -/
structure Broadcast where
  blocks : Nat
  data : List Byte
  round : Nat
  deriving DecidableEq, Repr

/-- A start beside the BOOT_ registers (R391 to R410): the test map of the running start, whether its stage 9 is complete and
whether a recovery image has been accepted in fallow mode. -/
structure Boot where
  /-- The control-store broadcast that runs (R304). -/
  load : Option Broadcast := none
  testMap : List Word := []
  loaded : Bool := false
  recovered : Bool := false
  /-- The switched domains stay in reset until the supplies return (R525, R526). -/
  inReset : Bool := false
  /-- Period in ms of the bring-up watchdog that runs, 0 for none (R405). -/
  wdogPeriod : Nat := 0
  deriving DecidableEq, Repr

/-- A half at the power controller (R431 to R433): the code a point change goes to, the hottest sensor, and the
thresholds that hold. -/
structure Half where
  goal : Option Nat := none
  hot : Int := 0
  throttled : Bool := false
  emergency : Bool := false
  deriving DecidableEq, Repr

/-- The power controller beside its registers (R419 to R434). `held`: requests held during a transition, 1 + REQ, keyed by
domain; `goal`: the state a domain enters, or the one it wakes from (1 RET, 2 OFF); `waiting`: a field's request that
waits for EMPTY. `devGoal`: the device state being entered; `devRet`: the domains HOLD or DEEP has put in retention; `devEnter` and
`devWake`: the domains the change in progress moves, in the order of R426.
`stripped`: the switched supplies are removed; `tripped`: THERM_TRIP_N is asserted; `clkLost`: SYS_CLK is lost. -/
structure Power where
  held : Sparse Nat := []
  goal : Sparse Nat := []
  waiting : Sparse Nat := []
  west : Half := {}
  east : Half := {}
  ioThrottled : Bool := false
  devGoal : Option Nat := none
  devRet : List Nat := []
  devEnter : List Nat := []
  devWake : List Nat := []
  stripped : Bool := false
  tripped : Bool := false
  clkLost : Bool := false
  deriving DecidableEq, Repr

/-- The event recorder beside its registers (R455 to R459). `last`: SEQ of the last record; `temps`: minimum and maximum
of the west half, the east half and the I/O dies in the interval; `drops`: the counters of the DROPS record at the last
interval's end; `util`: steps, overrun steps, late drops, largest stretch, largest and summed quiescence offset and
largest TILE_END_CLK of the interval, keyed 8 × timebase + item. -/
structure Recorder where
  last : Nat := 0
  temps : List Int := []
  drops : List Nat := []
  util : Sparse Nat := []
  deriving DecidableEq, Repr

/-- A command that waits for the Thistle core (R477): mailbox 0 or 1, 2 for an image, 3 for a licence record; its OP and
SEQ. -/
structure SecJob where
  src : Nat
  op : Nat
  seq : Nat
  deriving DecidableEq, Repr

/-- A source in service (R442, R444): its target, its number, and the PRIO it was claimed with. -/
structure Service where
  target : Nat
  source : Nat
  prio : Nat
  deriving DecidableEq, Repr

/-- What only the Thistle core reaches (R461): the fuses of Table 17.3, the derived keys' presence, the key slots, the
DRBG, the debug scope, the firmware in flash and the grants it keeps. `fw` holds the signed objects, keyed 2 × TYPE + slot;
`active` the active slot of a TYPE; `fresh` whether the inactive slot holds a package that has not taken effect. -/
structure Sec where
  rootHash : Sparse (List Byte) := []
  revoked : Nat := 0
  seed : List Byte := []
  seedKill : Bool := false
  debugLock : Bool := false
  svnMin : Sparse Nat := []
  derived : Bool := false
  keys : Sparse (List Byte) := []
  drbg : Bool := false
  scope : Nat := 0
  fw : Sparse (List Byte) := []
  active : Sparse Nat := []
  fresh : Sparse Bool := []
  grants : Sparse Nat := []
  startImage : List Byte := []
  cert : List Byte := []
  /-- SHA-256 of the header and directory of the last verified image (Table 17.8). -/
  imageHash : List Byte := []
  deriving DecidableEq, Repr

/-- The hardware: everything the spec gives the block but the queue of waiting commands. -/
structure Chip where
  /-- Every register of the register maps, keyed by device address. -/
  regs : Sparse Word := []
  /-- Tile SRAM, synapse stores, LPDDR5X and the other memories of the device address space, keyed by address. -/
  mem : List Host.Cell := []
  /-- Memory words that hold an error, keyed by device address / 8: 1 correctable, 2 uncorrectable (R85, R91). -/
  ecc : Sparse Nat := []
  tiles : Sparse Tile := []
  routers : Sparse Router := []
  /-- Flits on the links, keyed 64 × receiving tile + 8 × input port + VC. -/
  wires : Sparse (List Flit) := []
  /-- Credits on their way back, each the flit that freed it, keyed 64 × sending tile + 8 × output port + VC. -/
  creditWires : Sparse (List Flit) := []
  /-- Flits that have left the mesh at a tap, keyed 8 × tap + VC. -/
  tapIn : Sparse (List Flit) := []
  tbs : Sparse Timebase := []
  sysref : Sysref := {}
  jobs : Sparse Job := []
  /-- The job of each field: 0 none, 1 + job else (R51). -/
  fieldJob : Sparse Nat := []
  /-- Flits that crossed a seam row since the last tick of SEAM_BUDGET.TB, keyed 2 × row + direction (R273). -/
  seamCnt : Sparse Nat := []
  /-- SEAM_ROW_LAST and SEAM_ROW_MAX of every row, keyed by row. -/
  seamLast : Sparse Word := []
  seamMax : Sparse Word := []
  /-- The words of the last LOAD census, items 0 to 15, as they reach the control cluster (R303). -/
  loadCensus : List Nat := []
  /-- The numbers that seam and Tap FIFOs latched at the strobe of the drain in progress (R270). -/
  drain : Option Nat := none
  /-- Drain strobes sent since reset, and the epoch of the last one (R270, R336). -/
  drains : Nat := 0
  drainEpoch : Nat := 0
  /-- Causes of step failure reported and not yet taken by the integrity block (R346). -/
  reports : List Report := []
  /-- What the last read on the register interface returned. The model's own field. -/
  readOut : DWord := 0#64
  /-- STATUS, TAG and data of the last management reply that reached its requester, or of the host's last BAR2 read (STATUS
  1: Completer Abort). The model's own field. -/
  replyOut : Nat × Nat × List Byte := (0, 0, [])
  /-- Memory whose contents are lost (R502, chapter "Power"), keyed by memory unit: 0 kept, 1 + the key of the free
  contents it holds instead. Units 0 to 63 are the fields' memories, 100 + m controller m in interleaved addresses,
  104 + m controller m in linear addresses. -/
  lost : Sparse Nat := []
  /-- Requests queued at memory controller m with the tap they came by (R508). -/
  memQ : Sparse (List (Nat × Flit × List Flit)) := []
  /-- The scrubber's next line of controller m, and its complete passes since the last warm reset (R500). -/
  scrubAt : Sparse Nat := []
  scrubPass : Sparse Nat := []
  /-- The encoders, keyed by port. -/
  encs : Sparse Enc := []
  /-- The streams at the result engine, keyed by port. -/
  streams : Sparse Stream := []
  host : HostSide := {}
  links : Sparse Link := []
  gw : Gateway := {}
  fabJobs : Sparse FabJob := []
  fuses : Fuses := {}
  flash : Flash := {}
  boot : Boot := {}
  power : Power := {}
  recd : Recorder := {}
  /-- The control cluster's shared SRAM (R437), keyed by offset. -/
  shared : List Host.Cell := []
  /-- The line of each source as the controller last saw it (R442). -/
  lineWas : Sparse Bool := []
  /-- Sources for which a message to target 5 has been requested and which have not been claimed since (R446). -/
  asked5 : List Nat := []
  /-- TMR_SNAP of each initiator (R454): 0 to 3 the cores, 4 the power controller, 5 the host, 6 the Thistle core. -/
  snaps : Sparse Word := []
  /-- The Bracken cores, keyed by core: 0 stopped, 1 started from its reset vector, 2 + the address CORE_START gave (R437). -/
  cores : Sparse Nat := []
  /-- Commands that wait for the Thistle core, in order of GO (R477). -/
  secQ : List SecJob := []
  /-- The recovery object assembled in the flash staging area (R494). -/
  staging : List Byte := []
  /-- The I3C read index and the bytes the last I3C read returned (R528); `i3cDue`: an in-band interrupt is due. -/
  i3cIndex : Nat := 0
  i3cOut : Word := 0#32
  i3cDue : Bool := false
  /-- In-band interrupts raised, oldest first, each with its data byte (R528). -/
  i3cSent : List Nat := []
  /-- The image being loaded (R384): 0 none; 1 its load checks have passed and it waits for jobs to stop; 2 it is applied
  and its old route slot still carries traffic. -/
  loading : Nat := 0
  /-- The image that has passed every check and is being applied (R44, R384). -/
  accepted : Option Image := none
  /-- LIC_GRANT_n, keyed by n, as they stood when VERIFY was last written (R371), and as the last image was loaded (R7). -/
  askedGrants : Sparse Word := []
  loadGrants : Sparse Word := []
  /-- How many free values have been taken. The model's own field. -/
  free : Nat := 0
  deriving DecidableEq, Repr

/-- The hardware and the commands that wait for it, first in, first out. -/
structure State where
  chip : Chip
  /-- The sources in service, the latest claim first (R444). -/
  irq : List Service
  /-- The Thistle core's own state (R461). -/
  sec : Sec
  pending : List Instr
  deriving DecidableEq, Repr

/-- The machine at power-on, before the first cold start: every register at its reset value, no unit at work, no
command waiting. -/
def State.reset : State := { chip := {}, irq := [], sec := {}, pending := [] }

end Sys2Proof.Machine
end

