-- ==== Sys2Proof/Machine/Flags.lean ====
section
/-!
DEFINITION. Register access by the hardware: reset values, fields, status flags and event counters (R19 to R23).
-/

namespace Sys2Proof.Machine

/-- Reset value of RTR_TREE at tile `t` (R275): parent port code in [2:0], children in [13:8]. -/
def treeReset (t : Nat) : Nat :=
  let x := tileX t
  let y := tileY t
  let xm := x % 16
  let up := if y < 32 then 2 else if y > 32 then 1 else if xm = 8 then 6 else if xm < 8 then 3 else 4
  let north := b2n (decide (0 < y) && decide (y ≤ 32))
  let south := b2n (decide (32 ≤ y) && decide (y < 63))
  let east := b2n (decide (y = 32) && decide (8 ≤ xm) && decide (xm < 15))
  let west := b2n (decide (y = 32) && decide (0 < xm) && decide (xm ≤ 8))
  up + 256 * (north + 2 * south + 4 * east + 8 * west)

/-- Reset values of TILE_REGION_n (Table 3.14). -/
def regionReset (n : Nat) : Nat :=
  match n with
  | 0 => 0x03000000 | 1 => 0x00800300 | 2 => 0x01000380 | 3 => 0x00800480
  | 4 => 0x00200500 | 5 => 0x01800520 | 6 => 0x010006A0 | _ => 0x006007A0

/-- Reset values that depend on a position or an index, by address; `none` for every other register. -/
def placedReset (a : Nat) : Option Nat :=
  if 0x100000000000 ≤ a ∧ a < 0x100200000000 then
    let t := (a - 0x100000000000) / 0x100000
    let o := a % 0x100000
    if o = 0x8401C then some (treeReset t)
    else if 0x80070 ≤ o ∧ o < 0x80090 ∧ o % 4 = 0 then some (regionReset ((o - 0x80070) / 4))
    else none
  else if 0x200000201000 ≤ a ∧ a < 0x200000201800 ∧ a % 4 = 0 then
    let n := (a - 0x200000201000) / 4
    some (if 100 ≤ n ∧ n < 116 then 0x170 else 0x70)
  else if a = 0x200000708020 then some 0x80000004
  else if a = 0x200000708028 then some 0x80000001
  else if a = 0x200000800000 then some 0x84000000
  else none

/-- The reset value of the register at device address `a` (R21); 0 where no register stands. -/
def regReset (a : Nat) : Word :=
  match placedReset a with
  | some v => BitVec.ofNat 32 v
  | none => match regRow a with
    | some r => BitVec.ofNat 32 r.rst
    | none => 0#32

/-- The stored value of the register at `a`. -/
def reg (c : Chip) (a : Nat) : Word := mapGet regReset c.regs a

/-- The chip with register `a` holding `v`. -/
def setReg (a : Nat) (v : Word) (c : Chip) : Chip := { c with regs := mapPut regReset c.regs a v }

/-- Field [hi:lo] of register `a`. -/
def rfld (c : Chip) (a hi lo : Nat) : Nat := fld (reg c a) hi lo

/-- Bit `i` of register `a`. -/
def rflag (c : Chip) (a i : Nat) : Bool := flag (reg c a) i

/-- Field [hi:lo] of register `a` set to `x`. -/
def setFld (a hi lo x : Nat) (c : Chip) : Chip := setReg a (putFld (reg c a) hi lo x) c

/-- Bit `i` of register `a` set to `b`. -/
def setBit (a i : Nat) (b : Bool) (c : Chip) : Chip := setReg a (putBit (reg c a) i b) c

/-- Bit `i` of a status register raised. -/
def raise (a i : Nat) (c : Chip) : Chip := setBit a i true c

/-- The bits of `m` raised in register `a`. -/
def raiseMask (a : Nat) (m : Word) (c : Chip) : Chip := setReg a (reg c a ||| m) c

/-- Counter `a` advanced by `n`, stopping at its maximum (R23). -/
def count (a n : Nat) (c : Chip) : Chip := setReg a (satAdd (reg c a) n) c

/-- Register `a` set to a number. -/
def putNum (a n : Nat) (c : Chip) : Chip := setReg a (BitVec.ofNat 32 n) c

/-- Register `a` raised to `n` where it was lower: a largest value since cleared. -/
def peak (a n : Nat) (c : Chip) : Chip := if (reg c a).toNat < n then putNum a n c else c

/-- A 64-bit quantity in two registers, low half first (R16). -/
def reg2 (c : Chip) (lo hi : Nat) : Nat := (reg c hi).toNat * 4294967296 + (reg c lo).toNat

/-- Two registers set to a 64-bit quantity. -/
def setReg2 (lo hi n : Nat) (c : Chip) : Chip := c |> putNum lo (n % 4294967296) |> putNum hi (n / 4294967296)

/-- Registers from `lo` up to, not including, `hi` at their reset values (R21). -/
def resetRegs (lo hi : Nat) (c : Chip) : Chip :=
  { c with regs := c.regs.filter (fun p => decide (p.1 < lo) || decide (hi ≤ p.1)) }

/-- A timebase event (Table 2.12) with its bit of TICK_IRQ_STATUS. -/
def tbEvent (j bitNo : Nat) (c : Chip) : Chip := c |> raise (Reg.TICK_TB_EVENT j) bitNo |> raise Reg.TICK_IRQ_STATUS j

/-- A counter of Table 12.6; reaching its nonzero threshold sets its bit of CHK_IRQ_STATUS (R362). -/
def chkCount (n : Nat) (c : Chip) : Chip :=
  let old := (reg c (Reg.CHK_CNT n)).toNat
  let thr := (reg c (Reg.CHK_THR n)).toNat
  let c := count (Reg.CHK_CNT n) 1 c
  if thr ≠ 0 ∧ old + 1 = thr then raise Reg.CHK_IRQ_STATUS n c else c

/-- A job event (Table 12.10) with its bit of CHK_IRQ_STATUS (R362). -/
def jobEvent (j bitNo : Nat) (c : Chip) : Chip :=
  if rflag c (Reg.CHK_JOB_EVENT j) bitNo then c
  else c |> raise (Reg.CHK_JOB_EVENT j) bitNo |> raise Reg.CHK_IRQ_STATUS (16 + j)

end Sys2Proof.Machine
end

