-- ==== Sys2Proof/Machine/Ops.lean ====
section
/-!
DEFINITION. The named operations that the commands share: memory and its error marks, the keyed stores, the tiles and
their regions, timebases and jobs, the census counts, failure reports and the links of the mesh.
-/

namespace Sys2Proof.Machine

/-- A command's outcome: the next state, with the chip it leaves and the queue as it was. -/
def done (s : State) (c : Chip) : Host.Outcome State Fault Refusal := .next { s with chip := c }

/-- `f` applied for every element of a list, in order. -/
def forAll {α : Type} (f : α → Chip → Chip) : List α → Chip → Chip
  | [], c => c
  | x :: xs, c => forAll f xs (f x c)

/-- `f` applied where `b` holds. -/
def when_ (b : Bool) (f : Chip → Chip) (c : Chip) : Chip := if b then f c else c

/-- A free 32-bit value, and the chip with the counter advanced. -/
def takeFree (c : Chip) : Word × Chip := (Config.freeWord c.free, { c with free := c.free + 1 })

/-! ### Memory -/

/-- The memory unit of device address `a`, a field's memory or none (R534). -/
def fieldUnit (a : Nat) : Option Nat :=
  if 0x100000000000 ≤ a ∧ a < 0x100200000000 then some (fieldOf ((a - 0x100000000000) / 0x100000)) else none

/-- Which loss of contents the byte at `a` stands in: 0 for none, 1 + its key else. -/
def lossAt (lost : Sparse Nat) (a : Nat) : Nat :=
  let g (k : Nat) : Nat := mapGet (fun _ => 0) lost k
  if a < 2 ^ 37 then (if g (104 + a / 2 ^ 35) ≠ 0 then g (104 + a / 2 ^ 35) else g (100 + a / 2048 % 4))
  else match fieldUnit a with
    | some f => g f
    | none => 0

/-- What a byte that nothing has written reads as: a free value where the memory has lost its contents; else 0, a
DESIGN CHOICE (log entry 3). -/
def memDefault (lost : Sparse Nat) (a : Nat) : Byte :=
  match lossAt lost a with
  | 0 => 0#8
  | k + 1 => Config.freeByte k a

/-- The byte at device address `a`. -/
def byteAt (c : Chip) (a : Nat) : Byte := mapGet (memDefault c.lost) c.mem a

/-- The canonical form of a memory: addresses strictly rising, no entry equal to what an unlisted address reads as. -/
def Memory.wf (lost : Sparse Nat) (m : List Host.Cell) : Bool := mapWf (memDefault lost) m

/-- The byte at `a` set. -/
def putByte (a : Nat) (b : Byte) (c : Chip) : Chip := { c with mem := mapPut (memDefault c.lost) c.mem a b }

/-- The bytes that satisfy `p` written with what an unlisted byte reads as: their entries leave the list. -/
def eraseMem (p : Nat → Bool) (c : Chip) : Chip :=
  { c with mem := c.mem.filter (fun x => !p x.1), ecc := c.ecc.filter (fun x => !p (8 * x.1)) }

/-- `n` bytes from `a`. -/
def bytesAt (c : Chip) (a n : Nat) : List Byte := (List.range n).map (fun i => byteAt c (a + i))

/-- Bytes written from `a` up. -/
def putBytes (a : Nat) : List Byte → Chip → Chip
  | [], c => c
  | b :: bs, c => putBytes (a + 1) bs (putByte a b c)

/-- The little-endian number of `n` bytes at `a` (R13). -/
def numAt (c : Chip) (a n : Nat) : Nat := ofBytes (bytesAt c a n)

/-- A number written in `n` bytes at `a`, little-endian (R13). -/
def putNumAt (a n x : Nat) (c : Chip) : Chip := putBytes a (toBytes n x) c

/-- The error mark of the memory word that holds address `a`: 0 none, 1 correctable, 2 uncorrectable. -/
def eccAt (c : Chip) (a : Nat) : Nat := mapGet (fun _ => 0) c.ecc (a / 8)

/-- The error marks that a write of `n` bytes at `a` leaves (R90, R91): a word covered completely has new check bits, and so
has one covered in part whose error could be corrected, since it is merged and written whole. -/
def clearEcc (a n : Nat) (c : Chip) : Chip :=
  { c with ecc := c.ecc.filter (fun p =>
      !(decide (a ≤ 8 * p.1) && decide (8 * p.1 + 8 ≤ a + n)) &&
        !(p.2 == 1 && decide (a < 8 * p.1 + 8) && decide (8 * p.1 < a + n))) }

/-- The marked words within `n` bytes from `a`, with their marks. -/
def eccIn (c : Chip) (a n : Nat) : List (Nat × Nat) :=
  c.ecc.filter (fun p => decide (a < 8 * p.1 + 8) && decide (8 * p.1 < a + n))

/-- Whether any word within `n` bytes from `a` is uncorrectable. -/
def hasUe (c : Chip) (a n : Nat) : Bool := (eccIn c a n).any (fun p => p.2 == 2)

/-! ### Keyed stores -/

/-- Tile `t`'s units. -/
def tile (c : Chip) (t : Nat) : Tile := mapGet (fun _ => {}) c.tiles t

/-- Tile `t`'s units changed. -/
def modTile (t : Nat) (f : Tile → Tile) (c : Chip) : Chip :=
  { c with tiles := mapPut (fun _ => {}) c.tiles t (f (tile c t)) }

/-- The router of tile `t`. -/
def router (c : Chip) (t : Nat) : Router := mapGet (fun _ => {}) c.routers t

/-- The router of tile `t` changed. -/
def modRouter (t : Nat) (f : Router → Router) (c : Chip) : Chip :=
  { c with routers := mapPut (fun _ => {}) c.routers t (f (router c t)) }

/-- Timebase `j`. -/
def tbAt (c : Chip) (j : Nat) : Timebase := mapGet (fun _ => {}) c.tbs j

/-- Timebase `j` changed. -/
def modTb (j : Nat) (f : Timebase → Timebase) (c : Chip) : Chip :=
  { c with tbs := mapPut (fun _ => {}) c.tbs j (f (tbAt c j)) }

/-- Job `j`. -/
def jobAt (c : Chip) (j : Nat) : Job := mapGet (fun _ => {}) c.jobs j

/-- Job `j` changed. -/
def modJob (j : Nat) (f : Job → Job) (c : Chip) : Chip :=
  { c with jobs := mapPut (fun _ => {}) c.jobs j (f (jobAt c j)) }

/-- A number kept under a key, 0 where none is listed. -/
def numOf (m : Sparse Nat) (k : Nat) : Nat := mapGet (fun _ => 0) m k

/-- A number set under a key. -/
def setNum (k n : Nat) (m : Sparse Nat) : Sparse Nat := mapPut (fun _ => 0) m k n

/-- A list kept under a key, empty where none is listed. -/
def listOf {α : Type} (m : Sparse (List α)) (k : Nat) : List α := mapGet (fun _ => []) m k

/-- A list set under a key. -/
def setList {α : Type} [DecidableEq α] (k : Nat) (l : List α) (m : Sparse (List α)) : Sparse (List α) :=
  mapPut (fun _ => []) m k l

/-! ### Jobs, timebases and steps -/

/-- The job whose fields hold tile `t` (R51). -/
def jobOfTile (c : Chip) (t : Nat) : Option Nat :=
  match numOf c.fieldJob (fieldOf t) with
  | 0 => none
  | j + 1 => some j

/-- The timebase that serves tile `t` (R51). -/
def tbOfTile (c : Chip) (t : Nat) : Option Nat := (jobOfTile c t).map (fun j => (jobAt c j).tb)

/-- The job of timebase `j` (TICK_TB_CTRL.JOB). -/
def jobOfTb (c : Chip) (j : Nat) : Nat := rfld c (Reg.TICK_TB_CTRL j) 23 20

/-- The fields of job `j`, rising. -/
def jobFields (c : Chip) (j : Nat) : List Nat := setBits 64 (jobAt c j).fields.toNat

/-- The tiles of job `j`'s fields. -/
def jobTiles (c : Chip) (j : Nat) : List Nat := (jobFields c j).flatMap fieldTiles

/-- TICK_NOW of timebase `j` (R77). -/
def tickNow (c : Chip) (j : Nat) : Nat := reg2 c (Reg.TICK_TB_NOW_LO j) (Reg.TICK_TB_NOW_HI j)

/-- TICK_NOW of timebase `j` set, modulo 2^48 (R77). -/
def setTickNow (j n : Nat) (c : Chip) : Chip :=
  setReg2 (Reg.TICK_TB_NOW_LO j) (Reg.TICK_TB_NOW_HI j) (n % 2 ^ 48) c

/-- The step that a 16-bit step name stands for at `now` (R541), as an integer. -/
def step16 (now t16 : Nat) : Int :=
  let d := (t16 + 65536 - now % 65536) % 65536
  if d ≤ 32768 then (now : Int) + d else (now : Int) + d - 65536

/-- The step number after `n`, wrapping at 2^48 (R77). -/
def nextStep (n : Nat) : Nat := (n + 1) % 2 ^ 48

/-- The step number before `n`, wrapping at 2^48. -/
def prevStep (n : Nat) : Nat := (n + 2 ^ 48 - 1) % 2 ^ 48

/-- The step a tile works on: the replayed step while its job replays, TICK_NOW else (R354). -/
def jobStep (c : Chip) (j : Nat) : Nat :=
  match (jobAt c j).replay with
  | some f => f
  | none => tickNow c (jobAt c j).tb

/-- The step tile `t` works on; 0 for a tile of no job. -/
def tileStep (c : Chip) (t : Nat) : Nat := match jobOfTile c t with | some j => jobStep c j | none => 0

/-- The open parity of tile `t`'s timebase (R54). -/
def openParity (c : Chip) (t : Nat) : Nat := match tbOfTile c t with | some j => (tbAt c j).parity | none => 0

/-- The accumulator bank a step's update reads: (t − 1) mod 2 (R130). -/
def readBank (step : Nat) : Nat := (step + 1) % 2

/-- The current route epoch of timebase `j` (R267). -/
def curEpoch (c : Chip) (j : Nat) : Nat := rfld c Reg.SEAM_EPOCH_STATUS j j

/-- The epoch that a source at tile `t` stamps (R267, R271). -/
def tileEpoch (c : Chip) (t : Nat) : Nat :=
  if rflag c (Reg.RTR_EPOCH t) 8 then 0 else match tbOfTile c t with | some j => curEpoch c j | none => 0

/-- The epoch that a source at tap `k` stamps where its timebase or SEAM_MGMT_EPOCH gives `e`: 0 in compatibility mode (R271). -/
def tapEpoch (c : Chip) (k e : Nat) : Nat := if rflag c (Reg.RTR_EPOCH (tapTile k)) 8 then 0 else e

/-- A mark bit added to step `s` of job `j`: 0 overrun, 1 scale slip, 2 replayed, 3 gap, 4 confirmed, 5 unverified. -/
def markStep (j s b : Nat) (c : Chip) : Chip :=
  modJob j (fun J => { J with marks := setNum s ((numOf J.marks s).lor (2 ^ b)) J.marks }) c

/-- Whether step `s` of job `j` carries mark `b`. -/
def stepMarked (c : Chip) (j s b : Nat) : Bool := bit (numOf (jobAt c j).marks s) b

/-- A report of a cause of step failure put on its way to the integrity block (R346), for job `j`. -/
def reportJob (j step cause t checker : Nat) (c : Chip) : Chip :=
  { c with reports := c.reports ++ [{ job := j, step := step, cause := cause, tile := t, checker := checker }] }

/-- A report of a cause by tile `t`, for the step it works on (R346); a tile of no job reports nothing. -/
def reportTile (t cause : Nat) (c : Chip) : Chip :=
  match jobOfTile c t with
  | some j => reportJob j (jobStep c j) cause t t c
  | none => c

/-! ### Tiles -/

/-- Base of tile `t`'s window (R534). -/
def win (t : Nat) : Nat := 0x100000000000 + 0x100000 * t

/-- TILE_CTRL.SEQ_EN. -/
def seqEn (c : Chip) (t : Nat) : Bool := rflag c (Reg.TILE_CTRL t) 0

/-- TILE_CTRL.FENCE. -/
def fenced (c : Chip) (t : Nat) : Bool := rflag c (Reg.TILE_CTRL t) 31

/-- Device address of region `n` of tile `t` (R86). -/
def regionBase (c : Chip) (t n : Nat) : Nat := win t + 64 * rfld c (Reg.TILE_REGION t n) 10 0

/-- Bytes of region `n` of tile `t` (R86). -/
def regionSize (c : Chip) (t n : Nat) : Nat := 64 * rfld c (Reg.TILE_REGION t n) 27 16

/-- N of R87: the neurons of tile `t`. -/
def neuronsOf (c : Chip) (t : Nat) : Nat := min (regionSize c t 0 / 48) 1024

/-- TILE_RING.HEAD. -/
def ringHead (c : Chip) (t : Nat) : Nat := rfld c (Reg.TILE_RING t) 1 0

/-- Device address of neuron `i` of state-ring slot `s` (R87, R120). -/
def nrnAddr (c : Chip) (t s i : Nat) : Nat := regionBase c t 0 + s * (16 * neuronsOf c t) + 16 * i

/-- Device address of the accumulator of neuron `i` in bank `b` (R87). -/
def accAddr (c : Chip) (t b i : Nat) : Nat := regionBase c t 1 + b * (regionSize c t 1 / 2) + 4 * i

/-- Device address of axon entry `i` (R143). -/
def axonAddr (c : Chip) (t i : Nat) : Nat := regionBase c t 2 + 8 * i

/-- Device address of schedule word `i` of region 3. -/
def schedAddr (c : Chip) (t i : Nat) : Nat := regionBase c t 3 + 4 * i

/-- Device address of store unit `u` (R95); a unit address has 15 bits. -/
def unitAddr (t u : Nat) : Nat := win t + 0x40000 + 8 * (u % 32768)

/-- Store unit `u` of tile `t`. -/
def unitAt (c : Chip) (t u : Nat) : Nat := numAt c (unitAddr t u) 8

/-- Whether address `a` lies in the synapse store part of its tile window. -/
def inStore (a : Nat) : Bool := decide (0x40000 ≤ a % 0x100000)

/-- What a read of one marked word leaves (R91, Table 3.4): counters, fault bits and TILE_ECC_LAST. -/
def noteError (t : Nat) (p : Nat × Nat) (c : Chip) : Chip :=
  let off := 8 * p.1 % 0x100000
  let store := inStore (8 * p.1)
  if p.2 = 2 then
    c |> raise (Reg.TILE_FAULT t) (if store then 3 else 2)
      |> count (if store then Reg.TILE_STORE_UE t else Reg.TILE_SRAM_UE t) 1
      |> putNum (Reg.TILE_ECC_LAST t) (b2n store * 2 ^ 31 + off / 8)
  else count (if store then Reg.TILE_STORE_CE t else Reg.TILE_SRAM_CE t) 1 c

/-- An engine's read of `n` bytes from `a` (R91, Table 3.4): errors are counted, and an uncorrectable one fails the
step with cause UE. -/
def engineRead (t a n : Nat) (c : Chip) : Chip :=
  match eccIn c a n with
  | [] => c
  | es => forAll (noteError t) es c |> when_ (es.any (fun p => p.2 == 2)) (reportTile t 3)

/-- The step of tile `t`'s job that consumes events of parity `p` next (R48): the step it works on, or the one after. -/
def consumer (c : Chip) (t p : Nat) : Nat :=
  let s := tileStep c t
  if (s + 1) % 2 = p then s else nextStep s

/-- A report of a cause by tile `t` that concerns events of parity `p`, for the step that consumes them (R340, R346). -/
def reportFor (t p cause : Nat) (c : Chip) : Chip :=
  match jobOfTile c t with
  | some j => reportJob j (consumer c t p) cause t t c
  | none => c

/-- An engine's read, for events of parity `p`, of `n` bytes from `a`: as `engineRead`, with the step that consumes the
events failed. -/
def engineReadFor (t p a n : Nat) (c : Chip) : Chip :=
  match eccIn c a n with
  | [] => c
  | es => forAll (noteError t) es c |> when_ (es.any (fun p => p.2 == 2)) (reportFor t p 3)

/-- An engine's write of bytes at `a`. -/
def engineWrite (a : Nat) (bs : List Byte) (c : Chip) : Chip := c |> putBytes a bs |> clearEcc a bs.length

/-- Census item `item` (0 sent, 1 delivered, 2 dropped, 3 late) of parity `p` at tile `t` advanced by `n` (R278). -/
def tally (t p item n : Nat) (c : Chip) : Chip :=
  modTile t (fun T => { T with census := setNum (4 * p + item) (numOf T.census (4 * p + item) + n) T.census }) c

/-- A delivered copy of parity `p` at tile `t` turned into a dropped one (R278); `late` counts it late as well. -/
def undeliver (t p : Nat) (late : Bool) (c : Chip) : Chip :=
  modTile t (fun T =>
    let d := numOf T.census (4 * p + 1) - 1
    let m := setNum (4 * p + 1) d T.census
    let m := setNum (4 * p + 2) (numOf m (4 * p + 2) + 1) m
    { T with census := if late then setNum (4 * p + 3) (numOf m (4 * p + 3) + 1) m else m }) c

/-- The key of a wire that enters tile `t` at port `p` on VC `v`. -/
def wireKey (t p v : Nat) : Nat := 64 * t + 8 * p + v

/-- The flits on the wire that enters tile `t` at port `p` on VC `v`. -/
def wire (c : Chip) (t p v : Nat) : List Flit := listOf c.wires (wireKey t p v)

/-- A flit put on the wire into port `p` of tile `t`. -/
def putWire (t p : Nat) (f : Flit) (c : Chip) : Chip :=
  { c with wires := setList (wireKey t p f.vc) (wire c t p f.vc ++ [f]) c.wires }

/-- The flits held in input buffer `p` of router `t` on VC `v`. -/
def bufAt (c : Chip) (t p v : Nat) : List Held := listOf (router c t).buf (8 * p + v)

/-- The flits whose credits a fenced input `p` of router `t` keeps back on VC `v` (R252). -/
def keptAt (c : Chip) (t p v : Nat) : List Flit := listOf (router c t).kept (8 * p + v)

/-- Whether the sender into port `p` of router `t` holds a credit for VC `v`: fewer than 4 flits lie on the wire and in
the buffer, and none of them is kept back (R245, R252, R254). For the Local and Tap inputs, whose senders' credits return at once. -/
def inRoom (c : Chip) (t p v : Nat) : Bool :=
  decide ((wire c t p v).length + (bufAt c t p v).length + (keptAt c t p v).length < 4)

/-- The credit of the freed flit `f` put on its way to the output with wire key `k` (R247, R254). -/
def freeCredit (k : Nat) (f : Flit) (c : Chip) : Chip := { c with creditWires := setList k (listOf c.creditWires k ++ [f]) c.creditWires }

/-- A single-flit packet with its sideband. -/
def oneFlit (vc : Nat) (d : DWord) : Flit :=
  { data := d, vc := vc, head := true, tail := true, poison := false, bad := false, epoch := fEpoch d }

/-- A head flit and body flits as a packet. -/
def packet (vc : Nat) (h : DWord) (body : List DWord) : List Flit :=
  let mkF (hd tl : Bool) (d : DWord) : Flit :=
    { data := d, vc := vc, head := hd, tail := tl, poison := false, bad := false, epoch := fEpoch h }
  match body.reverse with
  | [] => [oneFlit vc h]
  | l :: rest => mkF true false h :: (rest.reverse.map (mkF false false)) ++ [mkF false true l]

/-- A packet put on the wire into port `p` of router `t`, flit after flit. -/
def sendPacket (t p : Nat) (fs : List Flit) (c : Chip) : Chip := forAll (fun f c => putWire t p f c) fs c

/-- The first packet of a list of flits and the rest, once its TAIL has come. -/
def takePacket : List Flit → Option (List Flit × List Flit)
  | [] => none
  | f :: fs => if f.tail then some ([f], fs) else (takePacket fs).map (fun p => (f :: p.1, p.2))

/-- The first complete packet on VC `v` at tile `t`'s Local port whose head satisfies `ok`, with the input port it came
by. -/
def dmaFind (c : Chip) (t v : Nat) (ok : Flit → Bool) : Option (Nat × Flit × List Flit) :=
  (List.range 6).findSome? (fun p =>
    match takePacket (listOf (tile c t).chn.dma (8 * p + v)) with
    | some (h :: body, _) => if ok h then some (p, h, body) else none
    | _ => none)

/-- The first packet from input port `p` on VC `v` is taken off tile `t`'s Local port. -/
def dmaDrop (t p v : Nat) (c : Chip) : Chip :=
  match takePacket (listOf (tile c t).chn.dma (8 * p + v)) with
  | some (_, rest) => modTile t (fun T => { T with chn := { T.chn with dma := setList (8 * p + v) rest T.chn.dma } }) c
  | none => c

/-- A flit added to the Local port's packets. -/
def dmaAdd (t p v : Nat) (f : Flit) (c : Chip) : Chip :=
  modTile t (fun T => { T with chn := { T.chn with
    dma := setList (8 * p + v) (listOf T.chn.dma (8 * p + v) ++ [f]) T.chn.dma } }) c

/-! ### Power domains (R418, R419) -/

/-- STATE of domain `d`: 0 ON, 1 RET, 2 OFF, 3 entering, 4 waking, 5 resetting (Table 15.13). -/
def domState (c : Chip) (d : Nat) : Nat := rfld c (Reg.PWR_DOM d) 31 29

/-- Whether domain `d` is ON. -/
def domOn (c : Chip) (d : Nat) : Bool := domState c d == 0

/-- Whether the compute die is in reset: a reset of it is in progress (R309, R414), or the switched domains stay in reset. -/
def dieInReset (c : Chip) : Bool :=
  (rflag c Reg.BOOT_RST_STATUS 31 && rfld c Reg.BOOT_RST_STATUS 30 28 == 3) || c.boot.inReset

/-- An action of tile `t` or its router, which takes place only while the domain of its field is ON (R419). -/
def atTile (t : Nat) (f : Chip → Chip) (c : Chip) : Chip := if domOn c (fieldOf t) then f c else c

end Sys2Proof.Machine
end

