-- ==== Sys2Proof/Machine/Floor.lean ====
section
/-!
DEFINITION. The published floor plan as the units read it (R400, R401), the ports and taps it leaves, and the memory
controller that an address selects (R497, R505).
-/

namespace Sys2Proof.Machine

/-- Device address of the published FLOORPLAN record (R401). -/
def fpBase : Nat := 0x200000010000

/-- Device address of its edit copy (R403). -/
def fpEdit : Nat := 0x200000014000

/-- Bytes of a FLOORPLAN record (Table 14.5). -/
def fpLength : Nat := 5192

/-- Bit `i` of the bitmap at offset `off` of the published record (R401). -/
def fpBit (c : Chip) (off i : Nat) : Bool := bit (byteAt c (fpBase + off + i / 8)).toNat (i % 8)

/-- Bit of tile `t` in the floor plan's TILES bitmap (Table 14.5). -/
def tileBit (c : Chip) (t : Nat) : Bool := fpBit c 0x40 t

/-- The east link of tile `t` is good. -/
def eastGood (c : Chip) (t : Nat) : Bool := fpBit c 0x440 t

/-- The south link of tile `t` is good. -/
def southGood (c : Chip) (t : Nat) : Bool := fpBit c 0x840 t

/-- Whether the variant has the engine that tap `k` serves, if it serves one: no odd engine on a Y8400-C and none on a
Y8400-E (R39). -/
def tapFitted (c : Chip) (k : Nat) : Bool :=
  match tapUnit k with
  | .engine e => match fld c.fuses.variant 1 0 with | 1 => e % 2 == 0 | 2 => false | _ => true
  | _ => true

/-- Tap `k` carries traffic: the floor plan lists it as good (R38), and its engine is not one the variant lacks (R39). -/
def tapGood (c : Chip) (k : Nat) : Bool := fpBit c 0x20 k && tapFitted c k

/-- Optical engine `e` is good. -/
def engineGood (c : Chip) (e : Nat) : Bool := fpBit c 0x1B e

/-- Stream port `p` is good. -/
def portGood (c : Chip) (p : Nat) : Bool := fpBit c 0x18 p

/-- Memory controller `m` is good. -/
def controllerGood (c : Chip) (m : Nat) : Bool := fpBit c 0x1A m

/-- CAP code of tile `t`'s synapse store (Table 14.3). -/
def capCode (c : Chip) (t : Nat) : Nat :=
  bits (byteAt c (fpBase + 0xC40 + t / 4)).toNat (2 * (t % 4) + 1) (2 * (t % 4))

/-- Tile `t` is good: its bit is 1, and its CAP is not 0, which makes a tile bad (R97). -/
def tileGood (c : Chip) (t : Nat) : Bool := tileBit c t && capCode c t != 0

/-- Bytes of tile `t`'s synapse store (R97): CAP codes 1, 2, 3 stand for 64, 128, 256 KiB. -/
def storeBytes (c : Chip) (t : Nat) : Nat := match capCode c t with | 0 => 0 | k + 1 => 65536 * 2 ^ k

/-- Whether seam row `y` carries flits (R274). -/
def seamOn (c : Chip) (y : Nat) : Bool :=
  if y < 32 then rflag c Reg.SEAM_ROW_EN_LO y else rflag c Reg.SEAM_ROW_EN_HI (y - 32)

/-- Whether port `p` of router `t` is present (R245, R274). -/
def portPresent (c : Chip) (t p : Nat) : Bool :=
  match p with
  | 0 => decide (0 < tileY t) && southGood c (t - 128)
  | 1 => decide (tileY t < 63) && southGood c t
  | 2 => if tileX t = 63 then seamOn c (tileY t) else decide (tileX t < 127) && eastGood c t
  | 3 => if tileX t = 64 then seamOn c (tileY t) else decide (0 < tileX t) && eastGood c (t - 1)
  | 4 => true
  | 5 => isTap t && tapGood c (tapOf t)
  | _ => false

/-- Whether the floor plan lists the router of tile `t` as bad: its tile's bit and the bits of all its links are 0
(R400). -/
def routerBad (c : Chip) (t : Nat) : Bool :=
  !tileBit c t && !(decide (0 < tileY t) && southGood c (t - 128)) && !(decide (tileY t < 63) && southGood c t) &&
    !eastGood c t && !(decide (0 < tileX t % 64) && eastGood c (t - 1))

/-- The tile across port `p` of tile `t`, and the port by which a flit enters it. -/
def neighbour (t p : Nat) : Nat × Nat :=
  match p with
  | 0 => (t - 128, 1)
  | 1 => (t + 128, 0)
  | 2 => (t + 1, 3)
  | _ => (t - 1, 2)

/-! ### Pads (R424) -/

/-- Whether the pads of domain 64 + `i` are held (R424). -/
def padHeld (c : Chip) (i : Nat) : Bool := rflag c Reg.PWR_PAD_HELD i

/-! ### LPDDR5X addresses (R496 to R498, R505) -/

/-- MEM_STATUS.MAP: the linear mode. -/
def memLinear (c : Chip) : Bool := rflag c Reg.MEM_STATUS 30

/-- MEM_STATUS.ECC: inline ECC is in force. -/
def memEcc (c : Chip) : Bool := rflag c Reg.MEM_STATUS 31

/-- Whether controller `m` is present. -/
def memPresent (c : Chip) (m : Nat) : Bool := rflag c Reg.MEM_STATUS (16 + m)

/-- The controller that device address `a` selects (Table 19.2). -/
def memController (c : Chip) (a : Nat) : Nat := if memLinear c then a / 2 ^ 35 % 4 else a / 2048 % 4

/-- Whether device address `a` is usable under Table 19.2. -/
def memUsable (c : Chip) (a : Nat) : Bool :=
  let g := 2 ^ 30
  let top := if memEcc c then 31 * g else 32 * g
  if memLinear c then decide (a < 2 ^ 37) && memPresent c (a / 2 ^ 35) && decide (a % 2 ^ 35 < top)
  else decide (a < 4 * top)

/-- The controller a request for address `a` goes to (R505). -/
def memTarget (c : Chip) (a : Nat) : Option Nat :=
  let m := memController c a
  if memPresent c m then some m else (List.range 4).find? (memPresent c)

/-- The tap by which tile `t` reaches controller `m` (R505). -/
def memTap (c : Chip) (t m : Nat) : Option Nat :=
  let i := tileX t / 16 % 4
  ((List.range 4).map (fun k => (memoryTaps m).getD ((i + k) % 4) 0)).find? (tapGood c)

end Sys2Proof.Machine
end

