-- ==== Sys2Proof/Machine/Numerics.lean ====
section
/-!
DEFINITION. The arithmetic of the chapters "Number formats and quantisation" and "Neuron engine": scaling, rounding,
saturation, lazy leak and the neuron update (R131, R169 to R185).
-/

namespace Sys2Proof.Machine

/-- shift_round of R175: a left shift, or a right shift that rounds halfway values toward positive infinity. -/
def shiftRound (p : Int) (sh : Int) : Int :=
  if 0 ≤ sh then p * 2 ^ sh.toNat else (p + 2 ^ ((-sh).toNat - 1)) / 2 ^ (-sh).toNat

/-- Whether a SCALE16 value is zero (R173). -/
def scaleZero (s : Nat) : Bool := s / 1024 == 0

/-- The mantissa 1024 + m of a SCALE16 value. -/
def scaleMant (s : Nat) : Int := 1024 + (s % 1024 : Nat)

/-- The shift e − 42 of a SCALE16 value. -/
def scaleShift (s : Nat) : Int := (s / 1024 : Nat) - 42

/-- `x` scaled by SCALE16 value `s`, before saturation: the product is exact and one shift rounds (R175). -/
def scaleExact (x : Int) (s : Nat) : Int :=
  if scaleZero s then 0 else shiftRound (x * scaleMant s) (scaleShift s)

/-- scaled_term of R175 for codebook entry `w`, event value `x`, group scale `s`, before sat32. -/
def termExact (w x : Int) (s : Nat) : Int := scaleExact (w * x) s

/-- scaled_term of R175. -/
def scaledTerm (w x : Int) (s : Nat) : Int := satInt 32 (termExact w x s)

/-- rescale of R175. -/
def rescale (psum : Int) (s : Nat) : Int := satInt 32 (scaleExact psum s)

/-- round_stoch of R179: `a` with `f` fraction bits, pepper word `r`. -/
def roundStoch (a : Int) (f r : Nat) : Int := (a + (r / 2 ^ (32 - f) : Nat)) / 2 ^ f

/-- One step of a xorshift-64 pepper generator (R111). -/
def pepperStep (s : Nat) : Nat :=
  let a := s.xor (s * 2 ^ 13 % 2 ^ 64)
  let b := a.xor (a / 2 ^ 7)
  b.xor (b * 2 ^ 17 % 2 ^ 64)

/-- The word a pepper state yields (R111). -/
def pepperWord (s : Nat) : Nat := s / 2 ^ 32

/-- The state a reload of the pepper generator leaves (R111). -/
def pepperSeed (seed : Nat) : Nat := if seed = 0 then 1 else seed

/-- One factor of the lazy leak (R131). -/
def leakOnce (v : Int) (f : Nat) : Int := (v * f + 16384) / 32768

/-- lazy_leak of R131 over the bits of the idle count, least significant first. -/
def lazyLeak : Nat → Int → List Nat → List Nat → Int
  | _, v, [], _ => v
  | _, v, _, [] => v
  | n, v, fp :: ps, fn :: ns =>
    lazyLeak (n / 2) (if n % 2 = 1 then leakOnce v (if v < 0 then fn else fp) else v) ps ns

/-- What one update of a neuron gives: the new state, whether it fired, the event value, suppressed crossings, and
whether it is marked for the following step (R131). -/
structure UpdateOut where
  state : NState
  fired : Bool
  value : Nat
  supp : Nat
  marked : Bool
  deriving DecidableEq, Repr

/-- The membrane after firing, the event value and the suppressed crossings, for membrane `v ≥ θ` (R131). -/
def fireOut (p : Pop) (v : Int) : Int × Nat × Nat :=
  let th : Int := p.theta
  let c := (v / th).toNat
  let back : Int := if p.reset = 0 then 0 else p.resetValue
  if p.graded then
    if p.reset = 1 then
      let c := min c 255
      let v' := v - c * th
      (v', c, if th ≤ v' then 1 else 0)
    else
      let g := v.toNat / 2 ^ p.shift
      (back, if g = 0 then 1 else min g 255, 0)
  else if p.reset = 1 then
    (v - th, 1, if th ≤ v - th then 1 else 0)
  else (back, 1, c - 1)

/-- update_neuron of R131 for start state `s`, accumulator input `input` and step number `t16`; the trace fields follow
R226. `accBit` is the neuron's ACC bit; `preInc` and `postInc` are the trace increments. -/
def updateNeuron (p : Pop) (s : NState) (input : Int) (t16 : Nat) (accBit : Bool) (preInc postInc : Nat) : UpdateOut :=
  let n := if bit s.flags 0 then 1 else (t16 + 65536 - s.last) % 65536
  let v := lazyLeak n s.v p.leakPos p.leakNeg
  let r := s.refLeft + 1 - n
  let bias := if bit s.flags 1 then s.biasOvr else p.bias
  let active := r = 0
  let v1 := if active then satInt 24 (v + input + bias) else v
  let fired : Bool := decide active && decide ((p.theta : Int) ≤ v1)
  let out := fireOut p v1
  let v2 := if fired then out.1 else v1
  let value := if fired then out.2.1 else 0
  let supp := if fired then out.2.2 else 0
  let r' := if fired then p.refract else r - 1
  let flags := (s.flags / 8 * 8) + (if fired then 4 else 0) + (if bit s.flags 1 then 2 else 0)
  { state := { s with
      v := v2
      refLeft := r'
      last := t16
      flags := flags
      burst := min 255 (s.burst + supp)
      pre := if accBit then min 255 (s.pre + preInc) else s.pre
      post := if fired then min 255 (s.post + postInc * value) else s.post
      events := if fired then min 65535 (s.events + 1) else s.events
      lastValue := if fired then value else s.lastValue }
    fired := fired
    value := value
    supp := supp
    marked := decide (bias ≠ 0) || decide ((p.theta : Int) ≤ v2) }

/-- Neuron trace decay of R225 with shift `k`. -/
def decayTrace (t k : Nat) : Nat := if k = 0 then t else t - (t + 2 ^ k - 1) / 2 ^ k

/-- scale_for_max of R184, trying exponents from `e` on. -/
def scaleSearch (mx : Nat) : Nat → Nat → Nat
  | 0, _ => 0xFFFF
  | k + 1, e =>
    let need := if e ≤ 42 then (mx * 2 ^ (42 - e) + 126) / 127 else (mx + 127 * 2 ^ (e - 42) - 1) / (127 * 2 ^ (e - 42))
    if need ≤ 2047 then e * 1024 + (need - 1024) else scaleSearch mx k (e + 1)

/-- scale_for_max of R184. -/
def scaleForMax (mx : Nat) : Nat := if mx = 0 then 0 else scaleSearch mx 63 1

/-- The quotient of quantise before clipping (R185). -/
def quantMag (a s : Nat) : Nat :=
  let e := s / 1024
  let m := 1024 + s % 1024
  let num := if e ≤ 42 then 2 * (a * 2 ^ (42 - e)) else 2 * a
  let den := if e ≤ 42 then 2 * m else 2 * m * 2 ^ (e - 42)
  (num + den / 2) / den

/-- quantise of R185: the encoder value, and whether it was clipped. -/
def quantise (y : Int) (s : Nat) : Int × Bool :=
  let q := quantMag y.natAbs s
  let m : Int := (min q 127 : Nat)
  (if y < 0 then -m else m, decide (127 < q))

/-- Position of the most significant set bit of a number below 2^16. -/
def topBit (z : Nat) : Nat := ((List.range 16).filter (fun i => bit z i)).foldl max 0

/-- LOG8 of R181. -/
def log8 (z : Nat) : Nat := if z = 0 then 0 else 16 * topBit z + (z * 16 / 2 ^ topBit z) % 16

/-- Rotated word k of a group of feature words (R182): Sylvester-order Hadamard without normalisation. -/
def hadamard (xs : List Int) (k : Nat) : Int :=
  ((xs.zip (List.range xs.length)).map
    (fun p => if popCount 6 (k.land p.2) % 2 = 1 then -p.1 else p.1)).foldl (· + ·) 0

/-- A saturating Q12.4 delta (R172). -/
def satDelta (x : Int) : Int := satInt 16 x

end Sys2Proof.Machine
end

