-- ==== Sys2Proof/Machine/Sequencer.lean ====
section
/-!
DEFINITION. The sequencer, the pepper generator, bank retention and the event queue's arrivals
(chapter "The tile", R84 to R115).
-/

namespace Sys2Proof.Machine

/-! ### The word at the pointer (R103, R104, R108) -/

/-- Whether tile `t`'s sequencer is at work on a word. -/
def seqBusy (c : Chip) (t : Nat) : Bool :=
  match (tile c t).seq.mode with
  | .executing | .waiting => true
  | _ => false

/-- The schedule word at tile `t`'s word pointer. -/
def wordAt (c : Chip) (t : Nat) : Nat := numAt c (schedAddr c t (tile c t).seq.pc) 4

/-- Whether the fetch of the word at the pointer finds an uncorrectable error. -/
def fetchUe (c : Chip) (t : Nat) : Bool := eccAt c (schedAddr c t (tile c t).seq.pc) == 2

/-- Whether the sequencer of tile `t` stands at a good word of opcode `op`. -/
def atWord (c : Chip) (t op : Nat) : Bool :=
  seqBusy c t && !fetchUe c t && !wIllegal (wordAt c t) && wOp (wordAt c t) == op

/-- A corrected error at the first fetch of a word is counted (R91). -/
def fetchCe (t : Nat) (c : Chip) : Chip :=
  when_ ((tile c t).seq.mode == .executing && eccAt c (schedAddr c t (tile c t).seq.pc) == 1)
    (count (Reg.TILE_SRAM_CE t) 1) c

/-- The sequencer moves to the next word. -/
def nextWord (t : Nat) (c : Chip) : Chip :=
  modTile t (fun T => { T with seq := { T.seq with mode := .executing, pc := (T.seq.pc + 1) % 2048 } }) (fetchCe t c)

/-- The sequencer waits at its word. -/
def holdWord (t : Nat) (c : Chip) : Chip :=
  modTile t (fun T => { T with seq := { T.seq with mode := .waiting } }) (fetchCe t c)

/-- The phase of tile `t`'s timebase. -/
def tilePhase (c : Chip) (t : Nat) : Phase := match tbOfTile c t with | some j => (tbAt c j).phase | none => .idle

/-- Update go of the current step has come for tile `t` (R104). -/
def goReached (c : Chip) (t : Nat) : Bool :=
  match tilePhase c t with | .update | .settle => true | _ => false

/-- Update end of the current step has come for tile `t` (R104). -/
def endReached (c : Chip) (t : Nat) : Bool := match tilePhase c t with | .settle => true | _ => false

/-- A settle word of opcode `op` at tile `t`: `f` when its gate is open, a wait else (R104). -/
def settleWord (t op : Nat) (f : Chip → Chip) (c : Chip) : Chip :=
  if atWord c t op then (if endReached c t then f c else holdWord t c) else c

/-- NOP (R106). -/
def nopWord (t : Nat) (c : Chip) : Chip := if atWord c t 0 then nextWord t c else c

/-- Whether a WAIT_UNTIL word's time has come at `now` (R105). -/
def waitOver (c : Chip) (t now : Nat) : Bool :=
  let w := wordAt c t
  let off := bits w 22 0
  match tbOfTile c t with
  | none => false
  | some j =>
    let T := tbAt c j
    match bits w 25 24 with
    | 0 => decide (T.tickAt + off ≤ now)
    | 1 => goReached c t && decide (T.tickAt + T.goAt + off ≤ now)
    | _ => endReached c t && decide (T.tickAt + T.endAt + off ≤ now)

/-- WAIT_UNTIL (R105): a time already past takes the word, any other time holds the sequencer. -/
def waitUntilWord (t now : Nat) (c : Chip) : Chip :=
  if atWord c t 1 then (if waitOver c t now then nextWord t c else holdWord t c) else c

/-- The time of a WAIT_UNTIL arrives (R105). -/
def waitUntilOver (t now : Nat) (c : Chip) : Chip :=
  if atWord c t 1 && (tile c t).seq.mode == .waiting && waitOver c t now then nextWord t c else c

/-- INTEGRATE (R99). -/
def integrateWord (t : Nat) (c : Chip) : Chip :=
  if atWord c t 2 then c |> modTile t (fun T => { T with seq := { T.seq with integrate := true } }) |> nextWord t else c

/-- TILE_RING.HEAD advanced by 1 mod 3 (R122). -/
def rotateRing (t : Nat) (c : Chip) : Chip :=
  c |> setFld (Reg.TILE_RING t) 1 0 ((ringHead c t + 1) % 3)
    |> modTile t (fun T => { T with seq := { T.seq with rotated := true } })

/-- ROTATE_STATE (R106). -/
def rotateWord (t : Nat) (c : Chip) : Chip := settleWord t 0x0A (fun c => c |> rotateRing t |> nextWord t) c

/-- END (R103, R114): the sequencer idles; with SEQ_EN cleared in the step it stops (R109). -/
def endSchedule (t clk : Nat) (c : Chip) : Chip :=
  if atWord c t 0x3F then
    c |> fetchCe t
      |> modTile t (fun T => { T with seq := { T.seq with mode := if seqEn c t then .ended else .stopped } })
      |> setFld (Reg.TILE_END_CLK t) 24 0 (min clk 0x1FFFFFF)
      |> peak (Reg.TILE_END_MAX t) (min clk 0x1FFFFFF)
  else c

/-! ### Fences (R102, R108, R115) -/

/-- Spill capacity of tile `t`: region 7's size / 8, at most 1,024 (R87). -/
def spillCap (c : Chip) (t : Nat) : Nat := min (regionSize c t 7 / 8) 1024

/-- Address of the spill entry `i` places behind the oldest. -/
def spillAddr (c : Chip) (t i : Nat) : Nat :=
  regionBase c t 7 + 8 * (((tile c t).evq.spillHead + i) % max 1 (spillCap c t))

/-- The events in the spill, oldest first. -/
def spillEvents (c : Chip) (t : Nat) : List DWord :=
  (List.range (tile c t).evq.spillLen).map (fun i => BitVec.ofNat 64 (numAt c (spillAddr c t i) 8))

/-- The reads of every spill entry, with what their errors cause (Table 3.4). -/
def readSpill (t : Nat) (c : Chip) : Chip :=
  forAll (fun a c => engineRead t a 8 c) ((List.range (tile c t).evq.spillLen).map (spillAddr c t)) c

/-- Every event that the tile holds in its queue and spill. -/
def heldEvents (c : Chip) (t : Nat) : List DWord := (tile c t).evq.queue ++ spillEvents c t

/-- One held event dropped as fenced (R102, R278). -/
def dropFenced (t : Nat) (f : DWord) (c : Chip) : Chip :=
  c |> count (Reg.TILE_DROP_FENCED t) 1 |> undeliver t (fParity f) false

/-- FENCE becomes 1 (R102, R115): the sequencer stops and every held event is dropped. -/
def fenceTile (t : Nat) (mode : SeqMode) (c : Chip) : Chip :=
  if fenced c t then c
  else
    let es := heldEvents c t
    c |> setBit (Reg.TILE_CTRL t) 31 true
      |> readSpill t
      |> modTile t (fun T => { T with
          seq := { T.seq with mode := mode, integrate := false }
          evq := { T.evq with queue := [], spillHead := 0, spillLen := 0 }
          nrn := { T.nrn with updLeft := none }
          lrn := { T.lrn with mowLeft := none } })
      |> forAll (dropFenced t) es

/-- ILLEGAL_WORD (R108): the word at the pointer is illegal, or its fetch finds an uncorrectable error. -/
def illegalWordAt (t : Nat) (c : Chip) : Chip :=
  if seqBusy c t && (fetchUe c t || wIllegal (wordAt c t)) then
    c |> fetchCe t
      |> raise (Reg.TILE_FAULT t) (if fetchUe c t then 1 else 0)
      |> putNum (Reg.TILE_FAULT_PC t) (tile c t).seq.pc
      |> reportTile t 10
      |> fenceTile t .fault
  else c

/-! ### Control bits (R109, R111, R112, R126) -/

/-- SEQ_EN becomes 1 (R109): the sequencer starts at the next tick. -/
def setSeqEn (t : Nat) (c : Chip) : Chip :=
  if seqEn c t then c
  else
    c |> setBit (Reg.TILE_CTRL t) 0 true
      |> modTile t (fun T => { T with
          seq := { T.seq with mode := match T.seq.mode with | .stopped | .ended => .waitTick | m => m }
          lrn := { T.lrn with epochFresh := true } })

/-- SEQ_EN becomes 0 (R109): a running step completes, an idle sequencer stops. -/
def clearSeqEn (t : Nat) (c : Chip) : Chip :=
  c |> setBit (Reg.TILE_CTRL t) 0 false
    |> modTile t (fun T => { T with
        seq := { T.seq with mode := match T.seq.mode with | .waitTick | .ended => .stopped | m => m } })

/-- FENCE becomes 0: the sequencer waits for the next tick, or is stopped while SEQ_EN is 0. -/
def clearFence (t : Nat) (c : Chip) : Chip :=
  if fenced c t then
    c |> setBit (Reg.TILE_CTRL t) 31 false
      |> modTile t (fun T => { T with seq := { T.seq with mode := if seqEn c t then .waitTick else .stopped } })
  else c

/-- pepper_reload of R111. -/
def reloadPepper (t : Nat) (c : Chip) : Chip :=
  modTile t (fun T => { T with
    pepper := BitVec.ofNat 64 (pepperSeed (reg2 c (Reg.TILE_PEPPER_SEED_LO t) (Reg.TILE_PEPPER_SEED_HI t))) }) c

/-- All 1,024 bits set. -/
def allNeurons : BitVec 1024 := BitVec.ofNat 1024 (2 ^ 1024 - 1)

/-- NRN_CTRL.PRIME (R126): ignored while SEQ_EN is 1 (Table 4.9). -/
def primeTile (t : Nat) (c : Chip) : Chip :=
  if seqEn c t then c
  else modTile t (fun T => { T with nrn := { T.nrn with
    upd := [(0, allNeurons), (1, allNeurons), (2, allNeurons)]
    pst := [(0, allNeurons), (1, allNeurons), (2, allNeurons)]
    unionLeft := 0 } }) c

/-! ### Retention of banks (R92 to R94) -/

/-- One bank of a write to TILE_SRAM_RET (R92, R93, R94). -/
def retainBank (t : Nat) (want : Nat) (b : Nat) (c : Chip) : Chip :=
  let have_ := rflag c (Reg.TILE_SRAM_RET t) b
  if bit want b then
    if have_ then c
    else if rflag c (Reg.TILE_SRAM_USE t) b then raise (Reg.TILE_FAULT t) 4 c
    else
      c |> setBit (Reg.TILE_SRAM_RET t) b true
        |> setBit (Reg.TILE_SRAM_RET_STATUS t) b true
        |> setBit (Reg.TILE_SRAM_RET_STATUS t) (8 + b) false
  else if have_ then
    c |> setBit (Reg.TILE_SRAM_RET t) b false
      |> setBit (Reg.TILE_SRAM_RET_STATUS t) b false
      |> setBit (Reg.TILE_SRAM_RET_STATUS t) (8 + b) true
  else c

/-- A write to TILE_SRAM_RET (R92). -/
def writeRetention (t want : Nat) (c : Chip) : Chip := forAll (retainBank t want) (List.range 8) c

/-- Bank `b` has woken (R94). -/
def bankAwake (t b : Nat) (c : Chip) : Chip := setBit (Reg.TILE_SRAM_RET_STATUS t) (8 + b) false c

/-- Whether the bank that holds SRAM offset `o` is retained or waking (R94). -/
def bankAsleep (c : Chip) (t o : Nat) : Bool :=
  let b := o / 0x4000
  rflag c (Reg.TILE_SRAM_RET_STATUS t) b || rflag c (Reg.TILE_SRAM_RET_STATUS t) (8 + b)

/-! ### Arriving events (R98, R101, R102, R57) -/

/-- Whether an event's parity is closed for tile `t`'s job (R57). -/
def isLate (c : Chip) (t : Nat) (f : DWord) : Bool :=
  match tbOfTile c t with
  | some j => fParity f != (tbAt c j).parity
  | none => false

/-- Whether a unit or graded event is a gather input (R142, Table 5.13). -/
def isGatherInput (c : Chip) (t : Nat) (f : DWord) : Bool :=
  (fKind f == 0 || fKind f == 1) &&
    decide ((fAxon f + 65536 - rfld c (Reg.SYN_GIN_CFG t) 31 16) % 65536 < min (rfld c (Reg.SYN_GIN_CFG t) 12 0) 4096)

/-- A spill entry: the flit with CAST, DX, DY and SPAN_END zero. -/
def spillForm (f : DWord) : Nat := bits f.toNat 63 58 * 2 ^ 58 + f.toNat % 2 ^ 36

/-- Events held, queue and spill. -/
def eqOcc (c : Chip) (t : Nat) : Nat := (tile c t).evq.queue.length + (tile c t).evq.spillLen

/-- An event accepted into the queue or the spill, or dropped on overflow (R98). -/
def enqueue (t : Nat) (f : DWord) (c : Chip) : Chip :=
  let q := (tile c t).evq
  if q.queue.length < 256 ∧ q.spillLen = 0 then
    c |> modTile t (fun T => { T with evq := { T.evq with queue := T.evq.queue ++ [f] } })
      |> tally t (fParity f) 1 1 |> fun c => peak (Reg.TILE_EQ_HWM t) (eqOcc c t) c
  else if q.spillLen < spillCap c t then
    c |> engineWrite (spillAddr c t q.spillLen) (toBytes 8 (spillForm f))
      |> modTile t (fun T => { T with evq := { T.evq with spillLen := T.evq.spillLen + 1 } })
      |> tally t (fParity f) 1 1 |> fun c => peak (Reg.TILE_EQ_HWM t) (eqOcc c t) c
  else c |> count (Reg.TILE_DROP_OVERFLOW t) 1 |> tally t (fParity f) 2 1

/-- The oldest arrived event is taken off the Local port. -/
def popArrived (t : Nat) (c : Chip) : Chip :=
  modTile t (fun T => { T with evq := { T.evq with arrived := T.evq.arrived.drop 1 } }) c

/-- EVENT_ARRIVE (R98, R57, R102): a fenced tile drops it, a late event is dropped, any other that is no gather input
enters the queue. -/
def arriveEvent (t : Nat) (c : Chip) : Chip :=
  match (tile c t).evq.arrived with
  | [] => c
  | f :: _ =>
    let d := f.data
    if fenced c t then c |> popArrived t |> count (Reg.TILE_DROP_FENCED t) 1 |> tally t (fParity d) 2 1
    else if isLate c t d then
      c |> popArrived t |> count (Reg.TILE_DROP_LATE t) 1 |> tally t (fParity d) 2 1 |> tally t (fParity d) 3 1
    else if isGatherInput c t d then c
    else c |> popArrived t |> enqueue t d

/-- The oldest spill entry moves into the queue (R98); one that cannot be read is discarded and counted as dropped
(Table 3.4). -/
def refillOne (t : Nat) (c : Chip) : Chip :=
  let q := (tile c t).evq
  if q.queue.length < 256 ∧ 0 < q.spillLen then
    let a := spillAddr c t 0
    let f : DWord := BitVec.ofNat 64 (numAt c a 8)
    let ue := hasUe c a 8
    let c := engineRead t a 8 c
    let c := modTile t (fun T => { T with evq := { T.evq with
      queue := if ue then T.evq.queue else T.evq.queue ++ [f]
      spillHead := (T.evq.spillHead + 1) % max 1 (spillCap c t)
      spillLen := T.evq.spillLen - 1 } }) c
    if ue then undeliver t (fParity f) false c else c
  else c

/-- The queue refilled from the spill as far as entries are free (R98). -/
def refill (t : Nat) : Nat → Chip → Chip
  | 0, c => c
  | n + 1, c => refill t n (refillOne t c)

/-- At update go every entry of the closed parity `p` is dropped as late (R101). A spill entry that cannot be read is
discarded and counted as dropped (Table 3.4). The spill entries that stay are moved together at the base of region 7
(DESIGN CHOICE, log entry 167). -/
def purgeQueue (t p : Nat) (c : Chip) : Chip :=
  let unread (i : Nat) : Bool := hasUe c (spillAddr c t i) 8
  let spill := (spillEvents c t).zip (List.range (tile c t).evq.spillLen)
  let es := (tile c t).evq.queue ++ (spill.filter (fun x => !unread x.2)).map (fun x => x.1)
  let lost := (spill.filter (fun x => unread x.2)).map (fun x => x.1)
  let old := es.filter (fun f => fParity f == p)
  let c := readSpill t c
  if old.isEmpty && lost.isEmpty then c
  else
    let keep := es.filter (fun f => fParity f != p)
    let q := keep.take 256
    let sp := keep.drop 256
    let c := modTile t (fun T => { T with evq := { T.evq with queue := q, spillHead := 0, spillLen := sp.length } }) c
    let c := engineWrite (regionBase c t 7) (sp.flatMap (fun f => toBytes 8 (spillForm f))) c
    c |> forAll (fun f c => c |> count (Reg.TILE_DROP_LATE t) 1 |> undeliver t (fParity f) true) old
      |> forAll (fun f c => undeliver t (fParity f) false c) lost

/-! ### Meanings -/

/-- NOP. -/
def execNop (t : Fin 8192) (s : State) : Host.Outcome State Fault Refusal := done s (atTile t.val (nopWord t.val) s.chip)

/-- WAIT_UNTIL. -/
def execWaitUntil (t : Fin 8192) (now : Nat) (s : State) : Host.Outcome State Fault Refusal :=
  done s (atTile t.val (waitUntilWord t.val now) s.chip)

/-- WAIT_UNTIL_EXPIRE. -/
def execWaitUntilExpire (t : Fin 8192) (now : Nat) (s : State) : Host.Outcome State Fault Refusal :=
  done s (atTile t.val (waitUntilOver t.val now) s.chip)

/-- INTEGRATE. -/
def execIntegrate (t : Fin 8192) (s : State) : Host.Outcome State Fault Refusal := done s (atTile t.val (integrateWord t.val) s.chip)

/-- ROTATE_STATE. -/
def execRotateState (t : Fin 8192) (s : State) : Host.Outcome State Fault Refusal := done s (atTile t.val (rotateWord t.val) s.chip)

/-- END. -/
def execEndWord (t : Fin 8192) (clk : Nat) (s : State) : Host.Outcome State Fault Refusal :=
  done s (atTile t.val (endSchedule t.val clk) s.chip)

/-- ILLEGAL_WORD. -/
def execIllegalWord (t : Fin 8192) (s : State) : Host.Outcome State Fault Refusal := done s (atTile t.val (illegalWordAt t.val) s.chip)

/-- SEQ_EN_SET. -/
def execSeqEnSet (t : Fin 8192) (s : State) : Host.Outcome State Fault Refusal := done s (atTile t.val (setSeqEn t.val) s.chip)

/-- SEQ_EN_CLEAR. -/
def execSeqEnClear (t : Fin 8192) (s : State) : Host.Outcome State Fault Refusal := done s (atTile t.val (clearSeqEn t.val) s.chip)

/-- FENCE_SET. -/
def execFenceSet (t : Fin 8192) (s : State) : Host.Outcome State Fault Refusal := done s (atTile t.val (fenceTile t.val .fenced) s.chip)

/-- PEPPER_RELOAD. -/
def execPepperReload (t : Fin 8192) (s : State) : Host.Outcome State Fault Refusal := done s (atTile t.val (reloadPepper t.val) s.chip)

/-- PRIME. -/
def execPrime (t : Fin 8192) (s : State) : Host.Outcome State Fault Refusal := done s (atTile t.val (primeTile t.val) s.chip)

/-- SRAM_RET_REQUEST. -/
def execSramRetRequest (t : Fin 8192) (banks : Byte) (s : State) : Host.Outcome State Fault Refusal :=
  done s (atTile t.val (writeRetention t.val banks.toNat) s.chip)

/-- BANK_WAKE_DONE. -/
def execBankWakeDone (t : Fin 8192) (bank : Fin 8) (s : State) : Host.Outcome State Fault Refusal :=
  done s (atTile t.val (bankAwake t.val bank.val) s.chip)

/-- EVENT_ARRIVE. -/
def execEventArrive (t : Fin 8192) (s : State) : Host.Outcome State Fault Refusal := done s (atTile t.val (arriveEvent t.val) s.chip)

end Sys2Proof.Machine
end

