-- ==== Sys2Proof/Machine/Decoder.lean ====
section
/-!
DEFINITION. The decoder of a tile: count ring, window sums and the 16-byte output (R212 to R215).
-/

namespace Sys2Proof.Machine

/-- DEC_CTRL.EN. -/
def decEn (c : Chip) (t : Nat) : Bool := rflag c (Reg.DEC_CTRL t) 0

/-- The parameters of population `j` of tile `t` (R116). -/
def popAt (c : Chip) (t j : Nat) : Pop := popOf (bytesAt c (regionBase c t 4 + 128 * j) 128)

/-- Classes C of the readout population, at most 28 (Table 7.16). -/
def decClasses (c : Chip) (t : Nat) : Nat := min (rfld c (Reg.DEC_POPS t) 20 16) 27 + 1

/-- Device address of byte `k` of count ring slot `slot`, modulo the tile SRAM (R212, R214). -/
def ringByte (c : Chip) (t slot k : Nat) : Nat :=
  win t + (64 * rfld c (Reg.DEC_RING t) 10 0 + 32 * (slot % 256) + k) % 0x20000

/-- Count ring slot `slot` zeroed (R212). -/
def zeroSlot (t slot : Nat) (c : Chip) : Chip := forAll (fun k c => engineWrite (ringByte c t slot k) [0#8] c) (List.range 32) c

/-- The readout count c_k of a slot. -/
def slotCount (c : Chip) (t slot k : Nat) : Nat := (byteAt c (ringByte c t slot k)).toNat

/-- The novelty sum of a slot. -/
def slotNovelty (c : Chip) (t slot : Nat) : Nat :=
  ofBytes ((List.range 4).map (fun k => byteAt c (ringByte c t slot (28 + k))))

/-- At update go of step `s` the decoder zeroes slot s mod 256 and, when it is fresh, takes s as start (R212, R213). -/
def decoderGo (t step : Nat) (c : Chip) : Chip :=
  if decEn c t then
    c |> zeroSlot t step
      |> modTile t (fun T => { T with dec := { T.dec with
          start := if T.dec.fresh then step else T.dec.start
          fresh := false, seen := 0, done := false } })
      |> fun c => setFld (Reg.DEC_STATUS t) 15 0 ((tile c t).dec.start) c
  else c

/-- A firing of neuron `i` with value `v` in step `step` counted (R212). -/
def decoderCount (t step i v : Nat) (c : Chip) : Chip :=
  if decEn c t then
    let rp := popAt c t (rfld c (Reg.DEC_POPS t) 3 0)
    let np := popAt c t (rfld c (Reg.DEC_POPS t) 7 4)
    let k := i - rp.base
    let c := when_ (decide (rp.base ≤ i) && decide (k < rp.count) && decide (k < decClasses c t))
      (fun c => engineWrite (ringByte c t step k) [BitVec.ofNat 8 (min 255 (slotCount c t step k + v))] c) c
    when_ (rflag c (Reg.DEC_POPS t) 8 && decide (np.base ≤ i) && decide (i < np.base + np.count))
      (fun c => forAll (fun b c => engineWrite (ringByte c t step (28 + b.2)) [b.1] c)
        ((toBytes 4 (slotNovelty c t step + v)).zip (List.range 4)) c) c
  else c

/-- Index and value of the largest element, the lowest index on ties, leaving out index `skip`. -/
def argmax (xs : List Nat) (skip : Nat) : Nat × Nat :=
  ((xs.zip (List.range xs.length)).filter (fun p => p.2 != skip)).foldl
    (fun b p => if b.2 < p.1 then (p.2, p.1) else b)
    ((((List.range xs.length).filter (fun i => i != skip)).headD 0), (xs.getD (((List.range xs.length).filter (fun i => i != skip)).headD 0) 0))

/-- The decoder's output for step `step` with window `w` (R213, Table 7.5). -/
def decodeOut (c : Chip) (t step w : Nat) : List Byte :=
  let C := decClasses c t
  let slots := (List.range w).map (fun j => step + 256 * w - j)
  let sums := (List.range C).map (fun k => (slots.map (fun x => slotCount c t x k)).foldl (· + ·) 0)
  let nov := (slots.map (fun x => slotNovelty c t x)).foldl (· + ·) 0
  let a := argmax sums C
  let b := argmax sums a.1
  let base := rfld c (Reg.DEC_CLASS_BASE t) 15 0
  let score (x : Nat) : Nat := (x * 256 + w / 2) / w
  let nNov := (popAt c t (rfld c (Reg.DEC_POPS t) 7 4)).count
  let anomaly := if rflag c (Reg.DEC_POPS t) 8 ∧ nNov ≠ 0 then nov * 65536 / (w * nNov) else 0
  toBytes 2 step ++ toBytes 1 (w - 1) ++ toBytes 1 (rfld c (Reg.DEC_CTRL t) 7 4) ++
    toBytes 2 (if a.2 = 0 then 0xFFFF else base + a.1) ++ toBytes 2 (score a.2) ++
    toBytes 2 (if C ≤ 1 ∨ b.2 = 0 then 0xFFFF else base + b.1) ++ toBytes 2 (if C ≤ 1 then 0 else score b.2) ++
    toBytes 4 anomaly

/-- The decoder writes its output once both its populations are updated in the step (R213). `replay`: the step is being
replayed and leaves AGE_FULL unchanged. -/
def decoderOutput (t step : Nat) (c : Chip) : Chip :=
  let T := tile c t
  let rd := bit T.dec.seen (rfld c (Reg.DEC_POPS t) 3 0)
  let nv := bit T.dec.seen (rfld c (Reg.DEC_POPS t) 7 4)
  if decEn c t && !T.dec.done && rd && (nv || !rflag c (Reg.DEC_POPS t) 8) then
    let W := rfld c (Reg.DEC_WINDOW t) 7 0 + 1
    let full := rflag c (Reg.DEC_STATUS t) 31
    let age := (step + 2 ^ 48 - T.dec.start) % 2 ^ 48
    let w := if full then W else min W (age + 1)
    let out := decodeOut c t step w
    let (r, c) := takeFree c
    c |> engineWrite (win t + 32 * rfld c (Reg.DEC_OUT t) 11 0) out
      |> when_ (w == W && !T.seq.replay) (setBit (Reg.DEC_STATUS t) 31 true)
      |> setFld (Reg.DEC_STATUS t) 24 16 w
      |> setReg (Reg.DEC_LAST t) (BitVec.ofNat 32 (ofBytes ((out.drop 8).take 2) * 65536 + ofBytes ((out.drop 4).take 2)))
      |> putNum (Reg.DEC_CALC_CLK t) (r.toNat % (8 + (w + 1) / 2 + decClasses c t + 1))
      |> modTile t (fun T => { T with dec := { T.dec with done := true } })
  else c

/-- The start of the window forgotten: AGE_FULL clears and the next step becomes start (R213). -/
def decoderRestart (t : Nat) (c : Chip) : Chip :=
  c |> setBit (Reg.DEC_STATUS t) 31 false |> modTile t (fun T => { T with dec := { T.dec with fresh := true } })

/-- DEC_CTRL.CLEAR (R215): ignored while SEQ_EN is 1. -/
def decoderClear (t : Nat) (c : Chip) : Chip :=
  if seqEn c t then c else forAll (fun k c => zeroSlot t k c) (List.range 256) c |> decoderRestart t

/-- DEC_CLEAR. -/
def execDecClear (t : Fin 8192) (s : State) : Host.Outcome State Fault Refusal := done s (atTile t.val (decoderClear t.val) s.chip)

end Sys2Proof.Machine
end

