-- ==== Sys2Proof/Machine/Neuron.lean ====
section
/-!
DEFINITION. The neuron engine: the carry, the UPDATE word, emission and re-emission (R121 to R137, R226, R231, R353).
-/

namespace Sys2Proof.Machine

/-- A bitmap kept under a key, empty where none is listed. -/
def bmp (m : Sparse (BitVec 1024)) (k : Nat) : BitVec 1024 := mapGet (fun _ => 0) m k

/-- A bitmap set under a key. -/
def setBmp (k : Nat) (v : BitVec 1024) (m : Sparse (BitVec 1024)) : Sparse (BitVec 1024) := mapPut (fun _ => 0) m k v

/-- Bit `i` of a bitmap set to `b`. -/
def bmpPut (v : BitVec 1024) (i : Nat) (b : Bool) : BitVec 1024 :=
  let m : BitVec 1024 := BitVec.ofNat 1024 (2 ^ i)
  if b then v ||| m else v &&& ~~~ m

/-- The working slot's number (Table 4.6). -/
def workSlot (c : Chip) (t : Nat) : Nat := (ringHead c t + 1) % 3

/-- The step's number low 16 bits that tile `t`'s engine uses. -/
def tileStep16 (c : Chip) (t : Nat) : Nat := tileStep c t % 65536

/-! ### The carry (R124) -/

/-- Whether line `l` of a bitmap has any bit. -/
def lineAny (v : BitVec 1024) (l : Nat) : Bool := decide ((v.toNat / 2 ^ (4 * l)) % 16 ≠ 0)

/-- One line copied from the start slot into the working slot. -/
def copyLine (t head work l : Nat) (c : Chip) : Chip :=
  let src := nrnAddr c t head (4 * l)
  let bs := bytesAt c src 64
  c |> engineRead t src 64 |> engineWrite (nrnAddr c t work (4 * l)) bs

/-- carry of R124. -/
def carry (t : Nat) (c : Chip) : Chip :=
  let head := ringHead c t
  let work := (head + 1) % 3
  let prev := (head + 2) % 3
  let N := (tile c t).nrn
  let set0 := bmp N.upd head ||| bmp N.upd prev
  let set_ := if 0 < N.unionLeft then set0 ||| bmp N.upd work else set0
  let lines := (List.range (neuronsOf c t / 4)).filter (lineAny set_)
  c |> modTile t (fun T => { T with nrn := { T.nrn with
      upd := setBmp work 0 T.nrn.upd
      pst := setBmp work 0 T.nrn.pst
      unionLeft := T.nrn.unionLeft - 1
      carryLines := lines.length
      carryClk := 4 + lines.length } })
    |> forAll (copyLine t head work) lines

/-! ### Active neurons (R127 to R129) -/

/-- The neurons of population `j` of tile `t` that the tile has. -/
def popNeurons (c : Chip) (t j : Nat) : List Nat :=
  let p := popAt c t j
  ((List.range p.count).map (fun i => p.base + i)).filter (fun i => decide (i < neuronsOf c t) && decide (i < 1024))

/-- Marked neurons of the step (R127); every neuron in a sweep step (R129). -/
def markedSet (c : Chip) (t : Nat) : BitVec 1024 :=
  let N := (tile c t).nrn
  let s := tileStep c t
  if s % 32768 = 0 then allNeurons else bmp N.acc (readBank s) ||| bmp N.pst (ringHead c t)

/-- The active neurons of an UPDATE word of populations `first` to `last`, in ascending line order (R128), each with the
population whose range holds it. -/
def activeNeurons (c : Chip) (t first last : Nat) : List Nat :=
  let ns := ((List.range (last + 1 - first)).map (fun k => popNeurons c t (first + k))).flatten
  let m := markedSet c t
  let hot := ns.filter (fun i => m.getLsbD i)
  (List.range 1024).filter (fun i => decide (i ∈ ns) && hot.any (fun k => k / 4 == i / 4))

/-- The population among `first` to `last` whose range holds neuron `i`: the highest-numbered one where ranges overlap,
which the load checks exclude (R117; DESIGN CHOICE, log entry 171). -/
def popHolding (c : Chip) (t first last i : Nat) : Nat :=
  ((List.range (last + 1 - first)).map (fun k => first + k)).foldl
    (fun r j => let p := popAt c t j; if p.base ≤ i ∧ i < p.base + p.count then j else r) 16

/-! ### Emission (R134, R135) -/

/-- The flits of one firing: one for each route in use (R134). -/
def eventFlits (c : Chip) (t i value : Nat) (p : Pop) : List DWord :=
  let axon (r : Nat) : Nat := (bits r 35 20 + i + 65536 - p.base) % 65536
  let one (r : Nat) : DWord :=
    mkEvent p.emitKind (tileEpoch c t) 0 (openParity c t) (bits r 57 56) (bits r 55 49) (bits r 48 43) (bits r 42 36)
      (axon r) (if p.emitKind = 0 then 1 else value)
  ([p.route0, p.route1].take p.routes).map one

/-- Whether a firing of a neuron of population `j` in step `s16` is muted (R134, R231). -/
def muted (c : Chip) (t s16 j : Nat) (p : Pop) (flags : Nat) : Bool :=
  bit flags 3 || p.mute || rflag c (Reg.NRN_CTRL t) 0 ||
    (bit (rfld c (Reg.LRN_LABEL_CFG t) 31 16) j && !(tile c t).lrn.labelled.contains s16)

/-- One flit placed in the emission queue, or left pending while the queue is full (R135). -/
def emitOne (t : Nat) (f : DWord) (c : Chip) : Chip :=
  if (tile c t).nrn.emitq.length < 32 ∧ (tile c t).nrn.emitPend = [] then
    c |> modTile t (fun T => { T with nrn := { T.nrn with emitq := T.nrn.emitq ++ [f] } })
      |> tally t (fParity f) 0 (copies f)
      |> fun c => peak (Reg.NRN_EMIT_HWM t) (tile c t).nrn.emitq.length c
  else modTile t (fun T => { T with nrn := { T.nrn with emitPend := T.nrn.emitPend ++ [f] } }) c

/-- Pending flits placed in the emission queue as far as entries are free. -/
def emitPending (t : Nat) (c : Chip) : Chip :=
  let fs := (tile c t).nrn.emitPend
  c |> modTile t (fun T => { T with nrn := { T.nrn with emitPend := [] } }) |> forAll (emitOne t) fs

/-! ### The update (R130, R131) -/

/-- What an updated neuron leaves beside its state: bitmaps, counters, decoder counts and flits. -/
def afterUpdate (t i j bank : Nat) (p : Pop) (o : UpdateOut) (c : Chip) : Chip :=
  let work := workSlot c t
  c |> engineWrite (nrnAddr c t work i) (nstateBytes o.state)
    |> engineWrite (accAddr c t bank i) (toBytes 4 0)
    |> modTile t (fun T => { T with nrn := { T.nrn with
        upd := setBmp work (bmpPut (bmp T.nrn.upd work) i true) T.nrn.upd
        pst := setBmp work (bmpPut (bmp T.nrn.pst work) i o.marked) T.nrn.pst
        acc := setBmp bank (bmpPut (bmp T.nrn.acc bank) i false) T.nrn.acc
        firedNow := T.nrn.firedNow + b2n o.fired } })
    |> count (Reg.NRN_SUPPRESSED t) o.supp
    |> when_ o.fired (fun c => c
        |> count (Reg.NRN_FIRED_TOTAL t) 1
        |> decoderCount t (tileStep c t) i o.value
        |> when_ (!muted c t (tileStep16 c t) j p o.state.flags) (forAll (emitOne t) (eventFlits c t i o.value p)))

/-- One active neuron updated, or skipped when its POP names another population (R121). -/
def updateOne (t first last i : Nat) (c : Chip) : Chip :=
  let head := ringHead c t
  let a := nrnAddr c t head i
  let st := nstateOf (bytesAt c a 16)
  let j := popHolding c t first last i
  let bank := readBank (tileStep c t)
  let c := engineRead t a 16 c
  if st.pop ≠ j then
    c |> count (Reg.NRN_POP_SKIPPED t) 1 |> raise (Reg.NRN_FAULT t) 2
      |> engineWrite (accAddr c t bank i) (toBytes 4 0)
      |> modTile t (fun T => { T with nrn := { T.nrn with acc := setBmp bank (bmpPut (bmp T.nrn.acc bank) i false) T.nrn.acc } })
  else
    let p := popAt c t j
    let hot := (bmp (tile c t).nrn.acc bank).getLsbD i
    let input := if hot then signed 32 (numAt c (accAddr c t bank i) 4) else 0
    let c := if hot then engineRead t (accAddr c t bank i) 4 c else c
    let o := updateNeuron p st input (tileStep16 c t) hot (rfld c (Reg.LRN_TRACE_CFG t) 7 0)
      (rfld c (Reg.LRN_TRACE_CFG t) 15 8)
    afterUpdate t i j bank p o c

/-- Active neurons updated until a firing finds the emission queue full (R135); answers those still to come. -/
def updateRun (t first last : Nat) : List Nat → Chip → Chip × List Nat
  | [], c => (c, [])
  | i :: is, c =>
    if (tile c t).nrn.emitPend = [] then updateRun t first last is (updateOne t first last i c) else (c, i :: is)

/-- UPDATE completes (R138, R213): the counters of the step and the decoder's output. -/
def updateDone (t first last clk : Nat) (c : Chip) : Chip :=
  let popsMask := (List.range (last + 1 - first)).foldl (fun m k => m.lor (2 ^ (first + k))) 0
  c |> modTile t (fun T => { T with
        nrn := { T.nrn with updLeft := none }
        dec := { T.dec with seen := T.dec.seen.lor popsMask } })
    |> fun c => putNum (Reg.NRN_FIRED_LAST t) (tile c t).nrn.firedNow c
    |> setFld (Reg.NRN_UPDATE_CLK t) 24 0 clk
    |> decoderOutput t (tileStep c t)
    |> nextWord t

/-- UPDATE (R127 to R138): waits for update go, updates the active neurons, pauses while the emission queue is full.
A pause leaves the sequencer waiting; the word goes on when the command comes again. -/
def updateWord (t clk : Nat) (c : Chip) : Chip :=
  if atWord c t 3 then
    if goReached c t then
      let first := bits (wordAt c t) 7 4
      let last := bits (wordAt c t) 3 0
      let c := emitPending t c
      let todo := match (tile c t).nrn.updLeft with | some l => l | none => activeNeurons c t first last
      let begun := (tile c t).nrn.updLeft.isSome
      let c := when_ (!begun) (modTile t (fun T => { T with nrn := { T.nrn with
        activeNow := T.nrn.activeNow + ((todo.map (fun i => i / 4)).dedup).length
        activeLines := T.nrn.activeNow + ((todo.map (fun i => i / 4)).dedup).length } })) c
      let (c, left) := updateRun t first last todo c
      if left = [] ∧ (tile c t).nrn.emitPend = [] then updateDone t first last clk c
      else c |> modTile t (fun T => { T with nrn := { T.nrn with updLeft := some left } }) |> holdWord t
    else holdWord t c
  else c

/-- EMIT_FLIT (R135): the oldest flit of the emission queue enters the router's Local input on VC0 while the input has
room. -/
def emitFlitStep (t clk : Nat) (c : Chip) : Chip :=
  match (tile c t).nrn.emitq with
  | [] => c
  | f :: fs =>
    if inRoom c t 4 0 ∧ !rflag c (Reg.RTR_CTRL t) 0 then
      c |> modTile t (fun T => { T with nrn := { T.nrn with emitq := fs } })
        |> putWire t 4 (oneFlit 0 f)
        |> setFld (Reg.NRN_UPDATE_CLK t) 24 0 clk
        |> emitPending t
    else c

/-- At update go the flits of the closed parity still queued are dropped as late (R136). -/
def purgeEmission (t p : Nat) (c : Chip) : Chip :=
  let all := (tile c t).nrn.emitq
  let old := all.filter (fun f => fParity f == p)
  if old.isEmpty then c
  else
    let n := (old.map copies).foldl (· + ·) 0
    c |> modTile t (fun T => { T with nrn := { T.nrn with emitq := all.filter (fun f => fParity f != p) } })
      |> count (Reg.NRN_EMIT_LATE t) old.length |> raise (Reg.NRN_FAULT t) 1
      |> tally t p 2 n |> tally t p 3 n

/-- After a rewind of step `f`, the events of the neurons that fired in step f − 1 are emitted again (R353). -/
def reEmitOne (t prev16 i : Nat) (c : Chip) : Chip :=
  let st := nstateOf (bytesAt c (nrnAddr c t (ringHead c t) i) 16)
  if bit st.flags 2 && st.last == prev16 then
    let p := popAt c t st.pop
    if muted c t prev16 st.pop p st.flags then c else forAll (emitOne t) (eventFlits c t i st.lastValue p) c
  else c

/-- Every event of step f − 1 that tile `t` sent, emitted again (R353). -/
def reEmit (t f : Nat) (c : Chip) : Chip := forAll (reEmitOne t (prevStep f % 65536)) (List.range (neuronsOf c t)) c

/-! ### Meanings -/

/-- UPDATE. -/
def execUpdate (t : Fin 8192) (clk : Nat) (s : State) : Host.Outcome State Fault Refusal :=
  done s (atTile t.val (updateWord t.val clk) s.chip)

/-- EMIT_FLIT. -/
def execEmitFlit (t : Fin 8192) (clk : Nat) (s : State) : Host.Outcome State Fault Refusal :=
  done s (atTile t.val (emitFlitStep t.val clk) s.chip)

end Sys2Proof.Machine
end

