-- ==== Sys2Proof/Machine/Synapse.lean ====
section
/-!
DEFINITION. The synapse engine: scatter events, gather inputs, resident and streamed gathers, the codebook file
(R142 to R168).
-/

namespace Sys2Proof.Machine

/-- Tile `t`'s synapse engine changed. -/
def modSyn (t : Nat) (f : Syn → Syn) (c : Chip) : Chip := modTile t (fun T => { T with syn := f T.syn }) c

/-- Entry `i` of codebook `b` of the file (R147). -/
def cbEntry (c : Chip) (t b i : Nat) : Int :=
  signed 16 (mapGet (fun _ => (0 : BitVec 16)) (tile c t).syn.cb (256 * b + i)).toNat

/-- KEY_COUNT of R142. -/
def keyCount (c : Chip) (t : Nat) : Nat := min (rfld c (Reg.SYN_KEY_CFG t) 11 0) 2048

/-- The index an axon key has in region 2 (R142 step 2); at or beyond KEY_COUNT when it has none. -/
def keyIndex (c : Chip) (t k : Nat) : Nat := (k + 65536 - rfld c (Reg.SYN_KEY_CFG t) 31 16) % 65536

/-! ### Accumulators (R150) -/

/-- acc_add of R150: a term, its own saturation given, added in bank `b`. -/
def accAdd (t b tgt : Nat) (term : Int) (sat : Bool) (c : Chip) : Chip :=
  let a := accAddr c t b tgt
  let sum := signed 32 (numAt c a 4) + term
  let r := satInt 32 sum
  c |> engineReadFor t b a 4
    |> engineWrite a (toBytes 4 (unsign 32 r))
    |> modTile t (fun T => { T with nrn := { T.nrn with acc := setBmp b (bmpPut (bmp T.nrn.acc b) tgt true) T.nrn.acc } })
    |> when_ (sat || decide (r ≠ sum)) (count (Reg.SYN_ACC_SAT t) 1)

/-- An exact term saturated to 32 bits and added (R150, R175, R177). -/
def accAddExact (t b tgt : Nat) (x : Int) (c : Chip) : Chip :=
  accAdd t b tgt (satInt 32 x) (decide (satInt 32 x ≠ x)) c

/-! ### Gather inputs (R156) -/

/-- A gather input of value `v` at position `pos` of bank `b` (R156). -/
def ginWrite (t b pos v : Nat) (c : Chip) : Chip :=
  let k := 4096 * b + pos
  let S := (tile c t).syn
  if mapGet (fun _ => false) S.ginUsed k then count (Reg.SYN_GIN_LATE t) 1 c
  else
    c |> when_ (mapGet (fun _ => false) S.ginWritten k) (count (Reg.SYN_GIN_DUP t) 1)
      |> modSyn t (fun S => { S with
          gin := mapPut (fun _ => 0#8) S.gin k (BitVec.ofNat 8 v)
          ginWritten := mapPut (fun _ => false) S.ginWritten k true })

/-- The position of a gather input's key (R156). -/
def ginPos (c : Chip) (t k : Nat) : Nat := (k + 65536 - rfld c (Reg.SYN_GIN_CFG t) 31 16) % 65536

/-- GATHER_INPUT (R156): the oldest arrived event, when it is a gather input that no fence and no closed parity drops. -/
def gatherInput (t : Nat) (c : Chip) : Chip :=
  match (tile c t).evq.arrived with
  | [] => c
  | f :: _ =>
    let d := f.data
    if !fenced c t && !isLate c t d && isGatherInput c t d then
      c |> popArrived t |> tally t (fParity d) 1 1 |> ginWrite t (fParity d) (ginPos c t (fAxon d)) (fValue d)
    else c

/-- At update go the bank of the closing parity is cleared with its marks (R156). -/
def clearGin (t p : Nat) (c : Chip) : Chip :=
  let keep {β : Type} (m : Sparse β) : Sparse β := m.filter (fun e => e.1 / 4096 != p)
  modSyn t (fun S => { S with gin := keep S.gin, ginWritten := keep S.ginWritten, ginUsed := keep S.ginUsed }) c

/-! ### Scatter (R142, R146, R149 to R155, R99, R100) -/

/-- Whether the learning unit can take a feedback event now (R229, R233): none waits while learning is off (R223). -/
def canTakeFeedback (c : Chip) (t : Nat) : Bool :=
  let L := (tile c t).lrn
  !rflag c (Reg.LRN_CTRL t) 0 || L.frozen || (L.incs.isEmpty && !L.heldFb && L.mowLeft.isNone)

/-- The queue entries that may be taken (R100): those before the first FENCE entry, or that entry alone. -/
def takable : List DWord → List DWord
  | [] => []
  | f :: fs => if fFence f then [f] else f :: fs.takeWhile (fun g => !fFence g)

/-- The entry the synapse engine takes next (R99): the oldest with the key just processed, else the oldest that can be
taken. A feedback entry with that key has no preference (DESIGN CHOICE, log entry 166). -/
def nextEntry (c : Chip) (t : Nat) : Option DWord :=
  let q := (takable (tile c t).evq.queue).filter (fun f => fKind f != 6 || canTakeFeedback c t)
  match q.find? (fun f => fKind f != 6 && (tile c t).evq.lastKey == some (fAxon f)) with
  | some f => some f
  | none => q.head?

/-- The first entry equal to `f` leaves the queue; the spill moves up (R98). -/
def dequeue (t : Nat) (f : DWord) (c : Chip) : Chip :=
  c |> modTile t (fun T => { T with evq := { T.evq with queue := T.evq.queue.erase f } }) |> refillOne t

/-- The row that entry `i` with word `a` names, as a fetch reads it (R145, R151). -/
def rowOf (c : Chip) (t key i a : Nat) : Row :=
  let h := unitAt c t (aRow a)
  { key := key, index := i, entry := a, header := h
    scales := (List.range (scaleUnits (aLen a) (groupSize (aGsize a)))).map (fun k => unitAt c t (hScale h + k))
    codes := (List.range (codeUnits (aWidth a) (aLen a))).map (fun k => unitAt c t (aRow a + 1 + k)) }

/-- The reads of a row fetch for an event of parity `p`, with what their errors cause (R91). -/
def fetchReads (t p : Nat) (r : Row) (c : Chip) : Chip :=
  c |> engineReadFor t p (axonAddr c t r.index) 8
    |> engineReadFor t p (unitAddr t (aRow r.entry)) 8
    |> engineReadFor t p (unitAddr t (hScale r.header)) (8 * r.scales.length)
    |> engineReadFor t p (unitAddr t (aRow r.entry + 1)) (8 * r.codes.length)

/-- Target `j` of a row accumulated for event `f` (R149). -/
def applyTarget (t : Nat) (f : DWord) (r : Row) (j : Nat) (c : Chip) : Chip :=
  let g := j / groupSize (hGsize r.header)
  let sc := bits (r.scales.getD (g / 4) 0) (16 * (g % 4) + 15) (16 * (g % 4))
  let w := hWidth r.header
  let code := codeIn w j (r.codes.getD (j / codesPerUnit w) 0)
  let x : Int := if fKind f = 0 then 1 else (fValue f : Int)
  accAddExact t (fParity f) (aTgt r.entry + j * aStep r.entry) (termExact (cbEntry c t (hCb r.header) code) x sc) c

/-- Up to `n` more targets of the scatter event in progress (R149, R151). -/
def scatterOn (t n : Nat) (c : Chip) : Chip :=
  match (tile c t).syn.fetching with
  | none => c
  | some (f, r, j) =>
    let stop := min (hLen r.header) (j + n)
    c |> forAll (fun k c => applyTarget t f r (j + k) c) (List.range (stop - j))
      |> modSyn t (fun S => { S with fetching := if stop < hLen r.header then some (f, r, stop) else none })

/-- A row begins to be applied (R149, R154): its event is counted in SYN_EVENTS, which counts no event dropped before (DESIGN
CHOICE, log entry 169), and a learnable row is handed to the learning unit. -/
def beginRow (t : Nat) (f : DWord) (r : Row) (c : Chip) : Chip :=
  c |> count (Reg.SYN_EVENTS t) 1
    |> when_ (aLearn r.entry == 1) (modTile t (fun T => { T with lrn := { T.lrn with
        incs := T.lrn.incs ++ [(r.index, if fKind f = 0 then 1 else fValue f, fParity f)] } }))
    |> modSyn t (fun S => { S with fetching := some (f, r, 0), entry := r.index })

/-- Whether a learnable event must wait for the increment queue (R224). -/
def handoffWaits (c : Chip) (t a : Nat) : Bool := aLearn a == 1 && decide (16 ≤ (tile c t).lrn.incs.length)

/-- The header check failed (R146): counted and flagged. -/
def hdrMismatch (t : Nat) (c : Chip) : Chip := c |> count (Reg.SYN_HDR_MISMATCH t) 1 |> raise (Reg.SYN_FAULT t) 0

/-- An event taken from the queue for the synapse engine, with up to `n` of its targets (R142, R146, R149, R152). -/
def takeScatter (t n : Nat) (f : DWord) (c : Chip) : Chip :=
  let i := keyIndex c t (fAxon f)
  let taken (c : Chip) : Chip :=
    c |> dequeue t f |> modTile t (fun T => { T with evq := { T.evq with lastKey := some (fAxon f) } })
  if isGatherInput c t f then c |> taken |> ginWrite t (fParity f) (ginPos c t (fAxon f)) (fValue f)
  else if keyCount c t ≤ i then c |> taken |> count (Reg.SYN_DROP_NOKEY t) 1
  else
    match (tile c t).syn.row with
    | some r =>
      if r.key = fAxon f then
        if handoffWaits c t r.entry then c
        else c |> taken |> count (Reg.SYN_REUSES t) 1 |> beginRow t f r |> scatterOn t n
      else fetchScatter t n f i taken c
    | none => fetchScatter t n f i taken c
where
  /-- The fetch of entry `i` for event `f`. A row whose header check fails leaves the row buffer empty (DESIGN CHOICE, log
  entry 168). -/
  fetchScatter (t n : Nat) (f : DWord) (i : Nat) (taken : Chip → Chip) (c : Chip) : Chip :=
    let a := numAt c (axonAddr c t i) 8
    if aMode a ≠ 0 then c |> taken |> engineReadFor t (fParity f) (axonAddr c t i) 8 |> count (Reg.SYN_DROP_NOKEY t) 1
    else if handoffWaits c t a then c
    else
      let r := rowOf c t (fAxon f) i a
      let c := c |> taken |> count (Reg.SYN_FETCHES t) 1 |> modSyn t (fun S => { S with row := none })
      if headerOk a r.header then
        c |> fetchReads t (fParity f) r |> modSyn t (fun S => { S with row := some r }) |> beginRow t f r |> scatterOn t n
      else
        c |> engineReadFor t (fParity f) (axonAddr c t i) 8 |> engineReadFor t (fParity f) (unitAddr t (aRow a)) 8 |> hdrMismatch t

/-! ### Gathers (R157 to R165) -/

/-- DEPTH of Table 5.15. -/
def strmDepth (c : Chip) (t : Nat) : Nat := let d := rfld c (Reg.SYN_STRM_CFG t) 2 0; if d = 0 then 1 else min d 4

/-- A gather entry's word. -/
def gatherEntry (c : Chip) (t i : Nat) : Nat := numAt c (axonAddr c t i) 8

/-- Codes in one weight block (R162). -/
def blockCodes (width : Nat) : Nat := if width = 1 then 2048 else 4096

/-- Bytes of all the weights of a streamed layer (R161). -/
def weightBytes (a h : Nat) : Nat := if hWidth h = 1 then aLen a * hLen h else (aLen a * hLen h + 1) / 2

/-- Bytes of scale block `n` (R162); the last block may be shorter. -/
def scaleBytes (a h n : Nat) : Nat :=
  let g := groupSize (hGsize h)
  2 * ((min (blockCodes (hWidth h)) (aLen a * hLen h - n * blockCodes (hWidth h))) / g)

/-- Bytes of block `n` of a streamed gather: weights (`scale` 0) or scales (R162). -/
def blockBytes (g : Gather) (scale n : Nat) : Nat :=
  if scale = 0 then min 2048 (weightBytes g.word g.header - 2048 * n) else scaleBytes g.word g.header n

/-- One STREAM_READ sent to the memory (R163, R505, R506). -/
def streamRequest (t addr len scale seq : Nat) (c : Chip) : Chip :=
  let tag := seq % 256 + 256 * scale + 512 * ((tile c t).syn.pass % 16)
  let c' := modSyn t (fun S => { S with reqs := S.reqs ++ [{ tag := tag, len := len, got := 0, data := [], spoiled := false, ue := false }] }) c
  match (memTarget c addr).bind (memTap c t) with
  | none => c
  | some k =>
    if len = 0 then c
    else
      let d := tapTile k
      sendPacket t 4 (packet 3 (mkHead 4 (tileEpoch c t) 0 1 (tileX d) (tileY d) 1 t (2 * 8192 + tag))
        [mkBody (addr % 2 ^ 37 + 2 ^ 37 * (len - 1) + 2 ^ 48 * scale)]) c'

/-- Pair `n` of the running streamed gather requested (R162, R163). -/
def requestPair (t n : Nat) (c : Chip) : Chip :=
  match (tile c t).syn.run with
  | none => c
  | some g =>
    if n < g.pairs then
      let h := g.header
      let full := 2 * (blockCodes (hWidth h) / groupSize (hGsize h))
      c |> streamRequest t (g.wAddr + 2048 * n) (blockBytes g 0 n) 0 n
        |> streamRequest t (g.sAddr + full * n) (blockBytes g 1 n) 1 n
        |> modSyn t (fun S => { S with run := some { g with requested := max g.requested (n + 1) } })
    else c

/-- The running gather ends, and the one waiting behind it runs (R159). -/
def promote (t : Nat) (c : Chip) : Chip :=
  modSyn t (fun S => { S with run := S.wait, wait := none, wq := [], sq := [], reqs := [], pwait := 0, pass := S.pass + 1 }) c

/-- A gather that has come to the front begins to run: its header is checked (R146), and a streamed one requests its
first pairs (R163). One whose header fails ends at once, and the gather behind it begins. -/
def runGather (t : Nat) : Nat → Chip → Chip
  | 0, c => c
  | n + 1, c =>
    match (tile c t).syn.run with
    | none => c
    | some g =>
      let u := aRow g.word
      let c := modSyn t (fun S => { S with entry := g.entry }) c
      if headerOk g.word g.header then
        if g.streamed then
          c |> engineReadFor t g.bank (unitAddr t (u + 1)) 16
            |> modSyn t (fun S => { S with run := some { g with
                pairs := (weightBytes g.word g.header + 2047) / 2048
                wAddr := unitAt c t (u + 1) % 2 ^ 37, sAddr := unitAt c t (u + 2) % 2 ^ 37 } })
            |> forAll (requestPair t) (List.range (strmDepth c t))
        else c
      else c |> hdrMismatch t |> reportTile t 4 |> promote t |> runGather t n

/-- The gather at the front ends, and the next begins to run. -/
def endGather (t : Nat) (c : Chip) : Chip := c |> promote t |> runGather t 2

/-- The positions a gather consumes are marked (R156). -/
def markConsumed (t b a h : Nat) (c : Chip) : Chip :=
  forAll (fun i c => modSyn t (fun S =>
    { S with ginUsed := mapPut (fun _ => false) S.ginUsed (4096 * b + min (aIn a + i) 4095) true }) c) (List.range (min (hLen h) 4096)) c

/-- GATHER_BEGIN (R143, R146, R153, R156, R159, R163): the entry and the header are read here, once for the gather. -/
def gatherBegin (t : Nat) (c : Chip) : Chip :=
  if atWord c t 5 then
    let i := bits (wordAt c t) 10 0
    let S := (tile c t).syn
    if S.run.isSome && S.wait.isSome then holdWord t c
    else
      let a := gatherEntry c t i
      let b := openParity c t
      let c := engineReadFor t b (axonAddr c t i) 8 c
      if keyCount c t ≤ i ∨ aMode a = 0 ∨ aMode a = 3 then c |> hdrMismatch t |> reportTile t 4 |> nextWord t
      else
        let h := unitAt c t (aRow a)
        let g : Gather := { entry := i, word := a, header := h, wAddr := 0, sAddr := 0, bank := b
                            streamed := decide (aMode a = 2), pairs := 0, requested := 0, consumed := 0 }
        let c := c |> engineReadFor t b (unitAddr t (aRow a)) 8 |> markConsumed t b a h
        if S.run.isSome then c |> modSyn t (fun S => { S with wait := some g }) |> nextWord t
        else c |> modSyn t (fun S => { S with run := some g }) |> runGather t 2 |> nextWord t
  else c

/-- Whether a gather of entry `i` is begun and not completed. -/
def gathering (c : Chip) (t i : Nat) : Bool :=
  let S := (tile c t).syn
  S.run.any (fun g => g.entry == i) || S.wait.any (fun g => g.entry == i)

/-- GATHER_END (R159). -/
def gatherEnd (t : Nat) (c : Chip) : Chip :=
  if atWord c t 6 then (if gathering c t (bits (wordAt c t) 10 0) then holdWord t c else nextWord t c) else c

/-- The value at position `i` of bank `b` as a gather reads it (R156, R157). -/
def ginAt (c : Chip) (t b i : Nat) (sgn : Bool) : Int :=
  let v := (mapGet (fun _ => 0#8) (tile c t).syn.gin (4096 * b + i)).toNat
  if sgn then signed 8 v else v

/-- One group's partial sum (R157): `code` gives the code of input `i`. -/
def groupSum (c : Chip) (t : Nat) (g : Gather) (a h : Nat) (i0 : Nat) (code : Nat → Nat) : Int :=
  (List.range (groupSize (hGsize h))).foldl
    (fun s i => s + cbEntry c t (hCb h) (code (i0 + i)) * ginAt c t g.bank (aIn a + i0 + i) (aSigned a)) 0

/-- Group `g` of target `k` of the running resident gather accumulated (R157). -/
def residentGroup (t : Nat) (G : Gather) (a h k g : Nat) (c : Chip) : Chip :=
  let w := hWidth h
  let per := (hLen h / groupSize (hGsize h) + 3) / 4
  let u := hScale h + k * per + g / 4
  let sc := bits (unitAt c t u) (16 * (g % 4) + 15) (16 * (g % 4))
  let code (i : Nat) : Nat :=
    let j := k * hLen h + i
    codeIn w j (unitAt c t (aRow a + 1 + j / codesPerUnit w))
  let i0 := g * groupSize (hGsize h)
  let first := (k * hLen h + i0) / codesPerUnit w
  let last := (k * hLen h + i0 + groupSize (hGsize h) - 1) / codesPerUnit w
  c |> engineReadFor t G.bank (unitAddr t u) 8
    |> engineReadFor t G.bank (unitAddr t (aRow a + 1 + first)) (8 * (last + 1 - first))
    |> accAddExact t G.bank (aTgt a + k) (scaleExact (groupSum c t G a h i0 code) sc)

/-- Every group of every target of a resident gather, in order (R157). -/
def residentAll (t : Nat) (G : Gather) (a h : Nat) (c : Chip) : Chip :=
  forAll (fun k c => forAll (fun g c => residentGroup t G a h k g c) (List.range (hLen h / groupSize (hGsize h))) c)
    (List.range (aLen a)) c

/-- GATHER_DONE (R157 to R159): the running gather's sums are all in the accumulators. A resident gather adds its sums
here; a streamed one is done once its pairs are consumed. -/
def gatherDone (t clk : Nat) (c : Chip) : Chip :=
  match (tile c t).syn.run, (tile c t).syn.fetching with
  | some g, none =>
    if g.streamed then
      if g.consumed = g.pairs then c |> setFld (Reg.SYN_GATHER_CLK t) 24 0 clk |> endGather t else c
    else c |> residentAll t g g.word g.header |> setFld (Reg.SYN_GATHER_CLK t) 24 0 clk |> endGather t
  | _, _ => c

/-- A 16-bit number at byte offset `o` of a block. -/
def half (bs : List Byte) (o : Nat) : Nat := ofBytes ((bs.drop o).take 2)

/-- A consumed pair's groups accumulated (R161, R162): weight block `w` and scale block `s` of pair `n`. -/
def pairGroup (t : Nat) (G : Gather) (a h n : Nat) (w s : List Byte) (q : Nat) (c : Chip) : Chip :=
  let size := groupSize (hGsize h)
  let first := n * blockCodes (hWidth h) + q * size
  let k := first / hLen h
  let i0 := first % hLen h
  let code (i : Nat) : Nat :=
    let j := q * size + (i - i0)
    if hWidth h = 1 then (w.getD j 0#8).toNat else bits (w.getD (j / 2) 0#8).toNat (4 * (j % 2) + 3) (4 * (j % 2))
  accAddExact t G.bank (aTgt a + k) (scaleExact (groupSum c t G a h i0 code) (half s (2 * q))) c

/-- A pair consumed (Table 5.5 row 1), and the pair DEPTH further on requested (R163). -/
def consumePair (t : Nat) (G : Gather) (w s : Block) (c : Chip) : Chip :=
  let a := G.word
  let h := G.header
  let n := G.consumed
  let codes := min (blockCodes (hWidth h)) (aLen a * hLen h - n * blockCodes (hWidth h))
  c |> modSyn t (fun S => { S with wq := S.wq.drop 1, sq := S.sq.drop 1, run := some { G with consumed := n + 1 } })
    |> forAll (fun q c => pairGroup t G a h n w.data s.data q c) (List.range (codes / groupSize (hGsize h)))
    |> requestPair t (n + strmDepth c t)

/-- The sequence number at a queue's head; a free value for an empty queue, which the spec does not give. -/
def headSeq (q : List Block) (c : Chip) : Nat × Chip :=
  match q with
  | b :: _ => (b.seq, c)
  | [] => let (r, c) := takeFree c; (r.toNat % 256, c)

/-- A mark on the step tile `t` works on. -/
def markTile (t b : Nat) (c : Chip) : Chip :=
  match jobOfTile c t with
  | some j => markStep j (jobStep c j) b c
  | none => c

/-- A scale slip (R165). -/
def scaleSlip (t cause : Nat) (c : Chip) : Chip :=
  match (tile c t).syn.run with
  | none => c
  | some g =>
    let (w, c) := headSeq (tile c t).syn.wq c
    let (s, c) := headSeq (tile c t).syn.sq c
    c |> modSyn t (fun S => { S with run := none, wait := none, wq := [], sq := [], reqs := [], pwait := 0, pass := S.pass + 1 })
      |> count (Reg.SYN_SLIP_COUNT t) 1
      |> putNum (Reg.SYN_SLIP_LAST t) (mk 31 24 g.consumed + mk 23 16 w + mk 15 8 s + mk 7 6 cause)
      |> putNum (Reg.SYN_SLIP_ENTRY t) g.entry
      |> raise (Reg.SYN_FAULT t) 1
      |> reportTile t 5
      |> markTile t 1

/-- Table 5.5 applied to the heads as often as it acts at once (R164). -/
def pairing (t : Nat) : Nat → Chip → Chip
  | 0, c => c
  | n + 1, c =>
    let S := (tile c t).syn
    match S.run, S.wq, S.sq with
    | some g, w :: ws, s :: ss =>
      if S.pwait ≠ 0 ∨ S.fetching.isSome ∨ g.consumed = g.pairs then c
      else
        let e := g.consumed % 256
        if w.seq = s.seq then
          if w.seq = e then pairing t n (consumePair t g w s c) else scaleSlip t 0 c
        else if (w.seq + 1) % 256 = s.seq then
          let c := c |> count (Reg.SYN_STRM_DISCARD t) 1
            |> modSyn t (fun S => { S with wq := ws, pwait := if ws.isEmpty then 1 else 0 })
          if ws.isEmpty then c else pairing t n c
        else if (s.seq + 1) % 256 = w.seq then
          let c := c |> count (Reg.SYN_STRM_DISCARD t) 1
            |> modSyn t (fun S => { S with sq := ss, pwait := if ss.isEmpty then 2 else 0 })
          if ss.isEmpty then c else pairing t n c
        else scaleSlip t 1 c
    | _, _, _ => c

/-- A whole block has arrived (R163): it enters its queue, which ends a partner wait at that queue, and Table 5.5
applies. -/
def blockArrived (t scale : Nat) (b : Block) (c : Chip) : Chip :=
  c |> modSyn t (fun S =>
        if scale = 0 then { S with wq := S.wq ++ [b], pwait := if S.pwait = 1 then 0 else S.pwait }
        else { S with sq := S.sq ++ [b], pwait := if S.pwait = 2 then 0 else S.pwait })
    |> pairing t 600

/-- Cause UE for the step that consumes the running gather's bank (R163). -/
def reportBlock (t : Nat) (c : Chip) : Chip :=
  match (tile c t).syn.run with
  | some g => reportFor t g.bank 3 c
  | none => reportTile t 3 c

/-- A second copy of a block that the running pass asked for and has received (R164): the request its first packet opens
again, with the length of the block that TAG's sequence number last named. -/
def secondCopy (c : Chip) (t tag : Nat) : Option Req :=
  let S := (tile c t).syn
  match S.run with
  | some g =>
    if g.streamed && tag / 512 == S.pass % 16 && decide (0 < g.requested) then
      let top := g.requested - 1
      let back := (top + 256 - tag % 256) % 256
      if back ≤ top then
        some { tag := tag, len := blockBytes g (tag / 256 % 2) (top - back), got := 0, data := [], spoiled := false, ue := false }
      else none
    else none
  | none => none

/-- A reply packet of a streamed block (R163, R164, R507). A block that carried STATUS 1 is reported once, as it enters its
queue. -/
def streamPacket (t : Nat) (h : Flit) (body : List Flit) (c : Chip) : Chip :=
  let tag := fSub h.data % 8192
  let status := fSub h.data / 8192
  let poison := h.poison || body.any (fun f => f.poison)
  let asked := (tile c t).syn.reqs.find? (fun r => r.tag == tag)
  let again := if asked.isNone then secondCopy c t tag else none
  let c := match again with
    | some r => modSyn t (fun S => { S with reqs := S.reqs ++ [r] }) c
    | none => c
  match asked.or again with
  | none => c
  | some r =>
    let drop1 (S : Syn) : Syn := { S with reqs := S.reqs.erase r }
    let spoiled := r.spoiled || poison
    let r' : Req := { r with
      got := r.got + 1, data := r.data ++ bodyBytes (body.map (fun f => f.data)), spoiled := spoiled, ue := r.ue || status == 1 }
    if status = 2 ∨ status = 3 then c |> modSyn t drop1 |> count (Reg.SYN_STRM_DISCARD t) 1
    else if r'.got * 217 < r.len then modSyn t (fun S => { S with reqs := S.reqs.map (fun x => if x = r then r' else x) }) c
    else if spoiled then c |> modSyn t drop1 |> count (Reg.SYN_STRM_DISCARD t) 1
    else
      c |> modSyn t drop1 |> when_ r'.ue (reportBlock t)
        |> blockArrived t (tag / 256 % 2) { seq := tag % 256, data := r'.data.take r.len }

/-- STREAM_REPLY (R163): the first complete reply packet at the tile's Local port. -/
def streamReply (t : Nat) (c : Chip) : Chip :=
  match dmaFind c t 4 (fun _ => true) with
  | some (p, h, body) => c |> dmaDrop t p 4 |> streamPacket t h body
  | none => c

/-- PARTNER_WAIT_EXPIRE (Table 5.5 row 5). -/
def partnerExpire (t : Nat) (c : Chip) : Chip := if (tile c t).syn.pwait = 0 then c else scaleSlip t 2 c

/-- At update go a gather begun and not completed is abandoned (R160). Where the running gather and the one that waits are of
different kinds, what R160 gives for the running one's kind happens (DESIGN CHOICE, log entry 170). -/
def abandonGather (t : Nat) (c : Chip) : Chip :=
  match (tile c t).syn.run with
  | none => c
  | some g =>
    if g.streamed then scaleSlip t 3 c
    else
      c |> modSyn t (fun S => { S with run := none, wait := none }) |> raise (Reg.SYN_FAULT t) 2 |> reportTile t 4

/-- A forced update go abandons the fetch of an event of the closing parity `p` (R155). -/
def abandonFetch (t p : Nat) (c : Chip) : Chip :=
  match (tile c t).syn.fetching with
  | some (f, _, _) =>
    if fParity f = p then
      c |> modSyn t (fun S => { S with fetching := none }) |> count (Reg.TILE_DROP_LATE t) 1
        |> raise (Reg.SYN_FAULT t) 3 |> undeliver t p true
    else c
  | none => c

/-- Whether a pair of the running streamed gather is ready (R159). -/
def pairReady (c : Chip) (t : Nat) : Bool :=
  let S := (tile c t).syn
  S.run.isSome && S.pwait == 0 && !S.wq.isEmpty && !S.sq.isEmpty

/-- SCATTER_EVENT (R99, R142 to R155, R159): an event taken, which INTEGRATE must allow, or the one in progress carried on, by
up to `n` targets. -/
def scatterEvent (t n : Nat) (c : Chip) : Chip :=
  let T := tile c t
  let after (c : Chip) : Chip := if (tile c t).syn.fetching.isNone then pairing t 600 c else c
  if fenced c t then c
  else if T.syn.fetching.isSome then c |> scatterOn t n |> after
  else if !T.seq.integrate then c
  else if T.syn.run.any (fun g => !g.streamed) || pairReady c t then c
  else match nextEntry c t with
    | none => c
    | some f => if fKind f = 6 then c else c |> takeScatter t n f |> after

/-! ### The codebook file (R147, R148) -/

/-- CB_LOAD (R148). -/
def cbLoad (t : Nat) (c : Chip) : Chip := if seqEn c t then c else modSyn t (fun S => { S with cbLoading := true }) c

/-- Codebook entry `i` (of 256 × codebook + entry) copied from the store. -/
def copyCodebook (t i : Nat) (c : Chip) : Chip :=
  let u := rfld c (Reg.SYN_CB_CFG t) 14 0 + i / 4
  let v := bits (unitAt c t u) (16 * (i % 4) + 15) (16 * (i % 4))
  modSyn t (fun S => { S with cb := mapPut (fun _ => (0 : BitVec 16)) S.cb i (BitVec.ofNat 16 v) }) c

/-- CB_LOAD_DONE (R148). -/
def cbLoadDone (t : Nat) (c : Chip) : Chip :=
  if (tile c t).syn.cbLoading then
    let n := rfld c (Reg.SYN_CB_CFG t) 18 16 + 1
    c |> forAll (fun i c => engineRead t (unitAddr t (rfld c (Reg.SYN_CB_CFG t) 14 0 + i)) 8 c) (List.range (64 * n))
      |> forAll (copyCodebook t) (List.range (256 * n))
      |> modSyn t (fun S => { S with cbLoading := false, cbValid := true })
  else c

/-! ### Meanings -/

/-- SCATTER_EVENT. -/
def execScatterEvent (t : Fin 8192) (n : Nat) (s : State) : Host.Outcome State Fault Refusal :=
  done s (atTile t.val (scatterEvent t.val n) s.chip)

/-- GATHER_INPUT. -/
def execGatherInput (t : Fin 8192) (s : State) : Host.Outcome State Fault Refusal := done s (atTile t.val (gatherInput t.val) s.chip)

/-- GATHER_BEGIN. -/
def execGatherBegin (t : Fin 8192) (s : State) : Host.Outcome State Fault Refusal := done s (atTile t.val (gatherBegin t.val) s.chip)

/-- GATHER_END. -/
def execGatherEnd (t : Fin 8192) (s : State) : Host.Outcome State Fault Refusal := done s (atTile t.val (gatherEnd t.val) s.chip)

/-- GATHER_DONE. -/
def execGatherDone (t : Fin 8192) (clk : Nat) (s : State) : Host.Outcome State Fault Refusal :=
  done s (atTile t.val (gatherDone t.val clk) s.chip)

/-- STREAM_REPLY. -/
def execStreamReply (t : Fin 8192) (s : State) : Host.Outcome State Fault Refusal := done s (atTile t.val (streamReply t.val) s.chip)

/-- PARTNER_WAIT_EXPIRE. -/
def execPartnerWaitExpire (t : Fin 8192) (s : State) : Host.Outcome State Fault Refusal :=
  done s (atTile t.val (partnerExpire t.val) s.chip)

/-- CB_LOAD. -/
def execCbLoad (t : Fin 8192) (s : State) : Host.Outcome State Fault Refusal := done s (atTile t.val (cbLoad t.val) s.chip)

/-- CB_LOAD_DONE. -/
def execCbLoadDone (t : Fin 8192) (s : State) : Host.Outcome State Fault Refusal := done s (atTile t.val (cbLoadDone t.val) s.chip)

end Sys2Proof.Machine
end

