-- ==== Sys2Proof/Machine/Dma.lean ====
section
/-!
DEFINITION. The tile's DMA port: writes and reads of tile SRAM and synapse store (R88, R90, R94, R97, R110, R152).
-/

namespace Sys2Proof.Machine

/-- Whether window offset `o` of tile `t` is memory that the DMA port reaches: SRAM, or store below its capacity
(R97). -/
def inTileMemory (c : Chip) (t o : Nat) : Bool :=
  decide (o < 0x20000) || (decide (0x40000 ≤ o) && decide (o < 0x40000 + storeBytes c t))

/-- Whether the DMA port may write byte `o`: its SRAM bank is awake (R94) and it is no byte of the active schedule
(R110). -/
def dmaAllowed (c : Chip) (t o : Nat) : Bool := inTileMemory c t o && !(decide (o < 0x20000) && bankAsleep c t o)

/-- Whether byte `o` lies in the active schedule (R110). -/
def inSchedule (c : Chip) (t o : Nat) : Bool :=
  let b := schedAddr c t (rfld c (Reg.TILE_SCHED_CFG t) 10 0) - win t
  seqEn c t && decide (b ≤ o) && decide (o < b + 4 * rfld c (Reg.TILE_SCHED_CFG t) 27 16)

/-- The bytes of a transfer at `o` that fall into the 8-byte word `w`, with their offsets. -/
def wordPart (o : Nat) (bs : List Byte) (w : Nat) : List (Nat × Byte) :=
  ((List.range bs.length).zip bs).filterMap (fun p => if (o + p.1) / 8 = w then some (o + p.1, p.2) else none)

/-- One word of a DMA write (R90): a word covered only in part whose read is uncorrectable is not written. -/
def dmaWord (t w : Nat) (part : List (Nat × Byte)) (c : Chip) : Chip :=
  if part.length < 8 ∧ eccAt c (win t + 8 * w) = 2 then noteError t ((win t + 8 * w) / 8, 2) c
  else
    c |> when_ (decide (part.length < 8)) (fun c => forAll (noteError t) (eccIn c (win t + 8 * w) 8) c)
      |> forAll (fun p c => putByte (win t + p.1) p.2 c) part
      |> clearEcc (win t + 8 * w) 8

/-- Whether a transfer of `n` bytes at `o` touches the synapse store or the buffered row's axon entry (R152). -/
def spoilsRow (c : Chip) (t o n : Nat) : Bool :=
  match (tile c t).syn.row with
  | none => false
  | some r =>
    let e := axonAddr c t r.index - win t
    decide (0x40000 < o + n) || (decide (o < e + 8) && decide (e < o + n))

/-- A DMA write of `bs` at window offset `o` of tile `t` (R90, R94, R97, R110, R152). -/
def dmaWrite (t o : Nat) (bs : List Byte) (c : Chip) : Chip :=
  let all := (List.range bs.length).map (fun i => o + i)
  let asleep := all.any (fun x => decide (x < 0x20000) && bankAsleep c t x)
  let active := all.any (inSchedule c t)
  let c0 := c
  c |> when_ asleep (raise (Reg.TILE_FAULT t) 5)
    |> when_ active (raise (Reg.TILE_FAULT t) 6)
    |> when_ (spoilsRow c t o bs.length) (modSyn t (fun S => { S with row := none }))
    |> forAll (fun w c =>
        let part := (wordPart o bs w).filter (fun p => dmaAllowed c0 t p.1 && !inSchedule c0 t p.1)
        if part = [] then c else dmaWord t w part c)
      ((List.range ((o + bs.length + 7) / 8 - o / 8)).map (fun k => o / 8 + k))

/-- The bytes a DMA read of `n` bytes at `o` returns: zero where it has no effect (R94, R97). -/
def dmaBytes (c : Chip) (t o n : Nat) : List Byte :=
  (List.range n).map (fun i => if dmaAllowed c t (o + i) then byteAt c (win t + o + i) else 0#8)

/-- The marked words that a DMA read of `n` bytes at `o` reads: none where it has no effect (R94, R97). -/
def dmaMarks (c : Chip) (t o n : Nat) : List (Nat × Nat) :=
  (eccIn c (win t + o) n).filter (fun p => dmaAllowed c t (8 * p.1 - win t))

/-- Whether a DMA read meets an uncorrectable word (Table 3.4). -/
def dmaUe (c : Chip) (t o n : Nat) : Bool := (dmaMarks c t o n).any (fun p => p.2 == 2)

/-- What a DMA read leaves: errors counted and flagged, an access to a sleeping bank flagged (R94, Table 3.4). -/
def dmaReadEffect (t o n : Nat) (c : Chip) : Chip :=
  c |> when_ (((List.range n).map (fun i => o + i)).any (fun x => decide (x < 0x20000) && bankAsleep c t x))
        (raise (Reg.TILE_FAULT t) 5)
    |> forAll (noteError t) (dmaMarks c t o n)

end Sys2Proof.Machine
end

