-- ==== Sys2Proof/Machine/Mesh.lean ====
section
/-!
DEFINITION. The routers of the mesh: reception, routing, spans, credits, watchdogs, route tables, the seam's epochs and
drains, and the collective tree (R245 to R284).
-/

namespace Sys2Proof.Machine

/-! ### Routing (R255 to R262) -/

/-- The EPOCH slot a router routes a flit by (R255, R271). -/
def slotOf (c : Chip) (t : Nat) (f : DWord) : Nat := if rflag c (Reg.RTR_EPOCH t) 8 then 0 else fEpoch f

/-- The output port of a table code: none for no route (R256). -/
def codePort (k : Nat) : Option Nat := if 1 ≤ k ∧ k ≤ 4 then some (k - 1) else none

/-- XT[x] of slot `s` at router `t`. -/
def xtAt (c : Chip) (t s x : Nat) : Nat := rfld c (Reg.RTR_XT t s (x / 8)) (4 * (x % 8) + 3) (4 * (x % 8))

/-- YT[y] of slot `s` at router `t`. -/
def ytAt (c : Chip) (t s y : Nat) : Nat := rfld c (Reg.RTR_YT t s (y / 8)) (4 * (y % 8) + 3) (4 * (y % 8))

/-- The output port toward (DX, DY) (R255 rules 3 and 4, R256). -/
def tableRoute (c : Chip) (t : Nat) (f : DWord) : Option Nat :=
  let s := slotOf c t f
  if rflag c (Reg.RTR_EPOCH t) s then
    codePort (if fDx f ≠ tileX t then xtAt c t s (fDx f) else ytAt c t s (fDy f))
  else if tileX t < fDx f then some 2
  else if fDx f < tileX t then some 3
  else if tileY t < fDy f then some 1
  else some 0

/-- Whether the router of tile `t` has a Tap port: at a tap of an engine that the variant lacks it is a five-port router
(R39). -/
def hasTapPort (c : Chip) (t : Nat) : Bool := isTap t && tapFitted c (tapOf t)

/-- Whether tile `t` has a Tap port that leads to an optical engine's gateway (R259). -/
def gatewayTap (c : Chip) (t : Nat) : Bool := hasTapPort c t && isGatewayTap (tapOf t)

/-- Whether an arrived packet leaves at the Tap port (R259). -/
def leavesAtTap (c : Chip) (t : Nat) (f : DWord) : Bool :=
  if isEvent f then
    gatewayTap c t &&
      decide ((fAxon f + 65536 - rfld c (Reg.RTR_TAP_CFG t) 31 16) % 65536 < rfld c (Reg.RTR_TAP_CFG t) 15 0)
  else fTapdst f

/-- Where a packet goes from a router: nowhere, to an output, or along a span with its forward port (none at the span's
end). -/
inductive Hop
  | noRoute | out (q : Nat) | span (fwd : Option Nat)
  deriving DecidableEq, Repr

/-- Whether a span of an event that entered router `t` by port `p` is under way here (R261): at the span's first tile,
or beyond it in the span's direction. -/
def eventSpan (t p : Nat) (f : DWord) : Option (Option Nat) :=
  let x := tileX t
  let y := tileY t
  if fCast f = 1 ∧ y = fDy f then
    if fDx f ≤ fSpan f then
      if x = fDx f ∨ (fDx f < x ∧ x ≤ fSpan f ∧ p = 3) then some (if x < fSpan f then some 2 else none) else none
    else if x = fDx f ∨ (fSpan f ≤ x ∧ x < fDx f ∧ p = 2) then some (if fSpan f < x then some 3 else none) else none
  else if fCast f = 2 ∧ x = fDx f then
    let e := fSpan f % 64
    if fDy f ≤ e then
      if y = fDy f ∨ (fDy f < y ∧ y ≤ e ∧ p = 0) then some (if y < e then some 1 else none) else none
    else if y = fDy f ∨ (e ≤ y ∧ y < fDy f ∧ p = 1) then some (if e < y then some 0 else none) else none
  else none

/-- MOP of a KIND 7 head (R405). -/
def fMop (f : DWord) : Nat := fSub f / 4096

/-- Whether a COLUMN_LOAD packet that entered by port `p` is within its span at router `t` (R300). -/
def columnSpan (t p : Nat) (f : DWord) : Bool :=
  fKind f == 7 && fMop f == 0 && !fTapdst f && tileX t == fDx f &&
    (tileY t == fDy f || (decide (fDy f < tileY t) && p == 0))

/-- Where the packet with head `f` that entered by port `p` goes; `next` is the flit behind the head. `none`: a
COLUMN_LOAD's end row has not come yet (R300). -/
def hopOf (c : Chip) (t p : Nat) (f : DWord) (next : Option DWord) : Option Hop :=
  if isEvent f && fCast f == 3 then some .noRoute
  else if columnSpan t p f then
    next.map (fun b => .span (if tileY t < bits (fData b) 31 26 then some 1 else none))
  else match (if isEvent f then eventSpan t p f else none) with
    | some fwd => some (.span fwd)
    | none =>
      if fDx f = tileX t ∧ fDy f = tileY t then
        if leavesAtTap c t f then (if portPresent c t 5 then some (.out 5) else some .noRoute) else some (.out 4)
      else match tableRoute c t f with
        | some q => some (.out q)
        | none => some .noRoute

/-- The copies a flit has still to make at router `t` (R261, R278). -/
def copiesLeft (t p : Nat) (f : DWord) (copied : Bool) : Nat :=
  match eventSpan t p f with
  | some _ =>
    let d := if fCast f = 1 then (fSpan f - tileX t) + (tileX t - fSpan f)
      else (fSpan f % 64 - tileY t) + (tileY t - fSpan f % 64)
    if copied then d else d + 1
  | none => copies f

/-! ### Buffers, credits and drops -/

/-- Credits of VC `v` at output `q` of router `t` (R254). -/
def creditOf (c : Chip) (t q v : Nat) : Nat := mapGet (fun _ => 4) (router c t).credit (8 * q + v)

/-- Credits set. -/
def setCredit (t q v n : Nat) (c : Chip) : Chip :=
  modRouter t (fun R => { R with credit := mapPut (fun _ => 4) R.credit (8 * q + v) n }) c

/-- An input buffer set. -/
def setBuf (t p v : Nat) (l : List Held) (c : Chip) : Chip :=
  modRouter t (fun R => { R with buf := setList (8 * p + v) l R.buf }) c

/-- A credit sent back for a flit `f` of VC `v` that has left input `p` of router `t` (R247). The senders into the Local and
Tap inputs see the room directly. -/
def creditBack (t p v : Nat) (f : Flit) (c : Chip) : Chip :=
  if p < 4 then
    let n := neighbour t p
    freeCredit (wireKey n.1 n.2 v) f c
  else c

/-- The first flit of an input buffer leaves it. -/
def popBuf (t p v : Nat) (c : Chip) : Chip :=
  match bufAt c t p v with
  | [] => c
  | h :: rest => c |> setBuf t p v rest |> creditBack t p v h.flit

/-- The path of the packet in passage from input `p` on VC `v` (R254). -/
def pathOf (c : Chip) (t p v : Nat) : Nat := numOf (router c t).path (8 * p + v)

/-- That path set. -/
def setPath (t p v n : Nat) (c : Chip) : Chip :=
  modRouter t (fun R => { R with path := setNum (8 * p + v) n R.path }) c

/-- The input whose packet holds output `q` on VC `v`, plus 1; 0 for none (R254). -/
def allocOf (c : Chip) (t q v : Nat) : Nat := numOf (router c t).alloc (8 * q + v)

/-- That allocation set. -/
def setAlloc (t q v n : Nat) (c : Chip) : Chip :=
  modRouter t (fun R => { R with alloc := setNum (8 * q + v) n R.alloc }) c

/-- Whether the rest of a dropped packet is still to come in or behind input buffer `p` on VC `v` (R257, R264). -/
def droppingOf (c : Chip) (t p v : Nat) : Bool := mapGet (fun _ => false) (router c t).dropping (8 * p + v)

/-- That mark set. -/
def setDropping (t p v : Nat) (b : Bool) (c : Chip) : Chip :=
  modRouter t (fun R => { R with dropping := mapPut (fun _ => false) R.dropping (8 * p + v) b }) c

/-- Whether the rest of a packet whose head had a bad CHECK is still to come into input `p` on VC `v` (R251). -/
def rxDroppingOf (c : Chip) (t p v : Nat) : Bool := mapGet (fun _ => false) (router c t).rxDropping (8 * p + v)

/-- That mark set. -/
def setRxDropping (t p v : Nat) (b : Bool) (c : Chip) : Chip :=
  modRouter t (fun R => { R with rxDropping := mapPut (fun _ => false) R.rxDropping (8 * p + v) b }) c

/-- Why a router drops a flit. -/
inductive Drop
  | late | noRoute | prune
  deriving DecidableEq, Repr

/-- A dropped flit counted (R257, R264, R278, R279): `n` is the copies it had still to make. -/
def countDrop (t : Nat) (why : Drop) (f : DWord) (n : Nat) (c : Chip) : Chip :=
  let m := if isEvent f then n else 0
  let c := if isEvent f then tally t (fParity f) 2 m c else c
  match why with
  | .late => c |> count (Reg.RTR_DROP_LATE t) m |> raise (Reg.RTR_FAULT t) 5 |> tally t (fParity f) 3 m
  | .noRoute => c |> count (Reg.RTR_DROP_NOROUTE t) m |> raise (Reg.RTR_FAULT t) 3
  | .prune => count (Reg.RTR_DROP_PRUNE t) m c

/-- The head-of-line flit of an input buffer dropped, and the rest of its packet with it. -/
def dropHead (t p v : Nat) (why : Drop) (h : Held) (c : Chip) : Chip :=
  c |> popBuf t p v |> countDrop t why h.flit.data (copiesLeft t p h.flit.data h.copied)
    |> setDropping t p v (!h.flit.tail)

/-- Seam row crossings counted (R273): direction 0 west to east, 1 east to west. -/
def countSeam (t q : Nat) (c : Chip) : Chip :=
  let cross (d : Nat) : Chip :=
    { c with seamCnt := setNum (2 * tileY t + d) (numOf c.seamCnt (2 * tileY t + d) + 1) c.seamCnt }
  if q = 2 ∧ tileX t = 63 then cross 0 else if q = 3 ∧ tileX t = 64 then cross 1 else c

/-- A flit sent on output `q` (R246, R254): it takes a credit and is on the wire, or at the tap's I/O-die unit. -/
def sendOut (t q : Nat) (f : Flit) (c : Chip) : Chip :=
  let c := c |> setCredit t q f.vc (creditOf c t q f.vc - 1) |> count (Reg.RTR_FLITS t q) 1 |> countSeam t q
  if q = 5 then
    let k := 8 * tapOf t + f.vc
    { c with tapIn := setList k (listOf c.tapIn k ++ [f]) c.tapIn }
  else putWire (neighbour t q).1 (neighbour t q).2 f c

/-- A copy delivered at the Local port and counted there (R245, R262, Table 9.13): events to the tile's event queue side, other packets to the DMA
port. -/
def deliver (t p : Nat) (f : Flit) (c : Chip) : Chip :=
  let c := count (Reg.RTR_FLITS t 4) 1 c
  if f.vc < 2 then modTile t (fun T => { T with evq := { T.evq with arrived := T.evq.arrived ++ [f] } }) c
  else dmaAdd t p f.vc f c

/-- A flit of a message added to its staging buffer (R289). -/
def stageFlit (t p : Nat) (f : Flit) (c : Chip) : Chip :=
  c |> count (Reg.RTR_FLITS t 4) 1 |> modTile t (fun T => { T with chn := { T.chn with staging := T.chn.staging.map (fun m =>
    if m.port = p ∧ !m.done then
      { m with body := m.body ++ [f.data], done := f.tail, poison := m.poison || f.poison } else m) } })

/-- Whether output `q` is fenced (R257, R264). -/
def outFenced (c : Chip) (t q : Nat) : Bool := rflag c (Reg.RTR_CTRL t) (8 + q)

/-- Whether output `q` was fenced by the watchdog. -/
def wdogFenced (c : Chip) (t q : Nat) : Bool := rflag c (Reg.RTR_STATUS t) q

/-- A flit sent on output `q` from input `p`, with the output VC held for its packet (R254). -/
def forward (t p v q path : Nat) (h : Held) (c : Chip) : Chip :=
  c |> popBuf t p v |> sendOut t q h.flit
    |> setAlloc t q v (if h.flit.tail then 0 else p + 1)
    |> setPath t p v (if h.flit.tail then 0 else path)

/-- Whether output `q` can take a flit of VC `v` from input `p`. -/
def canSend (c : Chip) (t p v q : Nat) : Bool :=
  decide (0 < creditOf c t q v) && (allocOf c t q v == 0 || allocOf c t q v == p + 1)

/-- The head-of-line flit, a head, moved toward output `q` where that is possible. -/
def moveTo (c : Chip) (t p v q path : Nat) (h : Held) : Option Chip :=
  if wdogFenced c t q then some (dropHead t p v .prune h c)
  else if !portPresent c t q || outFenced c t q then some (dropHead t p v .noRoute h c)
  else if canSend c t p v q then some (forward t p v q path h c) else none

/-- The head-of-line flit delivered at Local, or dropped where software has fenced that output (R257); a message's head waits for its staging buffer (R289). -/
def moveLocal (c : Chip) (t p v : Nat) (h : Held) : Option Chip :=
  if outFenced c t 4 then some (dropHead t p v .noRoute h c)
  else if v = 2 then none
  else some (c |> popBuf t p v |> deliver t p h.flit |> setPath t p v (if h.flit.tail then 0 else 5))

/-- A flit within a span (R261, R262): its local copy first, once; then it moves on, or leaves at the span's end. -/
def moveSpan (c : Chip) (t p v : Nat) (fwd : Option Nat) (h : Held) : Option Chip :=
  if !h.copied then
    let c := deliver t p h.flit c
    match bufAt c t p v with
    | _ :: rest => some (setBuf t p v ({ h with copied := true } :: rest) c)
    | [] => some c
  else match fwd with
    | none => some (c |> popBuf t p v |> setPath t p v (if h.flit.tail then 0 else 15))
    | some q =>
      if wdogFenced c t q || !portPresent c t q || outFenced c t q then
        some (c |> popBuf t p v
          |> countDrop t (if wdogFenced c t q then .prune else .noRoute) h.flit.data (copiesLeft t p h.flit.data true)
          |> setPath t p v (if h.flit.tail then 0 else 15))
      else if canSend c t p v q then some (forward t p v q (8 + q) h c) else none

/-- One move of the head-of-line flit of input `p` on VC `v`, where one is possible. -/
def moveOne (c : Chip) (t p v : Nat) : Option Chip :=
  match bufAt c t p v with
  | [] => none
  | h :: rest =>
    if droppingOf c t p v then some (c |> popBuf t p v |> setDropping t p v (!h.flit.tail))
    else if h.flit.head then
      match hopOf c t p h.flit.data (rest.head?.map (fun x => x.flit.data)) with
      | none => none
      | some .noRoute => some (dropHead t p v .noRoute h c)
      | some (.out q) => if q = 4 then moveLocal c t p v h else moveTo c t p v q (1 + q) h
      | some (.span fwd) => moveSpan c t p v fwd h
    else
      let k := pathOf c t p v
      let close (n : Nat) (c : Chip) : Chip := setPath t p v (if h.flit.tail then 0 else n) c
      if k = 0 then some (popBuf t p v c)
      else if k = 5 then
        some (if v = 2 then c |> popBuf t p v |> stageFlit t p h.flit |> close 5 |> when_ h.flit.tail (setAlloc t 4 2 0)
          else c |> popBuf t p v |> deliver t p h.flit |> close 5)
      else if k = 15 then moveSpan c t p v none h
      else if 8 ≤ k ∧ !h.copied then moveSpan c t p v (some (k - 8)) h
      else
        let q := if 8 ≤ k then k - 8 else k - 1
        if wdogFenced c t q then
          some (c |> popBuf t p v |> close k |> when_ h.flit.tail (setAlloc t q v 0))
        else if canSend c t p v q then some (forward t p v q k h c) else none

/-- The input buffers that hold a flit, the longest-waiting first (Table 9.11). -/
def waiting (c : Chip) (t : Nat) : List (Nat × Nat) :=
  let all := (List.range 6).flatMap (fun p => (List.range 6).filterMap (fun v =>
    match bufAt c t p v with
    | h :: _ => some (h.stamp, (p, v))
    | [] => none))
  (sortBy (fun e => e.1) all).map (fun e => e.2)

/-- A combined collective leaves for its parent where it can (R275). -/
def moveColl (c : Chip) (t : Nat) : Option Chip :=
  match (router c t).collOut with
  | [] => none
  | (_, q, d) :: rest =>
    let c' := modRouter t (fun R => { R with collOut := rest }) c
    if !portPresent c t q || outFenced c t q then some c'
    else if canSend c t 9 5 q then some (sendOut t q (oneFlit 5 d) c') else none

/-- The first move that is possible at router `t`, the longest wait first: a combined collective takes its turn among the
input buffers (Table 9.11). -/
def nextMove (c : Chip) (t : Nat) : Option Chip :=
  let old := match (router c t).collOut with | [] => 0 | (st, _) :: _ => st
  let bs := waiting c t
  let stampOf (b : Nat × Nat) : Nat := match bufAt c t b.1 b.2 with | h :: _ => h.stamp | [] => 0
  match (bs.filter (fun b => decide (stampOf b < old))).findSome? (fun b => moveOne c t b.1 b.2) with
  | some c' => some c'
  | none => match moveColl c t with
    | some c' => some c'
    | none => (bs.filter (fun b => decide (old ≤ stampOf b))).findSome? (fun b => moveOne c t b.1 b.2)

/-- Flits of router `t` moved, one after another, while any can (R254, Table 9.11). -/
def serve (t : Nat) : Nat → Chip → Chip
  | 0, c => c
  | n + 1, c =>
    match nextMove c t with
    | some c' => serve t n c'
    | none => c

/-- Moves enough to empty every buffer of a router, each flit with its local copy. -/
def serveAll (t : Nat) (c : Chip) : Chip := serve t 400 c

/-! ### Reception (R251, R252, R57, R271) -/

/-- Whether an event is late for the job of its destination field (R57). -/
def lateFlit (c : Chip) (f : DWord) : Bool :=
  isEvent f && (match tbOfTile c (tileAt (fDx f) (fDy f)) with
    | some j => fParity f != (tbAt c j).parity
    | none => false)

/-- A flit enters an input buffer. -/
def acceptFlit (t p : Nat) (f : Flit) (c : Chip) : Chip :=
  let st := (router c t).stamp
  c |> setBuf t p f.vc (bufAt c t p f.vc ++ [{ flit := f, stamp := st, copied := false }])
    |> modRouter t (fun R => { R with stamp := R.stamp + 1 })
    |> serveAll t

/-- A flit with a bad CHECK noted (R251). -/
def noteCheck (t : Nat) (c : Chip) : Chip := c |> count (Reg.RTR_CRC_ERR t) 1 |> raise (Reg.RTR_FAULT t) 1

/-- A flit that a fenced input discards, with its credit kept back (R252). -/
def keepCredit (t p : Nat) (f : Flit) (c : Chip) : Chip :=
  modRouter t (fun R => { R with kept := setList (8 * p + f.vc) (listOf R.kept (8 * p + f.vc) ++ [f]) R.kept }) c

/-- A flit received at input `p` of router `t` (R251, R252, R57). -/
def receive (t p : Nat) (f : Flit) (c : Chip) : Chip :=
  let ok := checkOk f.data
  if rflag c (Reg.RTR_STATUS t) (8 + p) then keepCredit t p f c
  else if f.bad then c |> raise (Reg.RTR_STATUS t) (8 + p) |> raise (Reg.RTR_FAULT t) 2 |> keepCredit t p f
  else if !ok && f.head then
    c |> noteCheck t |> creditBack t p f.vc f |> setRxDropping t p f.vc (!f.tail)
  else if !f.head && rxDroppingOf c t p f.vc then
    c |> when_ (!ok && !f.poison) (noteCheck t) |> creditBack t p f.vc f |> setRxDropping t p f.vc (!f.tail)
  else
    let c := when_ (!ok && !f.poison) (noteCheck t) c
    let f := { f with poison := f.poison || !ok }
    if f.head && fKind f.data == 3 then
      c |> creditBack t p f.vc f |> modRouter t (fun R => { R with collIn := R.collIn ++ [(p, f.data)] })
    else if f.head && decide (f.vc < 2) && lateFlit c f.data then
      c |> creditBack t p f.vc f |> countDrop t .late f.data (copiesLeft t p f.data false)
    else acceptFlit t p f c

/-- Whether a flit can enter by port `p` of tile `t`: across the seam only while its domain is ON and no half changes its
point (R419, R431). -/
def seamPasses (c : Chip) (t p : Nat) : Bool :=
  !((tileX t == 63 && p == 2) || (tileX t == 64 && p == 3)) ||
    (domOn c 95 && !rflag c Reg.PWR_HALF_W 31 && !rflag c Reg.PWR_HALF_E 31)

/-- FLIT_RX: the oldest flit on the wire into port `p` of router `t` on VC `v` arrives. While INJ_STOP is set the router
takes no new packet of VC0 to VC2 from Local or Tap (R271). -/
def flitRx (t p v : Nat) (c : Chip) : Chip :=
  match wire c t p v with
  | [] => c
  | f :: rest =>
    if !portPresent c t p || !seamPasses c t p || decide (4 ≤ (bufAt c t p v).length) then c
    else if rflag c (Reg.RTR_CTRL t) 0 && decide (4 ≤ p) && decide (v < 3) && f.head then c
    else receive t p f { c with wires := setList (wireKey t p v) rest c.wires }

/-- At update go every event of the closing parity `par` in the router's VC0 and VC1 buffers is dropped (R279). -/
def purgeBuf (t p v par : Nat) (c : Chip) : Chip :=
  let all := bufAt c t p v
  let old := all.filter (fun h => isEvent h.flit.data && fParity h.flit.data == par && lateFlit c h.flit.data)
  if old.isEmpty then c
  else
    c |> setBuf t p v (all.filter (fun h => !(isEvent h.flit.data && fParity h.flit.data == par && lateFlit c h.flit.data)))
      |> forAll (fun h c => c |> creditBack t p v h.flit
          |> countDrop t .late h.flit.data (copiesLeft t p h.flit.data h.copied)) old

/-- The purge of R279 over one router. -/
def purgeRouter (t par : Nat) (c : Chip) : Chip :=
  forAll (fun p c => c |> purgeBuf t p 0 par |> purgeBuf t p 1 par) (List.range 6) c |> serveAll t

/-! ### Credits, watchdogs and fences (R254, R264, R265) -/

/-- CREDIT_RETURN: a credit for VC `v` reaches output `q` of router `t`; a watchdog-fenced port's credits are ignored. -/
def creditReturn (t q v : Nat) (c : Chip) : Chip :=
  let k := wireKey t q v
  match listOf c.creditWires k with
  | [] => c
  | _ :: rest =>
    let c := { c with creditWires := setList k rest c.creditWires }
    if wdogFenced c t q then c else c |> setCredit t q v (min 4 (creditOf c t q v + 1)) |> serveAll t

/-- The output that the head-of-line flit of input `p` on VC `v` waits for. -/
def wantsOutput (c : Chip) (t p v : Nat) : Option Nat :=
  match bufAt c t p v with
  | h :: rest =>
    if h.flit.head then
      match hopOf c t p h.flit.data (rest.head?.map (fun x => x.flit.data)) with
      | some (.out q) => if q = 4 then none else some q
      | some (.span fwd) => fwd
      | _ => none
    else none
  | [] => none

/-- LIMIT of RTR_WDOG_CFG. -/
def wdogLimit (c : Chip) (t : Nat) : Nat := max 256 (rfld c (Reg.RTR_WDOG_CFG t) 15 0)

/-- The head flits of router `t` that wait for output `q`. -/
def waitingFor (c : Chip) (t q : Nat) : List DWord :=
  (List.range 36).filterMap (fun k =>
    if wantsOutput c t (k / 6) (k % 6) == some q then ((bufAt c t (k / 6) (k % 6)).head?).map (fun h => h.flit.data) else none)

/-- Cause PRUNE for what the fence of output `q` prunes (R264, R346): for the step that consumes each event among it, else for
the step in progress. -/
def reportPrune (t q : Nat) (c : Chip) : Chip :=
  match (((waitingFor c t q).filter isEvent).map fParity).dedup with
  | [] => reportTile t 6 c
  | ps => forAll (fun p => reportFor t p 6) ps c

/-- ROUTER_WATCHDOG (R264): a head flit, in a buffer or combined by the tree, has waited `waited` clk for VC `v` of output `q` without a credit. -/
def routerWatchdog (t q v waited : Nat) (c : Chip) : Chip :=
  if creditOf c t q v = 0 ∧ ((List.range 6).any (fun p => wantsOutput c t p v == some q) ∨
      (v = 5 ∧ (router c t).collOut.any (fun o => o.2.1 == q))) then
    let c := peak (Reg.RTR_WAIT_MAX t) (min 65535 waited) c
    if wdogLimit c t ≤ waited then
      c |> reportPrune t q
        |> setBit (Reg.RTR_CTRL t) (8 + q) true |> setBit (Reg.RTR_STATUS t) q true |> raise (Reg.RTR_FAULT t) 0
        |> serveAll t
    else c
  else c

/-- OUT_FENCE_CLEAR (R265). -/
def outFenceClear (t q : Nat) (c : Chip) : Chip :=
  if outFenced c t q then
    c |> setBit (Reg.RTR_CTRL t) (8 + q) false |> setBit (Reg.RTR_STATUS t) q false
      |> forAll (fun v c => setCredit t q v 4 c) (List.range 6) |> serveAll t
  else c

/-- INJ_STOP set (R271). -/
def injStop (t : Nat) (c : Chip) : Chip := setBit (Reg.RTR_CTRL t) 0 true c

/-! ### Route tables (R269, R271) -/

/-- Every flit router `t` holds in a buffer, with its VC. -/
def heldFlits (c : Chip) (t : Nat) : List Flit := (router c t).buf.flatMap (fun e => e.2.map (fun h => h.flit))

/-- Whether router `t` holds a flit that keeps a word of slot `s` from being written (R269, R271). -/
def slotBusy (c : Chip) (t s : Nat) : Bool :=
  if rflag c (Reg.RTR_EPOCH t) 8 then (heldFlits c t).any (fun f => decide (f.vc < 3))
  else (heldFlits c t).any (fun f => f.epoch == s)

/-- Whether block offset `o` is that of a table word. -/
def isTableWord (o : Nat) : Bool :=
  decide (0x100 ≤ o) && decide (o < 0x200) && o % 4 == 0 && decide (o % 0x80 < 0x60)

/-- ROUTE_TABLE_WRITE (R269): a word of slot 0 lies below 0x180 and one of slot 1 above. -/
def routeTableWrite (t o : Nat) (v : Word) (c : Chip) : Chip :=
  if isTableWord o then
    if slotBusy c t (if o < 0x180 then 0 else 1) then raise (Reg.RTR_FAULT t) 4 c
    else setReg (win t + 0x84000 + o) v c
  else c

/-! ### Epochs and drains (R268, R270) -/

/-- Whether the routers of timebase `j`'s fields are in compatibility mode (R271). -/
def compatTb (c : Chip) (j : Nat) : Bool :=
  (jobAt c (jobOfTb c j)).compat || (jobTiles c (jobOfTb c j)).any (fun t => rflag c (Reg.RTR_EPOCH t) 8)

/-- SEAM_EPOCH_SWITCH (R268, R271): a write with GO set replaces an armed request; while ENABLE is 0 the epoch changes at
once. -/
def seamSwitch (v : Word) (c : Chip) : Chip :=
  let j := fld v 19 16
  let e := fld v 24 24
  if !flag v 31 || compatTb c j then c
  else if !rflag c (Reg.TICK_TB_CTRL j) 31 then
    c |> setBit Reg.SEAM_EPOCH_STATUS j (e == 1) |> setBit Reg.SEAM_EPOCH_STATUS (16 + j) false
      |> modTb j (fun B => { B with switchAt := none })
  else
    let now := tickNow c j
    let T := step16 now (fld v 15 0)
    let late := decide (T ≤ now)
    let at_ := if late then nextStep now else (T % 2 ^ 48).toNat
    c |> modTb j (fun B => { B with switchAt := some (at_, e) })
      |> setBit Reg.SEAM_EPOCH_STATUS (16 + j) true
      |> when_ late (raise Reg.SEAM_FAULT 1)

/-- The flits of epoch `e` in a keyed list of wires or buffers; a collective flit has no EPOCH (Table 9.8). -/
def epochCount {α : Type} (m : Sparse (List α)) (f : α → Flit) (e : Nat) (w : Nat → Nat) : Nat :=
  (m.map (fun x => w x.1 * (x.2.filter (fun y => (f y).epoch == e && !((f y).head && fKind (f y).data == 3))).length)).foldl (· + ·) 0

/-- The sum of a drain strobe for epoch `e` (R270): flits held, plus flits sent whose credit has not come back. A flit
in a buffer behind a link is held by one unit and unacknowledged at another; one on a wire or whose credit is on its way
is unacknowledged only. -/
def drainSum (c : Chip) (e : Nat) : Nat :=
  epochCount c.wires id e (fun _ => 1) +
  (c.routers.map (fun r => epochCount r.2.buf (fun h => h.flit) e (fun k => if k / 8 = 4 then 1 else 2))).foldl (· + ·) 0 +
  epochCount c.tapIn id e (fun _ => 2) +
  (c.routers.map (fun r => epochCount r.2.kept id e (fun _ => 1))).foldl (· + ·) 0 +
  epochCount c.creditWires id e (fun _ => 1)

/-! ### The collective tree (R275 to R278) -/

/-- The key of a collective: CKIND, TB, ITEM and PARITY. -/
def collKey (f : DWord) : Nat :=
  bits f.toNat 57 54 * 1024 + bits f.toNat 53 50 * 64 + bits f.toNat 48 44 * 2 + fParity f

/-- VALUE of a collective flit. -/
def collValue (f : DWord) : Nat := bits f.toNat 43 8

/-- Combination of two values (Table 9.9). -/
def collJoin (ckind a b : Nat) : Nat := if ckind = 3 then a.land b else (a + b) % 2 ^ 36

/-- The children of router `t` in the tree: its ports that lead to one and are present. -/
def treeChildren (c : Chip) (t : Nat) : List Nat :=
  (List.range 4).filter (fun p => rflag c (Reg.RTR_TREE t) (8 + p) && portPresent c t p)

/-- The parent port of router `t` (Table 9.18): a port index, none for 0, 5 and 7. -/
def treeParent (c : Chip) (t : Nat) : Option Nat :=
  match rfld c (Reg.RTR_TREE t) 2 0 with
  | 1 => some 0 | 2 => some 1 | 3 => some 2 | 4 => some 3 | 6 => some 5 | _ => none

/-- Whether tile `t` gives its own counts to timebase `j`'s step census (R275). -/
def censusTile (c : Chip) (t j : Nat) : Bool := tbOfTile c t == some j && !fenced c t

/-- Whether router `t` has a contribution of its own to give to the collective under `key`: a tile of the timebase to the
step census, a router that latched flits to a drain. -/
def givesOwn (c : Chip) (t key : Nat) : Bool :=
  if key / 1024 = 0 then censusTile c t (key / 64 % 16) else (router c t).strobe.isSome

/-- What tile `t` contributes at once to the collective under `key`: zero, or a fenced tile's drop counts (R275). -/
def idleOwn (c : Chip) (t key : Nat) : Nat :=
  if key / 1024 = 0 ∧ tbOfTile c t = some (key / 64 % 16) ∧ 2 ≤ key / 2 % 32 then
    numOf (tile c t).census (4 * (key % 2) + key / 2 % 32)
  else 0

/-- What the subtree at `t` contributes when no router of it gives one of its own; `none` when one does. -/
def idleTree (c : Chip) (key : Nat) : Nat → Nat → Option Nat
  | 0, _ => some 0
  | n + 1, t =>
    if givesOwn c t key then none
    else (treeChildren c t).foldl
      (fun r p => r.bind (fun x => (idleTree c key n (neighbour t p).1).map (fun y => x + y)))
      (some (idleOwn c t key))

/-- `idleTree` of the whole tree below `t`; zero for a drain at whose strobe no router held a flit. -/
def idleSum (c : Chip) (key t : Nat) : Option Nat :=
  if key / 1024 ≠ 0 ∧ c.routers.all (fun r => r.2.strobe.isNone) then some 0 else idleTree c key 64 t

/-- The collective under `key` at router `t`. -/
def collAt (c : Chip) (t key : Nat) : Coll := mapGet (fun _ => { got := [], value := 0 }) (router c t).coll key

/-- A contribution from port `p` (4: the tile's own) joined (R275). -/
def addColl (t p key v : Nat) (c : Chip) : Chip :=
  let k := collAt c t key
  let k' : Coll := { got := k.got ++ [p], value := if k.got = [] then v else collJoin (key / 1024) k.value v }
  modRouter t (fun R => { R with coll := mapPut (fun _ => { got := [], value := 0 }) R.coll key k' }) c

/-- What a child or the tile itself still owes to the collective under `key`: `none` when it must be awaited. -/
def owed (c : Chip) (t key p : Nat) : Option Nat :=
  if p ∈ (collAt c t key).got then some 0
  else if p = 4 then (if givesOwn c t key then none else some (idleOwn c t key))
  else idleSum c key (neighbour t p).1

/-- The collective under `key` forwarded to the parent once every contribution is in (R275). -/
def finishColl (t key : Nat) (c : Chip) : Chip :=
  let k := collAt c t key
  if k.got = [] then c
  else
    let rest := (4 :: treeChildren c t).map (owed c t key)
    if rest.all (fun o => o.isSome) then
      let v := (rest.foldl (fun s o => s + o.getD 0) k.value) % 2 ^ 36
      let d := mkColl (key % 2) (key / 1024) (key / 64 % 16) 0 (key / 2 % 32) v
      c |> modRouter t (fun R => { R with
            coll := mapErase R.coll key
            collOut := match treeParent c t with | some q => R.collOut ++ [(R.stamp, q, d)] | none => R.collOut
            stamp := R.stamp + 1 })
        |> serveAll t
    else c

/-- COLLECTIVE_RX (R275): the oldest contribution that has reached router `t` is joined; what is complete leaves. -/
def collectiveRx (t : Nat) (c : Chip) : Chip :=
  let c := match (router c t).collIn with
    | [] => c
    | (p, d) :: rest => c |> modRouter t (fun R => { R with collIn := rest }) |> addColl t p (collKey d) (collValue d)
  forAll (finishColl t) ((router c t).coll.map (fun e => e.1)) c

/-! ### What the root taps have brought (R270, R280) -/

/-- The root taps of the collective tree. -/
def rootTaps (c : Chip) : List Nat := (List.range 8).map (48 + ·) |>.filter (tapGood c)

/-- What root tap `k` has brought of the collective under `key`: its flit, or the sum of an idle tree. -/
def rootSum (c : Chip) (key k : Nat) : Option Nat :=
  match (listOf c.tapIn (8 * k + 5)).find? (fun f => fKind f.data == 3 && collKey f.data == key) with
  | some f => some (collValue f.data)
  | none => idleSum c key (tapTile k)

/-- The flits of the collectives under `keys` taken off the root taps; their credits go back. Sums of a kind that nothing at
the control cluster awaits are taken and dropped (DESIGN CHOICE, log entry 177). -/
def takeSums (keys : List Nat) (c : Chip) : Chip :=
  let stray (k : Nat) : Bool := k / 1024 != 0 && k != 1024
  let mine (f : Flit) : Bool := fKind f.data == 3 && (keys.contains (collKey f.data) || stray (collKey f.data))
  forAll (fun tap c =>
    let fs := listOf c.tapIn (8 * tap + 5)
    { c with tapIn := setList (8 * tap + 5) (fs.filter (fun f => !mine f)) c.tapIn }
      |> forAll (freeCredit (wireKey (tapTile tap) 5 5)) (fs.filter mine))
    (rootTaps c) c

/-- Whether a flit belongs to the step census of timebase `k`. -/
def stepFlit (k : Nat) (f : DWord) : Bool := fKind f == 3 && collKey f / 64 == k

/-- The partial sums of the step census of timebase `k` gone from every router, link and root tap (R352); the credits of their
flits go back. -/
def clearSums (k : Nat) (c : Chip) : Chip :=
  let gone (m : Sparse (List Flit)) : List (Nat × Flit) := m.flatMap (fun w => (w.2.filter (fun f => stepFlit k f.data)).map (fun f => (w.1, f)))
  let keep (m : Sparse (List Flit)) : Sparse (List Flit) :=
    (m.map (fun w => (w.1, w.2.filter (fun f => !stepFlit k f.data)))).filter (fun w => !w.2.isEmpty)
  let onWires := gone c.wires
  let onTaps := gone c.tapIn
  { c with
    wires := keep c.wires
    tapIn := keep c.tapIn
    routers := c.routers.map (fun r => (r.1, { r.2 with
      coll := r.2.coll.filter (fun e => e.1 / 64 != k)
      collIn := r.2.collIn.filter (fun e => !stepFlit k e.2)
      collOut := r.2.collOut.filter (fun o => !stepFlit k o.2.2) })) }
    |> forAll (fun x => creditBack (x.1 / 64) (x.1 / 8 % 8) (x.1 % 8) x.2) onWires
    |> forAll (fun x => freeCredit (wireKey (tapTile (x.1 / 8)) 5 (x.1 % 8)) x.2) onTaps

/-! ### Drains (R270) -/

/-- The key of a DRAIN collective. -/
def drainKey : Nat := 1024

/-- The number that router `t` latches at a drain strobe for epoch `e`: flits in its buffers, and flits it has sent whose
credit has not come back. -/
def strobeOf (c : Chip) (e t : Nat) : Nat :=
  let n (l : List Flit) : Nat := epochCount [(0, l)] id e (fun _ => 1)
  let vcs (f : Nat → List Flit) : Nat := ((List.range 6).map (fun v => n (f v))).foldl (· + ·) 0
  let held := epochCount (router c t).buf (fun h => h.flit) e (fun _ => 1)
  let sent (q : Nat) : Nat :=
    let x := neighbour t q
    if portPresent c t q then
      vcs (fun v => wire c x.1 x.2 v ++ (bufAt c x.1 x.2 v).map (fun h => h.flit) ++ keptAt c x.1 x.2 v ++ listOf c.creditWires (wireKey t q v))
    else 0
  let tap := if isTap t then vcs (fun v => listOf c.tapIn (8 * tapOf t + v) ++ listOf c.creditWires (wireKey t 5 v)) else 0
  held + ((List.range 4).map sent).foldl (· + ·) 0 + tap

/-- The routers that can hold a flit or await a credit. -/
def strobeTiles (c : Chip) : List Nat :=
  let near (t : Nat) : List Nat := t :: ((List.range 4).filter (portPresent c t)).map (fun p => (neighbour t p).1)
  let keys : List Nat := (c.routers.map (fun r => r.1)).flatMap near ++ (c.wires.map (fun w => w.1 / 64)).flatMap near ++
    c.creditWires.map (fun w => w.1 / 64) ++ c.tapIn.map (fun x => tapTile (x.1 / 8))
  keys.dedup

/-- Router `t` gives the number it has latched to the DRAIN collective (R275, R276). -/
def giveStrobe (t : Nat) (c : Chip) : Chip :=
  match (router c t).strobe with
  | some n => c |> addColl t 4 drainKey n |> finishColl t drainKey
  | none => c

/-- DRAIN_GO (R270): every router latches its number, and the tree sums them on VC5; the numbers of the seam and Tap FIFOs
are added at the control cluster. Ignored while a drain is in progress. -/
def drainGo (v : Word) (c : Chip) : Chip :=
  if !flag v 31 || c.drain.isSome then c
  else
    let e := fld v 0 0
    let own := ((strobeTiles c).map (fun t => (t, strobeOf c e t))).filter (fun x => x.2 != 0)
    let total := drainSum c e
    { setReg Reg.SEAM_DRAIN_RESULT 0#32 c with
      drain := some (total - (own.map (fun x => x.2)).foldl (· + ·) 0), drains := c.drains + 1, drainEpoch := e }
      |> forAll (fun x c => modRouter x.1 (fun R => { R with strobe := some x.2 }) c) own
      |> forAll (fun x c => giveStrobe x.1 c) own

/-- DRAIN_DONE (R270): the sums of every root tap are in. -/
def drainDone (c : Chip) : Chip :=
  match c.drain with
  | none => c
  | some n =>
    let sums := (rootTaps c).map (rootSum c drainKey)
    if sums.all (fun o => o.isSome) then
      let all := n + (sums.map (fun o => o.getD 0)).foldl (· + ·) 0
      c |> takeSums [drainKey]
        |> (fun c => { c with drain := none, routers := c.routers.map (fun r => (r.1, { r.2 with strobe := none })) })
        |> putNum Reg.SEAM_DRAIN_RESULT (2 ^ 31 + min all 0xFFFFFF)
    else c

/-! ### Meanings -/

/-- FLIT_RX. -/
def execFlitRx (t : Fin 8192) (port vc : Fin 6) (s : State) : Host.Outcome State Fault Refusal :=
  done s (atTile t.val (flitRx t.val port.val vc.val) s.chip)

/-- CREDIT_RETURN. -/
def execCreditReturn (t : Fin 8192) (port vc : Fin 6) (s : State) : Host.Outcome State Fault Refusal :=
  done s (atTile t.val (creditReturn t.val port.val vc.val) s.chip)

/-- ROUTER_WATCHDOG. -/
def execRouterWatchdog (t : Fin 8192) (port vc : Fin 6) (waited : Nat) (s : State) :
    Host.Outcome State Fault Refusal :=
  done s (atTile t.val (routerWatchdog t.val port.val vc.val waited) s.chip)

/-- OUT_FENCE_CLEAR. -/
def execOutFenceClear (t : Fin 8192) (port : Fin 6) (s : State) : Host.Outcome State Fault Refusal :=
  done s (atTile t.val (outFenceClear t.val port.val) s.chip)

/-- ROUTE_TABLE_WRITE. -/
def execRouteTableWrite (t : Fin 8192) (off : BitVec 12) (value : Word) (s : State) :
    Host.Outcome State Fault Refusal :=
  done s (atTile t.val (routeTableWrite t.val off.toNat value) s.chip)

/-- INJ_STOP. -/
def execInjStop (t : Fin 8192) (s : State) : Host.Outcome State Fault Refusal := done s (atTile t.val (injStop t.val) s.chip)

/-- SEAM_EPOCH_SWITCH. -/
def execSeamEpochSwitch (value : Word) (s : State) : Host.Outcome State Fault Refusal := done s (seamSwitch value s.chip)

/-- DRAIN_GO. -/
def execDrainGo (value : Word) (s : State) : Host.Outcome State Fault Refusal := done s (drainGo value s.chip)

/-- DRAIN_DONE. -/
def execDrainDone (s : State) : Host.Outcome State Fault Refusal := done s (drainDone s.chip)

/-- COLLECTIVE_RX. -/
def execCollectiveRx (t : Fin 8192) (s : State) : Host.Outcome State Fault Refusal := done s (atTile t.val (collectiveRx t.val) s.chip)

end Sys2Proof.Machine
end

