-- ==== Sys2Proof/Machine/Channel.lean ====
section
/-!
DEFINITION. Message channels, receive rings, the broadcast receiver and maintenance packets (R285 to R305, R405).
-/

namespace Sys2Proof.Machine

/-! ### Sending (R286) -/

/-- Send slots of tile `t`'s assembler that are busy: messages whose last flit has not left for the router. -/
def sendBusy (c : Chip) (t : Nat) : Nat := ((wire c t 4 2).filter (fun f => f.tail)).length

/-- SUB of a message head (Table 10.2). -/
def messageSub (channel len result : Nat) : Nat := channel % 64 * 2048 + len % 256 * 8 + result % 2 * 4

/-- The body flits of a message read from SRAM, with the mark of those that met an uncorrectable word (Table 3.4). -/
def messageBody (c : Chip) (t src : Nat) : Nat → List (DWord × Bool)
  | 0 => []
  | n + 1 =>
    (mkBody (ofBytes (bytesAt c (win t + src) 7)), hasUe c (win t + src) 7) :: messageBody c t (src + 7) n

/-- EMIT_MESSAGE (R286): the message is handed to the assembler when a send slot is free. -/
def emitMessage (t : Nat) (c : Chip) : Chip :=
  if atWord c t 4 then
    let w := wordAt c t
    let n := bits w 25 20
    let src := 32 * bits w 19 8
    let b := bits w 4 0
    let tx := reg c (Reg.CHN_TX t n)
    if 2 ≤ sendBusy c t then holdWord t c
    else if !flag tx 31 then c |> count (Reg.CHN_TX_INVALID t) 1 |> raise (Reg.CHN_FAULT t) 2 |> nextWord t
    else
      let h := mkHead 2 (tileEpoch c t) 0 (fld tx 30 30) (fld tx 22 16) (fld tx 13 8) b t
        (messageSub (fld tx 29 24) (7 * b) (fld tx 0 0))
      let body := messageBody c t src b
      let fs := (packet 2 h (body.map (fun p => p.1))).zip (false :: body.map (fun p => p.2))
      c |> engineRead t (win t + src) (7 * b)
        |> sendPacket t 4 (fs.map (fun p => { p.1 with poison := p.2 }))
        |> count (Reg.CHN_SENT t) 1
        |> nextWord t
  else c

/-! ### Assembly (R288 to R290) -/

/-- CHANNEL of a message head. -/
def mChannel (h : DWord) : Nat := fSub h / 2048
/-- LEN of a message head. -/
def mLen (h : DWord) : Nat := fSub h / 8 % 256
/-- RESULT of a message head. -/
def mResult (h : DWord) : Bool := fSub h / 4 % 2 == 1

/-- Whether a message is well formed by its LEN and BODY (R288). -/
def wellFormed (h : DWord) : Bool :=
  (mLen h == 0 && fBody h == 0) || (decide (0 < fBody h) && decide (7 * (fBody h - 1) < mLen h) && decide (mLen h ≤ 7 * fBody h))

/-- The payload of a message. -/
def mPayload (h : DWord) (body : List DWord) : List Byte := (bodyBytes body).take (mLen h)

/-- MESSAGE_HEAD (R289): the message head that waits at input `p` for the Local port takes a free staging buffer. -/
def messageHead (t p : Nat) (c : Chip) : Chip :=
  match bufAt c t p 2 with
  | [] => c
  | h :: _ =>
    if h.flit.head && !droppingOf c t p 2 && hopOf c t p h.flit.data none == some (.out 4) &&
        decide ((tile c t).chn.staging.length < 4) && allocOf c t 4 2 == 0 then
      c |> popBuf t p 2
        |> modTile t (fun T => { T with chn := { T.chn with staging := T.chn.staging ++
            [{ head := h.flit.data, port := p, body := [], done := h.flit.tail, poison := h.flit.poison }] } })
        |> setPath t p 2 (if h.flit.tail then 0 else 5)
        |> setAlloc t 4 2 (if h.flit.tail then 0 else p + 1)
        |> count (Reg.CHN_ACCEPTED t) 1 |> count (Reg.RTR_FLITS t 4) 1
        |> serveAll t
    else c

/-! ### Rings (R292 to R297) -/

/-- CHN_RX_n_CFG.OPEN. -/
def rxOpen (c : Chip) (t n : Nat) : Bool := rflag c (Reg.CHN_RX_CFG t n) 31

/-- SIZE of ring `n`. -/
def rxSize (c : Chip) (t n : Nat) : Nat := 256 * 2 ^ min 6 (rfld c (Reg.CHN_RX_CFG t n) 27 24)

/-- Bytes in use between two pointers modulo 2 × `size`. -/
def ringUsed (size w r : Nat) : Nat := (w + 2 * size - r % (2 * size)) % (2 * size)

/-- The ring sequence number after `s` (R293). -/
def nextSeq (s : Nat) : Nat := if s = 255 then 1 else s + 1

/-- A record header (Table 10.3). -/
def recordHeader (seq type channel src len foot : Nat) : Nat :=
  mk 63 56 seq + mk 55 54 type + mk 53 48 channel + mk 44 32 src + mk 31 24 len + mk 15 0 foot

/-- A data record (Table 10.4). -/
def dataRecord (seq channel src len foot step : Nat) (payload : List Byte) : List Byte :=
  let pad := List.replicate (8 * ((len + 7) / 8) - payload.length) 0#8
  let body := toBytes 8 (recordHeader seq 1 channel src len foot) ++ payload ++ pad
  body ++ toBytes 8 step ++ toBytes 4 (crc32 body) ++ [0#8, 0#8, 0#8, BitVec.ofNat 8 seq]

/-- What a commit into a ring writes: offset and bytes of each write, the pointer and the sequence number after it;
`none` when the record does not fit (R294). -/
def ringCommit (size w r seq channel src step : Nat) (payload : List Byte) :
    Option (List (Nat × List Byte) × Nat × Nat) :=
  let len := payload.length
  let foot := 24 + 8 * ((len + 7) / 8)
  let room := size - ringUsed size w r
  let off := w % size
  let left := size - off
  let need := if foot ≤ left then foot else left + foot
  if room < need then none
  else if foot ≤ left then
    some ([(off, dataRecord seq channel src len foot step payload)], (w + need) % (2 * size), nextSeq seq)
  else
    some ([(off, toBytes 8 (recordHeader seq 2 channel 0 0 left)),
      (0, dataRecord (nextSeq seq) channel src len foot step payload)], (w + need) % (2 * size), nextSeq (nextSeq seq))

/-- A message committed to ring `n` of tile `t` (R292 to R294). -/
def commitTile (t n : Nat) (m : Staged) (c : Chip) : Chip :=
  let size := rxSize c t n
  let base := 64 * rfld c (Reg.CHN_RX_CFG t n) 10 0
  let w := rfld c (Reg.CHN_RX_WPTR t n) 14 0
  let r := rfld c (Reg.CHN_RX_RPTR t n) 14 0
  let step := match tbOfTile c t with | some j => tickNow c j | none => 0
  match ringCommit size w r (rfld c (Reg.CHN_RX_STAT t n) 23 16) n (fSrc m.head) step (mPayload m.head m.body) with
  | none => c |> count (Reg.CHN_OVERFLOW t) 1 |> raise (Reg.CHN_FAULT t) 0
  | some (ws, w', seq) =>
    let th := rfld c (Reg.CHN_RX_CFG t n) 23 16
    c |> forAll (fun x c => dmaWrite t (base + x.1) x.2 c) ws
      |> setFld (Reg.CHN_RX_STAT t n) 23 16 seq
      |> putNum (Reg.CHN_RX_WPTR t n) w'
      |> count (Reg.CHN_COMMITTED t) 1
      |> when_ (decide (th ≠ 0) && decide (64 * th ≤ ringUsed size w' r)) (raise (Reg.CHN_FAULT t) 3)

/-- A complete message in a staging buffer acted on (R290). -/
def finishMessage (t : Nat) (m : Staged) (c : Chip) : Chip :=
  let n := mChannel m.head
  if m.poison || !wellFormed m.head || mResult m.head then c |> count (Reg.CHN_POISON t) 1 |> raise (Reg.CHN_FAULT t) 1
  else if !rxOpen c t n then count (Reg.CHN_DISCARD t) 1 c
  else commitTile t n m c

/-- Whether the message in staging buffer `i` is ready to be acted on: its TAIL has come, and with FENCE set every earlier
message of its source and epoch has gone (R266). -/
def stagedReady (st : List Staged) (i : Nat) : Bool :=
  match st[i]? with
  | none => false
  | some m => m.done && (!fFence m.head || (st.take i).all (fun x => fSrc x.head != fSrc m.head || fEpoch x.head != fEpoch m.head))

/-- The staging buffer that commits next: of those ready the one of the lowest receive channel, on one channel the earlier
TAIL (Tables 9.11, 10.6). -/
def nextCommit (st : List Staged) : Option Nat :=
  (sortBy (fun i => (st[i]?.map (fun m => mChannel m.head)).getD 64) ((List.range st.length).filter (stagedReady st))).head?

/-- MESSAGE_TAIL (R290, R291): the message in staging buffer `slot`, whose TAIL has come, is discarded or committed. One
that another ready message precedes waits. -/
def messageTail (t slot : Nat) (c : Chip) : Chip :=
  let st := (tile c t).chn.staging
  match st[slot]? with
  | none => c
  | some m =>
    if nextCommit st ≠ some slot then c
    else
      c |> modTile t (fun T => { T with chn := { T.chn with staging := T.chn.staging.eraseIdx slot } })
        |> finishMessage t m |> serveAll t

/-- RPTR_WRITE (R296). -/
def rptrWrite (t n : Nat) (v : Word) (c : Chip) : Chip :=
  let size := rxSize c t n
  let r := fld v 14 0 % (2 * size)
  if !rxOpen c t n then c
  else if size < ringUsed size (rfld c (Reg.CHN_RX_WPTR t n) 14 0) r then raise (Reg.CHN_FAULT t) 4 c
  else putNum (Reg.CHN_RX_RPTR t n) r c

/-- A write of CHN_RX_n_CFG (R285, R297, Table 10.11). -/
def writeRxCfg (t n : Nat) (v : Word) (c : Chip) : Chip :=
  let old := reg c (Reg.CHN_RX_CFG t n)
  let locked := seqEn c t || flag old 31
  let new := if locked then putFld (putFld v 27 24 (fld old 27 24)) 10 0 (fld old 10 0) else v
  let new := putFld (putFld new 30 28 0) 15 11 0
  c |> setReg (Reg.CHN_RX_CFG t n) new
    |> when_ (flag v 31 && !flag old 31) (fun c => c
        |> putNum (Reg.CHN_RX_WPTR t n) 0 |> putNum (Reg.CHN_RX_RPTR t n) 0 |> setFld (Reg.CHN_RX_STAT t n) 23 16 1)

/-- RING_OPEN (R297). -/
def ringOpen (t n : Nat) (v : Word) (c : Chip) : Chip := writeRxCfg t n (putBit v 31 true) c

/-- RING_CLOSE (R297). -/
def ringClose (t n : Nat) (c : Chip) : Chip := setBit (Reg.CHN_RX_CFG t n) 31 false c

/-! ### Broadcast loading (R300 to R303) -/

/-- The receiver adopts load `id` of `nm1` + 1 blocks (R301). -/
def adoptLoad (t id nm1 expect : Nat) (c : Chip) : Chip :=
  c |> putNum (Reg.CHN_BC_MAP_LO t) 0 |> putNum (Reg.CHN_BC_MAP_HI t) 0 |> putNum (Reg.CHN_BC_CRC t) 0
    |> putNum (Reg.CHN_BC_EXPECT t) expect |> putNum (Reg.CHN_BC_STATUS t) (mk 12 8 nm1 + mk 7 0 id)

/-- The half bitmap. -/
def bcMap (c : Chip) (t : Nat) : Nat := reg2 c (Reg.CHN_BC_MAP_LO t) (Reg.CHN_BC_MAP_HI t)

/-- A half-block copy dropped (R301). -/
def bcDrop (t : Nat) (c : Chip) : Chip := c |> count (Reg.CHN_BC_DROP t) 1 |> raise (Reg.CHN_FAULT t) 5

/-- LOAD_COMPLETE (R302): a full bitmap with a matching accumulator. -/
def loadComplete (t : Nat) (c : Chip) : Chip :=
  let q := 2 * (rfld c (Reg.CHN_BC_STATUS t) 12 8 + 1)
  if bcMap c t % 2 ^ q = 2 ^ q - 1 then
    if reg c (Reg.CHN_BC_CRC t) = reg c (Reg.CHN_BC_EXPECT t) then raise (Reg.CHN_BC_STATUS t) 31 c
    else raise (Reg.CHN_FAULT t) 6 c
  else c

/-- A half-block copy at tile `t` (R301, R302). `busy`: the half-block buffer is still writing an earlier half. -/
def takeHalf (t : Nat) (busy : Bool) (poison : Bool) (body : List DWord) (c : Chip) : Chip :=
  let d0 := fData (body.getD 0 0#64)
  let n := bits d0 12 8
  let h := bits d0 13 13
  let q := 2 * n + h
  if !rflag c (Reg.CHN_BC_CTRL t) 0 then c
  else if tileY t < bits d0 25 20 ∨ bits d0 31 26 < tileY t then c
  else if poison || busy then bcDrop t c
  else
    let c := when_ (rfld c (Reg.CHN_BC_STATUS t) 7 0 != bits d0 7 0)
      (adoptLoad t (bits d0 7 0) (bits d0 18 14) (fData (body.getD 1 0#64) % 2 ^ 32)) c
    if bit (bcMap c t) q then c
    else
      let data := (bodyBytes (body.drop 2)).take 128
      let o := regionBase c t 3 - win t + 256 * n + 128 * h
      let cut := ((List.range 128).map (fun i => o + i)).any (inSchedule c t)
      let c := dmaWrite t o data c
      if cut then bcDrop t c
      else
        c |> setReg2 (Reg.CHN_BC_MAP_LO t) (Reg.CHN_BC_MAP_HI t) ((bcMap c t).lor (2 ^ q))
          |> setReg (Reg.CHN_BC_CRC t) (reg c (Reg.CHN_BC_CRC t) ^^^
              BitVec.ofNat 32 (crc32 ([BitVec.ofNat 8 n, BitVec.ofNat 8 h] ++ data)))
          |> loadComplete t

/-- A maintenance packet of operation `mop` taken from tile `t`'s Local port; one of a reserved operation is discarded
(R405). -/
def maintenance (t mop : Nat) (f : Flit → List Flit → Chip → Chip) (c : Chip) : Chip :=
  match dmaFind c t 5 (fun h => fMop h.data == mop || decide (4 ≤ fMop h.data)) with
  | none => c
  | some (p, h, body) =>
    let c := dmaDrop t p 5 c
    if fMop h.data = mop then f h body c else c

/-- Whether any flit of a packet carries POISON. -/
def anyPoison (h : Flit) (body : List Flit) : Bool := h.poison || body.any (fun f => f.poison)

/-- COLUMN_LOAD (R301). -/
def columnLoad (t : Nat) (busy : Bool) (c : Chip) : Chip :=
  maintenance t 0 (fun h body c => takeHalf t busy (anyPoison h body) (body.map (fun f => f.data)) c) c

/-- TILE_LOAD (R304). -/
def tileLoad (t : Nat) (busy : Bool) (c : Chip) : Chip :=
  maintenance t 1 (fun h body c => takeHalf t busy (anyPoison h body) (body.map (fun f => f.data)) c) c

/-- BC_CLEAR (Table 10.12). -/
def bcClear (t : Nat) (c : Chip) : Chip :=
  c |> putNum (Reg.CHN_BC_MAP_LO t) 0 |> putNum (Reg.CHN_BC_MAP_HI t) 0 |> putNum (Reg.CHN_BC_CRC t) 0
    |> setBit (Reg.CHN_BC_STATUS t) 31 false

/-- Complete tiles of field `f` (R303); a fenced tile contributes zero (R275). -/
def loadCount (c : Chip) (f : Nat) : Nat :=
  ((fieldTiles f).filter (fun t => rflag c (Reg.CHN_BC_STATUS t) 31 && !fenced c t)).length

/-- LOAD_CENSUS (R303): the words of items 0 to 15. -/
def loadCensus (c : Chip) : Chip :=
  { c with loadCensus := (List.range 16).map (fun i =>
      ((List.range 4).map (fun k => loadCount c (4 * i + k) * 2 ^ (8 * k))).foldl (· + ·) 0) }

/-! ### Echo (R405) -/

/-- A head flit back to the source `src` of a packet, at its Tap port when the source is a tap. -/
def headBack (kind epoch src body sub own : Nat) : DWord :=
  mkHead kind epoch 0 (b2n (isTap src)) (tileX src) (tileY src) body own sub

/-- ECHO (R405): the body goes back to the source as ECHO_REPLY; a packet with POISON is discarded (R251). -/
def echo (t : Nat) (c : Chip) : Chip :=
  maintenance t 2 (fun h body c =>
    if anyPoison h body then c
    else sendPacket t 4 (packet 5 (headBack 7 (fEpoch h.data) (fSrc h.data) body.length (3 * 4096) t)
      (body.map (fun f => f.data))) c) c

/-- The first complete packet at tap `k`'s I/O-die unit on VC `v`, taken off it; its credits go back to the router. -/
def tapTake (k v : Nat) (c : Chip) : Option (Flit × List Flit × Chip) :=
  match takePacket (listOf c.tapIn (8 * k + v)) with
  | some (h :: body, rest) =>
    some (h, body, forAll (freeCredit (wireKey (tapTile k) 5 v)) (h :: body) { c with tapIn := setList (8 * k + v) rest c.tapIn })
  | _ => none

/-- ECHO_REPLY (R405): delivered at a tile's Local port or at a tap. -/
def echoReply (who : Target) (c : Chip) : Chip :=
  match who with
  | .tile t => atTile t.val (maintenance t.val 3 (fun _ _ c => c)) c
  | .tap k =>
    match tapTake k.val 5 c with
    | some (h, _, c') => if fKind h.data == 7 && fMop h.data == 3 then c' else c
    | none => c

/-! ### Meanings -/

/-- EMIT_MESSAGE. -/
def execEmitMessage (t : Fin 8192) (s : State) : Host.Outcome State Fault Refusal := done s (atTile t.val (emitMessage t.val) s.chip)

/-- MESSAGE_HEAD. -/
def execMessageHead (t : Fin 8192) (port : Fin 6) (s : State) : Host.Outcome State Fault Refusal :=
  done s (atTile t.val (messageHead t.val port.val) s.chip)

/-- MESSAGE_TAIL. -/
def execMessageTail (t : Fin 8192) (slot : Fin 4) (s : State) : Host.Outcome State Fault Refusal :=
  done s (atTile t.val (messageTail t.val slot.val) s.chip)

/-- RPTR_WRITE. -/
def execRptrWrite (t : Fin 8192) (n : Fin 64) (value : Word) (s : State) : Host.Outcome State Fault Refusal :=
  done s (atTile t.val (rptrWrite t.val n.val value) s.chip)

/-- RING_OPEN. -/
def execRingOpen (t : Fin 8192) (n : Fin 64) (value : Word) (s : State) : Host.Outcome State Fault Refusal :=
  done s (atTile t.val (ringOpen t.val n.val value) s.chip)

/-- RING_CLOSE. -/
def execRingClose (t : Fin 8192) (n : Fin 64) (s : State) : Host.Outcome State Fault Refusal :=
  done s (atTile t.val (ringClose t.val n.val) s.chip)

/-- COLUMN_LOAD. -/
def execColumnLoad (t : Fin 8192) (busy : Bool) (s : State) : Host.Outcome State Fault Refusal :=
  done s (atTile t.val (columnLoad t.val busy) s.chip)

/-- TILE_LOAD. -/
def execTileLoad (t : Fin 8192) (busy : Bool) (s : State) : Host.Outcome State Fault Refusal :=
  done s (atTile t.val (tileLoad t.val busy) s.chip)

/-- BC_CLEAR. -/
def execBcClear (t : Fin 8192) (s : State) : Host.Outcome State Fault Refusal := done s (atTile t.val (bcClear t.val) s.chip)

/-- ECHO. -/
def execEcho (t : Fin 8192) (s : State) : Host.Outcome State Fault Refusal := done s (atTile t.val (echo t.val) s.chip)

/-- ECHO_REPLY. -/
def execEchoReply (target : Target) (s : State) : Host.Outcome State Fault Refusal := done s (echoReply target s.chip)

end Sys2Proof.Machine
end

