-- ==== Sys2Proof/Machine/Memory.lean ====
section
/-!
DEFINITION. The LPDDR5X controllers: regions, inline ECC, requests from the taps, streamed reads, the scrubber
(chapter "External memory", R495 to R514).
-/

namespace Sys2Proof.Machine

/-! ### Regions (R511, R512) -/

/-- Whether a region attribute word is valid: VALID set and a KIND from 1 to 6 (Table 19.6). -/
def regionValid (attr : Word) : Bool := flag attr 31 && decide (1 ≤ fld attr 10 8) && decide (fld attr 10 8 ≤ 6)

/-- The ATTR words, with base and size, of the 16 regions. -/
def memRegions (c : Chip) : List (Nat × Nat × Word) :=
  (List.range 16).map (fun n =>
    (rfld c (Reg.MEM_REGION_BASE n) 20 0, rfld c (Reg.MEM_REGION_SIZE n) 21 0, reg c (Reg.MEM_REGION_ATTR n)))

/-- Whether every byte of `n` bytes at `a` lies in a valid region whose ATTR satisfies `ok` (R512). -/
def memAllowed (c : Chip) (ok : Word → Bool) (a n : Nat) : Bool :=
  let rs := (memRegions c).filter (fun r => regionValid r.2.2 && ok r.2.2)
  (List.range ((a + n - 1) / 65536 + 1 - a / 65536)).all (fun i =>
    rs.any (fun r => decide (r.1 ≤ a / 65536 + i) && decide (a / 65536 + i < r.1 + r.2.1)))

/-- What a tile request and an encoder replay read need: a region of KIND 1 (R512). -/
def kindImage (attr : Word) : Bool := fld attr 10 8 == 1

/-- Whether two regions overlap. -/
def regionsMeet (a b : Nat × Nat × Word) : Bool :=
  regionValid a.2.2 && regionValid b.2.2 && decide (a.1 < b.1 + b.2.1) && decide (b.1 < a.1 + a.2.1)

/-- Whether any timebase is enabled. -/
def anyTimebase (c : Chip) : Bool := (List.range 16).any (fun j => rflag c (Reg.TICK_TB_CTRL j) 31)

/-- REGION_WRITE (R511): ignored when two valid regions would overlap, and for a region of KIND 1 while a timebase is
enabled. -/
def regionWrite (n word : Nat) (v : Word) (c : Chip) : Chip :=
  let a := match word with | 0 => Reg.MEM_REGION_BASE n | 1 => Reg.MEM_REGION_SIZE n | _ => Reg.MEM_REGION_ATTR n
  let mask : Word := match word with | 0 => 0x1FFFFF#32 | 1 => 0x3FFFFF#32 | _ => 0x80000703#32
  if rfld c (Reg.MEM_REGION_ATTR n) 10 8 == 1 && anyTimebase c then c
  else
    let c' := setReg a (v &&& mask) c
    let rs := (memRegions c').zip (List.range 16)
    let new := (memRegions c').getD n (0, 0, 0#32)
    if rs.any (fun r => r.2 != n && regionsMeet new r.1) then c else c'

/-! ### Lines and inline ECC (R499) -/

/-- What a 64-byte line reads as under its code: 0 good, 1 corrected, 2 uncorrectable; two errors in one line are
uncorrectable. -/
def lineError (c : Chip) (line : Nat) : Nat :=
  if memEcc c then
    match eccIn c (64 * line) 64 with
    | [] => 0
    | [e] => if e.2 = 1 then 1 else 2
    | _ => 2
  else 0

/-- A corrected error counted, and the line written back (R499). -/
def lineCorrected (m line : Nat) (c : Chip) : Chip :=
  let old := (reg c (Reg.MEM_M_CE m)).toNat
  let thr := (reg c (Reg.MEM_M_CE_THR m)).toNat
  c |> clearEcc (64 * line) 64 |> count (Reg.MEM_M_CE m) 1
    |> when_ (decide (thr ≠ 0) && decide (old < thr) && decide (thr ≤ old + 1)) (raise (Reg.MEM_M_FAULT m) 1)

/-- An uncorrectable error counted and its address recorded (R499). -/
def lineUe (m line : Nat) (scrub : Bool) (c : Chip) : Chip :=
  c |> count (Reg.MEM_M_UE m) 1
    |> putNum (Reg.MEM_M_ERR_ADDR_LO m) (64 * line % 2 ^ 32 + b2n scrub)
    |> putNum (Reg.MEM_M_ERR_ADDR_HI m) (64 * line / 2 ^ 32)
    |> raise (Reg.MEM_M_FAULT m) 2

/-- A read of one line: its error acted on. -/
def lineRead (m : Nat) (scrub : Bool) (line : Nat) (c : Chip) : Chip :=
  match lineError c line with
  | 0 => c
  | 1 => lineCorrected m line c
  | _ => lineUe m line scrub c

/-- The lines that `n` bytes at `a` touch. -/
def linesOf (a n : Nat) : List Nat := (List.range ((a + n + 63) / 64 - a / 64)).map (fun i => a / 64 + i)

/-- Whether any line of a read is uncorrectable. -/
def memReadUe (c : Chip) (a n : Nat) : Bool := (linesOf a n).any (fun l => lineError c l == 2)

/-- A read of `n` bytes at `a` by controller `m`: its errors and counts (R499). -/
def memRead (m a n : Nat) (c : Chip) : Chip :=
  c |> forAll (lineRead m false) (linesOf a n) |> count (Reg.MEM_M_RD_LINES m) (linesOf a n).length

/-- One line of a write: a line covered only in part whose read is uncorrectable is not written (R499). -/
def lineWrite (m a : Nat) (bs : List Byte) (line : Nat) (c : Chip) : Chip :=
  let lo := max a (64 * line)
  let hi := min (a + bs.length) (64 * line + 64)
  let whole := decide (hi - lo = 64)
  if !whole && lineError c line == 2 then lineUe m line false c
  else
    c |> when_ (!whole) (lineRead m false line)
      |> putBytes lo ((bs.drop (lo - a)).take (hi - lo))
      |> when_ (whole || memEcc c) (clearEcc (64 * line) 64)
      |> count (Reg.MEM_M_WR_LINES m) 1

/-- Whether a write meets a line that it cannot write. -/
def memWriteUe (c : Chip) (a n : Nat) : Bool :=
  (linesOf a n).any (fun l => lineError c l == 2 && !(decide (a ≤ 64 * l) && decide (64 * l + 64 ≤ a + n)))

/-- A write of bytes at `a` by controller `m` (R499). -/
def memWrite (m a : Nat) (bs : List Byte) (c : Chip) : Chip := forAll (lineWrite m a bs) (linesOf a bs.length) c

/-- Whether every byte of an access is usable (R498). -/
def memReach (c : Chip) (a n : Nat) : Bool :=
  memUsable c a && memUsable c (a + n - 1) && memPresent c (memController c a)

/-! ### Requests from the taps (R505 to R509) -/

/-- MEM_m_STATUS.STATE. -/
def memState (c : Chip) (m : Nat) : Nat := rfld c (Reg.MEM_M_STATUS m) 31 29

/-- Whether controller `m` serves requests: ready, with its pads not held (R424, Table 19.4). -/
def memServes (c : Chip) (m : Nat) : Bool := memState c m == 2 && !rflag c (Reg.MEM_M_STATUS m) 27

/-- The queue of controller `m`. -/
def memQueue (c : Chip) (m : Nat) : List (Nat × Flit × List Flit) := listOf c.memQ m

/-- The queue of controller `m` set, with its length in MEM_m_STATUS. -/
def setMemQueue (m : Nat) (q : List (Nat × Flit × List Flit)) (c : Chip) : Chip :=
  { setFld (Reg.MEM_M_STATUS m) 6 0 (min q.length 127) c with memQ := setList m q c.memQ }

/-- Whether a management request names a register of the control space (R534). -/
def namesControl (h : Flit) (body : List Flit) : Bool :=
  decide (fSub h.data / 8192 < 2) &&
    decide (0x200000000000 ≤ bits (fData ((body.map (fun f => f.data)).getD 0 0#64)) 47 0)

/-- One request taken from tap `k` by controller `m`, when the tap's queue has room (R508). A request for a register is
none for the memory, and a packet with POISON is discarded (R251). -/
def memAccept (m k : Nat) (c : Chip) : Chip :=
  if 32 ≤ ((memQueue c m).filter (fun e => e.1 == k)).length then c
  else match tapTake k 3 c with
    | some (h, body, c') =>
      if namesControl h body then c
      else if anyPoison h body then c'
      else setMemQueue m (memQueue c' m ++ [(k, h, body)]) c'
    | none => c

/-- Reply bytes cut into packets of 217 bytes, the last one shorter (R507). -/
def replyChunks : Nat → List Byte → List (List Byte)
  | 0, _ => []
  | n + 1, bs => if bs.length ≤ 217 then [bs] else bs.take 217 :: replyChunks n (bs.drop 217)

/-- A reply of the controller at tap `k` to request head `h`: it returns to the tile (R505, R507). -/
def memReply (k : Nat) (h : DWord) (status : Nat) (data : List Byte) (c : Chip) : Chip :=
  let sub := status * 8192 + fSub h % 8192
  forAll (fun ch c =>
    let body := bodyFlits ((ch.length + 6) / 7) ch
    sendPacket (tapTile k) 5 (packet 4
      (mkHead 5 (fEpoch h) 0 0 (tileX (fSrc h)) (tileY (fSrc h)) body.length (tapTile k) sub) body) c)
    (replyChunks 11 data) c

/-- What controller `m` finds of an access of `n` bytes at `a` by a tile: 0 allowed, 2 no memory there, 3 denied. -/
def memCheck (c : Chip) (m a n : Nat) : Nat :=
  if !memReach c a n || memController c a != m then 2 else if memAllowed c kindImage a n then 0 else 3

/-- A denied access counted (R512). -/
def memDenied (m : Nat) (tileRequest : Bool) (c : Chip) : Chip :=
  c |> count Reg.MEM_DENIED 1 |> when_ tileRequest (raise (Reg.MEM_M_FAULT m) 0)

/-- OP of a management request. -/
def rqOp (h : DWord) : Nat := fSub h / 8192

/-- Whether a request of OP 0 or 1 is malformed (R543). -/
def rqMalformed (op : Nat) (body : List Flit) : Bool :=
  let d := fData ((body.map (fun f => f.data)).getD 0 0#64)
  let len := bits d 55 48 + 1
  if op = 0 then decide (217 < len) || body.length != 1 else decide (210 < len) || body.length != 1 + (len + 6) / 7

/-- A read of `n` bytes at `a` answered (R499, R507). -/
def serveRead (m k : Nat) (h : DWord) (a n : Nat) (c : Chip) : Chip :=
  match memCheck c m a n with
  | 0 =>
    let ue := memReadUe c a n
    c |> memRead m a n |> memReply k h (b2n ue) (bytesAt c a n)
  | 2 => memReply k h 2 [] c
  | _ => c |> memDenied m true |> memReply k h 3 []

/-- A write of `bs` at `a` answered (R499). -/
def serveWrite (m k : Nat) (h : DWord) (a : Nat) (bs : List Byte) (c : Chip) : Chip :=
  match memCheck c m a bs.length with
  | 0 =>
    let ue := memWriteUe c a bs.length
    c |> memWrite m a bs |> memReply k h (b2n ue) []
  | 2 => memReply k h 2 [] c
  | _ => c |> memDenied m true |> memReply k h 3 []

/-- The request `h` with its body served by controller `m` (R506, R543). -/
def serveRequest (m k : Nat) (h : Flit) (body : List Flit) (c : Chip) : Chip :=
  let ds := body.map (fun f => f.data)
  let d := fData (ds.getD 0 0#64)
  let op := rqOp h.data
  let c := count (Reg.MEM_M_REQS m) 1 c
  if op = 0 ∨ op = 1 then
    let a := bits d 47 0
    let len := bits d 55 48 + 1
    if rqMalformed op body then memReply k h.data 3 [] c
    else if op = 0 then serveRead m k h.data a len c
    else serveWrite m k h.data a ((bodyBytes (ds.drop 1)).take len) c
  else if op = 2 then
    let a := bits d 36 0
    let len := bits d 47 37 + 1
    if 2048 < a % 2048 + len ∨ body.length ≠ 1 then memReply k h.data 3 [] c else serveRead m k h.data a len c
  else memReply k h.data 3 [] c

/-- Controller `m` accepts one request from each of its taps, in ascending X, and then serves its oldest request when
that one is a STREAM_READ (`stream`) or is none (R508, R509). -/
def memCycle (m : Nat) (stream : Bool) (c : Chip) : Chip :=
  let c := forAll (memAccept m) (memoryTaps m) c
  if memServes c m then
    match memQueue c m with
    | [] => c
    | (k, h, body) :: rest =>
      if (rqOp h.data == 2) == stream then c |> setMemQueue m rest |> serveRequest m k h body else c
  else c

/-! ### The scrubber (R500) and training (R502) -/

/-- Lines of usable data of one controller. -/
def memLines (c : Chip) : Nat := (if memEcc c then 31 else 32) * 2 ^ 24

/-- The device line of local line `l` of controller `m` (Table 19.2). -/
def deviceLine (c : Chip) (m l : Nat) : Nat :=
  if memLinear c then m * 2 ^ 29 + l else l / 32 * 128 + m * 32 + l % 32

/-- SCRUB_READ (R500): one line read and corrected; the last line of a pass completes it. -/
def scrubRead (m : Nat) (c : Chip) : Chip :=
  if rflag c Reg.MEM_SCRUB_CFG 31 && memPresent c m && memServes c m && (memQueue c m).isEmpty then
    let l := numOf c.scrubAt m
    let last := decide (memLines c ≤ l + 1)
    let c := lineRead m true (deviceLine c m l) c
    let c := { c with
      scrubAt := setNum m (if last then 0 else l + 1) c.scrubAt
      scrubPass := if last then setNum m (numOf c.scrubPass m + 1) c.scrubPass else c.scrubPass }
    when_ last (putNum Reg.MEM_SCRUB_PASSES
      ((((List.range 4).filter (memPresent c)).map (numOf c.scrubPass)).foldl min (numOf c.scrubPass m))) c
  else c

/-- Stage 5 of a warm start, in which the saved training values are restored (Table 14.2). -/
def restoring (c : Chip) : Bool := rfld c Reg.BOOT_STATUS 31 28 == 5 && rflag c Reg.BOOT_STATUS 27

/-- CONTROLLER_TRAINED (R397, R501, R502): a training controller becomes ready; at a warm start one that its saved values did not
restore has been trained in full. -/
def controllerTrained (m : Nat) (restored : Bool) (c : Chip) : Chip :=
  if memState c m = 1 then
    c |> setFld (Reg.MEM_M_STATUS m) 31 29 2 |> setBit (Reg.MEM_M_STATUS m) 28 restored
      |> when_ (restoring c && !restored) (raise (Reg.MEM_M_FAULT m) 3)
  else c

/-! ### Meanings -/

/-- MEM_REQUEST. -/
def execMemRequest (m : Fin 4) (s : State) : Host.Outcome State Fault Refusal := done s (memCycle m.val false s.chip)

/-- STREAM_READ. -/
def execStreamRead (m : Fin 4) (s : State) : Host.Outcome State Fault Refusal := done s (memCycle m.val true s.chip)

/-- SCRUB_READ. -/
def execScrubRead (m : Fin 4) (s : State) : Host.Outcome State Fault Refusal := done s (scrubRead m.val s.chip)

/-- REGION_WRITE. -/
def execRegionWrite (n : Fin 16) (word : Fin 3) (value : Word) (s : State) : Host.Outcome State Fault Refusal :=
  done s (regionWrite n.val word.val value s.chip)

/-- CONTROLLER_TRAINED. -/
def execControllerTrained (m : Fin 4) (restored : Bool) (s : State) : Host.Outcome State Fault Refusal :=
  done s (controllerTrained m.val restored s.chip)

end Sys2Proof.Machine
end

