-- ==== Sys2Proof/Machine/Encoder.lean ====
section
/-!
DEFINITION. The stream ports and encoders (R180 to R189, R191 to R211).
-/

namespace Sys2Proof.Machine

/-! ### Angles (R201) -/

/-- ⌊√n⌋ for n below 4^k, bit by bit. -/
def isqrtBits (n : Nat) : Nat → Nat → Nat
  | 0, r => r
  | k + 1, r => isqrtBits n k (if (r + 2 ^ k) * (r + 2 ^ k) ≤ n then r + 2 ^ k else r)

/-- z of R201: ⌊√(I² + Q²)⌋. -/
def magnitude (x : Int × Int) : Nat := isqrtBits (x.1 * x.1 + x.2 * x.2).toNat 17 0

/-- The fixed-point scale of the angles: 2^160. -/
def angleOne : Int := 2 ^ 160

/-- The arctangent series at `t`, from term `k` on: `p` is the power of `t`, `t2` its square. -/
def atanSeries (t2 : Int) : Nat → Int → Int → Int → Int
  | 0, _, _, acc => acc
  | n + 1, p, k, acc => atanSeries t2 n (-(p * t2) / angleOne) (k + 2) (acc + p / k)

/-- arctan of a fixed-point value between −0.42 and 0.42. -/
def atanSmall (t : Int) : Int := atanSeries (t * t / angleOne) 70 t 1 0

/-- π in fixed point, by Machin's formula. -/
def anglePi : Int := 4 * (4 * atanSmall (angleOne / 5) - atanSmall (angleOne / 239))

/-- arctan of y / x for 0 ≤ y ≤ x, 0 < x. -/
def atanRatio (y x : Int) : Int :=
  if 5 * y ≤ 2 * x then atanSmall (y * angleOne / x) else anglePi / 4 + atanSmall ((y - x) * angleOne / (y + x))

/-- The angle of a complex value that is not zero, in fixed point, −π < θ ≤ π. -/
def angleFix (x y : Int) : Int :=
  let ax := |x|
  let ay := |y|
  let q := if ay ≤ ax then atanRatio ay ax else anglePi / 2 - atanRatio ax ay
  let h := if x < 0 then anglePi - q else q
  if y < 0 then -h else h

/-- The angle in units of π / 32,768, rounded with halfway values toward +∞ and wrapped to 16 bits; 0 for zero (R201). -/
def angleUnits (x y : Int) : Int :=
  if x = 0 ∧ y = 0 then 0 else signed 16 (unsign 16 ((65536 * angleFix x y + anglePi) / (2 * anglePi)))

/-- The angle of a × conj(b) (Table 7.2). -/
def phaseDiff (a b : Int × Int) : Int := angleUnits (a.1 * b.1 + a.2 * b.2) (a.2 * b.1 - a.1 * b.2)

/-! ### Configuration (R191, R197, R200 to R204) -/

/-- Encoder `p`. -/
def enc (c : Chip) (p : Nat) : Enc := mapGet (fun _ => {}) c.encs p

/-- Encoder `p` changed. -/
def modEnc (p : Nat) (f : Enc → Enc) (c : Chip) : Chip := { c with encs := mapPut (fun _ => {}) c.encs p (f (enc c p)) }

/-- ENC_STATUS.STATE. -/
def encState (c : Chip) (p : Nat) : Nat := rfld c (Reg.ENC_STATUS p) 31 29

/-- ENC_STATUS.STATE set. -/
def setEncState (p s : Nat) (c : Chip) : Chip := setFld (Reg.ENC_STATUS p) 31 29 s c

/-- ENC_CTRL.TB. -/
def encTb (c : Chip) (p : Nat) : Nat := rfld c (Reg.ENC_CTRL p) 15 12

/-- ENC_CTRL.JOB. -/
def encJob (c : Chip) (p : Nat) : Nat := rfld c (Reg.ENC_CTRL p) 11 8

/-- ENC_CTRL.SRC: the replay source. -/
def encReplays (c : Chip) (p : Nat) : Bool := rflag c (Reg.ENC_CTRL p) 1

/-- Whether stream port `p`'s domain is ON (R192, R419). -/
def portOn (c : Chip) (p : Nat) : Bool := domOn c (64 + p)

/-- ENC_LINK_STATUS: the link is in data phase. -/
def linkUp (c : Chip) (p : Nat) : Bool := rflag c (Reg.ENC_LINK_STATUS p) 0

/-- CHAN_CFG.CH_EN. -/
def chanOn (c : Chip) (p : Nat) : Bool := rflag c (Reg.ENC_CHAN_CFG p) 31

/-- Samples are complex: M = 2. -/
def complexIn (c : Chip) (p : Nat) : Bool := rflag c (Reg.ENC_LINK_CFG p) 10

/-- Samples are 12-bit packed. -/
def packed12 (c : Chip) (p : Nat) : Bool := rflag c (Reg.ENC_LINK_CFG p) 11

/-- Bins B of the filter bank. -/
def binsOf (c : Chip) (p : Nat) : Nat := 2 ^ rfld c (Reg.ENC_CHAN_CFG p) 3 0

/-- Samples of one hop (R200). -/
def hopOfBank (c : Chip) (p : Nat) : Nat := if rflag c (Reg.ENC_CHAN_CFG p) 15 then binsOf c p / 2 else binsOf c p

/-- COUNT of FEAT_CFG. -/
def featCount (c : Chip) (p : Nat) : Nat := rfld c (Reg.ENC_FEAT_CFG p) 12 0

/-- H of R182. -/
def rotSize (c : Chip) (p : Nat) : Nat :=
  match rfld c (Reg.QNT_CFG p) 1 0 with | 0 => 1 | k + 1 => 16 * 2 ^ k

/-- Groups of an encoder. -/
def groupsOf (c : Chip) (p : Nat) : Nat := (featCount c p + rotSize c p - 1) / rotSize c p

/-- Converter samples of one replay interval (R196). -/
def samplesPerInterval (c : Chip) (p : Nat) : Nat := (if complexIn c p then 2 else 1) * (reg c (Reg.ENC_SPT p)).toNat

/-- ENC_PIPE_LAT of the configuration as programmed (R197). -/
def pipeLatOf (c : Chip) (p : Nat) : Nat :=
  (Config.pipeLat [reg c (Reg.ENC_LINK_CFG p), reg c (Reg.ENC_CHAN_CFG p), reg c (Reg.ENC_FEAT_CFG p),
    reg c (Reg.ENC_SEG p), reg c (Reg.QNT_CFG p)]).toNat

/-- Whether the JESD204C parameters keep R191 and Table 7.11. -/
def linkLegal (c : Chip) (p : Nat) : Bool :=
  let v := reg c (Reg.ENC_LINK_CFG p)
  let l := fld v 9 8 + 1
  let m := if complexIn c p then 2 else 1
  let bitsPerFrame := m * 2 ^ fld v 13 12 * (if packed12 c p then 12 else 16)
  decide (fld v 31 24 ≤ (fld v 21 20 + 1) * 32 - 1) && bitsPerFrame == 8 * l * (fld v 19 16 + 1)

/-- Whether the filter bank keeps R200. -/
def chanLegal (c : Chip) (p : Nat) : Bool :=
  let lg := rfld c (Reg.ENC_CHAN_CFG p) 3 0
  let taps := rfld c (Reg.ENC_CHAN_CFG p) 12 8
  let top := if complexIn c p then binsOf c p - 1 else binsOf c p / 2
  decide (6 ≤ lg) && decide (lg ≤ 12) && decide (2 ≤ taps) && decide (taps ≤ 16) &&
    decide (binsOf c p * taps ≤ 16384) && decide (rfld c (Reg.ENC_FEAT_CFG p) 24 13 + featCount c p ≤ top + 1)

/-- Whether kind and reduction keep Table 7.2 and R202. -/
def featLegal (c : Chip) (p : Nat) : Bool :=
  let k := rfld c (Reg.ENC_FEAT_CFG p) 31 29
  let r := rfld c (Reg.ENC_FEAT_CFG p) 28 27
  decide (k ≤ 4) && decide (r ≤ 2) && (r != 2 || k == 0 || k == 1 || k == 4) && (k != 2 || r == 0) &&
    decide (1 ≤ featCount c p) && decide (featCount c p ≤ 4096) &&
    (if chanOn c p then k != 0 && chanLegal c p
     else decide (1 ≤ rfld c (Reg.ENC_SEG p) 23 0) && ((k != 2 && k != 3) || complexIn c p) &&
       (k != 0 || !complexIn c p || featCount c p % 2 == 0))

/-- Whether the encoder may start (R196, R197, R203, R204). -/
def encLegal (c : Chip) (p : Nat) : Bool :=
  featLegal c p && decide (groupsOf c p ≤ 256) && decide (1 ≤ rfld c (Reg.ENC_GEN_CFG p) 14 8) &&
    linkLegal c p && (!encReplays c p || !packed12 c p || samplesPerInterval c p % 2 == 0) &&
    decide (pipeLatOf c p ≤ rfld c (Reg.ENC_CAPTURE_LEAD p) 15 0)

/-! ### The link (R194, R195) -/

/-- Something captured while the encoder is not stopped. -/
def capture (p : Nat) (x : Capture) (c : Chip) : Chip :=
  if encState c p = 0 then c else modEnc p (fun E => { E with cap := E.cap ++ [x] }) c

/-- The link leaves data phase at `now` and loses the locks of the lanes in `lanes`. -/
def leaveDataPhase (p lanes now : Nat) (c : Chip) : Chip :=
  let v := reg c (Reg.ENC_LINK_STATUS p)
  let drop := BitVec.ofNat 32 (lanes * 0x110 + 3)
  c |> setReg (Reg.ENC_LINK_STATUS p) (v &&& ~~~ drop)
    |> setBit (Reg.ENC_STATUS p) 28 false
    |> capture p { time := now, kind := 1, data := [] }

/-- LINK_EN_SET (R194): the port begins to acquire its link. -/
def linkEnable (p : Nat) (c : Chip) : Chip := if portOn c p then setBit (Reg.ENC_CTRL p) 2 true c else c

/-- LINK_EN cleared: the link is given up. -/
def linkDisable (p : Nat) (c : Chip) : Chip :=
  let last := (((enc c p).cap.getLast?).map (fun x => x.time)).getD 0
  c |> setBit (Reg.ENC_CTRL p) 2 false |> when_ (linkUp c p) (leaveDataPhase p 15 last)
    |> putNum (Reg.ENC_LINK_STATUS p) 0

/-- DATA_PHASE (R194, R424): every lane holds both locks and the LEMC is aligned. `skew`: a lane's data is not present
at its release point. -/
def dataPhase (p : Nat) (skew : Bool) (now : Nat) (c : Chip) : Chip :=
  let lanes := 2 ^ (rfld c (Reg.ENC_LINK_CFG p) 9 8 + 1) - 1
  if !portOn c p || !rflag c (Reg.ENC_CTRL p) 2 || linkUp c p || padHeld c p then c
  else if skew then
    c |> putNum (Reg.ENC_LINK_STATUS p) (lanes * 0x110 + 2) |> raise (Reg.ENC_FAULT p) 2
  else
    c |> putNum (Reg.ENC_LINK_STATUS p) (lanes * 0x110 + 3) |> setBit (Reg.ENC_STATUS p) 28 true
      |> capture p { time := now, kind := 2, data := [] }

/-- MULTIBLOCK_RX (R195): the converter samples released at `now`; `bad`: the CRC-12 fails, and the data is used all the
same. -/
def multiblock (p now : Nat) (samples : List (BitVec 16)) (bad : Bool) (c : Chip) : Chip :=
  if linkUp c p then
    c |> when_ bad (fun c => c |> count (Reg.ENC_CRC_ERR p) 1 |> raise (Reg.ENC_FAULT p) 1)
      |> capture p { time := now, kind := 0, data := samples }
  else c

/-- LANE_LOCK_LOSS (R195). -/
def laneLoss (p lane now : Nat) (c : Chip) : Chip :=
  if linkUp c p then
    c |> leaveDataPhase p (2 ^ lane) now |> count (Reg.ENC_LINK_DROPS p) 1 |> raise (Reg.ENC_FAULT p) 0
  else setReg (Reg.ENC_LINK_STATUS p) (reg c (Reg.ENC_LINK_STATUS p) &&& ~~~ BitVec.ofNat 32 (2 ^ lane * 0x110 + 2)) c

/-- PORT_SYSREF_EDGE (R195): an edge off the LEMC boundary in data phase. -/
def portSysref (p : Nat) (aligned : Bool) (c : Chip) : Chip :=
  if linkUp c p && !aligned then raise (Reg.ENC_FAULT p) 3 c else c

/-! ### Start and stop (R197 to R199) -/

/-- The encoder in state 0 acts on RUN = 1 (R197, R199). -/
def encArm (p : Nat) (c : Chip) : Chip :=
  let c := putNum (Reg.ENC_PIPE_LAT p) (pipeLatOf c p) c
  if encLegal c p then
    c |> setEncState p 1 |> setBit (Reg.ENC_STATUS p) 27 false |> modEnc p (fun E => { E with cap := [] })
  else c |> setBit (Reg.ENC_STATUS p) 27 true |> setBit (Reg.ENC_CTRL p) 0 false

/-- ENC_RUN_SET (R199). -/
def encRunSet (p : Nat) (c : Chip) : Chip :=
  if portOn c p then
    let c := setBit (Reg.ENC_CTRL p) 0 true c
    if encState c p = 0 then encArm p c else c
  else c

/-- ENC_RUN_CLEAR (R199): armed goes back to stopped at once; running and replay end go to stopping. -/
def encRunClear (p : Nat) (c : Chip) : Chip :=
  if portOn c p then
    let c := setBit (Reg.ENC_CTRL p) 0 false c
    match encState c p with
    | 1 => c |> setEncState p 0 |> modEnc p (fun E => { E with cap := [] })
    | 2 | 4 => setEncState p 3 c
    | _ => c
  else c

/-! ### Features (R200 to R202) -/

/-- Rounded quotient of a sum, halfway away from zero (R202). -/
def roundAway (s : Int) (n : Nat) : Int :=
  let m : Int := ((2 * s.natAbs + n) / (2 * n) : Nat)
  if s < 0 then -m else m

/-- REDUCE over the values of one interval (R202), oldest first; `none` for no value. -/
def reduceVals (mode : Nat) (xs : List Int) : Option Int :=
  match xs.getLast? with
  | none => none
  | some l =>
    match mode with
    | 1 => some (roundAway (xs.foldl (· + ·) 0) xs.length)
    | 2 => some (xs.foldl max l)
    | _ => some l

/-- One feature word (Table 7.2) from its values with their predecessors; `hop` is 1 without the channeliser. -/
def featureWord (kind mode hop : Nat) (xs : List ((Int × Int) × (Int × Int))) : Option Int :=
  match kind with
  | 1 => (reduceVals mode (xs.map (fun x => (magnitude x.1 : Int)))).map (fun z => (log8 z.toNat : Int))
  | 2 => reduceVals 0 (xs.map (fun x => phaseDiff x.1 x.2))
  | 3 => reduceVals mode (xs.map (fun x => (2 * phaseDiff x.1 x.2 + hop) / (2 * hop)))
  | _ => reduceVals mode (xs.map (fun x => min (magnitude x.1 : Int) 32767))

/-- Feature `i` without the channeliser (Table 7.2), from the interval's samples with their predecessors. -/
def plainFeature (kind mode seg : Nat) (cplx : Bool) (xs : List ((Int × Int) × (Int × Int))) (i : Nat) : Option Int :=
  if kind = 0 then
    let s := if cplx then i / 2 else i
    (xs[s * seg]?).map (fun x => if cplx && i % 2 == 1 then x.1.2 else x.1.1)
  else featureWord kind mode 1 ((xs.drop (i * seg)).take seg)

/-- The filter bank's coefficients (R200). -/
def coefs (c : Chip) (p : Nat) : List Int :=
  (List.range (binsOf c p * rfld c (Reg.ENC_CHAN_CFG p) 12 8 / 2)).map (fun i =>
    signed 16 (rfld c (Reg.ENC_COEF p (i / 2)) (16 * (i % 2) + 15) (16 * (i % 2))))

/-- A component of bin `b`, shifted right by CH_SHIFT with halfway values toward +∞ (R200). -/
def binPart (c : Chip) (p : Nat) (hist : List (Int × Int)) (b : Nat) (im : Bool) : Int :=
  let s := rfld c (Reg.ENC_CHAN_CFG p) 19 16
  (Config.filterBin (coefs c p) hist (rfld c (Reg.ENC_CHAN_CFG p) 3 0) (rfld c (Reg.ENC_CHAN_CFG p) 12 8) b im + 2 ^ s) /
    2 ^ (s + 1)

/-- One frame: its bins FIRST up, saturated to 16 bits, and how many components of all its bins saturated (R200). -/
def frameOf (c : Chip) (p : Nat) (hist : List (Int × Int)) : List (Int × Int) × Nat :=
  let raw := (List.range (binsOf c p)).map (fun b => (binPart c p hist b false, binPart c p hist b true))
  (((raw.drop (rfld c (Reg.ENC_FEAT_CFG p) 24 13)).take (featCount c p)).map (fun x => (satInt 16 x.1, satInt 16 x.2)),
    (raw.map (fun x => b2n (satInt 16 x.1 != x.1) + b2n (satInt 16 x.2 != x.2))).foldl (· + ·) 0)

/-- Samples fed to the filter bank: the frames they complete, oldest first, and the bank's history after them. -/
def feedBank (c : Chip) (p : Nat) : List (Int × Int) → List (Int × Int) → Nat →
    List (List (Int × Int) × Nat) × List (Int × Int) × Nat
  | [], hist, hop => ([], hist, hop)
  | x :: xs, hist, hop =>
    let h := (x :: hist).take (binsOf c p * rfld c (Reg.ENC_CHAN_CFG p) 12 8)
    if hop + 1 = hopOfBank c p then
      let r := feedBank c p xs h 0
      (frameOf c p h :: r.1, r.2)
    else feedBank c p xs h (hop + 1)

/-- Samples of an interval in pairs, oldest first; real samples have no Q part. -/
def pairSamples (cplx : Bool) : List Int → List (Int × Int)
  | [] => []
  | x :: xs =>
    if cplx then (match xs with | [] => [] | y :: ys => (x, y) :: pairSamples cplx ys)
    else (x, 0) :: pairSamples cplx xs

/-- The feature words of an interval, `none` for a feature without input, and the encoder after its samples (R200 to
R202). -/
def features (c : Chip) (p : Nat) (xs : List (Int × Int)) : List (Option Int) × Nat × Enc :=
  let E := enc c p
  let kind := rfld c (Reg.ENC_FEAT_CFG p) 31 29
  let mode := rfld c (Reg.ENC_FEAT_CFG p) 28 27
  let n := featCount c p
  let last := xs.getLast?.getD E.prev
  if chanOn c p then
    let (fr, hist, hop) := feedBank c p xs E.hist E.hop
    let frames := fr.map (fun f => f.1)
    let zero := List.replicate n ((0 : Int), (0 : Int))
    let before := (if E.prevBins = [] then zero else E.prevBins) :: frames
    let at_ (i : Nat) : List ((Int × Int) × (Int × Int)) :=
      (frames.zip before).map (fun q => (q.1.getD i (0, 0), q.2.getD i (0, 0)))
    ((List.range n).map (fun i => featureWord kind mode (hopOfBank c p) (at_ i)),
      (fr.map (fun f => f.2)).foldl (· + ·) 0,
      { E with hist := hist, hop := hop, prev := last, prevBins := frames.getLast?.getD E.prevBins })
  else
    let ys := xs.zip (E.prev :: xs)
    ((List.range n).map (plainFeature kind mode (rfld c (Reg.ENC_SEG p) 23 0) (complexIn c p) ys), 0,
      { E with prev := last })

/-! ### Rotation, scales and quantisation (R182 to R187) -/

/-- Rotated words, group by group (R182, R183). -/
def rotated (h groups : Nat) (xs : List Int) : List (List Int) :=
  (List.range groups).map (fun g =>
    let ys := (List.range h).map (fun i => xs.getD (g * h + i) 0)
    if h = 1 then ys else (List.range h).map (hadamard ys))

/-- The largest |y| of every group. -/
def groupMaxima (gs : List (List Int)) : List Nat := gs.map (fun g => (g.map Int.natAbs).foldl max 0)

/-- A floor or initial scale with e = 0 acts as 0x0400 (R184). -/
def scaleSafe (s : Nat) : Nat := if scaleZero s then 0x0400 else s

/-- The scale of group `g` for the interval that starts now, and whether the floor raised it (R184). -/
def nextScale (c : Chip) (p : Nat) (maxima : List (List Nat)) (g : Nat) : Nat × Bool :=
  let s := match maxima with
    | [] => scaleSafe (rfld c (Reg.QNT_SCALE_INIT p) 15 0)
    | ms => scaleForMax ((ms.map (fun m => m.getD g 0)).foldl max 0)
  let fl := scaleSafe (rfld c (Reg.QNT_SCALE_FLOOR p) 15 0)
  if s < fl then (fl, true) else (s, false)

/-- The scales fixed at a tick (R184, R187): kept while FREEZE is 1, unless the encoder starts. -/
def fixScales (p : Nat) (start : Bool) (c : Chip) : Chip :=
  let frozen := rflag c (Reg.QNT_CFG p) 9
  let ss := (List.range (groupsOf c p)).map (nextScale c p (enc c p).maxima)
  let c := if frozen && !start then c
    else c |> modEnc p (fun E => { E with scales := ss.map (fun s => s.1) })
      |> count (Reg.QNT_FLOOR_COUNT p) (ss.filter (fun s => s.2)).length
  putNum (Reg.QNT_STATUS p)
    (b2n frozen * 2 ^ 31 + mk 19 16 (enc c p).maxima.length + mk 8 0 (min (groupsOf c p) 256)) c

/-- Values of the features in order, and how many were clipped (R185). -/
def quantAll (h n : Nat) (scales : List Nat) (gs : List (List Int)) : List Int × Nat :=
  let qs := (List.range n).map (fun f => quantise ((gs.getD (f / h) []).getD (f % h) 0) (scales.getD (f / h) 0x0400))
  (qs.map (fun q => q.1), (qs.filter (fun q => q.2)).length)

/-! ### Events (R204, R205, R208) -/

/-- What a feature emits: positive or negative key, KIND and VALUE. -/
structure Emit where
  up : Bool
  kind : Nat
  value : Nat
  deriving DecidableEq, Repr

/-- A signed number kept under a key. -/
def intOf (m : Sparse Int) (k : Nat) : Int := mapGet (fun _ => 0) m k

/-- generate of R204 for feature `f` with value `q`: the event, the encoder after it, and the suppressed units. -/
def generate (cfg : Word) (f : Nat) (q : Int) (E : Enc) : Option Emit × Enc × Nat :=
  let delta : Int := (fld cfg 14 8 : Nat)
  let unit := flag cfg 2
  match fld cfg 1 0 with
  | 0 =>
    let d := q - intOf E.ref f
    let n := d.natAbs / delta.toNat
    let up := decide (0 < d)
    let step : Int := if unit then delta else n * delta
    let E' := { E with ref := mapPut (fun _ => 0) E.ref f (intOf E.ref f + if up then step else -step) }
    if n = 0 then (none, E, 0)
    else if unit then (some ⟨up, 0, 1⟩, E', n - 1) else (some ⟨up, 1, n⟩, E', 0)
  | 1 =>
    let s := pepperStep E.pepper.toNat
    let E' := { E with pepper := BitVec.ofNat 64 s }
    if q ≠ 0 ∧ pepperWord s / 2 ^ 25 < q.natAbs then (some ⟨decide (0 < q), 0, 1⟩, E', 0) else (none, E', 0)
  | 2 =>
    let n := q / delta - intOf E.lvl f
    let up := decide (0 < n)
    let step : Int := if unit then (if up then 1 else -1) else n
    let E' := { E with lvl := mapPut (fun _ => 0) E.lvl f (intOf E.lvl f + step) }
    if n = 0 then (none, E, 0)
    else if unit then (some ⟨up, 0, 1⟩, E', n.natAbs - 1) else (some ⟨up, 1, n.natAbs⟩, E', 0)
  | _ => (some ⟨true, 1, unsign 8 (if flag cfg 3 then q + 128 else q)⟩, E, 0)

/-- All features in ascending order (R204). -/
def generateAll (cfg : Word) : List Int → Nat → Enc → List (Option Emit) × Enc × Nat
  | [], _, E => ([], E, 0)
  | q :: qs, f, E =>
    let (e, E1, s) := generate cfg f q E
    let (es, E2, s2) := generateAll cfg qs (f + 1) E1
    (e :: es, E2, s + s2)

/-- The flit of an event on route `r` with axon key `key`; PARITY is set at injection (R55, R205). -/
def routedFlit (epoch r key kind value : Nat) : DWord :=
  mkEvent kind epoch 0 0 (bits r 57 56) (bits r 55 49) (bits r 48 43) (bits r 42 36) (key % 65536) value

/-- The flits that route entry `n` of set `s` forms (R205, R207, R208), each with the tap the entry names. -/
def entryFlits (c : Chip) (p s : Nat) (es : List (Option Emit)) (scales : List Nat) (n : Nat) : List (Nat × DWord) :=
  let w (k : Nat) : Word := reg c (Reg.ENC_ROUTE p s n k)
  let first := fld (w 0) 11 0
  let cnt := fld (w 0) 28 16
  let r := (w 2).toNat * 2 ^ 32 + (w 1).toNat
  let tap := fld (w 0) 30 30
  if !flag (w 0) 31 then []
  else if flag (w 0) 29 then
    if rflag c (Reg.QNT_CFG p) 8 then
      ((List.range scales.length).filter (fun g => decide (first ≤ g) && decide (g < first + cnt))).map (fun g =>
        (tap, routedFlit s r (rfld c (Reg.QNT_SCALE_AXON p) 15 0 + g) 1 (bits (scales.getD g 0) 15 8)))
    else []
  else
    (((List.range es.length).zip es).filter (fun x => decide (first ≤ x.1) && decide (x.1 < first + cnt))).filterMap
      (fun x => x.2.map (fun e =>
        (tap, routedFlit s r ((if e.up then bits r 35 20 else fld (w 3) 15 0) + (x.1 - first)) e.kind e.value)))

/-- EVT_MAX as it acts (Table 7.8). -/
def evtMax (c : Chip) (p : Nat) : Nat := let n := rfld c (Reg.ENC_EVT_MAX p) 13 0; if n = 0 then 1 else min n 8192

/-! ### Intervals (R196, R198, R211) -/

/-- Census item `item` of parity `par` of encoder `p` advanced (R278). -/
def encTally (p par item n : Nat) (c : Chip) : Chip :=
  modEnc p (fun E => { E with census := setNum (4 * par + item) (numOf E.census (4 * par + item) + n) E.census }) c

/-- Copies of a list of flits. -/
def copiesOf (fs : List (Nat × DWord)) : Nat := (fs.map (fun f => copies f.2)).foldl (· + ·) 0

/-- An interval placed in the hold, of which the last 4 stay (R211). -/
def holdInterval (p step : Nat) (fs : List (Nat × DWord)) (c : Chip) : Chip :=
  let h := ((enc c p).held ++ [{ step := step, flits := fs }])
  let h := h.drop (h.length - 4)
  c |> modEnc p (fun E => { E with held := h })
    |> setFld (Reg.ENC_STATUS p) 26 24 h.length
    |> putNum (Reg.ENC_HOLD_OLDEST p) (((h.head?).map (fun x => x.step)).getD 0)

/-- A gap interval of step `t` (R198). -/
def gapInterval (p t : Nat) (c : Chip) : Chip :=
  c |> count (Reg.ENC_GAP_INTERVALS p) 1 |> markStep (encJob c p) t 3 |> holdInterval p t []
    |> setFld (Reg.ENC_STATUS p) 13 0 0

/-- The converter samples of `n` values at byte list `bs` (R196). -/
def unpackSamples (twelve : Bool) (bs : List Byte) (n : Nat) : List Int :=
  (List.range n).map (fun i =>
    if twelve then signed 12 (ofBytes ((bs.drop (i / 2 * 3)).take 3) / 2 ^ (12 * (i % 2)))
    else signed 16 (ofBytes ((bs.drop (2 * i)).take 2)))

/-- The events of step `t` formed from an interval's samples (R200 to R208). -/
def formEvents (p t : Nat) (xs : List (Int × Int)) (c : Chip) : Chip :=
  let (fw, sat, E1) := features c p xs
  let words := fw.map (fun x => x.getD 0)
  let h := rotSize c p
  let gs := rotated h (groupsOf c p) words
  let mx := groupMaxima gs
  let (qs, clipped) := quantAll h (featCount c p) E1.scales gs
  let (es, E2, supp) := generateAll (reg c (Reg.ENC_GEN_CFG p)) qs 0 E1
  let s := rfld c (Reg.ENC_EPOCH p) 0 0
  let all := (List.range 32).flatMap (entryFlits c p s es E1.scales)
  let keep := all.take (evtMax c p)
  let par := (tbAt c (encTb c p)).parity
  c |> modEnc p (fun _ => { E2 with
        maxima := (mx :: E2.maxima).take (rfld c (Reg.QNT_CFG p) 6 4 + 1)
        lastMax := mx, live := E2.live ++ keep })
    |> when_ (decide (0 < sat)) (fun c => c |> count (Reg.ENC_CH_SAT p) sat |> raise (Reg.ENC_FAULT p) 7)
    |> when_ (fw.any (fun x => x.isNone)) (raise (Reg.ENC_FAULT p) 6)
    |> when_ (featCount c p % h != 0) (raise (Reg.QNT_FAULT p) 1)
    |> when_ (decide (0 < clipped)) (fun c => c |> count (Reg.QNT_CLIP_COUNT p) clipped |> raise (Reg.QNT_FAULT p) 0)
    |> count (Reg.ENC_UNIT_SUPP p) supp
    |> when_ (decide (keep.length < all.length)) (fun c =>
        c |> count (Reg.ENC_DROP_BUDGET p) (all.length - keep.length) |> raise (Reg.ENC_FAULT p) 4)
    |> setFld (Reg.ENC_STATUS p) 13 0 keep.length
    |> encTally p par 0 (copiesOf keep)
    |> holdInterval p t keep

/-- The time before which samples belong to the interval of a tick at `now` (R196). -/
def cutTime (c : Chip) (p now : Nat) : Nat := now - 4 * rfld c (Reg.ENC_CAPTURE_LEAD p) 15 0

/-- What was captured before `cut` and what was captured later. -/
def splitCap (cut : Nat) (xs : List Capture) : List Capture × List Capture :=
  (xs.takeWhile (fun x => decide (x.time < cut)), xs.dropWhile (fun x => decide (x.time < cut)))

/-- Whether the link is out of data phase at the cut, from what was captured after it and the link as it is now. -/
def downAt (rest : List Capture) (up : Bool) : Bool :=
  match rest.find? (fun x => x.kind != 0) with
  | some x => x.kind == 2
  | none => !up

/-- The captured part of an interval cut off, with the link's state at the cut. -/
def cutCapture (p now : Nat) (c : Chip) : List Capture × Chip :=
  let (taken, rest) := splitCap (cutTime c p now) (enc c p).cap
  (taken, modEnc p (fun E => { E with cap := rest, downAtStart := downAt rest (linkUp c p) }) c)

/-- The interval of step `t` from the link (R196, R198): 12-bit samples are sign-extended (R180). -/
def linkInterval (p t now : Nat) (c : Chip) : Chip :=
  let down := (enc c p).downAtStart
  let (taken, c) := cutCapture p now c
  let value (b : BitVec 16) : Int := if packed12 c p then signed 12 (b.toNat % 4096) else signed 16 b.toNat
  let xs := pairSamples (complexIn c p) ((taken.flatMap (fun x => x.data)).map value)
  if down || taken.any (fun x => x.kind == 1) then
    let (_, _, E) := features c p xs
    c |> modEnc p (fun _ => E) |> gapInterval p t
  else formEvents p t xs c

/-- Device address of a replay source. -/
def replayBase (c : Chip) (p : Nat) : Nat :=
  rfld c (Reg.ENC_REPLAY_BASE_HI p) 4 0 * 2 ^ 32 + rfld c (Reg.ENC_REPLAY_BASE_LO p) 31 6 * 64

/-- The interval of step `t` from LPDDR5X (R196, R198, R499, R512). -/
def replayInterval (p t : Nat) (c : Chip) : Chip :=
  let n := samplesPerInterval c p
  let len := if packed12 c p then n / 2 * 3 else 2 * n
  let pos := (enc c p).pos
  let a := replayBase c p + pos
  if 64 * (reg c (Reg.ENC_REPLAY_LEN p)).toNat < pos + len then
    c |> raise (Reg.ENC_FAULT p) 8 |> setEncState p 4 |> gapInterval p t
  else
    let m := memController c a
    let c0 := c
      |> modEnc p (fun E => { E with pos := pos + len })
      |> putNum (Reg.ENC_REPLAY_POS p) ((pos + len) / 64)
    let form (bs : List Byte) (c : Chip) : Chip :=
      formEvents p t (pairSamples (complexIn c p) (unpackSamples (packed12 c p) bs n)) c
    if len = 0 then form [] c0
    else if !memReach c a len then form (List.replicate len 0#8) c0
    else if !memAllowed c kindImage a len then form (List.replicate len 0#8) (memDenied m false c0)
    else if memReadUe c a len then c0 |> memRead m a len |> gapInterval p t
    else c0 |> memRead m a len |> form (bytesAt c a len)

/-- The first interval begins (R199). -/
def encStart (p now : Nat) (c : Chip) : Chip :=
  let (_, c) := cutCapture p now c
  c |> modEnc p (fun E => { E with
        pos := 0, hist := [], hop := 0, prev := (0, 0), prevBins := [], ref := [], lvl := []
        pepper := BitVec.ofNat 64 (pepperSeed (reg2 c (Reg.ENC_PEPPER_SEED_LO p) (Reg.ENC_PEPPER_SEED_HI p)))
        maxima := [], held := [], live := [], resend := [], asked := [] })
    |> putNum (Reg.ENC_REPLAY_POS p) 0
    |> setFld (Reg.ENC_STATUS p) 26 24 0
    |> setEncState p 2
    |> fixScales p true

/-- A tick of its timebase at encoder `p`, which begins step `t` (R196 to R199, R207). -/
def encTick (p t now : Nat) (c : Chip) : Chip :=
  let c := putNum (Reg.ENC_EPOCH p) (tapEpoch c ((portTaps p).getD 0 0) (curEpoch c (encTb c p))) c
  match encState c p with
  | 1 =>
    if encReplays c p || linkUp c p then encStart p now c
    else (cutCapture p now c).2
  | 2 => c |> (if encReplays c p then replayInterval p t else linkInterval p t now) |> fixScales p false
  | 3 =>
    let c := c |> setEncState p 0 |> modEnc p (fun E => { E with cap := [] })
    if rflag c (Reg.ENC_CTRL p) 0 then encArm p c else c
  | 4 => c |> (fun c => (cutCapture p now c).2) |> gapInterval p t |> fixScales p false
  | _ => c

/-- Update go of its timebase at encoder `p`: flits not yet injected are dropped as late (R210); live flits that a replay
holds back stay (R354). -/
def encGo (p par : Nat) (c : Chip) : Chip :=
  let E := enc c p
  let replay := (jobAt c (encJob c p)).replay.isSome
  let fs := if replay then E.resend else E.resend ++ E.live
  if fs.isEmpty then c
  else c |> modEnc p (fun E => { E with live := if replay then E.live else [], resend := [] })
    |> count (Reg.ENC_DROP_LATE p) fs.length |> encTally p par 2 (copiesOf fs) |> encTally p par 3 (copiesOf fs)

/-- Whether encoder `p` has injected its whole interval, under replay the replayed one (R58, R354). -/
def encClean (c : Chip) (p : Nat) : Bool :=
  let E := enc c p
  E.resend.isEmpty && !E.asked.contains (jobStep c (encJob c p)) &&
    ((jobAt c (encJob c p)).replay.isSome || E.live.isEmpty)

/-! ### Injection and replay (R209 to R211) -/

/-- The tap by which a flit that names tap `k` of the port leaves (R209). -/
def injectTap (c : Chip) (p k : Nat) : Nat := if tapGood c ((portTaps p).getD k 0) then k else 1 - k

/-- The first element that satisfies `f`, and the list without it. -/
def takeFirst {α : Type} (f : α → Bool) : List α → Option (α × List α)
  | [] => none
  | x :: xs => if f x then some (x, xs) else (takeFirst f xs).map (fun r => (r.1, x :: r.2))

/-- A flit with its parity, and CHECK set (R209). -/
def atParity (d : DWord) (par : Nat) : DWord := withCheck (d.toNat - fParity d * 2 ^ 58 + par * 2 ^ 58)

/-- ENCODER_INJECT (R209, R211): tap `k` of port `p` injects its next flit while the router has room; held intervals
under replay go first, and live flits wait while the job replays. -/
def encoderInject (p k now : Nat) (c : Chip) : Chip :=
  let E := enc c p
  let tap := (portTaps p).getD k 0
  let t := tapTile tap
  let mine (f : Nat × DWord) : Bool := injectTap c p f.1 == k
  let busy := !E.asked.isEmpty || (jobAt c (encJob c p)).replay.isSome
  let pick : Option (DWord × Enc) :=
    match takeFirst mine E.resend with
    | some (f, rest) => some (f.2, { E with resend := rest })
    | none => if !E.resend.isEmpty || busy then none
      else (takeFirst mine E.live).map (fun x => (x.1.2, { E with live := x.2 }))
  match pick with
  | some (d, E') =>
    let T := tbAt c (encTb c p)
    if tapGood c tap && domOn c (fieldOf t) && inRoom c t 5 0 then
      c |> modEnc p (fun _ => E')
        |> putWire t 5 (oneFlit 0 (atParity d T.parity))
        |> count (Reg.ENC_EVENTS p) 1
        |> setFld (Reg.ENC_INJ_LAST p) 22 0 (min (now - T.tickAt) 0x7FFFFF)
    else c
  | none => c

/-- INJ_DEADLINE (R210). -/
def injLate (p : Nat) (c : Chip) : Chip := if encClean c p then c else raise (Reg.ENC_FAULT p) 5 c

/-- ENCODER_REPLAY (R211): the oldest replay request is acted on, once its step is the one in progress and nothing of
the rewind is awaited (R354, R356). -/
def encoderReplay (p : Nat) (c : Chip) : Chip :=
  let J := jobAt c (encJob c p)
  match (enc c p).asked with
  | [] => c
  | f :: rest =>
    let ready := f == jobStep c (encJob c p) && !J.resendDue
    let c := when_ ready (modEnc p (fun E => { E with asked := rest })) c
    match (enc c p).held.find? (fun h => h.step == f) with
    | some h =>
      if !ready then c else c |> modEnc p (fun E => { E with resend := E.resend ++ h.flits })
        |> encTally p (tbAt c (encTb c p)).parity 0 (copiesOf h.flits)
        |> count (Reg.ENC_REPLAYS p) 1
    | none => if !ready then c else c |> raise (Reg.ENC_FAULT p) 9 |> reportJob (encJob c p) f 8 0 0

/-- The bits of word `w` of a route entry that are not reserved (Table 7.3). -/
def encRouteMask (w : Nat) : Word := match w with | 0 => 0xFFFF0FFF#32 | 3 => 0x0000FFFF#32 | _ => 0xFFFFFFFF#32

/-- ENC_ROUTE_WRITE (R207): a write to the set in force is ignored. -/
def encRouteWrite (p s n w : Nat) (v : Word) (c : Chip) : Chip :=
  if !portOn c p || rfld c (Reg.ENC_EPOCH p) 0 0 == s then c else setReg (Reg.ENC_ROUTE p s n w) (v &&& encRouteMask w) c

/-- QNT_FREEZE (R187): sampled at the next tick. -/
def qntFreeze (p : Nat) (hold : Bool) (c : Chip) : Chip := if portOn c p then setBit (Reg.QNT_CFG p) 9 hold c else c

/-! ### Meanings -/

/-- LINK_EN_SET. -/
def execLinkEnSet (p : Fin 16) (s : State) : Host.Outcome State Fault Refusal := done s (linkEnable p.val s.chip)

/-- DATA_PHASE. -/
def execDataPhase (p : Fin 16) (skew : Bool) (now : Nat) (s : State) : Host.Outcome State Fault Refusal :=
  done s (dataPhase p.val skew now s.chip)

/-- MULTIBLOCK_RX. -/
def execMultiblockRx (p : Fin 16) (now : Nat) (samples : List (BitVec 16)) (bad : Bool) (s : State) :
    Host.Outcome State Fault Refusal := done s (multiblock p.val now samples bad s.chip)

/-- LANE_LOCK_LOSS. -/
def execLaneLockLoss (p : Fin 16) (lane : Fin 4) (now : Nat) (s : State) : Host.Outcome State Fault Refusal :=
  done s (laneLoss p.val lane.val now s.chip)

/-- PORT_SYSREF_EDGE. -/
def execPortSysrefEdge (p : Fin 16) (aligned : Bool) (s : State) : Host.Outcome State Fault Refusal :=
  done s (portSysref p.val aligned s.chip)

/-- ENC_RUN_SET. -/
def execEncRunSet (p : Fin 16) (s : State) : Host.Outcome State Fault Refusal := done s (encRunSet p.val s.chip)

/-- ENC_RUN_CLEAR. -/
def execEncRunClear (p : Fin 16) (s : State) : Host.Outcome State Fault Refusal := done s (encRunClear p.val s.chip)

/-- ENCODER_INJECT. -/
def execEncoderInject (p : Fin 16) (tap : Fin 2) (now : Nat) (s : State) : Host.Outcome State Fault Refusal :=
  done s (encoderInject p.val tap.val now s.chip)

/-- INJ_DEADLINE. -/
def execInjDeadline (p : Fin 16) (s : State) : Host.Outcome State Fault Refusal := done s (injLate p.val s.chip)

/-- ENCODER_REPLAY. -/
def execEncoderReplay (p : Fin 16) (s : State) : Host.Outcome State Fault Refusal := done s (encoderReplay p.val s.chip)

/-- ENC_ROUTE_WRITE. -/
def execEncRouteWrite (p : Fin 16) (set : Fin 2) (n : Fin 32) (word : Fin 4) (value : Word) (s : State) :
    Host.Outcome State Fault Refusal := done s (encRouteWrite p.val set.val n.val word.val value s.chip)

/-- QNT_FREEZE. -/
def execQntFreeze (p : Fin 16) (hold : Bool) (s : State) : Host.Outcome State Fault Refusal :=
  done s (qntFreeze p.val hold s.chip)

end Sys2Proof.Machine
end

