-- ==== Sys2Proof/Machine/Results.lean ====
section
/-!
DEFINITION. The result engine, the result rings and MSI-X (R216 to R218, R287, R349, R350, R361, R484, R489 to R491).
-/

namespace Sys2Proof.Machine

/-! ### The host side (R484) -/

/-- Whether the host is reached: PCI Express is up and its domain is ON. -/
def hostReached (c : Chip) : Bool := rflag c Reg.HIF_LINK_STATUS 0 && domOn c 92

/-- Bytes written to host memory from `a` up. -/
def hostPut : Nat → List Byte → List Host.Cell → List Host.Cell
  | _, [], m => m
  | a, b :: bs, m => hostPut (a + 1) bs (mapPut (fun _ => 0#8) m a b)

/-- A posted write to the host (Table 18.1). -/
def hostWrite (a : Nat) (bs : List Byte) (c : Chip) : Chip := { c with host := { c.host with mem := hostPut a bs c.host.mem } }

/-- Word `w` of MSI-X table entry `v`; at reset every vector is masked (R484). -/
def msixWord (c : Chip) (v w : Nat) : Word := mapGet (fun k => if k % 4 = 3 then 1#32 else 0#32) c.host.table (4 * v + w)

/-- Whether vector `v` is masked, by itself or by the function mask. -/
def msixMasked (c : Chip) (v : Nat) : Bool := c.host.fnMask || flag (msixWord c v 3) 0

/-- The message of vector `v` sent. -/
def msixSend (v : Nat) (c : Chip) : Chip :=
  hostWrite ((msixWord c v 1).toNat * 2 ^ 32 + (msixWord c v 0).toNat) (toBytes 4 (msixWord c v 2).toNat) c

/-- One MSI-X message of vector `v` requested (R484): a masked vector's is held pending. -/
def msixRequest (v : Nat) (c : Chip) : Chip :=
  if msixMasked c v || !hostReached c then
    { c with host := { c.host with pend := c.host.pend ||| BitVec.ofNat 64 (2 ^ (v % 64)) } }
  else msixSend v c

/-- Every pending message whose vector is no longer masked is sent once (R484). -/
def msixFlush (c : Chip) : Chip :=
  forAll (fun v c =>
    if bit c.host.pend.toNat v && !msixMasked c v && hostReached c then
      msixSend v { c with host := { c.host with pend := c.host.pend &&& ~~~ BitVec.ofNat 64 (2 ^ v) } }
    else c) (List.range 64) c

/-- MSIX_UNMASK (R484): a host write of a table word, with the function mask it leaves. -/
def msixWrite (v w : Nat) (x : Word) (fn : Bool) (c : Chip) : Chip :=
  let t := mapPut (fun k => if k % 4 = 3 then 1#32 else 0#32) c.host.table (4 * v + w) x
  msixFlush { c with host := { c.host with table := t, fnMask := fn } }

/-! ### Streams (R216 to R218) -/

/-- Stream `p` at the result engine. -/
def streamAt (c : Chip) (p : Nat) : Stream := mapGet (fun _ => {}) c.streams p

/-- Stream `p` changed. -/
def modStream (p : Nat) (f : Stream → Stream) (c : Chip) : Chip :=
  { c with streams := mapPut (fun _ => {}) c.streams p (f (streamAt c p)) }

/-- DEC_S_CFG.JOB. -/
def streamJob (c : Chip) (p : Nat) : Nat := rfld c (Reg.DEC_S_CFG p) 27 24

/-- CHK_JOB_j_CFG.EN. -/
def chkOn (c : Chip) (j : Nat) : Bool := rflag c (Reg.CHK_JOB_CFG j) 31

/-- LIC_GRANT_n kept under `n` in a list of latched grants: the reset values where nothing has been latched. -/
def grantOf (m : Sparse Word) (n : Nat) : Word := mapGet (fun n => regReset (Reg.LIC_GRANT n)) m n

/-- The grants latched from LIC_GRANT_n (R7, R371). -/
def latchGrants (c : Chip) : Sparse Word :=
  [1, 2, 3, 4, 5].foldl (fun m n => mapPut (fun n => regReset (Reg.LIC_GRANT n)) m n (reg c (Reg.LIC_GRANT n))) []

/-- Feature `n` is granted to what is loaded (R7, Table 13.21): by the licences in force at the last image load. -/
def granted (c : Chip) (n : Nat) : Bool := flag (grantOf c.loadGrants n) 31

/-- QUANTITY of feature `n` granted to what is loaded (R7). -/
def grantQty (c : Chip) (n : Nat) : Nat := fld (grantOf c.loadGrants n) 15 0

/-- Early release of job `j` (R349), with the grant that the job was loaded with (R7). -/
def earlyMode (c : Chip) (j : Nat) : Bool :=
  chkOn c j && rfld c (Reg.CHK_JOB_CFG j) 1 0 == 1 && (jobAt c j).early

/-- CHK_JOB_j_CFG.ACTION, 3 acting as 0 (R351). -/
def chkAction (c : Chip) (j : Nat) : Nat := rfld c (Reg.CHK_JOB_CFG j) 3 2 % 3

/-- Whether update go of step `s` of timebase `k` has begun. -/
def goBegun (c : Chip) (k s : Nat) : Bool :=
  let d := (tickNow c k + 2 ^ 48 - s) % 2 ^ 48
  let inGo := match (tbAt c k).phase with | .update | .settle => true | _ => false
  (decide (0 < d) && decide (d < 2 ^ 47)) || (d == 0 && inGo)

/-- The steps of a record's window. -/
def windowSteps (r : Record) : List Nat := (List.range (r.wlen + 1)).map (fun k => (r.step + 2 ^ 48 - k) % 2 ^ 48)

/-- The 32 bytes of a record (Table 7.6). -/
def recordBytes (p job seq flags : Nat) (r : Record) : List Byte :=
  toBytes 8 (mk 47 0 r.step + mk 51 48 p + mk 55 52 job + mk 63 56 seq) ++ toBytes 2 r.cls ++ toBytes 2 r.score ++
    toBytes 2 r.ruCls ++ toBytes 2 r.ruScore ++ toBytes 4 r.anomaly ++
    toBytes 4 ((r.step + 2 ^ 48 - r.wlen) % 2 ^ 32) ++ toBytes 4 (r.wlen * 65536 + flags) ++ [0#8, 0#8, 0#8] ++ toBytes 1 seq

/-- A record dropped from the hold (R491). -/
def dropRecord (p : Nat) (c : Chip) : Chip := c |> count (Reg.HIF_RR_DROP p) 1 |> raise Reg.HIF_FAULT 0

/-- A record given its sequence number (R217) and handed to the ring, where at most 64 wait (R491, R493). -/
def emitRecord (p flags : Nat) (r : Record) (c : Chip) : Chip :=
  let seq := rfld c (Reg.DEC_S_STATUS p) 7 0
  let bs := recordBytes p (streamJob c p) seq flags r
  let c := setFld (Reg.DEC_S_STATUS p) 7 0 (if seq = 255 then 1 else seq + 1) c
  let S := streamAt c p
  if S.dropping then dropRecord p c
  else if S.out.length < 64 then modStream p (fun S => { S with out := S.out ++ [bs] }) c
  else c |> modStream p (fun S => { S with out := S.out.drop 1 ++ [bs] }) |> dropRecord p

/-- Whether the window of a record contains a replayed step (R350), of a job that is checked. -/
def windowReplayed (c : Chip) (p : Nat) (r : Record) : Bool :=
  chkOn c (streamJob c p) && (windowSteps r).any (fun s => stepMarked c (streamJob c p) s 2)

/-- OVERRUN, SCALE_SLIP, GAP and REPLAYED of a record (R218, R350), REPLAYED only of a job that is checked. -/
def recordFlags (c : Chip) (p : Nat) (r : Record) : Nat :=
  let j := streamJob c p
  let any (b : Nat) : Bool := (windowSteps r).any (fun s => stepMarked c j s b)
  64 * b2n (any 1) + 32 * b2n (any 3 || (streamAt c p).gapNext) + 16 * b2n (any 0) + 8 * b2n (windowReplayed c p r)

/-- CONFIRMED: every step of the window is confirmed (Table 12.3). -/
def allConfirmed (c : Chip) (j : Nat) (r : Record) : Bool := (windowSteps r).all (fun s => stepMarked c j s 4)

/-- Whether a record held under confirmed release may be written (R349, R351). -/
def releasable (c : Chip) (j : Nat) (r : Record) : Bool :=
  goBegun c (jobAt c j).tb (nextStep r.step) &&
    (!chkOn c j || stepMarked c j r.step 4 || stepMarked c j r.step 5 || chkAction c j == 2)

/-- RESULT_RELEASE (R349): the stream's oldest waiting record, early on arrival or once its window step is settled. -/
def resultRelease (p : Nat) (c : Chip) : Chip :=
  match (streamAt c p).waiting with
  | [] => c
  | r :: rest =>
    let j := streamJob c p
    let fl := recordFlags c p r
    let early := earlyMode c j
    if early || releasable c j r then
      let fl := fl + if early then 2 else b2n (chkOn c j && allConfirmed c j r)
      c |> modStream p (fun S => { S with
            waiting := rest, gapNext := false
            early := if early then S.early ++ [(r.step, r.wlen)] else S.early })
        |> emitRecord p fl r
    else c

/-- The retraction of an EARLY record (R218, R350). -/
def retraction (e : Nat × Nat) : Record :=
  { step := e.1, wlen := e.2, cls := 0xFFFF, score := 0, ruCls := 0xFFFF, ruScore := 0, anomaly := 0 }

/-- The EARLY records of stream `p` that satisfy `f` retracted, oldest first (R350). -/
def retractWhere (p : Nat) (f : Nat → Bool) (c : Chip) : Chip :=
  let es := (streamAt c p).early.filter (fun e => f e.1)
  c |> modStream p (fun S => { S with early := S.early.filter (fun e => !f e.1) })
    |> forAll (fun e c => c
        |> emitRecord p (4 + 8 * b2n (windowReplayed c p (retraction e))) (retraction e) |> chkCount 6) es

/-- Held records of window step `f` discarded and EARLY ones retracted: the result engine at a rewind (Table 12.4). -/
def streamRewind (p f : Nat) (c : Chip) : Chip :=
  c |> modStream p (fun S => { S with waiting := S.waiting.filter (fun r => r.step != f) }) |> retractWhere p (· == f)

/-- The stream loses its steps: a restart, a stop or a compute-die reset (R350, R414). -/
def streamLost (p : Nat) (c : Chip) : Chip :=
  c |> modStream p (fun S => { S with waiting := [], gapNext := true }) |> retractWhere p (fun _ => true)

/-- Step `s` confirmed: its EARLY records are final. -/
def streamConfirm (p s : Nat) (c : Chip) : Chip :=
  modStream p (fun S => { S with early := S.early.filter (fun e => e.1 != s) }) c

/-- The record of one tick while a job restarts (R361). -/
def restartRecord (p t : Nat) (c : Chip) : Chip :=
  emitRecord p 32 { step := t, wlen := 0, cls := 0xFFFF, score := 0, ruCls := 0xFFFF, ruScore := 0, anomaly := 0 } c

/-- The streams whose DEC_S_ block is enabled for job `j`. -/
def jobStreams (c : Chip) (j : Nat) : List Nat :=
  (List.range 16).filter (fun p => rflag c (Reg.DEC_S_CFG p) 31 && streamJob c p == j)

/-- The record in a decoder's 16-byte output (Table 7.5): TICK is the largest step not above `now` with its STEP16. -/
def recordOf (now : Nat) (bs : List Byte) : Record :=
  let n (o k : Nat) : Nat := ofBytes ((bs.drop o).take k)
  { step := (now + 2 ^ 48 - (now + 65536 - n 0 2) % 65536) % 2 ^ 48, wlen := n 2 1, cls := n 4 2, score := n 6 2
    ruCls := n 8 2, ruScore := n 10 2, anomaly := n 12 4 }

/-- A message for the result engine acted on (R217, R287). While the stream's job restarts, its records are the GAP records of
its ticks, and an output still on its way makes none (R361). -/
def takeResult (h : Flit) (body : List Flit) (c : Chip) : Chip :=
  let p := mChannel h.data
  if 16 ≤ p || anyPoison h body || !wellFormed h.data || !portOn c p then count Reg.CHN_CC_POISON 1 c
  else
    let bs := mPayload h.data (body.map (fun f => f.data))
    let cfg := reg c (Reg.DEC_S_CFG p)
    if !flag cfg 31 || fSrc h.data != fld cfg 12 0 || decide (mLen h.data < 16) ||
        ofBytes ((bs.drop 3).take 1) % 16 != p then count (Reg.DEC_S_DISCARD p) 1 c
    else if (jobAt c (streamJob c p)).restarting then c
    else modStream p (fun S => { S with
      waiting := S.waiting ++ [recordOf (tickNow c (jobAt c (streamJob c p)).tb) bs] }) c

/-- RESULT_MESSAGE (R217, R287): the first message at control tap `k`, when its RESULT bit is 1. -/
def resultMessage (k : Nat) (c : Chip) : Chip :=
  match tapTake (48 + k) 2 c with
  | some (h, body, c') => if mResult h.data then takeResult h body c' else c
  | none => c

/-! ### Result rings (R489, R490) -/

/-- N of stream `p`'s ring (Table 18.9). -/
def rrSize (c : Chip) (p : Nat) : Nat := 2 ^ min 16 (max 8 (rfld c (Reg.HIF_RR_CFG p) 20 16))

/-- (WPTR − RPTR) mod 2N. -/
def rrUsed (c : Chip) (p : Nat) : Nat :=
  let n := 2 * rrSize c p
  ((reg c (Reg.HIF_RR_WPTR p)).toNat + n - (reg c (Reg.HIF_RR_RPTR p)).toNat % n) % n

/-- The write-back and its message (R490). -/
def writeBack (p : Nat) (c : Chip) : Chip :=
  let a := (reg c (Reg.HIF_RR_WB_HI p)).toNat * 2 ^ 32 + rfld c (Reg.HIF_RR_WB_LO p) 31 3 * 8
  let th := rfld c (Reg.HIF_RR_CFG p) 15 0
  let c := hostWrite a (toBytes 4 (reg c (Reg.HIF_RR_WPTR p)).toNat ++ toBytes 4 (reg c (Reg.HIF_RR_DROP p)).toNat) c
  if th ≠ 0 ∧ th ≤ rrUsed c p ∧ ¬ (streamAt c p).notified then
    c |> modStream p (fun S => { S with notified := true }) |> msixRequest (rfld c (Reg.HIF_RR_CFG p) 29 24)
  else c

/-- A record written to the ring counted (Table 7.14). -/
def noteRecord (p : Nat) (bs : List Byte) (c : Chip) : Chip :=
  let fl := ofBytes ((bs.drop 24).take 4)
  c |> count (Reg.DEC_S_RECORDS p) 1
    |> when_ (bit fl 2) (count (Reg.DEC_S_RETRACTS p) 1)
    |> when_ (bit fl 5) (count (Reg.DEC_S_GAP p) 1)
    |> forAll (fun w c => putNum (Reg.DEC_S_LAST p w) (ofBytes ((bs.drop (4 * w)).take 4)) c) (List.range 8)

/-- RESULT_RING_WRITE (R489, R490): the oldest released record enters its slot while the ring is enabled, has room and
the link is up. -/
def ringWrite (p : Nat) (c : Chip) : Chip :=
  match (streamAt c p).out with
  | [] => c
  | bs :: rest =>
    let n := rrSize c p
    let w := (reg c (Reg.HIF_RR_WPTR p)).toNat
    if rflag c (Reg.HIF_RR_CFG p) 31 && hostReached c && decide (rrUsed c p < n) then
      let base := (reg c (Reg.HIF_RR_BASE_HI p)).toNat * 2 ^ 32 + rfld c (Reg.HIF_RR_BASE_LO p) 31 6 * 64
      c |> modStream p (fun S => { S with out := rest })
        |> hostWrite (base + 32 * (w % n)) bs
        |> putNum (Reg.HIF_RR_WPTR p) ((w + 1) % (2 * n))
        |> noteRecord p bs
        |> writeBack p
    else c

/-- RR_RPTR_WRITE (R489, R490). -/
def rptrHost (p : Nat) (v : Word) (c : Chip) : Chip :=
  let n := 2 * rrSize c p
  let r := fld v 16 0 % n
  if rrUsed c p < ((reg c (Reg.HIF_RR_WPTR p)).toNat + n - r) % n then raise Reg.HIF_FAULT 2 c
  else c |> putNum (Reg.HIF_RR_RPTR p) r |> modStream p (fun S => { S with notified := false })

/-- RESULT_RING_ENABLE (R489, R491, R493, Table 18.9): a write of HIF_RR_p_CFG. -/
def rrEnable (p : Nat) (v : Word) (c : Chip) : Chip :=
  let old := reg c (Reg.HIF_RR_CFG p)
  let new := (if flag old 31 then putFld v 20 16 (fld old 20 16) else v) &&& 0xBF1FFFFF#32
  c |> setReg (Reg.HIF_RR_CFG p) new
    |> when_ (flag v 31 && !flag old 31) (fun c => c
        |> putNum (Reg.HIF_RR_WPTR p) 0 |> putNum (Reg.HIF_RR_RPTR p) 0
        |> modStream p (fun S => { S with dropping := false, notified := false }))

/-! ### Meanings -/

/-- RESULT_MESSAGE. -/
def execResultMessage (k : Fin 8) (s : State) : Host.Outcome State Fault Refusal := done s (resultMessage k.val s.chip)

/-- RESULT_RELEASE. -/
def execResultRelease (p : Fin 16) (s : State) : Host.Outcome State Fault Refusal := done s (resultRelease p.val s.chip)

/-- RESULT_RING_WRITE. -/
def execResultRingWrite (p : Fin 16) (s : State) : Host.Outcome State Fault Refusal := done s (ringWrite p.val s.chip)

/-- RR_RPTR_WRITE. -/
def execRrRptrWrite (p : Fin 16) (value : Word) (s : State) : Host.Outcome State Fault Refusal :=
  done s (rptrHost p.val value s.chip)

/-- RESULT_RING_ENABLE. -/
def execResultRingEnable (p : Fin 16) (value : Word) (s : State) : Host.Outcome State Fault Refusal :=
  done s (rrEnable p.val value s.chip)

/-- MSIX_REQUEST. -/
def execMsixRequest (v : Fin 64) (s : State) : Host.Outcome State Fault Refusal := done s (msixRequest v.val s.chip)

/-- MSIX_UNMASK. -/
def execMsixUnmask (v : Fin 64) (word : Fin 4) (value : Word) (fnMask : Bool) (s : State) :
    Host.Outcome State Fault Refusal := done s (msixWrite v.val word.val value fnMask s.chip)

end Sys2Proof.Machine
end

