-- ==== Sys2Proof/Machine/Stats.lean ====
section
/-!
DEFINITION. The statistics the event recorder reads at the end of an interval: the field units of R538 and the figures of
the TICK_UTIL record (Table 16.6).
-/

namespace Sys2Proof.Machine

/-- Item `i` of timebase `k`'s figures advanced by `n`: 0 steps, 1 overrun steps, 2 late drops, 5 summed quiescence
offset, 7 measured quiescence offsets. -/
def utilAdd (k i n : Nat) (c : Chip) : Chip :=
  { c with recd := { c.recd with util := setNum (8 * k + i) (numOf c.recd.util (8 * k + i) + n) c.recd.util } }

/-- Item `i` of timebase `k`'s figures raised to `n`: 3 stretch, 4 quiescence offset, 6 TILE_END_CLK. -/
def utilMax (k i n : Nat) (c : Chip) : Chip :=
  { c with recd := { c.recd with util := setNum (8 * k + i) (max (numOf c.recd.util (8 * k + i)) n) c.recd.util } }

/-- The bin of a tile-step with `n` copies delivered (Table 16.6). -/
def histBin (n : Nat) : Nat := if n = 0 then 0 else min 15 (Nat.log2 n + 1)

/-- Tile `t`'s part of the figures at the end of step `s` of timebase `k` (R538, Table 9.10). -/
def statTile (k s t : Nat) (c : Chip) : Chip :=
  if seqEn c t && !fenced c t then
    let cen := (tile c t).census
    let p := (s + 1) % 2
    let e := rfld c (Reg.TILE_END_CLK t) 24 0
    c |> count (Reg.REC_FLD_HIST (fieldOf t) (histBin (numOf cen (4 * p + 1)))) 1
      |> count (Reg.REC_FLD_STEPS (fieldOf t)) 1
      |> utilAdd k 2 (numOf cen (4 * p + 3))
      |> utilMax k 6 e
  else c

/-- The figures of step `s` of timebase `k`, at the tick that ends it. -/
def statStep (k s : Nat) (c : Chip) : Chip := c |> utilAdd k 0 1 |> forAll (statTile k s) (jobTiles c (jobOfTb c k))

end Sys2Proof.Machine
end

