-- ==== Sys2Proof/Machine/Timebase.lean ====
section
/-!
DEFINITION. What the units share of a timebase: enabling and its checks (R65, Table 2.3), completion of settle (R74),
overrun marks (R71), SYSREF edges (R67 to R69).
-/

namespace Sys2Proof.Machine

/-- TICK_TB_CTRL.ENABLE. -/
def tbEnabled (c : Chip) (k : Nat) : Bool := rflag c (Reg.TICK_TB_CTRL k) 31

/-- TICK_TB_CTRL.STOP_PENDING. -/
def stopPending (c : Chip) (k : Nat) : Bool := rflag c (Reg.TICK_TB_CTRL k) 30

/-- Free-run mode: MODE is 1. -/
def freeRun (c : Chip) (k : Nat) : Bool := rfld c (Reg.TICK_TB_CTRL k) 25 24 == 1

/-- ALIGN_CFG.MULTI: the job spans devices. -/
def tbMulti (c : Chip) (k : Nat) : Bool := rflag c (Reg.TICK_TB_ALIGN_CFG k) 31

/-- TICK_TB_USTART. -/
def uStart (c : Chip) (k : Nat) : Nat := rfld c (Reg.TICK_TB_USTART k) 22 0

/-- TICK_TB_UEND. -/
def uEnd (c : Chip) (k : Nat) : Nat := rfld c (Reg.TICK_TB_UEND k) 22 0

/-- TICK_DIV. -/
def tickDiv (c : Chip) (k : Nat) : Nat := rfld c (Reg.TICK_TB_CTRL k) 15 0

/-- The locked period of timebase `k`, phase units. -/
def lockedPeriod (c : Chip) (k : Nat) : Nat := 4 * rfld c Reg.TICK_SYSREF_STATUS 29 0 * tickDiv c k

/-- S of R70: the stretch budget. -/
def stretchOf (c : Chip) (k : Nat) : Nat := min 25 (rfld c (Reg.TICK_TB_STRETCH k) 4 0) * lockedPeriod c k / 100

/-- Whether a tile counts as having reached END (R74). -/
def tileEnded (c : Chip) (t : Nat) : Bool := fenced c t || !seqEn c t || (tile c t).seq.mode == .ended

/-- Every tile of timebase `k`'s job has reached END. -/
def allEnded (c : Chip) (k : Nat) : Bool := (jobTiles c (jobOfTb c k)).all (tileEnded c)

/-- Settle of the running step is complete (R74). No tile of a restarting job gives a census (R359), and a replay is
part of the step (R354). -/
def settleDone (c : Chip) (k : Nat) : Bool :=
  let J := jobAt c (jobOfTb c k)
  (tbAt c k).phase == .settle && allEnded c k && (!J.census || (tbAt c k).censusDone || J.restarting) &&
    J.replay.isNone && J.rewindDue.isNone

/-- A step marked overrun (R71). -/
def overrun (k s : Nat) (c : Chip) : Chip :=
  c |> tbEvent k 0 |> count (Reg.TICK_TB_OVERRUN_COUNT k) 1 |> putNum (Reg.TICK_TB_LAST_OVERRUN k) (s % 2 ^ 32)
    |> markStep (jobOfTb c k) s 0 |> utilAdd k 1 1

/-! ### Enabling (R65, Table 2.3) -/

/-- The checks of Table 2.3, on a control word already in the register. -/
def enableOk (c : Chip) (k : Nat) : Bool :=
  let per := lockedPeriod c k
  let us := uStart c k
  let ue := uEnd c k
  let snap := decide (rfld c Reg.TICK_QSNAP_CFG 7 0 ≤ 8)
  match rfld c (Reg.TICK_TB_CTRL k) 25 24 with
  | 0 =>
    decide (1 ≤ tickDiv c k) && rflag c Reg.TICK_SYSREF_STATUS 31 && decide (1250 ≤ per) && decide (per ≤ 6250000) &&
      decide ((jobAt c (jobOfTb c k)).minTick ≤ per) && (!tbMulti c k || decide (12500 ≤ per)) && decide (us < ue) &&
      decide (us + stretchOf c k + (ue - us) ≤ per) && decide (rfld c (Reg.TICK_TB_OFFSET k) 22 0 < per) && snap
  | 1 =>
    granted c 5 && (!tbMulti c k || decide (12500 ≤ rfld c (Reg.TICK_TB_FREE_MIN k) 22 0)) && decide (us < ue) &&
      decide (us ≤ rfld c (Reg.TICK_TB_FREE_MAX k) 22 0) && snap
  | _ => false

/-- ENABLE set on timebase `k`, whose other control fields stand (R65). -/
def enableTb (k : Nat) (c : Chip) : Chip :=
  if enableOk c k then
    c |> setBit (Reg.TICK_TB_CTRL k) 31 true |> setBit (Reg.TICK_TB_CTRL k) 27 false
      |> when_ (!freeRun c k) (putNum (Reg.TICK_TB_PERIOD k) (lockedPeriod c k))
      |> modTb k (fun T => { T with
          armed := true, pulse := !rflag c (Reg.TICK_TB_CTRL k) 28, dueAt := none, regrid := false, edges := 0
          alignEdges := none, phase := .idle, quiet := false, fabricQuiet := false, barrier := false
          censusDone := false, held := false })
      |> modJob (jobOfTb c k) (fun J => { J with causes := [], verdict := [], marks := [], replay := none, replayed := none })
      |> setFld (Reg.CHK_JOB_STATE (jobOfTb c k)) 31 29 1
  else c |> setBit (Reg.TICK_TB_CTRL k) 31 false |> setBit (Reg.TICK_TB_CTRL k) 27 true

/-- TB_ENABLE (R64 to R66): a write of TICK_TB_CTRL with ENABLE set. Ignored while a stop is pending; on an enabled
timebase it changes nothing. -/
def tbEnable (k : Nat) (v : Word) (c : Chip) : Chip :=
  if stopPending c k || tbEnabled c k then c
  else c |> setReg (Reg.TICK_TB_CTRL k) (v &&& 0x13F0FFFF#32) |> enableTb k

/-! ### SYSREF (R67 to R69) -/

/-- How an edge comes about: `plain`, sampled or generated (R67, R68); `waiting`, generated while SYSREF has returned, so
that its tick waits for a sampled edge (R69); `moving`, the sampled edge by which the grid moves (R69). -/
inductive EdgeKind
  | plain | waiting | moving
  deriving DecidableEq, Repr

/-- A boundary of timebase `k` falls on an edge (R67): its tick is due at `due`, or waits for the grid to move (R69). One
that passed during HOLD with no tick is counted (R81). -/
def putBoundary (kind : EdgeKind) (due k : Nat) (c : Chip) : Chip :=
  c |> when_ ((tbAt c k).held && (tbAt c k).dueAt.isSome) (count (Reg.TICK_TB_HOLD_SKIPPED k) 1)
    |> modTb k (fun T => if kind == .waiting then { T with regrid := true }
        else { T with dueAt := some due, regrid := false })

/-- An edge as timebase `k` counts it, standing at `at_` rclk and found at `found` rclk (R65, R67, R68, R79, R81). A tick
comes no earlier than its edge is found. The edge that moves the grid stands for the generated edge before it, which has
been counted (R69). An edge count of 0 in ALIGN_START acts as 1 (DESIGN CHOICE, log entry 163). -/
def edgeTb (at_ found : Nat) (kind : EdgeKind) (k : Nat) (c : Chip) : Chip :=
  let T := tbAt c k
  let put := putBoundary kind (max (4 * at_ + rfld c (Reg.TICK_TB_OFFSET k) 22 0) (4 * found)) k
  match T.alignEdges with
  | some n =>
    if kind == .moving then c
    else if n ≤ 1 then enableTb k (modTb k (fun T => { T with alignEdges := none }) c)
    else modTb k (fun T => { T with alignEdges := some (n - 1) }) c
  | none =>
    if !tbEnabled c k || freeRun c k then c
    else if T.armed && T.dueAt.isNone then
      if T.pulse then c |> modTb k (fun T => { T with edges := 0 }) |> put else c
    else if T.regrid && kind != .waiting then put c
    else if kind == .moving then c
    else
      let n := T.edges + 1
      c |> modTb k (fun T => { T with edges := n }) |> when_ (n % max 1 (tickDiv c k) == 0) put

/-- An edge counted by every timebase. -/
def edgeAll (at_ found : Nat) (kind : EdgeKind) (c : Chip) : Chip := forAll (edgeTb at_ found kind) (List.range 16) c

/-- SYSREF_TOL. -/
def sysTol (c : Chip) : Nat := rfld c Reg.TICK_SYSREF_CFG 23 16

/-- The measured period. -/
def sysPeriod (c : Chip) : Nat := rfld c Reg.TICK_SYSREF_STATUS 29 0

/-- Distance of two times. -/
def dist (a b : Nat) : Nat := (a - b) + (b - a)

/-- Whether any enabled locked timebase is past its first tick, so that R69 has a tick to move. -/
def anyLockedTick (c : Chip) : Bool := (List.range 16).any (fun k => tbEnabled c k && !freeRun c k && !(tbAt c k).armed)

/-- A SYSREF edge while SYSREF is not locked: period and lock count (R67). SYSREF_LOCK_EDGES of 0 acts as 1 (DESIGN CHOICE,
log entry 163). -/
def edgeUnlocked (at_ : Nat) (c : Chip) : Chip :=
  let s := c.sysref
  let near := match s.predicted with | some p => decide (dist at_ p ≤ sysTol c) | none => false
  let good := if near then s.good + 1 else 0
  let per := match s.lastEdge with | some l => at_ - l | none => 0
  let c := { c with sysref := { s with lastEdge := some at_, good := good,
                                       predicted := if s.lastEdge.isSome then some (at_ + per) else none } }
  c |> setFld Reg.TICK_SYSREF_STATUS 29 0 per
    |> when_ (near && decide (max 1 (rfld c Reg.TICK_SYSREF_CFG 15 8) ≤ good)) (raise Reg.TICK_SYSREF_STATUS 31)

/-- Holdover ends: the prediction follows the edge at `at_` (R69). -/
def endHoldover (at_ : Nat) (c : Chip) : Chip :=
  setBit Reg.TICK_SYSREF_STATUS 30 false
    { c with sysref := { c.sysref with returning := false, lastEdge := some at_, predicted := some (at_ + sysPeriod c) } }

/-- SYSREF_EDGE (R67 to R69). -/
def sysrefEdge (at_ : Nat) (c : Chip) : Chip :=
  if !rflag c Reg.TICK_SYSREF_CFG 0 then c
  else if !rflag c Reg.TICK_SYSREF_STATUS 31 then edgeUnlocked at_ c
  else if rflag c Reg.TICK_SYSREF_STATUS 30 then
    if (List.range 16).any (fun k => (tbAt c k).regrid) || !anyLockedTick c then
      c |> edgeAll at_ at_ .moving |> endHoldover at_
    else { c with sysref := { c.sysref with returning := true, lastEdge := some at_ } }
  else match c.sysref.predicted with
    | none => c
    | some p =>
      if dist at_ p ≤ sysTol c then
        edgeAll at_ at_ .plain { c with sysref := { c.sysref with lastEdge := some at_, predicted := some (at_ + sysPeriod c) } }
      else c |> count Reg.TICK_SYSREF_SLIP_COUNT 1 |> raise Reg.TICK_IRQ_STATUS 17

/-- SYSREF_MISS (R68): no edge by the predicted time plus SYSREF_TOL. A tick that falls on the first generated edge comes no
earlier than the miss is found. Misses of a locked SYSREF are found whatever SYSREF_EN is (DESIGN CHOICE, log entry 164). -/
def sysrefMiss (at_ : Nat) (c : Chip) : Chip :=
  match c.sysref.predicted with
  | none => c
  | some p =>
    if !rflag c Reg.TICK_SYSREF_STATUS 31 || rflag c Reg.TICK_SYSREF_STATUS 30 || decide (at_ ≤ p + sysTol c) then c
    else
      let c := c |> count Reg.TICK_SYSREF_MISS_COUNT 1 |> raise Reg.TICK_IRQ_STATUS 16
      if rflag c Reg.TICK_SYSREF_CFG 1 then
        c |> raise Reg.TICK_SYSREF_STATUS 30 |> edgeAll p at_ .plain
          |> fun c => { c with sysref := { c.sysref with predicted := some (p + sysPeriod c) } }
      else setBit Reg.TICK_SYSREF_STATUS 31 false { c with sysref := { c.sysref with good := 0, predicted := none } }

/-- HOLDOVER_EDGE (R68): an edge generated from the measured period. -/
def holdoverEdge (at_ : Nat) (c : Chip) : Chip :=
  match c.sysref.predicted with
  | none => c
  | some p =>
    if !rflag c Reg.TICK_SYSREF_STATUS 30 || decide (at_ < p) then c
    else edgeAll p p (if c.sysref.returning then .waiting else .plain) { c with sysref := { c.sysref with predicted := some (p + sysPeriod c) } }

/-! ### Meanings -/

/-- SYSREF_EDGE. -/
def execSysrefEdge (at_ : Nat) (s : State) : Host.Outcome State Fault Refusal := done s (sysrefEdge at_ s.chip)

/-- SYSREF_MISS. -/
def execSysrefMiss (at_ : Nat) (s : State) : Host.Outcome State Fault Refusal := done s (sysrefMiss at_ s.chip)

/-- HOLDOVER_EDGE. -/
def execHoldoverEdge (at_ : Nat) (s : State) : Host.Outcome State Fault Refusal := done s (holdoverEdge at_ s.chip)

/-- TB_ENABLE. -/
def execTbEnable (j : Fin 16) (value : Word) (s : State) : Host.Outcome State Fault Refusal :=
  done s (tbEnable j.val value s.chip)

end Sys2Proof.Machine
end

