-- ==== Sys2Proof/Machine/Link.lean ====
section
/-!
DEFINITION. The link layer of the Nelmond engines: frames, acknowledgement and retry, credits, bring-up and retrain
(R307, R310, R314 to R318), and the torus positions and routes of the fabric (R310 to R313, R319, R328).
-/

namespace Sys2Proof.Machine

/-! ### The torus (R310 to R312, R328) -/

/-- DEV_ID of this device. -/
def ownId (c : Chip) : Nat := rfld c Reg.GW_TOPO 9 0

/-- FX of a device id. -/
def devX (id : Nat) : Nat := id % 32

/-- FY of a device id. -/
def devY (id : Nat) : Nat := id / 32

/-- SX. -/
def torusX (c : Chip) : Nat := rfld c Reg.GW_TOPO 14 10 + 1

/-- SY. -/
def torusY (c : Chip) : Nat := rfld c Reg.GW_TOPO 19 15 + 1

/-- (a − b) mod S. -/
def ringDist (s a b : Nat) : Nat := (a + s - b % s) % s

/-- The device next to `id` in direction `d`: 0 X−, 1 X+, 2 Y−, 3 Y+ (Table 11.1). -/
def devNext (c : Chip) (id d : Nat) : Nat :=
  let x := devX id
  let y := devY id
  match d with
  | 0 => y * 32 + ringDist (torusX c) x 1
  | 1 => y * 32 + (x + 1) % torusX c
  | 2 => ringDist (torusY c) y 1 * 32 + x
  | _ => (y + 1) % torusY c * 32 + x

/-- The direction a packet for device `dest` takes from here; none when it is addressed to this device (R311). -/
def fabDir (c : Chip) (dest : Nat) : Option Nat :=
  let me := ownId c
  let dx := ringDist (torusX c) (devX dest) (devX me)
  let dy := ringDist (torusY c) (devY dest) (devY me)
  if dx ≠ 0 then some (if 2 * dx ≤ torusX c then 1 else 0)
  else if dy ≠ 0 then some (if 2 * dy ≤ torusY c then 3 else 2)
  else none

/-- Whether the link in direction `d` from this device is the dateline link of its dimension (R312). -/
def dateline (c : Chip) (d : Nat) : Bool :=
  match d with
  | 0 => devX (ownId c) == 0
  | 1 => devX (ownId c) + 1 == torusX c
  | 2 => devY (ownId c) == 0
  | _ => devY (ownId c) + 1 == torusY c

/-- The FVC on which a packet of class `k` leaves in direction `d`; `cameBy` is the direction code of the engine it
arrived on and its half there, none for a packet that enters the fabric here (R312). -/
def outFvc (c : Chip) (k d : Nat) (cameBy : Option (Nat × Nat)) : Nat :=
  let half := match cameBy with
    | some (di, h) => if di / 2 = d / 2 then h else 0
    | none => 0
  2 * k + (if dateline c d then 1 else half)

/-! ### Fabric flits (Tables 11.4, 11.6 to 11.8) -/

/-- DCAST of a fabric event flit. -/
def xCast (f : DWord) : Nat := bits f.toNat 57 56
/-- DEST of a fabric event flit and of a prefix flit. -/
def xDest (f : DWord) : Nat := bits f.toNat 55 46
/-- DSPAN_END of a fabric event flit. -/
def xEnd (f : DWord) : Nat := bits f.toNat 45 41
/-- LANE of a fabric event flit. -/
def xLane (f : DWord) : Nat := bits f.toNat 40 40
/-- KEY of a fabric event flit. -/
def xKey (f : DWord) : Nat := bits f.toNat 39 22
/-- VALUE of a fabric event flit. -/
def xValue (f : DWord) : Nat := bits f.toNat 21 14
/-- HEAD of the slot tag. -/
def xHead (f : DWord) : Bool := bit f.toNat 3
/-- TAIL of the slot tag. -/
def xTail (f : DWord) : Bool := bit f.toNat 2
/-- POISON of the slot tag. -/
def xPoison (f : DWord) : Bool := bit f.toNat 1
/-- SRC_DEV of a prefix flit. -/
def pSrc (f : DWord) : Nat := bits f.toNat 45 36
/-- LANE of a prefix flit. -/
def pLane (f : DWord) : Nat := bits f.toNat 35 35
/-- FENCE_NO of a prefix flit. -/
def pFence (f : DWord) : Nat := bits f.toNat 34 27
/-- FCK of a collective flit, MTYPE of a mark. -/
def kType (f : DWord) : Nat := bits f.toNat 60 57
/-- TB of a collective flit or mark. -/
def kTb (f : DWord) : Nat := bits f.toNat 56 53
/-- DIR of a collective flit, PARITY covered of an END mark. -/
def kDir (f : DWord) : Nat := bits f.toNat 52 52
/-- PARITY of a collective flit, LANE of a mark. -/
def kPar (f : DWord) : Nat := bits f.toNat 51 51
/-- ITEM of a collective flit, PHASE of an END mark. -/
def kItem (f : DWord) : Nat := bits f.toNat 50 49
/-- ORIGIN of a collective flit or mark. -/
def kOrigin (f : DWord) : Nat := bits f.toNat 48 39
/-- VALUE of a collective flit. -/
def kValue (f : DWord) : Nat := bits f.toNat 38 8
/-- DEST of a FENCE mark. -/
def mDest (f : DWord) : Nat := bits f.toNat 38 29
/-- FENCE_NO of a FENCE mark. -/
def mFence (f : DWord) : Nat := bits f.toNat 28 21
/-- HOPS of an END mark. -/
def mHops (f : DWord) : Nat := bits f.toNat 20 16

/-- A flit with its slot tag set (Table 11.4). -/
def tagged (d : DWord) (fvc : Nat) (head tail poison : Bool) : DWord :=
  BitVec.ofNat 64 (d.toNat / 256 * 256 + mk 7 4 fvc + 8 * b2n head + 4 * b2n tail + 2 * b2n poison)

/-- A flit with the FVC of its slot tag set. -/
def reTag (d : DWord) (fvc : Nat) : DWord := BitVec.ofNat 64 (d.toNat / 256 * 256 + mk 7 4 fvc + d.toNat % 16)

/-- A collective flit (Table 11.8). -/
def collFlit (fck tb dir par item origin value : Nat) : DWord :=
  BitVec.ofNat 64 (mk 63 61 3 + mk 60 57 fck + mk 56 53 tb + mk 52 52 dir + mk 51 51 par + mk 50 49 item +
    mk 48 39 origin + mk 38 8 value + 12)

/-- An END mark (Table 11.8). -/
def endMark (tb par lane phase origin hops : Nat) : DWord :=
  BitVec.ofNat 64 (mk 63 61 7 + mk 60 57 1 + mk 56 53 tb + mk 52 52 par + mk 51 51 lane + mk 50 49 phase +
    mk 48 39 origin + mk 20 16 hops + 12)

/-- A FENCE mark (Table 11.8). -/
def fenceMark (tb lane origin dest no : Nat) : DWord :=
  BitVec.ofNat 64 (mk 63 61 7 + mk 56 53 tb + mk 51 51 lane + mk 48 39 origin + mk 38 29 dest + mk 28 21 no + 12)

/-- Whether a flit at the front of an FVC is a mark: KIND 7 and a packet of one flit. -/
def isMark (f : DWord) : Bool := fKind f == 7 && xHead f && xTail f

/-- Whether a fabric event's local copy is made here, and the direction it goes on in (R311, R328). -/
def eventHop (c : Chip) (f : DWord) : Bool × Option Nat :=
  let me := ownId c
  let x (id : Nat) : Nat := ringDist (torusX c) (devX id) (devX (xDest f))
  let y (id : Nat) : Nat := ringDist (torusY c) (devY id) (devY (xDest f))
  match xCast f with
  | 0 => (me == xDest f, fabDir c (xDest f))
  | 1 =>
    let l := ringDist (torusX c) (xEnd f) (devX (xDest f))
    (decide (x me ≤ l), if x me = l then none else some 1)
  | 2 =>
    let l := ringDist (torusY c) (xEnd f) (devY (xDest f))
    if devX me ≠ devX (xDest f) then (false, fabDir c (devY me * 32 + devX (xDest f)))
    else (decide (y me ≤ l), if y me = l then none else some 3)
  | _ => (false, none)

/-- The device copies a fabric event has still to make beyond this device (R323, R328). -/
def copiesBeyond (c : Chip) (f : DWord) : Nat :=
  let me := ownId c
  let rest (l o : Nat) : Nat := if o ≤ l then l - o else l + 1
  match xCast f with
  | 1 => rest (ringDist (torusX c) (xEnd f) (devX (xDest f))) (ringDist (torusX c) (devX me) (devX (xDest f)))
  | 2 =>
    let l := ringDist (torusY c) (xEnd f) (devY (xDest f))
    if devX me ≠ devX (xDest f) then l + 1 else rest l (ringDist (torusY c) (devY me) (devY (xDest f)))
  | _ => 1

/-! ### The gateways' counts (R278, R330) -/

/-- Counts of a fabric event's copies, by timebase and parity: 0 fabric sent, 1 received, 2 dropped (R330). -/
def fabTally (tb par item n : Nat) (c : Chip) : Chip :=
  let k := 8 * tb + 4 * par + item
  { c with gw := { c.gw with fab := setNum k (numOf c.gw.fab k + n) c.gw.fab } }

/-- Census counts of the gateways (R278). -/
def gwTally (tb par item n : Nat) (c : Chip) : Chip :=
  let k := 8 * tb + 4 * par + item
  { c with gw := { c.gw with census := setNum k (numOf c.gw.census k + n) c.gw.census } }

/-- Whether GW_JOB_j is enabled. -/
def gwJobOn (c : Chip) (j : Nat) : Bool := rflag c (Reg.GW_JOB_CFG j) 31

/-- The timebase under which events of no known job are counted: that of the lowest enabled job of the gateways. -/
def fabTb (c : Chip) : Nat :=
  match (List.range 16).find? (gwJobOn c) with
  | some j => (jobAt c j).tb
  | none => 0

/-- A bit of GW_JOB_j_EVENT set (Tables 11.16, 11.18). -/
def gwEvent (j b : Nat) (c : Chip) : Chip := c |> raise (Reg.GW_JOB_EVENT j) b |> raise Reg.GW_FAULT (16 + j)

/-- An event dropped without a path (R323). -/
def unreachEvent (tb : Option Nat) (f : DWord) (c : Chip) : Chip :=
  let n := copiesBeyond c f
  c |> count Reg.GW_DROP_UNREACH n |> raise Reg.GW_FAULT 3 |> fabTally (tb.getD (fabTb c)) (fParity f) 2 n

/-! ### Links -/

/-- The link of engine `e`. -/
def linkAt (c : Chip) (e : Nat) : Link := mapGet (fun _ => {}) c.links e

/-- The link of engine `e` changed. -/
def modLink (e : Nat) (f : Link → Link) (c : Chip) : Chip :=
  { c with links := mapPut (fun _ => {}) c.links e (f (linkAt c e)) }

/-- NLK_STATUS.STATE. -/
def linkState (c : Chip) (e : Nat) : Nat := rfld c (Reg.NLK_STATUS e) 31 29

/-- NLK_STATUS.STATE set. -/
def setLinkState (e s : Nat) (c : Chip) : Chip := setFld (Reg.NLK_STATUS e) 31 29 s c

/-- Whether engine `e` is up. -/
def linkIsUp (c : Chip) (e : Nat) : Bool := linkState c e == 3

/-- The engine of direction `d` that a packet of lane `l` leaves on (R313, R319). -/
def engineFor (c : Chip) (d l : Nat) : Option Nat :=
  if linkIsUp c (2 * d + l) then some (2 * d + l) else if linkIsUp c (2 * d + (1 - l)) then some (2 * d + (1 - l)) else none

/-- The receive buffer of FVC `v`. -/
def rxAt (c : Chip) (e v : Nat) : List DWord := listOf (linkAt c e).rx v

/-- The receive buffer of FVC `v` set, with its length in NLK_RXOCC_v. -/
def setRx (e v : Nat) (l : List DWord) (c : Chip) : Chip :=
  c |> modLink e (fun L => { L with rx := setList v l L.rx }) |> putNum (Reg.NLK_RXOCC e v) (min l.length 255)

/-- Send credits of FVC `v`. -/
def txCredit (c : Chip) (e v : Nat) : Nat := rfld c (Reg.NLK_CREDIT e v) 7 0

/-! ### Frames (R314) -/

/-- The CRC-32 of R314 over `n` bits, the highest first, the highest bit of the register first. -/
def crcFrameRun (w : Nat) : Nat → Nat → Nat
  | 0, r => r
  | n + 1, r =>
    let top := (b2n (bit w n)).xor (r / 2 ^ 31)
    let s := r * 2 % 2 ^ 32
    crcFrameRun w n (if top = 1 then s.xor 0x04C11DB7 else s)

/-- CRC of the frame bits [223:0]. -/
def frameCrc (w : Nat) : Nat := (crcFrameRun w 224 0xFFFFFFFF).xor 0xFFFFFFFF

/-- A frame (Table 11.3). -/
def mkFrame (ftype seq ack credVc credN : Nat) (slots : List DWord) : BitVec 256 :=
  let s (i : Nat) : Nat := (slots.getD i 0#64).toNat
  let w := mk 223 222 ftype + mk 221 220 slots.length + mk 219 210 seq + mk 209 200 ack + mk 199 196 credVc +
    mk 195 192 credN + s 2 * 2 ^ 128 + s 1 * 2 ^ 64 + s 0
  BitVec.ofNat 256 (frameCrc w * 2 ^ 224 + w)

/-- Whether a frame's CRC is good. -/
def frameOk (f : BitVec 256) : Bool := frameCrc (f.toNat % 2 ^ 224) == f.toNat / 2 ^ 224

/-- FTYPE. -/
def frType (f : BitVec 256) : Nat := bits f.toNat 223 222
/-- NSLOT. -/
def frSlots (f : BitVec 256) : Nat := bits f.toNat 221 220
/-- SEQ. -/
def frSeq (f : BitVec 256) : Nat := bits f.toNat 219 210
/-- ACK. -/
def frAck (f : BitVec 256) : Nat := bits f.toNat 209 200
/-- CRED_VC. -/
def frCredVc (f : BitVec 256) : Nat := bits f.toNat 199 196
/-- CRED_N. -/
def frCredN (f : BitVec 256) : Nat := bits f.toNat 195 192
/-- SLOTi. -/
def frSlot (f : BitVec 256) (i : Nat) : DWord := BitVec.ofNat 64 (f.toNat / 2 ^ (64 * i))

/-- The flits of a list of frames' slots. -/
def slotFlits (fs : List TxFlit) : List DWord := fs.map (fun f => f.flit)

/-- A frame sent: it carries the ACK and owed credits of one FVC (R315, R316). -/
def sendFrame (e ftype seq : Nat) (slots : List DWord) (c : Chip) : Chip :=
  modLink e (fun L =>
    let v := ((List.range 10).find? (fun v => decide (0 < numOf L.owed v))).getD 0
    let n := min 15 (numOf L.owed v)
    { L with
      owed := setNum v (numOf L.owed v - n) L.owed
      out := L.out ++ [mkFrame ftype seq ((L.rxNext + 1023) % 1024) v n slots] }) c

/-- The unacknowledged frames counted in NLK_RETRY_OCC. -/
def noteRetry (e : Nat) (c : Chip) : Chip := putNum (Reg.NLK_RETRY_OCC e) (min 512 (linkAt c e).retry.length) c

/-- The flit that leaves next: of the waiting flits whose FVC holds a credit, collectives first, then the oldest
(R316, R331). -/
def nextFlit (c : Chip) (e : Nat) : Option (TxFlit × List TxFlit) :=
  let q := (linkAt c e).queue
  match takeFirst (fun f => decide (8 ≤ f.fvc) && decide (0 < txCredit c e f.fvc)) q with
  | some r => some r
  | none => takeFirst (fun f => decide (0 < txCredit c e f.fvc)) q

/-- Up to `n` flits taken for one frame. -/
def takeSlots (e : Nat) : Nat → Chip → List TxFlit × Chip
  | 0, c => ([], c)
  | n + 1, c =>
    match nextFlit c e with
    | none => ([], c)
    | some (f, rest) =>
      let c := c |> modLink e (fun L => { L with queue := rest })
        |> putNum (Reg.NLK_CREDIT e f.fvc) (txCredit c e f.fvc - 1)
      let (fs, c) := takeSlots e n c
      (f :: fs, c)

/-- Data frames sent while the link is up, the retry buffer has room and a flit has a credit (R315, R316). -/
def sendData (e : Nat) : Nat → Chip → Chip
  | 0, c => c
  | n + 1, c =>
    if linkIsUp c e && decide ((linkAt c e).retry.length < 512) then
      match takeSlots e 3 c with
      | ([], _) => c
      | (fs, c) =>
        let s := (linkAt c e).txSeq
        c |> sendFrame e 0 s (slotFlits fs)
          |> modLink e (fun L => { L with txSeq := (s + 1) % 1024, retry := L.retry ++ [(s, fs)] })
          |> noteRetry e |> count (Reg.NLK_TX_FRAMES e) 1 |> sendData e n
    else c

/-- Everything that can be sent now. -/
def pump (e : Nat) (c : Chip) : Chip := sendData e ((linkAt c e).queue.length) c

/-- A flit queued on engine `e` (R313). -/
def queueFlit (e : Nat) (f : TxFlit) (c : Chip) : Chip := c |> modLink e (fun L => { L with queue := L.queue ++ [f] }) |> pump e

/-- Every unacknowledged frame sent again, in order (R315). -/
def resendFrames (e : Nat) (c : Chip) : Chip :=
  forAll (fun x c => sendFrame e 0 x.1 (slotFlits x.2) c) (linkAt c e).retry c

/-- Frames up to the acknowledged one leave the retry buffer (R315). -/
def takeAck (e a : Nat) (c : Chip) : Chip :=
  let r := (linkAt c e).retry
  if r.any (fun x => x.1 == a) then
    c |> modLink e (fun L => { L with retry := (r.dropWhile (fun x => x.1 != a)).drop 1 }) |> noteRetry e
  else c

/-- ACK and credits of a frame with a good CRC (R315, R316). -/
def takeFields (e : Nat) (f : BitVec 256) (c : Chip) : Chip :=
  let v := frCredVc f
  c |> takeAck e (frAck f)
    |> when_ (decide (v < 10)) (fun c => putNum (Reg.NLK_CREDIT e v) (min 192 (txCredit c e v + frCredN f)) c)

/-- A flit leaves a receive buffer: its credit is owed, and an idle frame returns it (R316). -/
def popRx (e v n : Nat) (c : Chip) : Chip :=
  c |> setRx e v ((rxAt c e v).drop n)
    |> modLink e (fun L => { L with
        owed := setNum v (numOf L.owed v + n) L.owed
        fwd := mapPut (fun _ => false) L.fwd v false, loc := mapPut (fun _ => false) L.loc v false })
    |> sendFrame e 1 0 []

/-! ### Bring-up and retrain (R317, R318) -/

/-- Whether engine `e` may bring up a link: its domain is ON, the floor plan lists it as good and its dimension has more
than one position (R310, R427). -/
def linkUsable (c : Chip) (e : Nat) : Bool :=
  domOn c (84 + e) && engineGood c e && (if e < 4 then decide (1 < torusX c) else decide (1 < torusY c))

/-- The fabric is larger than the licence grants (R310). -/
def overLicence (c : Chip) : Bool := decide (grantQty c 3 < torusX c * torusY c)

/-- Training from a link that holds nothing (R317). -/
def beginTraining (e : Nat) (c : Chip) : Chip :=
  c |> modLink e (fun L => { L with
        txSeq := 0, retry := [], rxNext := 0, nak := false, retraining := false, readySent := false, helloDue := false, owed := [] })
    |> noteRetry e |> setLinkState e 1

/-- NLK_EN_SET (R310, R317). -/
def linkEnableE (e : Nat) (c : Chip) : Chip :=
  if !domOn c (84 + e) then c
  else
    let c := setBit (Reg.NLK_CTRL e) 31 true c
    if linkState c e ≠ 0 ∨ !linkUsable c e then c
    else if overLicence c then raise Reg.GW_FAULT 6 c
    else beginTraining e c

/-- The slots of a control frame (Table 11.5). -/
def controlSlots (c : Chip) (e ctype : Nat) : List DWord :=
  let free (v : Nat) : Nat := 192 - (rxAt c e v).length
  let sum (a n : Nat) : Nat := ((List.range n).map (fun i => free (a + i) * 2 ^ (8 * i + 8))).foldl (· + ·) 0
  [BitVec.ofNat 64 (mk 63 60 ctype + mk 59 50 (ownId c) + mk 49 47 e + mk 46 42 (torusX c - 1) + mk 41 37 (torusY c - 1)),
   BitVec.ofNat 64 (sum 0 7), BitVec.ofNat 64 (sum 7 3)]

/-- A control frame sent. -/
def sendControl (e ctype : Nat) (c : Chip) : Chip := sendFrame e 3 0 (controlSlots c e ctype) c

/-- FREE of FVC `v` in a control frame. -/
def frFree (f : BitVec 256) (v : Nat) : Nat :=
  if v < 7 then bits (frSlot f 1).toNat (8 * v + 15) (8 * v + 8) else bits (frSlot f 2).toNat (8 * (v - 7) + 15) (8 * (v - 7) + 8)

/-- Whether a control frame is of type `ctype` with a good CRC. -/
def isControl (f : BitVec 256) (ctype : Nat) : Bool :=
  frameOk f && frType f == 3 && bits (frSlot f 0).toNat 63 60 == ctype

/-- Whether the peer of a control frame is the one that R317 expects. -/
def peerOk (c : Chip) (e : Nat) (f : BitVec 256) : Bool :=
  let s := (frSlot f 0).toNat
  bits s 59 50 == devNext c (ownId c) (e / 2) && bits s 49 47 == e.xor 2 && bits s 46 42 == torusX c - 1 &&
    bits s 41 37 == torusY c - 1

/-- LINK_TRAINED (R307, R317, step 1): the handshake begins with HELLO. In the handshake HELLO is sent again while the peer's
has not come; the spec gives no interval, and the model sends it with each further command (DESIGN CHOICE, log entry 179). -/
def linkTrained (e lanes : Nat) (c : Chip) : Chip :=
  if linkState c e = 2 ∧ (linkAt c e).helloDue then sendControl e 0 c
  else if linkState c e = 1 ∨ linkState c e = 4 then
    let c := setFld (Reg.NLK_STATUS e) 27 20 lanes c
    let half := lanes % 16 == 15 || lanes / 16 == 15
    if lanes = 255 ∨ (rflag c (Reg.NLK_CTRL e) 8 ∧ half) then
      c |> setBit (Reg.NLK_STATUS e) 28 (decide (lanes ≠ 255)) |> setLinkState e 2
        |> modLink e (fun L => { L with readySent := false, helloDue := true }) |> sendControl e 0
    else c
  else c

/-- HELLO (R315, R317, steps 1 and 2): its ACK and credits are taken, and the peer is checked. -/
def hello (e : Nat) (f : BitVec 256) (c : Chip) : Chip :=
  if linkState c e = 2 ∧ isControl f 0 then
    let c := c |> takeFields e f |> modLink e (fun L => { L with helloDue := false })
    if peerOk c e f then
      c |> setFld (Reg.NLK_STATUS e) 12 10 (bits (frSlot f 0).toNat 49 47)
        |> setFld (Reg.NLK_STATUS e) 9 0 (bits (frSlot f 0).toNat 59 50)
        |> sendControl e 1
    else raise (Reg.NLK_FAULT e) 5 c
  else c

/-- Flits of FVC `v` in unacknowledged frames. -/
def unacked (c : Chip) (e v : Nat) : Nat :=
  (((linkAt c e).retry.flatMap (fun x => x.2)).filter (fun f => f.fvc == v)).length

/-- HELLO_ACK (R315, R317, steps 2 to 4): credits, frames sent again, READY. -/
def helloAck (e : Nat) (f : BitVec 256) (rtt : Nat) (c : Chip) : Chip :=
  if linkState c e = 2 ∧ isControl f 1 then
    let c := takeFields e f c
    if peerOk c e f then
      c |> (fun c => forAll (fun v c => putNum (Reg.NLK_CREDIT e v) (frFree f v - unacked c e v) c) (List.range 10) c)
        |> modLink e (fun L => { L with owed := [], nak := false })
        |> putNum (Reg.NLK_RTT e) (min rtt 65535)
        |> resendFrames e |> sendControl e 2 |> modLink e (fun L => { L with readySent := true })
    else raise (Reg.NLK_FAULT e) 5 c
  else c

/-- READY (R317, step 4): the side that has sent READY enters up; it awaits nothing from its peer. -/
def linkReady (e : Nat) (c : Chip) : Chip :=
  if linkState c e = 2 ∧ (linkAt c e).readySent then
    c |> setLinkState e 3 |> modLink e (fun L => { L with retraining := false, readySent := false }) |> pump e
  else c

/-- A retrain begins (R317). -/
def beginRetrain (e : Nat) (c : Chip) : Chip :=
  if linkIsUp c e then
    c |> setLinkState e 4 |> modLink e (fun L => { L with retraining := true, readySent := false, helloDue := false })
      |> count (Reg.NLK_RETRAINS e) 1 |> raise (Reg.NLK_FAULT e) 2
  else c

/-- A lane loses lock (R317): a retrain begins, in the handshake as well. -/
def laneLost (e lane : Nat) (c : Chip) : Chip :=
  let again := when_ (linkState c e == 2) (setLinkState e 3)
  c |> setBit (Reg.NLK_STATUS e) (20 + lane) false |> again |> beginRetrain e

/-! ### Sending into the fabric (R311 to R313, R319, R323) -/

/-- The EPOCH that a packet's flits belong to: that of its first flit, none for a collective or a mark (R336). -/
def packetEpoch : List (DWord × Bool × Bool × Bool) → Option Nat
  | [] => none
  | f :: rest => if fKind f.1 = 3 ∨ (fKind f.1 = 7 ∧ rest.isEmpty) then none else some (fEpoch f.1)

/-- The flits of a packet on FVC `v` as they wait to leave. -/
def txFlits (v : Nat) (tb : Option Nat) (fs : List (DWord × Bool × Bool × Bool)) : List TxFlit :=
  fs.map (fun f => { fvc := v, flit := tagged f.1 v f.2.1 f.2.2.1 f.2.2.2, tb := tb, epoch := packetEpoch fs })

/-- The flits of a packet queued on the engine that direction `d` and lane `l` give, none when no engine is up. -/
def fabQueue (k d l : Nat) (cameBy : Option (Nat × Nat)) (tb : Option Nat) (fs : List (DWord × Bool × Bool × Bool))
    (c : Chip) : Option Chip :=
  (engineFor c d l).map (fun e =>
    c |> modLink e (fun L => { L with queue := L.queue ++ txFlits (outFvc c k d cameBy) tb fs }) |> pump e)

/-- A single flit as a packet. -/
def single (d : DWord) : List (DWord × Bool × Bool × Bool) := [(d, true, true, false)]

/-- The flits of a packet with HEAD and TAIL marked; each comes with its POISON. -/
def headTail (fs : List (DWord × Bool)) : List (DWord × Bool × Bool × Bool) :=
  let n := fs.length
  ((List.range n).zip fs).map (fun x => (x.2.1, x.1 == 0, x.1 + 1 == n, x.2.2))

/-- The prefix flit of a packet (Table 11.7). -/
def prefixFlit (h : DWord) (dest src lane fenceNo : Nat) : DWord :=
  BitVec.ofNat 64 (mk 63 61 (fKind h) + mk 60 60 (fEpoch h) + mk 59 59 (b2n (fFence h)) + mk 55 46 dest +
    mk 45 36 src + mk 35 35 lane + mk 34 27 fenceNo)

/-- The tap that engine `e`'s gateway uses of itself: its first good one (R38). -/
def gatewayOut (c : Chip) (e : Nat) : Nat := ((engineTaps e).find? (tapGood c)).getD ((engineTaps e).getD 0 0)

/-- A request without a path answered with STATUS 2 to its source device (R323): `e` is the engine of the gateway or
switch that holds it. -/
def refuseRequest (e : Nat) (p h : DWord) (c : Chip) : Chip :=
  let tap := gatewayOut c e
  let r := headBack 5 (fEpoch h) (fSrc h) 0 (2 * 8192 + fSub h % 8192) (tapTile tap)
  match fabDir c (pSrc p) with
  | none => sendPacket (tapTile tap) 5 (packet 4 r []) c
  | some d => (fabQueue 3 d (pLane p) none none (headTail [(prefixFlit r (pSrc p) (ownId c) (pLane p) 0, false), (r, false)]) c).getD c

/-- The flits waiting on a link that has failed: they move to the other engine of the pair; without it events, messages and
replies are dropped and counted, and a request is answered (R313, R323). -/
def moveFlits (e : Nat) : List TxFlit → Chip → Chip
  | [], c => c
  | f :: rest, c =>
    let c :=
      if linkIsUp c (e.xor 1) then queueFlit (e.xor 1) f c
      else if f.fvc < 2 then (if isMark f.flit then c else unreachEvent f.tb f.flit c)
      else if !xHead f.flit || f.epoch.isNone then c
      else if f.fvc / 2 = 2 then
        match rest.find? (fun x => x.fvc == f.fvc) with
        | some h => c |> raise Reg.GW_FAULT 3 |> refuseRequest e f.flit h.flit
        | none => raise Reg.GW_FAULT 3 c
      else c |> count Reg.GW_DROP_UNREACH 1 |> raise Reg.GW_FAULT 3
    moveFlits e rest c

/-- The link holds nothing any more: event copies in its retry buffer are unreachable drops (R317). -/
def dropLink (e : Nat) (c : Chip) : Chip :=
  let L := linkAt c e
  let lost := (L.retry.flatMap (fun x => x.2)).filter (fun f => decide (f.fvc < 2) && !isMark f.flit)
  c |> modLink e (fun L => { L with retry := [], queue := [] }) |> noteRetry e
    |> forAll (fun f => unreachEvent f.tb f.flit) lost |> moveFlits e L.queue

/-- RETRAIN_FAIL (R317). -/
def retrainFail (e : Nat) (c : Chip) : Chip :=
  if linkState c e = 4 ∨ (linkState c e = 2 ∧ (linkAt c e).retraining) then
    c |> setLinkState e 5 |> raise (Reg.NLK_FAULT e) 3 |> dropLink e
  else c

/-- TRAIN_RETRY (R317): once a second while EN is 1. -/
def trainRetry (e : Nat) (c : Chip) : Chip :=
  if linkState c e = 5 ∧ rflag c (Reg.NLK_CTRL e) 31 ∧ linkUsable c e then beginTraining e c else c

/-- NLK_CTRL.EN cleared: the link is given up. -/
def linkDisableE (e : Nat) (c : Chip) : Chip :=
  c |> setBit (Reg.NLK_CTRL e) 31 false |> setReg (Reg.NLK_STATUS e) 0#32 |> dropLink e

/-- NLK_CREDIT_WDOG (R318): a flit of FVC `v` waits without credit. -/
def creditWdog (e v : Nat) (c : Chip) : Chip :=
  if linkIsUp c e && txCredit c e v == 0 && (linkAt c e).queue.any (fun f => f.fvc == v) then
    c |> raise (Reg.NLK_FAULT e) 4 |> beginRetrain e
  else c

/-! ### Reception (R315) -/

/-- The unacknowledged frames resent, and a retrain where retries have become too many; `recent`: retries within the
last 1 ms, this one included (R315, R317). -/
def retryAll (e recent : Nat) (c : Chip) : Chip :=
  c |> resendFrames e |> count (Reg.NLK_RETRIES e) 1
    |> when_ (decide (max 1 (rfld c (Reg.NLK_CFG e) 15 0) ≤ recent)) (beginRetrain e)

/-- RETRY_REQUEST (R315). -/
def retryRequest (e : Nat) (f : BitVec 256) (recent : Nat) (c : Chip) : Chip :=
  if linkIsUp c e && frameOk f && frType f == 2 then c |> takeFields e f |> retryAll e recent |> pump e else c

/-- RETRY_TIMEOUT (R315). -/
def retryTimeout (e recent : Nat) (c : Chip) : Chip :=
  if linkIsUp c e && !(linkAt c e).retry.isEmpty then retryAll e recent c else c

/-- One retry request is sent for the first frame that fails (R315). -/
def askRetry (e : Nat) (c : Chip) : Chip :=
  if (linkAt c e).nak then c else c |> modLink e (fun L => { L with nak := true }) |> sendFrame e 2 0 []

/-- A flit of an accepted data frame enters its receive buffer (R316). -/
def pushRx (e : Nat) (f : DWord) (c : Chip) : Chip :=
  let v := bits f.toNat 7 4
  if v < 10 then setRx e v (rxAt c e v ++ [f]) c else c

/-- A data frame with a good CRC (R315). -/
def dataFrame (e : Nat) (f : BitVec 256) (c : Chip) : Chip :=
  if frSeq f = (linkAt c e).rxNext then
    c |> modLink e (fun L => { L with rxNext := (L.rxNext + 1) % 1024, nak := false })
      |> count (Reg.NLK_RX_FRAMES e) 1
      |> forAll (pushRx e) ((List.range (frSlots f)).map (frSlot f))
      |> sendFrame e 1 0 []
  else askRetry e c

/-- A frame with a bad CRC (R307, R315): whether FEC had found its codeword not correctable is a free value (log entry 55). -/
def badFrame (e : Nat) (c : Chip) : Chip :=
  let (x, c) := takeFree c
  c |> count (Reg.NLK_CRC_ERR e) 1 |> raise (Reg.NLK_FAULT e) 0
    |> when_ (x.getLsbD 0) (fun c => c |> count (Reg.NLK_FEC_UNCORR e) 1 |> raise (Reg.NLK_FAULT e) 1)
    |> askRetry e

/-- A control frame with a good CRC (R315, R317): it takes its handshake step; out of place it brings its ACK and credits. -/
def controlFrameRx (e : Nat) (f : BitVec 256) (c : Chip) : Chip :=
  match bits (frSlot f 0).toNat 63 60 with
  | 0 => if linkIsUp c e then takeFields e f c else hello e f c
  | 1 => if linkIsUp c e then takeFields e f c else helloAck e f (rfld c (Reg.NLK_RTT e) 15 0) c
  | 2 => c |> takeFields e f |> linkReady e
  | _ => takeFields e f c

/-- LINK_FRAME_RX (R315): a frame is received in handshake or up; ACK and credits are taken from every one with a good CRC. -/
def frameRx (e : Nat) (f : BitVec 256) (c : Chip) : Chip :=
  if linkState c e ≠ 2 ∧ !linkIsUp c e then c
  else if !frameOk f then badFrame e c
  else
    match frType f with
    | 0 => c |> takeFields e f |> dataFrame e f |> pump e
    | 1 => c |> takeFields e f |> pump e
    | 2 => if linkIsUp c e then retryRequest e f 0 c else takeFields e f c
    | _ => c |> controlFrameRx e f |> pump e

/-! ### Meanings -/

/-- NLK_EN_SET. -/
def execNlkEnSet (e : Fin 8) (s : State) : Host.Outcome State Fault Refusal := done s (linkEnableE e.val s.chip)

/-- LINK_TRAINED. -/
def execLinkTrained (e : Fin 8) (lanes : Byte) (s : State) : Host.Outcome State Fault Refusal :=
  done s (linkTrained e.val lanes.toNat s.chip)

/-- HELLO. -/
def execHello (e : Fin 8) (frame : BitVec 256) (s : State) : Host.Outcome State Fault Refusal :=
  done s (hello e.val frame s.chip)

/-- HELLO_ACK. -/
def execHelloAck (e : Fin 8) (frame : BitVec 256) (rtt : Nat) (s : State) : Host.Outcome State Fault Refusal :=
  done s (helloAck e.val frame rtt s.chip)

/-- READY. -/
def execReady (e : Fin 8) (s : State) : Host.Outcome State Fault Refusal := done s (linkReady e.val s.chip)

/-- RETRAIN: a write of NLK_CTRL.RETRAIN. -/
def execRetrain (e : Fin 8) (s : State) : Host.Outcome State Fault Refusal := done s (beginRetrain e.val s.chip)

/-- RETRAIN_FAIL. -/
def execRetrainFail (e : Fin 8) (s : State) : Host.Outcome State Fault Refusal := done s (retrainFail e.val s.chip)

/-- TRAIN_RETRY. -/
def execTrainRetry (e : Fin 8) (s : State) : Host.Outcome State Fault Refusal := done s (trainRetry e.val s.chip)

/-- LINK_FRAME_RX. -/
def execLinkFrameRx (e : Fin 8) (frame : BitVec 256) (s : State) : Host.Outcome State Fault Refusal :=
  done s (frameRx e.val frame s.chip)

/-- RETRY_REQUEST. -/
def execRetryRequest (e : Fin 8) (frame : BitVec 256) (recent : Nat) (s : State) : Host.Outcome State Fault Refusal :=
  done s (retryRequest e.val frame recent s.chip)

/-- RETRY_TIMEOUT. -/
def execRetryTimeout (e : Fin 8) (recent : Nat) (s : State) : Host.Outcome State Fault Refusal :=
  done s (retryTimeout e.val recent s.chip)

/-- NLK_CREDIT_WDOG. -/
def execNlkCreditWdog (e : Fin 8) (v : Fin 10) (s : State) : Host.Outcome State Fault Refusal :=
  done s (creditWdog e.val v.val s.chip)

/-- OPTICAL_LANE_LOSES_LOCK. -/
def execOpticalLaneLosesLock (e : Fin 8) (lane : Fin 8) (s : State) : Host.Outcome State Fault Refusal :=
  done s (laneLost e.val lane.val s.chip)

end Sys2Proof.Machine
end

