-- ==== Sys2Proof/Machine/Fabric.lean ====
section
/-!
DEFINITION. The gateways, the fabric switch and the fabric collectives (R309, R319 to R339).
-/

namespace Sys2Proof.Machine

/-! ### Sending into the fabric (R311 to R313, R323) -/

/-- The gateways changed. -/
def modGw (f : Gateway → Gateway) (c : Chip) : Chip := { c with gw := f c.gw }

/-- An event sent in direction `d`, or dropped without a path. -/
def sendEvent (d : Nat) (cameBy : Option (Nat × Nat)) (tb : Option Nat) (f : DWord) (c : Chip) : Chip :=
  match fabQueue 0 d (xLane f) cameBy tb (single f) c with
  | some c' => c'
  | none => unreachEvent tb f c

/-- Class of a packet's KIND (Table 11.2). -/
def classOf (kind : Nat) : Nat := match kind with | 2 => 1 | 4 => 2 | 5 => 3 | 7 => 4 | 3 => 4 | _ => 0

/-- A packet without a path (R323). -/
def unreachPacket (e : Nat) (fs : List DWord) (c : Chip) : Chip :=
  match fs with
  | p :: h :: _ =>
    let c := raise Reg.GW_FAULT 3 c
    if fKind p = 4 then refuseRequest e p h c else count Reg.GW_DROP_UNREACH 1 c
  | _ => c

/-- A packet sent in direction `d`: prefix first, each flit with its POISON. -/
def sendFabPacket (e d : Nat) (cameBy : Option (Nat × Nat)) (fs : List (DWord × Bool)) (c : Chip) : Chip :=
  match fs with
  | [] => c
  | p :: _ =>
    match fabQueue (classOf (fKind p.1)) d (pLane p.1) cameBy none (headTail fs) c with
    | some c' => c'
    | none => unreachPacket e (fs.map (fun f => f.1)) c

/-! ### Outbound (R321, R322, R326, R338) -/

/-- The job whose events leave at tap `k`: that of the tap's field when it spans devices, the lowest enabled job of the
gateways else. -/
def tapTb (c : Chip) (k : Nat) : Nat :=
  match jobOfTile c (tapTile k) with
  | some j => if (jobAt c j).multi then (jobAt c j).tb else fabTb c
  | none => fabTb c

/-- The step that consumes what is sent now: the step after the one whose update opened the parity (R338). -/
def consumingStep (c : Chip) (tb : Nat) : Nat :=
  let s := jobStep c (jobOfTb c tb)
  match (tbAt c tb).phase with | .update | .settle => nextStep s | _ => s

/-- A sent flit held for replay at gateway `e`; the two most recent consuming steps of each job stay (R338). -/
def holdFlit (e tb : Nat) (f : DWord) (c : Chip) : Chip :=
  let s := consumingStep c tb
  let old := (listOf c.gw.hold e).filter (fun x => x.2.1 != tb || x.1 == s || nextStep x.1 == s)
  if old.length < 131072 then modGw (fun G => { G with hold := setList e (old ++ [(s, tb, f)]) G.hold }) c
  else c |> modGw (fun G => { G with hold := setList e old G.hold, notHeld := G.notHeld ++ [(tb, s)] })
    |> count Reg.GW_HOLD_OVF 1 |> raise Reg.GW_FAULT 4

/-- The next FENCE_NO of gateway `e` toward device `dest`. -/
def fenceNo (c : Chip) (e dest : Nat) : Nat := (numOf c.gw.fenceNo (1024 * e + dest) + 1) % 256

/-- A FENCE mark sent on the other lane before a fenced flit of class `k` (R326). -/
def sendFence (e k d lane dest tb : Nat) (c : Chip) : Chip :=
  let n := fenceNo c e dest
  let c := modGw (fun G => { G with fenceNo := setNum (1024 * e + dest) n G.fenceNo }) c
  (fabQueue k d (1 - lane) none none (single (fenceMark tb (1 - lane) (ownId c) dest n)) c).getD c

/-- The outbound entry of slot `s`, index `i` of direction `d`. -/
def outEntry (c : Chip) (d s i : Nat) : Nat := (mapGet (fun _ => 0#64) c.gw.outTable ((2 * d + s) * 32768 + i)).toNat

/-- The fabric event flit of an outbound entry and a mesh flit (R321, Table 11.6). -/
def fabricEvent (x : Nat) (f : DWord) : DWord :=
  BitVec.ofNat 64 (mk 63 61 (fKind f) + mk 60 60 (fEpoch f) + mk 59 59 (b2n (fFence f)) + mk 58 58 (fParity f) +
    mk 57 56 (bits x 61 60) + mk 55 46 (bits x 59 50) + mk 45 41 (bits x 49 45) + mk 40 40 (bits x 62 62) +
    mk 39 22 (bits x 44 27) + mk 21 14 (fValue f))

/-- The first event at gateway tap `k`, off the tap. -/
def tapEvent (k : Nat) (c : Chip) : Option (DWord × Chip) :=
  match tapTake k 0 c with
  | some (h, _, c') => some (h.data, c')
  | none => (tapTake k 1 c).map (fun r => (r.1.data, r.2.2))

/-- The direction in which a fabric event leaves its source device (R311, R328). -/
def firstDir (c : Chip) (f : DWord) : Option Nat :=
  match xCast f with
  | 1 => some 1
  | 2 => match fabDir c (devY (ownId c) * 32 + devX (xDest f)) with | some d => some d | none => some 3
  | _ => fabDir c (xDest f)

/-- A fabric event leaves its own gateway `e` (R321, R326, R338). -/
def emitFabric (e tb : Nat) (f : DWord) (c : Chip) : Chip :=
  match firstDir c f with
  | none => c
  | some d =>
    c |> fabTally tb (fParity f) 0 (copiesBeyond c f)
      |> when_ (fFence f) (sendFence e 0 d (xLane f) (xDest f) tb)
      |> sendEvent d none (some tb) f

/-- The outbound entry that a mesh event finds in direction `d`, none where the event has no key there (R321). -/
def outboundEntry (c : Chip) (d : Nat) (f : DWord) : Option Nat :=
  let w := reg c (Reg.GW_OUT_WIN d)
  let i := (fAxon f + 65536 - fld w 31 16) % 65536
  let x := outEntry c d (fEpoch f) i
  if min (fld w 15 0) 32768 ≤ i ∨ !bit x 63 ∨ bits x 61 60 = 3 then none else some x

/-- An event of timebase `tb` taken by the outbound gateway of engine `e` (R321). -/
def outbound (e tb : Nat) (f : DWord) (c : Chip) : Chip :=
  let c := gwTally tb (fParity f) 1 1 c
  match outboundEntry c (e / 2) f with
  | none => c |> count Reg.GW_DROP_NOKEY 1 |> raise Reg.GW_FAULT 1
  | some x => c |> holdFlit e tb (fabricEvent x f) |> emitFabric e tb (fabricEvent x f)

/-- OUTBOUND_EVENT (R321): while a replay's resend is awaited the job's live traffic waits (R338). -/
def outboundEvent (k : Nat) (c : Chip) : Chip :=
  match tapUnit k with
  | .engine e =>
    let tb := tapTb c k
    if (jobAt c (jobOfTb c tb)).resendDue then c
    else match tapEvent k c with
      | some (f, c') => outbound e tb f c'
      | none => c
  | _ => c

/-- Whether reply head `h` answers the request `a`: it goes to its SRC tile with its TAG. -/
def answersTo (h : DWord) (a : Asked) : Bool := fKind h == 5 && tileAt (fDx h) (fDy h) == a.tile && fSub h % 8192 == a.tag

/-- The device that a packet with head `h` leaves for: of a reply, the source device of the oldest request that it answers
(R319), which is answered by it; else the one its command names. -/
def packetDest (h : DWord) (dest : Nat) (c : Chip) : Nat × Chip :=
  match takeFirst (answersTo h) c.gw.asked with
  | some (a, rest) => (a.src, modGw (fun G => { G with asked := rest }) c)
  | none => (dest, c)

/-- The head of the packet that gateway tap `k` sends next. -/
def nextPacketHead (k : Nat) (c : Chip) : Option DWord :=
  ([2, 3, 4, 5].findSome? (fun v => tapTake k v c)).map (fun x => x.1.data)

/-- OUTBOUND_PACKET (R319, R322): the first packet of another class at gateway tap `k` leaves for device `dest`. -/
def outboundPacket (k dest : Nat) (c : Chip) : Chip :=
  match tapUnit k, nextPacketHead k c with
  | .engine e, some hd =>
    let dest := (packetDest hd dest c).1
    match fabDir c dest, [2, 3, 4, 5].findSome? (fun v => tapTake k v (packetDest hd dest c).2) with
    | some d, some (h, body, c) =>
      let lane := (fSrc h.data % 2).xor (dest % 2)
      let no := if fFence h.data then fenceNo c e dest else 0
      c |> when_ (fFence h.data) (sendFence e (classOf (fKind h.data)) d lane dest (tapTb c k))
        |> sendFabPacket e d none ((prefixFlit h.data dest (ownId c) lane no, false) ::
            (h.data, h.poison) :: body.map (fun f => (f.data, f.poison)))
    | _, _ => c
  | _, _ => c

/-! ### Inbound (R309, R324 to R326) -/

/-- Free tokens of lane `l` of direction `d` (R325). -/
def tokens (c : Chip) (d l : Nat) : Nat := rfld c (Reg.GW_TOK d) (16 * l + 9) (16 * l)

/-- Tokens set. -/
def setTokens (d l n : Nat) (c : Chip) : Chip := setFld (Reg.GW_TOK d) (16 * l + 9) (16 * l) n c

/-- Whether an arrived FENCE mark is of class `k`, came in direction `d` on lane `l`, and satisfies `f`. -/
def fenceIs (d l k : Nat) (f : DWord → Bool) (m : FenceHeld) : Bool :=
  m.dir == d && m.lane == l && bits m.mark.toNat 7 4 / 2 == k && f m.mark

/-- Whether a FENCE mark of class `k` that satisfies `f` has arrived in direction `d` on lane `l`. -/
def markFor (c : Chip) (d l k : Nat) (f : DWord → Bool) : Bool := c.gw.fmarks.any (fenceIs d l k f)

/-- That mark used up: the oldest one. -/
def useMark (d l k : Nat) (f : DWord → Bool) (c : Chip) : Chip :=
  match takeFirst (fenceIs d l k f) c.gw.fmarks with
  | some (_, rest) => modGw (fun G => { G with fmarks := rest }) c
  | none => c

/-- When the mark that releases a fenced event of direction `d` was accepted: the oldest one on the other lane `l`. A fabric
event has no bits for its ORIGIN and FENCE_NO (Table 11.6), so marks and fenced events of one path pair in order (DEDUCED,
log entry 46). -/
def eventMark (c : Chip) (d l : Nat) : Option Nat := (c.gw.fmarks.find? (fenceIs d l 0 (fun _ => true))).map (fun m => m.no)

/-- An event copy injected into the mesh on VC1: its token returns (R324, R325). -/
def injectCopy (x : Inbound) (c : Chip) : Chip :=
  c |> putWire (tapTile x.tap) 5 (oneFlit 1 x.flit)
    |> gwTally x.tb (fParity x.flit) 0 (copies x.flit)
    |> setTokens x.dir x.lane (tokens c x.dir x.lane + 1)

/-- Whether the fence of copy `x` is free (R326): its mark has come on the other lane, and every copy accepted there before
the mark, among those still held in `left`, has gone. -/
def fenceFree (c : Chip) (left : List Inbound) (x : Inbound) : Bool :=
  !x.fenced || (match eventMark c x.dir (1 - x.lane) with
    | some n => !left.any (fun y => y.dir == x.dir && y.lane != x.lane && decide (y.no < n))
    | none => false)

/-- The reassembly gone through once, oldest first: a copy that must wait holds back its lane (R325, R326). -/
def pumpReasm : List Inbound → List Inbound → Chip → Chip
  | [], kept, c => modGw (fun G => { G with reasm := kept }) c
  | x :: xs, kept, c =>
    let blocked := kept.any (fun y => y.dir == x.dir && y.lane == x.lane)
    if !blocked && fenceFree c (kept ++ xs) x && inRoom c (tapTile x.tap) 5 1 then
      c |> when_ x.fenced (useMark x.dir (1 - x.lane) 0 (fun _ => true)) |> injectCopy x |> pumpReasm xs kept
    else pumpReasm xs (kept ++ [x]) c

/-- Everything injected that can be: again while something goes, since a copy may free a fence behind it. -/
def injectRounds : Nat → Chip → Chip
  | 0, c => c
  | n + 1, c =>
    let c' := pumpReasm c.gw.reasm [] c
    if c'.gw.reasm.length < c.gw.reasm.length then injectRounds n c' else c'

/-- Everything injected that can be. -/
def injectAll (c : Chip) : Chip := injectRounds (c.gw.reasm.length + 1) c

/-- The tap that a gateway uses in place of tap `k`: `k` itself where it is good, else the next good one of its engine, else
of the direction's other engine, whose taps both gateways use (R38, R324). -/
def gatewayIn (c : Chip) (k : Nat) : Nat :=
  if tapGood c k then k
  else match tapUnit k with
    | .engine e => if (engineTaps e).any (tapGood c) then gatewayOut c e else gatewayOut c (2 * (e / 2) + (1 - e % 2))
    | _ => k

/-- Whether the field of tap `k` takes nothing, because the compute die or the field is in reset or not ON (R309, R40). -/
def tapInReset (c : Chip) (k : Nat) : Bool := !domOn c (fieldOf (tapTile k)) || dieInReset c

/-- The mesh event flit of a key table entry and a fabric event (R324). -/
def meshEvent (x : Nat) (f : DWord) : DWord :=
  mkEvent (fKind f) (fEpoch f) (b2n (fFence f)) (fParity f) (bits x 62 61) (bits x 60 54) (bits x 53 48) (bits x 47 41)
    (bits x 40 25) (xValue f)

/-- A local copy of a fabric event that engine `e` received (R309, R324). -/
def inboundCopy (e : Nat) (f : DWord) (c : Chip) : Chip :=
  let d := e / 2
  let i := 262144 * fEpoch f + xKey f
  let x := (mapGet (fun _ => 0#64) c.gw.keyTable i).toNat
  let err := numOf c.gw.ktMark (524288 * (e / 4) + i)
  let m := meshEvent x f
  let t := tileAt (bits x 60 54) (bits x 53 48)
  let ok := bit x 63 && bits x 62 61 != 3 && decide (bits x 24 21 < 10) && err != 2
  let tb := if ok then (tbOfTile c t).getD (fabTb c) else fabTb c
  let tap := gatewayIn c ((engineTaps (2 * d + bits x 24 21 / 5)).getD (bits x 24 21 % 5) 0)
  let l := xLane f
  let c := fabTally tb (fParity f) 1 1 c
  let c := if err = 2 then c |> count Reg.GW_KT_UE 1 |> raise Reg.GW_FAULT 5
    else if err = 1 then count Reg.GW_KT_CE 1 c else c
  if !ok then c |> count Reg.GW_DROP_NOKEY 1 |> raise Reg.GW_FAULT 1
  else if lateFlit c m then c |> count Reg.GW_DROP_LATE 1 |> raise Reg.GW_FAULT 0
  else if tapInReset c tap then count Reg.GW_DROP_RESET 1 c
  else if tokens c d l = 0 then c |> count Reg.GW_DROP_FULL 1 |> raise Reg.GW_FAULT 2
  else
    c |> setTokens d l (tokens c d l - 1)
      |> modGw (fun G => { G with
          stamp := G.stamp + 1
          reasm := G.reasm ++ [{ no := G.stamp, dir := d, lane := l, flit := m, tap := tap, tb := tb, fenced := fFence f }] })
      |> injectAll
      |> (fun c' => when_ (fFence f && c'.gw.reasm.any (fun y => y.no == c.gw.stamp)) (count Reg.GW_FENCE_HELD 1) c')

/-- Flags of a flit at the front of an FVC whose forward or local copy is made. -/
def setDone (e v : Nat) (fwd loc : Bool) (c : Chip) : Chip :=
  modLink e (fun L => { L with
    fwd := mapPut (fun _ => false) L.fwd v fwd, loc := mapPut (fun _ => false) L.loc v loc }) c

/-- The flit at the front of FVC `v` of engine `e` has been forwarded. -/
def isForwarded (c : Chip) (e v : Nat) : Bool := mapGet (fun _ => false) (linkAt c e).fwd v

/-- Its local copy has been made. -/
def isCopied (c : Chip) (e v : Nat) : Bool := mapGet (fun _ => false) (linkAt c e).loc v

/-- INBOUND_EVENT (R324, R328): the event at the front of FVC `v` makes its local copy; the forward and the copy never
wait for each other. -/
def inboundEvent (e v : Nat) (c : Chip) : Chip :=
  let c := injectAll c
  match rxAt c e v with
  | f :: _ =>
    let h := eventHop c f
    if !isEvent f || decide (2 ≤ v) then c
    else if xCast f = 3 then c |> popRx e v 1 |> count Reg.GW_DROP_NOKEY 1 |> raise Reg.GW_FAULT 1
    else if h.1 && !isCopied c e v then
      let last := h.2.isNone || isForwarded c e v
      c |> inboundCopy e f |> (if last then popRx e v 1 else setDone e v false true)
    else c
  | [] => c

/-- The flits of the packet at the front of a receive buffer, once it is complete. -/
def rxPacket : List DWord → Option (List DWord)
  | [] => none
  | f :: fs => if xTail f then some [f] else (rxPacket fs).map (fun r => f :: r)

/-- A received flit as a mesh flit, CHECK recomputed (R314). -/
def meshFlit (f : DWord) : DWord := withCheck f.toNat

/-- Whether the fence of a packet with prefix `p` of class `k` holds it (R326). -/
def fenceHolds (c : Chip) (d : Nat) (p : DWord) (k : Nat) : Bool :=
  fFence p && !markFor c d (1 - pLane p) k (fun m => kOrigin m == pSrc p && mFence m == pFence p)

/-- A request from the fabric remembered, so that its reply finds its source device (R319). -/
def noteAsked (p h : DWord) (c : Chip) : Chip :=
  when_ (fKind p == 4) (modGw (fun G => { G with asked := G.asked ++ [{ src := pSrc p, tile := fSrc h, tag := fSub h % 8192 }] })) c

/-- A packet from the fabric injected through tap `tap` (R319): each flit keeps its POISON. -/
def injectPacket (tap : Nat) (fs : List DWord) (c : Chip) : Chip :=
  match fs with
  | [] => c
  | h :: body =>
    let p := packet (vcOf (fKind h) false) (meshFlit h) (body.map meshFlit)
    sendPacket (tapTile tap) 5 ((p.zip fs).map (fun x => { x.1 with poison := xPoison x.2 })) c

/-- INBOUND_PACKET (R319, R309): a complete packet for this device at the front of FVC `v` enters the mesh by the tap of
engine `e` in tap row `row`. -/
def inboundPacket (e v row : Nat) (c : Chip) : Chip :=
  match rxPacket (rxAt c e v) with
  | some (p :: h :: body) =>
    let tap := gatewayIn c ((engineTaps e).getD row 0)
    if decide (v < 2) || isMark p || fKind p == 3 || xDest p != ownId c then c
    else if fenceHolds c (e / 2) p (v / 2) then
      if isCopied c e v then c else c |> setDone e v false true |> count Reg.GW_FENCE_HELD 1
    else
      c |> when_ (fFence p) (useMark (e / 2) (1 - pLane p) (v / 2) (fun m => kOrigin m == pSrc p && mFence m == pFence p))
        |> popRx e v (body.length + 2)
        |> (if tapInReset c tap then count Reg.GW_DROP_RESET 1 else fun c => c |> injectPacket tap (h :: body) |> noteAsked p h)
  | _ => c

/-- FENCE_MARK (R326): a mark for this device releases what it fences. -/
def fenceMarkRx (e v : Nat) (c : Chip) : Chip :=
  match rxAt c e v with
  | f :: _ =>
    if isMark f && kType f == 0 && mDest f == ownId c then
      c |> popRx e v 1
        |> modGw (fun G => { G with
            stamp := G.stamp + 1, fmarks := G.fmarks ++ [{ dir := e / 2, lane := kPar f, no := G.stamp, mark := f }] })
        |> injectAll
    else c
  | [] => c

/-! ### Transit (R313) -/

/-- Whether the switch's buffer of the FVC on which a packet of class `k` leaves has room for it (R313, R316); one without a
path needs none. -/
def switchRoom (c : Chip) (k d l : Nat) (cameBy : Option (Nat × Nat)) : Bool :=
  match engineFor c d l with
  | none => true
  | some e =>
    let v := outFvc c k d cameBy
    match ((linkAt c e).queue.filter (fun f => f.fvc == v)).length with
    | 0 => true
    | n + 1 => decide (n + 1 < Config.switchDepth e v)

/-- FABRIC_TRANSIT: what stands at the front of FVC `v` of engine `e` and goes on to another device enters the switch's buffer
toward it, once that has room. -/
def transit (e v : Nat) (c : Chip) : Chip :=
  match rxAt c e v with
  | [] => c
  | f :: _ =>
    let by_ := some (e / 2, v % 2)
    if isEvent f then
      match eventHop c f with
      | (loc, some d) =>
        if isForwarded c e v || !switchRoom c 0 d (xLane f) by_ then c
        else c |> sendEvent d by_ none f |> (if !loc || isCopied c e v then popRx e v 1 else setDone e v true false)
      | _ => c
    else if isMark f then
      if kType f = 0 then
        match fabDir c (mDest f) with
        | some d =>
          if switchRoom c (v / 2) d (kPar f) by_ then
            c |> (fun c => (fabQueue (v / 2) d (kPar f) by_ none (single f) c).getD c) |> popRx e v 1
          else c
        | none => c
      else c
    else if fKind f = 3 then c
    else
      match rxPacket (rxAt c e v), fabDir c (xDest f) with
      | some fs, some d =>
        if switchRoom c (classOf (fKind f)) d (pLane f) by_ then
          c |> sendFabPacket e d by_ (fs.map (fun x => (x, xPoison x))) |> popRx e v fs.length
        else c
      | _, _ => c

/-! ### Jobs of several devices (R332) -/

/-- A job's fabric state. -/
def fabJob (c : Chip) (j : Nat) : FabJob := mapGet (fun _ => {}) c.fabJobs j

/-- That state changed. -/
def modFab (j : Nat) (f : FabJob → FabJob) (c : Chip) : Chip :=
  { c with fabJobs := mapPut (fun _ => {}) c.fabJobs j (f (fabJob c j)) }

/-- ROOT of job `j`. -/
def jobRoot (c : Chip) (j : Nat) : Nat := rfld c (Reg.GW_JOB_CFG j) 9 0

/-- X0, WX, Y0, WY of job `j`. -/
def jobRect (c : Chip) (j : Nat) : Nat × Nat × Nat × Nat :=
  let r := reg c (Reg.GW_JOB_RECT j)
  (fld r 19 15, fld r 14 10 + 1, fld r 9 5, fld r 4 0 + 1)

/-- Whether device `id` belongs to job `j`. -/
def inRect (c : Chip) (j id : Nat) : Bool :=
  let (x0, wx, y0, wy) := jobRect c j
  decide (ringDist (torusX c) (devX id) x0 < wx) && decide (ringDist (torusY c) (devY id) y0 < wy)

/-- Whether the way from `a` to `b` goes up a dimension of size `s`, of which the job uses `w` positions from `o`. -/
def goesUp (s w o a b : Nat) : Bool :=
  if w < s then decide (ringDist s a o < ringDist s b o) else decide (2 * ringDist s b a ≤ s)

/-- The direction from device `id` toward the root of job `j` (R332). -/
def treeDir (c : Chip) (j id : Nat) : Option Nat :=
  let (x0, wx, y0, wy) := jobRect c j
  let r := jobRoot c j
  if devX id ≠ devX r then some (if goesUp (torusX c) wx x0 (devX id) (devX r) then 1 else 0)
  else if devY id ≠ devY r then some (if goesUp (torusY c) wy y0 (devY id) (devY r) then 3 else 2)
  else none

/-- The directions in which this device has children in the tree of job `j`. -/
def treeKids (c : Chip) (j : Nat) : List Nat :=
  (List.range 4).filter (fun d =>
    let n := devNext c (ownId c) d
    n != ownId c && inRect c j n && treeDir c j n == some (d.xor 1))

/-- Whether this device is the root of job `j`. -/
def isRoot (c : Chip) (j : Nat) : Bool := jobRoot c j == ownId c

/-- A collective flit sent in direction `d` (R320, R331); `cameBy` as in `outFvc`. -/
def sendColl (d : Nat) (cameBy : Option (Nat × Nat)) (f : DWord) (c : Chip) : Chip :=
  (fabQueue 4 d 0 cameBy none (single f) c).getD c

/-- How a collective flit that came in direction `d` arrived: the direction and the dateline half of its FVC (R312). -/
def collBy (d : Nat) (f : DWord) : Option (Nat × Nat) := some (d, bits f.toNat 4 4)

/-- A collective flit sent to the parent; `halves`: the dimensions in which a contribution to it came on half 1. -/
def sendUp (j fck par item v halves : Nat) (c : Chip) : Chip :=
  match treeDir c j (ownId c) with
  | some d => sendColl d (some (d, b2n (bit halves (d / 2)))) (collFlit fck (jobAt c j).tb 0 par item (ownId c) v) c
  | none => c

/-- A collective flit sent to every child. -/
def sendDown (j fck par item origin v : Nat) (cameBy : Option (Nat × Nat)) (c : Chip) : Chip :=
  forAll (fun d c => sendColl d cameBy (collFlit fck (jobAt c j).tb 1 par item origin v) c) (treeKids c j) c

/-- The first flit of collective `fck` of job `j` that has arrived and satisfies `ok`, with its direction; it leaves its
receive buffer. -/
def takeColl (j fck : Nat) (ok : DWord → Bool) (c : Chip) : Option (Nat × DWord × Chip) :=
  (List.range 8).findSome? (fun e => [8, 9].findSome? (fun v =>
    match rxAt c e v with
    | f :: _ => if fKind f == 3 && kType f == fck && kTb f == (jobAt c j).tb && ok f then some (e / 2, f, popRx e v 1 c) else none
    | [] => none))

/-- Combination of two contributions: the counts of CENSUS and DRAIN add up; BARRIER and REWIND carry one step. -/
def fabJoin (fck a b : Nat) : Nat := if fck = 3 ∨ fck = 7 then min (a + b) (2 ^ 31 - 1) else a

/-- A contribution from `who` (a direction, or 4 for the device itself) joined; the whole value once every child and the
device have contributed (R332). -/
def fabReduce (j fck par item who v : Nat) (c : Chip) : Option Nat × Chip :=
  let key := 64 * fck + 16 * par + item
  let z : Coll := { got := [], value := 0 }
  let k := mapGet (fun _ => z) (fabJob c j).coll key
  let k' : Coll := { got := k.got ++ [who], value := if k.got = [] then v else fabJoin fck k.value v }
  if (4 :: treeKids c j).all (fun x => k'.got.contains x) then
    (some k'.value, modFab j (fun F => { F with coll := mapErase F.coll key }) c)
  else (none, modFab j (fun F => { F with coll := mapPut (fun _ => z) F.coll key k' }) c)

/-- A contribution joined: a complete value goes up, or at the root to `top`. `half`: the dateline half on which it came. -/
def contribute (j fck par item who half v : Nat) (top : Nat → Chip → Chip) (c : Chip) : Chip :=
  let key := 64 * fck + 16 * par + item
  let m := (numOf (fabJob c j).halves key).lor (if who < 4 ∧ half = 1 then 2 ^ (who / 2) else 0)
  match fabReduce j fck par item who v c with
  | (some x, c) =>
    let c := modFab j (fun F => { F with halves := setNum key 0 F.halves }) c
    if isRoot c j then top x c else sendUp j fck par item x m c
  | (none, c) => modFab j (fun F => { F with halves := setNum key m F.halves }) c

/-- The device's own contribution for step `s` of collective `fck`, once. -/
def ownOnce (j fck s : Nat) (due : Bool) (f : Chip → Chip) (c : Chip) : Chip :=
  if due && numOf (fabJob c j).did fck != s + 1 then
    c |> modFab j (fun F => { F with did := setNum fck (s + 1) F.did }) |> f
  else c

/-- Whether job `j` takes part in the fabric here. -/
def jobInFabric (c : Chip) (j : Nat) : Bool := gwJobOn c j && inRect c j (ownId c)

/-! ### BARRIER, ALIGN_START, ALIGN_CHECK, EPOCH_SWITCH, DRAIN (Table 11.11) -/

/-- The barrier of step `v` is complete on this device (R74). -/
def barrierHere (j v : Nat) (c : Chip) : Chip :=
  if tickNow c (jobAt c j).tb % 2 ^ 31 = v then modTb (jobAt c j).tb (fun T => { T with barrier := true }) c else c

/-- BARRIER. -/
def barrier (j : Nat) (c : Chip) : Chip :=
  let tb : Nat := (jobAt c j).tb
  let top (v : Nat) (c : Chip) : Chip := c |> sendDown j 0 (v % 2) 0 (ownId c) v none |> barrierHere j v
  if !jobInFabric c j then c
  else match takeColl j 0 (fun _ => true) c with
    | some (d, f, c) =>
      if kDir f = 0 then contribute j 0 (kPar f) 0 d (bits f.toNat 4 4) (kValue f) top c
      else c |> sendDown j 0 (kPar f) 0 (kOrigin f) (kValue f) (collBy d f) |> barrierHere j (kValue f)
    | none =>
      let s := tickNow c tb
      ownOnce j 0 s (settleDone c tb) (contribute j 0 (s % 2) 0 4 0 (s % 2 ^ 31) top) c

/-- Item `i` of a broadcast kept. -/
def keepItem (j fck i v : Nat) (c : Chip) : Chip := modFab j (fun F => { F with items := setNum (4 * fck + i) (v + 1) F.items }) c

/-- Item `i` of a broadcast. -/
def itemOf (c : Chip) (j fck i : Nat) : Option Nat := match numOf (fabJob c j).items (4 * fck + i) with | 0 => none | n + 1 => some n

/-- Items of a broadcast forgotten. -/
def dropItems (j fck : Nat) (c : Chip) : Chip :=
  modFab j (fun F => { F with items := F.items.filter (fun x => x.1 / 4 != fck) }) c

/-- A 48-bit tick number from its two items (R320). -/
def tickOf (lo hi : Nat) : Nat := lo + hi % 2 ^ 17 * 2 ^ 31

/-- The items of an ALIGN_START that has come whole acted on (R79). An edge count of 0, to which the spec gives no meaning, acts
as 1 (DESIGN CHOICE, log entry 163). -/
def alignHere (j : Nat) (c : Chip) : Chip :=
  let tb : Nat := (jobAt c j).tb
  match itemOf c j 1 0, itemOf c j 1 1 with
  | some lo, some hi =>
    let set (c : Chip) : Chip := setReg2 (Reg.TICK_TB_START_LO tb) (Reg.TICK_TB_START_HI tb) (tickOf lo hi) c
    if tbEnabled c tb then dropItems j 1 c
    else if freeRun c tb then c |> set |> dropItems j 1 |> enableTb tb
    else match itemOf c j 1 2 with
      | some n => c |> set |> dropItems j 1 |> modTb tb (fun T => { T with alignEdges := some (max 1 n) })
      | none => c
  | _, _ => c

/-- A broadcast item received: forwarded to the children and kept. -/
def relayItem (j fck d : Nat) (f : DWord) (c : Chip) : Chip :=
  c |> sendDown j fck (kPar f) (kItem f) (kOrigin f) (kValue f) (collBy d f) |> keepItem j fck (kItem f) (kValue f)

/-- ALIGN_START (R79). -/
def alignStart (j : Nat) (c : Chip) : Chip :=
  if !jobInFabric c j then c
  else match takeColl j 1 (fun f => kDir f == 1) c with
    | some (d, f, c) => c |> relayItem j 1 d f |> alignHere j
    | none => c

/-- A broadcast of items from the root. -/
def rootItems (j fck : Nat) (vs : List Nat) (c : Chip) : Chip :=
  forAll (fun x c => c |> sendDown j fck 0 x.1 (ownId c) x.2 none |> keepItem j fck x.1 x.2) ((List.range vs.length).zip vs) c

/-- GW_CMD_ALIGN_START (R79, Table 11.17); in free-run mode the collective carries the start tick only. -/
def cmdAlignStart (j : Nat) (v : Word) (c : Chip) : Chip :=
  let tb : Nat := (jobAt c j).tb
  if flag v 31 && isRoot c j && jobInFabric c j then
    let s := reg2 c (Reg.TICK_TB_START_LO tb) (Reg.TICK_TB_START_HI tb) % 2 ^ 48
    let vs := [s % 2 ^ 31, s / 2 ^ 31] ++ (if freeRun c tb then [] else [fld v 23 16])
    c |> rootItems j 1 vs |> alignHere j
  else c

/-- An alignment check of tick number `n` on this device (R80). -/
def checkHere (j n : Nat) (c : Chip) : Chip :=
  let tb : Nat := (jobAt c j).tb
  let now := tickNow c tb
  if now = n ∨ now = nextStep n then c
  else c |> tbEvent tb 4 |> count (Reg.TICK_TB_ALIGN_ERR_COUNT tb) 1 |> reportJob j now 9 0 0

/-- ALIGN_CHECK (R80): the root's check, due at its update go, is sent; a check that has come whole is judged. -/
def alignCheck (j : Nat) (c : Chip) : Chip :=
  if !jobInFabric c j then c
  else if (fabJob c j).checkDue && isRoot c j then
    let n := tickNow c (jobAt c j).tb
    c |> modFab j (fun F => { F with checkDue := false }) |> rootItems j 2 [n % 2 ^ 31, n / 2 ^ 31] |> dropItems j 2
  else match takeColl j 2 (fun f => kDir f == 1) c with
    | some (d, f, c) =>
      let c := relayItem j 2 d f c
      match itemOf c j 2 0, itemOf c j 2 1 with
      | some lo, some hi => c |> dropItems j 2 |> checkHere j (tickOf lo hi)
      | _, _ => c
    | none => c

/-- The switch that an EPOCH_SWITCH arms, as a write to SEAM_EPOCH_SWITCH (R335): VALUE [16] EPOCH, [15:0] T16. -/
def switchHere (j v : Nat) (c : Chip) : Chip :=
  seamSwitch (BitVec.ofNat 32 (2 ^ 31 + mk 24 24 (bits v 16 16) + mk 19 16 (jobAt c j).tb + bits v 15 0)) c

/-- EPOCH_SWITCH (R335). -/
def epochSwitch (j : Nat) (c : Chip) : Chip :=
  if !jobInFabric c j then c
  else match takeColl j 4 (fun f => kDir f == 1) c with
    | some (d, f, c) => c |> sendDown j 4 (kPar f) (kItem f) (kOrigin f) (kValue f) (collBy d f) |> switchHere j (kValue f)
    | none => c

/-- GW_CMD_EPOCH_SWITCH (R335). -/
def cmdEpochSwitch (j : Nat) (v : Word) (c : Chip) : Chip :=
  if flag v 31 && isRoot c j && jobInFabric c j then
    let x := fld v 24 24 * 65536 + fld v 15 0
    c |> sendDown j 4 0 0 (ownId c) x none |> switchHere j x
  else c

/-- The flits of epoch `e` in a receive buffer: the flits of a packet belong to the EPOCH of its first (R336); `cur` is that of
the packet the list begins within. -/
def rxHeld (e : Nat) : Option Nat → List DWord → Nat
  | _, [] => 0
  | cur, f :: fs =>
    let own : Option Nat := if xHead f then (if fKind f == 3 || isMark f then none else some (fEpoch f)) else cur
    b2n (own == some e) + rxHeld e own fs

/-- The flits of epoch `e` that this device holds in its outbound queues, retry buffers, switch and transit buffers,
reassembly and replay hold (R336). -/
def fabricHeld (c : Chip) (e : Nat) : Nat :=
  let q (fs : List TxFlit) : Nat := (fs.filter (fun f => f.epoch == some e)).length
  let n (fs : List DWord) : Nat := (fs.filter (fun f => fEpoch f == e)).length
  (c.links.map (fun x => q x.2.queue + q (x.2.retry.flatMap (fun r => r.2)) +
    (x.2.rx.map (fun r => rxHeld e none r.2)).foldl (· + ·) 0)).foldl (· + ·) 0 +
  n (c.gw.reasm.map (fun x => x.flit)) + n (c.gw.hold.flatMap (fun h => h.2.map (fun x => x.2.2)))

/-- The sum of a DRAIN on this device (R336). -/
def drainHere (j v : Nat) (c : Chip) : Chip :=
  c |> putNum (Reg.GW_JOB_DRAIN j) (2 ^ 31 + min v (2 ^ 24 - 1)) |> gwEvent j 1

/-- A DRAIN of epoch `e` begins on this device: it contributes after a drain strobe of its own that begins from now on. -/
def drainAsked (j e : Nat) (c : Chip) : Chip :=
  c |> keepItem j 7 1 e |> modFab j (fun F => { F with drainDue := true, drainFrom := c.drains })

/-- Whether the device's own drain strobe for the epoch of the DRAIN has returned zero since the DRAIN came to it (R336). -/
def ownDrained (c : Chip) (j : Nat) : Bool :=
  (fabJob c j).drainDue && c.drain.isNone && decide ((fabJob c j).drainFrom < c.drains) &&
    c.drainEpoch == (itemOf c j 7 1).getD 0 && reg c Reg.SEAM_DRAIN_RESULT == 0x80000000#32

/-- FABRIC_DRAIN (R336): ITEM 1 away from the root asks for contributions, ITEM 0 carries the sum. A device contributes
after its own drain strobe has returned zero. -/
def fabricDrain (j : Nat) (c : Chip) : Chip :=
  let top (v : Nat) (c : Chip) : Chip := c |> sendDown j 7 0 0 (ownId c) v none |> drainHere j v
  if !jobInFabric c j then c
  else match takeColl j 7 (fun _ => true) c with
    | some (d, f, c) =>
      if kDir f = 0 then contribute j 7 0 0 d (bits f.toNat 4 4) (kValue f) top c
      else
        let c := sendDown j 7 0 (kItem f) (kOrigin f) (kValue f) (collBy d f) c
        if kItem f = 1 then drainAsked j (kValue f) c else drainHere j (kValue f) c
    | none =>
      if ownDrained c j then
        let v := fabricHeld c ((itemOf c j 7 1).getD 0)
        c |> modFab j (fun F => { F with drainDue := false }) |> contribute j 7 0 0 4 0 v top
      else c

/-- GW_CMD_DRAIN (R336). -/
def cmdDrain (j : Nat) (v : Word) (c : Chip) : Chip :=
  if flag v 31 && isRoot c j && jobInFabric c j then
    let e := fld v 24 24
    c |> putNum (Reg.GW_JOB_DRAIN j) 0 |> sendDown j 7 0 1 (ownId c) e none |> drainAsked j e
  else c

/-- Whether a reduce of job `j` has begun here and is not complete: contributions have come, or the device still owes its own
to a DRAIN or to the second REWIND round. -/
def reducing (c : Chip) (j : Nat) : Bool :=
  let F := fabJob c j
  !F.coll.isEmpty || F.drainDue || F.ackDue.isSome

/-- COLL_TIMEOUT (R333): a reduce that has begun has not completed in time. -/
def collTimeout (j : Nat) (c : Chip) : Chip := if reducing c j then gwEvent j 4 c else c

/-! ### FABRIC_CENSUS (R330) -/

/-- The step whose fabric census sums the counts of parity `par`: the step the device works on or, when the sums come after
its successor has begun, the one before (R330). -/
def censusStep (c : Chip) (j par : Nat) : Nat :=
  let s := jobStep c j
  if (s + 1) % 2 = par then s else prevStep s

/-- The verdict of a fabric census of parity `par` on this device: 0 balanced. -/
def censusHere (j par v : Nat) (c : Chip) : Chip :=
  let s := censusStep c j par
  if v = 0 then modJob j (fun J => { J with fabricOk := some s }) c else c |> gwEvent j 3 |> reportJob j s 2 0 0

/-- One item of the census complete at the root: with all three the balance is judged and the verdict broadcast. -/
def censusTop (j par item v : Nat) (c : Chip) : Chip :=
  let c := keepItem j 3 item v c
  match itemOf c j 3 0, itemOf c j 3 1, itemOf c j 3 2 with
  | some s, some r, some d =>
    let v := b2n (s != r + d)
    c |> dropItems j 3 |> sendDown j 3 par 0 (ownId c) v none |> censusHere j par v
  | _, _, _ => c

/-- FABRIC_CENSUS (R330): each device contributes when quiescence of the closing parity is complete. -/
def fabricCensus (j : Nat) (c : Chip) : Chip :=
  let tb : Nat := (jobAt c j).tb
  if !jobInFabric c j then c
  else match takeColl j 3 (fun _ => true) c with
    | some (d, f, c) =>
      if kDir f = 0 then contribute j 3 (kPar f) (kItem f) d (bits f.toNat 4 4) (kValue f) (censusTop j (kPar f) (kItem f)) c
      else c |> sendDown j 3 (kPar f) (kItem f) (kOrigin f) (kValue f) (collBy d f) |> censusHere j (kPar f) (kValue f)
    | none =>
      let T := tbAt c tb
      let s := jobStep c j
      let par := (s + 1) % 2
      ownOnce j 3 s (T.quiet && (jobAt c j).multi) (fun c =>
        forAll (fun i c => contribute j 3 par i 4 0 (numOf c.gw.fab (8 * tb + 4 * par + i)) (censusTop j par i) c)
          (List.range 3) c) c

/-! ### Fabric quiescence (R334) -/

/-- Whether an outbound gateway still holds an event of parity `par` of timebase `tb`, at a tap or for a link. -/
def outboundHolds (c : Chip) (tb par : Nat) : Bool :=
  c.links.any (fun x => x.2.queue.any (fun f => f.tb == some tb && fParity f.flit == par && isEvent f.flit)) ||
  c.tapIn.any (fun x => isGatewayTap (x.1 / 8) && decide (x.1 % 8 < 2) && tapTb c (x.1 / 8) == tb &&
    x.2.any (fun f => fParity f.data == par))

/-- END marks held: phase 0 row, 1 column. -/
def marksOf (c : Chip) (j phase par : Nat) : Nat := numOf (fabJob c j).marks (2 * phase + par)

/-- Whether this device has sent its own marks. -/
def marksSent (c : Chip) (j phase par : Nat) : Bool := mapGet (fun _ => false) (fabJob c j).sent (2 * phase + par)

/-- An END mark of both lanes sent in direction `d` over `hops` hops. -/
def sendEnd (j par phase d hops : Nat) (c : Chip) : Chip :=
  if hops = 0 then c
  else forAll (fun l c =>
    (fabQueue 0 d l none none (single (endMark (jobAt c j).tb par l phase (ownId c) hops)) c).getD c) [0, 1] c

/-- This device's own END marks of a phase sent in both directions (R334). -/
def sendEnds (j par phase : Nat) (c : Chip) : Chip :=
  let s := if phase = 0 then torusX c else torusY c
  c |> modFab j (fun F => { F with sent := mapPut (fun _ => false) F.sent (2 * phase + par) true })
    |> sendEnd j par phase (2 * phase + 1) (s / 2) |> sendEnd j par phase (2 * phase) ((s + 1) / 2 - 1)

/-- Own END marks sent as soon as they may be: row marks after update end with every event sent, column marks once all
row marks are held. The parity is that of the current update; a replay's resend comes first (R334, R356). -/
def ownEnds (j : Nat) (c : Chip) : Chip :=
  let tb : Nat := (jobAt c j).tb
  let T := tbAt c tb
  let J := jobAt c j
  let par := T.parity
  let past := match T.phase with | .settle => true | .integrate => true | _ => false
  if !jobInFabric c j || !past || J.resendDue || outboundHolds c tb par then c
  else
    let (_, wx, _, _) := jobRect c j
    let c := if marksSent c j 0 par then c else sendEnds j par 0 c
    if !marksSent c j 1 par && decide (2 * (wx - 1) ≤ marksOf c j 0 par) then sendEnds j par 1 c else c

/-- Own END marks of every job. -/
def allEnds (c : Chip) : Chip := forAll ownEnds ((List.range 16).filter (fun j => (jobAt c j).multi)) c

/-- Whether fabric quiescence of the open parity is reached: all column marks held and no event of the parity left in
reassembly (R334). -/
def fabricDone (c : Chip) (j : Nat) : Bool :=
  let tb : Nat := (jobAt c j).tb
  let par := (tbAt c tb).parity
  let (_, wx, _, wy) := jobRect c j
  marksSent c j 1 par && decide (2 * (wx - 1) ≤ marksOf c j 0 par) && decide (2 * (wy - 1) ≤ marksOf c j 1 par) &&
    !c.gw.reasm.any (fun x => x.tb == tb && fParity x.flit == par)

/-- Fabric quiescence noted when it is reached (R61). -/
def noteFabric (j now : Nat) (c : Chip) : Chip :=
  let tb : Nat := (jobAt c j).tb
  if !(tbAt c tb).fabricQuiet && fabricDone c j then
    c |> modTb tb (fun T => { T with fabricQuiet := true })
      |> putNum (Reg.GW_JOB_QLAST j) (min (now - (tbAt c tb).tickAt) 0x7FFFFF)
  else c

/-- Fabric quiescence of every job. -/
def noteFabrics (now : Nat) (c : Chip) : Chip :=
  c |> allEnds |> forAll (fun j c => noteFabric j now c) ((List.range 16).filter (fun j => (jobAt c j).multi))

/-- END_MARK (R334): the mark at the front of FVC `v` of engine `e` is counted and goes on while hops are left. -/
def endMarkRx (e v now : Nat) (c : Chip) : Chip :=
  match rxAt c e v with
  | f :: _ =>
    if isMark f && kType f == 1 then
      let j := jobOfTb c (kTb f)
      let key := 2 * kItem f + kDir f
      let d := (e / 2).xor 1
      let on_ : DWord := endMark (kTb f) (kDir f) (kPar f) (kItem f) (kOrigin f) (mHops f - 1)
      c |> popRx e v 1
        |> when_ (jobInFabric c j) (modFab j (fun F => { F with marks := setNum key (numOf F.marks key + 1) F.marks }))
        |> when_ (decide (1 < mHops f)) (fun c => (fabQueue 0 d (kPar f) (some (e / 2, v % 2)) none (single on_) c).getD c)
        |> noteFabrics now
    else noteFabrics now c
  | [] => noteFabrics now c

/-! ### What update go, rewinds and resends do (R322, R338, R352) -/

/-- Events that satisfy `f` taken out of the link queues. -/
def sweepQueues (f : TxFlit → Bool) (c : Chip) : List TxFlit × Chip :=
  (c.links.flatMap (fun x => x.2.queue.filter f),
    forAll (fun e c => modLink e (fun L => { L with queue := L.queue.filter (fun x => !f x) }) c) (c.links.map (fun x => x.1)) c)

/-- Events of parity `par` of timebase `tb` at the gateway taps: taken off them. -/
def sweepTaps (tb : Nat) (f : DWord → Bool) (c : Chip) : List (Nat × DWord) × Chip :=
  let mine (x : Nat × List Flit) : Bool := isGatewayTap (x.1 / 8) && decide (x.1 % 8 < 2) && tapTb c (x.1 / 8) == tb
  let gone (x : Flit) : Bool := f x.data
  let all := (c.tapIn.filter mine).flatMap (fun x => (x.2.filter gone).map (fun y => (x.1, y)))
  (all.map (fun x => (x.1 / 8, x.2.data)),
    c |> (fun c =>
          let left := c.tapIn.map (fun x => if mine x then (x.1, x.2.filter (fun y => !gone y)) else x)
          { c with tapIn := left.filter (fun x => !x.2.isEmpty) })
      |> forAll (fun x c => freeCredit (wireKey (tapTile (x.1 / 8)) 5 (x.1 % 8)) x.2 c) all)

/-- Reassembly copies that satisfy `f` dropped; their tokens return. -/
def sweepReasm (f : Inbound → Bool) (c : Chip) : List Inbound × Chip :=
  let gone := c.gw.reasm.filter f
  (gone, c |> modGw (fun G => { G with reasm := G.reasm.filter (fun x => !f x) })
    |> forAll (fun x c => setTokens x.dir x.lane (tokens c x.dir x.lane + 1) c) gone)

/-- The device copies of an event queued at gateway tap `k`, as its outbound entry gives them; none without one. -/
def tapCopies (c : Chip) (k : Nat) (f : DWord) : Nat :=
  match tapUnit k with
  | .engine e =>
    match outboundEntry c (e / 2) f with
    | some x => copiesBeyond c (fabricEvent x f)
    | none => 0
  | _ => 0

/-- Update go of timebase `tb` at the gateways: events of the closing parity `par` are dropped as late (R322, R279), and
the marks of that parity are used up. An event that still waits at a tap has been delivered to its gateway (Table 9.10): its
device copies count as sent into the fabric and as dropped. -/
def gwGo (tb par : Nat) (c : Chip) : Chip :=
  let j := jobOfTb c tb
  let (qs, c) := sweepQueues (fun x => x.tb == some tb && fParity x.flit == par && isEvent x.flit) c
  let (ts, c) := sweepTaps tb (fun f => fParity f == par) c
  let late (x : Nat × DWord) : Nat := tapCopies c x.1 x.2
  let (rs, c) := sweepReasm (fun x => x.tb == tb && fParity x.flit == par) c
  let n := qs.length + ts.length + rs.length
  c |> forAll (fun x c => fabTally tb par 2 (copiesBeyond c x.flit) c) qs
    |> gwTally tb par 1 ts.length
    |> forAll (fun x c => c |> fabTally tb par 0 (late x) |> fabTally tb par 2 (late x)) ts
    |> when_ (decide (0 < n)) (fun c => c |> count Reg.GW_DROP_LATE n |> raise Reg.GW_FAULT 0)
    |> modFab j (fun F => { F with
        marks := F.marks.filter (fun x => x.1 % 2 != par), sent := F.sent.filter (fun x => x.1 % 2 != par) })

/-- Whether the gateways are clean for parity `par` of timebase `tb` (R58, R61). -/
def gwClean (c : Chip) (tb par : Nat) : Bool :=
  !outboundHolds c tb par && !c.gw.reasm.any (fun x => x.tb == tb && fParity x.flit == par) &&
    (!(jobAt c (jobOfTb c tb)).multi || (tbAt c tb).fabricQuiet)

/-- The census counts of timebase `tb`'s parity `par` at the gateways cleared. -/
def gwClear (tb par : Nat) (c : Chip) : Chip :=
  let keep (m : Sparse Nat) : Sparse Nat := m.filter (fun x => x.1 / 4 != 2 * tb + par)
  modGw (fun G => { G with census := keep G.census, fab := keep G.fab }) c

/-- Rewind of step `f` at the gateways of timebase `tb`: queued events of the job are dropped, held flits that step
f + 1 would consume are discarded (Table 12.4). -/
def gwRewind (tb f : Nat) (c : Chip) : Chip :=
  let (_, c) := sweepQueues (fun x => x.tb == some tb && isEvent x.flit) c
  let (_, c) := sweepTaps tb (fun _ => true) c
  let (_, c) := sweepReasm (fun x => x.tb == tb) c
  let left := c.gw.hold.map (fun h => (h.1, h.2.filter (fun x => x.2.1 != tb || x.1 != nextStep f)))
  c |> modGw (fun G => { G with hold := left.filter (fun h => !h.2.isEmpty) })
    |> modFab (jobOfTb c tb) (fun F => { F with marks := [], sent := [] })

/-- Whether step `s` of timebase `tb` is held (R338): of the two most recent consuming steps, and no flit of it was sent
beyond the capacity. -/
def stepHeld (c : Chip) (tb s : Nat) : Bool :=
  let now := consumingStep c tb
  (s == now || nextStep s == now) && !c.gw.notHeld.contains (tb, s)

/-- The held flits of step `s` resent by every gateway (R338): each keeps its EPOCH and takes the open parity. -/
def gwResend (j s : Nat) (c : Chip) : Chip :=
  let tb : Nat := (jobAt c j).tb
  let par := (tbAt c tb).parity
  if stepHeld c tb s then
    c |> forAll (fun h c =>
          match h.2.filter (fun x => x.2.1 == tb && x.1 == s) with
          | [] => c
          | fs => c |> forAll (fun x c =>
                let f : DWord := BitVec.ofNat 64 (x.2.2.toNat - fParity x.2.2 * 2 ^ 58 + par * 2 ^ 58)
                emitFabric h.1 tb f c) fs |> count Reg.GW_REPLAYS 1) c.gw.hold
      |> allEnds
  else c |> gwEvent j 0 |> reportJob j s 8 0 0

/-! ### Tables (R339) -/

/-- The word held at `k` in a table of 64-bit entries. -/
def entryAt (m : Sparse DWord) (k : Nat) : DWord := mapGet (fun _ => 0#64) m k

/-- Position of GW_KT_ADDR in the key table. -/
def ktPos (c : Chip) : Nat := rfld c Reg.GW_KT_ADDR 18 0

/-- Position of GW_OUT_ADDR in the outbound tables. -/
def outPos (c : Chip) : Nat := rfld c Reg.GW_OUT_ADDR 17 0

/-- INDEX of a table's address register incremented. -/
def stepIndex (out : Bool) (c : Chip) : Chip :=
  if out then setFld Reg.GW_OUT_ADDR 14 0 (rfld c Reg.GW_OUT_ADDR 14 0 + 1) c
  else setFld Reg.GW_KT_ADDR 17 0 (rfld c Reg.GW_KT_ADDR 17 0 + 1) c

/-- GW_TABLE_COMMIT (R339): the write of DATA_HI commits the entry; the key table's goes into both copies (R324). -/
def tableCommit (out : Bool) (v : Word) (c : Chip) : Chip :=
  let put (lo hi : Nat) (c : Chip) : Chip :=
    let c := setReg hi v c
    let x := joinWords (reg c lo) v
    if out then modGw (fun G => { G with outTable := mapPut (fun _ => 0#64) G.outTable (outPos c) x }) c
    else modGw (fun G => { G with
      keyTable := mapPut (fun _ => 0#64) G.keyTable (ktPos c) x
      ktMark := setNum (ktPos c) 0 (setNum (524288 + ktPos c) 0 G.ktMark) }) c
  c |> (if out then put Reg.GW_OUT_DATA_LO Reg.GW_OUT_DATA_HI else put Reg.GW_KT_DATA_LO Reg.GW_KT_DATA_HI) |> stepIndex out

/-- What DATA_LO and DATA_HI of a table show: the low half of the addressed entry and the high half of the latched one. -/
def tableView (out high : Bool) (c : Chip) : Nat :=
  if high then (if out then c.gw.outLatch else c.gw.ktLatch).toNat / 2 ^ 32
  else (if out then entryAt c.gw.outTable (outPos c) else entryAt c.gw.keyTable (ktPos c)).toNat % 2 ^ 32

/-- What a read of DATA_LO (the latch of the entry) and of DATA_HI (the step of INDEX) does (R339). -/
def tableStep (out high : Bool) (c : Chip) : Chip :=
  if high then stepIndex out c
  else modGw (fun G => if out then { G with outLatch := entryAt G.outTable (outPos c) }
    else { G with ktLatch := entryAt G.keyTable (ktPos c) }) c

/-- GW_TABLE_READ (R339): a read of DATA_LO latches the entry, a read of DATA_HI returns the latched half and increments
INDEX. -/
def tableRead (out high : Bool) (c : Chip) : Chip :=
  tableStep out high { c with readOut := BitVec.ofNat 64 (tableView out high c) }

/-! ### Meanings -/

/-- OUTBOUND_EVENT. -/
def execOutboundEvent (k : Fin 96) (s : State) : Host.Outcome State Fault Refusal := done s (outboundEvent k.val s.chip)

/-- OUTBOUND_PACKET. -/
def execOutboundPacket (k : Fin 96) (dest : BitVec 10) (s : State) : Host.Outcome State Fault Refusal :=
  done s (outboundPacket k.val dest.toNat s.chip)

/-- FABRIC_TRANSIT. -/
def execFabricTransit (e : Fin 8) (v : Fin 10) (s : State) : Host.Outcome State Fault Refusal :=
  done s (transit e.val v.val s.chip)

/-- INBOUND_EVENT. -/
def execInboundEvent (e : Fin 8) (v : Fin 10) (s : State) : Host.Outcome State Fault Refusal :=
  done s (inboundEvent e.val v.val s.chip)

/-- INBOUND_PACKET. -/
def execInboundPacket (e : Fin 8) (v : Fin 10) (row : Fin 5) (s : State) : Host.Outcome State Fault Refusal :=
  done s (inboundPacket e.val v.val row.val s.chip)

/-- FENCE_MARK. -/
def execFenceMark (e : Fin 8) (v : Fin 10) (s : State) : Host.Outcome State Fault Refusal :=
  done s (fenceMarkRx e.val v.val s.chip)

/-- END_MARK. -/
def execEndMark (e : Fin 8) (v : Fin 10) (now : Nat) (s : State) : Host.Outcome State Fault Refusal :=
  done s (endMarkRx e.val v.val now s.chip)

/-- BARRIER. -/
def execBarrier (job : Fin 16) (s : State) : Host.Outcome State Fault Refusal := done s (barrier job.val s.chip)

/-- ALIGN_START. -/
def execAlignStart (job : Fin 16) (s : State) : Host.Outcome State Fault Refusal := done s (alignStart job.val s.chip)

/-- ALIGN_CHECK. -/
def execAlignCheck (job : Fin 16) (s : State) : Host.Outcome State Fault Refusal := done s (alignCheck job.val s.chip)

/-- EPOCH_SWITCH. -/
def execEpochSwitch (job : Fin 16) (s : State) : Host.Outcome State Fault Refusal := done s (epochSwitch job.val s.chip)

/-- FABRIC_DRAIN. -/
def execFabricDrain (job : Fin 16) (s : State) : Host.Outcome State Fault Refusal := done s (fabricDrain job.val s.chip)

/-- COLL_TIMEOUT. -/
def execCollTimeout (job : Fin 16) (s : State) : Host.Outcome State Fault Refusal := done s (collTimeout job.val s.chip)

/-- GW_CMD_ALIGN_START. -/
def execGwCmdAlignStart (job : Fin 16) (value : Word) (s : State) : Host.Outcome State Fault Refusal :=
  done s (cmdAlignStart job.val value s.chip)

/-- GW_CMD_EPOCH_SWITCH. -/
def execGwCmdEpochSwitch (job : Fin 16) (value : Word) (s : State) : Host.Outcome State Fault Refusal :=
  done s (cmdEpochSwitch job.val value s.chip)

/-- GW_CMD_DRAIN. -/
def execGwCmdDrain (job : Fin 16) (value : Word) (s : State) : Host.Outcome State Fault Refusal :=
  done s (cmdDrain job.val value s.chip)

/-- GW_TABLE_COMMIT. -/
def execGwTableCommit (out : Bool) (value : Word) (s : State) : Host.Outcome State Fault Refusal :=
  done s (tableCommit out value s.chip)

/-- GW_TABLE_READ. -/
def execGwTableRead (out high : Bool) (s : State) : Host.Outcome State Fault Refusal := done s (tableRead out high s.chip)

end Sys2Proof.Machine
end

