-- ==== Sys2Proof/Machine/Integrity.lean ====
section
/-!
DEFINITION. Integrity, replay and job restart (R341 to R362): sampled duplicate execution, the step census, verdicts,
rewinds and restarts.
-/

namespace Sys2Proof.Machine

/-! ### Sampled duplicate execution (R341 to R344) -/

/-- Whether neighbour `n` qualifies as a checker in job `j` (R342). -/
def qualifies (c : Chip) (j n : Nat) : Bool :=
  tileGood c n && !fenced c n && domOn c (fieldOf n) && numOf c.fieldJob (fieldOf n) == j + 1 && !(tile c n).chk.noServe

/-- The checker of sampled tile `t` in step `s` of job `j`, and whether it is the west neighbour (R342). -/
def checkerOf (c : Chip) (j s t : Nat) : Option (Nat × Bool) :=
  let J := jobAt c j
  let again := J.replay == some s && J.suspects.contains (s, t, t + 1)
  if tileX t % 64 ≠ 63 && qualifies c j (t + 1) && !again then some (t + 1, false)
  else if tileX t % 64 ≠ 0 && qualifies c j (t - 1) then some (t - 1, true)
  else none

/-- A bit of CHK_T_STATUS and the check lane's state for one tile. -/
def setSampled (t : Nat) (sampled west checked : Bool) (c : Chip) : Chip :=
  c |> modTile t (fun T => { T with chk := { T.chk with sampled := sampled, west := west, checked := checked } })
    |> setBit (Reg.CHK_T_STATUS t) 31 sampled |> setBit (Reg.CHK_T_STATUS t) 29 west

/-- SERVING of one tile. -/
def setServing (t : Nat) (b : Bool) (c : Chip) : Chip :=
  setBit (Reg.CHK_T_STATUS t) 30 b c

/-- Sampling of tile `t` in step `s` (R341, R342). -/
def sampleTile (j s t : Nat) (c : Chip) : Chip :=
  if rflag c Reg.CHK_CTRL 0 && chkOn c j && seqEn c t && !fenced c t && tileX t % 64 == s % 64 then
    match checkerOf c j s t with
    | some (n, w) => c |> setSampled t true w true |> setServing n true
    | none => c |> setSampled t true false false |> chkCount 13
  else c

/-- The sampling of step `s` of job `j`. -/
def sampleStep (j s : Nat) (c : Chip) : Chip :=
  let ts := jobTiles c j
  c |> forAll (fun t c => c |> setSampled t false false false |> setServing t false) ts
    |> forAll (sampleTile j s) ts
    |> putNum (Reg.CHK_JOB_SAMPLE j) (s % 64)

/-- Two digests: the tile's own, which the spec leaves open, and the checker's, equal to it exactly when the lane
reproduced every result (R343). -/
def formDigests (t : Nat) (agree : Bool) (c : Chip) : Chip :=
  let (a, c) := takeFree c
  let (b, c) := takeFree c
  let other := if b = a then b + 1#32 else b
  modTile t (fun T => { T with chk := { T.chk with digest := a, peer := if agree then a else other } }) c

/-- SAMPLE_CHECK (R344): closes the operand stream and waits for the checker's digest. -/
def sampleCheckWord (t : Nat) (agree : Bool) (c : Chip) : Chip :=
  settleWord t 0x0B (fun c =>
    c |> when_ ((tile c t).chk.sampled && (tile c t).chk.checked && !(tile c t).seq.sampleClosed) (formDigests t agree)
      |> modTile t (fun T => { T with seq := { T.seq with sampleClosed := true } })
      |> nextWord t) c

/-- The checker's tile of a sampled tile. -/
def checkerTile (c : Chip) (t : Nat) : Nat := if (tile c t).chk.west then t - 1 else t + 1

/-- The comparison of DIGEST (R344). -/
def compareDigests (t : Nat) (c : Chip) : Chip :=
  let k := (tile c t).chk
  let bad := k.digest != k.peer
  c |> setReg (Reg.CHK_T_DIGEST t) k.digest |> setReg (Reg.CHK_T_PEER t) k.peer
    |> count (Reg.CHK_T_COMPARES t) 1 |> chkCount 0
    |> setBit (Reg.CHK_T_STATUS t) 28 bad |> setFld (Reg.CHK_T_STATUS t) 15 0 (tileStep c t % 65536)
    |> when_ bad (fun c =>
        let c := count (Reg.CHK_T_MISMATCH t) 1 c
        match jobOfTile c t with
        | some j => reportJob j (jobStep c j) 0 t (checkerTile c t) c
        | none => c)

/-- DIGEST (R344): on a tile that is not checked in the step it has nothing to compare. -/
def digestWord (t : Nat) (c : Chip) : Chip :=
  settleWord t 7 (fun c =>
    c |> when_ ((tile c t).chk.sampled && (tile c t).chk.checked && (tile c t).seq.sampleClosed) (compareDigests t)
      |> nextWord t) c

/-! ### The step census (R276 to R280) -/

/-- The parity whose counts the census of step `s` sums (R279). -/
def censusParity (s : Nat) : Nat := (s + 1) % 2

/-- The key of item `i` of the STEP census of timebase `k` for parity `par`. -/
def stepKey (k i par : Nat) : Nat := 64 * k + 2 * i + par

/-- The key of item `i` of the census collective of kind `kind` (Tables 3.6, 9.9). -/
def censusKey (kind k i par : Nat) : Nat := 1024 * kind + stepKey k i par

/-- Tile `t`'s counts given to the census collective of kind `kind` (R275 to R278, Table 3.6). -/
def giveCounts (t kind k par : Nat) (c : Chip) : Chip :=
  let n (i : Nat) : Nat := numOf (tile c t).census (4 * par + i)
  let c := c |> putNum (Reg.RTR_CNS_SENT t) (n 0) |> putNum (Reg.RTR_CNS_DELIV t) (n 1) |> putNum (Reg.RTR_CNS_DROP t) (n 2)
    |> modTile t (fun T => { T with seq := { T.seq with censused := true } })
  forAll (fun i c => c |> addColl t 4 (censusKey kind k i par) (numOf (tile c t).census (4 * par + i))
    |> finishColl t (censusKey kind k i par)) (List.range 4) c

/-- Whether tile `t`'s combined contribution has left for its parent (R277). -/
def contributionLeft (c : Chip) (t kind k par : Nat) : Bool :=
  let R := router c t
  (List.range 4).all (fun i =>
    !(R.coll.any (fun e => e.1 == censusKey kind k i par)) && !(R.collOut.any (fun o => collKey o.2.2 == censusKey kind k i par)))

/-- CENSUS (R275 to R277): the tile contributes once to the collective of the word's KIND and waits until its combined
contribution has left. The load checks reject a KIND other than 0 (R277). -/
def censusWord (t : Nat) (c : Chip) : Chip :=
  settleWord t 0x0C (fun c =>
    match tbOfTile c t with
    | none => nextWord t c
    | some k =>
      let par := censusParity (tileStep c t)
      let kind := bits (wordAt c t) 3 0
      let c := when_ (!(tile c t).seq.censused) (giveCounts t kind k par) c
      if contributionLeft c t kind k par then nextWord t c else holdWord t c) c

/-! ### Verdicts (R346 to R348, R355) -/

/-- The causes recorded for step `s` of job `j`. -/
def causesOf (c : Chip) (j s : Nat) : Nat := numOf (jobAt c j).causes s

/-- The verdict of step `s`: 0 none, 1 pass, 2 fail, 3 unverified. -/
def verdictOf (c : Chip) (j s : Nat) : Nat := numOf (jobAt c j).verdict s

/-- A verdict set. -/
def setVerdict (j s v : Nat) (c : Chip) : Chip := modJob j (fun J => { J with verdict := setNum s v J.verdict }) c

/-- A cause recorded for step `s`. -/
def addCause (j s b : Nat) (c : Chip) : Chip :=
  modJob j (fun J => { J with causes := setNum s ((numOf J.causes s).lor (2 ^ b)) J.causes }) c

/-- CHK_JOB_j_STATE.STATE. -/
def setJobState (j st : Nat) (c : Chip) : Chip := setFld (Reg.CHK_JOB_STATE j) 31 29 st c

/-- The mismatches of step `f`'s first pass judged by its replay (R355): each is recorded in CHK_JOB_j_SUSPECT in the order of
their reports (DESIGN CHOICE, log entry 178), the first checkers as suspect or the sampled tiles as faulty. -/
def recordSuspects (j f : Nat) (faulty : Bool) (c : Chip) : Chip :=
  let found := (jobAt c j).suspects.filter (fun x => x.1 == f)
  c |> forAll (fun x c => c
        |> putNum (Reg.CHK_JOB_SUSPECT j) (2 ^ 31 + b2n faulty * 2 ^ 30 + mk 25 13 x.2.2 + mk 12 0 x.2.1)
        |> when_ (!faulty) (chkCount 15)) found
    |> modJob j (fun J => { J with
        suspects := [], faulty := if faulty then J.faulty ++ found.map (fun x => x.2.1) else J.faulty })

/-- The encoders of job `j`. -/
def jobEncoders (c : Chip) (j : Nat) : List Nat := (List.range 16).filter (fun p => encJob c p == j && encState c p != 0)

/-- A tile stopped by a restart (R359): its sequencer abandons the running step, and SEQ_EN becomes 0. -/
def stopTile (t : Nat) (c : Chip) : Chip :=
  c |> setBit (Reg.TILE_CTRL t) 0 false
    |> modTile t (fun T => { T with
        seq := { T.seq with mode := (match T.seq.mode with | .fault => .fault | .fenced => .fenced | _ => .stopped)
                            integrate := false, replay := false, begun := false }
        nrn := { T.nrn with updLeft := none }
        lrn := { T.lrn with mowLeft := none } })

/-- An encoder stopped by a restart (R359). -/
def stopEncoder (p : Nat) (c : Chip) : Chip :=
  c |> setEncState p 0 |> modEnc p (fun E => { E with live := [], resend := [], asked := [], cap := [] })

/-- begin_restart (R359): step 1 of a job restart. -/
def beginRestart (j : Nat) (c : Chip) : Chip :=
  if (jobAt c j).restarting then c
  else
    c |> forAll stopTile (jobTiles c j)
      |> forAll stopEncoder (jobEncoders c j)
      |> modJob j (fun J => { J with
          restarting := true, replay := none, tickInReplay := false, rewindDue := none, resendDue := false, resume := none
          unjudged := none })
      |> setJobState j 4 |> jobEvent j 4 |> chkCount 5
      |> forAll streamLost (jobStreams c j)

/-! ### Rewinds (R351 to R356) -/

/-- Where `S16` of a REWIND names a step: the largest step not above TICK_NOW with it (R356). -/
def stepNotAbove (now s16 : Nat) : Nat := (now + 2 ^ 48 - (now + 65536 - s16 % 65536) % 65536) % 2 ^ 48

/-- A REWIND's VALUE: S16 and the restart flag (R356). -/
def rewindValue (f : Nat) (restart : Bool) : Nat := f % 65536 + 65536 * b2n restart

/-- The carry and the start of the schedule of one tile at the beginning of a step in which it runs (R103, R124); any other
tile is idle in it (R109). -/
def startTile (t : Nat) (replay : Bool) (c : Chip) : Chip :=
  if (tile c t).seq.begun && !fenced c t then
    c |> modTile t (fun T => { T with
          seq := { mode := .executing, pc := rfld c (Reg.TILE_SCHED_CFG t) 10 0, replay := replay, begun := true
                   begunBefore := T.seq.begunBefore }
          nrn := { T.nrn with firedNow := 0, activeNow := 0, updLeft := none }
          dec := { T.dec with seen := 0, done := false } })
      |> carry t
  else modTile t (fun T => { T with seq := { T.seq with
    mode := match T.seq.mode with | .executing | .waiting => if seqEn c t then .waitTick else .stopped | m => m
    integrate := false, rotated := false, censused := false } }) c

/-- A tile's part of the rewind of step `f` (Table 12.4); `next`: step f + 1 has begun. A tile runs step `f` again exactly if
it ran it (DEDUCED, log entry 176). -/
def rewindTile (next : Bool) (t : Nat) (c : Chip) : Chip :=
  let T := tile c t
  let back := b2n next + b2n T.seq.rotated
  let lo := if next then reg c (Reg.TILE_PEPPER_PREV_LO t) else reg c (Reg.TILE_PEPPER_TICK_LO t)
  let hi := if next then reg c (Reg.TILE_PEPPER_PREV_HI t) else reg c (Reg.TILE_PEPPER_TICK_HI t)
  let c := setFld (Reg.TILE_RING t) 1 0 ((ringHead c t + 2 * back) % 3) c
  let work := workSlot c t
  c |> setReg (Reg.TILE_PEPPER_TICK_LO t) lo |> setReg (Reg.TILE_PEPPER_TICK_HI t) hi
    |> modTile t (fun T => { T with
        seq := { T.seq with begun := if next then T.seq.begunBefore else T.seq.begun }
        pepper := BitVec.ofNat 64 (hi.toNat * 2 ^ 32 + lo.toNat)
        evq := {}
        nrn := { T.nrn with unionLeft := 2, acc := [], pst := setBmp work 0 T.nrn.pst, emitq := [], emitPend := [], updLeft := none
                            carryFrom := none }
        syn := { T.syn with gin := [], ginWritten := [], ginUsed := [], run := none, wait := none, wq := [], sq := []
                            reqs := [], pass := (T.syn.pass + 1) % 16, pwait := 0, fetching := none }
        lrn := { T.lrn with epochPos := if next then T.lrn.prevEpochPos else T.lrn.epochPos, incs := []
                            skipTo := some T.lrn.last16, mowLeft := none, heldFb := false }
        census := [] })
    |> engineWrite (regionBase c t 1) (List.replicate (regionSize c t 1) 0#8)
    |> startTile t true

/-- Encoder `p` at a rewind: unsent flits go, the held interval of step `f` is asked for, then that of f + 1. -/
def rewindEncoder (f : Nat) (next : Bool) (p : Nat) (c : Chip) : Chip :=
  modEnc p (fun E => { E with live := [], resend := [], asked := f :: (if next then [nextStep f] else []), census := [] }) c

/-- Every tile of job `j` emits the events of step f − 1 again (R353). -/
def reEmitAll (j f : Nat) (c : Chip) : Chip :=
  forAll (fun t c => when_ (!fenced c t) (reEmit t f) c) (jobTiles c j) c

/-- rewind_all of R356 (R352, Table 12.4). A job of several devices then awaits the second REWIND round before anything
is sent again; any other sends at once. The step is marked replayed after the retractions that its rewind itself makes
(DEDUCED, log entry 180). -/
def rewindAll (j f : Nat) (c : Chip) : Chip :=
  let k : Nat := (jobAt c j).tb
  let multi := (jobAt c j).multi
  let next := tickNow c k == nextStep f
  c |> modTb k (fun T => { T with
        parity := (f + 1) % 2, phase := .integrate, quiet := false, fabricQuiet := false, barrier := false
        censusDone := false, laterTick := if next then T.tickAt else T.laterTick })
    |> gwClear k 0 |> gwClear k 1 |> clearSums k
    |> modFab j (fun F => { F with
        coll := F.coll.filter (fun x => x.1 / 64 != 3), halves := F.halves.filter (fun x => x.1 / 64 != 3)
        did := setNum 3 0 F.did, items := F.items.filter (fun x => x.1 / 4 != 3) })
    |> modJob j (fun J => { J with
        replay := some f, replayed := some f, tickInReplay := next, rewindDue := none, fabricOk := none, unjudged := none
        causes := setNum f 0 J.causes, verdict := setNum f 0 J.verdict, resendDue := multi })
    |> forAll (rewindTile next) (jobTiles c j)
    |> forAll (fun t c => purgeRouter t (f % 2) c) (c.routers.map (fun r => r.1))
    |> forAll (fun t c => modTile t (fun T => { T with census := [] }) c) (jobTiles c j)
    |> forAll (rewindEncoder f next) (jobEncoders c j)
    |> gwRewind k f
    |> sampleStep j f
    |> setJobState j (if multi then 2 else 3) |> setFld (Reg.CHK_JOB_STATE j) 15 0 (f % 65536)
    |> jobEvent j 2
    |> forAll (fun p c => streamRewind p f c) (jobStreams c j)
    |> markStep j f 2
    |> (if multi then modFab j (fun F => { F with ackDue := some (f % 65536) }) else reEmitAll j f)

/-- REWIND (R352, R356): a rewind that is due is carried out. -/
def rewind (j : Nat) (c : Chip) : Chip :=
  match (jobAt c j).rewindDue with
  | some f => if (jobAt c j).restarting then c else rewindAll j f c
  | none => c

/-- A REWIND sent toward the root, with its origin (R337). -/
def rewindUp (j v origin : Nat) (cameBy : Option (Nat × Nat)) (c : Chip) : Chip :=
  match treeDir c j (ownId c) with
  | some d => sendColl d cameBy (collFlit 5 (jobAt c j).tb 0 0 0 origin v) c
  | none => c

/-- S16 values within two steps of `v`, which a device still remembers; the restart REWIND of a step counts apart. -/
def recentValues (v : Nat) (l : List Nat) : List Nat :=
  l.filter (fun x => decide ((v + 65536 - x % 65536) % 65536 < 4) || decide ((x + 65536 - v % 65536) % 65536 < 4))

/-- The verdict of step `f` turns to fail on the counters and registers (R347, R348). -/
def noteFail (j f : Nat) (c : Chip) : Chip :=
  c |> setVerdict j f 2 |> chkCount 2 |> jobEvent j 0
    |> putNum (Reg.CHK_JOB_CAUSE j) (causesOf c j f) |> putNum (Reg.CHK_JOB_FAIL_LO j) (f % 2 ^ 32)

/-- on_rewind_broadcast of R356 on this device. A REWIND that comes after the update go it had to precede is answered
with a restart REWIND, which `again` sends. -/
def rewindHere (j v origin : Nat) (again : Nat → Chip → Chip) (c : Chip) : Chip :=
  let f := stepNotAbove (tickNow c (jobAt c j).tb) v
  let restart := decide (65536 ≤ v)
  let c := c |> gwEvent j 2 |> putNum (Reg.GW_JOB_REWIND j) (mk 25 16 origin + v % 65536)
  if !chkOn c j || (jobAt c j).restarting then c
  else if !restart && goBegun c (jobAt c j).tb (nextStep f) then
    c |> addCause j f 11 |> again (rewindValue f true)
  else
    let c := when_ (origin != ownId c) (addCause j f 7) c
    let c := when_ (verdictOf c j f != 2) (noteFail j f) c
    if restart then beginRestart j c else modJob j (fun J => { J with rewindDue := some f }) c

/-- The root takes a REWIND: the first of each S16 is broadcast and handed to its own integrity block (R337). A DEADLINE
found by the root itself is broadcast at once; `fuel` bounds that one repetition. -/
def rewindTop (j : Nat) : Nat → Nat → Nat → Chip → Chip
  | 0, _, _, c => c
  | n + 1, v, origin, c =>
    if (fabJob c j).told.contains v then c
    else
      c |> modFab j (fun F => { F with told := v :: recentValues v F.told })
        |> sendDown j 5 0 0 origin v none
        |> rewindHere j v origin (fun w c => rewindTop j n w (ownId c) c)

/-- A REWIND of this device or of a child goes on: at the root to the broadcast, elsewhere toward the root, each S16
once (R337). -/
def rewindOn (j v origin : Nat) (cameBy : Option (Nat × Nat)) (c : Chip) : Chip :=
  if isRoot c j then rewindTop j 2 v origin c
  else if (fabJob c j).seen.contains v then c
  else c |> modFab j (fun F => { F with seen := v :: recentValues v F.seen }) |> rewindUp j v origin cameBy

/-- A restart of job `j` asked for on account of step `f`: one of several devices by a restart REWIND, which every device acts
on (R356). -/
def askRestart (j f : Nat) (c : Chip) : Chip :=
  if (jobAt c j).multi then rewindOn j (rewindValue f true) (ownId c) none c else beginRestart j c

/-- on_local_fail of R356: what the integrity block does on a failing verdict for step `f` (R351). -/
def actFail (j f : Nat) (c : Chip) : Chip :=
  let J := jobAt c j
  let d := (tickNow c J.tb + 2 ^ 48 - f) % 2 ^ 48
  let late := decide (2 ≤ d) && decide (d < 2 ^ 47)
  let restart := decide (256 ≤ causesOf c j f) || chkAction c j == 1 || J.replayed == some f || late
  if chkAction c j = 2 then c
  else if J.multi then rewindOn j (rewindValue f restart) (ownId c) none c
  else if restart then beginRestart j c
  else modJob j (fun J => { J with rewindDue := some f }) c

/-- A failing verdict formed for step `f` (R347, R351, R355). -/
def failVerdict (j f : Nat) (c : Chip) : Chip :=
  c |> when_ ((jobAt c j).replayed == some f) (fun c => c |> addCause j f 12 |> chkCount 4 |> recordSuspects j f true)
    |> noteFail j f |> actFail j f

/-- A passing verdict formed for step `f` (R347, R355). -/
def passVerdict (j f : Nat) (c : Chip) : Chip :=
  c |> setVerdict j f 1
    |> when_ ((jobAt c j).replayed == some f) (fun c => c |> jobEvent j 3 |> chkCount 3 |> recordSuspects j f false)

/-- Whether a verdict of step `s` may be formed now. -/
def openVerdict (c : Chip) (j s : Nat) : Bool :=
  chkOn c j && verdictOf c j s == 0 && !(jobAt c j).restarting && (jobAt c j).rewindDue.isNone

/-- The verdict of step `s`, whose census is complete (R347, R348). -/
def formVerdict (j s : Nat) (c : Chip) : Chip :=
  let J := jobAt c j
  if openVerdict c j s then
    if causesOf c j s ≠ 0 then failVerdict j s c
    else if !J.multi || J.fabricOk == some s then passVerdict j s c
    else c
  else c

/-- The replay of step `s` waits for no verdict any more, once it has one. -/
def noteJudged (j s : Nat) (c : Chip) : Chip :=
  when_ (verdictOf c j s != 0) (modJob j (fun J => { J with
    unjudged := if J.unjudged.any (fun x => x.1 == s) then none else J.unjudged })) c

/-- The verdicts that complete censuses allow (R347, R348, R355): of a replay that has reached its END, and of the step in
progress. -/
def tryVerdict (j : Nat) (c : Chip) : Chip :=
  let c := match (jobAt c j).unjudged with
    | some (f, false) => c |> formVerdict j f |> noteJudged j f
    | _ => c
  if (tbAt c (jobAt c j).tb).censusDone then formVerdict j (jobStep c j) c else c

/-- Step `s` confirmed at update go of step s + 1 (R348). -/
def confirmStep (j s : Nat) (c : Chip) : Chip :=
  if chkOn c j && verdictOf c j s == 1 && !(jobAt c j).restarting then
    c |> markStep j s 4 |> putNum (Reg.CHK_JOB_CONF_LO j) (s % 2 ^ 32) |> forAll (fun p c => streamConfirm p s c) (jobStreams c j)
  else c

/-- The counter of Table 12.6 that a report of cause `b` advances. -/
def causeCounter (b : Nat) : Option Nat :=
  match b with
  | 0 => some 1 | 1 => some 7 | 2 => some 8 | 3 => some 10 | 5 => some 9 | 6 => some 11 | 8 => some 12 | _ => none

/-- What a report says of tiles (R355, R359): a mismatch of the first pass names the tile and its checker; a tile whose UE
recurs in the replay is faulty, and so is one that a tile fault stopped. -/
def noteTile (r : Report) (J : Job) : Job :=
  let again := J.replayed == some r.step
  let old (l : List (Nat × Nat)) : List (Nat × Nat) := l.filter (fun x => x.1 == r.step)
  match r.cause with
  | 0 => if again then J else
    { J with suspects := J.suspects.filter (fun x => x.1 == r.step) ++ [(r.step, r.tile, r.checker)] }
  | 3 =>
    if again then (if J.ueTiles.contains (r.step, r.tile) then { J with faulty := J.faulty ++ [r.tile] } else J)
    else { J with ueTiles := old J.ueTiles ++ [(r.step, r.tile)] }
  | 10 => { J with faulty := J.faulty ++ [r.tile] }
  | _ => J

/-- A report noted by the integrity block (R346, R348, R362). A step counts once as a scale-slip step. -/
def noteReport (r : Report) (c : Chip) : Chip :=
  let j := r.job
  let again := r.cause == 5 && bit (causesOf c j r.step) 5
  let c := match causeCounter r.cause with | some n => if again then c else chkCount n c | none => c
  if stepMarked c j r.step 4 then c else c |> addCause j r.step r.cause |> modJob j (noteTile r)

/-- A cause noted for step `s` after its verdict is pass and before it is confirmed turns the verdict to fail (R348). -/
def lateFail (j s : Nat) (c : Chip) : Chip :=
  if chkOn c j && verdictOf c j s == 1 && causesOf c j s != 0 && !stepMarked c j s 4 && !(jobAt c j).restarting then failVerdict j s c
  else c

/-- Every report of job `j` on its way reaches the integrity block: a verdict formed now takes all of them (R347). -/
def settleReports (j : Nat) (c : Chip) : Chip :=
  let mine := c.reports.filter (fun r => r.job == j)
  { c with reports := c.reports.filter (fun r => r.job != j) }
    |> forAll noteReport mine |> forAll (lateFail j) (mine.map (fun r => r.step)).dedup

/-- FAIL_REPORT (R346): the oldest report on its way reaches the integrity block. -/
def failReport (c : Chip) : Chip :=
  match c.reports with
  | [] => c
  | r :: rest => { c with reports := rest } |> noteReport r |> lateFail r.job r.step |> tryVerdict r.job

/-- The verdict formed at tick s + 1 for a step whose census has not completed (R347). -/
def verdictAtTick (j s : Nat) (c : Chip) : Chip :=
  let c := settleReports j c
  let c :=
    if openVerdict c j s then
      if causesOf c j s ≠ 0 then failVerdict j s c
      else c |> setVerdict j s 3 |> chkCount 14 |> jobEvent j 1 |> markStep j s 5
    else c
  noteJudged j s c

/-- The verdict of a replay whose census has not come by update go of the next step, formed as at a tick (R347, R348; DEDUCED,
log entry 181). -/
def closeReplay (j : Nat) (c : Chip) : Chip :=
  match (jobAt c j).unjudged with
  | some (f, _) => verdictAtTick j f c
  | none => c

/-! ### The census at the integrity block (R280, R347) -/

/-- The sum of item `i` over the trees, the encoders and the gateways of timebase `k`. -/
def censusSum (c : Chip) (k i par : Nat) : Option Nat :=
  let trees := (rootTaps c).map (rootSum c (stepKey k i par))
  if trees.all (fun o => o.isSome) then
    let encs := ((List.range 16).filter (fun p => encTb c p == k)).map (fun p => numOf (enc c p).census (4 * par + i))
    some ((trees.map (fun o => o.getD 0)).foldl (· + ·) 0 + encs.foldl (· + ·) 0 + numOf c.gw.census (8 * k + 4 * par + i))
  else none

/-- The sums of the census of step `s` of timebase `k` taken, with late drops counted, the balance judged, and what has been
reported of the job (R280, R347); none while a sum is missing. -/
def takeCensus (k j s : Nat) (c : Chip) : Option Chip :=
  let par := censusParity s
  match censusSum c k 0 par, censusSum c k 1 par, censusSum c k 2 par, censusSum c k 3 par with
  | some sent, some deliv, some drop, some late =>
    some (c |> takeSums ((List.range 4).map (fun i => stepKey k i par))
      |> count (Reg.TICK_TB_LATE_COUNT k) late |> when_ (decide (0 < late)) (tbEvent k 1)
      |> when_ (sent != deliv + drop) (noteReport { job := j, step := s, cause := 1, tile := 0, checker := 0 })
      |> settleReports j)
  | _, _, _, _ => none

/-- STEP_CENSUS_DONE (R280, R347): the sums have reached the integrity block, of a replay that has reached its END or of the
step in progress. -/
def stepCensusDone (k : Nat) (c : Chip) : Chip :=
  let j := jobOfTb c k
  match (jobAt c j).unjudged with
  | some (f, true) =>
    match takeCensus k j f c with
    | some c => c
        |> when_ (jobStep c j == f) (modTb k (fun T => { T with censusDone := true }))
        |> modJob j (fun J => { J with unjudged := some (f, false) }) |> tryVerdict j
    | none => c
  | _ =>
    if (tbAt c k).phase != .settle || (tbAt c k).censusDone || !(jobAt c j).census then c
    else match takeCensus k j (jobStep c j) c with
      | some c => c |> modTb k (fun T => { T with censusDone := true }) |> tryVerdict j
      | none => c

/-- FABRIC_CENSUS (R330, R348). -/
def fabricCensusStep (j : Nat) (c : Chip) : Chip := c |> fabricCensus j |> settleReports j |> tryVerdict j

/-! ### REWIND collectives (R337, R356) -/

/-- REWIND_COLLECTIVE (R337): a REWIND that has arrived goes on toward the root, or from it to the children. -/
def rewindCollective (j : Nat) (c : Chip) : Chip :=
  if !jobInFabric c j then c
  else match takeColl j 5 (fun f => kItem f == 0) c with
    | some (d, f, c) =>
      if kDir f = 0 then rewindOn j (kValue f % 2 ^ 17) (kOrigin f) (collBy d f) c
      else c |> sendDown j 5 0 0 (kOrigin f) (kValue f) (collBy d f)
        |> rewindHere j (kValue f % 2 ^ 17) (kOrigin f) (fun w c => rewindOn j w (ownId c) none c)
    | none => c

/-- The second REWIND round is complete on this device: what the replayed step consumes is sent again (R353, R356). -/
def ackHere (j : Nat) (c : Chip) : Chip :=
  match (jobAt c j).replay with
  | some f =>
    if (jobAt c j).resendDue then
      c |> modJob j (fun J => { J with resendDue := false }) |> setJobState j 3 |> gwResend j f |> reEmitAll j f
    else c
  | none => c

/-- REWIND_ACK_ROUND (R356): ITEM 1 is reduced to the root and broadcast. -/
def rewindAckRound (j : Nat) (c : Chip) : Chip :=
  let top (v : Nat) (c : Chip) : Chip := c |> sendDown j 5 0 1 (ownId c) v none |> ackHere j
  if !jobInFabric c j then c
  else match takeColl j 5 (fun f => kItem f == 1) c with
    | some (d, f, c) =>
      if kDir f = 0 then contribute j 5 0 1 d (bits f.toNat 4 4) (kValue f) top c
      else c |> sendDown j 5 0 1 (kOrigin f) (kValue f) (collBy d f) |> ackHere j
    | none =>
      match (fabJob c j).ackDue with
      | some v => c |> modFab j (fun F => { F with ackDue := none }) |> contribute j 5 0 1 4 0 v top
      | none => c

/-! ### Resume (R359) -/

/-- The step that an accepted write of CHK_JOB_j_RESUME names (R359): the job restarts, and the step is at least two ahead. -/
def resumeStep (c : Chip) (j : Nat) (v : Word) : Option Nat :=
  let now := tickNow c (jobAt c j).tb
  let q := step16 now (fld v 15 0)
  if (jobAt c j).restarting && flag v 31 && decide ((now : Int) + 2 ≤ q) then some (q.toNat % 2 ^ 48) else none

/-- The write of CHK_JOB_j_RESUME that names step `q` accepted (R359). -/
def acceptResume (j q : Nat) (v : Word) (c : Chip) : Chip :=
  c |> setReg (Reg.CHK_JOB_RESUME j) (v &&& 0x8000FFFF#32)
    |> modJob j (fun J => { J with resume := some q }) |> setJobState j 5

/-- RESUME (R359): at tick q of job `j` its tiles, encoders and decoders start. -/
def resumeJob (j s : Nat) (c : Chip) : Chip :=
  if (jobAt c j).restarting && (jobAt c j).resume == some s then
    c |> modJob j (fun J => { J with restarting := false, resume := none, replayed := none, suspects := [], ueTiles := [], faulty := [] })
      |> setBit (Reg.CHK_JOB_RESUME j) 31 false
      |> forAll (fun t c => c |> setSeqEn t |> decoderRestart t) (jobAt c j).placed
      |> forAll (fun p c => if encJob c p == j && rflag c (Reg.ENC_CTRL p) 0 && encState c p == 0 then encArm p c else c)
          (List.range 16)
      |> setJobState j 1 |> jobEvent j 5
  else c

/-! ### Meanings -/

/-- SAMPLE_CHECK. -/
def execSampleCheck (t : Fin 8192) (agree : Bool) (s : State) : Host.Outcome State Fault Refusal :=
  done s (atTile t.val (sampleCheckWord t.val agree) s.chip)

/-- DIGEST. -/
def execDigest (t : Fin 8192) (s : State) : Host.Outcome State Fault Refusal := done s (atTile t.val (digestWord t.val) s.chip)

/-- CENSUS. -/
def execCensus (t : Fin 8192) (s : State) : Host.Outcome State Fault Refusal := done s (atTile t.val (censusWord t.val) s.chip)

/-- STEP_CENSUS_DONE. -/
def execStepCensusDone (j : Fin 16) (s : State) : Host.Outcome State Fault Refusal := done s (stepCensusDone j.val s.chip)

/-- FABRIC_CENSUS. -/
def execFabricCensus (job : Fin 16) (s : State) : Host.Outcome State Fault Refusal :=
  done s (fabricCensusStep job.val s.chip)

/-- FAIL_REPORT. -/
def execFailReport (s : State) : Host.Outcome State Fault Refusal := done s (failReport s.chip)

/-- REWIND. -/
def execRewind (job : Fin 16) (s : State) : Host.Outcome State Fault Refusal := done s (rewind job.val s.chip)

/-- REWIND_COLLECTIVE. -/
def execRewindCollective (job : Fin 16) (s : State) : Host.Outcome State Fault Refusal :=
  done s (rewindCollective job.val s.chip)

/-- REWIND_ACK_ROUND. -/
def execRewindAckRound (job : Fin 16) (s : State) : Host.Outcome State Fault Refusal :=
  done s (rewindAckRound job.val s.chip)

end Sys2Proof.Machine
end

