-- ==== Sys2Proof/Machine/Learning.lean ====
section
/-!
DEFINITION. The learning unit: increments, feedback, labels, trace decay, the mow and checkpoints (R220 to R244).
-/

namespace Sys2Proof.Machine

/-- Tile `t`'s learning unit changed. -/
def modLrn (t : Nat) (f : Lrn → Lrn) (c : Chip) : Chip := modTile t (fun T => { T with lrn := f T.lrn }) c

/-- Whether the learning unit learns in this step (R223). -/
def learns (c : Chip) (t : Nat) : Bool := rflag c (Reg.LRN_CTRL t) 0 && !(tile c t).lrn.frozen

/-- Whether step `a16` is newer than step `b16` (R541). -/
def newer16 (a16 b16 : Nat) : Bool := let d := (a16 + 65536 - b16) % 65536; decide (0 < d) && decide (d < 32768)

/-- Whether learning work is skipped after a rewind (R238). -/
def skipping (c : Chip) (t : Nat) : Bool :=
  match (tile c t).lrn.skipTo with
  | some l => !newer16 (tileStep16 c t) l
  | none => false

/-- LAST16 takes the running step, which has seen learning work (R238). -/
def noteWork (t : Nat) (c : Chip) : Chip := modLrn t (fun L => { L with last16 := tileStep16 c t, skipTo := none }) c

/-- E of LRN_EPOCH_CFG. -/
def epochLen (c : Chip) (t : Nat) : Nat := let e := rfld c (Reg.LRN_EPOCH_CFG t) 28 16; if e = 0 then 1 else min e 4096

/-- Whether the running step is an epoch-end step (R232). -/
def epochEnd (c : Chip) (t : Nat) : Bool := (tile c t).lrn.epochPos + 1 == epochLen c t

/-! ### Blocks, traces and deltas (R220 to R222) -/

/-- A learning block descriptor (Tables 8.3 and 8.6). -/
structure LrnBlock where
  valid : Bool
  first : Nat
  rows : Nat
  dbase : Nat
  step : Nat
  len : Nat
  tgt : Nat
  deriving DecidableEq, Repr

/-- Descriptor `n` of tile `t`. -/
def lrnBlock (c : Chip) (t n : Nat) : LrnBlock :=
  let a := reg c (Reg.LRN_BLK_A t n)
  let d := reg c (Reg.LRN_BLK_C t n)
  { valid := flag a 31, first := fld a 26 16, rows := fld a 11 0, dbase := rfld c (Reg.LRN_BLK_B t n) 13 0,
    step := fld d 31 28 + 1, len := fld d 26 16, tgt := fld d 9 0 }

/-- The valid blocks, in order. -/
def lrnBlocks (c : Chip) (t : Nat) : List LrnBlock :=
  ((List.range 4).map (lrnBlock c t)).filter (fun b => b.valid)

/-- The block that holds axon entry `a`. -/
def blockOf (c : Chip) (t a : Nat) : Option LrnBlock :=
  (lrnBlocks c t).find? (fun b => decide (b.first ≤ a) && decide (a < b.first + b.rows))

/-- Device address of the axon trace of entry `a` (R221). -/
def traceAddr (c : Chip) (t a : Nat) : Nat := regionBase c t 5 + a

/-- Device address of delta `i` (R221). -/
def deltaAddr (c : Chip) (t i : Nat) : Nat := regionBase c t 5 + 2048 + 2 * i

/-- Delta `i`, Q12.4 (R172). -/
def deltaAt (c : Chip) (t i : Nat) : Int := signed 16 (numAt c (deltaAddr c t i) 2)

/-! ### Increments (R224) -/

/-- LEARN_INCREMENT: the oldest queued increment is applied, skipped or discarded (R223, R224, R238). -/
def learnIncrement (t : Nat) (c : Chip) : Chip :=
  match (tile c t).lrn.incs with
  | [] => c
  | (a, x, _) :: rest =>
    if (tile c t).lrn.mowLeft.isSome then c
    else
      let c := modLrn t (fun L => { L with incs := rest }) c
      if !learns c t then c
      else if skipping c t then count (Reg.LRN_REPLAY_SKIP t) 1 c
      else match blockOf c t a with
        | none => c
        | some _ =>
          let p := traceAddr c t a
          let v := min 255 ((byteAt c p).toNat + x * rfld c (Reg.LRN_CFG t) 15 8)
          c |> engineRead t p 1 |> engineWrite p [BitVec.ofNat 8 v] |> count (Reg.LRN_INCS t) 1 |> noteWork t

/-! ### Feedback (R227 to R229) -/

/-- The target neuron and signed error of a feedback event (R227). -/
def feedbackTarget (c : Chip) (t : Nat) (f : DWord) : Option (Nat × Int) :=
  let n := rfld c (Reg.LRN_FB_POS t) 10 0
  let dp := (fAxon f + 65536 - rfld c (Reg.LRN_FB_POS t) 31 16) % 65536
  let dn := (fAxon f + 65536 - rfld c (Reg.LRN_FB_NEG t) 31 16) % 65536
  if dp < n then some (dp, (fValue f : Int)) else if dn < n then some (dn, -(fValue f : Int)) else none

/-- One delta's update (R228). -/
def addDelta (t i : Nat) (p : Int) (c : Chip) : Chip :=
  let a := deltaAddr c t i
  c |> engineRead t a 2 |> engineWrite a (toBytes 2 (unsign 16 (satDelta (deltaAt c t i + shiftRound p (-28)))))
    |> count (Reg.LRN_DELTA_ADDS t) 1

/-- One block's updates for target neuron `j` and error `e` (R228). -/
def feedbackBlock (t j : Nat) (e g : Int) (b : LrnBlock) (c : Chip) : Chip :=
  if j < b.tgt ∨ (j - b.tgt) % b.step ≠ 0 ∨ b.len ≤ (j - b.tgt) / b.step then c
  else
    let k := (j - b.tgt) / b.step
    forAll (fun r c =>
      let tr := traceAddr c t (b.first + r)
      let p : Int := (rfld c (Reg.LRN_CFG t) 31 16 : Nat) * ((byteAt c tr).toNat : Int) * e * g
      c |> engineRead t tr 1 |> addDelta t (b.dbase + r * b.len + k) p) (List.range b.rows) c

/-- feedback of R228. -/
def feedback (t j : Nat) (e : Int) (c : Chip) : Chip :=
  let st := nstateOf (bytesAt c (nrnAddr c t (ringHead c t) j) 16)
  let rule := rfld c (Reg.LRN_CFG t) 1 0
  let g : Int := if rule = 0 then 256 else if rule = 1 then st.post else st.pre
  c |> when_ (decide (rule ≠ 0)) (engineRead t (nrnAddr c t (ringHead c t) j) 16)
    |> forAll (feedbackBlock t j e g) (lrnBlocks c t)

/-- FEEDBACK_EVENT: the feedback event that the queue's order gives next is taken (R99, R227, R229, R233). -/
def feedbackEvent (t : Nat) (c : Chip) : Chip :=
  let T := tile c t
  if fenced c t || !T.seq.integrate || T.syn.fetching.isSome || T.syn.run.any (fun g => !g.streamed) then c
  else match nextEntry c t with
    | none => c
    | some f =>
      if fKind f ≠ 6 then c
      else
        let c := c |> dequeue t f |> modTile t (fun T => { T with evq := { T.evq with lastKey := some (fAxon f) } })
        if !learns c t then c
        else if skipping c t then count (Reg.LRN_REPLAY_SKIP t) 1 c
        else match feedbackTarget c t f with
          | none => c |> count (Reg.LRN_FB_NOKEY t) 1 |> raise (Reg.LRN_FAULT t) 1
          | some (j, e) => c |> count (Reg.LRN_FB_EVENTS t) 1 |> feedback t j e |> noteWork t

/-! ### Labels (R230) -/

/-- LABEL_PUSH (R230). -/
def labelPush (t : Nat) (v : Word) (c : Chip) : Chip :=
  if rfld c (Reg.LRN_LABEL_NRN t) 30 26 < fld v 4 0 ∨ 8 ≤ (tile c t).lrn.labels.length then
    c |> count (Reg.LRN_LABEL_DROP t) 1 |> raise (Reg.LRN_FAULT t) 5
  else modLrn t (fun L => { L with labels := L.labels ++ [(fld v 31 16, fld v 4 0)] }) c

/-- The label of class `k` added to the error neurons (R230). -/
def applyLabel (t k : Nat) (c : Chip) : Chip :=
  let gain := signed 16 (rfld c (Reg.LRN_LABEL_CFG t) 15 0)
  let b := readBank (tileStep c t)
  c |> accAddExact t b (rfld c (Reg.LRN_LABEL_NRN t) 9 0 + k) (-gain)
    |> accAddExact t b (rfld c (Reg.LRN_LABEL_NRN t) 25 16 + k) gain
    |> count (Reg.LRN_LABEL_APPLIED t) 1
    |> modLrn t (fun L => { L with labels := L.labels.drop 1, labelled := tileStep16 c t :: L.labelled })

/-- The head label acted on at update go, after the stale ones are discarded (R230). -/
def actLabels (t : Nat) : Nat → Chip → Chip
  | 0, c => c
  | n + 1, c =>
    match (tile c t).lrn.labels with
    | [] => c
    | (s16, k) :: _ =>
      if s16 = tileStep16 c t then applyLabel t k c
      else if newer16 (tileStep16 c t) s16 then
        c |> modLrn t (fun L => { L with labels := L.labels.drop 1 }) |> count (Reg.LRN_LABEL_STALE t) 1
          |> raise (Reg.LRN_FAULT t) 2 |> actLabels t n
      else c

/-! ### Trace decay (R225) -/

/-- One pepper word drawn (R111). -/
def drawPepper (t : Nat) (c : Chip) : Nat × Chip :=
  let s := pepperStep (tile c t).pepper.toNat
  (pepperWord s, modTile t (fun T => { T with pepper := BitVec.ofNat 64 s }) c)

/-- Neuron traces of neuron `i` of population `j` decayed in the working slot (R225). -/
def decayNeuron (t j i : Nat) (c : Chip) : Chip :=
  let a := nrnAddr c t (workSlot c t) i
  let st := nstateOf (bytesAt c a 16)
  let k := (popAt c t j).decay
  let st' := { st with pre := decayTrace st.pre k, post := decayTrace st.post k }
  let line := List.range 4 |>.map (fun x => i / 4 * 4 + x)
  let c := engineRead t a 16 c
  if st' = st then c
  else
    c |> engineWrite a (nstateBytes st')
      |> modTile t (fun T => { T with nrn := { T.nrn with
          upd := setBmp (workSlot c t) (line.foldl (fun m x => bmpPut m x true) (bmp T.nrn.upd (workSlot c t))) T.nrn.upd } })

/-- The axon trace of entry `a` decayed (R225). -/
def decayAxon (t a : Nat) (c : Chip) : Chip :=
  let p := traceAddr c t a
  let v := (byteAt c p).toNat
  let c := engineRead t p 1 c
  if v = 0 then c
  else
    let (r, c) := drawPepper t c
    engineWrite p [BitVec.ofNat 8 (roundStoch (v * rfld c (Reg.LRN_TRACE_CFG t) 31 16) 16 r).toNat] c

/-- TRACE_STEP (R225). -/
def traceStep (t : Nat) (c : Chip) : Chip :=
  settleWord t 8 (fun c =>
    let first := bits (wordAt c t) 7 4
    let last := bits (wordAt c t) 3 0
    let axons := learns c t && !skipping c t && !(tile c t).seq.traced
    c |> forAll (fun j c => forAll (decayNeuron t j) (popNeurons c t j) c) ((List.range (last + 1 - first)).map (first + ·))
      |> when_ axons (fun c => c
          |> forAll (fun b c => forAll (fun r c => decayAxon t (b.first + r) c) (List.range b.rows) c) (lrnBlocks c t)
          |> noteWork t)
      |> modTile t (fun T => { T with seq := { T.seq with traced := true } })
      |> nextWord t) c

/-! ### The mow (R233 to R237) -/

/-- Codebook `b` of the synapse store, entry by entry (R147). -/
def storedCodebook (c : Chip) (t b : Nat) : List (Nat × BitVec 16) :=
  (List.range 256).map (fun i => (256 * b + i, BitVec.ofNat 16
    (bits (unitAt c t (rfld c (Reg.SYN_CB_CFG t) 14 0 + 64 * b + i / 4)) (16 * (i % 4) + 15) (16 * (i % 4)))))

/-- The codebooks of LRN_MOW_CFG loaded into the requantisation table, one where the two are equal (R234). -/
def loadTable (t : Nat) (c : Chip) : Chip :=
  let a := rfld c (Reg.LRN_MOW_CFG t) 2 0
  let b := rfld c (Reg.LRN_MOW_CFG t) 6 4
  let cbs := if a = b then [a] else [a, b]
  let entries := cbs.flatMap (storedCodebook c t)
  c |> forAll (fun k c => engineRead t (unitAddr t (rfld c (Reg.SYN_CB_CFG t) 14 0 + 64 * k)) 512 c) cbs
    |> modLrn t (fun L => { L with
        table := entries.foldl (fun m e => mapPut (fun _ => 0#16) m e.1 e.2) []
        tableOf := cbs })

/-- Entry `i` of codebook `b` as the requantisation table holds it (R234). -/
def tableEntry (c : Chip) (t b i : Nat) : Int :=
  (mapGet (fun _ => 0#16) (tile c t).lrn.table (256 * b + i)).toInt

/-- The bracket of `w` (Q.4): the largest i with entry i at or below `w`, from `i` on. -/
def bracket (c : Chip) (t b : Nat) (w : Int) : Nat → Nat → Nat
  | 0, i => i
  | n + 1, i => if tableEntry c t b (i + 1) * 16 ≤ w then bracket c t b w n (i + 1) else i

/-- The new code of a weight with code `k` and delta `d`, whether it was clamped, and the chip after the pepper words
drawn (R234). For a codebook that the table does not hold, which the load checks exclude, the code is a free value (log
entry 174). -/
def mowCode (t b top k : Nat) (d : Int) (c : Chip) : Nat × Bool × Chip :=
  if d = 0 then (k, false, c)
  else if !(tile c t).lrn.tableOf.contains b then
    let (r, c) := takeFree c
    (r.toNat % (top + 1), false, c)
  else
    let w := tableEntry c t b k * 16 + d
    let lo := tableEntry c t b 0 * 16
    let hi := tableEntry c t b top * 16
    if w ≤ lo ∨ hi ≤ w then (if w ≤ lo then 0 else top, decide (w < lo) || decide (hi < w), c)
    else
      let i := bracket c t b w top 0
      let span := (tableEntry c t b (i + 1) - tableEntry c t b i) * 16
      let p := (w - tableEntry c t b i * 16) * 65536 / span
      let (r, c) := drawPepper t c
      ((i + roundStoch p 16 r).toNat, false, c)

/-- A unit with code `j` set to `v` (Table 5.4). -/
def putCode (width j v u : Nat) : Nat :=
  let n := if width = 1 then 8 else 4
  let p := n * (j % codesPerUnit width)
  u - bits u (p + n - 1) p * 2 ^ p + v % 2 ^ n * 2 ^ p

/-- One code of a row mowed into the alternate slot's units (R234). -/
def mowOne (t r : Nat) (b : LrnBlock) (h : Nat) (row : Nat) (j : Nat) (c : Chip) : Chip :=
  let w := hWidth h
  let u := row + 1 + j / codesPerUnit w
  let alt := hAlt h + 1 + j / codesPerUnit w
  let k := codeIn w j (unitAt c t u)
  let (v, clamped, c) := mowCode t (hCb h) (if w = 1 then 255 else 15) k (deltaAt c t (b.dbase + r * b.len + j)) c
  c |> engineWrite (unitAddr t alt) (toBytes 8 (putCode w j v (unitAt c t alt)))
    |> when_ (decide (v ≠ k)) (count (Reg.LRN_MOW_CHANGED t) 1)
    |> when_ clamped (fun c => c |> count (Reg.LRN_MOW_CLAMP t) 1 |> raise (Reg.LRN_FAULT t) 4)

/-- Learnable row `r` of block `b`, at entry `a`, mowed (R234): the row is copied into its alternate slot, its codes are
rounded, ROW_PTR is flipped and its deltas are cleared. The W units written are the header, the codes (Table 5.4) and then the
scales; the spec gives the scales no place of their own behind ALT_PTR (DEDUCED, log entry 175). -/
def mowRow (t a : Nat) (b : LrnBlock) (c : Chip) : Chip :=
  let e := numAt c (axonAddr c t a) 8
  let h := unitAt c t (aRow e)
  let su := scaleUnits (hLen h) (groupSize (hGsize h))
  let cu := codeUnits (hWidth h) (hLen h)
  let r := a - b.first
  let copyUnit (k : Nat) (c : Chip) : Chip :=
    engineWrite (unitAddr t (hAlt h + k)) (toBytes 8 (unitAt c t (aRow e + k))) c
  c |> engineRead t (axonAddr c t a) 8
    |> engineRead t (unitAddr t (aRow e)) (8 * (1 + cu))
    |> engineRead t (unitAddr t (hScale h)) (8 * su)
    |> engineRead t (deltaAddr c t (b.dbase + r * b.len)) (2 * b.len)
    |> forAll copyUnit (List.range (1 + cu))
    |> engineWrite (unitAddr t (hAlt h + 1 + cu)) (bytesAt c (unitAddr t (hScale h)) (8 * su))
    |> engineWrite (unitAddr t (hAlt h)) (toBytes 8 (h - hAlt h * 2 ^ 49 + aRow e * 2 ^ 49))
    |> forAll (mowOne t r b h (aRow e)) (List.range b.len)
    |> engineWrite (axonAddr c t a) (toBytes 8 (e - aRow e * 2 ^ 43 + hAlt h * 2 ^ 43))
    |> engineWrite (deltaAddr c t (b.dbase + r * b.len)) (List.replicate (2 * b.len) 0#8)
    |> modSyn t (fun S => { S with row := none })
    |> count (Reg.LRN_MOW_ROWS t) 1
    |> noteWork t

/-- One entry of a MOW word handled (R234). -/
def mowEntry (t a : Nat) (c : Chip) : Chip :=
  if aLearn (numAt c (axonAddr c t a) 8) = 0 then c
  else match blockOf c t a with
    | some b => mowRow t a b c
    | none => c

/-- Whether a MOW word stands at or behind word `pc` of tile `t`'s schedule, before its END. -/
def mowAhead (c : Chip) (t : Nat) : Nat → Nat → Bool
  | 0, _ => false
  | n + 1, pc =>
    let op := wOp (numAt c (schedAddr c t pc) 4)
    if op = 9 then true else if op = 0x3F then false else mowAhead c t n (pc + 1)

/-- Whether a MOW word of tile `t` mows in this step (R223, R232, R238). -/
def mowActs (c : Chip) (t : Nat) : Bool := learns c t && epochEnd c t && !skipping c t

/-- A MOW word completes (R233, R237, R240). -/
def mowDone (t clk : Nat) (c : Chip) : Chip :=
  let n := ((reg c (Reg.LRN_MOW_COUNT t)).toNat + 1) % 2 ^ 32
  let K := rfld c (Reg.LRN_CKPT_CFG t) 15 0
  let more := mowAhead c t 2048 ((tile c t).seq.pc + 1)
  c |> putNum (Reg.LRN_MOW_COUNT t) n
    |> when_ (decide (K ≠ 0) && n % K == 0) (fun c => c |> raise (Reg.LRN_STATUS t) 28 |> raise (Reg.LRN_FAULT t) 3)
    |> modLrn t (fun L => { L with mowLeft := none, heldFb := more })
    |> when_ (!more) (setFld (Reg.LRN_MOW_CLK t) 24 0 clk)
    |> noteWork t
    |> nextWord t

/-- MOW (R234): up to `n` of the word's remaining entries are handled; the word completes with the last. -/
def mowWord (t n clk : Nat) (c : Chip) : Chip :=
  settleWord t 9 (fun c =>
    if mowActs c t then
      let w := wordAt c t
      let todo := match (tile c t).lrn.mowLeft with
        | some l => l
        | none => (List.range (bits w 10 0 + 1 - bits w 21 11)).map (bits w 21 11 + ·)
      let rest := todo.drop n
      let c := when_ (tile c t).lrn.mowLeft.isNone (loadTable t) c
      let c := forAll (mowEntry t) (todo.take n) c
      if rest = [] then mowDone t clk c else c |> modLrn t (fun L => { L with mowLeft := some rest }) |> holdWord t
    else nextWord t c) c

/-- What a tile's learning unit does at update go (R230, R233). -/
def learnGo (t : Nat) (c : Chip) : Chip :=
  c |> modLrn t (fun L => { L with labelled := L.labelled.filter (fun x => x != tileStep16 c t), heldFb := mowActs c t && mowAhead c t 2048 (tile c t).seq.pc })
    |> actLabels t 9

/-- A tick abandons what is left of a mow (R237). -/
def abandonMow (t : Nat) (c : Chip) : Chip :=
  let L := (tile c t).lrn
  c |> when_ (L.mowLeft.isSome || (mowActs c t && mowAhead c t 2048 (tile c t).seq.pc)) (fun c => c
        |> count (Reg.LRN_MOW_PARTIAL t) 1 |> raise (Reg.LRN_FAULT t) 0)
    |> modLrn t (fun L => { L with mowLeft := none, heldFb := false })

/-- The learning unit at a tick: the epoch position (R232), FREEZE sampled (R223), feedback held no longer (R233), and the
end of the skipping that a rewind began (R238). The first tick with SEQ_EN set begins the count. -/
def learnTick (t : Nat) (c : Chip) : Chip :=
  let L := (tile c t).lrn
  let s16 := tileStep16 c t
  let pos := if !L.epochFresh then (L.epochPos + 1) % epochLen c t
    else if seqEn c t then rfld c (Reg.LRN_EPOCH_CFG t) 11 0 else L.epochPos
  modLrn t (fun L => { L with
    prevEpochPos := L.epochPos, epochPos := pos, epochFresh := L.epochFresh && !seqEn c t, heldFb := false
    frozen := rflag c (Reg.LRN_CTRL t) 1
    skipTo := L.skipTo.filter (fun l => !newer16 s16 l)
    labelled := L.labelled.filter (fun x => decide ((s16 + 65536 - x) % 65536 < 3)) }) c

/-! ### Checkpoints (R240, R242) -/

/-- CKPT_ACK (R240). -/
def ckptAck (t : Nat) (c : Chip) : Chip := setBit (Reg.LRN_STATUS t) 28 false c

/-- MOW_COUNT_SET (R242): ignored while SEQ_EN is 1. -/
def mowCountSet (t : Nat) (v : Word) (c : Chip) : Chip := if seqEn c t then c else setReg (Reg.LRN_MOW_COUNT t) v c

/-! ### Meanings -/

/-- LEARN_INCREMENT. -/
def execLearnIncrement (t : Fin 8192) (s : State) : Host.Outcome State Fault Refusal :=
  done s (atTile t.val (learnIncrement t.val) s.chip)

/-- FEEDBACK_EVENT. -/
def execFeedbackEvent (t : Fin 8192) (s : State) : Host.Outcome State Fault Refusal :=
  done s (atTile t.val (feedbackEvent t.val) s.chip)

/-- LABEL_PUSH. -/
def execLabelPush (t : Fin 8192) (value : Word) (s : State) : Host.Outcome State Fault Refusal :=
  done s (atTile t.val (labelPush t.val value) s.chip)

/-- TRACE_STEP. -/
def execTraceStep (t : Fin 8192) (s : State) : Host.Outcome State Fault Refusal := done s (atTile t.val (traceStep t.val) s.chip)

/-- MOW. -/
def execMow (t : Fin 8192) (n clk : Nat) (s : State) : Host.Outcome State Fault Refusal :=
  done s (atTile t.val (mowWord t.val n clk) s.chip)

/-- CKPT_ACK. -/
def execCkptAck (t : Fin 8192) (s : State) : Host.Outcome State Fault Refusal := done s (atTile t.val (ckptAck t.val) s.chip)

/-- MOW_COUNT_SET. -/
def execMowCountSet (t : Fin 8192) (value : Word) (s : State) : Host.Outcome State Fault Refusal :=
  done s (atTile t.val (mowCountSet t.val value) s.chip)

end Sys2Proof.Machine
end

