-- ==== Sys2Proof/Machine/Tick.lean ====
section
/-!
DEFINITION. The tick controller: ticks, quiescence, update go and end, stops (R48 to R81, R273, R354).
-/

namespace Sys2Proof.Machine

/-! ### The beginning of a step (R48, R103, R112, R124, R341) -/

/-- A tile's state at the beginning of a step: NO_SERVE is latched (Table 12.11), pepper and epoch position are kept
(R112, R232), and a tile that runs starts its schedule. `from_` is the time at which the step begins on it. -/
def beginTile (from_ t : Nat) (c : Chip) : Chip :=
  let p := (tile c t).pepper.toNat
  let c := c |> modTile t (fun T => { T with
      chk := { T.chk with noServe := rflag c (Reg.CHK_T_CFG t) 0 }
      seq := { T.seq with begunBefore := T.seq.begun, begun := seqEn c t && !fenced c t }
      nrn := { T.nrn with carryFrom := some from_ } })
    |> learnTick t
  if seqEn c t && !fenced c t then
    c |> setReg (Reg.TILE_PEPPER_PREV_LO t) (reg c (Reg.TILE_PEPPER_TICK_LO t))
      |> setReg (Reg.TILE_PEPPER_PREV_HI t) (reg c (Reg.TILE_PEPPER_TICK_HI t))
      |> setReg2 (Reg.TILE_PEPPER_TICK_LO t) (Reg.TILE_PEPPER_TICK_HI t) p
      |> startTile t false
  else startTile t false c

/-- Step `s` of timebase `k` begins on its tiles at `from_`; its tick stood at `at_`. -/
def beginStep (k s at_ from_ : Nat) (c : Chip) : Chip :=
  let j := jobOfTb c k
  c |> modTb k (fun T => { T with
        tickAt := at_, phase := .integrate, goAt := 0, endAt := 0, quiet := false, barrier := false
        censusDone := false, parity := (s + 1) % 2 })
    |> forAll (beginTile from_) (jobTiles c j)
    |> sampleStep j s

/-- A tile that has not reached END at the tick: its settle words are abandoned and the ring rotates (R72). -/
def abandonTile (t : Nat) (c : Chip) : Chip :=
  c |> setFld (Reg.TILE_END_CLK t) 24 0 0x1FFFFFF
    |> abandonMow t
    |> modTile t (fun T => { T with nrn := { T.nrn with updLeft := none, emitPend := [] } })
    |> fun c => if (tile c t).seq.rotated then c else rotateRing t c

/-- SETTLE_OVERRUN (R72): tiles of timebase `k` that have not ended by the tick. -/
def settleOverrun (k : Nat) (c : Chip) : Chip :=
  match (jobTiles c (jobOfTb c k)).filter (fun t => !fenced c t && seqBusy c t) with
  | [] => c
  | ts => c |> forAll abandonTile ts |> tbEvent k 2
      |> when_ (!stepMarked c (jobOfTb c k) (tickNow c k) 0) (overrun k (tickNow c k))

/-- The armed epoch switch of timebase `k` at the tick that begins step `s` (R268). -/
def switchEpoch (k s : Nat) (c : Chip) : Chip :=
  match (tbAt c k).switchAt with
  | some (T, e) =>
    if T = s then
      c |> setBit Reg.SEAM_EPOCH_STATUS k (e == 1) |> setBit Reg.SEAM_EPOCH_STATUS (16 + k) false
        |> modTb k (fun B => { B with switchAt := none })
    else c
  | none => c

/-- Flits that crossed row `y` in direction `d` since the last tick of the budget's timebase. -/
def seamCrossed (c : Chip) (y d : Nat) : Nat := numOf c.seamCnt (2 * y + d)

/-- The seam's budget of one row at a tick of its timebase (R273). -/
def seamRow (y : Nat) (c : Chip) : Chip :=
  let we := seamCrossed c y 0
  let ew := seamCrossed c y 1
  let lim := rfld c Reg.SEAM_BUDGET 15 0
  let past := b2n (decide (lim < we)) + b2n (decide (lim < ew))
  let last : Word := BitVec.ofNat 32 (min ew 65535 * 65536 + min we 65535)
  let old := mapGet (fun _ => 0#32) c.seamMax y
  let top : Word := BitVec.ofNat 32 (max (fld old 31 16) (min ew 65535) * 65536 + max (fld old 15 0) (min we 65535))
  { c with seamLast := mapPut (fun _ => 0#32) c.seamLast y last, seamMax := mapPut (fun _ => 0#32) c.seamMax y top }
    |> when_ (decide (0 < past)) (fun c => c |> count Reg.SEAM_OVER_COUNT past |> raise Reg.SEAM_FAULT 0)

/-- The budgets of every row, and the counts begun anew (R273). -/
def seamTick (k : Nat) (c : Chip) : Chip :=
  if rfld c Reg.SEAM_BUDGET 19 16 = k then
    { forAll seamRow (List.range 64) c with seamCnt := [] }
  else c

/-- The tick that begins step `s` of timebase `k`, whose grid time is `due`. During a replay only TICK_NOW and the
encoders advance (R354). -/
def doTick (k s due now : Nat) (c : Chip) : Chip :=
  let j := jobOfTb c k
  let c := c |> setTickNow k s |> setBit (Reg.TICK_TB_CTRL k) 29 true |> modTb k (fun T => { T with dueAt := none })
    |> switchEpoch k s |> resumeJob j s
  let c := match (jobAt c j).replay with
    | some f => if s = nextStep (nextStep f) then askRestart j f c else c
    | none => c
  let c := if (jobAt c j).replay.isSome then
      c |> modJob j (fun J => { J with tickInReplay := true }) |> modTb k (fun T => { T with laterTick := due })
    else beginStep k s due due c
  c |> forAll (fun p c => if encTb c p = k then encTick p s now c else c) (List.range 16)
    |> seamTick k
    |> when_ (jobAt c j).restarting (fun c => forAll (fun p c => restartRecord p s c) (jobStreams c j) c)

/-- A later tick of timebase `k`: what is left of the old step is closed first (R72, R347). -/
def nextTick (k due now : Nat) (c : Chip) : Chip :=
  let j := jobOfTb c k
  let s := tickNow c k
  let busy := (jobAt c j).replay.isSome
  c |> when_ (!busy) (settleOverrun k)
    |> when_ (!busy) (verdictAtTick j s)
    |> when_ (!busy) (statStep k s)
    |> doTick k (nextStep s) due now

/-- TICK (R48, R65, R67): the boundary that is due. In free-run mode only the first tick comes this way. A boundary whose
time comes during HOLD is counted and passes (R81). -/
def tick (k now : Nat) (c : Chip) : Chip :=
  let T := tbAt c k
  if !tbEnabled c k then c
  else if T.held then
    if T.dueAt.any (fun d => decide (d ≤ now)) then
      c |> count (Reg.TICK_TB_HOLD_SKIPPED k) 1 |> modTb k (fun T => { T with dueAt := none })
    else c
  else
    let first (due : Nat) (c : Chip) : Chip :=
      c |> modTb k (fun T => { T with armed := false })
        |> doTick k (reg2 c (Reg.TICK_TB_START_LO k) (Reg.TICK_TB_START_HI k) % 2 ^ 48) due now
    if freeRun c k then (if T.armed && T.pulse then first now c else c)
    else match T.dueAt with
      | some d => if now < d then c else if T.armed then first d c else nextTick k d now c
      | none => c

/-- FREE_RUN_TICK (R74): the settle phase is complete, FREE_MIN has passed and the barrier of a job of several devices
has come. -/
def freeRunTick (k now : Nat) (c : Chip) : Chip :=
  let T := tbAt c k
  let J := jobAt c (jobOfTb c k)
  if tbEnabled c k && freeRun c k && !T.held && !T.armed && settleDone c k &&
      decide (T.tickAt + rfld c (Reg.TICK_TB_FREE_MIN k) 22 0 ≤ now) && (!J.multi || T.barrier) then
    c |> putNum (Reg.TICK_TB_PERIOD k) (min (now - T.tickAt) 0x7FFFFF) |> nextTick k now now
  else c

/-! ### Quiescence (R58 to R61) -/

/-- Whether a flit is an event of parity `p` for a field of timebase `k`. -/
def eventOf (c : Chip) (k p : Nat) (f : Flit) : Bool :=
  f.head && decide (f.vc < 2) && isEvent f.data && fParity f.data == p &&
    tbOfTile c (tileAt (fDx f.data) (fDy f.data)) == some k

/-- Whether a sender into router `t` still awaits the credit of a flit that the fenced input `i / 8` keeps back; a sender whose
output the watchdog has fenced takes no credits (R252, R264). -/
def keptClean (c : Chip) (t k p : Nat) (e : Nat × List Flit) : Bool :=
  (decide (e.1 / 8 < 4) && wdogFenced c (neighbour t (e.1 / 8)).1 (neighbour t (e.1 / 8)).2) || e.2.all (fun f => !eventOf c k p f)

/-- Whether tile `t` is clean for parity `p` (R58). A fenced tile's own engines hold nothing. -/
def tileClean (c : Chip) (t p : Nat) : Bool :=
  let T := tile c t
  fenced c t ||
    ((heldEvents c t).all (fun f => fParity f != p) && T.evq.arrived.all (fun f => fParity f.data != p) &&
      T.nrn.emitq.all (fun f => fParity f != p) && T.nrn.emitPend.all (fun f => fParity f != p) &&
      (match T.syn.fetching with | some (f, _, _) => fParity f != p | none => true))

/-- Whether every unit is clean for parity `p` of timebase `k` (R58 to R61): no event is in a buffer, on a link or in a Tap
FIFO, and no credit of one is on its way back or kept back. -/
def allClean (c : Chip) (k p : Nat) : Bool :=
  c.routers.all (fun r => r.2.buf.all (fun b => b.2.all (fun h => !eventOf c k p h.flit)) && r.2.kept.all (keptClean c r.1 k p)) &&
  c.wires.all (fun w => w.2.all (fun f => !eventOf c k p f)) &&
  c.creditWires.all (fun w => w.2.all (fun f => !eventOf c k p f)) &&
  c.tapIn.all (fun w => w.2.all (fun f => !eventOf c k p f)) &&
  (c.tiles.filter (fun x => tbOfTile c x.1 == some k)).all (fun x => tileClean c x.1 p) &&
  ((List.range 16).filter (fun q => encTb c q == k)).all (encClean c) &&
  gwClean c k p

/-- The latest update go of the running step of timebase `k`, phase units from its tick: USTART + S (R70), or FREE_MAX in
free-run mode (R75); none while its job replays (R354). -/
def goLimit (c : Chip) (k : Nat) : Option Nat :=
  if (jobAt c (jobOfTb c k)).replay.isSome then none
  else some (if freeRun c k then rfld c (Reg.TICK_TB_FREE_MAX k) 22 0 else uStart c k + stretchOf c k)

/-- `now` held at the latest update go of timebase `k`. -/
def goTime (c : Chip) (k now : Nat) : Nat :=
  match goLimit c k with
  | some l => min now ((tbAt c k).tickAt + l)
  | none => now

/-- A strobe's result for timebase `k`. Quiescence found after the latest update go is none: that go is forced (R71, R75). -/
def strobeTb (now k : Nat) (c : Chip) : Chip :=
  let T := tbAt c k
  if (tbEnabled c k || stopPending c k) && T.phase == .integrate && !T.quiet && goTime c k now == now &&
      allClean c k T.parity then
    let q := min (now - T.tickAt) 0x7FFFFF
    c |> modTb k (fun T => { T with quiet := true }) |> putNum (Reg.TICK_TB_QUIESCE_LAST k) q
      |> utilMax k 4 q |> utilAdd k 5 q |> utilAdd k 7 1
  else c

/-- QUIESCENCE_STROBE (R59, R61). -/
def quiescenceStrobe (now : Nat) (c : Chip) : Chip := c |> noteFabrics now |> forAll (strobeTb now) (List.range 16)

/-! ### Update go and update end (R54, R70, R71, R75, R279) -/

/-- Clocks of a half in 100 phase units at point code `p` (Table 15.7, R63). -/
def clockRate (p : Nat) : Nat := match p with | 0 => 416 | 1 => 352 | 2 => 288 | _ => 208

/-- POINT of the half that holds tile `t`. -/
def pointOf (c : Chip) (t : Nat) : Nat := rfld c (if tileX t < 64 then Reg.PWR_HALF_W else Reg.PWR_HALF_E) 17 16

/-- Whether a carry begun at `from_` still runs on tile `t` at `at_` (R124, R125). -/
def carryRuns (c : Chip) (t from_ at_ : Nat) : Bool :=
  decide ((at_ - from_) * clockRate (pointOf c t) < 100 * (tile c t).nrn.carryClk)

/-- CARRY_LATE at update go (R125). A carry that a REWIND began at a time its command does not give, after the step's tick, is
late for certain where even one begun at that tick would be; else a free value says (log entry 173). -/
def carryCheck (t at_ tick : Nat) (c : Chip) : Chip :=
  let late := raise (Reg.NRN_FAULT t) 0
  match (tile c t).nrn.carryFrom with
  | some f => when_ (carryRuns c t f at_) late c
  | none =>
    if (tile c t).nrn.carryClk = 0 then c
    else if carryRuns c t tick at_ then late c
    else
      let (r, c) := takeFree c
      when_ (r.getLsbD 0) late c

/-- Update go on tile `t` in step `s`: the closing parity `old` ends (R101, R136, R156, R160), the units that wait for
update go act (R212, R230), and a carry still running is flagged (R125). `at_` is the time of update go, `tick` that of the
step's tick. -/
def tileGo (s old at_ tick : Nat) (t : Nat) (c : Chip) : Chip :=
  let c := c |> purgeQueue t old |> purgeEmission t old |> abandonGather t |> clearGin t old
    |> modTile t (fun T => { T with census := T.census.filter (fun x => x.1 / 4 != s % 2) })
  if (tile c t).seq.begun && !fenced c t then
    c |> carryCheck t at_ tick
      |> learnGo t |> decoderGo t s
  else c

/-- The stretch of a step that goes `goAt` after its tick (Table 2.7). -/
def noteStretch (k goAt : Nat) (c : Chip) : Chip :=
  if freeRun c k then c
  else c |> putNum (Reg.TICK_TB_STRETCH_LAST k) (goAt - uStart c k) |> peak (Reg.TICK_TB_STRETCH_MAX k) (goAt - uStart c k)
    |> utilMax k 3 (goAt - uStart c k)

/-- The root's alignment check falls due every CHECK_INTERVAL ticks (R80). -/
def noteAlign (j k s : Nat) (c : Chip) : Chip :=
  let n := rfld c (Reg.TICK_TB_ALIGN_CFG k) 11 0
  if (jobAt c j).multi && isRoot c j && n != 0 && s % n == 0 then modFab j (fun F => { F with checkDue := true }) c else c

/-- Update go of the running step of timebase `k` at `now` (R54, R279, R348). -/
def updateGoAt (k now : Nat) (c : Chip) : Chip :=
  let j := jobOfTb c k
  let s := jobStep c j
  let old := (s + 1) % 2
  let goAt := now - (tbAt c k).tickAt
  let replay := (jobAt c j).replay.isSome
  c |> modTb k (fun T => { T with parity := s % 2, phase := .update, goAt := goAt, fabricQuiet := false })
    |> when_ (!replay) (fun c => c |> closeReplay j |> confirmStep j (prevStep s))
    |> gwClear k (s % 2)
    |> forAll (fun p c => if encTb c p = k then
          c |> encGo p old |> modEnc p (fun E => { E with census := E.census.filter (fun x => x.1 / 4 != s % 2) })
        else c) (List.range 16)
    |> gwGo k old
    |> forAll (tileGo s old now (tbAt c k).tickAt) (jobTiles c j)
    |> forAll (fun t c => purgeRouter t old c) (c.routers.map (fun r => r.1))
    |> when_ (!replay) (noteStretch k goAt)
    |> noteAlign j k s

/-- UPDATE_GO (R70, R75, R354): at quiescence, not before USTART except in a replay, and not later than `goLimit`. -/
def updateGo (k now : Nat) (c : Chip) : Chip :=
  let T := tbAt c k
  let replay := (jobAt c (jobOfTb c k)).replay.isSome
  if T.phase == .integrate && T.quiet && (replay || decide (T.tickAt + uStart c k ≤ now)) then
    updateGoAt k (goTime c k now) c
  else c

/-- Update go forced: the step is overrun, and fetches of the closing parity are abandoned (R71, R155). -/
def forceGo (k now : Nat) (c : Chip) : Chip :=
  let j := jobOfTb c k
  let old := (jobStep c j + 1) % 2
  c |> overrun k (jobStep c j) |> forAll (fun t c => abandonFetch t old c) (jobTiles c j) |> updateGoAt k now

/-- FORCED_UPDATE_GO (R71): no quiescence by USTART + S, where update go then stands. -/
def forcedUpdateGo (k now : Nat) (c : Chip) : Chip :=
  let T := tbAt c k
  if T.phase == .integrate && !T.quiet && !freeRun c k && (jobAt c (jobOfTb c k)).replay.isNone &&
      decide (T.tickAt + uStart c k + stretchOf c k ≤ now) then forceGo k (goTime c k now) c else c

/-- FREE_TIMEOUT (R75): no quiescence within FREE_MAX, where update go then stands. -/
def freeTimeout (k now : Nat) (c : Chip) : Chip :=
  let T := tbAt c k
  if T.phase == .integrate && !T.quiet && freeRun c k && (jobAt c (jobOfTb c k)).replay.isNone &&
      decide (T.tickAt + rfld c (Reg.TICK_TB_FREE_MAX k) 22 0 ≤ now) then
    c |> tbEvent k 3 |> forceGo k (goTime c k now)
  else c

/-- UPDATE_END (Table 2.1): UEND − USTART after update go. -/
def updateEnd (k now : Nat) (c : Chip) : Chip :=
  let T := tbAt c k
  if T.phase == .update && decide (T.tickAt + T.goAt + (uEnd c k - uStart c k) ≤ now) then
    c |> modTb k (fun T => { T with phase := .settle, endAt := now - T.tickAt }) |> noteFabrics now
  else c

/-! ### Stops (R66, R81) -/

/-- TB_DISABLE (R66): ENABLE cleared; the running step completes. -/
def tbDisable (k : Nat) (c : Chip) : Chip :=
  if tbEnabled c k then c |> setBit (Reg.TICK_TB_CTRL k) 31 false |> setBit (Reg.TICK_TB_CTRL k) 30 true else c

/-- A timebase stopped with its TICK_NOW kept. -/
def stopTimebase (k : Nat) (c : Chip) : Chip :=
  let j := jobOfTb c k
  c |> setBit (Reg.TICK_TB_CTRL k) 31 false |> setBit (Reg.TICK_TB_CTRL k) 30 false |> setBit (Reg.TICK_TB_CTRL k) 29 false
    |> modTb k (fun T => { T with phase := .idle, armed := false, dueAt := none, alignEdges := none, regrid := false })
    |> setJobState j 0
    |> forAll streamLost (jobStreams c j)

/-- Whether a timebase stands between steps: no step has begun, or the last one's settle is complete (R66, R74). -/
def betweenSteps (c : Chip) (k : Nat) : Bool := (tbAt c k).armed || (tbAt c k).phase == .idle || settleDone c k

/-- Whether HOLD stops timebase `k` after its running step (R81, R429). -/
def holdsNow (c : Chip) (k : Nat) : Bool :=
  let T := tbAt c k
  T.holdReq || T.holdAt == some (tickNow c k)

/-- TB_STOP_COMPLETE (R66, R81): the settle phase is complete; a requested stop or hold takes effect. -/
def tbStopComplete (k : Nat) (c : Chip) : Chip :=
  if !betweenSteps c k then c
  else if stopPending c k then c |> when_ ((tbAt c k).phase == .settle) (statStep k (tickNow c k)) |> stopTimebase k
  else if tbEnabled c k && holdsNow c k && !(tbAt c k).held then
    c |> modTb k (fun T => { T with held := true, holdReq := false, holdAt := none })
      |> putNum (Reg.TICK_TB_HOLD_SKIPPED k) 0
      |> setBit (Reg.TICK_TB_CTRL k) 29 false
      |> forAll (fun p c => if encTb c p = k then encRunClear p c else c) (List.range 16)
      |> forAll (fun p c => modStream p (fun S => { S with gapNext := true }) c) (jobStreams c (jobOfTb c k))
  else c

/-! ### The end of a replay (R354) -/

/-- The verdict of the replay of step `f` at its END (R347, R355): now where its census is complete or there is none, else
when it completes. -/
def replayVerdict (j f : Nat) (c : Chip) : Chip :=
  let J := jobAt c j
  if !J.census then verdictAtTick j f c
  else
    let c := settleReports j c
    let done := (tbAt c J.tb).censusDone
    c |> modJob j (fun J => { J with unjudged := some (f, !done) }) |> noteJudged j f |> tryVerdict j

/-- REPLAY_END_STEP (R354): every tile of job `j` has reached END; the replay's verdict is formed as its census allows, and
step f + 1 begins when its tick has passed, with update go forced when the stretch budget is spent. -/
def replayEndStep (j now : Nat) (c : Chip) : Chip :=
  let k : Nat := (jobAt c j).tb
  let J := jobAt c j
  let T := tbAt c k
  match J.replay with
  | none => c
  | some f =>
    if T.phase == .settle && allEnded c k then
      let c := replayVerdict j f c
      if (jobAt c j).restarting then c
      else
      let c := c |> modJob j (fun J => { J with replay := none, tickInReplay := false }) |> setJobState j 1
      if J.tickInReplay then
        let c := beginStep k (tickNow c k) T.laterTick now c
        if !freeRun c k && decide (T.laterTick + uStart c k + stretchOf c k < now) then forceGo k now c else c
      else c
    else c

/-! ### Meanings -/

/-- TICK. -/
def execTick (j : Fin 16) (now : Nat) (s : State) : Host.Outcome State Fault Refusal := done s (tick j.val now s.chip)

/-- QUIESCENCE_STROBE. -/
def execQuiescenceStrobe (now : Nat) (s : State) : Host.Outcome State Fault Refusal := done s (quiescenceStrobe now s.chip)

/-- UPDATE_GO. -/
def execUpdateGo (j : Fin 16) (now : Nat) (s : State) : Host.Outcome State Fault Refusal :=
  done s (updateGo j.val now s.chip)

/-- FORCED_UPDATE_GO. -/
def execForcedUpdateGo (j : Fin 16) (now : Nat) (s : State) : Host.Outcome State Fault Refusal :=
  done s (forcedUpdateGo j.val now s.chip)

/-- FREE_TIMEOUT. -/
def execFreeTimeout (j : Fin 16) (now : Nat) (s : State) : Host.Outcome State Fault Refusal :=
  done s (freeTimeout j.val now s.chip)

/-- UPDATE_END. -/
def execUpdateEnd (j : Fin 16) (now : Nat) (s : State) : Host.Outcome State Fault Refusal :=
  done s (updateEnd j.val now s.chip)

/-- FREE_RUN_TICK. -/
def execFreeRunTick (j : Fin 16) (now : Nat) (s : State) : Host.Outcome State Fault Refusal :=
  done s (freeRunTick j.val now s.chip)

/-- TB_DISABLE. -/
def execTbDisable (j : Fin 16) (s : State) : Host.Outcome State Fault Refusal := done s (tbDisable j.val s.chip)

/-- TB_STOP_COMPLETE. -/
def execTbStopComplete (j : Fin 16) (s : State) : Host.Outcome State Fault Refusal := done s (tbStopComplete j.val s.chip)

/-- REPLAY_END_STEP. -/
def execReplayEndStep (job : Fin 16) (now : Nat) (s : State) : Host.Outcome State Fault Refusal :=
  done s (replayEndStep job.val now s.chip)

end Sys2Proof.Machine
end

