-- ==== Sys2Proof/Machine/Reset.lean ====
section
/-!
DEFINITION. The resets of tiles, fields, domains and the compute die, and the loss of memory contents
(R411 to R414, R420, R502).
-/

namespace Sys2Proof.Machine

/-! ### Tiles and fields (Table 14.9) -/

/-- Whether device address `a` is a register that a tile reset of tile `t` resets: all but RTR_ (Table 14.9). -/
def tileRegister (t a : Nat) : Bool :=
  (decide (win t + 0x80000 ≤ a) && decide (a < win t + 0x84000)) ||
    (decide (win t + 0x85000 ≤ a) && decide (a < win t + 0x89000))

/-- What is left of the send slots' flits at a tile reset: the rest of a message whose head has left for the router
(DESIGN CHOICE, log entry 192). -/
def unsent (fs : List Flit) : List Flit :=
  match fs with
  | [] => []
  | f :: _ => if f.head then [] else ((takePacket fs).map (fun x => x.1)).getD fs

/-- A tile reset (Table 14.9): registers, queues, bitmaps, buffers and send slots; router, SRAM and store are left. -/
def tileReset (t : Nat) (c : Chip) : Chip :=
  { c with
    regs := c.regs.filter (fun x => !tileRegister t x.1), tiles := c.tiles.filter (fun x => x.1 != t)
    wires := setList (wireKey t 4 2) (unsent (wire c t 4 2)) c.wires }

/-- The field of a device address in a tile window. -/
def windowField (a : Nat) : Option Nat := fieldUnit a

/-- Base of field window `f` (Table 21.3). -/
def fieldWin (f : Nat) : Nat := 0x200001000000 + 0x40000 * f

/-- Whether device address `a` is a register that a reset of field `f` resets: the tile and router registers and the
field window (Table 14.9, R538). -/
def fieldRegister (f a : Nat) : Bool :=
  (windowField a == some f && decide (0x80000 ≤ a % 0x100000)) ||
    (decide (fieldWin f ≤ a) && decide (a < fieldWin f + 0x40000))

/-- Whether output port `q` of router `t` leads into field `f`. -/
def leadsInto (f t q : Nat) : Bool := decide (q < 4) && fieldOf (neighbour t q).1 == f

/-- Whether the wire of key `k` enters or leaves a router of field `f`. -/
def wireOf (f k : Nat) : Bool := fieldOf (k / 64) == f || leadsInto f (k / 64) (k % 64 / 8)

/-- A router's credits toward field `f` as its reset leaves them (R247). -/
def creditsAnew (f t : Nat) (R : Router) : Router :=
  { R with credit := R.credit.filter (fun x => !leadsInto f t (x.1 / 8)), alloc := R.alloc.filter (fun x => !leadsInto f t (x.1 / 8)) }

/-- A field reset (Table 14.9): tiles and routers, their registers and links; SRAM and store become zero with valid
ECC. -/
def fieldReset (f : Nat) (c : Chip) : Chip :=
  let c := { c with lost := setNum f 0 c.lost }
  let c := eraseMem (fun a => fieldUnit a == some f) c
  let c := forAll (fun x c => modRouter x.1 (creditsAnew f x.1) c) (c.routers.filter (fun x => fieldOf x.1 != f)) c
  { c with
    regs := c.regs.filter (fun x => !fieldRegister f x.1)
    tiles := c.tiles.filter (fun x => fieldOf x.1 != f)
    routers := c.routers.filter (fun x => fieldOf x.1 != f)
    wires := c.wires.filter (fun x => !wireOf f x.1)
    creditWires := c.creditWires.filter (fun x => !wireOf f x.1)
    tapIn := c.tapIn.filter (fun x => fieldOf (tapTile (x.1 / 8)) != f) }

/-- FENCE set on the bad tiles among `ts` after a reset (R413). -/
def fenceBad (ts : List Nat) (c : Chip) : Chip :=
  forAll (fun t c => if tileGood c t then c else setBit (Reg.TILE_CTRL t) 31 true c) ts c

/-! ### The compute die (Table 14.9, R66, R414) -/

/-- What the integrity block holds of job `j`'s steps is gone. -/
def jobStopped (j : Nat) (c : Chip) : Chip :=
  modJob j (fun J => { J with
    rewindDue := none, causes := [], verdict := [], marks := [], replay := none, tickInReplay := false
    replayed := none, suspects := [], ueTiles := [], faulty := [], unjudged := none, resume := none, restarting := false, resendDue := false }) c

/-- Timebase `k` stopped at once when it runs (R66). -/
def stopRunning (k : Nat) (c : Chip) : Chip :=
  if tbEnabled c k || stopPending c k then c |> stopTimebase k |> jobStopped (jobOfTb c k) else c

/-- The seam's rows hold no flit. -/
def seamReset (c : Chip) : Chip :=
  let seamWire (k : Nat) : Bool :=
    (tileX (k / 64) == 63 && k % 64 / 8 == 2) || (tileX (k / 64) == 64 && k % 64 / 8 == 3)
  { c with wires := c.wires.filter (fun x => !seamWire x.1), creditWires := c.creditWires.filter (fun x => !seamWire x.1) }

/-- A compute-die reset (Table 14.9, R414): every timebase stops with its TICK_NOW kept, every field and the seam are
reset. -/
def dieReset (c : Chip) : Chip :=
  { c with reports := [], drain := none } |> forAll stopRunning (List.range 16) |> forAll fieldReset (List.range 64) |> seamReset

/-! ### Lost contents (R502) -/

/-- Whether LPDDR5X address `a` lies on controller `m` (Table 19.2). -/
def onController (c : Chip) (m a : Nat) : Bool := decide (a < 2 ^ 37) && memController c a == m

/-- The contents of controller `m`'s memory are lost (R502): every byte holds a free value. -/
def loseController (m : Nat) (c : Chip) : Chip :=
  let key := if memLinear c then 104 + m else 100 + m
  let c := { c with lost := setNum key (1 + c.free) c.lost, free := c.free + 1 }
  eraseMem (onController c m) c

/-- Every line of LPDDR5X holds zero (R503). -/
def zeroMemory (c : Chip) : Chip :=
  let c := { c with lost := c.lost.filter (fun x => decide (x.1 < 100)) }
  eraseMem (fun a => decide (a < 2 ^ 37)) c

/-! ### Domains (R420, Table 15.1) -/

/-- The registers of an address range and nothing else at their reset values. -/
def resetBlock (base size : Nat) (c : Chip) : Chip := resetRegs base (base + size) c

/-- The reset of stream port `p`'s domain. -/
def portReset (p : Nat) (c : Chip) : Chip :=
  { resetBlock (0x200000A00000 + 0x10000 * p) 0x10000 c with encs := c.encs.filter (fun x => x.1 != p) }

/-- The reset of controller `m`'s domain; it then trains (R502). -/
def controllerReset (m : Nat) (c : Chip) : Chip :=
  { resetBlock (0x200000901000 + 0x1000 * m) 0x1000 c with memQ := c.memQ.filter (fun x => x.1 != m) }
    |> fun c => setFld (Reg.MEM_M_STATUS m) 31 29 (if memPresent c m then 1 else 4) c

/-- The reset of engine `e`'s domain. -/
def engineReset (e : Nat) (c : Chip) : Chip :=
  { resetBlock (0x200000B00000 + 0x10000 * e) 0x10000 c with
    links := c.links.filter (fun x => x.1 != e)
    gw := { c.gw with hold := c.gw.hold.filter (fun x => x.1 != e) } }

/-- The reset of the PCI Express domain: host interface and result engine. -/
def pcieReset (c : Chip) : Chip :=
  { resetBlock 0x200000800000 0x100000 c with
    streams := [], host := { mem := c.host.mem }, mem := c.mem.filter (fun x => !(decide (0x200000800000 ≤ x.1) && decide (x.1 < 0x200000900000))) }

/-- The reset of domain `d` on its return from OFF (R420); a field's is the field reset. -/
def domainReset (d : Nat) (c : Chip) : Chip :=
  if d < 64 then fieldReset d c
  else if d < 80 then portReset (d - 64) c
  else if d < 84 then controllerReset (d - 80) c
  else if d < 92 then engineReset (d - 84) c
  else if d = 92 then pcieReset c
  else if d = 93 then { c with cores := setNum 0 1 (setNum 1 1 c.cores) }
  else if d = 94 then { c with cores := setNum 2 1 (setNum 3 1 c.cores) }
  else seamReset c

end Sys2Proof.Machine
end

