-- ==== Sys2Proof/Machine/Cluster.lean ====
section
/-!
DEFINITION. The control cluster: interrupt controller, receive channels, timers and event recorder (R437 to R459).
-/

namespace Sys2Proof.Machine

/-! ### Lines (R439, R440) -/

/-- Whether a block with cause register `a` and enable register `b` drives its source. -/
def drives (c : Chip) (a b : Nat) : Bool := reg c a &&& reg c b != 0#32

/-- Whether tile `t` drives its field's source (R113, R141, R168, R244, R283, R305). -/
def tileDrives (c : Chip) (t : Nat) : Bool :=
  drives c (Reg.TILE_FAULT t) (Reg.TILE_IRQ_ENABLE t) || drives c (Reg.NRN_FAULT t) (Reg.NRN_IRQ_ENABLE t) ||
    drives c (Reg.SYN_FAULT t) (Reg.SYN_IRQ_ENABLE t) || drives c (Reg.LRN_FAULT t) (Reg.LRN_IRQ_ENABLE t) ||
    drives c (Reg.RTR_FAULT t) (Reg.RTR_IRQ_ENABLE t) || drives c (Reg.CHN_FAULT t) (Reg.CHN_IRQ_ENABLE t)

/-- IRQ_FIELD_f_w (R440). -/
def fieldWord (c : Chip) (f w : Nat) : Nat :=
  ((List.range 32).map (fun i =>
    if domOn c f && tileDrives c ((fieldTiles f).getD (32 * w + i) 0) then 2 ^ i else 0)).foldl (· + ·) 0

/-- SIZE of cluster ring `n`. -/
def ccSize (c : Chip) (n : Nat) : Nat := 256 * 2 ^ min 6 (rfld c (Reg.CHN_CC_CFG n) 27 24)

/-- Bytes in use in cluster ring `n`. -/
def ccUsed (c : Chip) (n : Nat) : Nat :=
  ringUsed (ccSize c n) (rfld c (Reg.CHN_CC_WPTR n) 14 0) (rfld c (Reg.CHN_CC_RPTR n) 14 0)

/-- The line of cluster receive channel `n` (R449). -/
def ccLine (c : Chip) (n : Nat) : Bool :=
  rflag c (Reg.CHN_CC_CFG n) 31 && decide (0 < ccUsed c n) && decide (64 * rfld c (Reg.CHN_CC_CFG n) 23 16 ≤ ccUsed c n)

/-- The line of command queue `q` (R486). -/
def queueLine (c : Chip) (q : Nat) : Bool :=
  rflag c (Reg.HIF_CQ_CFG q) 31 && decide (numOf c.host.head q < numOf c.host.tail q)

/-- The line of source `s` (Table 16.1). A unit in OFF has lost its registers and drives none (Table 15.2). A timer's line is a pulse, which the timer gives itself (R452). -/
def lineOf (c : Chip) (s : Nat) : Bool :=
  if s < 64 then domOn c s && (fieldTiles s).any (tileDrives c)
  else if s < 92 ∧ domState c s = 2 then false
  else if s < 80 then
    drives c (Reg.ENC_FAULT (s - 64)) (Reg.ENC_IRQ_ENABLE (s - 64)) || drives c (Reg.QNT_FAULT (s - 64)) (Reg.QNT_IRQ_ENABLE (s - 64))
  else if s < 84 then drives c (Reg.MEM_M_FAULT (s - 80)) (Reg.MEM_M_IRQ_ENABLE (s - 80))
  else if s < 92 then drives c (Reg.NLK_FAULT (s - 84)) (Reg.NLK_IRQ_ENABLE (s - 84))
  else if 128 ≤ s ∧ s < 192 then ccLine c (s - 128)
  else if 192 ≤ s ∧ s < 224 then queueLine c (s - 192)
  else match s with
    | 92 => drives c Reg.GW_FAULT Reg.GW_IRQ_ENABLE
    | 116 => drives c Reg.CHK_IRQ_STATUS Reg.CHK_IRQ_ENABLE
    | 117 => drives c Reg.BOOT_FAULT Reg.BOOT_IRQ_ENABLE
    | 118 => drives c Reg.PWR_FAULT Reg.PWR_IRQ_ENABLE
    | 119 => drives c Reg.REC_FAULT Reg.REC_IRQ_ENABLE
    | 126 => drives c Reg.SEAM_FAULT Reg.SEAM_IRQ_ENABLE
    | 127 => drives c Reg.TICK_IRQ_STATUS Reg.TICK_IRQ_ENABLE
    | 224 => drives c Reg.HIF_FAULT Reg.HIF_IRQ_ENABLE
    | _ => false

/-- IRQ_LINE_w. -/
def lineWord (c : Chip) (w : Nat) : Nat :=
  ((List.range 32).map (fun i => if lineOf c (32 * w + i) then 2 ^ i else 0)).foldl (· + ·) 0

/-! ### Sources (R441 to R443) -/

/-- Whether source `s` is pending. -/
def isPending (c : Chip) (s : Nat) : Bool := rflag c (Reg.IRQ_PEND (s / 32)) (s % 32)

/-- The pending bit of source `s` set to `b`. -/
def setPending (s : Nat) (b : Bool) (c : Chip) : Chip := setBit (Reg.IRQ_PEND (s / 32)) (s % 32) b c

/-- Whether source `s` is masked. -/
def isMasked (c : Chip) (s : Nat) : Bool := rflag c (Reg.IRQ_MASK (s / 32)) (s % 32)

/-- TARGET of source `s`. -/
def srcTarget (c : Chip) (s : Nat) : Nat := rfld c (Reg.IRQ_SRC s) 6 4

/-- PRIO of source `s`. -/
def srcPrio (c : Chip) (s : Nat) : Nat := rfld c (Reg.IRQ_SRC s) 3 0

/-- TRIG of source `s`: edge. -/
def srcEdge (c : Chip) (s : Nat) : Bool := rflag c (Reg.IRQ_SRC s) 8

/-- Whether source `s` is in service. -/
def inService (v : List Service) (s : Nat) : Bool := v.any (fun x => x.source == s)

/-- The sources in service with target `k`, the latest claim first. -/
def servedBy (v : List Service) (k : Nat) : List Service := v.filter (fun x => x.target == k)

/-- The running level of target `k` (R444). -/
def runLevel (v : List Service) (k : Nat) : Nat := ((servedBy v k).map (fun x => x.prio)).foldl max 0

/-- Whether source `s` is deliverable to target `k` (R444). -/
def deliverable (v : List Service) (c : Chip) (k s : Nat) : Bool :=
  isPending c s && !isMasked c s && srcTarget c s == k && decide (rfld c (Reg.IRQ_T_THRESH k) 3 0 < srcPrio c s) &&
    decide (runLevel v k < srcPrio c s)

/-- The better of two candidates: the higher PRIO, the lower number on equal PRIO (R444). -/
def betterSource (c : Chip) (best : Option Nat) (s : Nat) : Option Nat :=
  match best with
  | none => some s
  | some b => if srcPrio c b < srcPrio c s then some s else some b

/-- The deliverable source that a claim of target `k` returns (R444). -/
def candidate (v : List Service) (c : Chip) (k : Nat) : Option Nat :=
  ((List.range 512).filter (deliverable v c k)).foldl (betterSource c) none

/-- What a read of IRQ_T_k_CLAIM returns for source `s`. -/
def claimWord (c : Chip) (s : Nat) : Nat := 2 ^ 31 + srcPrio c s * 65536 + s

/-- IRQ_T_k_STATUS. -/
def targetStatus (v : List Service) (c : Chip) (k : Nat) : Nat :=
  let rest := runLevel v k * 2 ^ 20 + (servedBy v k).length % 16 * 65536
  match candidate v c k with
  | some s => 2 ^ 31 + rest + s
  | none => rest

/-- IRQ_INSVC_w. -/
def serviceWord (v : List Service) (w : Nat) : Nat :=
  ((List.range 32).map (fun i => if inService v (32 * w + i) then 2 ^ i else 0)).foldl (· + ·) 0

/-- The sources that have become deliverable to target 5 and are still to be announced (R446). -/
def newForHost (v : List Service) (c : Chip) : List Nat :=
  (List.range 512).filter (fun s => deliverable v c 5 s && !c.asked5.contains s)

/-- One message requested for source `s` (R446). -/
def announce (s : Nat) (c : Chip) : Chip :=
  msixRequest (rfld c (Reg.IRQ_SRC s) 21 16) { c with asked5 := c.asked5 ++ [s] }

/-- One message requested for every source that has become deliverable to target 5 (R446). -/
def notifyHost (v : List Service) (c : Chip) : Chip := forAll announce (newForHost v c) c

/-- IRQ_LINE (R442): the controller sees the line of source `s`. -/
def irqLine (v : List Service) (s : Nat) (c : Chip) : Chip :=
  let now := lineOf c s
  let was := mapGet (fun _ => false) c.lineWas s
  let sets := if srcEdge c s then now && !was else now && !inService v s
  { c with lineWas := mapPut (fun _ => false) c.lineWas s now } |> when_ sets (setPending s true) |> notifyHost v

/-- A source register write (R441). -/
def srcWrite (v : List Service) (who : Initiator) (s : Nat) (x : Word) (c : Chip) : Chip :=
  if who != .power && (srcTarget c s == 4 || fld x 6 4 == 4) then raise Reg.IRQ_FAULT 1 c
  else c |> setReg (Reg.IRQ_SRC s) (x &&& 0x003F017F#32) |> notifyHost v

/-- A claim by target `k` (R444): the source, its service, and what is left. -/
def claim (k : Nat) (s : State) : State :=
  match candidate s.irq s.chip k with
  | none => { s with chip := { s.chip with readOut := 0#64 } }
  | some n =>
    let c := { s.chip with readOut := BitVec.ofNat 64 (claimWord s.chip n) }
    let c := if k = 5 then { c with asked5 := c.asked5.filter (· != n) } else c
    { s with irq := { target := k, source := n, prio := srcPrio s.chip n } :: s.irq, chip := setPending n false c }

/-- The end of service of source `n` with target `k` (R444). -/
def endService (k n : Nat) (s : State) : State :=
  if s.irq.any (fun x => x.target == k && x.source == n) then
    let v := s.irq.filter (fun x => !(x.target == k && x.source == n))
    { s with irq := v, chip := notifyHost v s.chip }
  else { s with chip := raise Reg.IRQ_FAULT 0 s.chip }

/-- The interrupt controller at a control-cluster reset (R448). -/
def clusterIrqReset (s : State) : State :=
  let gone := s.irq.filter (fun x => decide (x.target < 4))
  let again (x : Service) (c : Chip) : Chip :=
    when_ (srcEdge c x.source || lineOf c x.source) (setPending x.source true) c
  { s with
    irq := s.irq.filter (fun x => decide (4 ≤ x.target))
    chip := s.chip |> forAll again gone |> forAll (fun k c => putNum (Reg.IRQ_T_THRESH k) 0 c) (List.range 4) }

/-! ### Receive channels (R449) -/

/-- Bytes written to the shared SRAM from offset `a` up. -/
def sharedPut : Nat → List Byte → List Host.Cell → List Host.Cell
  | _, [], m => m
  | a, b :: bs, m => sharedPut (a + 1) bs (mapPut (fun _ => 0#8) m a b)

/-- A message committed to cluster ring `n` (R292 to R294, R449). -/
def commitCluster (n : Nat) (h : DWord) (payload : List Byte) (c : Chip) : Chip :=
  let size := ccSize c n
  let base := 64 * rfld c (Reg.CHN_CC_CFG n) 15 0
  let w := rfld c (Reg.CHN_CC_WPTR n) 14 0
  let r := rfld c (Reg.CHN_CC_RPTR n) 14 0
  match ringCommit size w r (rfld c (Reg.CHN_CC_STAT n) 23 16) n (fSrc h) 0 payload with
  | none => count Reg.CHN_CC_OVERFLOW 1 c
  | some (ws, w', seq) =>
    { c with shared := ws.foldl (fun m x => sharedPut (base + x.1) x.2 m) c.shared }
      |> setFld (Reg.CHN_CC_STAT n) 23 16 seq |> putNum (Reg.CHN_CC_WPTR n) w' |> count Reg.CHN_CC_COMMITTED 1

/-- CLUSTER_MESSAGE (R449): the first message at control tap `k`, when its RESULT bit is 0. -/
def clusterMessage (k : Nat) (c : Chip) : Chip :=
  match tapTake (48 + k) 2 c with
  | none => c
  | some (h, body, c') =>
    if mResult h.data then c
    else if anyPoison h body || !wellFormed h.data then count Reg.CHN_CC_POISON 1 c'
    else if !rflag c (Reg.CHN_CC_CFG (mChannel h.data)) 31 then count Reg.CHN_CC_DISCARD 1 c'
    else commitCluster (mChannel h.data) h.data (mPayload h.data (body.map (fun f => f.data))) c'

/-- A write of CHN_CC_n_CFG: SZ and BASE keep their value while OPEN is 1; opening empties the ring (R297, R449). -/
def writeCcCfg (n : Nat) (v : Word) (c : Chip) : Chip :=
  let old := reg c (Reg.CHN_CC_CFG n)
  let new := if flag old 31 then putFld (putFld v 27 24 (fld old 27 24)) 15 0 (fld old 15 0) else v
  c |> setReg (Reg.CHN_CC_CFG n) (new &&& 0x8FFFFFFF#32)
    |> when_ (flag v 31 && !flag old 31) (fun c => c
        |> putNum (Reg.CHN_CC_WPTR n) 0 |> putNum (Reg.CHN_CC_RPTR n) 0 |> setFld (Reg.CHN_CC_STAT n) 23 16 1)

/-- A write of CHN_CC_n_RPTR (R296): one beyond WPTR, or to a closed ring, is ignored. -/
def writeCcRptr (n : Nat) (v : Word) (c : Chip) : Chip :=
  let size := ccSize c n
  let r := fld v 14 0 % (2 * size)
  if !rflag c (Reg.CHN_CC_CFG n) 31 || decide (size < ringUsed size (rfld c (Reg.CHN_CC_WPTR n) 14 0) r) then c
  else putNum (Reg.CHN_CC_RPTR n) r c

/-! ### Timers (R450 to R454) -/

/-- One timer pulse to the tick controller (R65, R452). -/
def timerPulse (c : Chip) : Chip :=
  forAll (fun k c => modTb k (fun T => { T with pulse := T.pulse || T.armed }) c) (List.range 16) c

/-- The line of timer `n`'s source pulsed (R442, R452). -/
def pulseSource (v : List Service) (n : Nat) (c : Chip) : Chip :=
  when_ (srcEdge c (100 + n) || !inService v (100 + n)) (setPending (100 + n) true) c

/-- The actions `a` of timer `n` (Table 16.4), RESET_SELF apart. -/
def timerAct (v : List Service) (n a : Nat) (c : Chip) : Chip :=
  c |> when_ (bit a 1) (setBit (Reg.TMR_CFG (rfld c (Reg.TMR_CFG n) 27 24)) 31 true)
    |> when_ (bit a 2) (pulseSource v n)
    |> when_ (bit a 3) timerPulse

/-- One count event of timer `n` (R451, R452); an overflow feeds timer `n` + 1 when its SRC is 2. `left` timers may still
be fed. -/
def countEvent (v : List Service) : Nat → Nat → Chip → Chip
  | 0, _, c => c
  | left + 1, n, c =>
    if !rflag c (Reg.TMR_CFG n) 31 then c
    else
      let next := ((reg c (Reg.TMR_COUNT n)).toNat + 1) % 2 ^ 32
      let cfg := reg c (Reg.TMR_CFG n)
      let hit := decide ((reg c (Reg.TMR_CMP n)).toNat ≤ next)
      let c := if next = 0 then
          c |> raise (Reg.TMR_STATUS n) 1 |> timerAct v n (fld cfg 15 12)
            |> when_ (decide (n < 15) && rfld c (Reg.TMR_CFG (n + 1)) 29 28 == 2) (countEvent v left (n + 1))
        else c
      c |> when_ hit (fun c => c |> raise (Reg.TMR_STATUS n) 0 |> timerAct v n (fld cfg 11 8))
        |> putNum (Reg.TMR_COUNT n) (if hit && flag cfg 8 then 0 else next)

/-- Whether a count event of timer `n`'s own source can come (R450): every rclk, or a tick of a running timebase. -/
def timerFed (c : Chip) (n : Nat) : Bool :=
  match rfld c (Reg.TMR_CFG n) 29 28 with
  | 0 => true
  | 1 =>
    let k := rfld c Reg.TICK_TIMER_SEL 3 0
    (tbEnabled c k || stopPending c k) && !(tbAt c k).held
  | _ => false

/-- TIMER_COUNT. -/
def timerCount (v : List Service) (n : Nat) (c : Chip) : Chip :=
  if timerFed c n then c |> countEvent v 16 n |> notifyHost v else c

/-- The bank of TMR_SNAP of an initiator (R454). -/
def snapBank (who : Initiator) : Nat :=
  match who with | .core k => k.val | .power => 4 | .host => 5 | .thistle => 6

/-- A read of TMR_n_COUNT (R454). -/
def timerCountRead (who : Initiator) (n : Nat) (c : Chip) : Chip :=
  let c := { c with readOut := BitVec.ofNat 64 (reg c (Reg.TMR_COUNT n)).toNat }
  if n < 15 ∧ rfld c (Reg.TMR_CFG (n + 1)) 29 28 = 2 then
    { c with snaps := mapPut (fun _ => 0#32) c.snaps (snapBank who) (reg c (Reg.TMR_COUNT (n + 1))) }
  else c

/-- A write of TMR_n_CFG (R453): EN is set by a 1 and never cleared by a write. -/
def timerEnable (n : Nat) (x : Word) (c : Chip) : Chip :=
  setReg (Reg.TMR_CFG n) ((x &&& 0xBF00FF00#32) ||| (reg c (Reg.TMR_CFG n) &&& 0x80000000#32)) c

/-! ### The recorder (R455 to R459) -/

/-- The sequence number after `s` (R455). -/
def nextRecord (s : Nat) : Nat := if s = 0xFFFFF000 then 1 else s + 1

/-- The SEQ word of recorder slot `i`. -/
def slotSeq (c : Chip) (i : Nat) : Nat := (reg c (Reg.REC_RING (16 * (i % 4096)))).toNat

/-- A recorder record's 64 bytes (Table 16.5); unused body bytes are zero. -/
def recorderBytes (seq typ subject time : Nat) (body : List Byte) : List Byte :=
  toBytes 4 seq ++ toBytes 1 typ ++ toBytes 1 (min 44 body.length) ++ toBytes 2 subject ++ toBytes 8 time ++
    (body ++ List.replicate (44 - body.length) 0#8).take 44 ++ toBytes 4 seq

/-- RECORD_WRITE (R456, R458): one record when its type is enabled. Its TIME is a free value (log entry 60). -/
def recordWrite (typ subject : Nat) (body : List Byte) (c : Chip) : Chip :=
  if rflag c Reg.REC_CTRL 31 && rflag c Reg.REC_CTRL typ then
    let (t0, c) := takeFree c
    let (t1, c) := takeFree c
    let seq := nextRecord c.recd.last
    let slot := (seq - 1) % 4096
    let watch := (reg c Reg.REC_WATCH).toNat
    let bs := recorderBytes seq typ subject (t1.toNat * 2 ^ 32 + t0.toNat) body
    let hits := decide (watch ≠ 0) && slotSeq c slot == watch
    { c with recd := { c.recd with last := seq } }
      |> when_ hits (raise Reg.REC_FAULT 2)
      |> forAll (fun i c => putNum (Reg.REC_RING (16 * slot + i)) (ofBytes ((bs.drop (4 * i)).take 4)) c) (List.range 16)
      |> putNum Reg.REC_LAST seq |> setFld Reg.REC_STATUS 11 0 slot |> count Reg.REC_WRITTEN 1
  else c

/-- Whether timebase `k` runs. -/
def tbRuns (c : Chip) (k : Nat) : Bool := tbEnabled c k || stopPending c k

/-- Sum of a field-unit register over the fields of job `j` that are ON. -/
def fieldSum (c : Chip) (j : Nat) (r : Nat → Nat) : Nat :=
  ((jobFields c j).map (fun f => if domOn c f then (reg c (r f)).toNat else 0)).foldl (· + ·) 0

/-- Body of the EVENT_HIST record of timebase `k` (Table 16.6). -/
def eventHist (c : Chip) (k : Nat) : List Byte :=
  let j := jobOfTb c k
  let n := fieldSum c j Reg.REC_FLD_STEPS
  let part (b : Nat) : Nat :=
    if n = 0 then 0 else min 65535 (fieldSum c j (fun f => Reg.REC_FLD_HIST f b) * 65536 / n)
  (List.range 16).flatMap (fun b => toBytes 2 (part b)) ++ toBytes 8 n

/-- Body of the TICK_UTIL record of timebase `k` (Table 16.6). -/
def tickUtil (c : Chip) (k : Nat) : List Byte :=
  let u (i : Nat) : Nat := numOf c.recd.util (8 * k + i)
  let mean := if u 7 = 0 then 0 else u 5 / u 7
  [u 0, u 1, u 2, u 3, u 4, mean, u 6, (reg c (Reg.TICK_TB_PERIOD k)).toNat].flatMap (fun x => toBytes 4 (min x 4294967295))

/-- Body of the CREDIT_WAIT record of group `g`. -/
def creditWait (c : Chip) (g : Nat) : List Byte :=
  (List.range 16).flatMap (fun i =>
    toBytes 2 (if domOn c (16 * g + i) then rfld c (Reg.REC_FLD_WAIT_MAX (16 * g + i)) 15 0 else 0))

/-- Ten free supply readings of the ENV record (log entry 61). -/
def freeReadings : Nat → Chip → List Byte × Chip
  | 0, c => ([], c)
  | n + 1, c =>
    let (w, c) := takeFree c
    let (bs, c) := freeReadings n c
    (toBytes 2 w.toNat ++ bs, c)

/-- The ENV record (Table 16.6). -/
def recordEnv (c : Chip) : Chip :=
  let temps := (List.range 6).flatMap (fun i => toBytes 1 (unsign 8 (c.recd.temps.getD i 0)))
  let (bs, c) := freeReadings 10 c
  recordWrite 5 0 (temps ++ [0#8, 0#8] ++ bs) c

/-- The sum over all tiles of the register that tile 0 has at address `a`. -/
def tileSum (c : Chip) (a : Nat) : Nat :=
  (c.regs.map (fun x => if (windowField x.1).isSome && x.1 % 0x100000 == a % 0x100000 then x.2.toNat else 0)).foldl (· + ·) 0

/-- The counters of the DROPS record, in its order. -/
def dropCounters (c : Chip) : List Nat :=
  let enc (r : Nat → Nat) : Nat := ((List.range 16).map (fun p => (reg c (r p)).toNat)).foldl (· + ·) 0
  [tileSum c (Reg.TILE_DROP_LATE 0), tileSum c (Reg.TILE_DROP_OVERFLOW 0), tileSum c (Reg.TILE_DROP_FENCED 0),
    tileSum c (Reg.RTR_DROP_PRUNE 0), tileSum c (Reg.RTR_DROP_NOROUTE 0), tileSum c (Reg.RTR_CRC_ERR 0),
    enc Reg.ENC_DROP_LATE, enc Reg.ENC_DROP_BUDGET, (reg c Reg.GW_DROP_LATE).toNat, (reg c Reg.GW_DROP_FULL).toNat,
    (reg c Reg.GW_DROP_UNREACH).toNat]

/-- The DROPS record (Table 16.6). -/
def recordDrops (c : Chip) : Chip :=
  let now := dropCounters c
  let bs := (List.range 11).flatMap (fun i => toBytes 4 (min (now.getD i 0 - c.recd.drops.getD i 0) 4294967295))
  recordWrite 7 0 bs { c with recd := { c.recd with drops := now } }

/-- The field units cleared at the end of an interval (R538). -/
def clearFields (c : Chip) : Chip :=
  forAll (fun f c => resetRegs (Reg.REC_FLD_HIST f 0) (Reg.REC_FLD_STEPS f + 4) c) (List.range 64) c

/-- RECORDER_INTERVAL (R457). -/
def recorderInterval (c : Chip) : Chip :=
  if rflag c Reg.REC_CTRL 31 then
    let tbs := (List.range 16).filter (tbRuns c)
    c |> forAll (fun k c => recordWrite 2 k (eventHist c k) c) tbs
      |> forAll (fun k c => recordWrite 3 k (tickUtil c k) c) tbs
      |> forAll (fun g c => recordWrite 4 g (creditWait c g) c) (List.range 4)
      |> recordEnv
      |> fun c => recordWrite 6 0 ((List.range 11).flatMap (fun n => toBytes 4 (reg c (Reg.CHK_CNT n)).toNat)) c
      |> recordDrops |> clearFields
      |> fun c => { c with recd := { c.recd with temps := [], util := [] } }
  else c

/-- REC_NOTE (R457). -/
def recNote (who : Initiator) (x : Word) (c : Chip) : Chip := recordWrite 8 (snapBank who) (toBytes 4 x.toNat) c

/-- The START record of a start or a reload of kind 0 cold, 1 warm, 2 fallow (Table 16.6). -/
def recordStart (kind reloaded : Nat) (c : Chip) : Chip :=
  recordWrite 1 kind (toBytes 4 (reg c Reg.BOOT_FAIL_HIST).toNat ++ toBytes 4 (reg c Reg.BOOT_FP_REV).toNat ++ toBytes 4 reloaded) c

/-- MIRROR (R459): the copy of the ring to flash begins. -/
def mirrorBegin (c : Chip) : Chip := raise Reg.REC_STATUS 31 c

/-- Whether address `a` lies in the recorder's ring. -/
def inRing (a : Nat) : Bool := decide (Reg.REC_RING 0 ≤ a) && decide (a < Reg.REC_RING 65536)

/-- MIRROR_DONE (R459). -/
def mirrorDone (ok : Bool) (c : Chip) : Chip :=
  if !rflag c Reg.REC_STATUS 31 then c
  else
    let c := setBit Reg.REC_STATUS 31 false c
    if ok then
      let last := c.recd.last
      let old := if slotSeq c last = 0 then slotSeq c 0 else slotSeq c last
      { c with flash := { c.flash with mirror := c.regs.filter (fun x => inRing x.1), mirrorSeq := last } }
        |> putNum Reg.REC_MIRROR_SEQ last |> recordWrite 9 0 (toBytes 4 old ++ toBytes 4 last) |> raise Reg.REC_FAULT 0
    else raise Reg.REC_FAULT 1 c

/-- The ring reloaded from the flash mirror at stage 2 of a cold start, with its START record (R459). -/
def mirrorReload (c : Chip) : Chip :=
  let c := resetRegs (Reg.REC_RING 0) (Reg.REC_RING 65536) c
  let c := forAll (fun x c => setReg x.1 x.2 c) c.flash.mirror c
  { c with recd := { c.recd with last := c.flash.mirrorSeq } }
    |> putNum Reg.REC_MIRROR_SEQ c.flash.mirrorSeq |> putNum Reg.REC_LAST c.flash.mirrorSeq
    |> recordStart 0 c.flash.mirrorSeq

/-! ### The runtime watchdog (R438) -/

/-- PERIOD of the runtime watchdog in ms. -/
def wdogPeriod (c : Chip) : Nat := max 1 (rfld c Reg.TMR_WDOG_CFG 15 0)

/-- RUNTIME_WDOG_KICK: the period begins anew. -/
def runtimeKick (c : Chip) : Chip := when_ (rflag c Reg.TMR_WDOG_CFG 31) (putNum Reg.TMR_WDOG_LEFT (wdogPeriod c)) c

/-! ### Meanings -/

/-- IRQ_LINE. -/
def execIrqLine (src : Fin 512) (s : State) : Host.Outcome State Fault Refusal := done s (irqLine s.irq src.val s.chip)

/-- IRQ_CLAIM. -/
def execIrqClaim (k : Fin 6) (s : State) : Host.Outcome State Fault Refusal := .next (claim k.val s)

/-- IRQ_DONE. -/
def execIrqDone (k : Fin 6) (value : Word) (s : State) : Host.Outcome State Fault Refusal :=
  .next (endService k.val (fld value 8 0) s)

/-- IRQ_PEND_SET. -/
def execIrqPendSet (w : Fin 16) (value : Word) (s : State) : Host.Outcome State Fault Refusal :=
  done s (s.chip |> raiseMask (Reg.IRQ_PEND w.val) value |> notifyHost s.irq)

/-- IRQ_PEND_CLR. -/
def execIrqPendClr (w : Fin 16) (value : Word) (s : State) : Host.Outcome State Fault Refusal :=
  done s (setReg (Reg.IRQ_PEND w.val) (reg s.chip (Reg.IRQ_PEND w.val) &&& ~~~value) s.chip)

/-- IRQ_MASK_SET. -/
def execIrqMaskSet (w : Fin 16) (value : Word) (s : State) : Host.Outcome State Fault Refusal :=
  done s (raiseMask (Reg.IRQ_MASK w.val) value s.chip)

/-- IRQ_MASK_CLR. -/
def execIrqMaskClr (w : Fin 16) (value : Word) (s : State) : Host.Outcome State Fault Refusal :=
  done s (s.chip |> setReg (Reg.IRQ_MASK w.val) (reg s.chip (Reg.IRQ_MASK w.val) &&& ~~~value) |> notifyHost s.irq)

/-- IRQ_SRC_WRITE. -/
def execIrqSrcWrite (who : Initiator) (n : Fin 512) (value : Word) (s : State) : Host.Outcome State Fault Refusal :=
  done s (srcWrite s.irq who n.val value s.chip)

/-- CLUSTER_MESSAGE. -/
def execClusterMessage (k : Fin 8) (s : State) : Host.Outcome State Fault Refusal := done s (clusterMessage k.val s.chip)

/-- TIMER_COUNT. -/
def execTimerCount (n : Fin 16) (s : State) : Host.Outcome State Fault Refusal := done s (timerCount s.irq n.val s.chip)

/-- TIMER_COUNT_READ. -/
def execTimerCountRead (who : Initiator) (n : Fin 16) (s : State) : Host.Outcome State Fault Refusal :=
  done s (timerCountRead who n.val s.chip)

/-- TIMER_ENABLE. -/
def execTimerEnable (n : Fin 16) (value : Word) (s : State) : Host.Outcome State Fault Refusal :=
  done s (timerEnable n.val value s.chip)

/-- RECORDER_INTERVAL. -/
def execRecorderInterval (s : State) : Host.Outcome State Fault Refusal := done s (recorderInterval s.chip)

/-- REC_NOTE. -/
def execRecNote (who : Initiator) (value : Word) (s : State) : Host.Outcome State Fault Refusal :=
  done s (recNote who value s.chip)

/-- MIRROR. -/
def execMirror (s : State) : Host.Outcome State Fault Refusal := done s (mirrorBegin s.chip)

/-- MIRROR_DONE. -/
def execMirrorDone (ok : Bool) (s : State) : Host.Outcome State Fault Refusal := done s (mirrorDone ok s.chip)

/-- RUNTIME_WDOG_KICK. -/
def execRuntimeWdogKick (s : State) : Host.Outcome State Fault Refusal := done s (runtimeKick s.chip)

end Sys2Proof.Machine
end

