-- ==== Sys2Proof/Machine/Power.lean ====
section
/-!
DEFINITION. The power controller: domains, refusals, device states, operating points, thermal limits (R418 to R436), and
the loss of the switched supplies (R433, R525).
-/

namespace Sys2Proof.Machine

/-! ### Shared parts -/

/-- The power controller's own state changed. -/
def modPower (f : Power → Power) (c : Chip) : Chip := { c with power := f c.power }

/-- STATE of domain `d` set. -/
def setDom (d st : Nat) (c : Chip) : Chip := setFld (Reg.PWR_DOM d) 31 29 st c

/-- PWR_LAST_REFUSE. -/
def noteRefusal (id kind d : Nat) (c : Chip) : Chip := putNum Reg.PWR_LAST_REFUSE (id * 2 ^ 24 + kind * 2 ^ 16 + d) c

/-- A refused domain request (R421). -/
def refuseDomain (id d : Nat) (c : Chip) : Chip :=
  c |> count (Reg.PWR_REFUSE_COUNT d) 1 |> setFld (Reg.PWR_DOM d) 26 24 id |> noteRefusal id 0 d

/-- PWR_NEED of domain `d`. -/
def needed (c : Chip) (d : Nat) : Bool := rflag c (Reg.PWR_NEED (d / 32)) (d % 32)

/-- The power controller's account of a half. -/
def halfOf (c : Chip) (east : Bool) : Half := if east then c.power.east else c.power.west

/-- A half's account changed. -/
def modHalf (east : Bool) (f : Half → Half) (c : Chip) : Chip :=
  modPower (fun P => if east then { P with east := f P.east } else { P with west := f P.west }) c

/-- PWR_HALF_W or PWR_HALF_E. -/
def halfReg (east : Bool) : Nat := if east then Reg.PWR_HALF_E else Reg.PWR_HALF_W

/-- POINT of a half. -/
def halfPoint (c : Chip) (east : Bool) : Nat := rfld c (halfReg east) 17 16

/-- The floor code of a half (R432). -/
def halfFloor (c : Chip) (east : Bool) : Nat := if east then rfld c Reg.PWR_FLOOR 9 8 else rfld c Reg.PWR_FLOOR 1 0

/-- Whether a half is at or above THROTTLE and not yet released. -/
def halfHot (c : Chip) (east : Bool) : Bool := (halfOf c east).throttled || (halfOf c east).emergency

/-- Whether the half or I/O die of domain `d` is at or above THROTTLE (Table 15.3, id 3). The readings give one temperature for
the I/O dies, so its throttle holds for the units of both dies alike, and the seam counts with both halves: a DESIGN CHOICE (log
entry 190). -/
def domainHot (c : Chip) (d : Nat) : Bool :=
  if d < 64 then halfHot c (decide (4 ≤ d % 8))
  else if d = 95 then halfHot c false || halfHot c true
  else c.power.ioThrottled

/-- Whether domain `d` has RET (Table 15.1). -/
def hasRet (d : Nat) : Bool := !(decide (84 ≤ d) && decide (d ≤ 92))

/-- Whether domain `d` has latched pads (Table 15.1). -/
def hasPads (d : Nat) : Bool := decide (64 ≤ d) && decide (d < 84)

/-- Whether the fuses or the licences that the last load took exclude domain `d` (R2, R4, R7). -/
def excluded (c : Chip) (d : Nat) : Bool :=
  if 64 ≤ d ∧ d < 80 then decide (grantQty c 1 ≤ d - 64)
  else if 84 ≤ d ∧ d < 92 then !flag c.fuses.variant (8 + (d - 84))
  else false

/-- Whether a Thistle operation uses domain `d` (Table 15.3, id 2). -/
def thistleUses (c : Chip) (d : Nat) : Bool :=
  (decide (80 ≤ d ∧ d < 84) || d == 92 || d == 93) && c.secQ.any (fun x => decide (2 ≤ x.src) || x.op == 3 || x.op == 4)

/-- Whether source `s` is pending and enabled for some target. -/
def awaited (c : Chip) (s : Nat) : Bool :=
  isPending c s && !isMasked c s && decide (0 < srcPrio c s) && decide (srcTarget c s < 6)

/-- The interrupt sources that domain `d` drives (Table 16.1). -/
def domainSources (d : Nat) : List Nat :=
  if d < 92 then [d] else if d = 92 then (List.range 33).map (fun i => 192 + i) else []

/-- Whether a job of several devices is enabled (Table 15.3, id 6). -/
def multiRuns (c : Chip) : Bool := (List.range 16).any (fun k => tbRuns c k && tbMulti c k)

/-- RTR_STATUS.EMPTY: no flit in any buffer and no credit outstanding. -/
def routerEmpty (c : Chip) (t : Nat) : Bool :=
  let R := router c t
  R.buf.all (fun x => x.2.isEmpty) && R.collIn.isEmpty && R.collOut.isEmpty && R.credit.all (fun x => x.2 == 4)

/-- Whether every router of field `f` reports EMPTY. -/
def fieldEmpty (c : Chip) (f : Nat) : Bool := (fieldTiles f).all (routerEmpty c)

/-! ### Domains (R419 to R425) -/

/-- The refuser of a request for RET or OFF of domain `d` beside EMPTY (Table 15.3), 0 for none. -/
def leaveRefuser (c : Chip) (d req : Nat) : Nat :=
  if needed c d then 1
  else if thistleUses c d then 2
  else if (domainSources d).any (awaited c) then 4
  else if req = 2 ∧ d = 92 ∧ (rflag c Reg.HIF_LINK_STATUS 1 ∨ rflag c Reg.HIF_LINK_STATUS 2) then 5
  else if req = 2 ∧ 84 ≤ d ∧ d < 92 ∧ multiRuns c then 6
  else 0

/-- The refuser of a request for ON of domain `d`, 0 for none. -/
def wakeRefuser (c : Chip) (d : Nat) : Nat := if excluded c d then 2 else if domainHot c d then 3 else 0

/-- A request for RET or OFF carried out: the entry begins (R423). -/
def beginEntry (d req : Nat) (c : Chip) : Chip :=
  match leaveRefuser c d req with
  | 0 => c |> setFld (Reg.PWR_DOM d) 1 0 req |> setDom d 3 |> modPower (fun P => { P with goal := setNum d req P.goal })
  | id => refuseDomain id d c

/-- A request acted on while the domain stands in ON, RET or OFF (R421, R422). -/
def actRequest (d req : Nat) (c : Chip) : Chip :=
  let st := domState c d
  let c := modPower (fun P => { P with waiting := setNum d 0 P.waiting }) c
  if st = req then setFld (Reg.PWR_DOM d) 1 0 req c
  else if req = 0 then
    match wakeRefuser c d with
    | 0 => c |> setFld (Reg.PWR_DOM d) 1 0 0 |> setDom d 4 |> modPower (fun P => { P with goal := setNum d st P.goal })
    | id => refuseDomain id d c
  else if st = 2 then c
  else if d < 64 ∧ st = 0 ∧ !needed c d ∧ !fieldEmpty c d then modPower (fun P => { P with waiting := setNum d req P.waiting }) c
  else beginEntry d req c

/-- A held request acted on when the transition ends (R434). -/
def actHeld (d : Nat) (c : Chip) : Chip :=
  match numOf c.power.held d with
  | 0 => c
  | r + 1 => actRequest d r (modPower (fun P => { P with held := setNum d 0 P.held }) c)

/-- DOMAIN_REQUEST: a write of PWR_DOM_d.REQ. -/
def domainRequest (d : Nat) (v : Word) (c : Chip) : Chip :=
  let req := fld v 1 0
  if req = 3 ∨ c.power.stripped then c
  else if req = 1 ∧ !hasRet d then raise Reg.PWR_FAULT 0 c
  else if 3 ≤ domState c d then modPower (fun P => { P with held := setNum d (req + 1) P.held }) c
  else actRequest d req c

/-- What domain `d` loses when its supply goes (R419, R502). -/
def loseDomain (d : Nat) (c : Chip) : Chip :=
  if 80 ≤ d ∧ d < 84 then c |> loseController (d - 80) |> setFld (Reg.MEM_M_STATUS (d - 80)) 31 29 0
  else if 84 ≤ d ∧ d < 92 then linkDisableE (d - 84) c
  else if d = 92 then { c with streams := [] } |> setFld Reg.HIF_LINK_STATUS 2 0 0
  else if d = 93 then { c with cores := setNum 0 0 (setNum 1 0 c.cores) }
  else if d = 94 then { c with cores := setNum 2 0 (setNum 3 0 c.cores) }
  else c

/-- A domain reaches RET or OFF. -/
def enterDomain (d st : Nat) (c : Chip) : Chip :=
  let c := setDom d st c
  if st = 2 then loseDomain d c
  else if 80 ≤ d ∧ d < 84 then setFld (Reg.MEM_M_STATUS (d - 80)) 31 29 3 c
  else c

/-- Whether every timebase that runs is held (R428). -/
def allHeld (c : Chip) : Bool := (List.range 16).all (fun k => !tbRuns c k || (tbAt c k).held)

/-- Whether the compute die is quiet: every router of a field that is ON reports EMPTY, and no request waits at a tile and
no reply at a control tap (R428). -/
def dieQuiet (c : Chip) : Bool :=
  c.routers.all (fun x => !domOn c (fieldOf x.1) || routerEmpty c x.1) &&
    c.tiles.all (fun x => !domOn c (fieldOf x.1) || (List.range 6).all (fun p => (listOf x.2.chn.dma (8 * p + 3)).isEmpty)) &&
    controlTaps.all (fun k => (listOf c.tapIn (8 * k + 4)).isEmpty)

/-- The batch of 16 that holds element `d` of an ordered list, and every earlier one (R426). -/
def batchBefore (l : List Nat) (d : Nat) : List Nat := l.take (16 * ((l.takeWhile (· != d)).length / 16))

/-- Whether a domain's requests have all been answered, so that it may leave ON (Table 19.4). -/
def entryFree (c : Chip) (d : Nat) : Bool := !(decide (80 ≤ d) && decide (d < 84)) || (memQueue c (d - 80)).isEmpty

/-- DOMAIN_ENTRY_DONE (R423): an entry ends; a field whose routers have reported EMPTY begins its own; a device-state
change puts a domain into retention (R428). -/
def domainEntryDone (d : Nat) (c : Chip) : Chip :=
  let w := numOf c.power.waiting d
  if domState c d = 3 then
    if entryFree c d then
      c |> enterDomain d (numOf c.power.goal d) |> modPower (fun P => { P with goal := setNum d 0 P.goal }) |> actHeld d
    else c
  else if w ≠ 0 then
    if fieldEmpty c d then c |> modPower (fun P => { P with waiting := setNum d 0 P.waiting }) |> beginEntry d w else c
  else if c.power.devEnter.contains d && domOn c d && allHeld c && dieQuiet c && entryFree c d &&
      (batchBefore c.power.devEnter d).all (fun x => domState c x == 1) then
    c |> enterDomain d 1 |> modPower (fun P => { P with devRet := P.devRet ++ [d] })
  else c

/-- EMPTY_REPORT_TIMEOUT (R422): a field's request still waits for EMPTY after 1 ms. -/
def emptyTimeout (d : Nat) (c : Chip) : Chip :=
  let w := numOf c.power.waiting d
  if w = 0 then c
  else
    let c := modPower (fun P => { P with waiting := setNum d 0 P.waiting }) c
    if fieldEmpty c d then beginEntry d w c else refuseDomain 1 d c

/-- The pads of domain `d` held at the end of its wake (R424). -/
def holdPads (d : Nat) (c : Chip) : Chip :=
  if hasPads d then
    c |> setBit Reg.PWR_PAD_HELD (d - 64) true |> when_ (decide (80 ≤ d)) (setBit (Reg.MEM_M_STATUS (d - 80)) 27 true)
  else c

/-- The wake of domain `d` from state `src` ends (R425): from OFF with its reset, which a field completes later. -/
def finishWake (d src : Nat) (c : Chip) : Chip :=
  let c := modPower (fun P => { P with goal := setNum d 0 P.goal }) c
  let c := if src = 2 then domainReset d c
    else if 80 ≤ d ∧ d < 84 then setFld (Reg.MEM_M_STATUS (d - 80)) 31 29 2 c else c
  let c := holdPads d c
  if src = 2 ∧ d < 64 then setDom d 5 c else c |> setDom d 0 |> actHeld d

/-- The next batch of a device-state change begins its wake once every domain of the batches before it is ON (R426). -/
def startWakes (c : Chip) : Chip :=
  let due := c.power.devWake.filter (fun d => domState c d == 1 && (batchBefore c.power.devWake d).all (domOn c))
  forAll (fun d c => c |> setDom d 4 |> modPower (fun P => { P with goal := setNum d 1 P.goal })) due c

/-- DOMAIN_WAKE_DONE (R425, R426). -/
def domainWakeDone (d : Nat) (c : Chip) : Chip :=
  if domState c d = 4 then
    c |> finishWake d (numOf c.power.goal d) |> when_ (c.power.devWake.contains d) startWakes
  else c

/-! ### Device states (R427 to R429) -/

/-- STATE of the device. -/
def devState (c : Chip) : Nat := rfld c Reg.PWR_DEV_STATUS 31 30

/-- Whether a device-state change is in progress. -/
def devBusy (c : Chip) : Bool := rflag c Reg.PWR_DEV_STATUS 29

/-- Whether the pads that a running job needs are released (R428). -/
def padsReady (c : Chip) : Bool :=
  (List.range 4).all (fun m => !padHeld c (16 + m)) &&
    (List.range 16).all (fun p => !padHeld c p || !(List.range 16).any (fun k =>
      tbRuns c k && (jobAt c (jobOfTb c k)).streams.toNat.testBit p))

/-- The timebases resume once the device is in RUN and the pads are released (R81, R428). -/
def tryResume (c : Chip) : Chip :=
  if devState c = 0 && !devBusy c && padsReady c then
    forAll (fun k c => if (tbAt c k).held then modTb k (fun T => { T with held := false }) c else c) (List.range 16) c
  else c

/-- PAD_RELEASE (R424). -/
def padRelease (v : Word) (c : Chip) : Chip :=
  let rel (i : Nat) (c : Chip) : Chip :=
    if flag v i && padHeld c i && domOn c (64 + i) then
      c |> setBit Reg.PWR_PAD_HELD i false |> when_ (decide (16 ≤ i)) (setBit (Reg.MEM_M_STATUS (i - 16)) 27 false)
    else c
  c |> forAll rel (List.range 20) |> tryResume

/-- A refused device request (R421). -/
def refuseDevice (id : Nat) (c : Chip) : Chip :=
  c |> count Reg.PWR_DEV_REFUSE 1 |> setFld Reg.PWR_DEV_STATUS 26 24 id |> noteRefusal id 3 0

/-- Whether the step that T16 names has begun in a running job of several devices (R429). -/
def stepBegun (c : Chip) (t16 : Nat) : Bool :=
  (List.range 16).any (fun k => tbRuns c k && tbMulti c k && decide (step16 (tickNow c k) t16 ≤ (tickNow c k : Int)))

/-- The refuser of a HOLD or DEEP request (Table 15.3), 0 for none. -/
def deviceRefuser (c : Chip) (joint : Bool) (t16 : Nat) : Nat :=
  if (List.range 64).any (awaited c) then 4
  else if multiRuns c && (!joint || stepBegun c t16) then 6
  else 0

/-- The domains that device state `g` retains (Table 15.5), in the wake order of R426. -/
def stateDomains (g : Nat) : List Nat :=
  match g with
  | 0 => []
  | 1 => List.range 64
  | _ => [80, 81, 82, 83, 95] ++ List.range 64

/-- A stop of timebase `k` armed by a device request: after step T16 when the request is JOINT and the job spans devices,
after the running step else (R81, R429). -/
def armHold (joint : Bool) (t16 k : Nat) (c : Chip) : Chip :=
  if tbRuns c k && !(tbAt c k).held then
    if joint && tbMulti c k then modTb k (fun T => { T with holdAt := some (step16 (tickNow c k) t16).toNat }) c
    else modTb k (fun T => { T with holdReq := true }) c
  else c

/-- A device-state change to `g` begins: the domains to enter and to wake are fixed (R426, R428). -/
def beginDevice (g : Nat) (c : Chip) : Chip :=
  let wake := (stateDomains 2).filter (fun d => c.power.devRet.contains d && domState c d == 1 && !(stateDomains g).contains d)
  let enter := ((stateDomains g).filter (domOn c)).reverse
  c |> raise Reg.PWR_DEV_STATUS 29
    |> modPower (fun P => { P with devGoal := some g, devEnter := enter, devWake := wake })
    |> startWakes

/-- DEV_HOLD and DEV_DEEP: PWR_DEV_CMD with STATE `g` (R428, R429). -/
def devEnterState (g : Nat) (v : Word) (c : Chip) : Chip :=
  if devBusy c || devState c == g then c
  else match deviceRefuser c (flag v 28) (fld v 15 0) with
    | 0 =>
      c |> setFld Reg.PWR_DEV_STATUS 15 0 (if flag v 28 then fld v 15 0 else 0)
        |> forAll (armHold (flag v 28) (fld v 15 0)) (List.range 16)
        |> beginDevice g
    | id => refuseDevice id c

/-- DEV_RUN (R428). -/
def devRun (c : Chip) : Chip := if devBusy c || devState c == 0 then c else beginDevice 0 c

/-- DEV_STATE_DONE (R428): every timebase is stopped and every domain has moved. -/
def devStateDone (c : Chip) : Chip :=
  match c.power.devGoal with
  | none => c
  | some g =>
    if (g == 0 || allHeld c) && c.power.devEnter.all (fun d => domState c d == 1) && c.power.devWake.all (domOn c) then
      c |> setFld Reg.PWR_DEV_STATUS 31 30 g |> setBit Reg.PWR_DEV_STATUS 29 false |> setFld Reg.PWR_DEV_STATUS 15 0 0
        |> modPower (fun P => { P with
            devGoal := none, devRet := P.devRet.filter (stateDomains g).contains, devEnter := [], devWake := [] })
        |> raise Reg.PWR_FAULT 1
        |> tryResume
    else c

/-! ### Operating points (R430 to R432, R436) -/

/-- A refused point request (R436). -/
def refusePoint (east : Bool) (id : Nat) (c : Chip) : Chip :=
  c |> setFld (halfReg east) 15 4 (min 4095 (rfld c (halfReg east) 15 4 + 1))
    |> setFld (halfReg east) 26 24 id |> noteRefusal id (if east then 2 else 1) 0

/-- A half's change begins when the other half is not changing (R431). -/
def startChange (east : Bool) (c : Chip) : Chip :=
  if (halfOf c east).goal.isSome && !rflag c (halfReg (!east)) 31 then raise (halfReg east) 31 c else c

/-- A point request for code `g` carried out (R431, R436). -/
def takePoint (east : Bool) (g : Nat) (c : Chip) : Chip :=
  let c := setFld (halfReg east) 1 0 g c
  if halfPoint c east = g then c |> modHalf east (fun h => { h with goal := none }) |> setBit (halfReg east) 31 false
  else c |> modHalf east (fun h => { h with goal := some g }) |> startChange east

/-- POINT_REQUEST (R421, R422, R436): a higher point while the half is hot is refused with id 3, one below the floor with
id 7. Without supplies none is taken (DEDUCED, log entry 123). -/
def pointRequest (east : Bool) (v : Word) (c : Chip) : Chip :=
  let g := fld v 1 0
  if c.power.stripped then c
  else if g < halfPoint c east ∧ halfHot c east then refusePoint east 3 c
  else if halfFloor c east < g then refusePoint east 7 c
  else takePoint east g c

/-- POINT_STEP_DONE (R431): the changing half moves one code. -/
def pointStepDone (east : Bool) (c : Chip) : Chip :=
  match (halfOf c east).goal with
  | some g =>
    if rflag c (halfReg east) 31 then
      let p := halfPoint c east
      let p' := if g < p then p - 1 else if p < g then p + 1 else p
      let c := setFld (halfReg east) 17 16 p' c
      if p' = g then
        c |> modHalf east (fun h => { h with goal := none }) |> setBit (halfReg east) 31 false |> startChange (!east)
      else c
    else c
  | none => c

/-- A half raised to its floor (R432). -/
def raiseToFloor (east : Bool) (c : Chip) : Chip :=
  let fl := halfFloor c east
  if halfPoint c east ≤ fl then c
  else if halfHot c east then refusePoint east 3 c
  else takePoint east fl c

/-- FLOOR_WRITE (R432). -/
def floorWrite (v : Word) (c : Chip) : Chip :=
  c |> setReg Reg.PWR_FLOOR (v &&& 0x303#32) |> raiseToFloor false |> raiseToFloor true

/-! ### Thermal limits (R433) -/

/-- THROTTLE in °C (R433). -/
def throttleAt (c : Chip) : Int := (min 100 (rfld c Reg.PWR_THERM_CFG 7 0) : Nat)

/-- EMERGENCY in °C (R433). -/
def emergencyAt (c : Chip) : Int := (min 104 (rfld c Reg.PWR_THERM_CFG 15 8) : Nat)

/-- A threshold with its release 5 °C below. -/
def holdsAt (limit hot : Int) (was : Bool) : Bool := decide (limit ≤ hot) || (was && decide (limit - 5 < hot))

/-- One thermal step of a half (Table 15.8): a change to a higher point is given up (Table 15.9). -/
def thermalLower (east : Bool) (c : Chip) : Chip :=
  let h := halfOf c east
  let p := halfPoint c east
  if p < 3 ∧ (h.emergency ∨ (h.throttled ∧ p < halfFloor c east)) then
    let up := match h.goal with | some g => decide (g ≤ p) | none => false
    c |> setFld (halfReg east) 17 16 (p + 1)
      |> when_ (up || h.goal == some (p + 1)) (fun c => c
          |> modHalf east (fun h => { h with goal := none }) |> setBit (halfReg east) 31 false |> startChange (!east))
      |> when_ (decide (halfFloor c east < p + 1)) (fun c => c |> count Reg.PWR_FLOOR_BREACH 1 |> raise Reg.PWR_FAULT 3)
  else c

/-- THERMAL_STEP (R433): 1 ms after the step before, while a lowering threshold holds. -/
def thermalStep (east : Bool) (c : Chip) : Chip := thermalLower east c

/-- PWR_FAULT.THROTTLE or PWR_FAULT.DIE_RESET set; the I3C target owes an in-band interrupt when the bit was 0 (R528). -/
def thermalFault (b : Nat) (c : Chip) : Chip :=
  if rflag c Reg.PWR_FAULT b then c else raise Reg.PWR_FAULT b { c with i3cDue := true }

/-- A half's sensors read `hot`: the thresholds, and the first step of one that is reached (R433). -/
def sampleHalf (east : Bool) (hot : Int) (c : Chip) : Chip :=
  let h := halfOf c east
  let thr := holdsAt (throttleAt c) hot h.throttled
  let em := holdsAt (emergencyAt c) hot h.emergency
  c |> modHalf east (fun h => { h with hot := hot, throttled := thr, emergency := em })
    |> when_ (thr && !h.throttled) (thermalFault 2)
    |> when_ ((thr && !h.throttled) || (em && !h.emergency)) (thermalLower east)

/-- PWR_TEMP_MAX raised to a signed reading. -/
def noteTempMax (x : Int) (c : Chip) : Chip :=
  if signed 8 (rfld c Reg.PWR_TEMP_MAX 7 0) < x then putNum Reg.PWR_TEMP_MAX (unsign 8 x) c else c

/-- Each field's own last reading is free (log entry 62): the command carries the hottest of a half only. -/
def fieldTemps (c : Chip) : Chip :=
  forAll (fun f c => if domOn c f then
      let (w, c) := takeFree c
      putNum (Reg.PWR_FLD_TEMP f) (w.toNat % 256) c
    else c) (List.range 64) c

/-- The extremes of the interval for the ENV record (Table 16.6). -/
def noteExtremes (ts : List Int) (c : Chip) : Chip :=
  let old := c.recd.temps
  let new := ts.zipIdx.flatMap (fun x => [min x.1 (old.getD (2 * x.2) x.1), max x.1 (old.getD (2 * x.2 + 1) x.1)])
  { c with recd := { c.recd with temps := new } }

/-- Every switched supply removed (R433, R525): every switched domain is OFF and its contents are lost. -/
def stripSupplies (c : Chip) : Chip :=
  let c := forAll (fun d c => c |> setDom d 2 |> loseDomain d) (List.range 96) c
  modPower (fun P => { P with stripped := true, held := [], goal := [], waiting := [] }) c

/-- THERMAL_SAMPLE but its trip (R433): readings in °C of the hottest sensor of each half and of the I/O dies. -/
def thermalSample (w e io : Int) (c : Chip) : Chip :=
  let c := c |> sampleHalf false w |> sampleHalf true e
    |> modPower (fun P => { P with ioThrottled := holdsAt (throttleAt c) io P.ioThrottled })
    |> noteExtremes [w, e, io] |> fieldTemps
    |> noteTempMax w |> noteTempMax e |> noteTempMax io
  let trip := decide (110 ≤ w) || decide (110 ≤ e) || decide (110 ≤ io) || c.power.tripped
  let th := halfHot c false || halfHot c true || c.power.ioThrottled
  let em := (halfOf c false).emergency || (halfOf c true).emergency
  c |> putNum Reg.PWR_THERM_STATUS
        (unsign 8 w * 2 ^ 24 + unsign 8 e * 2 ^ 16 + unsign 8 io * 2 ^ 8 + 4 * b2n trip + 2 * b2n em + b2n th)
    |> when_ (trip && !c.power.tripped) (fun c => stripSupplies (modPower (fun P => { P with tripped := true }) c))

/-- THERMAL_DIE_RESET (Table 15.8): a half at code 3 has stood at 104 °C or more for 10 ms. -/
def thermalDieReset (c : Chip) : Chip :=
  let holds (east : Bool) : Bool := decide (104 ≤ (halfOf c east).hot) && halfPoint c east == 3
  if holds false || holds true then c |> dieReset |> fenceBad (List.range 8192) |> thermalFault 4 else c

/-! ### Meanings -/

/-- DOMAIN_REQUEST. -/
def execDomainRequest (d : Fin 96) (value : Word) (s : State) : Host.Outcome State Fault Refusal :=
  done s (domainRequest d.val value s.chip)

/-- DOMAIN_ENTRY_DONE. -/
def execDomainEntryDone (d : Fin 96) (s : State) : Host.Outcome State Fault Refusal := done s (domainEntryDone d.val s.chip)

/-- DOMAIN_WAKE_DONE. -/
def execDomainWakeDone (d : Fin 96) (s : State) : Host.Outcome State Fault Refusal := done s (domainWakeDone d.val s.chip)

/-- EMPTY_REPORT_TIMEOUT. -/
def execEmptyReportTimeout (d : Fin 96) (s : State) : Host.Outcome State Fault Refusal :=
  done s (emptyTimeout d.val s.chip)

/-- PAD_RELEASE. -/
def execPadRelease (value : Word) (s : State) : Host.Outcome State Fault Refusal := done s (padRelease value s.chip)

/-- POINT_REQUEST. -/
def execPointRequest (east : Bool) (value : Word) (s : State) : Host.Outcome State Fault Refusal :=
  done s (pointRequest east value s.chip)

/-- POINT_STEP_DONE. -/
def execPointStepDone (east : Bool) (s : State) : Host.Outcome State Fault Refusal := done s (pointStepDone east s.chip)

/-- FLOOR_WRITE. -/
def execFloorWrite (value : Word) (s : State) : Host.Outcome State Fault Refusal := done s (floorWrite value s.chip)

/-- DEV_RUN. -/
def execDevRun (s : State) : Host.Outcome State Fault Refusal := done s (devRun s.chip)

/-- DEV_HOLD. -/
def execDevHold (value : Word) (s : State) : Host.Outcome State Fault Refusal := done s (devEnterState 1 value s.chip)

/-- DEV_DEEP. -/
def execDevDeep (value : Word) (s : State) : Host.Outcome State Fault Refusal := done s (devEnterState 2 value s.chip)

/-- DEV_STATE_DONE. -/
def execDevStateDone (s : State) : Host.Outcome State Fault Refusal := done s (devStateDone s.chip)

/-- THERMAL_STEP. -/
def execThermalStep (east : Bool) (s : State) : Host.Outcome State Fault Refusal := done s (thermalStep east s.chip)

/-- THERMAL_DIE_RESET. -/
def execThermalDieReset (s : State) : Host.Outcome State Fault Refusal := done s (thermalDieReset s.chip)

end Sys2Proof.Machine
end

