-- ==== Sys2Proof/Machine/RegWrite.lean ====
section
/-!
DEFINITION. Register writes on the data path: the plain access codes of Table 0.5 and the registers of tiles, ports, tick
controller, gateways, integrity block and memory that a write acts on (R16 to R20, R64, R109, R215, R244, R285, R339, R489).
-/

namespace Sys2Proof.Machine

/-! ### Access codes (R19, R20) -/

/-- What a write of `v` leaves in a register that held `old` (Table 0.5). -/
def storeWord (r : RegRow) (old v : Word) : Word :=
  (v &&& BitVec.ofNat 32 r.rw) ||| (old &&& BitVec.ofNat 32 r.ro) ||| (old &&& BitVec.ofNat 32 r.w1c &&& ~~~v)

/-- A write that acts by the access codes of its register alone. -/
def plainWrite (a : Nat) (v : Word) (c : Chip) : Chip :=
  match regRow a with
  | some r => setReg a (storeWord r (reg c a) v) c
  | none => c

/-- The index of address `a` in a row of `n` registers from `base`, `stride` bytes apart. -/
def rowIndex (a base stride n : Nat) : Option Nat :=
  if base ≤ a ∧ (a - base) % stride = 0 ∧ (a - base) / stride < n then some ((a - base) / stride) else none

/-- A plain write unless `locked`. -/
def lockedWrite (locked : Bool) (a : Nat) (v : Word) (c : Chip) : Chip := if locked then c else plainWrite a v c

/-! ### Tiles -/

/-- A write of TILE_CTRL (Table 3.11). -/
def writeTileCtrl (t : Nat) (v : Word) (c : Chip) : Chip :=
  c |> when_ (flag v 1) (reloadPepper t)
    |> (if flag v 31 then fenceTile t .fenced else clearFence t)
    |> (if flag v 0 then setSeqEn t else when_ (seqEn c t) (clearSeqEn t))

/-- A write of LRN_CTRL (R223, R240, R244). -/
def writeLrnCtrl (t : Nat) (v : Word) (c : Chip) : Chip :=
  c |> when_ (flag v 2) (ckptAck t) |> setBit (Reg.LRN_CTRL t) 1 (flag v 1)
    |> when_ (!seqEn c t) (setBit (Reg.LRN_CTRL t) 0 (flag v 0))

/-- A write of RTR_CTRL (R257, R265, R271): packets that wait for an output now fenced are dropped at once. -/
def writeRtrCtrl (t : Nat) (v : Word) (c : Chip) : Chip :=
  c |> setBit (Reg.RTR_CTRL t) 0 (flag v 0)
    |> forAll (fun q c => if flag v (8 + q) then setBit (Reg.RTR_CTRL t) (8 + q) true c else outFenceClear t q c) (List.range 6)
    |> when_ ((List.range 6).any (fun q => flag v (8 + q) && !rflag c (Reg.RTR_CTRL t) (8 + q))) (serveAll t)

/-- The registers of Tables 3.9 to 8.3 that keep their value while SEQ_EN is 1, by offset in the register part of a window
(R86, R109, R167, R215, R244, R285). -/
def lockedBySeq (o : Nat) : Bool :=
  let r (b : Nat) : Nat := b - Reg.TILE_ID 0 + 0x80000
  let within (lo hi : Nat) : Bool := decide (lo ≤ o) && decide (o < hi)
  o == r (Reg.TILE_SCHED_CFG 0) || within (r (Reg.TILE_REGION 0 0)) (r (Reg.TILE_REGION 0 8)) ||
    o == r (Reg.SYN_KEY_CFG 0) || o == r (Reg.SYN_GIN_CFG 0) || o == r (Reg.SYN_CB_CFG 0) ||
    o == r (Reg.LRN_CFG 0) || o == r (Reg.LRN_TRACE_CFG 0) || o == r (Reg.LRN_EPOCH_CFG 0) || o == r (Reg.LRN_CKPT_CFG 0) ||
    o == r (Reg.LRN_MOW_CFG 0) || o == r (Reg.LRN_FB_POS 0) || o == r (Reg.LRN_FB_NEG 0) || o == r (Reg.LRN_LABEL_CFG 0) ||
    o == r (Reg.LRN_LABEL_NRN 0) || within (r (Reg.LRN_BLK_A 0 0)) (r (Reg.LRN_BLK_A 0 4)) ||
    within (r (Reg.CHN_TX 0 0)) (r (Reg.CHN_TX 0 64)) ||
    o == r (Reg.DEC_CTRL 0) || o == r (Reg.DEC_POPS 0) || o == r (Reg.DEC_WINDOW 0) || o == r (Reg.DEC_CLASS_BASE 0) ||
    o == r (Reg.DEC_RING 0) || o == r (Reg.DEC_OUT 0)

/-- A write of a register in tile `t`'s window. -/
def writeTile (t a : Nat) (v : Word) (c : Chip) : Chip :=
  if a = Reg.TILE_CTRL t then writeTileCtrl t v c
  else if a = Reg.TILE_RING t then lockedWrite (fld v 1 0 == 3) a v c
  else if a = Reg.TILE_SRAM_RET t then writeRetention t (fld v 7 0) c
  else if a = Reg.NRN_CTRL t then c |> when_ (flag v 1) (primeTile t) |> plainWrite a v
  else if a = Reg.SYN_CTRL t then when_ (flag v 0) (cbLoad t) c
  else if a = Reg.LRN_CTRL t then writeLrnCtrl t v c
  else if a = Reg.LRN_LABEL_PUSH t then labelPush t v c
  else if a = Reg.LRN_MOW_COUNT_SET t then mowCountSet t v c
  else if a = Reg.RTR_CTRL t then writeRtrCtrl t v c
  else if a = Reg.RTR_TAP_CFG t then lockedWrite (!gatewayTap c t) a v c
  else if win t + 0x84000 ≤ a ∧ a < win t + 0x85000 ∧ isTableWord (a - (win t + 0x84000)) then
    routeTableWrite t (a - (win t + 0x84000)) v c
  else if a = Reg.CHN_BC_CTRL t then c |> when_ (flag v 1) (bcClear t) |> plainWrite a v
  else if a = Reg.DEC_CTRL t then
    let on := rflag c (Reg.DEC_CTRL t) 0
    c |> lockedWrite (seqEn c t) a v |> when_ (flag v 1) (decoderClear t)
      |> when_ (flag v 0 && !on && !seqEn c t) (decoderRestart t)
  else if a = Reg.DEC_WINDOW t then c |> lockedWrite (seqEn c t) a v |> when_ (!seqEn c t) (decoderRestart t)
  else match rowIndex a (Reg.CHN_RX_CFG t 0) 16 64 with
    | some n => writeRxCfg t n v c
    | none => match rowIndex a (Reg.CHN_RX_RPTR t 0) 16 64 with
      | some n => rptrWrite t n v c
      | none => lockedWrite (seqEn c t && lockedBySeq (a - win t)) a v c

/-! ### Ports -/

/-- A write of ENC_CTRL (R194, R199): TB, JOB and SRC only in state 0. -/
def writeEncCtrl (p : Nat) (v : Word) (c : Chip) : Chip :=
  let keep := encState c p != 0
  let c := if keep then c else setReg (Reg.ENC_CTRL p) (putFld (putFld (reg c (Reg.ENC_CTRL p)) 15 8 (fld v 15 8)) 1 1 (fld v 1 1)) c
  c |> (if flag v 2 then linkEnable p else when_ (rflag c (Reg.ENC_CTRL p) 2) (linkDisable p))
    |> (if flag v 0 then encRunSet p else when_ (rflag c (Reg.ENC_CTRL p) 0) (encRunClear p))

/-- The configuration registers of a port's ENC_ and QNT_ parts, counters apart (R189, R199). -/
def portConfig (o : Nat) : Bool :=
  let r (b : Nat) : Nat := b - Reg.ENC_CTRL 0
  [Reg.ENC_LINK_CFG 0, Reg.ENC_LANE_MAP 0, Reg.ENC_CHAN_CFG 0, Reg.ENC_FEAT_CFG 0, Reg.ENC_SEG 0, Reg.ENC_SPT 0,
    Reg.ENC_CAPTURE_LEAD 0, Reg.ENC_GEN_CFG 0, Reg.ENC_EVT_MAX 0, Reg.ENC_INJ_DEADLINE 0, Reg.ENC_PEPPER_SEED_LO 0,
    Reg.ENC_PEPPER_SEED_HI 0, Reg.ENC_REPLAY_BASE_LO 0, Reg.ENC_REPLAY_BASE_HI 0, Reg.ENC_REPLAY_LEN 0, Reg.QNT_CFG 0,
    Reg.QNT_SCALE_FLOOR 0, Reg.QNT_SCALE_INIT 0, Reg.QNT_SCALE_AXON 0].any (fun b => r b == o) ||
    (decide (r (Reg.ENC_COEF 0 0) ≤ o) && decide (o < r (Reg.ENC_COEF 0 4096)))

/-- A write in port `p`'s part of the control space. -/
def writePort (p a : Nat) (v : Word) (c : Chip) : Chip :=
  let o := a - Reg.ENC_CTRL p
  if a = Reg.ENC_CTRL p then writeEncCtrl p v c
  else if Reg.ENC_ROUTE p 0 0 0 ≤ a ∧ a < Reg.ENC_ROUTE p 2 0 0 then
    let i := a - Reg.ENC_ROUTE p 0 0 0
    encRouteWrite p (i / 512) (i / 16 % 32) (i / 4 % 4) v c
  else if a = Reg.QNT_CFG p ∧ encState c p ≠ 0 then qntFreeze p (flag v 9) c
  else lockedWrite (encState c p != 0 && portConfig o) a v c

/-! ### Tick controller (R62, R64 to R66) -/

/-- A write of TICK_TB_CTRL. -/
def writeTbCtrl (k : Nat) (v : Word) (c : Chip) : Chip :=
  if stopPending c k then c
  else if tbEnabled c k then when_ (!flag v 31) (tbDisable k) c
  else if flag v 31 then tbEnable k v c
  else setReg (Reg.TICK_TB_CTRL k) ((v &&& 0x13F0FFFF#32) ||| (reg c (Reg.TICK_TB_CTRL k) &&& 0x68000000#32)) c

/-- The registers of a timebase that R64 locks, by offset. -/
def timebaseConfig (o : Nat) : Bool :=
  let r (b : Nat) : Nat := b - Reg.TICK_TB_CTRL 0
  [Reg.TICK_TB_OFFSET 0, Reg.TICK_TB_USTART 0, Reg.TICK_TB_UEND 0, Reg.TICK_TB_STRETCH 0, Reg.TICK_TB_FREE_MIN 0,
    Reg.TICK_TB_FREE_MAX 0, Reg.TICK_TB_START_LO 0, Reg.TICK_TB_START_HI 0, Reg.TICK_TB_ALIGN_CFG 0].any (fun b => r b == o)

/-- A write in the TICK block. -/
def writeTick (a : Nat) (v : Word) (c : Chip) : Chip :=
  if a = Reg.TICK_QSNAP_CFG then lockedWrite ((List.range 16).any (tbEnabled c)) a v c
  else if a < Reg.TICK_TB_CTRL 0 then plainWrite a v c
  else
    let k := (a - Reg.TICK_TB_CTRL 0) / 0x80
    if a = Reg.TICK_TB_CTRL k then writeTbCtrl k v c
    else lockedWrite ((tbEnabled c k || stopPending c k) && timebaseConfig (a - Reg.TICK_TB_CTRL k)) a v c

/-! ### Seam, links, gateways, integrity block (R268, R274, R310, R339, R359) -/

/-- A write in the SEAM block: a bad row cannot be enabled; SEAM_ROW_MAX is that of the selected row. -/
def writeSeam (a : Nat) (v : Word) (c : Chip) : Chip :=
  if a = Reg.SEAM_EPOCH_SWITCH then seamSwitch v c
  else if a = Reg.SEAM_DRAIN_CTRL then drainGo v c
  else if a = Reg.SEAM_ROW_EN_LO then setReg a (v &&& reg c Reg.SEAM_ROW_GOOD_LO) c
  else if a = Reg.SEAM_ROW_EN_HI then setReg a (v &&& reg c Reg.SEAM_ROW_GOOD_HI) c
  else if a = Reg.SEAM_ROW_MAX then { c with seamMax := mapPut (fun _ => 0#32) c.seamMax (rfld c Reg.SEAM_ROW_SEL 5 0) v }
  else plainWrite a v c

/-- A write of NLK_CTRL (R317). -/
def writeNlkCtrl (e : Nat) (v : Word) (c : Chip) : Chip :=
  let on := rflag c (Reg.NLK_CTRL e) 31
  c |> setBit (Reg.NLK_CTRL e) 8 (flag v 8)
    |> (if flag v 31 then (if on then id else linkEnableE e) else when_ on (linkDisableE e))
    |> when_ (flag v 30) (beginRetrain e)

/-- Whether the timebase of job `j` is enabled. -/
def jobEnabled (c : Chip) (j : Nat) : Bool := (List.range 16).any (fun k => tbEnabled c k && jobOfTb c k == j)

/-- A write of GW_JOB_j_CMD (Table 11.17). -/
def gwCommand (j : Nat) (v : Word) (c : Chip) : Chip :=
  match fld v 30 28 with
  | 0 => cmdAlignStart j v c
  | 1 => cmdEpochSwitch j v c
  | 2 => cmdDrain j v c
  | _ => c

/-- A write in the GW block. -/
def writeGw (a : Nat) (v : Word) (c : Chip) : Chip :=
  if a = Reg.GW_TOPO then lockedWrite ((List.range 8).any (fun e => rflag c (Reg.NLK_CTRL e) 31)) a v c
  else if a = Reg.GW_KT_DATA_HI then tableCommit false v c
  else if a = Reg.GW_OUT_DATA_HI then tableCommit true v c
  else match rowIndex a (Reg.GW_OUT_WIN 0) 4 4 with
    | some _ => lockedWrite ((List.range 16).any (tbEnabled c)) a v c
    | none => match rowIndex a (Reg.GW_JOB_CMD 0) 32 16 with
      | some j => gwCommand j v c
      | none =>
        if Reg.GW_JOB_CFG 0 ≤ a ∧ a < Reg.GW_JOB_CFG 16 ∧ (a - Reg.GW_JOB_CFG 0) % 32 < 8 then
          lockedWrite (jobEnabled c ((a - Reg.GW_JOB_CFG 0) / 32)) a v c
        else plainWrite a v c

/-! ### IMG, LIC, MEM, HIF (R389, R390, R489, R511, Tables 18.8, 19.5) -/

/-- A write in the MEM block. -/
def writeMem (a : Nat) (v : Word) (c : Chip) : Chip :=
  if Reg.MEM_REGION_BASE 0 ≤ a ∧ a < Reg.MEM_REGION_BASE 16 ∧ (a - Reg.MEM_REGION_BASE 0) % 16 < 12 then
    let o := a - Reg.MEM_REGION_BASE 0
    regionWrite (o / 16) (o % 16 / 4) v c
  else plainWrite a v c

end Sys2Proof.Machine
end

