-- ==== Sys2Proof/Machine/Verify.lean ====
section
/-!
DEFINITION. What the Thistle core checks: images and their header, layout, key, signature, hashes, decryption and licences
(R363 to R371), and signed objects (R462 to R469).
-/

namespace Sys2Proof.Machine

/-- The number of `n` bytes at offset `o` of a byte list, little-endian. -/
def nAt (bs : List Byte) (o n : Nat) : Nat := ofBytes ((bs.drop o).take n)

/-- The bytes from offset `o`, `n` of them. -/
def cut (bs : List Byte) (o n : Nat) : List Byte := (bs.drop o).take n

/-- A byte list with exactly `n` bytes: zeros are added, or the end is cut. -/
def fitTo (n : Nat) (bs : List Byte) : List Byte := (bs ++ List.replicate (n - bs.length) 0#8).take n

/-! ### The fuses and keys (R464, R465) -/

/-- The device serial. -/
def serialOf (c : Chip) : Nat := c.fuses.serial.toNat

/-- The fused variant: 0 -A, 1 -C, 2 -E. -/
def variantOf (c : Chip) : Nat := fld c.fuses.variant 1 0

/-- Whether slot `k` is revoked. -/
def slotRevoked (x : Sec) (k : Nat) : Bool := bit x.revoked k

/-- The vendor slot (R465). -/
def vendorSlot (x : Sec) : Nat := ((List.range 4).find? (fun k => !slotRevoked x k)).getD 0

/-- ROOT_HASH_k. -/
def rootHash (x : Sec) (k : Nat) : List Byte := listOf x.rootHash k

/-- The 48 bytes of the identity key (R464). -/
def identitySeed (x : Sec) : List Byte := fitTo 48 (Config.kdf x.seed (textBytes "IDK"))

/-- The key-wrapping key (R464). -/
def wrapKey (x : Sec) : List Byte := fitTo 32 (Config.kdf x.seed (textBytes "KWK"))

/-! ### Images (Tables 13.1, 13.2) -/

/-- SECTIONS. -/
def imgCount (im : List Byte) : Nat := nAt im 0x0C 2

/-- Directory entry `i`. -/
def imgEntry (im : List Byte) (i : Nat) : List Byte := cut im (0x80 + 96 * i) 96

/-- End of the signed message (R365). -/
def imgSigned (im : List Byte) : Nat := 0x80 + 96 * imgCount im

/-- TYPE of a directory entry. -/
def entType (e : List Byte) : Nat := nAt e 0 2
/-- FLAGS.ENC. -/
def entEnc (e : List Byte) : Bool := bit (nAt e 2 2) 0
/-- FLAGS.RELOC. -/
def entReloc (e : List Byte) : Bool := bit (nAt e 2 2) 1
/-- OFFSET. -/
def entOff (e : List Byte) : Nat := nAt e 8 8
/-- LENGTH. -/
def entLen (e : List Byte) : Nat := nAt e 0x10 8
/-- PLAIN_LEN. -/
def entPlain (e : List Byte) : Nat := nAt e 0x18 8
/-- FIELDS of a section. -/
def entFields (e : List Byte) : Nat := nAt e 0x20 8

/-- The stored bytes of section `i`. -/
def imgStored (im : List Byte) (i : Nat) : List Byte := cut im (entOff (imgEntry im i)) (entLen (imgEntry im i))

/-- Operating point frequencies of Table 15.7, MHz. -/
def isFloor (mhz : Nat) : Bool := mhz == 2600 || mhz == 2200 || mhz == 1800 || mhz == 1300

/-- The header's check (R364): 0 or the code of Table 13.15. -/
def headerCode (c : Chip) (im : List Byte) (len : Nat) : Nat :=
  if nAt im 0 4 ≠ 0x474D4959 ∨ nAt im 0x0A 2 ≠ 128 ∨ nAt im 5 1 ≠ 1 then 1
  else if nAt im 8 2 ≠ 0x8400 ∧ nAt im 8 2 ≠ 0x4100 then 2
  else if !bit (nAt im 0x0F 1) (variantOf c) then 0x0D
  else if nAt im 0x30 8 ≠ len then 2
  else if nAt im 0x38 8 ≠ 0 ∧ nAt im 0x38 8 ≠ serialOf c then 8
  else if !isFloor (nAt im 0x18 2) || !isFloor (nAt im 0x1A 2) then 2
  else if nAt im 0x2A 6 ≠ 0 ∨ nAt im 0x40 64 ≠ 0 then 2
  else 0

/-- Whether a directory entry is as Table 13.2 gives it: its reserved fields are zero, and a section that is not encrypted
has no key, no initial value and its stored length (R363). That a breach counts as one of the layout is a DESIGN CHOICE (log
entry 183). -/
def entryOk (e : List Byte) : Bool :=
  decide (bits (nAt e 2 2) 15 2 = 0) && decide (nAt e 0x34 12 = 0) &&
    (entEnc e || (decide (nAt e 4 4 = 0) && decide (nAt e 0x28 12 = 0) && decide (entPlain e = entLen e)))

/-- Whether the layout is as R363, R365 and Table 13.2 give. -/
def layoutOk (im : List Byte) : Bool :=
  let n := imgCount im
  let es := (List.range n).map (imgEntry im)
  decide (1 ≤ n) && decide (n ≤ 4096) && es.all entryOk &&
    es.all (fun e => decide (imgSigned im + 48 + 16224 ≤ entOff e) && decide (entOff e % 64 = 0) &&
      decide (entOff e + entLen e ≤ nAt im 0x30 8)) &&
    (List.range n).all (fun i => (List.range i).all (fun j =>
      let a := imgEntry im i
      let b := imgEntry im j
      decide (entOff a + entLen a ≤ entOff b) || decide (entOff b + entLen b ≤ entOff a)))

/-- Whether the key is accepted (R366). -/
def keyOk (x : Sec) (im : List Byte) : Bool :=
  let k := nAt im 0x0E 1
  decide (k < 4) && !slotRevoked x k && Config.sha256 (cut im (imgSigned im) 48) == rootHash x k

/-- Whether the signature verifies (R365). -/
def imgSigOk (im : List Byte) : Bool :=
  Config.slhVerify (cut im (imgSigned im) 48) (im.take (imgSigned im)) (cut im (imgSigned im + 48) 16224)

/-- The first section whose hash differs (R368). -/
def badHash (im : List Byte) : Option Nat :=
  (List.range (imgCount im)).find? (fun i => Config.sha256 (imgStored im i) != cut (imgEntry im i) 0x40 32)

/-- The plaintext of section `i`; none when its key is unknown or its tag fails (R367). -/
def plainOf (x : Sec) (im : List Byte) (i : Nat) : Option (List Byte) :=
  let e := imgEntry im i
  if entEnc e then
    let k := listOf x.keys (nAt e 4 4)
    if k.isEmpty || entLen e != entPlain e + 16 then none
    else Config.gcmOpen k (cut e 0x28 12) (e.take 64) (imgStored im i)
  else some (imgStored im i)

/-- The first section that does not decrypt (R368). -/
def badPlain (x : Sec) (im : List Byte) : Option Nat := (List.range (imgCount im)).find? (fun i => (plainOf x im i).isNone)

/-- The sections of `im` in the clear. -/
def sectionsOf (x : Sec) (im : List Byte) : List Section :=
  (List.range (imgCount im)).map (fun i =>
    let e := imgEntry im i
    { typ := entType e, reloc := entReloc e, fields := entFields e, data := (plainOf x im i).getD [] })

/-- The first section of a type that is no relocation copy. -/
def sectionData (ss : List Section) (typ : Nat) : List Byte :=
  ((ss.find? (fun x => x.typ == typ && !x.reloc)).map (fun x => x.data)).getD []

/-- Whether a section of a type is present. -/
def hasSection (ss : List Section) (typ : Nat) : Bool := ss.any (fun x => x.typ == typ && !x.reloc)

/-- Entry `i` of the JOBS section. -/
def jobEntry (ss : List Section) (i : Nat) : List Byte := cut (sectionData ss 1) (64 * i) 64

/-- The valid entries of the JOBS section (Table 13.4). -/
def jobEntries (ss : List Section) : List (List Byte) :=
  ((List.range ((sectionData ss 1).length / 64)).map (jobEntry ss)).filter (fun e => bit (nAt e 0 2) 8)

/-- Highest stream of the image plus 1, 0 when none is used. -/
def streamsUsed (ss : List Section) : Nat :=
  ((jobEntries ss).map (fun e => (List.range 16).foldl (fun m p => if bit (nAt e 2 2) p then p + 1 else m) 0)).foldl max 0

/-- SX × SY of the FABRIC section (R310). -/
def fabricUsed (ss : List Section) : Nat :=
  let t := nAt (sectionData ss 5) 0 4
  if hasSection ss 5 then (bits t 14 10 + 1) * (bits t 19 15 + 1) else 0

/-- Features used by an image, bit n − 1 for feature n (Table 13.12). -/
def featuresUsed (ss : List Section) : Nat :=
  b2n (decide (0 < streamsUsed ss)) + 2 * b2n ((jobEntries ss).any (fun e => bit (nAt e 0 2) 10)) + 4 * b2n (hasSection ss 5) +
    8 * b2n ((jobEntries ss).any (fun e => bits (nAt e 0x2C 4) 1 0 == 1)) +
    16 * b2n ((jobEntries ss).any (fun e => bits (nAt e 0x0C 4) 25 24 == 1))

/-- The first feature used and not granted by the licences `g` (R371, Table 13.12). -/
def missingFeature (g : Sparse Word) (ss : List Section) : Option Nat :=
  let f := featuresUsed ss
  let qty (n : Nat) : Nat := fld (grantOf g n) 15 0
  let on (n : Nat) : Bool := flag (grantOf g n) 31
  if qty 1 < streamsUsed ss then some 1
  else if bit f 1 && !on 2 then some 2
  else if bit f 2 && decide (qty 3 < fabricUsed ss) then some 3
  else if bit f 3 && !on 4 then some 4
  else if bit f 4 && !on 5 then some 5
  else none

/-- Whether an image uses a fused property that the device lacks, in a section or a relocation copy (R371). -/
def lacksFused (c : Chip) (ss : List Section) : Bool :=
  variantOf c == 2 && ss.any (fun x => x.typ == 5 || x.typ == 0x19 || x.typ == 0x1A)

/-- The checks of R368 in their order, against the licences `g`: code of Table 13.15, section index, detail. -/
def verifyCode (x : Sec) (c : Chip) (g : Sparse Word) (im : List Byte) (len : Nat) : Nat × Nat × Nat :=
  match headerCode c im len with
  | n + 1 => (n + 1, 0, 0)
  | 0 =>
    if !layoutOk im then (3, 0, 0)
    else if !keyOk x im then (4, 0, 0)
    else if !imgSigOk im then (5, 0, 0)
    else match badHash im with
      | some i => (6, i, 0)
      | none => match badPlain x im with
        | some i => (7, i, 0)
        | none =>
          let ss := sectionsOf x im
          if lacksFused c ss then (0x0D, 0, 0)
          else match missingFeature g ss with
            | some f => (0x0E, 0, f)
            | none => (0, 0, 0)

/-! ### Signed objects (Tables 17.4, 17.5, R466) -/

/-- Whether a signed object's SERIAL may be 0 (Table 17.5). -/
def serialAny (typ : Nat) : Bool := decide (1 ≤ typ) && decide (typ ≤ 4)

/-- The check of a signed object whose TYPE `ok` allows: CODE of Table 17.9, 0 when accepted (R466). -/
def objectCode (x : Sec) (c : Chip) (ok : Nat → Bool) (o : List Byte) (len : Nat) : Nat :=
  let typ := nAt o 4 1
  let body := nAt o 0x18 4
  let v := vendorSlot x
  if nAt o 0 4 ≠ 0x424F5359 ∨ ok typ = false ∨ 4 ≤ nAt o 5 1 ∨ nAt o 7 1 ≠ 0 ∨ nAt o 0x0E 2 ≠ 0 ∨ body % 8 ≠ 0 ∨
      len ≠ 64 + body + 48 + 16224 then 4
  else if nAt o 6 1 ≠ v ∨ slotRevoked x v ∨ Config.sha256 (cut o (64 + body) 48) ≠ rootHash x v then 2
  else if !Config.slhVerify (cut o (64 + body) 48) (o.take 64) (cut o (112 + body) 16224) then 2
  else if Config.sha256 (cut o 64 body) ≠ cut o 0x20 32 then 2
  else if nAt o 0x10 8 ≠ serialOf c ∧ ¬ (nAt o 0x10 8 = 0 ∧ serialAny typ) then 3
  else if serialAny typ ∧ (nAt o 0x0C 2 < numOf x.svnMin typ ∨ (typ = 3 ∧ !bit (nAt o 5 1) 0)) then 6
  else 0

/-! ### Licences (R5, R6, R468) -/

/-- The entries of a licence record: feature and quantity (Table 17.6). -/
def licenceEntries (o : List Byte) : List (Nat × Nat) :=
  (List.range (nAt o 0x18 4 / 8)).map (fun i => (nAt o (64 + 8 * i) 1, nAt o (66 + 8 * i) 2))

/-- Whether an entry's quantity breaks R5. -/
def quantityBad (e : Nat × Nat) : Bool :=
  (e.1 == 1 && !(e.2 == 4 || e.2 == 8 || e.2 == 16)) || (e.1 == 3 && (e.2 == 0 || decide (1024 < e.2)))

/-- The reason for which a licence record is rejected, 0 when it is accepted (R468). -/
def licenceReason (x : Sec) (c : Chip) (o : List Byte) (len : Nat) : Nat :=
  match objectCode x c (· == 0x10) o len with
  | 0 =>
    let n := (licenceEntries o).length
    if n < 1 ∨ 5 < n then 4 else if (licenceEntries o).any quantityBad then 3 else 0
  | 4 => 4
  | 3 => 2
  | _ => 1

/-- Grants with a record's entries merged: the largest quantity of each feature (R6, R468). -/
def mergeGrants (es : List (Nat × Nat)) (g : Sparse Nat) : Sparse Nat :=
  es.foldl (fun g e => if 1 ≤ e.1 ∧ e.1 ≤ 5 ∧ e.2 ≠ 0 then setNum e.1 (max (numOf g e.1) e.2) g else g) g

/-- LIC_GRANT_n as the grants leave them (R6, Table 13.21): on a Y8400-E feature 3 is capped at 1. -/
def showGrants (g : Sparse Nat) (c : Chip) : Chip :=
  forAll (fun n c =>
    let q := numOf g n
    if q = 0 then c
    else putNum (Reg.LIC_GRANT n) (2 ^ 31 + (if n = 3 ∧ variantOf c = 2 then 1 else q)) c) [1, 2, 3, 4, 5] c

end Sys2Proof.Machine
end

