-- ==== Sys2Proof/Machine/Security.lean ====
section
/-!
DEFINITION. The Thistle core: the SEC_ mailboxes and their services, verification and licence loads, attestation, the error
state (R460 to R477, R364 to R371, R387, R390).
-/

namespace Sys2Proof.Machine

/-! ### SEC_INFO and the queue (R477, Table 17.11) -/

/-- SEC_INFO.STATE. -/
def secState (c : Chip) : Nat := rfld c Reg.SEC_INFO 31 29

/-- SEC_INFO with module state `st` and ERR_CAUSE `cause`. -/
def infoWord (x : Sec) (st cause : Nat) : Nat :=
  st * 2 ^ 29 + x.revoked % 16 * 2 ^ 24 + vendorSlot x * 2 ^ 20 + b2n x.debugLock * 2 ^ 16 + b2n (x.scope != 0) * 2 ^ 15 +
    b2n x.seedKill * 2 ^ 14 + cause % 256

/-- SEC_INFO brought up to date with the Thistle core's state. -/
def noteInfo (x : Sec) (c : Chip) : Chip := putNum Reg.SEC_INFO (infoWord x (secState c) (rfld c Reg.SEC_INFO 7 0)) c

/-- The error state (R475): key slots and DRBG state are cleared. -/
def errorState (cause : Nat) (s : State) : State :=
  let x := { s.sec with keys := [], drbg := false }
  { s with sec := x, chip := putNum Reg.SEC_INFO (infoWord x 2 cause) s.chip }

/-- A command of a mailbox ends with CODE `code` (R477). -/
def endCommand (j : SecJob) (code : Nat) (c : Chip) : Chip :=
  putNum (Reg.SEC_STATUS j.src) ((if code = 0 then 3 else 4) * 2 ^ 29 + j.seq * 2 ^ 16 + code) c

/-- Result `i` of a mailbox. -/
def putRes (j : SecJob) (i n : Nat) (c : Chip) : Chip := putNum (Reg.SEC_RES j.src i) n c

/-- Argument `i` of a mailbox. -/
def argOf (c : Chip) (j : SecJob) (i : Nat) : Nat := (reg c (Reg.SEC_ARG j.src i)).toNat

/-- Buffer address of mailbox `m`. -/
def bufAddr (c : Chip) (m : Nat) : Nat := rfld c (Reg.SEC_ADDR_HI m) 4 0 * 2 ^ 32 + rfld c (Reg.SEC_ADDR_LO m) 31 6 * 64

/-- Buffer length of mailbox `m`. -/
def bufLen (c : Chip) (m : Nat) : Nat := rfld c (Reg.SEC_LEN_HI m) 4 0 * 2 ^ 32 + (reg c (Reg.SEC_LEN_LO m)).toNat

/-- The bytes of a mailbox's buffer. -/
def bufBytes (c : Chip) (m : Nat) : List Byte := bytesAt c (bufAddr c m) (bufLen c m)

/-- SEC_GO (R477, Table 17.9): the command queues, or is ignored and counted while another of its mailbox is not done. -/
def secGo (m : Nat) (v : Word) (c : Chip) : Chip :=
  if !flag v 31 then c
  else
    let st := rfld c (Reg.SEC_STATUS m) 31 29
    if st = 1 ∨ st = 2 then count Reg.SEC_REFUSED 1 c
    else setFld (Reg.SEC_STATUS m) 31 29 1 { c with secQ := c.secQ ++ [{ src := m, op := fld v 7 0, seq := fld v 23 16 }] }

/-- The mailbox command at the front of the queue runs when its OP is one `ok` names: it leaves the queue. In the error
state every service but STATUS ends with CODE 5 (R475). -/
def runService (ok : SecJob → Bool) (f : SecJob → State → State) (s : State) : State :=
  match s.chip.secQ with
  | j :: rest =>
    if decide (j.src < 2) && ok j then
      let s := { s with chip := { s.chip with secQ := rest } }
      if secState s.chip = 2 ∧ j.op ≠ 1 then { s with chip := endCommand j 5 s.chip } else f j s
    else s
  | [] => s

/-- A service that changes nothing of the Thistle core's own state. -/
def plainService (f : SecJob → Sec → Chip → Chip) (j : SecJob) (s : State) : State := { s with chip := f j s.sec s.chip }

/-! ### Services (Table 17.7) -/

/-- STATUS. -/
def svcStatus (j : SecJob) (_ : Sec) (c : Chip) : Chip := c |> putRes j 0 (reg c Reg.SEC_INFO).toNat |> endCommand j 0

/-- SELFTEST (R473): `failed` has a bit for each test that fails. -/
def svcSelftest (failed : Word) (j : SecJob) (s : State) : State :=
  let c := s.chip |> setReg Reg.SEC_SELFTEST failed |> putRes j 0 failed.toNat
  if failed = 0#32 then { s with chip := endCommand j 0 c }
  else errorState (((List.range 32).find? (flag failed)).getD 0) { s with chip := endCommand j 5 c }

/-- SHA-256 of the running firmware of a TYPE. -/
def fwDigest (x : Sec) (typ : Nat) : List Byte := fitTo 32 (Config.sha256 (listOf x.fw (2 * typ + numOf x.active typ)))

/-- The attestation quote (Table 17.8) with TIME `t`. -/
def quoteBytes (x : Sec) (c : Chip) (nonce : List Byte) (t : Nat) : List Byte :=
  let flags := b2n (x.scope != 0) + 2 * b2n (rfld c Reg.BOOT_STATUS 31 28 == 11) + 4 * b2n (bit (byteAt c (fpBase + 0x0D)).toNat 0)
  toBytes 4 0x51544159 ++ toBytes 2 1 ++ toBytes 2 flags ++ toBytes 8 (serialOf c) ++ fitTo 32 nonce ++ toBytes 8 t ++
    toBytes 4 (reg c Reg.BOOT_FP_REV).toNat ++ toBytes 4 (reg c Reg.IMG_ID).toNat ++ fwDigest x 1 ++ fwDigest x 2 ++
    fwDigest x 3 ++ fitTo 32 x.imageHash ++ [1, 2, 3, 4, 5].flatMap (fun n => toBytes 4 (reg c (Reg.LIC_GRANT n)).toNat) ++
    toBytes 1 (x.revoked % 16) ++ toBytes 11 0 ++ fitTo 32 (Config.slhPublic (identitySeed x))

/-- ATTEST (R471). The quote's TIME is a free value (log entry 60). -/
def svcAttest (j : SecJob) (x : Sec) (c : Chip) : Chip :=
  if x.seedKill || !x.derived || !x.drbg || decide (bufLen c j.src < 33712) then endCommand j 7 c
  else
    let (t0, c) := takeFree c
    let (t1, c) := takeFree c
    let nonce := (List.range 8).flatMap (fun i => toBytes 4 (argOf c j i))
    let q := quoteBytes x c nonce (t1.toNat * 2 ^ 32 + t0.toNat)
    let sig := fitTo 17088 (Config.slhSign (identitySeed x) q c.free)
    let bs := q ++ sig ++ fitTo 16368 x.cert
    { c with free := c.free + 1 } |> putBytes (bufAddr c j.src) bs |> clearEcc (bufAddr c j.src) bs.length
      |> putRes j 0 33712 |> endCommand j 0

/-- A firmware load has failed the checks of R466, which is a failed conditional test (R474): the error state, with ERR_CAUSE a
free value, since no bit of SEC_SELFTEST is given to this test (log entry 195). -/
def loadFailed (s : State) : State :=
  let (w, c) := takeFree s.chip
  errorState (w.toNat % 256) { s with chip := c }

/-- A firmware package accepted (R467): it goes to the inactive slot of its TYPE. Answers the code, the TYPE and the slot. -/
def acceptPackage (o : List Byte) (len : Nat) (s : State) : (Nat × Nat × Nat) × State :=
  match objectCode s.sec s.chip (fun t => decide (1 ≤ t) && decide (t ≤ 4)) o len with
  | 0 =>
    let typ := nAt o 4 1
    let slot := 1 - numOf s.sec.active typ
    ((0, typ, slot), { s with sec := { s.sec with
      fw := setList (2 * typ + slot) o s.sec.fw, fresh := mapPut (fun _ => false) s.sec.fresh typ true } })
  | n => ((n, 0, 0), loadFailed s)

/-- Whether the device is in fallow mode (R408). -/
def inFallow (c : Chip) : Bool := rfld c Reg.BOOT_STATUS 31 28 == 11

/-- A recovery image has been accepted in fallow mode: the failure count is cleared (R409). -/
def noteRecovery (c : Chip) : Chip :=
  putNum Reg.BOOT_FAIL_COUNT 0 { c with flash := { c.flash with failCount := 0 }, boot := { c.boot with recovered := true } }

/-- An object for FW_UPDATE (R467, R409): in fallow mode also the start image, as a YIMG verified under R364 to R368, and a
recovery image is noted. -/
def updateFirmware (o : List Byte) (len : Nat) (s : State) : (Nat × Nat × Nat) × State :=
  if inFallow s.chip && nAt o 0 4 == 0x474D4959 then
    if (verifyCode s.sec s.chip (latchGrants s.chip) o len).1 = 0 then
      ((0, 0, 0), { s with sec := { s.sec with startImage := o }, chip := noteRecovery s.chip })
    else ((2, 0, 0), s)
  else
    let (r, s) := acceptPackage o len s
    if r.1 = 0 && inFallow s.chip && decide (r.2.1 < 3) then (r, { s with chip := noteRecovery s.chip }) else (r, s)

/-- FW_UPDATE (R467). -/
def svcFwUpdate (j : SecJob) (s : State) : State :=
  let (r, s) := updateFirmware (bufBytes s.chip j.src) (bufLen s.chip j.src) s
  { s with chip := s.chip |> when_ (r.1 == 0) (fun c => c |> putRes j 0 r.2.1 |> putRes j 1 r.2.2) |> endCommand j r.1 }

/-- KEY_LOAD (R469). -/
def svcKeyLoad (j : SecJob) (s : State) : State :=
  let o := bufBytes s.chip j.src
  let code := objectCode s.sec s.chip (· == 0x11) o (bufLen s.chip j.src)
  let id := nAt o 0x1C 4
  let fail (n : Nat) : State := { s with chip := endCommand j n s.chip }
  if code ≠ 0 then fail code
  else if s.sec.seedKill || !s.sec.derived then fail 7
  else if id < 1 ∨ 15 < id then fail 8
  else if nAt o 0x18 4 ≠ 64 then fail 4
  else match Config.gcmOpen (wrapKey s.sec) (cut o 64 12) (o.take 64) (cut o 80 48) with
    | none => fail 2
    | some k => { s with sec := { s.sec with keys := setList id (fitTo 32 k) s.sec.keys }, chip := endCommand j 0 s.chip }

/-- KEY_CLEAR. -/
def svcKeyClear (j : SecJob) (s : State) : State :=
  let id := argOf s.chip j 0
  if 15 < id then { s with chip := endCommand j 8 s.chip }
  else { s with
    sec := { s.sec with keys := if id = 0 then [] else setList id [] s.sec.keys }, chip := endCommand j 0 s.chip }

/-- REVOKE (R465): the last slot that is not revoked stays. -/
def svcRevoke (j : SecJob) (s : State) : State :=
  let o := bufBytes s.chip j.src
  let code := objectCode s.sec s.chip (· == 0x12) o (bufLen s.chip j.src)
  let k := nAt o 0x1C 4
  let fail (n : Nat) : State := { s with chip := endCommand j n s.chip }
  if code ≠ 0 then fail code
  else if 3 < k then fail 4
  else if (List.range 4).all (fun i => i == k || slotRevoked s.sec i) then fail 7
  else
    let x := { s.sec with revoked := s.sec.revoked.lor (2 ^ k) }
    { s with sec := x, chip := s.chip |> noteInfo x |> putRes j 0 x.revoked |> endCommand j 0 }

/-- DEBUG_UNLOCK (R472): the scope of the token opens until the next cold reset. -/
def svcDebugUnlock (j : SecJob) (s : State) : State :=
  let o := bufBytes s.chip j.src
  match objectCode s.sec s.chip (· == 0x13) o (bufLen s.chip j.src) with
  | 0 =>
    let x := { s.sec with scope := s.sec.scope.lor (nAt o 0x1C 4 % 4) }
    { s with sec := x, chip := s.chip |> noteInfo x |> endCommand j 0 }
  | n => { s with chip := endCommand j n s.chip }

/-! ### The JTAG port (R472, R529) -/

/-- The single-ended lands of Table 20.7. -/
inductive Land
  | pwrGood | resetN | perstN | rcvStrap | thermTripN | i3cScl | i3cSda | tck | tms | tdi | trstN | tdo
  deriving DecidableEq, Repr

/-- The lands of Table 20.7. -/
def singleEnded : List Land :=
  [.pwrGood, .resetN, .perstN, .rcvStrap, .thermTripN, .i3cScl, .i3cSda, .tck, .tms, .tdi, .trstN, .tdo]

/-- The lands of the JTAG port itself. -/
def jtagLands : List Land := [.tck, .tms, .tdi, .trstN, .tdo]

/-- The lands that the boundary-scan chain covers (R529). The order of the cells is left open. -/
def boundaryScan : List Land := singleEnded.filter (fun l => !jtagLands.contains l)

/-- IDCODE (R529): version, part, manufacturer field and 1. -/
def jtagIdcode : Word := BitVec.ofNat 32 (mk 31 28 0x1 + mk 27 12 0x8400 + mk 11 1 0x2B5 + mk 0 0 1)

/-- A core that debug access through the port may reach. -/
inductive DebugCore
  | bracken (k : Fin 4) | power | thistle
  deriving DecidableEq, Repr

/-- Whether the port gives debug access to a core (R472): to every core while DEBUG_LOCK is intact, then to those that an open
scope names. -/
def debugAccess (x : Sec) (k : DebugCore) : Bool :=
  !x.debugLock || (match k with
    | .bracken _ => bit x.scope 0
    | .power => bit x.scope 1
    | .thistle => false)

/-- ZEROIZE (R476): FINAL needs a token signed in the vendor slot that names the device. -/
def svcZeroize (j : SecJob) (s : State) : State :=
  let final := bit (argOf s.chip j 0) 0
  let code := if final then
    objectCode s.sec s.chip (fun t => t == 0x12 || t == 0x13) (bufBytes s.chip j.src) (bufLen s.chip j.src) else 0
  if code ≠ 0 then { s with chip := endCommand j code s.chip }
  else
    let x := { s.sec with keys := [], derived := false, drbg := true, seedKill := s.sec.seedKill || final }
    { s with sec := x, chip := s.chip |> noteInfo x |> endCommand j 0 }

/-- CORE_START (R437): a Bracken core other than core 0 starts at an address, when its domain is ON. -/
def svcCoreStart (j : SecJob) (_ : Sec) (c : Chip) : Chip :=
  let k := argOf c j 0
  if k < 1 ∨ 3 < k then endCommand j 4 c
  else if !domOn c (93 + k / 2) then endCommand j 7 c
  else endCommand j 0 { c with cores := setNum k (2 + (argOf c j 2 * 2 ^ 32 + argOf c j 1)) c.cores }

/-- RANDOM (R470): 32 DRBG bytes, each word a free value. -/
def svcRandom (j : SecJob) (x : Sec) (c : Chip) : Chip :=
  if x.drbg then
    forAll (fun i c => let (w, c) := takeFree c; putRes j i w.toNat c) (List.range 8) c |> endCommand j 0
  else endCommand j 7 c

/-- Whether a command's OP is unknown, or CORE_START in the host's mailbox (Table 17.9, CODE 1). -/
def unknownOp (j : SecJob) : Bool := j.op == 0 || decide (0x0B < j.op) || (j.op == 0x0A && j.src != 0)

/-! ### Verification (R368, R387) -/

/-- IMG_STATUS.STATE. -/
def imgState (c : Chip) : Nat := rfld c Reg.IMG_STATUS 31 29

/-- IMG_SRC. -/
def imgSrc (c : Chip) : Nat := rfld c Reg.IMG_SRC_HI 4 0 * 2 ^ 32 + rfld c Reg.IMG_SRC_LO 31 6 * 64

/-- IMG_LEN. -/
def imgLen (c : Chip) : Nat := rfld c Reg.IMG_LEN_HI 4 0 * 2 ^ 32 + (reg c Reg.IMG_LEN_LO).toNat

/-- IMG_PLAIN. -/
def imgPlain (c : Chip) : Nat := rfld c Reg.IMG_PLAIN_HI 4 0 * 2 ^ 32 + rfld c Reg.IMG_PLAIN_LO 31 6 * 64

/-- The staged image. -/
def staged (c : Chip) : List Byte := bytesAt c (imgSrc c) (imgLen c)

/-- Whether address `a` is locked: staging and plaintext ranges in STATE 1 and 2 (R368), and the buffers of commands that
wait for the Thistle core (chapter "Security"). -/
def lockedAt (c : Chip) (a : Nat) : Bool :=
  ((imgState c == 1 || imgState c == 2) &&
    ((decide (imgSrc c ≤ a) && decide (a < imgSrc c + imgLen c)) ||
      (decide (imgPlain c ≤ a) && decide (a < imgPlain c + imgLen c)))) ||
    c.secQ.any (fun j => decide (j.src < 2) && decide (bufAddr c j.src ≤ a) && decide (a < bufAddr c j.src + bufLen c j.src))

/-- VERIFY (R368, Table 13.14): the range is locked, the verification queues and the licences in force now are those it is
judged by (R371); in STATE 1 or 2 it is refused. -/
def verifyBegin (c : Chip) : Chip :=
  if imgState c = 1 ∨ imgState c = 2 then setBit Reg.IMG_STATUS 28 true c
  else putNum Reg.IMG_STATUS (2 ^ 29)
    { c with secQ := c.secQ ++ [{ src := 2, op := 0, seq := 0 }], askedGrants := latchGrants c }

/-- A verification that failed with `code`, section `i` and detail `d`. -/
def verifyFailed (code i d : Nat) (c : Chip) : Chip :=
  c |> putNum Reg.IMG_STATUS (3 * 2 ^ 29 + i % 4096 * 65536 + code) |> when_ (d != 0) (putNum Reg.IMG_DETAIL d)
    |> count Reg.IMG_REJECTED 1

/-- The plaintext of every encrypted section before section `n` written to IMG_PLAIN + OFFSET (R367). -/
def writePlain (x : Sec) (im : List Byte) (n : Nat) (c : Chip) : Chip :=
  forAll (fun i c =>
    let e := imgEntry im i
    if entEnc e then
      match plainOf x im i with
      | some p => c |> putBytes (imgPlain c + entOff e) p |> clearEcc (imgPlain c + entOff e) p.length
      | none => c
    else c) (List.range n) c

/-- The registers that name the last verified image (Table 13.17). -/
def noteImage (x : Sec) (im : List Byte) (c : Chip) : Chip :=
  let ss := sectionsOf x im
  c |> putNum Reg.IMG_ID (nAt im 0x1C 4)
    |> putNum Reg.IMG_HDR_INFO (nAt im 8 2 * 65536 + nAt im 0x0E 1 % 4 * 2048 + nAt im 7 1 % 2 * 1024 + nAt im 6 1 % 2 * 512)
    |> putNum Reg.IMG_FEATURES (fabricUsed ss % 2048 * 2 ^ 21 + (streamsUsed ss - 1) * 65536 + featuresUsed ss)
    |> putNum Reg.IMG_FP_REV (nAt im 0x10 4)

/-- VERIFY_DONE (R368): the verification at the front of the queue ends, and SEC_EVENT.IMG_DONE is set (R477). -/
def verifyDone (s : State) : State :=
  match s.chip.secQ with
  | j :: rest =>
    if j.src = 2 then
      let c := { s.chip with secQ := rest }
      let im := staged c
      if secState c = 2 then { s with chip := c |> verifyFailed 0x20 0 0 |> raise Reg.SEC_EVENT 0 }
      else
        let r := verifyCode s.sec c c.askedGrants im (imgLen c)
        if r.1 = 0 then
          { s with
            sec := { s.sec with imageHash := Config.sha256 (im.take (imgSigned im)) }
            chip := c |> writePlain s.sec im (imgCount im) |> noteImage s.sec im |> putNum Reg.IMG_STATUS (2 * 2 ^ 29)
              |> count Reg.IMG_VERIFIED 1 |> raise Reg.SEC_EVENT 0 }
        else
          { s with chip := c |> when_ (r.1 == 7) (writePlain s.sec im r.2.1) |> verifyFailed r.1 r.2.1 r.2.2
              |> raise Reg.SEC_EVENT 0 }
    else s
  | [] => s

/-- RELEASE: in STATE 2 the lock is released. -/
def imgRelease (c : Chip) : Chip := if imgState c = 2 then setFld Reg.IMG_STATUS 31 29 0 c else c

/-- ABORT (Table 13.14): verification stops with code 0x21, or the lock is released. -/
def imgAbort (c : Chip) : Chip :=
  match imgState c with
  | 1 => { c with secQ := c.secQ.filter (fun j => j.src != 2) } |> verifyFailed 0x21 0 0 |> raise Reg.SEC_EVENT 0
  | 2 => setFld Reg.IMG_STATUS 31 29 0 c
  | _ => c

/-! ### Licences (R390, R468) -/

/-- LIC_STATUS.STATE. -/
def licState (c : Chip) : Nat := rfld c Reg.LIC_STATUS 31 29

/-- LIC_GO (R390): ignored while a record is being verified. -/
def licBegin (c : Chip) : Chip :=
  if licState c = 1 then c
  else putNum Reg.LIC_STATUS (2 ^ 29) { c with secQ := c.secQ ++ [{ src := 3, op := 0, seq := 0 }] }

/-- The licence record that LIC_ADDR names. -/
def licRecord (c : Chip) : List Byte :=
  bytesAt c (rfld c Reg.LIC_ADDR_HI 4 0 * 2 ^ 32 + rfld c Reg.LIC_ADDR_LO 31 6 * 64) (rfld c Reg.LIC_LEN 15 0)

/-- LIC_DONE (R5, R6, R468, R475). -/
def licDone (s : State) : State :=
  match s.chip.secQ with
  | j :: rest =>
    if j.src = 3 then
      let c := { s.chip with secQ := rest }
      let o := licRecord c
      let r := if secState c = 2 then 5 else licenceReason s.sec c o (rfld c Reg.LIC_LEN 15 0)
      if r = 0 then
        let x := { s.sec with grants := mergeGrants (licenceEntries o) s.sec.grants }
        { s with
          sec := x
          chip := c |> putNum Reg.LIC_STATUS (2 * 2 ^ 29) |> putNum Reg.LIC_COUNT (min 255 (rfld c Reg.LIC_COUNT 7 0 + 1))
            |> showGrants x.grants |> raise Reg.SEC_EVENT 1 }
      else { s with chip := c |> putNum Reg.LIC_STATUS (3 * 2 ^ 29 + r) |> count Reg.LIC_REJECTED 1 |> raise Reg.SEC_EVENT 1 }
    else s
  | [] => s

/-! ### Restarts of the Thistle core (R464, R467, R475, R477) -/

/-- A firmware package that waits in the inactive slot takes effect; COMMIT_SVN raises SVN_MIN (R467). -/
def takeFirmware (typ : Nat) (x : Sec) : Sec :=
  if mapGet (fun _ => false) x.fresh typ then
    let slot := 1 - numOf x.active typ
    let o := listOf x.fw (2 * typ + slot)
    { x with
      active := setNum typ slot x.active, fresh := mapPut (fun _ => false) x.fresh typ false
      svnMin := if bit (nAt o 5 1) 1 then setNum typ (max (numOf x.svnMin typ) (nAt o 0x0C 2)) x.svnMin else x.svnMin }
  else x

/-- The Thistle core restarts: queued commands end unexecuted, SEC_ registers and key slots are cleared, a verification in
progress ends with code 0x21 (R469, R477). -/
def thistleRestart (s : State) : State :=
  let x := { s.sec with keys := [], derived := false, drbg := false }
  let c := s.chip |> when_ (imgState s.chip == 1) (verifyFailed 0x21 0 0) |> when_ (licState s.chip == 1) (putNum Reg.LIC_STATUS 0)
    |> resetBlock 0x200000E00000 0x100000
  { s with sec := x, chip := noteInfo x { c with secQ := [] } }

/-- The Thistle core is up: its self-tests have passed and its keys are derived (R464, R473). -/
def thistleUp (s : State) : State :=
  let x := { s.sec with derived := !s.sec.seedKill, drbg := true }
  { s with sec := x, chip := putNum Reg.SEC_INFO (infoWord x 1 0) s.chip }

/-! ### Meanings -/

/-- SEC_GO. -/
def execSecGo (m : Fin 2) (value : Word) (s : State) : Host.Outcome State Fault Refusal := done s (secGo m.val value s.chip)

/-- STATUS. -/
def execSecStatus (s : State) : Host.Outcome State Fault Refusal :=
  .next (runService (fun j => j.op == 1) (plainService svcStatus) s)

/-- SELFTEST. -/
def execSecSelftest (failed : Word) (s : State) : Host.Outcome State Fault Refusal :=
  .next (runService (fun j => j.op == 2) (svcSelftest failed) s)

/-- ATTEST. -/
def execSecAttest (s : State) : Host.Outcome State Fault Refusal :=
  .next (runService (fun j => j.op == 3) (plainService svcAttest) s)

/-- FW_UPDATE. -/
def execSecFwUpdate (s : State) : Host.Outcome State Fault Refusal := .next (runService (fun j => j.op == 4) svcFwUpdate s)

/-- KEY_LOAD. -/
def execSecKeyLoad (s : State) : Host.Outcome State Fault Refusal := .next (runService (fun j => j.op == 5) svcKeyLoad s)

/-- KEY_CLEAR. -/
def execSecKeyClear (s : State) : Host.Outcome State Fault Refusal := .next (runService (fun j => j.op == 6) svcKeyClear s)

/-- REVOKE. -/
def execSecRevoke (s : State) : Host.Outcome State Fault Refusal := .next (runService (fun j => j.op == 7) svcRevoke s)

/-- DEBUG_UNLOCK. -/
def execSecDebugUnlock (s : State) : Host.Outcome State Fault Refusal :=
  .next (runService (fun j => j.op == 8) svcDebugUnlock s)

/-- ZEROIZE. -/
def execSecZeroize (s : State) : Host.Outcome State Fault Refusal := .next (runService (fun j => j.op == 9) svcZeroize s)

/-- CORE_START. -/
def execSecCoreStart (s : State) : Host.Outcome State Fault Refusal :=
  .next (runService (fun j => j.op == 0x0A && j.src == 0) (plainService svcCoreStart) s)

/-- RANDOM. -/
def execSecRandom (s : State) : Host.Outcome State Fault Refusal :=
  .next (runService (fun j => j.op == 0x0B) (plainService svcRandom) s)

/-- SEC_UNKNOWN_OP. -/
def execSecUnknownOp (s : State) : Host.Outcome State Fault Refusal :=
  .next (runService unknownOp (plainService (fun j _ c => endCommand j 1 c)) s)

/-- VERIFY. -/
def execVerify (s : State) : Host.Outcome State Fault Refusal := done s (verifyBegin s.chip)

/-- VERIFY_DONE. -/
def execVerifyDone (s : State) : Host.Outcome State Fault Refusal := .next (verifyDone s)

/-- RELEASE. -/
def execRelease (s : State) : Host.Outcome State Fault Refusal := done s (imgRelease s.chip)

/-- ABORT. -/
def execAbort (s : State) : Host.Outcome State Fault Refusal := done s (imgAbort s.chip)

/-- LIC_GO. -/
def execLicGo (s : State) : Host.Outcome State Fault Refusal := done s (licBegin s.chip)

/-- LIC_DONE. -/
def execLicDone (s : State) : Host.Outcome State Fault Refusal := .next (licDone s)

end Sys2Proof.Machine
end

