-- ==== Sys2Proof/Machine/LoadImage.lean ====
section
/-!
DEFINITION. An image as Bracken reads it, and the writes of its sections (R369, R372 to R375, R384).
-/

namespace Sys2Proof.Machine

/-- The staged image: encrypted sections are read from IMG_PLAIN, all others from staging (R367). -/
def stagedImage (c : Chip) : Image :=
  let im := staged c
  { hdr := im.take 128
    ss := (List.range (imgCount im)).map (fun i =>
      let e := imgEntry im i
      { typ := entType e, reloc := entReloc e, fields := entFields e
        data := if entEnc e then bytesAt c (imgPlain c + entOff e) (entPlain e) else imgStored im i }) }

namespace Image

/-- CLASS: true for Class G. -/
def classG (I : Image) : Bool := nAt I.hdr 6 1 == 1
/-- KIND: true for a partial image. -/
def isPart (I : Image) : Bool := nAt I.hdr 7 1 == 1
/-- TARGET 0x4100: compatibility mode (R388). -/
def compat (I : Image) : Bool := nAt I.hdr 8 2 == 0x4100
/-- FP_REV. -/
def fpRev (I : Image) : Nat := nAt I.hdr 0x10 4
/-- MIN_TICK. -/
def minTick (I : Image) : Nat := nAt I.hdr 0x14 4
/-- FLOOR_W. -/
def floorW (I : Image) : Nat := nAt I.hdr 0x18 2
/-- FLOOR_E. -/
def floorE (I : Image) : Nat := nAt I.hdr 0x1A 2
/-- FIELDS of the header. -/
def fields (I : Image) : Nat := nAt I.hdr 0x20 8
/-- REPLACES. -/
def replaces (I : Image) : Nat := nAt I.hdr 0x28 2

end Image

/-- The point code of a clock floor in MHz (Table 15.7). -/
def floorCode (mhz : Nat) : Nat := if mhz = 2600 then 0 else if mhz = 2200 then 1 else if mhz = 1800 then 2 else 3

/-- A byte list cut into whole pieces of `n` bytes. -/
def pieces (n : Nat) (bs : List Byte) : List (List Byte) := (List.range (bs.length / n)).map (fun i => cut bs (n * i) n)

/-- The sections of a type that are applied at load, with their directory index. -/
def sectionsOfType (I : Image) (typ : Nat) : List (Nat × Section) :=
  (I.ss.zipIdx.filter (fun x => x.1.typ == typ && !x.1.reloc)).map (fun x => (x.2, x.1))

/-- The directory index of the first section of a type, 0 where there is none. -/
def sectionIndex (I : Image) (typ : Nat) : Nat := ((sectionsOfType I typ).head?.map (fun x => x.1)).getD 0

/-! ### Jobs and fields (Tables 13.4, 13.5) -/

/-- JOB of a job entry. -/
def jeJob (e : List Byte) : Nat := bits (nAt e 0 2) 3 0
/-- TB of a job entry. -/
def jeTb (e : List Byte) : Nat := bits (nAt e 0 2) 7 4
/-- MULTI of a job entry. -/
def jeMulti (e : List Byte) : Bool := bit (nAt e 0 2) 9
/-- LEARN of a job entry. -/
def jeLearn (e : List Byte) : Bool := bit (nAt e 0 2) 10
/-- STREAMS of a job entry. -/
def jeStreams (e : List Byte) : Nat := nAt e 2 2
/-- FIELDS of a job entry. -/
def jeFields (e : List Byte) : Nat := nAt e 4 8
/-- TB_CTRL of a job entry. -/
def jeCtrl (e : List Byte) : Nat := nAt e 0xC 4
/-- Word `i` of TIMING. -/
def jeTiming (e : List Byte) (i : Nat) : Nat := nAt e (0x10 + 4 * i) 4
/-- ALIGN of a job entry. -/
def jeAlign (e : List Byte) : Nat := nAt e 0x28 4
/-- CHK of a job entry. -/
def jeChk (e : List Byte) : Nat := nAt e 0x2C 4
/-- START of a job entry. -/
def jeStart (e : List Byte) : Nat := nAt e 0x30 6
/-- RECT of a job entry. -/
def jeRect (e : List Byte) : Nat := nAt e 0x38 4
/-- ROOT of a job entry. -/
def jeRoot (e : List Byte) : Nat := bits (nAt e 0x3C 4) 9 0

/-- The streams that the image's jobs use. -/
def imageStreams (I : Image) : Nat := (jobEntries I.ss).foldl (fun m e => m.lor (jeStreams e)) 0

/-- A field entry: FIELD, JOB, ROLE and TILES. -/
structure Place where
  field : Nat
  job : Nat
  role : Nat
  tiles : Nat
  deriving DecidableEq, Repr

/-- The entries of the FIELDS section. -/
def places (I : Image) : List Place :=
  (pieces 32 (sectionData I.ss 2)).map (fun e =>
    { field := nAt e 0 1, job := nAt e 1 1, role := nAt e 2 1, tiles := nAt e 8 16 })

/-- The tiles whose TILES bit is set in an entry. -/
def placeTiles (p : Place) : List Nat := ((fieldTiles p.field).zipIdx.filter (fun x => bit p.tiles x.2)).map (fun x => x.1)

/-- The tiles of the fields in mask `m` that run a schedule. -/
def placedIn (I : Image) (m : Nat) : List Nat :=
  ((places I).filter (fun p => p.role == 1 && bit m p.field)).flatMap placeTiles

/-- Every tile that runs a schedule. -/
def placedTiles (I : Image) : List Nat := placedIn I (2 ^ 64 - 1)

/-! ### Chunks, records and runs (Tables 13.6, 13.7) -/

/-- A chunk: its two header words and its bytes. -/
structure Chunk where
  w0 : Nat
  w1 : Nat
  data : List Byte
  deriving DecidableEq, Repr

/-- The chunks of a section; none when they do not end with its last byte, or when a header's reserved word is not zero
(R363, R373). -/
def chunksOf : Nat → List Byte → Option (List Chunk)
  | _, [] => some []
  | 0, _ => none
  | n + 1, bs =>
    let len := nAt bs 8 4
    if bs.length < 16 + len ∨ nAt bs 12 4 ≠ 0 then none
    else (chunksOf n (bs.drop (16 + len))).map (fun cs => { w0 := nAt bs 0 4, w1 := nAt bs 4 4, data := cut bs 16 len } :: cs)

/-- The chunks of a section's content. -/
def chunkList (bs : List Byte) : Option (List Chunk) := chunksOf (bs.length / 16) bs

/-- A run: WHERE and its entries. -/
structure TableRun where
  place : Nat
  words : List DWord
  deriving DecidableEq, Repr

/-- The runs of a section; none when they do not end with its last byte. -/
def runsOf : Nat → List Byte → Option (List TableRun)
  | _, [] => some []
  | 0, _ => none
  | n + 1, bs =>
    let k := nAt bs 4 4
    if k = 0 ∨ bs.length < 8 + 8 * k then none
    else (runsOf n (bs.drop (8 + 8 * k))).map (fun rs =>
      { place := nAt bs 0 4, words := (pieces 8 (cut bs 8 (8 * k))).map (fun w => BitVec.ofNat 64 (ofBytes w)) } :: rs)

/-- The runs of a section's content. -/
def runList (bs : List Byte) : Option (List TableRun) := runsOf (bs.length / 16) bs

/-- The tiles that a chunk's or record's first word names, in a section that targets the fields of mask `m` (R373). -/
def targetTiles (I : Image) (m w : Nat) : List Nat := if bit w 15 then placedIn I m else [bits w 12 0]

/-- The tiles that such a word writes: those it names in the fields of mask `m`. -/
def writtenTiles (I : Image) (m w : Nat) : List Nat := (targetTiles I m w).filter (fun t => bit m (fieldOf t))

/-- The region that a chunk type fills: 4, 2, 3 or the state ring (Table 13.3). -/
def chunkRegion (typ : Nat) : Nat := match typ with | 0x11 => 4 | 0x12 => 2 | 0x13 => 3 | _ => 0

/-- Device address of a chunk target's first byte on tile `t`. -/
def chunkBase (c : Chip) (typ t : Nat) : Nat :=
  if typ = 0x14 then unitAddr t 0
  else if typ = 0x15 then nrnAddr c t (ringHead c t) 0
  else regionBase c t (chunkRegion typ)

/-- Bytes of a chunk target on tile `t`. -/
def chunkRoom (c : Chip) (typ t : Nat) : Nat :=
  if typ = 0x14 then storeBytes c t else if typ = 0x15 then 16 * neuronsOf c t else regionSize c t (chunkRegion typ)

/-! ### Writes (R384) -/

/-- Bytes written to memory, with valid ECC. -/
def loadBytes (a : Nat) (bs : List Byte) (c : Chip) : Chip := c |> putBytes a bs |> clearEcc a bs.length

/-- Lines of 64 bytes that Bracken writes to LPDDR5X. A line that meets a locked range is discarded and counted (R368); that
Bracken writes by lines is a DESIGN CHOICE (log entry 184). -/
def brackenWrite (a : Nat) (bs : List Byte) (c : Chip) : Chip :=
  forAll (fun x c =>
    let at_ := a + 64 * x.2
    if (List.range x.1.length).any (fun i => lockedAt c (at_ + i)) then count Reg.IMG_LOCK_VIOL 1 c
    else loadBytes at_ x.1 c) (((List.range ((bs.length + 63) / 64)).map (fun i => cut bs (64 * i) 64)).zipIdx) c

/-- One TREG record written. -/
def writeTreg (I : Image) (m : Nat) (e : List Byte) (c : Chip) : Chip :=
  forAll (fun t c => writeTile t (win t + 0x80000 + nAt e 2 2) (BitVec.ofNat 32 (nAt e 4 4)) c) (writtenTiles I m (nAt e 0 2)) c

/-- One chunk of a tile written. -/
def writeChunk (I : Image) (m typ : Nat) (k : Chunk) (c : Chip) : Chip :=
  forAll (fun t c => loadBytes (chunkBase c typ t + k.w1) k.data c) (writtenTiles I m k.w0) c

/-- Every TREG record and every chunk but those of LPDDR5X; region bounds and pointers come first (R384). -/
def writeTiles (I : Image) (c : Chip) : Chip :=
  c |> forAll (fun x c => forAll (writeTreg I x.2.fields) (pieces 8 x.2.data) c) (sectionsOfType I 0x10)
    |> forAll (fun typ c =>
        forAll (fun x c => forAll (writeChunk I x.2.fields typ) ((chunkList x.2.data).getD []) c) (sectionsOfType I typ) c)
      [0x11, 0x12, 0x14, 0x15, 0x13]

/-- The MEMDATA chunks: a write of Bracken to a locked range is discarded (R368). -/
def writeMemData (I : Image) (c : Chip) : Chip :=
  forAll (fun x c => forAll (fun k c => brackenWrite (k.w0 + 2 ^ 32 * k.w1) k.data c) ((chunkList x.2.data).getD []) c)
    (sectionsOfType I 0x16) c

/-- The slots an image's record writes: those it names in a full image, the one not in use in a partial one (R375). -/
def slotsFor (c : Chip) (I : Image) (named : Nat) : List Nat :=
  if I.isPart && !I.compat then [1 - rfld c Reg.SEAM_MGMT_EPOCH 0 0] else setBits 2 named

/-- One ROUTES record written into the slots that `slots` gives for those it names. -/
def writeRoutes (slots : Nat → List Nat) (I : Image) (m : Nat) (e : List Byte) (c : Chip) : Chip :=
  forAll (fun t c =>
    c |> forAll (fun s c => c
          |> forAll (fun w c => routeTableWrite t (Reg.RTR_XT t s w - win t - 0x84000) (BitVec.ofNat 32 (nAt e (4 + 4 * w) 4)) c) (List.range 16)
          |> forAll (fun w c => routeTableWrite t (Reg.RTR_YT t s w - win t - 0x84000) (BitVec.ofNat 32 (nAt e (0x44 + 4 * w) 4)) c) (List.range 8)
          |> setBit (Reg.RTR_EPOCH t) s true) (slots (nAt e 2 1 % 4))
      |> when_ (bit (nAt e 2 1) 2) (setReg (Reg.RTR_TREE t) (BitVec.ofNat 32 (nAt e 0x64 4))))
    (writtenTiles I m (nAt e 0 2)) c

/-- One GWKEY run written into both copies of the key table. -/
def writeKeyRun (slots : Nat → List Nat) (r : TableRun) (c : Chip) : Chip :=
  forAll (fun s c => forAll (fun x c =>
      let k := 262144 * s + (bits r.place 17 0 + x.2)
      { c with gw := { c.gw with
          keyTable := mapPut (fun _ => 0#64) c.gw.keyTable k x.1
          ktMark := setNum k 0 (setNum (524288 + k) 0 c.gw.ktMark) } }) r.words.zipIdx c)
    (slots (bits r.place 31 30)) c

/-- One GWOUT run written. -/
def writeOutRun (slots : Nat → List Nat) (r : TableRun) (c : Chip) : Chip :=
  forAll (fun s c => forAll (fun x c =>
      let k := (2 * bits r.place 18 17 + s) * 32768 + (bits r.place 14 0 + x.2)
      { c with gw := { c.gw with outTable := mapPut (fun _ => 0#64) c.gw.outTable k x.1 } }) r.words.zipIdx c)
    (slots (bits r.place 31 30)) c

/-- The router records and the gateway tables' runs. -/
def writeTables (slots : Nat → List Nat) (I : Image) (c : Chip) : Chip :=
  c |> forAll (fun x c => forAll (writeRoutes slots I x.2.fields) (pieces 104 x.2.data) c) (sectionsOfType I 0x18)
    |> forAll (fun x c => forAll (writeKeyRun slots) ((runList x.2.data).getD []) c) (sectionsOfType I 0x19)
    |> forAll (fun x c => forAll (writeOutRun slots) ((runList x.2.data).getD []) c) (sectionsOfType I 0x1A)

/-- The slots not in use written: ROUTES, GWKEY and GWOUT (R375). A full image's tables hold what it writes and nothing
else. -/
def writeSlots (I : Image) (c : Chip) : Chip :=
  c |> when_ (!I.isPart) (fun c => { c with gw := { c.gw with keyTable := [], outTable := [], ktMark := [] } })
    |> fun c => writeTables (slotsFor c I) I c

/-- Control-space address of a CREG record. -/
def cregAddr (e : List Byte) : Nat := 0x200000000000 + nAt e 0 4

/-- An encoder's route entry of a record, in the sets that `slots` gives for the one it names (R375, R384). No set of an
encoder that does not run is in force (DEDUCED, log entry 185): R207's refusal is for one that runs. -/
def writeEncRoute (slots : Nat → List Nat) (p i : Nat) (v : Word) (c : Chip) : Chip :=
  forAll (fun s c =>
    if encState c p = 0 then setReg (Reg.ENC_ROUTE p s (i / 16 % 32) (i / 4 % 4)) (v &&& encRouteMask (i / 4 % 4)) c
    else encRouteWrite p s (i / 16 % 32) (i / 4 % 4) v c) (slots (2 ^ (i / 512))) c

/-- One CREG record written (Table 13.13). -/
def writeCreg (slots : Nat → List Nat) (e : List Byte) (c : Chip) : Chip :=
  let a := cregAddr e
  let v : Word := BitVec.ofNat 32 (nAt e 4 4)
  let p := (a - 0x200000A00000) / 0x10000
  if 0x200000A00000 ≤ a ∧ a < 0x200000B00000 then
    if Reg.ENC_ROUTE p 0 0 0 ≤ a ∧ a < Reg.ENC_ROUTE p 2 0 0 then writeEncRoute slots p (a - Reg.ENC_ROUTE p 0 0 0) v c
    else writePort p a v c
  else if 0x200000D00000 ≤ a ∧ a < 0x200000E00000 then writeSeam a v c
  else plainWrite a v c

/-- Every CREG record. -/
def writeCregs (slots : Nat → List Nat) (I : Image) (c : Chip) : Chip :=
  forAll (fun x c => forAll (writeCreg slots) (pieces 8 x.2.data) c) (sectionsOfType I 0x1B) c

/-! ### Relocation copies (R379) -/

/-- The regions of KIND 4, the relocation area (Table 19.3): base and bytes. -/
def relocAreas (c : Chip) : List (Nat × Nat) :=
  ((memRegions c).filter (fun r => regionValid r.2.2 && fld r.2.2 10 8 == 4)).map (fun r => (65536 * r.1, 65536 * r.2.1))

/-- Bytes of the relocation area. -/
def relocRoom (c : Chip) : Nat := ((relocAreas c).map (fun r => r.2)).foldl (· + ·) 0

/-- Address of byte `o` of the area: its regions one behind the other, in the order of their numbers. -/
def areaAddr : List (Nat × Nat) → Nat → Option Nat
  | [], _ => none
  | r :: rs, o => if o < r.2 then some (r.1 + o) else areaAddr rs (o - r.2)

/-- Bytes that one copy takes in the area: whole lines. -/
def copySpace (x : Section) : Nat := if x.reloc then (x.data.length + 63) / 64 * 64 else 0

/-- Bytes that an image's copies take. -/
def copiesSize (I : Image) : Nat := (I.ss.map copySpace).foldl (· + ·) 0

/-- Where the copy of section `i` begins in the area, when the image's copies begin at `base`: they stand in directory order
(DESIGN CHOICE, log entry 106). -/
def copyAt (I : Image) (base i : Nat) : Nat := base + ((I.ss.take i).map copySpace).foldl (· + ·) 0

/-- The image's copies written to the relocation area. -/
def copyRelocs (I : Image) (base : Nat) (c : Chip) : Chip :=
  forAll (fun x c =>
    if x.1.reloc then
      forAll (fun i c => match areaAddr (relocAreas c) (copyAt I base x.2 + 64 * i) with
        | some a => brackenWrite a (cut x.1.data (64 * i) 64) c
        | none => c) (List.range ((x.1.data.length + 63) / 64)) c
    else c) I.ss.zipIdx c

/-- The copy of section `i` as it reads in the relocation area. -/
def readCopy (c : Chip) (I : Image) (base i : Nat) (x : Section) : List Byte :=
  (List.range ((x.data.length + 63) / 64)).flatMap (fun k =>
    let n := min 64 (x.data.length - 64 * k)
    match areaAddr (relocAreas c) (copyAt I base i + 64 * k) with
    | some a => bytesAt c a n
    | none => List.replicate n 0#8)

/-- The first byte of the area behind the copies of the jobs in `keep`. -/
def copiesEnd (c : Chip) (keep : Nat) : Nat :=
  (setBits 16 keep).foldl (fun m j => max m ((jobAt c j).copyBase + copiesSize (jobAt c j).image)) 0

end Sys2Proof.Machine
end

