-- ==== Sys2Proof/Machine/RouteCheck.lean ====
section
/-!
DEFINITION. The routes of an image and of the jobs that keep running, followed through the route tables, as the load checks
look at them (R260, R381, R383).
-/

namespace Sys2Proof.Machine

/-! ### Jobs and slots -/

/-- The jobs that run, as a mask. -/
def runningJobs (c : Chip) : Nat :=
  (List.range 16).foldl (fun m k => if rflag c (Reg.TICK_TB_CTRL k) 31 || rflag c (Reg.TICK_TB_CTRL k) 30 then m.lor (2 ^ jobOfTb c k) else m) 0

/-- The jobs that keep running beside the image. -/
def keptJobs (c : Chip) (I : Image) : Nat :=
  let r := runningJobs c
  if I.isPart then r - r.land I.replaces else r

/-- The slots that a full image's records name. -/
def namedSlots (I : Image) : List Nat :=
  let named := ((sectionsOfType I 0x18).flatMap (fun x => (pieces 104 x.2.data).map (fun e => nAt e 2 1 % 4))) ++
    ((sectionsOfType I 0x19 ++ sectionsOfType I 0x1A).flatMap (fun x => ((runList x.2.data).getD []).map (fun r => bits r.place 31 30)))
  [0, 1].filter (fun s => named.any (fun n => bit n s))

/-- The route sets that the image's encoder route entries name. -/
def encoderSets (I : Image) : List Nat :=
  let named := (sectionsOfType I 0x1B).flatMap (fun x => (pieces 8 x.2.data).filterMap (fun e =>
    let o := cregAddr e
    if 0x200000A00000 ≤ o ∧ o < 0x200000B00000 ∧ 0x1000 ≤ o % 0x10000 ∧ o % 0x10000 < 0x1400 then
      some (o % 0x10000 / 0x200 % 2) else none))
  [0, 1].filter named.contains

/-- The slot that the image's routes occupy: the one not in use for a partial image; for a full image the one that its encoder
route entries name alone, else slot 1 when its tables name it alone, else 0 (R375, R207; log entry 111). -/
def imageSlot (c : Chip) (I : Image) : Nat :=
  if I.compat then 0
  else if I.isPart then 1 - rfld c Reg.SEAM_MGMT_EPOCH 0 0
  else if encoderSets I == [1] || (encoderSets I != [0] && namedSlots I == [1]) then 1 else 0

/-- The job that holds field `f` once the image is applied. -/
def jobOfField (c : Chip) (I : Image) (f : Nat) : Option Nat :=
  match (places I).find? (fun p => p.field == f) with
  | some p => if p.role = 1 then some p.job else none
  | none => match numOf c.fieldJob f with
    | 0 => none
    | j + 1 => if bit (keptJobs c I) j then some j else none

/-! ### Routes (R260) -/

/-- A route: the tile and input port its packets enter the mesh by, their virtual channel, a head flit, for a route of events
of a population or an encoder their job, and whether it is one of a gateway's key table. -/
structure Route where
  tile : Nat
  port : Nat
  vc : Nat
  flit : DWord
  job : Option Nat
  fabric : Bool
  deriving DecidableEq, Repr

/-- Tile `t` as the source of a route. -/
def fromTile (t vc : Nat) (job : Option Nat) (f : DWord) : Route :=
  { tile := t, port := 4, vc := vc, flit := f, job := job, fabric := false }

/-- Tap `k` as the source of a route. -/
def fromTap (k vc : Nat) (f : DWord) : Route :=
  { tile := tapTile k, port := 5, vc := vc, flit := f, job := none, fabric := false }

/-- The routes of tile `t`'s populations in slot `s`: one for each event of each neuron (R134). -/
def popRoutes (d : Chip) (s t j : Nat) : List Route :=
  (List.range 16).flatMap (fun n =>
    let p := popAt d t n
    (List.range p.count).flatMap (fun i => ([p.route0, p.route1].take p.routes).map (fun r =>
      fromTile t 0 (some j) (routedFlit s r (bits r 35 20 + i) p.emitKind 0))))

/-- The routes of stream port `p`'s route set `s`, for job `j` (R205). -/
def encRoutes (d : Chip) (s j p : Nat) : List Route :=
  ((List.range 32).filter (fun n => rflag d (Reg.ENC_ROUTE p s n 0) 31)).map (fun n =>
    let r := (reg d (Reg.ENC_ROUTE p s n 2)).toNat * 2 ^ 32 + (reg d (Reg.ENC_ROUTE p s n 1)).toNat
    { fromTap ((portTaps p).getD (injectTap d p (rfld d (Reg.ENC_ROUTE p s n 0) 30 30)) 0) 0 (routedFlit s r (bits r 35 20) 0 0) with
      job := some j })

/-- Tap TAP of a key table entry in direction `dir` (Table 11.10). -/
def keyTap (dir tap : Nat) : Option Nat :=
  if tap < 5 then some ((engineTaps (2 * dir)).getD tap 0)
  else if tap < 10 then some ((engineTaps (2 * dir + 1)).getD (tap - 5) 0)
  else none

/-- The directions a torus uses (R310). -/
def usedDirs (topo : Nat) : List Nat :=
  (if bits topo 14 10 = 0 then [] else [0, 1]) ++ (if bits topo 19 15 = 0 then [] else [2, 3])

/-- The routes of the gateways' key tables in slot `s` (R324). -/
def keyRoutes (d : Chip) (s topo : Nat) : List Route :=
  (d.gw.keyTable.filter (fun x => x.1 / 262144 == s && bit x.2.toNat 63)).flatMap (fun x =>
    let w := x.2.toNat
    (usedDirs topo).filterMap (fun dir => (keyTap dir (bits w 24 21)).map (fun k =>
      { fromTap k 1 (mkEvent 0 s 0 0 (bits w 62 61) (bits w 60 54) (bits w 53 48) (bits w 47 41) (bits w 40 25) 0) with
        fabric := true })))

/-- The send channels of tile `t`: number and CHN_TX word. -/
def sendChannels (d : Chip) (t : Nat) : List (Nat × Word) :=
  ((List.range 64).map (fun n => (n, reg d (Reg.CHN_TX t n)))).filter (fun x => flag x.2 31)

/-- The channel routes of tile `t` (R286). -/
def chnRoutes (d : Chip) (s t : Nat) : List Route :=
  (sendChannels d t).map (fun x =>
    fromTile t 2 none (mkHead 2 s 0 (fld x.2 30 30) (fld x.2 22 16) (fld x.2 13 8) 0 t 0))

/-- The requests and replies between tap `k` and tile `t` (R249, Table 9.4). -/
def mgmtPair (s k t : Nat) (toTile : Bool) : List Route :=
  let u := tapTile k
  if toTile then
    [fromTap k 3 (mkHead 4 s 0 0 (tileX t) (tileY t) 1 u 0), fromTile t 4 none (mkHead 5 s 0 1 (tileX u) (tileY u) 0 t 0)]
  else
    [fromTile t 3 none (mkHead 4 s 0 1 (tileX u) (tileY u) 1 t 0), fromTap k 4 (mkHead 5 s 0 0 (tileX t) (tileY t) 0 u 0)]

/-- The paths between a tile and the taps of the memory controllers it reaches (R505). -/
def memRoutes (d : Chip) (s t : Nat) : List Route :=
  (List.range 4).flatMap (fun m =>
    if memPresent d m then (match memTap d t m with | some k => mgmtPair s k t false | none => []) else [])

/-- The management paths: between the control taps and every good tile, and between the running tiles and the taps of the
memory controllers they reach (R505). -/
def mgmtRoutes (d : Chip) (s : Nat) (ts : List Nat) : List Route :=
  ((controlTaps.filter (tapGood d)).flatMap (fun k => ((List.range 8192).filter (tileGood d)).flatMap (fun t => mgmtPair s k t true))) ++
    ts.flatMap (memRoutes d s)

/-- The running tiles of job `j`, which keeps running. -/
def keptTiles (c : Chip) (j : Nat) : List Nat := (jobTiles c j).filter (seqEn c)

/-- The routes of tiles of job `j`. -/
def tileRoutes (d : Chip) (s j : Nat) (ts : List Nat) : List Route := ts.flatMap (fun t => popRoutes d s t j ++ chnRoutes d s t)

/-- The routes of the jobs that keep running. -/
def keptRoutes (c d : Chip) (I : Image) : List Route :=
  let s := imageSlot c I
  (setBits 16 (keptJobs c I)).flatMap (fun j => tileRoutes d s j (keptTiles c j)) ++
    (setBits 16 (keptJobs c I)).flatMap (fun j => (setBits 16 (jobAt c j).streams.toNat).flatMap (encRoutes d s j))

/-- The routes of the image's own jobs, gateways and management. -/
def imageRoutes (c d : Chip) (I : Image) (topo : Nat) : List Route :=
  let s := imageSlot c I
  let kept := (setBits 16 (keptJobs c I)).flatMap (keptTiles c)
  (jobEntries I.ss).flatMap (fun e => tileRoutes d s (jeJob e) (placedIn I (jeFields e)) ++
      (setBits 16 (jeStreams e)).flatMap (encRoutes d s (jeJob e))) ++
    keyRoutes d s topo ++ mgmtRoutes d s (placedTiles I ++ kept)

/-! ### Paths -/

/-- The output ports that a flit takes from input `p` of router `t` on, 4 standing for a copy at Local and 6 for a router that
has no route for it (R255 to R262). -/
def walk (d : Chip) (f : DWord) : Nat → Nat → Nat → List (Nat × Nat)
  | 0, _, _ => []
  | n + 1, t, p =>
    let on (q : Nat) : List (Nat × Nat) := (t, q) :: (if q < 4 then walk d f n (neighbour t q).1 (neighbour t q).2 else [])
    match hopOf d t p f none with
    | some (.out q) => on q
    | some (.span (some q)) => (t, 4) :: on q
    | some (.span none) => [(t, 4)]
    | some .noRoute => [(t, 6)]
    | none => []

/-- The path of a route; a path of more than 8,192 hops turns in a circle. -/
def pathFor (d : Chip) (r : Route) : List (Nat × Nat) := walk d r.flit 8192 r.tile r.port

/-- Whether the floor plan lists the link, the seam row or the tap behind output `q` of router `t` as good. -/
def linkGood (d : Chip) (t q : Nat) : Bool :=
  let row (y : Nat) : Bool := if y < 32 then rflag d Reg.SEAM_ROW_GOOD_LO y else rflag d Reg.SEAM_ROW_GOOD_HI (y - 32)
  if (q = 2 ∧ tileX t = 63) ∨ (q = 3 ∧ tileX t = 64) then row (tileY t) else portPresent d t q

/-- Whether a route passes good routers, links, seam rows and taps only, and ends where it is delivered (R260). -/
def pathGood (d : Chip) (r : Route) : Bool :=
  (r.port != 5 || tapGood d (tapOf r.tile)) && (pathFor d r).all (fun h => !routerBad d h.1 && linkGood d h.1 h.2)

/-- Whether job `j` spans devices once the image is applied. -/
def spansDevices (c : Chip) (I : Image) (j : Nat) : Bool :=
  match (jobEntries I.ss).find? (fun e => jeJob e == j) with
  | some e => jeMulti e
  | none => (jobAt c j).multi

/-- The jobs of the fields where a route's events arrive. -/
def reachedJobs (c d : Chip) (I : Image) (r : Route) : List Nat :=
  ((pathFor d r).filter (fun h => h.2 == 4)).filterMap (fun h => jobOfField c I (fieldOf h.1))

/-- Whether no event of a population or an encoder reaches a field of another job, but at a gateway tap, and no entry of a key
table reaches two jobs, or one that does not span devices (R260). -/
def jobsApart (c d : Chip) (I : Image) (r : Route) : Bool :=
  match r.job with
  | some j => (reachedJobs c d I r).all (· == j)
  | none => !r.fabric || (((reachedJobs c d I r).eraseDups).length ≤ 1 && (reachedJobs c d I r).all (spansDevices c I))

/-- The dependencies between channels along a path: a flit holds one while it waits for the next. A copy at Local waits for
nothing (R262). -/
def pathEdges (ps : List (Nat × Nat)) : List ((Nat × Nat) × (Nat × Nat)) := let qs := ps.filter (fun h => h.2 != 4); qs.zip qs.tail

/-- The edges that begin where some edge ends. -/
def peelEdges (es : List ((Nat × Nat) × (Nat × Nat))) : List ((Nat × Nat) × (Nat × Nat)) := es.filter (fun e => es.any (fun x => x.2 == e.1))

/-- Edges peeled `n` times. -/
def peelRun : Nat → List ((Nat × Nat) × (Nat × Nat)) → List ((Nat × Nat) × (Nat × Nat))
  | 0, es => es
  | n + 1, es => peelRun n (peelEdges es)

/-- Whether a graph has no cycle: peeling empties it. -/
def acyclic (es : List ((Nat × Nat) × (Nat × Nat))) : Bool := (peelRun es.length es).isEmpty

/-- Whether, for every VC, the dependencies that the routes form have no cycle (R260). -/
def cycleFree (d : Chip) (rs : List Route) : Bool :=
  (List.range 6).all (fun v => acyclic (((rs.filter (fun r => r.vc == v)).flatMap (fun r => pathEdges (pathFor d r))).eraseDups))

/-- R260, over the routes of the image and of the jobs that keep running. -/
def routesOk (c d : Chip) (I : Image) (topo : Nat) : Bool :=
  let rs := imageRoutes c d I topo ++ keptRoutes c d I
  rs.all (fun r => pathGood d r && jobsApart c d I r) && cycleFree d rs

/-! ### What jobs use (R40, R383, R422) -/

/-- Axon entry `i` of tile `t`. -/
def axonWord (d : Chip) (t i : Nat) : Nat := numAt d (axonAddr d t i) 8

/-- The axon entries in use on tile `t`: those below KEY_COUNT whose MODE is not 3. -/
def axonEntries (d : Chip) (t : Nat) : List (Nat × Nat) :=
  ((List.range (keyCount d t)).map (fun i => (i, axonWord d t i))).filter (fun x => aMode x.2 != 3)

/-- Whether tile `t` streams a gather layer from LPDDR5X. -/
def tileStreams (d : Chip) (t : Nat) : Bool := (axonEntries d t).any (fun x => aMode x.2 == 2)

/-- What a job uses: its number, fields, running tiles and streams, and whether it spans devices. -/
structure JobUse where
  job : Nat
  fields : Nat
  tiles : List Nat
  streams : Nat
  multi : Bool
  deriving DecidableEq, Repr

/-- What the running jobs of mask `js` use. -/
def runningUses (c : Chip) (js : Nat) : List JobUse :=
  (setBits 16 js).map (fun j =>
    { job := j, fields := (jobAt c j).fields.toNat, tiles := keptTiles c j, streams := (jobAt c j).streams.toNat,
      multi := (jobAt c j).multi })

/-- What the image's jobs use. -/
def imageUses (I : Image) : List JobUse :=
  (jobEntries I.ss).map (fun e =>
    { job := jeJob e, fields := jeFields e, tiles := placedIn I (jeFields e), streams := jeStreams e, multi := jeMulti e })

/-- The routes of slot `s` that a job uses: of its tiles' populations and channels, its encoders, the gateways and its streamed
layers. -/
def useRoutes (d : Chip) (s topo : Nat) (u : JobUse) : List Route :=
  tileRoutes d s u.job u.tiles ++ (setBits 16 u.streams).flatMap (encRoutes d s u.job) ++
    (if u.multi then keyRoutes d s topo else []) ++ (u.tiles.filter (tileStreams d)).flatMap (memRoutes d s)

/-- The domains that a route needs: the fields on its way, and the seam where it crosses it (R33, R40). -/
def routeDomains (d : Chip) (r : Route) : List Nat :=
  fieldOf r.tile :: (pathFor d r).flatMap (fun h =>
    fieldOf h.1 :: (if (h.2 = 2 ∧ tileX h.1 = 63) ∨ (h.2 = 3 ∧ tileX h.1 = 64) then [95] else []))

/-- The domains that a job uses beside its own fields: paths, taps, ports, controllers, engines and the seam (R422). -/
def useDomains (d : Chip) (s topo : Nat) (u : JobUse) : List Nat :=
  (useRoutes d s topo u).flatMap (routeDomains d) ++
    (setBits 16 u.streams).flatMap (fun p => (64 + p) :: (portTaps p).map (fun k => fieldOf (tapTile k))) ++
    (if u.tiles.any (tileStreams d) || (setBits 16 u.streams).any (encReplays d) then [80, 81, 82, 83] else []) ++
    (if u.multi then (usedDirs topo).flatMap (fun dir => [84 + 2 * dir, 85 + 2 * dir] ++
      ((engineTaps (2 * dir) ++ engineTaps (2 * dir + 1)).filter (tapGood d)).map (fun k => fieldOf (tapTile k))) else [])

/-- The fields that the running jobs of mask `js` use as a tap, or as a path of their routes or spans (R383). -/
def trafficFields (c : Chip) (js : Nat) : List Nat :=
  let s := rfld c Reg.SEAM_MGMT_EPOCH 0 0
  (((runningUses c js).flatMap (useDomains c s (reg c Reg.GW_TOPO).toNat)).filter (fun f => decide (f < 64))).eraseDups

/-- The fields that the traffic of the jobs which keep running passes. -/
def keptFields (c : Chip) (I : Image) : List Nat := trafficFields c (keptJobs c I)

/-! ### Rectangles of jobs (R332) -/

/-- The largest hop count along one dimension of size `s`, of which a job uses `w` positions from `o`, to the root's
position `r`; none when the root lies outside. -/
def hopsTo (s w o r : Nat) : Option Nat :=
  let k := (r + s - o % s) % s
  if w ≤ k ∨ s < w then none else if w < s then some (max k (w - 1 - k)) else some (s / 2)

/-- Whether a job's rectangle and root keep R332 on the torus of TOPO. -/
def rectOk (topo rect root : Nat) : Bool :=
  let sx := bits topo 14 10 + 1
  let sy := bits topo 19 15 + 1
  match hopsTo sx (bits rect 14 10 + 1) (bits rect 19 15) (devX root), hopsTo sy (bits rect 4 0 + 1) (bits rect 9 5) (devY root) with
  | some a, some b => decide (a + b ≤ 32)
  | _, _ => false

end Sys2Proof.Machine
end

