-- ==== Sys2Proof/Machine/LoadCheck.lean ====
section
/-!
DEFINITION. Bracken's load checks (R369 to R383, R388, Table 13.15). A check answers none when it passes, and else the
section index and the detail that IMG_RESULT and IMG_DETAIL name. What a rule leaves to the toolchain's knowledge of
times and rates is `Config.ratesOk` and `Config.censusEnd` (log entry 70).
-/

namespace Sys2Proof.Machine

/-- The outcome of a check: none passes; else section index and detail. -/
abbrev Breach := Option (Nat × Nat)

/-- A breach in the first section of type `typ` with detail `d`, unless `ok`. -/
def need (I : Image) (typ d : Nat) (ok : Bool) : Breach := if ok then none else some (sectionIndex I typ, d)

/-- The first breach among those of a list's elements. -/
def firstBreach {α : Type} (f : α → Breach) (xs : List α) : Breach := xs.findSome? f

/-- The first tile of the image that fails `ok`, as a breach in a section of type `typ`. -/
def tilesBreach (I : Image) (typ : Nat) (ok : Nat → Bool) : Breach :=
  (placedTiles I).findSome? (fun t => if ok t then none else some (sectionIndex I typ, t))

/-- The sections of an image as what the model leaves open is given them. -/
def openSections (I : Image) : List (Nat × Nat × List Byte) := I.ss.map (fun x => (x.typ, x.fields, x.data))

/-- The declared rates of R295, which no section of the image states (log entry 70). -/
def ratesOk (c : Chip) (I : Image) : Bool := Config.ratesOk (openSections I) (keptJobs c I)

/-! ### Types and formats (R369, R373) -/

/-- The types of Table 13.3 that the device interprets. -/
def knownTypes : List Nat := [1, 2, 3, 4, 5, 6, 7, 8, 0x10, 0x11, 0x12, 0x13, 0x14, 0x15, 0x16, 0x18, 0x19, 0x1A, 0x1B]

/-- Code 0x0A (R369). -/
def checkTypes (I : Image) : Breach :=
  let bad (x : Section × Nat) : Bool :=
    (decide (x.1.typ < 0x8000) && !knownTypes.contains x.1.typ) || x.1.fields.land I.fields != x.1.fields ||
      (decide (1 ≤ x.1.typ) && decide (x.1.typ ≤ 8) && !x.1.reloc && sectionIndex I x.1.typ != x.2)
  match I.ss.zipIdx.find? bad with
  | some x => some (x.2, 0)
  | none => if hasSection I.ss 1 && hasSection I.ss 2 && hasSection I.ss 3 then none else some (0, 0)

/-- Whether a chunk of a tile keeps R373. -/
def chunkOk (c : Chip) (I : Image) (m typ : Nat) (k : Chunk) : Bool :=
  let ts := targetTiles I m k.w0
  bits k.w0 14 13 == 0 && bits k.w0 31 16 == 0 && k.w1 % 8 == 0 && decide (8 ≤ k.data.length) && k.data.length % 8 == 0 &&
    ts.all (fun t => (placedIn I m).contains t && decide (k.w1 + k.data.length ≤ chunkRoom c typ t))

/-- Whether an LPDDR5X chunk keeps R373. -/
def memChunkOk (c : Chip) (k : Chunk) : Bool :=
  let a := k.w0 + 2 ^ 32 * k.w1
  a % 64 == 0 && k.data.length % 64 == 0 && memReach c a k.data.length && memAllowed c kindImage a k.data.length

/-- Whether a run keeps Table 13.7. -/
def runOk (typ : Nat) (r : TableRun) : Bool :=
  if typ = 0x19 then bits r.place 29 18 == 0 && decide (bits r.place 17 0 + r.words.length ≤ 262144)
  else bits r.place 29 19 == 0 && bits r.place 16 15 == 0 && decide (bits r.place 14 0 + r.words.length ≤ 32768)

/-- Whether a record's tile lies in the section's target fields. -/
def recordOk (m : Nat) (e : List Byte) : Bool :=
  let w := nAt e 0 2
  bits w 14 13 == 0 && (bit w 15 || bit m (fieldOf (bits w 12 0)))

/-- Whether a section's content has the form of its type. -/
def contentOk (c : Chip) (I : Image) (x : Section) : Bool :=
  let n := x.data.length
  match x.typ with
  | 1 => n % 64 == 0 && (pieces 64 x.data).all (fun e => bits (nAt e 0 2) 15 11 == 0 && nAt e 0x36 2 == 0)
  | 2 => n % 32 == 0 && (pieces 32 x.data).all (fun e =>
      decide (nAt e 0 1 < 64) && decide (nAt e 2 1 < 4) && nAt e 3 5 == 0 && nAt e 0x18 8 == 0)
  | 3 => n == 704 && nAt x.data 0x2BC 4 == 0
  | 4 => n == 104 && nAt x.data 0x62 6 == 0 && (x.data.take 96).all (fun b => decide (b.toNat < 4)) &&
      [0x60, 0x61].all (fun o => decide (nAt x.data o 1 < 4) || nAt x.data o 1 == 255)
  | 5 => n == 32 && nAt x.data 0x18 8 == 0
  | 6 => n % 24 == 0 && (pieces 24 x.data).all (fun e =>
      (nAt e 1 1 == 1 || nAt e 1 1 == 2) && nAt e 4 4 == 0 && nAt e 8 8 % 64 == 0)
  | 7 => n % 32 == 0 && (pieces 32 x.data).all (fun e => nAt e 3 1 == 0 && nAt e 0x10 16 == 0)
  | 8 => n % 8 == 0 && (pieces 8 x.data).all (fun e => decide (nAt e 0 1 < 64) && decide (nAt e 1 1 < 7) && nAt e 3 5 == 0)
  | 0x10 => n % 8 == 0 && (pieces 8 x.data).all (recordOk x.fields)
  | 0x1B => n % 8 == 0
  | 0x18 => n % 104 == 0 && (pieces 104 x.data).all (fun e => recordOk x.fields e && nAt e 3 1 == 0 && decide (nAt e 2 1 < 8))
  | 0x16 => match chunkList x.data with | some ks => ks.all (memChunkOk c) | none => false
  | 0x19 => match runList x.data with | some rs => rs.all (runOk 0x19) | none => false
  | 0x1A => match runList x.data with | some rs => rs.all (runOk 0x1A) | none => false
  | 0x11 | 0x12 | 0x13 | 0x14 | 0x15 =>
    match chunkList x.data with | some ks => ks.all (chunkOk c I x.fields x.typ) | none => false
  | _ => true

/-- Code 0x0B (R373): `c` holds the image's registers. -/
def checkFormat (c : Chip) (I : Image) : Breach :=
  (I.ss.zipIdx.find? (fun x => !x.1.reloc && !contentOk c I x.1)).map (fun x => (x.2, 0))

/-! ### Floor plan and fields (R372, R381 to R383) -/

/-- The routers that the image's ROUTES records name. -/
def routedTiles (I : Image) : List Nat :=
  (sectionsOfType I 0x18).flatMap (fun x => (pieces 104 x.2.data).flatMap (fun e => targetTiles I x.2.fields (nAt e 0 2)))

/-- TOPO as it will stand. -/
def topoOf (c : Chip) (I : Image) : Nat := if hasSection I.ss 5 then nAt (sectionData I.ss 5) 0 4 else (reg c Reg.GW_TOPO).toNat

/-- The engines by which the outbound entries of slot `s` leave (R313, R371). -/
def usedEngines (d : Chip) (s : Nat) : List Nat :=
  ((d.gw.outTable.filter (fun x => x.1 / 32768 % 2 == s && bit x.2.toNat 63)).map (fun x =>
    let e := 2 * (x.1 / 65536) + bits x.2.toNat 62 62
    if variantOf d = 1 then e / 2 * 2 else e)).eraseDups

/-- Whether everything the image uses is good in the current floor plan (R381); `d` is the chip as the image leaves it. -/
def usedGood (c d : Chip) (I : Image) (topo : Nat) : Bool :=
  (routedTiles I).all (fun t => !routerBad c t) &&
    (List.range 2).all (fun h => (reg d (Reg.SEAM_ROW_EN_LO + 4 * h) &&& ~~~reg c (Reg.SEAM_ROW_GOOD_LO + 4 * h)) == 0#32) &&
    (setBits 16 (imageStreams I)).all (fun p => portGood c p && (portTaps p).all (tapGood c)) &&
    (usedEngines d (imageSlot c I)).all (engineGood c) && (imageRoutes c d I topo).all (pathGood d)

/-- Code 0x0C (R372, R381). -/
def checkFloorplan (c d : Chip) (I : Image) : Breach :=
  let ps := places I
  let entryBad (p : Place) : Bool :=
    !bit I.fields p.field || decide (1 < (ps.filter (fun q => q.field == p.field)).length) ||
      (p.role != 1 && p.tiles != 0) || !(placeTiles p).all (tileGood c)
  match ps.find? entryBad with
  | some p => some (sectionIndex I 2, ((placeTiles p).find? (fun t => !tileGood c t)).getD p.field)
  | none =>
    if (setBits 64 I.fields).all (fun f => ps.any (fun p => p.field == f)) then
      need I 2 0 (I.fpRev == (reg c Reg.BOOT_FP_REV).toNat || usedGood c d I (topoOf c I))
    else some (sectionIndex I 2, 0)

/-- Code 0x11 (R382, R383). -/
def checkBusy (c : Chip) (I : Image) : Breach :=
  let r := runningJobs c
  need I 2 0 (if I.isPart then
      r.land I.replaces == I.replaces && (setBits 64 I.fields).all (fun f => match numOf c.fieldJob f with
        | 0 => true
        | j + 1 => !bit r j || bit I.replaces j) &&
        (keptFields c I).all (fun f => !bit I.fields f || (places I).any (fun p => p.field == f && p.role == 3))
    else r == 0)

/-! ### Class and jobs (R139, R206, R370) -/

/-- The populations of tile `t`. -/
def tilePops (c : Chip) (t : Nat) : List (List Byte) := pieces 128 (bytesAt c (regionBase c t 4) 2048)

/-- NEURON_COUNT of a population block. -/
def pbCount (b : List Byte) : Nat := bits (nAt b 0x12 2) 10 0

/-- NEURON_BASE of a population block. -/
def pbBase (b : List Byte) : Nat := bits (nAt b 0x10 2) 9 0

/-- The tiles of a job entry. -/
def entryTiles (I : Image) (e : List Byte) : List Nat := placedIn I (jeFields e)

/-- Code 0x0F (R139, R206). -/
def checkClass (d : Chip) (I : Image) : Breach :=
  let pops := (placedTiles I).all (fun t => (tilePops d t).all (fun b => pbCount b == 0 || (bits (nAt b 0 4) 1 0 == 0 && bits (nAt b 0 4) 15 13 == 0)))
  let encs := (setBits 16 (imageStreams I)).all (fun p =>
    (rfld d (Reg.ENC_GEN_CFG p) 1 0 == 1 || ((rfld d (Reg.ENC_GEN_CFG p) 1 0 == 0 || rfld d (Reg.ENC_GEN_CFG p) 1 0 == 2) &&
      rflag d (Reg.ENC_GEN_CFG p) 2)) && !rflag d (Reg.QNT_CFG p) 8)
  need I 1 0 (I.classG || (pops && encs && (jobEntries I.ss).all (fun e => decide ((entryTiles I e).length ≤ 2048) && !jeMulti e)))

/-- The lower of the two floors, MHz. -/
def lowFloor (I : Image) : Nat := min I.floorW I.floorE

/-- The checks of Table 2.3 that depend on the image alone, with MIN_TICK as the minimum tick (R370). The period of a
locked timebase depends on SYSREF and is judged by MIN_TICK. -/
def timingOk (I : Image) (e : List Byte) : Bool :=
  let us := bits (jeTiming e 1) 22 0
  let ue := bits (jeTiming e 2) 22 0
  let st := min 25 (bits (jeTiming e 3) 4 0)
  let P := I.minTick
  let multi := bit (jeAlign e) 31
  decide (us < ue) &&
    match bits (jeCtrl e) 25 24 with
    | 0 => decide (1 ≤ bits (jeCtrl e) 15 0) && decide (1250 ≤ P) && decide (P ≤ 6250000) && (!multi || decide (12500 ≤ P)) &&
        decide (us + st * P / 100 + (ue - us) ≤ P) && decide (bits (jeTiming e 0) 22 0 < P)
    | 1 => (!multi || decide (12500 ≤ bits (jeTiming e 4) 22 0)) && decide (us ≤ bits (jeTiming e 5) 22 0)
    | _ => false

/-- Whether a job entry keeps the clauses of R370 that stand on it alone. Phase units are 625 per µs. -/
def jobEntryOk (I : Image) (e : List Byte) : Bool :=
  let us := bits (jeTiming e 1) 22 0
  let ue := bits (jeTiming e 2) 22 0
  let own := ((places I).filter (fun p => p.role == 1 && p.job == jeJob e)).foldl (fun m p => m.lor (2 ^ p.field)) 0
  jeFields e == own && timingOk I e && decide (64 * 625 ≤ (ue - us) * lowFloor I) &&
    (!jeMulti e || I.classG) && jeMulti e == bit (jeAlign e) 31

/-- Code 0x10 (R370), beside the jobs that keep running (R380). -/
def checkJobs (c : Chip) (I : Image) : Breach :=
  let es := jobEntries I.ss
  let n := (sectionData I.ss 1).length / 64
  let kept := setBits 16 (keptJobs c I)
  let bad (x : List Byte × Nat) : Bool :=
    !jobEntryOk I x.1 || kept.any (fun j => j == jeJob x.1 || (jobAt c j).tb.val == jeTb x.1) ||
      (es.take x.2).any (fun y =>
        jeJob y == jeJob x.1 || jeTb y == jeTb x.1 || (jeFields y).land (jeFields x.1) != 0)
  if n < 1 ∨ 16 < n then some (sectionIndex I 1, 0)
  else (es.zipIdx.find? bad).map (fun x => (sectionIndex I 1, x.2))

/-! ### Tiles (R87, R107, R117, R118, R142, R144, R148, R162) -/

/-- Code 0x12 (R87). Region bounds are lines by their registers. -/
def layoutTileOk (d : Chip) (t : Nat) : Bool :=
  let b (n : Nat) : Nat := regionBase d t n
  let s (n : Nat) : Nat := regionSize d t n
  let n := s 0 / 48
  (List.range 8).all (fun i => (List.range i).all (fun j =>
    s i == 0 || s j == 0 || decide (b i + s i ≤ b j) || decide (b j + s j ≤ b i))) &&
    (List.range 8).all (fun i => decide (b i + s i ≤ win t + 0x20000)) &&
    s 0 % 48 == 0 && n % 4 == 0 && decide (n ≤ 1024) && s 1 == 8 * n && decide (s 2 ≤ 16384) && decide (s 3 ≤ 8192) &&
    s 4 == 2048 && decide (s 7 ≤ 8192)

/-- Whether one population keeps R117 and R118. That a THRESHOLD above the range of Table 4.1 counts as a breach of R118 is a
DESIGN CHOICE (log entry 172). -/
def popOk (n : Nat) (b : List Byte) : Bool :=
  let w := nAt b 0 4
  let leak := if bit w 16 then nAt b 0x0E 2 else 0x8000 - 0x8000 / 2 ^ bits w 20 17
  let h := (List.range 32).map (fun i => nAt b (0x40 + 2 * i) 2)
  pbBase b % 4 == 0 && pbCount b % 4 == 0 && decide (pbBase b + pbCount b ≤ n) &&
    h.getD 0 0 == leak && h.getD 16 0 == leak && h.all (fun x => decide (x ≤ 0x8000)) &&
    decide (bits w 23 22 < 3) && decide (bits w 3 2 < 3) && decide (1 ≤ nAt b 4 3) && decide (nAt b 4 3 ≤ 8388607) &&
    (bits w 3 2 != 2 || decide (signed 24 (nAt b 8 3) < (nAt b 4 3 : Int))) &&
    (match bits w 1 0 with
      | 0 => bits w 15 13 == 0
      | 1 => bits w 15 13 == 1 || bits w 15 13 == 6
      | _ => false)

/-- Code 0x13 (R117, R118): populations of no neurons are not in use. -/
def popsOk (d : Chip) (t : Nat) : Bool :=
  let ps := (tilePops d t).filter (fun b => pbCount b != 0)
  ps.all (popOk (neuronsOf d t)) && ps.zipIdx.all (fun x => (ps.take x.2).all (fun q =>
    decide (pbBase q + pbCount q ≤ pbBase x.1) || decide (pbBase x.1 + pbCount x.1 ≤ pbBase q)))

/-- Whether the row, the scales or the descriptor of an entry lie within the store (R97, R144). -/
def rowInside (d : Chip) (t a : Nat) : Bool :=
  let cap := storeBytes d t / 8
  let h := unitAt d t (aRow a)
  match aMode a with
  | 0 => decide (aRow a + 1 + codeUnits (aWidth a) (aLen a) ≤ cap) &&
      decide (hScale h + scaleUnits (aLen a) (groupSize (aGsize a)) ≤ cap) && (aLearn a == 0 || decide (hAlt h + 1 + codeUnits (aWidth a) (aLen a) ≤ cap))
  | 1 => decide (aRow a + 1 + codeUnits (hWidth h) (aLen a * hLen h) ≤ cap) &&
      decide (hScale h + aLen a * ((hLen h / groupSize (hGsize h) + 3) / 4) ≤ cap)
  | _ => decide (aRow a + 3 ≤ cap)

/-- Whether one axon entry keeps R97, R144, R148 and R162. -/
def axonOk (d : Chip) (t a : Nat) : Bool :=
  let h := unitAt d t (aRow a)
  let n := neuronsOf d t
  rowInside d t a && decide (hCb h ≤ rfld d (Reg.SYN_CB_CFG t) 18 16) &&
    (if aMode a = 0 then decide (aTgt a + (aLen a - 1) * aStep a < n)
     else decide (aTgt a + aLen a - 1 < n) && decide (aIn a + hLen h ≤ 4096)) &&
    (aMode a != 2 || (hGsize h != 2 && hLearn h == 0))

/-- Code 0x14 (R142, R144, R97, R148, R162). -/
def synapsesOk (d : Chip) (t : Nat) : Bool :=
  let kc := keyCount d t
  let gc := min 4096 (rfld d (Reg.SYN_GIN_CFG t) 12 0)
  let kb := rfld d (Reg.SYN_KEY_CFG t) 31 16
  let gb := rfld d (Reg.SYN_GIN_CFG t) 31 16
  let apart := kc == 0 || gc == 0 || (decide (gc ≤ (kb + 65536 - gb) % 65536) && decide (kc ≤ (gb + 65536 - kb) % 65536))
  apart && decide (kc ≤ regionSize d t 2 / 8) && (axonEntries d t).all (fun x => axonOk d t x.2)

/-! ### Schedules (R107, R214, R235, R277, R345) -/

/-- The words of tile `t`'s schedule. -/
def scheduleWords (d : Chip) (t : Nat) : List Nat :=
  let b := rfld d (Reg.TILE_SCHED_CFG t) 10 0
  (List.range (rfld d (Reg.TILE_SCHED_CFG t) 27 16)).map (fun i => numAt d (schedAddr d t (b + i)) 4)

/-- The operand bits that Table 3.6 assigns to an opcode. -/
def operandMask (op : Nat) : Nat :=
  match op with
  | 1 => 0x37FFFFF
  | 3 | 8 => 0xFF
  | 4 => 0x3FFFF1F
  | 5 | 6 => 0x7FF
  | 9 => 0x3FFFFF
  | 0x0C => 0xF
  | _ => 0

/-- Whether an opcode waits for update end (Table 3.6). -/
def isSettleWord (op : Nat) : Bool := op == 7 || op == 8 || op == 9 || op == 0x0A || op == 0x0B || op == 0x0C

/-- The population ranges of the words of an opcode. -/
def popRanges (op : Nat) (ws : List Nat) : List (Nat × Nat) :=
  (ws.filter (fun w => wOp w == op)).map (fun w => (bits w 7 4, bits w 3 0))

/-- Whether no two ranges overlap and each is in order. -/
def rangesApart (rs : List (Nat × Nat)) : Bool :=
  rs.zipIdx.all (fun x => decide (x.1.1 ≤ x.1.2) && (rs.take x.2).all (fun y => decide (y.2 < x.1.1) || decide (x.1.2 < y.1)))

/-- Whether every GATHER_BEGIN is followed, before any settle word, by the GATHER_END of its entry. -/
def gathersEnd : List Nat → Bool
  | [] => true
  | w :: ws => (wOp w != 5 || (ws.takeWhile (fun x => !isSettleWord (wOp x))).any (fun x => wOp x == 6 && bits x 10 0 == bits w 10 0)) &&
      gathersEnd ws

/-- How many words of `ws` have opcode `op`. -/
def countOp (op : Nat) (ws : List Nat) : Nat := (ws.filter (fun w => wOp w == op)).length

/-- R107. -/
def scheduleOk (d : Chip) (t : Nat) : Bool :=
  let ws := scheduleWords d t
  let n := ws.length
  let b := rfld d (Reg.TILE_SCHED_CFG t) 10 0
  decide (4 * (b + n) ≤ regionSize d t 3) && countOp 0x3F ws == 1 && (ws.getD (n - 1) 0 |> wOp) == 0x3F &&
    countOp 2 ws == 1 && (ws.takeWhile (fun w => wOp w != 2)).all (fun w => wOp w != 3) &&
    rangesApart (popRanges 3 ws) && rangesApart (popRanges 8 ws) && gathersEnd ws &&
    countOp 0x0A ws == 1 && (ws.getD (n - 2) 0 |> wOp) == 0x0A &&
    ws.all (fun w => (wOp w != 5 && wOp w != 6) || (decide (bits w 10 0 < keyCount d t) &&
      (aMode (axonWord d t (bits w 10 0)) == 1 || aMode (axonWord d t (bits w 10 0)) == 2))) &&
    ws.all (fun w => !wIllegal w && (w % 2 ^ 26).land (operandMask (wOp w)) == w % 2 ^ 26)

/-- Whether a send channel's word names the result engine of the control taps (R287). -/
def sendsResults (w : Word) : Bool :=
  flag w 31 && flag w 30 && flag w 0 && controlTaps.any (fun k => fld w 22 16 == tileX (tapTile k) && fld w 13 8 == tileY (tapTile k))

/-- R214 for a decoder tile: the EMIT_MESSAGE of its output follows the last UPDATE word that holds one of its populations, on
the channel routed to the result engine. -/
def decoderOk (d : Chip) (t : Nat) : Bool :=
  if rflag d (Reg.DEC_CTRL t) 0 then
    let ws := scheduleWords d t
    let pops := reg d (Reg.DEC_POPS t)
    let nov := flag pops 8
    let own := fld pops 3 0 :: (if nov then [fld pops 7 4] else [])
    let holds (n w : Nat) : Bool := wOp w == 3 && decide (bits w 7 4 ≤ n) && decide (n ≤ bits w 3 0)
    let after := (ws.reverse.takeWhile (fun w => !own.any (fun n => holds n w))).reverse
    let out := rfld d (Reg.DEC_OUT t) 11 0
    let isOut (w : Nat) : Bool := wOp w == 4 && bits w 19 8 == out && bits w 4 0 == 3
    let ring := win t + 64 * rfld d (Reg.DEC_RING t) 10 0
    own.all (fun n => ws.any (holds n)) && (ws.filter isOut).length == 1 &&
      after.any (fun w => isOut w && sendsResults (reg d (Reg.CHN_TX t (bits w 25 20)))) && decide (regionBase d t 6 ≤ ring) &&
      decide (ring + 8192 ≤ regionBase d t 6 + regionSize d t 6) &&
      (!nov || pbCount ((tilePops d t).getD (fld pops 7 4) []) != 0)
  else true

/-- R235, R277, R345: MOW words after DIGEST and SAMPLE_CHECK, CENSUS of kind 0 after both. -/
def settleOrderOk (d : Chip) (t : Nat) : Bool :=
  let ws := scheduleWords d t
  let rest (op : Nat) : List Nat := ws.dropWhile (fun w => wOp w != op)
  let learns := ws.any (fun w => wOp w == 9)
  (!learns || (rest 9).all (fun w => wOp w != 7 && wOp w != 0x0B)) && (rest 0x0C).all (fun w => wOp w != 7 && wOp w != 0x0B) &&
    ws.all (fun w => wOp w != 0x0C || bits w 3 0 == 0)

/-- Code 0x15. -/
def schedTileOk (d : Chip) (t : Nat) : Bool := scheduleOk d t && decoderOk d t && settleOrderOk d t

/-! ### Learning (R171, R220, R221, R234) -/

/-- Whether codebook `b`'s entries used by codes of a width ascend strictly (R171). -/
def ascending (d : Chip) (t b width : Nat) : Bool :=
  (List.range (if width = 1 then 255 else 15)).all (fun i => decide (tableEntry d t b i < tableEntry d t b (i + 1)))

/-- Units of a scatter row's slot: header and codes, and of a learnable row the W units that a mow writes (R234, log entry
175). -/
def slotUnits (a : Nat) : Nat :=
  1 + codeUnits (aWidth a) (aLen a) + (if aLearn a = 1 then scaleUnits (aLen a) (groupSize (aGsize a)) else 0)

/-- The store units that an entry's row takes beside an alternate slot: header and codes, and the scale table; of a streamed
layer its header and descriptor (R145, R157, R161). -/
def rowUnits (d : Chip) (t a : Nat) : List (Nat × Nat) :=
  let h := unitAt d t (aRow a)
  match aMode a with
  | 0 => [(aRow a, slotUnits a), (hScale h, scaleUnits (aLen a) (groupSize (aGsize a)))]
  | 1 => [(aRow a, 1 + codeUnits (hWidth h) (aLen a * hLen h)),
      (hScale h, aLen a * ((hLen h / groupSize (hGsize h) + 3) / 4))]
  | _ => [(aRow a, 3)]

/-- The axon entries whose rows R220 looks at: those in use, and those of the learning blocks. -/
def learnEntries (d : Chip) (t : Nat) : List (Nat × Nat) :=
  let more := ((lrnBlocks d t).flatMap (fun b => (List.range b.rows).map (fun r => b.first + r))).filter (fun i => decide (keyCount d t ≤ i))
  axonEntries d t ++ (more.eraseDups.map (fun i => (i, axonWord d t i))).filter (fun x => aMode x.2 != 3)

/-- The alternate slot of an entry's row. -/
def altUnits (d : Chip) (t a : Nat) : Nat × Nat := (hAlt (unitAt d t (aRow a)), slotUnits a)

/-- Whether two runs of units have one in common. -/
def unitsMeet (a b : Nat × Nat) : Bool := decide (a.1 < b.1 + b.2) && decide (b.1 < a.1 + a.2)

/-- Whether a learnable entry's alternate slot keeps R220. -/
def altOk (d : Chip) (t : Nat) (x : Nat × Nat) : Bool :=
  let alt := altUnits d t x.2
  let cb := (rfld d (Reg.SYN_CB_CFG t) 14 0, 64 * (rfld d (Reg.SYN_CB_CFG t) 18 16 + 1))
  alt.1 != 0 && !unitsMeet alt cb && (learnEntries d t).all (fun y =>
    (rowUnits d t y.2).all (fun u => !unitsMeet alt u) &&
      (aLearn y.2 == 0 || y.1 == x.1 || !unitsMeet alt (altUnits d t y.2)))

/-- Whether an entry inside block `b` keeps R220. -/
def inBlockOk (d : Chip) (t : Nat) (b : LrnBlock) (i : Nat) : Bool :=
  let a := axonWord d t i
  aMode a == 0 && aLearn a == 1 && aLen a == b.len && aTgt a == b.tgt && aStep a == b.step

/-- Whether two blocks overlap in entries or in delta indices. -/
def blocksMeet (a b : LrnBlock) : Bool :=
  unitsMeet (a.first, a.rows) (b.first, b.rows) || unitsMeet (a.dbase, a.rows * a.len) (b.dbase, b.rows * b.len)

/-- Code 0x16 for tile `t`, whose job learns when `learn` holds. -/
def learningOk (d : Chip) (t : Nat) (learn : Bool) : Bool :=
  let ls := (learnEntries d t).filter (fun x => aLearn x.2 == 1)
  let bs := lrnBlocks d t
  let cfg := reg d (Reg.LRN_MOW_CFG t)
  let room := (regionSize d t 5 - 2048) / 2
  (learn || ls.isEmpty) && ls.all (fun x =>
      let h := unitAt d t (aRow x.2)
      aMode x.2 == 0 && bs.any (fun b => decide (b.first ≤ x.1) && decide (x.1 < b.first + b.rows)) && altOk d t x &&
        ascending d t (hCb h) (hWidth h) && (hCb h == fld cfg 2 0 || hCb h == fld cfg 6 4)) &&
    bs.all (fun b => (List.range b.rows).all (fun r => inBlockOk d t b (b.first + r)) && decide (b.dbase + b.rows * b.len ≤ room)) &&
    bs.zipIdx.all (fun x => (bs.take x.2).all (fun y => !blocksMeet y x.1))

/-- Whether the job that holds tile `t` in the image learns. -/
def tileLearns (I : Image) (t : Nat) : Bool := (jobEntries I.ss).any (fun e => jeLearn e && bit (jeFields e) (fieldOf t))

/-! ### Routes and tables (R327, R329, R260) -/

/-- The tiles that a key table entry's event reaches. -/
def keyTiles (w : Nat) : List Nat :=
  let x := bits w 60 54
  let y := bits w 53 48
  let e := bits w 47 41
  match bits w 62 61 with
  | 1 => (List.range (max x e + 1 - min x e)).map (fun i => tileAt (min x e + i) y)
  | 2 => (List.range (max y (e % 64) + 1 - min y (e % 64))).map (fun i => tileAt x (min y (e % 64) + i))
  | _ => [tileAt x y]

/-- Whether one key table entry keeps the first two clauses of R327. -/
def keyEntryOk (c d : Chip) (topo w : Nat) : Bool :=
  !bit w 63 || ((usedDirs topo).all (fun dir => match keyTap dir (bits w 24 21) with | some k => tapGood c k | none => true) &&
    (keyTiles w).all (fun t => !gatewayTap d t ||
      decide (rfld d (Reg.RTR_TAP_CFG t) 15 0 ≤ (bits w 40 25 + 65536 - rfld d (Reg.RTR_TAP_CFG t) 31 16) % 65536)))

/-- Whether no two entries of one slot name different taps for one CAST and first tile (R327). -/
def keyPathsOk (m : Sparse DWord) : Bool :=
  m.zipIdx.all (fun x => (m.take x.2).all (fun y =>
    x.1.1 / 262144 != y.1 / 262144 || !bit x.1.2.toNat 63 || !bit y.2.toNat 63 ||
      bits x.1.2.toNat 62 48 != bits y.2.toNat 62 48 || bits x.1.2.toNat 24 21 == bits y.2.toNat 24 21))

/-- Whether an outbound entry keeps R329 on the torus of TOPO. -/
def outEntryOk (topo w : Nat) : Bool :=
  let fx := bits topo 4 0
  let fy := bits topo 9 5
  let dest := bits w 59 50
  let span (pos own s : Nat) : Bool :=
    let k := (pos + s - own) % s
    decide (1 ≤ k) && decide (k ≤ (bits w 49 45 + s - own % s) % s)
  !bit w 63 || match bits w 61 60 with
    | 1 => dest / 32 == fy && span (dest % 32) fx (bits topo 14 10 + 1)
    | 2 => span (dest / 32) fy (bits topo 19 15 + 1)
    | _ => true

/-- Code 0x17 (R327, R329, R260): `d` holds the tables as they will stand. -/
def checkRoutes (c d : Chip) (I : Image) : Breach :=
  let g := d.gw
  let topo := topoOf c I
  match need I 0x19 0 (g.keyTable.all (fun x => keyEntryOk c d topo x.2.toNat) && keyPathsOk g.keyTable) with
  | some b => some b
  | none => match need I 0x1A 0 (g.outTable.all (fun x => outEntryOk topo x.2.toNat)) with
    | some b => some b
    | none => need I 0x18 0 (routesOk c d I topo)

/-! ### Channels, budgets, encoders, fabric, recovery (R295, R272, R377, R378, R183, R376, R379) -/

/-- The tiles and receive channels that the image's records set up. -/
def ringRecords (I : Image) : List (Nat × Nat) :=
  ((sectionsOfType I 0x10).flatMap (fun x => (pieces 8 x.2.data).flatMap (fun e =>
    match rowIndex (win 0 + 0x80000 + nAt e 2 2) (Reg.CHN_RX_CFG 0 0) 16 64 with
    | some n => (writtenTiles I x.2.fields (nAt e 0 2)).map (fun t => (t, n))
    | none => []))).eraseDups

/-- The receive rings of tile `t` as they will stand: those the image sets up and those that stay open. Channel, first byte and
size. -/
def imageRings (d : Chip) (I : Image) (t : Nat) : List (Nat × Nat × Nat) :=
  let ns := (List.range 64).filter (fun n => rflag d (Reg.CHN_RX_CFG t n) 31 || (ringRecords I).contains (t, n))
  ns.map (fun n => (n, win t + 64 * rfld d (Reg.CHN_RX_CFG t n) 10 0, rxSize d t n))

/-- The tiles whose rings are checked: those placed, those that a record sets up, and those of the jobs that keep running. -/
def ringTiles (c : Chip) (I : Image) : List Nat :=
  (placedTiles I ++ (ringRecords I).map (fun x => x.1) ++ (setBits 16 (keptJobs c I)).flatMap (jobTiles c)).eraseDups

/-- Bytes of the control cluster's ring of channel `n` as it will stand, none where it is closed: as the image's CHANNELS
section gives it, else as it stands open. -/
def clusterRing (c : Chip) (I : Image) (n : Nat) : Option Nat :=
  match (pieces 8 (sectionData I.ss 8)).find? (fun e => nAt e 0 1 == n) with
  | some e => some (256 * 2 ^ nAt e 1 1)
  | none => if rflag c (Reg.CHN_CC_CFG n) 31 then some (256 * 2 ^ min 6 (rfld c (Reg.CHN_CC_CFG n) 27 24)) else none

/-- The largest footprint of a message that tile `t` sends on channel `n`: EMIT_MESSAGE words of its schedule (R292). -/
def sentFoot (d : Chip) (t n : Nat) : Nat :=
  ((scheduleWords d t).filter (fun w => wOp w == 4 && bits w 25 20 == n)).foldl (fun m w =>
    max m (24 + 8 * ((7 * bits w 4 0 + 7) / 8))) 0

/-- The largest footprint that any send channel can produce in receive channel `n` of the receiver that `dest` holds for
(R295). -/
def ringFoot (c d : Chip) (I : Image) (n : Nat) (dest : Word → Bool) : Nat :=
  (placedTiles I ++ (setBits 16 (keptJobs c I)).flatMap (keptTiles c)).foldl (fun m t =>
    (sendChannels d t).foldl (fun m x => if dest x.2 && fld x.2 29 24 == n then max m (sentFoot d t x.1) else m) m) 0

/-- Whether a send channel's word names tile `t`. -/
def sendsTo (t : Nat) (w : Word) : Bool := !flag w 30 && fld w 22 16 == tileX t && fld w 13 8 == tileY t

/-- Whether a send channel's word names the control cluster (R287). -/
def sendsToCluster (w : Word) : Bool :=
  flag w 30 && !flag w 0 && controlTaps.any (fun k => fld w 22 16 == tileX (tapTile k) && fld w 13 8 == tileY (tapTile k))

/-- Code 0x18 (R295): every ring lies in region 6, overlaps no other, and is twice the largest footprint it can receive. -/
def checkChannels (c d : Chip) (I : Image) : Breach :=
  let ok (t : Nat) : Bool :=
    let rs := imageRings d I t
    rs.zipIdx.all (fun x => decide (regionBase d t 6 ≤ x.1.2.1) && decide (x.1.2.1 + x.1.2.2 ≤ regionBase d t 6 + regionSize d t 6) &&
      (rs.take x.2).all (fun y => !unitsMeet x.1.2 y.2) && decide (2 * ringFoot c d I x.1.1 (sendsTo t) ≤ x.1.2.2))
  match (ringTiles c I).findSome? (fun t => if ok t then none else some (sectionIndex I 0x10, t)) with
  | some b => some b
  | none => need I 8 0 ((List.range 64).all (fun n => match clusterRing c I n with
      | some size => decide (2 * ringFoot c d I n sendsToCluster ≤ size)
      | none => true) && ratesOk c I)

/-- ⌊(P − 24 rclk) × f / k⌋ of R272 and R377: P in phase units of 1.6 ns, f in MHz. -/
def windowFlits (I : Image) (k : Nat) : Nat := (I.minTick - 96) * 16 * lowFloor I / (10000 * k)

/-- The BUDGET section's checks (R377). -/
def budgetOk (I : Image) : Bool :=
  let b := sectionData I.ss 3
  let vc := (List.range 6).map (fun v => nAt b (0x2A0 + 4 * v) 4)
  let w := windowFlits I 1
  (List.range 128).all (fun i => decide (nAt b (2 * i) 2 ≤ windowFlits I 2)) && decide (nAt b 0x2B8 4 ≤ w) &&
    vc.all (fun x => decide (x ≤ w)) && (List.range 192).all (fun i => decide (nAt b (0x100 + 2 * i) 2 ≤ w)) &&
    (List.range 8).all (fun e => decide (nAt b (0x280 + 4 * e) 4 ≤ 65536)) && decide (nAt b 0x2B8 4 ≤ vc.foldl (· + ·) 0)

/-- The domains that the image's jobs use (R378, R422): their fields, fields of ROLE 3, what their routes and taps need, and the
memory controllers where the image places data there. `d` is the chip with the image's tables. -/
def imageDomains (c d : Chip) (I : Image) : List Nat :=
  ((List.range 64).filter (fun f => (places I).any (fun p => p.field == f && (p.role == 1 || p.role == 3)))) ++
    (if hasSection I.ss 0x16 then [80, 81, 82, 83] else []) ++
    (imageUses I).flatMap (useDomains d (imageSlot c I) (topoOf c I))

/-- The domains that the jobs which keep running use. -/
def keptDomains (c d : Chip) (I : Image) : List Nat :=
  (runningUses c (keptJobs c I)).flatMap (fun u => setBits 64 u.fields ++ (if hasSection (jobAt c u.job).image.ss 0x16 then [80, 81, 82, 83] else []) ++
    useDomains d (imageSlot c I) (reg c Reg.GW_TOPO).toNat u)

/-- The POWER section's checks (R378). -/
def powerOk (c d : Chip) (I : Image) : Bool :=
  let b := sectionData I.ss 4
  let used := imageDomains c d I
  !hasSection I.ss 4 || (used.all (fun k => nAt b k 1 != 1 && nAt b k 1 != 2) &&
    (nAt b 0x60 1 == 255 || decide (nAt b 0x60 1 ≤ floorCode I.floorW)) &&
    (nAt b 0x61 1 == 255 || decide (nAt b 0x61 1 ≤ floorCode I.floorE)))

/-- Code 0x19. -/
def checkBudget (c d : Chip) (I : Image) : Breach :=
  match need I 3 0 (budgetOk I) with
  | some b => some b
  | none => need I 4 0 (powerOk c d I)

/-- Code 0x1A (R183, R197): `d` holds the image's encoder settings. -/
def checkEncoders (d : Chip) (I : Image) : Breach :=
  ((setBits 16 (imageStreams I)).find? (fun p => featCount d p % rotSize d p != 0 || !encLegal d p)).map
    (fun p => (sectionIndex I 0x1B, p))

/-- Whether a job keeps R357: the latest census completion of its schedule, which the spec gives no formula for (log entry 70),
plus 6.4 µs comes no later than USTART of the following step. Times in phase units from the step's tick, with MIN_TICK between
ticks. -/
def censusInTime (I : Image) (e : List Byte) : Bool :=
  decide (Config.censusEnd (openSections I) (jeJob e) + 4000 ≤ I.minTick + bits (jeTiming e 1) 22 0)

/-- Code 0x1B (R376, R332, R357). -/
def checkFabric (c : Chip) (I : Image) : Breach :=
  let multi := (jobEntries I.ss).any jeMulti
  need I 5 0 (multi == hasSection I.ss 5 &&
    (!hasSection I.ss 5 || !I.isPart || nAt (sectionData I.ss 5) 0 4 == (reg c Reg.GW_TOPO).toNat) &&
    (jobEntries I.ss).all (fun e =>
      !jeMulti e || (rectOk (nAt (sectionData I.ss 5) 0 4) (jeRect e) (jeRoot e) && censusInTime I e)))

/-- Bytes of the checkpoint record of tile `t` (Table 8.2). -/
def ckptBytes (d : Chip) (t : Nat) : Nat :=
  let cfg := reg d (Reg.LRN_MOW_CFG t)
  let rows (b : LrnBlock) : Nat := ((List.range b.rows).map (fun r =>
    let a := axonWord d t (b.first + r)
    1 + scaleUnits (aLen a) (groupSize (aGsize a)) + codeUnits (aWidth a) (aLen a))).foldl (· + ·) 0
  let bs := lrnBlocks d t
  if bs.isEmpty then 0
  else 32 + 8 * (bs.map rows).foldl (· + ·) 0 + (if fld cfg 2 0 = fld cfg 6 4 then 512 else 1024)

/-- The learning tiles of job `j` in the image. -/
def learningTiles (d : Chip) (I : Image) (j : Nat) : List Nat :=
  ((jobEntries I.ss).filter (fun e => jeJob e == j)).flatMap (fun e => (entryTiles I e).filter (fun t => rflag d (Reg.LRN_CTRL t) 0))

/-- Whether memory from `a`, `n` bytes, lies in valid regions of a KIND (Table 19.6). -/
def inKind (c : Chip) (kind a n : Nat) : Bool := memAllowed c (fun attr => fld attr 10 8 == kind) a n

/-- Code 0x1C (R361, R379, R513). -/
def checkRecovery (c d : Chip) (I : Image) : Breach :=
  let copyOk (e : List Byte) : Bool :=
    let src := nAt e 0 1
    let cs := cutSections (nAt e 8 2) (nAt e 0xA 2)
    decide (nAt e 0xC 4 ≤ 50000) && cs.all (fun x => x.reloc && x.fields == 2 ^ nAt e 1 1) &&
      (places I).any (fun p => p.field == nAt e 1 1 && p.role == 2) &&
      I.ss.all (fun x => x.reloc || !(decide (0x10 ≤ x.typ) && decide (x.typ ≤ 0x1B)) || !bit x.fields src || cs.any (fun y => y.typ == x.typ))
  let ckptOk (e : List Byte) : Bool :=
    decide (nAt e 1 1 * ((learningTiles d I (nAt e 0 1)).map (ckptBytes d)).foldl (· + ·) 0 ≤ nAt e 0x10 8) &&
      inKind c 3 (nAt e 8 8) (nAt e 0x10 8)
  match need I 7 0 (decide (copiesEnd c (keptJobs c I) + copiesSize I ≤ relocRoom c) && (pieces 32 (sectionData I.ss 7)).all copyOk) with
  | some b => some b
  | none => need I 6 0 ((pieces 24 (sectionData I.ss 6)).all ckptOk)
where
  /-- `n` sections from directory index `i`. -/
  cutSections (i n : Nat) : List Section := (I.ss.drop i).take n

/-! ### Registers (R374, Table 13.13) -/

/-- The registers that a TREG record may write, by address in tile 0's window, with the bits reserved to Bracken. -/
def tregForbidden (a : Nat) : Option Nat :=
  let r (b n s : Nat) : Bool := (rowIndex a b s n).isSome
  if r (Reg.TILE_SCHED_CFG 0) 1 4 || r (Reg.TILE_REGION 0 0) 8 4 || r (Reg.TILE_SRAM_USE 0) 1 4 ||
      r (Reg.TILE_PEPPER_SEED_LO 0) 1 4 || r (Reg.TILE_PEPPER_SEED_HI 0) 1 4 || r (Reg.SYN_KEY_CFG 0) 1 4 ||
      r (Reg.SYN_GIN_CFG 0) 1 4 || r (Reg.SYN_CB_CFG 0) 1 4 || r (Reg.SYN_STRM_CFG 0) 1 4 || r (Reg.LRN_CFG 0) 1 4 ||
      r (Reg.LRN_TRACE_CFG 0) 1 4 || r (Reg.LRN_EPOCH_CFG 0) 1 4 || r (Reg.LRN_MOW_CFG 0) 1 4 || r (Reg.LRN_FB_POS 0) 1 4 ||
      r (Reg.LRN_FB_NEG 0) 1 4 || r (Reg.LRN_LABEL_CFG 0) 1 4 || r (Reg.LRN_LABEL_NRN 0) 1 4 || r (Reg.LRN_BLK_A 0 0) 4 16 ||
      r (Reg.LRN_BLK_B 0 0) 4 16 || r (Reg.LRN_BLK_C 0 0) 4 16 || r (Reg.RTR_TAP_CFG 0) 1 4 || r (Reg.RTR_WDOG_CFG 0) 1 4 ||
      r (Reg.CHN_TX 0 0) 64 4 || r (Reg.DEC_POPS 0) 1 4 || r (Reg.DEC_WINDOW 0) 1 4 || r (Reg.DEC_CLASS_BASE 0) 1 4 ||
      r (Reg.DEC_RING 0) 1 4 || r (Reg.DEC_OUT 0) 1 4 || r (Reg.CHK_T_CFG 0) 1 4 then some 0
  else if r (Reg.LRN_CTRL 0) 1 4 then some 0xFFFFFFFE
  else if r (Reg.CHN_RX_CFG 0 0) 64 16 then some 0x80000000
  else if r (Reg.DEC_CTRL 0) 1 4 then some 2
  else none

/-- Whether the image may write a register of port `p`, with the bits reserved to Bracken. -/
def cregForbidden (I : Image) (a : Nat) : Option Nat :=
  let p := (a - 0x200000A00000) / 0x10000
  if a = Reg.SEAM_ROW_EN_LO ∨ a = Reg.SEAM_ROW_EN_HI then some 0
  else if 0x200000A00000 ≤ a ∧ a < 0x200000B00000 ∧ bit (imageStreams I) p ∧ a % 4 = 0 then
    if a = Reg.ENC_CTRL p then some 5
    else if portConfig (a - Reg.ENC_CTRL p) ∨ a = Reg.DEC_S_CFG p ∨ (Reg.ENC_ROUTE p 0 0 0 ≤ a ∧ a < Reg.ENC_ROUTE p 2 0 0) then some 0
    else none
  else none

/-- Code 0x1D (R374). -/
def checkRegisters (I : Image) : Breach :=
  let bad (f : Option Nat) (v : Nat) : Bool := match f with | some m => v.land m != 0 | none => true
  let treg := firstBreach (fun x => ((pieces 8 x.2.data).zipIdx.find? (fun e =>
      bad (tregForbidden (win 0 + 0x80000 + nAt e.1 2 2)) (nAt e.1 4 4))).map (fun e => (x.1, e.2))) (sectionsOfType I 0x10)
  match treg with
  | some b => some b
  | none => firstBreach (fun x => ((pieces 8 x.2.data).zipIdx.find? (fun e =>
      bad (cregForbidden I (cregAddr e.1)) (nAt e.1 4 4))).map (fun e => (x.1, e.2))) (sectionsOfType I 0x1B)

/-! ### Floors and compatibility (R378, R388) -/

/-- The floor code of a half beside jobs that keep running: the highest floor, which is the lowest code. -/
def floorBeside (c : Chip) (kept : Nat) (east : Bool) (own : Nat) : Nat :=
  (setBits 16 kept).foldl (fun m j => min m (if east then (jobAt c j).floorE else (jobAt c j).floorW)) own

/-- The floor codes that hold once the image runs. -/
def newFloor (c : Chip) (I : Image) (east : Bool) : Nat :=
  floorBeside c (keptJobs c I) east (floorCode (if east then I.floorE else I.floorW))

/-- Whether the power controller would refuse to raise a half to its new floor (R378, R421). -/
def floorRefused (c : Chip) (I : Image) (east : Bool) : Bool := halfHot c east && decide (newFloor c I east < halfPoint c east)

/-- Code 0x1E. -/
def checkFloor (c : Chip) (I : Image) : Breach := if floorRefused c I false || floorRefused c I true then some (0, 0) else none

/-- Code 0x1F (R388). -/
def checkCompat (c : Chip) (I : Image) : Breach :=
  let kept (compat : Bool) : Bool := (List.range 16).any (fun j => bit (keptJobs c I) j && (jobAt c j).compat == compat)
  let slot1 := (sectionsOfType I 0x18).any (fun x => (pieces 104 x.2.data).any (fun e => bit (nAt e 2 1) 1))
  let ok := if I.compat then
      !I.classG && [5, 0x19, 0x1A, 6, 7].all (fun n => !hasSection I.ss n) && !slot1 &&
        (jobEntries I.ss).all (fun e => !jeLearn e && !jeMulti e) && !kept false
    else !kept true
  if ok then none else some (0, 0)

/-! ### All checks (R380, Table 13.15) -/

/-- Fields reset: tile by tile those of `pass`, which running jobs' traffic passes, as a field the others (R384). -/
def resetFields (pass fs : List Nat) (c : Chip) : Chip :=
  forAll (fun f c =>
    let ts := fieldTiles f
    c |> (if pass.contains f then forAll tileReset ts else fieldReset f) |> fenceBad ts) fs c

/-- The image's fields as the apply resets them, in the chip with the encoders of the jobs that do not keep running stopped. -/
def trialReset (c : Chip) (I : Image) : Chip :=
  let kept := (setBits 16 (keptJobs c I)).foldl (fun m j => m.lor (jobAt c j).streams.toNat) 0
  c |> forAll (fun p => when_ (!bit kept p) (setEncState p 0)) (List.range 16)
    |> resetFields (keptFields c I) ((places I).map (fun p => p.field))

/-- The chip as the image's tiles, tables and control registers would leave it, once the jobs it replaces have stopped: what the
checks look at (R380). -/
def trial (c : Chip) (I : Image) : Chip :=
  trialReset c I |> writeTiles I |> writeSlots I |> fun d => writeCregs (slotsFor c I) I d

/-- The chip with the image's tile registers only, for the bounds of chunks (R373). -/
def trialRegs (c : Chip) (I : Image) : Chip :=
  trialReset c I
    |> forAll (fun x c => forAll (writeTreg I x.2.fields) (pieces 8 x.2.data) c) (sectionsOfType I 0x10)

/-- The checks in the order of their codes. The order among Bracken's codes is a DESIGN CHOICE (log entry 71). -/
def loadChecks (c : Chip) (I : Image) : List (Nat × Breach) :=
  let d := trial c I
  [(0x0A, checkTypes I), (0x0B, checkFormat (trialRegs c I) I), (0x0C, checkFloorplan c d I), (0x0F, checkClass d I),
    (0x10, checkJobs c I), (0x11, checkBusy c I), (0x12, tilesBreach I 0x10 (layoutTileOk d)),
    (0x13, tilesBreach I 0x11 (popsOk d)), (0x14, tilesBreach I 0x12 (synapsesOk d)),
    (0x15, tilesBreach I 0x13 (schedTileOk d)), (0x16, tilesBreach I 0x12 (fun t => learningOk d t (tileLearns I t))),
    (0x17, checkRoutes c d I), (0x18, checkChannels c d I), (0x19, checkBudget c d I), (0x1A, checkEncoders d I),
    (0x1B, checkFabric c I), (0x1C, checkRecovery c d I), (0x1D, checkRegisters I), (0x1E, checkFloor c I),
    (0x1F, checkCompat c I)]

/-- The first check that fails: code, section index, detail. -/
def loadCode (c : Chip) (I : Image) : Option (Nat × Nat × Nat) :=
  (loadChecks c I).findSome? (fun x => x.2.map (fun b => (x.1, b.1, b.2)))

end Sys2Proof.Machine
end

