-- ==== Sys2Proof/Machine/Load.lean ====
section
/-!
DEFINITION. Applying an image and starting its jobs (R384 to R388), and the outcome that Bracken writes to IMG_RESULT.
-/

namespace Sys2Proof.Machine

/-! ### Stopping jobs (R384) -/

/-- The timebases that run job `j`. -/
def jobTimebases (c : Chip) (j : Nat) : List Nat := (List.range 16).filter (fun k => tbRuns c k && jobOfTb c k == j)

/-- Job `j` stopped: ENABLE = 0, encoders RUN = 0 and, with `tiles`, SEQ_EN = 0 on its tiles (R66, R384). -/
def stopJob (tiles : Bool) (j : Nat) (c : Chip) : Chip :=
  c |> forAll tbDisable (jobTimebases c j)
    |> forAll encRunClear (setBits 16 (jobAt c j).streams.toNat)
    |> when_ tiles (forAll (fun t c => when_ (seqEn c t) (clearSeqEn t) c) (jobTiles c j))

/-- The jobs that an apply stops: those replaced; every running job for a partial image of compatibility mode (R271,
R388). -/
def stoppedJobs (c : Chip) (I : Image) : Nat :=
  if !I.isPart then 0 else if I.compat then runningJobs c else (runningJobs c).land I.replaces

/-- The jobs of an apply asked to stop; in compatibility mode the routers of their fields take no new packet (R271). -/
def askStops (I : Image) (c : Chip) : Chip :=
  let r := runningJobs c
  c |> forAll (fun j => stopJob (bit I.replaces j) j) (setBits 16 (stoppedJobs c I))
    |> when_ (I.isPart && I.compat) (fun c => forAll injStop ((setBits 16 r).flatMap (jobTiles c)) c)

/-- Whether every job that the apply stops has stopped, and in compatibility mode its routers are empty. -/
def stopsDone (c : Chip) (I : Image) : Bool :=
  let js := setBits 16 (if I.compat && I.isPart then 65535 else I.replaces)
  !I.isPart || (js.all (fun j => (jobTimebases c j).isEmpty) &&
    (!I.compat || (js.flatMap (jobTiles c)).all (fun t => !rflag c (Reg.RTR_CTRL t) 0 || routerEmpty c t)))

/-! ### The steps of an apply (R384) -/

/-- Job `j` is gone: its fields are idle and its streams restart with GAP (R383, R386). -/
def removeJob (j : Nat) (c : Chip) : Chip :=
  let fs := jobFields c j
  let c := forAll streamLost (jobStreams c j) c
  { c with
    jobs := mapPut (fun _ => {}) c.jobs j {}
    fieldJob := c.fieldJob.filter (fun x => !fs.contains x.1)
    fabJobs := c.fabJobs.filter (fun x => x.1 != j) }

/-- Codebooks, state rings and pepper generators of the placed tiles made ready. -/
def readyTiles (I : Image) (c : Chip) : Chip :=
  forAll (fun t c => c |> cbLoad t |> primeTile t |> reloadPepper t) (placedTiles I) c

/-- The receive rings that the image sets up are opened after their contents are written. -/
def openRings (I : Image) (c : Chip) : Chip :=
  forAll (fun x c => forAll (fun e c =>
      match rowIndex (win 0 + 0x80000 + nAt e 2 2) (Reg.CHN_RX_CFG 0 0) 16 64 with
      | some n => forAll (fun t c => ringOpen t n (reg c (Reg.CHN_RX_CFG t n)) c) (writtenTiles I x.2.fields (nAt e 0 2)) c
      | none => c) (pieces 8 x.2.data) c) (sectionsOfType I 0x10) c

/-- The cluster's receive rings opened. Their place in the shared SRAM is Bracken's: one behind the other from offset 0, a
DESIGN CHOICE (log entry 72). -/
def openClusterRings : Nat → List (List Byte) → Chip → Chip
  | _, [], c => c
  | line, e :: es, c =>
    let v := 2 ^ 31 + nAt e 1 1 * 2 ^ 24 + nAt e 2 1 * 2 ^ 16 + line % 65536
    c |> writeCcCfg (nAt e 0 1) 0#32 |> writeCcCfg (nAt e 0 1) (BitVec.ofNat 32 v)
      |> openClusterRings (line + 4 * 2 ^ nAt e 1 1) es

/-- The FABRIC section (Table 13.8). -/
def writeFabric (I : Image) (c : Chip) : Chip :=
  let b := sectionData I.ss 5
  if hasSection I.ss 5 then
    c |> writeGw Reg.GW_TOPO (BitVec.ofNat 32 (nAt b 0 4))
      |> forAll (fun d => writeGw (Reg.GW_OUT_WIN d) (BitVec.ofNat 32 (nAt b (4 + 4 * d) 4))) (List.range 4)
      |> writeGw Reg.GW_COLL_TO (BitVec.ofNat 32 (nAt b 0x14 4))
  else c

/-- SEAM_BUDGET from the BUDGET section (R377). -/
def writeBudget (I : Image) (c : Chip) : Chip :=
  let b := sectionData I.ss 3
  let limit := ((List.range 128).map (fun i => nAt b (2 * i) 2)).foldl max 0
  let tb := ((jobEntries I.ss).head?.map jeTb).getD 0
  putNum Reg.SEAM_BUDGET (tb * 65536 + limit) c

/-- PWR_NEED: the domains that the image's jobs and the jobs that keep running use, once the tables are written (R33, R40,
R422). -/
def writeNeed (I : Image) (c : Chip) : Chip :=
  let used := imageDomains c c I ++ keptDomains c c I
  forAll (fun d => setBit (Reg.PWR_NEED (d / 32)) (d % 32) (used.contains d)) (List.range 96) c

/-- The power plan's requests (Table 13.10). -/
def writePower (I : Image) (c : Chip) : Chip :=
  let b := sectionData I.ss 4
  if hasSection I.ss 4 then
    c |> forAll (fun d => when_ (nAt b d 1 != 3) (domainRequest d (BitVec.ofNat 32 (nAt b d 1)))) (List.range 96)
      |> when_ (nAt b 0x60 1 != 255) (pointRequest false (BitVec.ofNat 32 (nAt b 0x60 1)))
      |> when_ (nAt b 0x61 1 != 255) (pointRequest true (BitVec.ofNat 32 (nAt b 0x61 1)))
  else c

/-- The floors that the running jobs and the image ask for (R378, R432). -/
def writeFloors (w e : Nat) (c : Chip) : Chip := floorWrite (BitVec.ofNat 32 (256 * e + w)) c

/-- LRN_CKPT_CFG.K of the learning tiles of the jobs with a checkpoint entry. -/
def writeCkpt (I : Image) (c : Chip) : Chip :=
  forAll (fun e c => forAll (fun t => putNum (Reg.LRN_CKPT_CFG t) (nAt e 2 2)) (learningTiles c I (nAt e 0 1)) c)
    (pieces 24 (sectionData I.ss 6)) c

/-- RTR_EPOCH.COMPAT of every router as the image's mode needs it: set before a compatibility job starts, cleared by a native
full image (R271, R388); no compatibility job runs beside a native partial image. -/
def writeCompat (I : Image) (c : Chip) : Chip :=
  when_ (!I.isPart || I.compat) (forAll (fun t => setBit (Reg.RTR_EPOCH t) 8 I.compat) (List.range 8192)) c

/-- The running timebases switched to epoch `e`, two steps ahead; a job of several devices by its root's collective
(R268, R335). -/
def switchAll (e : Nat) (c : Chip) : Chip :=
  c |> forAll (fun k c =>
      if tbRuns c k then
        let j := jobOfTb c k
        let t := (tickNow c k + 2) % 65536
        if tbMulti c k then cmdEpochSwitch j (BitVec.ofNat 32 (2 ^ 31 + 2 ^ 28 + e * 2 ^ 24 + t)) c
        else seamSwitch (BitVec.ofNat 32 (2 ^ 31 + e * 2 ^ 24 + k * 65536 + t)) c
      else c) (List.range 16)
    |> putNum Reg.SEAM_MGMT_EPOCH e

/-! ### Starting the jobs (R385) -/

/-- Job entry `e` of the image as the hardware knows it. Bracken keeps the image, from which a restart reloads the job (R359; log
entry 106). -/
def makeJob (c : Chip) (I : Image) (e : List Byte) : Job :=
  { present := true, fields := BitVec.ofNat 64 (jeFields e), tb := Fin.ofNat 16 (jeTb e), multi := jeMulti e
    compat := I.compat, census := (entryTiles I e).any (fun t => (scheduleWords c t).any (fun w => wOp w == 0x0C))
    streams := BitVec.ofNat 16 (jeStreams e), minTick := I.minTick
    floorW := floorCode I.floorW, floorE := floorCode I.floorE
    early := flag (grantOf c.loadGrants 4) 31, placed := entryTiles I e, image := I, copyBase := copiesEnd c (keptJobs c I) }

/-- The registers of a job's timebase, integrity block and gateway written (R385). -/
def writeJob (I : Image) (e : List Byte) (c : Chip) : Chip :=
  let j := jeJob e
  let k := jeTb e
  let w (a n : Nat) (c : Chip) : Chip := plainWrite a (BitVec.ofNat 32 n) c
  let c := forAll (fun f c => { c with fieldJob := setNum f (j + 1) c.fieldJob }) (setBits 64 (jeFields e)) c
  let c := { c with jobs := mapPut (fun _ => {}) c.jobs j (makeJob c I e) }
  let ctrl := putFld (BitVec.ofNat 32 (jeCtrl e)) 23 20 j
  c |> setReg (Reg.TICK_TB_CTRL k) (ctrl &&& 0x13F0FFFF#32)
    |> w (Reg.TICK_TB_OFFSET k) (jeTiming e 0) |> w (Reg.TICK_TB_USTART k) (jeTiming e 1) |> w (Reg.TICK_TB_UEND k) (jeTiming e 2)
    |> w (Reg.TICK_TB_STRETCH k) (jeTiming e 3) |> w (Reg.TICK_TB_FREE_MIN k) (jeTiming e 4)
    |> w (Reg.TICK_TB_FREE_MAX k) (jeTiming e 5) |> w (Reg.TICK_TB_START_LO k) (jeStart e % 2 ^ 32)
    |> w (Reg.TICK_TB_START_HI k) (jeStart e / 2 ^ 32) |> w (Reg.TICK_TB_ALIGN_CFG k) (jeAlign e)
    |> w (Reg.CHK_JOB_CFG j) (jeChk e)
    |> when_ (jeMulti e) (fun c => c |> w (Reg.GW_JOB_RECT j) (jeRect e) |> w (Reg.GW_JOB_CFG j) (2 ^ 31 + jeRoot e))

/-- A job of the image started: its epoch, ENABLE, its tiles and its encoders (R385). A job of several devices is enabled by
the ALIGN_START collective. -/
def startJob (I : Image) (slot : Nat) (e : List Byte) (c : Chip) : Chip :=
  let k := jeTb e
  c |> writeJob I e
    |> seamSwitch (BitVec.ofNat 32 (2 ^ 31 + slot * 2 ^ 24 + k * 65536))
    |> when_ (!jeMulti e) (enableTb k)
    |> forAll setSeqEn (entryTiles I e)
    |> forAll (fun p c => c |> when_ (!encReplays c p) (linkEnable p) |> encRunSet p) (setBits 16 (jeStreams e))

/-! ### Compatibility mode and the old slot (R269, R271) -/

/-- A job that only the drain of R271 stopped runs on: its routers inject again and its timebase is enabled at the next tick
number; its streams carry GAP. -/
def restoreJob (j : Nat) (c : Chip) : Chip :=
  let k : Nat := (jobAt c j).tb
  let n := nextStep (tickNow c k)
  c |> forAll (fun t => setBit (Reg.RTR_CTRL t) 0 false) (jobTiles c j)
    |> setReg2 (Reg.TICK_TB_START_LO k) (Reg.TICK_TB_START_HI k) n
    |> forAll (fun p => modStream p (fun S => { S with gapNext := true })) (jobStreams c j)
    |> enableTb k
    |> forAll encRunSet (setBits 16 (jobAt c j).streams.toNat)

/-- The jobs that a compatibility image's drain stopped and that it does not replace: they hold fields whose routers take no
packets. -/
def drainedJobs (c : Chip) (I : Image) : List Nat :=
  if I.isPart && I.compat then
    (List.range 16).filter (fun j => !bit I.replaces j && (jobAt c j).compat && (jobTimebases c j).isEmpty &&
      (jobTiles c j).any (fun t => rflag c (Reg.RTR_CTRL t) 0))
  else []

/-- Slot `1 - e` of every route table, encoder route set and gateway table made equal to slot `e` (R269, R384). -/
def mirrorSlots (e : Nat) (c : Chip) : Chip :=
  let inTable (t0 : Nat) (a : Nat) : Bool :=
    (windowField a).isSome && decide (0x84000 ≤ a % 0x100000) && decide (a % 0x100000 < 0x85000) &&
      isTableWord (a % 0x100000 - 0x84000) && (if a % 0x100000 < 0x84180 then t0 == 0 else t0 == 1)
  let mv (a : Nat) : Nat := if e = 0 then a + 0x80 else a - 0x80
  let inSets (s : Nat) (a : Nat) : Bool := decide (0x200000A00000 ≤ a) && decide (a < 0x200000B00000) &&
    decide (0x1000 + 0x200 * s ≤ a % 0x10000) && decide (a % 0x10000 < 0x1200 + 0x200 * s)
  let mvSet (a : Nat) : Nat := if e = 0 then a + 0x200 else a - 0x200
  let half (n : Nat) (k : Nat) : Bool := k / n % 2 == e
  let put {β : Type} (d : Nat → β) [DecidableEq β] (n : Nat) (m : Sparse β) : Sparse β :=
    (m.filter (fun x => half n x.1)).foldl (fun m x => mapPut d m (if e = 0 then x.1 + n else x.1 - n) x.2) (m.filter (fun x => half n x.1))
  let new := c.regs.filter (fun x => inTable e x.1)
  let sets := c.regs.filter (fun x => inSets e x.1)
  let c := { c with regs := c.regs.filter (fun x => !inTable (1 - e) x.1 && !inSets (1 - e) x.1) }
  let c := forAll (fun x => setReg (mv x.1) x.2) new c
  let c := forAll (fun x => setReg (mvSet x.1) x.2) sets c
  let c := forAll (fun t c => when_ (rflag c (Reg.RTR_EPOCH t) 0 != rflag c (Reg.RTR_EPOCH t) 1)
    (setBit (Reg.RTR_EPOCH t) (1 - e) (rflag c (Reg.RTR_EPOCH t) e)) c) (List.range 8192) c
  { c with gw := { c.gw with
      keyTable := put (fun _ => 0#64) 262144 c.gw.keyTable, outTable := put (fun _ => 0#64) 32768 c.gw.outTable } }

/-- Whether the old slot is out of use: no timebase stamps it or waits to switch, and a drain of its epoch returns zero
(R269). -/
def oldSlotFree (c : Chip) : Bool :=
  let e := rfld c Reg.SEAM_MGMT_EPOCH 0 0
  (List.range 16).all (fun k => !tbRuns c k || (curEpoch c k == e && (tbAt c k).switchAt.isNone)) && drainSum c (1 - e) == 0

/-- The last step of an apply, once the old slot is out of use. -/
def finishMirror (c : Chip) : Chip :=
  if oldSlotFree c then mirrorSlots (rfld c Reg.SEAM_MGMT_EPOCH 0 0) { c with loading := 0 } else c

/-! ### The apply (R384) -/

/-- An accepted image applied, once every job it replaces has stopped (R384). `release`: the staged image's lock is
released. -/
def applyImage (I : Image) (release : Bool) (c : Chip) : Chip :=
  let gone := setBits 16 (if I.isPart then I.replaces else 65535)
  let drained := drainedJobs c I
  let pass := keptFields c I ++ (if drained.isEmpty then [] else ((places I).filter (fun p => p.role == 3)).map (fun p => p.field))
  let copies := copiesEnd c (keptJobs c I)
  let slot := imageSlot c I
  let fw := newFloor c I false
  let fe := newFloor c I true
  { c with loadGrants := c.askedGrants, accepted := none } |> forAll removeJob gone
    |> resetFields pass ((places I).map (fun p => p.field))
    |> writeTiles I |> writeMemData I |> readyTiles I |> writeSlots I
    |> (fun c => writeCregs (slotsFor c I) I c) |> writeFabric I |> writeBudget I |> writeNeed I |> writeFloors fw fe |> writePower I
    |> writeCkpt I |> openRings I |> openClusterRings 0 (pieces 8 (sectionData I.ss 8)) |> writeCompat I
    |> (if I.compat then id else switchAll slot)
    |> copyRelocs I copies
    |> when_ release imgRelease
    |> forAll (startJob I slot) (jobEntries I.ss)
    |> forAll restoreJob drained
    |> (if I.compat || (!I.isPart && namedSlots I == [0, 1]) then fun c => { c with loading := 0 } else fun c => finishMirror { c with loading := 2 })

/-- A failed check noted, and the staged image dropped (R380, R381). A refusal to raise a half is the power controller's
(R378). -/
def rejectImage (I : Image) (r : Nat × Nat × Nat) (release : Bool) (c : Chip) : Chip :=
  c |> when_ (r.1 == 0x1E) (fun c => c |> when_ (floorRefused c I false) (refusePoint false 3) |> when_ (floorRefused c I true) (refusePoint true 3))
    |> putNum Reg.IMG_RESULT (r.1 * 2 ^ 24 + r.2.1 % 65536) |> putNum Reg.IMG_DETAIL r.2.2 |> when_ release imgAbort

/-- An image that has passed the load checks: a floor plan revision other than its own is counted (R381). -/
def noteAccepted (I : Image) (c : Chip) : Chip :=
  c |> when_ (I.fpRev != (reg c Reg.BOOT_FP_REV).toNat) (count Reg.IMG_FP_STALE 1) |> putNum Reg.IMG_RESULT 0

/-- The load checks run on a verified image; when they pass, the jobs it replaces are asked to stop (R380, R384). The image that
was checked is the one that is applied (R44). -/
def acceptImage (I : Image) (release : Bool) (c : Chip) : Chip :=
  match loadCode c I with
  | some r => rejectImage I r release c
  | none => c |> noteAccepted I |> askStops I |> fun c => { c with loading := 1, accepted := some I }

/-- An accepted image goes on: applied when its jobs have stopped, finished when its old slot is free. -/
def continueImage (release : Bool) (c : Chip) : Chip :=
  match c.loading, c.accepted with
  | 1, some I => if stopsDone c I then applyImage I release c else c
  | 2, _ => finishMirror c
  | _, _ => c

end Sys2Proof.Machine
end

