-- ==== Sys2Proof/Machine/FloorBuild.lean ====
section
/-!
DEFINITION. Defect maps and the building, publishing and changing of the floor plan (R398 to R403).
-/

namespace Sys2Proof.Machine

/-! ### Defect entries (Table 14.3) -/

/-- TYPE of a defect entry. -/
def deType (e : Word) : Nat := fld e 31 28
/-- INDEX of a defect entry. -/
def deIndex (e : Word) : Nat := fld e 12 0
/-- CAP of a defect entry. -/
def deCap (e : Word) : Nat := fld e 15 14
/-- The unit an entry names: its TYPE and INDEX. -/
def deUnit (e : Word) : Nat := deType e * 8192 + deIndex e

/-- Whether a list of entries names a unit. -/
def listed (es : List Word) (typ i : Nat) : Bool := es.any (fun e => deType e == typ && deIndex e == i)

/-- The capacity code of a tile's store before its entries: 256 KiB, or 128 KiB where the fuses cap it (R400). -/
def capTop (v : Word) : Nat := if flag v 16 || fld v 1 0 == 2 then 2 else 3

/-- The smallest CAP among the entries of tile `t`'s store (R399). -/
def capOf (v : Word) (es : List Word) (t : Nat) : Nat :=
  (es.filter (fun e => deType e == 6 && deIndex e == t)).foldl (fun m e => min m (deCap e)) (capTop v)

/-- Whether a test entry says that its unit fails: of a store, that its capacity is below the fused one (R399). -/
def testFails (v : Word) (fused : List Word) (e : Word) : Bool :=
  decide (deType e < 10) && (deType e != 6 || decide (deCap e < capOf v fused (deIndex e)))

/-- The first entry of each unit. -/
def oncePerUnit : List Word → List Word
  | [] => []
  | e :: es => e :: (oncePerUnit es).filter (fun x => deUnit x != deUnit e)

/-- A new unit's entry appended to the field map, which holds 4,096 entries (R399). -/
def appendField (e : Word) (c : Chip) : Chip :=
  if c.flash.fieldMap.any (fun x => deUnit x == deUnit e && (deType e != 6 || decide (deCap x ≤ deCap e))) then c
  else if c.flash.fieldMap.length < 4096 then { c with flash := { c.flash with fieldMap := c.flash.fieldMap ++ [e] } }
  else raise Reg.BOOT_FAULT 4 c

/-- The counters and the field map after the tests of a cold start (R399). -/
def mergeTests (c : Chip) : Chip :=
  let v := c.fuses.variant
  let fused := c.fuses.defects
  let test := oncePerUnit (c.boot.testMap.filter (testFails v fused))
  let passed := (oncePerUnit (fused.filter (fun e => decide (deType e < 10)))).filter (fun e => !test.any (fun x => deUnit x == deUnit e))
  let new := test.filter (fun e => !fused.any (fun x => deUnit x == deUnit e))
  let fresh := new.filter (fun e => !c.flash.fieldMap.any (fun x => deUnit x == deUnit e))
  c |> count Reg.FUSE_TEST_DISAGREE_PASS passed.length |> count Reg.FUSE_TEST_DISAGREE_FAIL fresh.length
    |> forAll appendField fresh

/-- The entries the device works with: fused, field and, at a cold start, test map (R398, R399). -/
def badEntries (c : Chip) : List Word :=
  let fused := c.fuses.defects
  (fused ++ c.flash.fieldMap ++ (c.boot.testMap.filter (testFails c.fuses.variant fused)).filter
    (fun e => !fused.any (fun x => deUnit x == deUnit e))).filter (fun e => decide (deType e < 10))

/-! ### Derivation (Table 14.4) -/

/-- Router `t` is good. -/
def goodRouter (es : List Word) (t : Nat) : Bool := !listed es 1 t

/-- Tap `k` is good. -/
def goodTap (es : List Word) (k : Nat) : Bool := goodRouter es (tapTile k) && !listed es 5 k

/-- Bytes of a bitmap of `n` bits. -/
def bitmapOf (n : Nat) (f : Nat → Bool) : List Byte :=
  (List.range (n / 8)).map (fun i => BitVec.ofNat 8 (((List.range 8).map (fun k => if f (8 * i + k) then 2 ^ k else 0)).foldl (· + ·) 0))

/-- Bytes 0x0018 to 0x143F of the record: the bitmaps that the bad set gives (Tables 14.4 and 14.5). -/
def planBody (v : Word) (es : List Word) : List Byte :=
  let anyTap (ks : List Nat) : Bool := ks.any (goodTap es)
  let tile (t : Nat) : Bool := goodRouter es t && !listed es 0 t && capOf v es t != 0
  let east (t : Nat) : Bool := tileX t % 64 != 63 && goodRouter es t && goodRouter es (t + 1) && !listed es 2 t
  let south (t : Nat) : Bool := tileY t != 63 && goodRouter es t && goodRouter es (t + 128) && !listed es 3 t
  let seam (y : Nat) : Bool := !listed es 4 y && goodRouter es (tileAt 63 y) && goodRouter es (tileAt 64 y)
  bitmapOf 16 (fun p => !listed es 8 p && anyTap (portTaps p)) ++
    bitmapOf 8 (fun m => decide (m < 4) && !listed es 9 m && anyTap (memoryTaps m)) ++
    bitmapOf 8 (fun e => flag v (8 + e) && !listed es 7 e && anyTap (engineTaps e)) ++ toBytes 4 1 ++
    bitmapOf 128 (fun k => decide (k < 96) && goodTap es k) ++ bitmapOf 64 seam ++ toBytes 8 0 ++
    bitmapOf 8192 tile ++ bitmapOf 8192 east ++ bitmapOf 8192 south ++
    (List.range 2048).map (fun i =>
      BitVec.ofNat 8 (((List.range 4).map (fun k => capOf v es (4 * i + k) * 4 ^ k)).foldl (· + ·) 0))

/-- Set bits in a byte list. -/
def onesIn (bs : List Byte) : Nat := bs.foldl (fun n b => n + popCount 8 b.toNat) 0

/-- The record around its bitmaps (Table 14.5). -/
def planRecord (c : Chip) (rev : Nat) (body : List Byte) : List Byte :=
  let good := onesIn (cut body 0x28 1024)
  let flags := b2n (decide (good < 7936)) + 2 * b2n (decide (4096 ≤ c.flash.fieldMap.length))
  let r := toBytes 4 0x4E504C46 ++ toBytes 4 rev ++ toBytes 4 5192 ++ toBytes 1 (variantOf c) ++ toBytes 1 flags ++
    toBytes 2 good ++ toBytes 8 (serialOf c) ++ body
  r ++ toBytes 4 (crc32 r) ++ toBytes 4 0

/-- The contents of a record other than REVISION and CRC. -/
def planContents (r : List Byte) : List Byte := r.take 4 ++ cut r 8 0x1438

/-- A record published, with the registers that show it, and mirrored to flash (R401 to R403). -/
def publishPlan (r : List Byte) (c : Chip) : Chip :=
  let good := nAt r 0x0E 2
  let lo : Word := BitVec.ofNat 32 (nAt r 0x30 4)
  let hi : Word := BitVec.ofNat 32 (nAt r 0x34 4)
  { c with flash := { c.flash with fpRev := nAt r 4 4, fpLast := r } }
    |> putBytes fpBase r |> putNum Reg.BOOT_FP_REV (nAt r 4 4) |> putNum Reg.BOOT_FP_GOOD good
    |> when_ (decide (good < 7936)) (raise Reg.BOOT_FAULT 0)
    |> setReg Reg.SEAM_ROW_GOOD_LO lo |> setReg Reg.SEAM_ROW_GOOD_HI hi
    |> setReg Reg.SEAM_ROW_EN_LO (reg c Reg.SEAM_ROW_EN_LO &&& lo) |> setReg Reg.SEAM_ROW_EN_HI (reg c Reg.SEAM_ROW_EN_HI &&& hi)

/-- The floor plan built at the end of stage 6, or of stages 5 and 6 of a warm start (R402); its bad tiles are fenced. -/
def buildPlan (c : Chip) : Chip :=
  let body := planBody c.fuses.variant (badEntries c)
  let same := planContents (planRecord c 0 body) == planContents c.flash.fpLast
  let c := publishPlan (planRecord c (if same then c.flash.fpRev else c.flash.fpRev + 1) body) c
  c |> setReg Reg.SEAM_ROW_EN_LO (reg c Reg.SEAM_ROW_GOOD_LO) |> setReg Reg.SEAM_ROW_EN_HI (reg c Reg.SEAM_ROW_GOOD_HI)
    |> fenceBad (List.range 8192)

/-! ### FP_COMMIT (R403) -/

/-- Whether every bit of `new` within the bitmaps is also one of `old`, and every CAP no greater. -/
def planShrinks (old new : List Byte) : Bool :=
  ((cut old 0x18 0xC28).zip (cut new 0x18 0xC28)).all (fun x => (x.2 &&& ~~~x.1) == 0#8) &&
    ((cut old 0xC40 2048).zip (cut new 0xC40 2048)).all (fun x =>
      (List.range 4).all (fun k => decide (bits x.2.toNat (2 * k + 1) (2 * k) ≤ bits x.1.toNat (2 * k + 1) (2 * k))))

/-- Bit `i` of the bitmap at offset `off` of a record. -/
def planBit (r : List Byte) (off i : Nat) : Bool := bit (nAt r (off + i / 8) 1) (i % 8)

/-- The entries of the units that `new` makes bad and `old` does not. -/
def newlyBad (old new : List Byte) : List Word :=
  let gone (typ off n : Nat) : List Word :=
    ((List.range n).filter (fun i => planBit old off i && !planBit new off i)).map (fun i => BitVec.ofNat 32 (typ * 2 ^ 28 + i))
  let cap (r : List Byte) (t : Nat) : Nat := bits (nAt r (0xC40 + t / 4) 1) (2 * (t % 4) + 1) (2 * (t % 4))
  gone 0 0x40 8192 ++ gone 2 0x440 8192 ++ gone 3 0x840 8192 ++ gone 4 0x30 64 ++ gone 5 0x20 96 ++
    ((List.range 8192).filter (fun t => decide (cap new t < cap old t))).map
      (fun t => BitVec.ofNat 32 (6 * 2 ^ 28 + cap new t * 2 ^ 14 + t)) ++
    gone 7 0x1B 8 ++ gone 8 0x18 16 ++ gone 9 0x1A 4

/-- The plan `new`, which only loses units, published as the next revision; the units it loses enter the field map. -/
def changePlan (new : List Byte) (c : Chip) : Chip :=
  let old := bytesAt c fpBase fpLength
  let c := forAll appendField (newlyBad old new) c
  publishPlan (planRecord c (nAt old 4 4 + 1) (cut new 0x18 0x1428)) c

/-- FP_COMMIT: accepted when the edit copy only loses units. -/
def fpCommit (c : Chip) : Chip :=
  let new := bytesAt c fpEdit fpLength
  if planShrinks (bytesAt c fpBase fpLength) new then changePlan new c else raise Reg.BOOT_FAULT 2 c

/-- FP_COMMIT. -/
def execFpCommit (s : State) : Host.Outcome State Fault Refusal := done s (fpCommit s.chip)

end Sys2Proof.Machine
end

