-- ==== Sys2Proof/Machine/Restart.lean ====
section
/-!
DEFINITION. Bracken's part of a job restart (R359, R360, R242): the faulty tile fenced and left out of the floor plan, the
job's fields reloaded in place or one of them moved to its spare, the last checkpoint restored. The model does all of it when
an accepted RESUME comes (DESIGN CHOICE, log entry 106).
-/

namespace Sys2Proof.Machine

/-! ### The faulty tile -/

/-- Bit `t` of a record's TILES bitmap cleared. -/
def withoutTile (r : List Byte) (t : Nat) : List Byte :=
  let o := 0x40 + t / 8
  r.take o ++ ((r.drop o).take 1).map (fun b => b &&& ~~~ BitVec.ofNat 8 (2 ^ (t % 8))) ++ r.drop (o + 1)

/-- Tiles fenced and left out of a new floor plan revision (R359). -/
def dropTiles (ts : List Nat) (c : Chip) : Chip :=
  let c := forAll (fun t => fenceTile t .fenced) ts c
  let bad := ts.filter (tileGood c)
  if bad.isEmpty then c else changePlan (bad.foldl withoutTile (bytesAt c fpBase fpLength)) c

/-! ### Relocation (R360) -/

/-- Entry of the FIELDS section for field `f`. -/
def fieldEntry (I : Image) (f : Nat) : List Byte := ((pieces 32 (sectionData I.ss 2)).find? (fun e => nAt e 0 1 == f)).getD []

/-- The FIELDS section once job `j` has left field `src` for `spare`, where its tiles stand as they stood in `src`. -/
def movedFields (I : Image) (j src spare : Nat) : List Byte :=
  (pieces 32 (sectionData I.ss 2)).flatMap (fun e =>
    if nAt e 0 1 = src then [BitVec.ofNat 8 src, 0xFF#8, 2#8] ++ List.replicate 29 0#8
    else if nAt e 0 1 = spare then
      [BitVec.ofNat 8 spare, BitVec.ofNat 8 j, 1#8] ++ List.replicate 5 0#8 ++ cut (fieldEntry I src) 8 16 ++ List.replicate 8 0#8
    else e)

/-- The sections of a copy as they read in the relocation area: `n` directory entries from `first`. -/
def copySections (c : Chip) (J : Job) (first n : Nat) : List Section :=
  (List.range n).filterMap (fun k => (J.image.ss[first + k]?).map (fun x =>
    { x with reloc := false, data := readCopy c J.image J.copyBase (first + k) x }))

/-- The image of job `j` once relocation entry `e` has been applied: the copy stands for the sections of its source field. -/
def movedImage (c : Chip) (j : Nat) (e : List Byte) : Image :=
  let J := jobAt c j
  let src := nAt e 0 1
  let plain (x : Section) : Section :=
    if x.reloc then x
    else if x.typ = 2 then { x with data := movedFields J.image j src (nAt e 1 1) }
    else if 0x10 ≤ x.typ then { x with fields := x.fields - (if bit x.fields src then 2 ^ src else 0) } else x
  { J.image with ss := J.image.ss.map plain ++ copySections c J (nAt e 8 2) (nAt e 0xA 2) }

/-- Tile `t` of field `src` as it stands in field `dst`. -/
def movedTile (src dst t : Nat) : Nat :=
  if fieldOf t = src then tileAt (16 * (dst % 8) + tileX t % 16) (8 * (dst / 8) + tileY t % 8) else t

/-- The slots that a restart writes: both, which are alike once a load has ended; slot 0 in compatibility mode. -/
def restartSlots (I : Image) (_ : Nat) : List Nat := if I.compat then [0] else [0, 1]

/-- The part of an image that targets the fields of mask `m`, of the section types `typs`. -/
def imagePart (I : Image) (m : Nat) (typs : List Nat) : Image :=
  let own := I.ss.filter (fun x => decide (x.typ < 0x10) || (typs.contains x.typ && x.fields.land m != 0 && !x.reloc))
  { I with ss := own.map (fun x => if x.typ < 0x10 then x else { x with fields := x.fields.land m }) }

/-- The sections of tiles and routers. -/
def tileTypes : List Nat := [0x10, 0x11, 0x12, 0x13, 0x14, 0x15, 0x18]

/-- The sections that a relocation copy may hold beside them. -/
def copyTypes : List Nat := tileTypes ++ [0x19, 0x1A, 0x1B]

/-- The tiles of the fields of mask `m` loaded with what an image holds for them (R384). -/
def loadPart (I : Image) (m : Nat) (typs : List Nat) (c : Chip) : Chip :=
  let P := imagePart I m typs
  c |> writeTiles P
    |> forAll (fun t c => c |> cbLoad t |> primeTile t |> reloadPepper t) (placedIn P m)
    |> writeTables (restartSlots I) P |> writeCregs (restartSlots I) P |> openRings P
    |> forAll (fun f c => forAll (fun t => setBit (Reg.RTR_EPOCH t) 8 I.compat) (fieldTiles f) c) (setBits 64 m)

/-- Whether the spare field of relocation entry `e` of job `j` is compatible (R360): it holds no job, and every tile, router, link
and tap that the copy uses is good now. The entry's revision agrees with the current one on those items when they are good: the
copy was checked on it (DEDUCED, log entry 191). -/
def spareFits (c : Chip) (j : Nat) (e : List Byte) : Bool :=
  let spare := nAt e 1 1
  let I := movedImage c j e
  let ts := placedIn I (2 ^ spare)
  let d := c |> fieldReset spare |> loadPart I (2 ^ spare) copyTypes
  numOf c.fieldJob spare == 0 && ts.all (tileGood c) &&
    (tileRoutes d (rfld c Reg.SEAM_MGMT_EPOCH 0 0) j ts).all (pathGood d)

/-- The relocation entry that a restart of job `j` applies: the first for the field of its faulty tile whose spare is
compatible. -/
def relocation (c : Chip) (j : Nat) : Option (List Byte) :=
  let J := jobAt c j
  match J.faulty.head? with
  | some t =>
    if rflag c (Reg.CHK_JOB_CFG j) 4 then
      (pieces 32 (sectionData J.image.ss 7)).find? (fun e =>
        nAt e 2 1 == j && nAt e 0 1 == fieldOf t && bit J.fields.toNat (fieldOf t) && spareFits c j e)
    else none
  | none => none

/-- Job `j` moved to the spare field of relocation entry `e` (R359). -/
def relocate (j : Nat) (e : List Byte) (c : Chip) : Chip :=
  let src := nAt e 0 1
  let spare := nAt e 1 1
  let I := movedImage c j e
  c |> fieldReset spare |> fenceBad (fieldTiles spare) |> loadPart I (2 ^ spare) copyTypes
    |> modJob j (fun J => { J with
        image := I, fields := BitVec.ofNat 64 (J.fields.toNat - 2 ^ src + 2 ^ spare), placed := J.placed.map (movedTile src spare) })
    |> (fun c => { c with fieldJob := setNum spare (j + 1) (setNum src 0 c.fieldJob) })
    |> setBit (Reg.PWR_NEED (spare / 32)) (spare % 32) true

/-- The fields of job `j` reset and loaded again from its image (R359): tile by tile where the traffic of other running jobs
passes, as in R384. -/
def reloadJob (j : Nat) (c : Chip) : Chip :=
  let J := jobAt c j
  let others := runningJobs c - (if bit (runningJobs c) j then 2 ^ j else 0)
  c |> resetFields (trafficFields c others) (jobFields c j) |> loadPart J.image J.fields.toNat tileTypes

/-! ### Checkpoints (R241, R242, Table 8.2) -/

/-- The checkpoint entry of job `j` (Table 13.11). -/
def ckptEntry (c : Chip) (j : Nat) : Option (List Byte) :=
  (pieces 24 (sectionData (jobAt c j).image.ss 6)).find? (fun e => nAt e 0 1 == j)

/-- The entries of a tile's learnable rows, block by block. -/
def learnRows (c : Chip) (t : Nat) : List Nat :=
  (lrnBlocks c t).flatMap (fun b => (List.range b.rows).map (fun r => b.first + r))

/-- Bytes of the row of entry `i`: its W units. -/
def rowBytes (c : Chip) (t i : Nat) : Nat := 8 * slotUnits (axonWord c t i)

/-- Whether a record is a checkpoint of tile `t` of job `j` that may be used: its lengths and its CRC are right (R242). -/
def recordGood (t j : Nat) (r : List Byte) : Bool :=
  nAt r 0 2 == t && nAt r 2 1 == j && nAt r 16 4 + 32 == r.length && nAt r 20 4 == crc32 (r.drop 32)

/-- A row written into the slot that ROW_PTR names, with the other slot as its alternate (R242). -/
def restoreRow (t i : Nat) (us : List Byte) (c : Chip) : Chip :=
  let row := aRow (axonWord c t i)
  let alt := hAlt (unitAt c t row)
  let h := nAt us 0 8
  c |> loadBytes (unitAddr t row) us |> loadBytes (unitAddr t row) (toBytes 8 (h - hAlt h * 2 ^ 49 + alt * 2 ^ 49))

/-- Rows restored from a record's body, one behind the other; what is left of the body. -/
def restoreRows (t : Nat) : List Nat → List Byte → Chip → List Byte × Chip
  | [], bs, c => (bs, c)
  | i :: is, bs, c =>
    let n := rowBytes c t i
    restoreRows t is (bs.drop n) (restoreRow t i (bs.take n) c)

/-- Tile `t` restored from record `r` (R242). -/
def restoreTile (t : Nat) (r : List Byte) (c : Chip) : Chip :=
  let (bs, c) := restoreRows t (learnRows c t) (r.drop 32) c
  let cb (n : Nat) : Nat := unitAddr t (rfld c (Reg.SYN_CB_CFG t) 14 0 + 64 * n)
  c |> loadBytes (regionBase c t 5) (List.replicate (regionSize c t 5) 0#8)
    |> loadBytes (cb (bits (nAt r 14 2) 2 0)) (bs.take 512)
    |> when_ (bits (nAt r 14 2) 2 0 != bits (nAt r 14 2) 6 4) (loadBytes (cb (bits (nAt r 14 2) 6 4)) ((bs.drop 512).take 512))
    |> cbLoad t |> mowCountSet t (BitVec.ofNat 32 (nAt r 4 4))

/-- The learning tiles of a job after a restart, and where each stood when the job was loaded. -/
def restoreTiles (c : Chip) (j : Nat) : List Nat := (jobAt c j).placed.filter (fun t => rflag c (Reg.LRN_CTRL t) 0)

/-- The records of tile number `n` of `ts` in the copies of a checkpoint area: copy after copy, tile after tile (DESIGN CHOICE, log
entry 106). -/
def ckptRecords (c : Chip) (e : List Byte) (ts : List Nat) (n : Nat) : List (List Byte) :=
  let size (k : Nat) : Nat := ((ts.take k).map (ckptBytes c)).foldl (· + ·) 0
  (List.range (nAt e 1 1)).map (fun i => bytesAt c (nAt e 8 8 + i * size ts.length + size n) (ckptBytes c (ts.getD n 0)))

/-- The newest good record among several (R242). -/
def newestRecord (src j : Nat) (rs : List (List Byte)) : Option (List Byte) :=
  (rs.filter (recordGood src j)).foldl (fun m r => match m with
    | some x => if nAt x 8 6 < nAt r 8 6 then some r else m
    | none => some r) none

/-- The learnable rows of job `j` taken from its last checkpoint; without a good record a tile keeps its image's rows (R359,
R379). `src` gives the tile where each stood. -/
def restoreJobRows (j : Nat) (src : Nat → Nat) (c : Chip) : Chip :=
  match ckptEntry c j with
  | some e =>
    let ts := restoreTiles c j
    c |> forAll (fun t => putNum (Reg.LRN_CKPT_CFG t) (nAt e 2 2)) ts
      |> forAll (fun x c => match newestRecord (src x.1) j (ckptRecords c e ts x.2) with
          | some r => restoreTile x.1 r c
          | none => c) ts.zipIdx
  | none => c

/-! ### The restart (R359) -/

/-- Steps 2 to 4 of R359 for job `j`. -/
def restartWork (j : Nat) (c : Chip) : Chip :=
  let c := dropTiles (jobAt c j).faulty c
  match relocation c j with
  | some e => c |> relocate j e |> restoreJobRows j (movedTile (nAt e 1 1) (nAt e 0 1))
  | none => c |> reloadJob j |> restoreJobRows j id

/-- Job `j` is replaced by the image being applied: its restart is abandoned (Table 13.14). -/
def beingReplaced (c : Chip) (j : Nat) : Bool :=
  c.loading == 1 && (match c.accepted with | some I => bit I.replaces j | none => false)

/-- RESUME (R359): Bracken's steps 2 to 4 and the write of CHK_JOB_j_RESUME, when the write is accepted. -/
def resumeRestart (j : Nat) (v : Word) (c : Chip) : Chip :=
  match if beingReplaced c j then none else resumeStep c j v with
  | some q => c |> restartWork j |> acceptResume j q v
  | none => c

/-- RESUME_WRITE. -/
def execResumeWrite (j : Fin 16) (value : Word) (s : State) : Host.Outcome State Fault Refusal :=
  done s (resumeRestart j.val value s.chip)

end Sys2Proof.Machine
end

