-- ==== Sys2Proof/Machine/Broadcast.lean ====
section
/-!
DEFINITION. The control-store broadcast: half-block packets sent down the columns, and the repair rounds that complete a load
(R300, R302, R304).
-/

namespace Sys2Proof.Machine

/-! ### Half-blocks (Table 10.7) -/

/-- The body of half `q` of a load of `n` blocks, number 1, for rows `a` to `b`, with accumulator `expect`. -/
def halfBody (n q a b expect : Nat) (data : List Byte) : List DWord :=
  mkBody (1 + q / 2 * 2 ^ 8 + q % 2 * 2 ^ 13 + (n - 1) * 2 ^ 14 + a * 2 ^ 20 + b * 2 ^ 26) :: mkBody expect ::
    bodyFlits 19 (cut data (128 * q) 128 ++ List.replicate 5 0#8)

/-- EXPECT of a load (R302). -/
def expectOf (n : Nat) (data : List Byte) : Nat :=
  (List.range (2 * n)).foldl (fun x q => x.xor (crc32 ([BitVec.ofNat 8 (q / 2), BitVec.ofNat 8 (q % 2)] ++ cut data (128 * q) 128))) 0

/-- The control tap that the broadcast engine sends by, the first good one (DESIGN CHOICE, log entry 99). -/
def broadcastTap (c : Chip) : Option Nat := controlTaps.find? (tapGood c)

/-- One half-block packet on VC5, of maintenance operation `mop`, to tile `t`, for rows `a` to `b` (R300). -/
def sendHalf (mop t a b : Nat) (ld : Broadcast) (q : Nat) (c : Chip) : Chip :=
  match broadcastTap c with
  | some k =>
    let h := mkHead 7 (tapEpoch c k (rfld c Reg.SEAM_MGMT_EPOCH 0 0)) 0 0 (tileX t) (tileY t) 21 (tapTile k) (mop * 4096)
    sendPacket (tapTile k) 5 (packet 5 h (halfBody ld.blocks q a b (expectOf ld.blocks ld.data) ld.data)) c
  | none => c

/-- The halves of a load. -/
def loadHalves (ld : Broadcast) : List Nat := List.range (2 * ld.blocks)

/-- The runs of good routers of column `x`, each by its first and last row (R300). -/
def goodRuns (c : Chip) (x : Nat) : List (Nat × Nat) :=
  ((List.range 64).foldl (fun rs y =>
    if routerBad c (tileAt x y) then rs
    else match rs with
      | (a, b) :: tl => if b + 1 = y then (a, y) :: tl else (y, y) :: rs
      | [] => [(y, y)]) []).reverse

/-- Every half of every block down every column (R300). -/
def sendSpans (ld : Broadcast) (c : Chip) : Chip :=
  forAll (fun x c => forAll (fun r c => forAll (sendHalf 0 (tileAt x r.1) r.1 r.2 ld) (loadHalves ld) c) (goodRuns c x) c) (List.range 128) c

/-- TILE_LOAD packets to tile `t` (R304). -/
def sendTileLoads (t : Nat) (ld : Broadcast) (qs : List Nat) (c : Chip) : Chip :=
  forAll (sendHalf 1 t (tileY t) (tileY t) ld) qs c

/-- A broadcast of `n` blocks begins: its spans are sent. -/
def beginBroadcast (n : Nat) (data : List Byte) (c : Chip) : Chip :=
  let ld : Broadcast := { blocks := n, data := data, round := 0 }
  sendSpans ld { c with boot := { c.boot with load := some ld } }

/-! ### Repair (R304) -/

/-- Whether tile `t` is good, in a domain that is ON, and has EN set. -/
def expectsLoad (c : Chip) (t : Nat) : Bool := tileGood c t && domOn c (fieldOf t) && rflag c (Reg.CHN_BC_CTRL t) 0

/-- Whether tile `t` has completed its load. -/
def loadIsComplete (c : Chip) (t : Nat) : Bool := rflag c (Reg.CHN_BC_STATUS t) 31

/-- Whether the census of field `f` counts fewer tiles than it should. -/
def fieldShort (c : Chip) (f : Nat) : Bool := decide (loadCount c f < ((fieldTiles f).filter (expectsLoad c)).length)

/-- The fields whose count is short. -/
def shortFields (c : Chip) : List Nat := (List.range 64).filter (fieldShort c)

/-- Whether the load ends at this census: nothing is missing, or three rounds are done. -/
def loadEnded (c : Chip) (ld : Broadcast) : Bool := (shortFields c).isEmpty || ld.round == 3

/-- The missing halves sent to tile `t`, all of them after a CRC mismatch. -/
def repairTile (ld : Broadcast) (t : Nat) (c : Chip) : Chip :=
  if loadIsComplete c t then c
  else
    let missing := (loadHalves ld).filter (fun q => !bit (bcMap c t) q)
    if missing.isEmpty then c |> bcClear t |> sendTileLoads t ld (loadHalves ld) else sendTileLoads t ld missing c

/-- One repair round: every tile of a short field whose router answers. -/
def repairRound (ld : Broadcast) (c : Chip) : Chip :=
  c |> forAll (repairTile ld) (((shortFields c).flatMap fieldTiles).filter (fun t => !routerBad c t))
    |> fun c => { c with boot := { c.boot with load := some { ld with round := ld.round + 1 } } }

/-- The expected tiles that have not completed. -/
def unloaded (c : Chip) : List Nat := (List.range 8192).filter (fun t => expectsLoad c t && !loadIsComplete c t)

/-- The broadcast ends: tiles left incomplete are fenced and leave the floor plan (R304, R403). -/
def endBroadcast (ts : List Nat) (c : Chip) : Chip :=
  dropTiles ts { c with boot := { c.boot with load := none } }

end Sys2Proof.Machine
end

