-- ==== Sys2Proof/Machine/Boot.lean ====
section
/-!
DEFINITION. Starts, failed starts, fallow mode and the resets of the device (R391 to R415, R438, R525 to R527).
-/

namespace Sys2Proof.Machine

/-- The chip of a state changed. -/
def onChip (f : Chip → Chip) (s : State) : State := { s with chip := f s.chip }

/-! ### BOOT_STATUS (Table 14.11) -/

/-- STATE of the start. -/
def bootState (c : Chip) : Nat := rfld c Reg.BOOT_STATUS 31 28

/-- STATE set. -/
def setBoot (n : Nat) (c : Chip) : Chip := setFld Reg.BOOT_STATUS 31 28 n c

/-- Whether the running start is a warm start. -/
def isWarm (c : Chip) : Bool := rflag c Reg.BOOT_STATUS 27

/-- Whether a start is in progress and its stages can complete. -/
def starting (c : Chip) : Bool :=
  decide (bootState c < 10) && !c.boot.inReset && !c.power.tripped && !c.power.clkLost

/-- A start begins at stage 0. -/
def beginStart (warm retry : Bool) (c : Chip) : Chip :=
  let strap := rflag c Reg.BOOT_STATUS 26
  { c with boot := {} }
    |> putNum Reg.BOOT_STATUS (b2n warm * 2 ^ 27 + b2n strap * 2 ^ 26 + b2n retry * 2 ^ 25)
    |> putNum Reg.BOOT_ELAPSED 0 |> forAll (fun n => putNum (Reg.BOOT_STAGE_TIME n) 0) (List.range 10)

/-! ### What a device warm reset clears (Table 14.9) -/

/-- Whether the register at `a` keeps its value at a device warm reset: the always-on blocks but their own exceptions, and
MEM_CFG with the map mode (R438, R448, R453, R459, R497). -/
def keptAtWarm (a : Nat) : Bool :=
  let o := a - 0x200000000000
  decide (0x200000000000 ≤ a) &&
    (decide (o < 0x100000) || a == Reg.PWR_THERM_CFG || a == Reg.PWR_TEMP_MAX ||
      (decide (0x300000 ≤ o) && decide (o < 0x500000) && !(a == Reg.TMR_WDOG_CFG || a == Reg.TMR_WDOG_LEFT)) ||
      a == Reg.MEM_CFG || a == Reg.MEM_STATUS || (decide (0xE00000 ≤ o) && decide (o < 0xF00000)))

/-- Whether the byte at `a` keeps its contents at a device warm reset: LPDDR5X (R502) and the floor plan's record and edit
copy. -/
def byteAtWarm (a : Nat) : Bool := decide (a < 2 ^ 37) || (decide (0x200000000000 ≤ a) && decide (a < 0x200000100000))

/-- Every switched domain and the base logic at their reset state (R411, R420). The shared SRAM, powered from stage 0 on, is
cleared: a DESIGN CHOICE (log entry 73). -/
def switchedReset (s : State) : State :=
  let c := s.chip
  let c : Chip := { c with
    regs := c.regs.filter (fun x => keptAtWarm x.1), mem := c.mem.filter (fun x => byteAtWarm x.1)
    ecc := c.ecc.filter (fun x => byteAtWarm (8 * x.1)), lost := c.lost.filter (fun x => decide (100 ≤ x.1))
    tiles := [], routers := [], wires := [], creditWires := [], tapIn := [], tbs := [], sysref := {}, jobs := []
    fieldJob := [], seamCnt := [], seamLast := [], seamMax := [], loadCensus := [], drain := none, reports := []
    memQ := [], scrubAt := [], scrubPass := [], encs := [], streams := []
    host := { mem := c.host.mem }, links := [], gw := {}, fabJobs := []
    power := { tripped := c.power.tripped, clkLost := c.power.clkLost }
    lineWas := [], asked5 := [], shared := [], cores := [], staging := [], loading := 0, accepted := none
    drains := 0, drainEpoch := 0 }
  let s := thistleRestart { s with chip := c, irq := [] }
  onChip (forAll controllerReset (List.range 4)) { s with sec := takeFirmware 1 (takeFirmware 2 (takeFirmware 3 s.sec)) }

/-- A cold reset: everything but the flash and the fuses (Table 14.9). Host memory lies outside the device. -/
def coldReset (s : State) : State :=
  let c := s.chip
  let fresh : Chip := {
    fuses := c.fuses, flash := c.flash, free := c.free, host := { mem := c.host.mem }, readOut := c.readOut
    power := { clkLost := c.power.clkLost } }
  let fresh := fresh
    |> putNum Reg.BOOT_FAIL_COUNT c.flash.failCount |> putNum Reg.BOOT_FALLOW_CAUSE c.flash.fallowCause
    |> setReg Reg.BOOT_FAIL_HIST c.flash.hist |> setReg Reg.BOOT_CFG c.flash.cfg |> putNum Reg.BOOT_FP_REV c.flash.fpRev
    |> setReg Reg.MEM_CFG (reg c Reg.MEM_CFG) |> forAll loseController (List.range 4)
  let x := { s.sec with keys := [], scope := 0, derived := false, drbg := false }
  let x := takeFirmware 1 (takeFirmware 2 (takeFirmware 3 (takeFirmware 4 x)))
  { s with chip := noteInfo x fresh, irq := [], sec := x }

/-! ### Fallow mode (R408 to R410) -/

/-- Fallow mode entered: the always-on domain, the PCI Express port and core 0's domain are ON. -/
def enterFallow (cause : Nat) (s : State) : State :=
  let s := thistleUp (switchedReset s)
  let off (d : Nat) (c : Chip) : Chip := c |> setDom d 2 |> loseDomain d
  let s := { s with sec := takeFirmware 4 s.sec }
  onChip (fun c =>
    let c := { c with boot := {}, cores := [(0, 1)], flash := { c.flash with fallowCause := cause } }
    c |> forAll off ((List.range 96).filter (fun d => (d != 92 && d != 93) || c.power.tripped || c.power.clkLost))
      |> setBoot 11 |> setBit Reg.BOOT_STATUS 27 false |> putNum Reg.BOOT_FALLOW_CAUSE cause |> recordStart 2 0) s

/-- A failed start (R406): the count and the history go to flash; the third failure ends in fallow mode. -/
def startFail (cause : Nat) (s : State) : State :=
  let n := min 3 (rfld s.chip Reg.BOOT_FAIL_COUNT 1 0 + 1)
  let hist : Word := BitVec.ofNat 32 ((reg s.chip Reg.BOOT_FAIL_HIST).toNat * 256 + cause % 256)
  let s := onChip (fun c =>
    { c with flash := { c.flash with failCount := n, hist := hist }, boot := { c.boot with wdogPeriod := 0, load := none } }
      |> putNum Reg.BOOT_FAIL_COUNT n |> setReg Reg.BOOT_FAIL_HIST hist) s
  if n = 3 then enterFallow cause s else onChip (setBoot 12) s

/-- START_FAIL: a cause of Table 14.7 that belongs to no stage's end; only during a start. -/
def failNow (cause : Nat) (s : State) : State :=
  if decide (bootState s.chip < 10) && !s.chip.boot.inReset && decide (1 ≤ cause) && decide (cause ≤ 0x0B) then startFail cause s
  else s

/-! ### Stages (Tables 14.1 and 14.2) -/

/-- The causes that stage `n` can fail with. -/
def stageCauses (n : Nat) : List Nat :=
  match n with
  | 0 => [8] | 1 => [1, 6] | 2 => [2] | 3 => [3] | 4 => [4] | 5 => [5] | 6 => [5] | 8 => [9] | 9 => [0x0A] | _ => []

/-- The stage after stage `n`: a warm start has neither BIST and march nor the memory march. -/
def stageAfter (warm : Bool) (n : Nat) : Nat :=
  if warm then (match n with | 3 => 5 | 5 => 7 | _ => n + 1) else n + 1

/-- The defects that a stage of a cold start found enter the test map (R393). -/
def addTests (ds : List Word) (c : Chip) : Chip := { c with boot := { c.boot with testMap := c.boot.testMap ++ ds } }

/-- Stage 2: the fuses are read, domains that they or the licences exclude go OFF, with REQ as they start (R435), and after a cold
reset the recorder's ring is loaded from flash (R417, R459, Table 15.1). -/
def fuseRead (c : Chip) : Chip :=
  c |> raise Reg.FUSE_STATUS 31 |> putNum Reg.FUSE_SERIAL_LO (serialOf c % 2 ^ 32) |> putNum Reg.FUSE_SERIAL_HI (serialOf c / 2 ^ 32)
    |> setReg Reg.FUSE_VARIANT c.fuses.variant |> putNum Reg.FUSE_DEFECT_COUNT c.fuses.defects.length
    |> forAll (fun d c => if excluded c d then c |> setDom d 2 |> setFld (Reg.PWR_DOM d) 1 0 2 else c) (List.range 96)
    |> when_ (!isWarm c && c.recd.last == 0) mirrorReload

/-- Stage 5 begins: every controller that is not known bad trains or restores its saved values (R397, R501). -/
def memoryTrain (c : Chip) : Chip :=
  let es := badEntries c
  forAll (fun m => setFld (Reg.MEM_M_STATUS m) 31 29 (if listed es 9 m then 4 else 1)) (List.range 4) c

/-- Stage 5 ends: every controller that is not known bad is ready, with its saved values at a warm start unless
CONTROLLER_TRAINED has said otherwise (R397, R501, R502; log entry 201). -/
def memoryReady (c : Chip) : Chip :=
  let es := badEntries c
  forAll (fun m c =>
    if listed es 9 m then setFld (Reg.MEM_M_STATUS m) 31 29 4 c
    else if memState c m = 2 then c
    else c |> setFld (Reg.MEM_M_STATUS m) 31 29 2 |> setBit (Reg.MEM_M_STATUS m) 28 (isWarm c)) (List.range 4) c

/-- The march's repairs on controller `m` counted (R503): how many rows failed and could be repaired is a free value. -/
def notePpr (m : Nat) (c : Chip) : Chip :=
  let (w, c) := takeFree c
  setFld (Reg.MEM_M_PPR m) 15 0 (w.toNat % 65536) c

/-- The end of stage 6 of a cold start: the map mode, the repairs made, and every usable line zero (R496, R497, R503). -/
def memoryMap (c : Chip) : Chip :=
  let good := (List.range 4).filter (controllerGood c)
  let ecc := rflag c Reg.MEM_CFG 31
  let present := (good.map (fun m => 2 ^ (16 + m))).foldl (· + ·) 0
  c |> putNum Reg.MEM_STATUS (b2n ecc * 2 ^ 31 + b2n (good.length != 4) * 2 ^ 30 + present + good.length * (if ecc then 31 else 32))
    |> forAll (fun m => setFld (Reg.MEM_M_STATUS m) 31 29 4) ((List.range 4).filter (fun m => !controllerGood c m))
    |> forAll notePpr good
    |> zeroMemory

/-! ### Stage 8 (R300 to R304, R404) -/

/-- Bytes laid over others from offset `o`. -/
def overlay (o : Nat) (new old : List Byte) : List Byte := old.take o ++ new ++ old.drop (o + new.length)

/-- The common schedule set of an image: its ALL chunks of type SCHED. -/
def commonSchedules (I : Image) : List Byte :=
  ((sectionsOfType I 0x13).flatMap (fun x => ((chunkList x.2.data).getD []).filter (fun k => bit k.w0 15))).foldl
    (fun bs k => overlay k.w1 (k.data.take (8192 - k.w1)) bs) (List.replicate 8192 0#8)

/-- Blocks in use of a schedule set, at least one. -/
def blocksUsed (bs : List Byte) : Nat :=
  max 1 ((List.range 32).foldl (fun n i => if (cut bs (256 * i) 256).any (fun b => b != 0#8) then i + 1 else n) 0)

/-- The start image in flash, as it reads in the clear. -/
def startImageOf (s : State) : Image := { hdr := s.sec.startImage.take 128, ss := sectionsOf s.sec s.sec.startImage }

/-- Whether stage 9 runs (R394). -/
def autostarts (s : State) : Bool := rflag s.chip Reg.BOOT_CFG 31 && !s.sec.startImage.isEmpty

/-- Stage 8 begins: the broadcast of the common schedules, or of one block whose word 0 is END (R404). -/
def stageEight (s : State) : State :=
  let data := if autostarts s then commonSchedules (startImageOf s)
    else [0#8, 0#8, 0#8, 0xFC#8] ++ List.replicate 252 0#8
  onChip (beginBroadcast (blocksUsed data) data) s

/-- LOAD_CENSUS (R303, R304): the census and, while a broadcast runs, the round that follows it. A broadcast that leaves more than
BOOT_CFG.BC_FENCE_MAX tiles fenced fails the start (R403). -/
def censusRound (s : State) : State :=
  let s := onChip loadCensus s
  match s.chip.boot.load with
  | none => s
  | some ld =>
    if loadEnded s.chip ld then
      let left := unloaded s.chip
      let s := onChip (endBroadcast left) s
      if rfld s.chip Reg.BOOT_CFG 15 8 < left.length then failNow 9 s else s
    else onChip (repairRound ld) s

/-- Stage 9: the start image is verified and loaded; a rejected one fails the start with cause 0x0A. -/
def stageNine (s : State) : State :=
  let s := onChip (fun c => { c with boot := { c.boot with loaded := true }, askedGrants := latchGrants c }) s
  if autostarts s then
    let im := s.sec.startImage
    let I := startImageOf s
    match verifyCode s.sec s.chip s.chip.askedGrants im im.length with
    | (0, _, _) =>
      match loadCode s.chip I with
      | none => onChip (fun c => c |> noteImage s.sec im |> noteAccepted I |> applyImage I false) s
      | some r => startFail 0x0A (onChip (rejectImage I r false) s)
    | (code, i, d) => startFail 0x0A (onChip (verifyFailed code i d) s)
  else s

/-- What the end of stage `n` leaves, with the defects it found. -/
def stageEnd (n : Nat) (ds : List Word) (s : State) : State :=
  let warm := isWarm s.chip
  match n with
  | 1 => onChip (fun c => let c := showGrants s.sec.grants c; { c with loadGrants := latchGrants c }) (thistleUp s)
  | 2 => onChip (fun c => { fuseRead c with
      cores := [(0, 1)], boot := { c.boot with wdogPeriod := max 1 (rfld c Reg.BOOT_WDOG_CFG 15 0) } }) s
  | 3 | 4 => if warm then s else onChip (addTests ds) s
  | 5 =>
    let s := onChip (fun c => memoryReady (addTests (ds.filter (fun e => deType e == 9)) c)) s
    if warm then onChip buildPlan s else s
  | 6 => onChip (fun c => c |> addTests ds |> mergeTests |> buildPlan |> memoryMap) s
  | 9 => stageNine s
  | _ => s

/-- What stage `n` took, whether it completed or failed (R391). -/
def stageTime (n ms : Nat) (c : Chip) : Chip := c |> putNum (Reg.BOOT_STAGE_TIME n) ms |> count Reg.BOOT_ELAPSED ms

/-- START_STAGE_DONE (R391): the running stage has taken `ms`, or fails with one of its own causes. Stage 8 lasts until its
broadcast has ended (R304). -/
def stageDone (ms cause : Nat) (ds : List Word) (s : State) : State :=
  let n := bootState s.chip
  if !starting s.chip || (n == 9 && s.chip.boot.loaded) then s
  else if cause = 0 ∧ s.chip.boot.load.isSome then s
  else if cause ≠ 0 then
    if (stageCauses n).contains cause then
      startFail cause (onChip (fun c => c |> stageTime n ms |> when_ (cause == 2) (raise Reg.FUSE_STATUS 30)) s)
    else s
  else
    let warm := isWarm s.chip
    let s := onChip (stageTime n ms) s
    let s := stageEnd n ds s
    if n < 9 then
      if n = 5 ∧ (List.range 4).all (fun m => memState s.chip m == 4) then startFail 5 s
      else if n = 6 ∧ (List.range 4).all (fun m => !controllerGood s.chip m) then startFail 5 s
      else
        let s := onChip (fun c => c |> setBoot (stageAfter warm n) |> when_ (stageAfter warm n == 5) memoryTrain) s
        if n = 7 then stageEight s else s
    else s

/-- BOOT_READY (R395): accepted once stage 8 has completed. -/
def bootReady (ms : Nat) (c : Chip) : Chip :=
  if bootState c = 9 ∧ starting c then
    { c with flash := { c.flash with failCount := 0 }, boot := { c.boot with wdogPeriod := 0 } }
      |> setBoot 10 |> putNum Reg.BOOT_FAIL_COUNT 0 |> putNum Reg.BOOT_ELAPSED ms
      |> recordStart (b2n (isWarm c)) 0
  else c

/-- Whether the bring-up watchdog runs: from the start of stage 3 until READY (R407). -/
def wdogRuns (c : Chip) : Bool := decide (3 ≤ bootState c) && decide (bootState c < 10) && decide (0 < c.boot.wdogPeriod)

/-- BOOT_WDOG_KICK (R407): the period begins anew, with the length that BOOT_WDOG_CFG gives now. -/
def bootKick (c : Chip) : Chip :=
  if wdogRuns c then { c with boot := { c.boot with wdogPeriod := max 1 (rfld c Reg.BOOT_WDOG_CFG 15 0) } } else c

/-! ### Power-on, cold and warm resets (R406 to R410, R415, R525, R526) -/

/-- POWER_ON: PWR_GOOD rises, with the recovery strap as it stands (R410). -/
def powerOn (strap : Bool) (s : State) : State :=
  if s.chip.boot.inReset || bootState s.chip == 0 then
    let s := onChip (fun c => c |> beginStart false false |> setBit Reg.BOOT_STATUS 26 strap) (coldReset s)
    if strap then enterFallow 0x0C s else s
  else s

/-- START_HOLD_EXPIRE (R406): the hold after a failed start ends in a cold start of every domain but the always-on one. -/
def holdExpire (s : State) : State :=
  if bootState s.chip = 12 ∧ !s.chip.power.tripped then onChip (beginStart false true) (switchedReset s) else s

/-- A device warm reset and its start (R396, R415). -/
def warmStart (s : State) : State :=
  onChip (beginStart (!rflag s.chip Reg.BOOT_CFG 30) false) (switchedReset s)

/-- BOOT_WARM and RESET_N (R415). -/
def bootWarm (s : State) : State := if s.chip.boot.inReset || s.chip.power.tripped then s else warmStart s

/-- BOOT_COLD (R409, R415): in fallow mode without a new accepted image the failure count becomes 2. -/
def bootCold (s : State) : State :=
  if s.chip.boot.inReset || s.chip.power.tripped then s
  else
    let two := inFallow s.chip && !s.chip.boot.recovered
    let s := onChip (fun c => if two then { c with flash := { c.flash with failCount := 2 } } else c) s
    onChip (beginStart false false) (coldReset s)

/-- PWR_GOOD falls: a cold reset, which holds until PWR_GOOD rises. -/
def pwrGoodFall (s : State) : State :=
  onChip (fun c => { c with boot := { c.boot with inReset := true } }) (coldReset s)

/-- SYS_CLK is lost (R525). -/
def sysClkLoss (s : State) : State :=
  if s.chip.power.clkLost then s
  else
    let s := onChip (fun c => modPower (fun P => { P with clkLost := true }) (stripSupplies c)) s
    failNow 8 s

/-- SYS_CLK has been within its limits for 10 ms (R525). -/
def sysClkRestored (s : State) : State :=
  if s.chip.power.clkLost then
    let n := bootState s.chip
    let s := onChip (modPower (fun P => { P with clkLost := false })) s
    if (n = 10 ∨ n = 11) ∧ !s.chip.power.tripped then warmStart s else s
  else s

/-- THERMAL_SAMPLE with its trip during a start (R391, R433). -/
def thermalNow (w e io : Int) (s : State) : State :=
  let was := s.chip.power.tripped
  let s := onChip (thermalSample w e io) s
  if !was && s.chip.power.tripped then failNow 0x0B s else s

/-! ### Resets of parts (R411 to R414, R438) -/

/-- BOOT_RST_STATUS.BUSY. -/
def rstBusy (c : Chip) : Bool := rflag c Reg.BOOT_RST_STATUS 31

/-- A refused reset (R412). -/
def rstRefused (c : Chip) : Chip := raise Reg.BOOT_FAULT 1 c

/-- A reset of KIND `k` of `target` in progress. -/
def rstBegun (k target : Nat) (c : Chip) : Chip := putNum Reg.BOOT_RST_STATUS (2 ^ 31 + k * 2 ^ 28 + target) c

/-- RST_TILE. -/
def rstTile (v : Word) (c : Chip) : Chip :=
  let t := fld v 12 0
  if !flag v 31 then c
  else if rstBusy c || (seqEn c t && !fenced c t) then rstRefused c
  else c |> tileReset t |> rstBegun 1 t

/-- Whether a running job holds field `f` or uses it (R412, R422). -/
def fieldInUse (c : Chip) (f : Nat) : Bool :=
  needed c f || (match numOf c.fieldJob f with
    | 0 => false
    | j + 1 => !(jobTimebases c j).isEmpty)

/-- RST_FIELD. -/
def rstField (v : Word) (c : Chip) : Chip :=
  let f := fld v 5 0
  if !flag v 31 then c
  else if rstBusy c || fieldInUse c f then rstRefused c
  else c |> fieldReset f |> rstBegun 2 f

/-- RST_DIE. -/
def rstDie (v : Word) (c : Chip) : Chip :=
  if !flag v 31 then c else if rstBusy c then rstRefused c else c |> dieReset |> rstBegun 3 0

/-- A control-cluster reset (Table 14.9): Bracken cores and the Thistle core restart; the cores of an ON domain start anew,
core 0 from its reset vector. -/
def clusterReset (s : State) : State :=
  let s := thistleRestart (clusterIrqReset s)
  let s := { s with sec := takeFirmware 1 (takeFirmware 3 s.sec) }
  onChip (fun c => { resetRegs Reg.TMR_WDOG_CFG (Reg.TMR_WDOG_LEFT + 4) c with cores := if domOn c 93 then [(0, 1)] else [] }
    |> rstBegun 4 0) s

/-- RST_CC. -/
def rstCc (v : Word) (s : State) : State :=
  if !flag v 31 then s else if rstBusy s.chip then onChip rstRefused s else clusterReset s

/-- RUNTIME_WDOG_EXPIRE (R438). -/
def runtimeExpire (s : State) : State :=
  if rflag s.chip Reg.TMR_WDOG_CFG 31 && bootState s.chip == 10 then clusterReset s else s

/-- RESET_DONE: the reset in progress completes and bad tiles are fenced (R413); else the lowest field whose wake waits for
its reset is ON (R420). -/
def resetDone (s : State) : State :=
  let c := s.chip
  if rstBusy c then
    let k := rfld c Reg.BOOT_RST_STATUS 30 28
    let t := rfld c Reg.BOOT_RST_STATUS 12 0
    let s := onChip (putNum Reg.BOOT_RST_STATUS 0) s
    match k with
    | 1 => onChip (fenceBad [t]) s
    | 2 => onChip (fenceBad (fieldTiles t)) s
    | 3 => onChip (fenceBad (List.range 8192)) s
    | _ => thistleUp s
  else match (List.range 64).find? (fun d => domState c d == 5) with
    | some d => onChip (fun c => c |> setDom d 0 |> fenceBad (fieldTiles d) |> actHeld d) s
    | none => s

/-! ### Meanings -/

/-- POWER_ON. -/
def execPowerOn (strap : Bool) (s : State) : Host.Outcome State Fault Refusal := .next (powerOn strap s)

/-- START_STAGE_DONE. -/
def execStartStageDone (ms cause : Nat) (defects : List Word) (s : State) : Host.Outcome State Fault Refusal :=
  .next (stageDone ms cause defects s)

/-- START_FAIL. -/
def execStartFail (cause : Nat) (s : State) : Host.Outcome State Fault Refusal := .next (failNow cause s)

/-- START_HOLD_EXPIRE. -/
def execStartHoldExpire (s : State) : Host.Outcome State Fault Refusal := .next (holdExpire s)

/-- START_TIME_LIMIT: READY has not come within 600 s or 5 s (R406). -/
def execStartTimeLimit (s : State) : Host.Outcome State Fault Refusal := .next (failNow 7 s)

/-- BOOT_WDOG_EXPIRE (R407). -/
def execBootWdogExpire (s : State) : Host.Outcome State Fault Refusal :=
  .next (if wdogRuns s.chip then failNow 7 s else s)

/-- LOAD_CENSUS. -/
def execLoadCensus (s : State) : Host.Outcome State Fault Refusal := .next (censusRound s)

/-- BOOT_WDOG_KICK. -/
def execBootWdogKick (s : State) : Host.Outcome State Fault Refusal := done s (bootKick s.chip)

/-- BOOT_READY. -/
def execBootReady (ms : Nat) (s : State) : Host.Outcome State Fault Refusal := done s (bootReady ms s.chip)

/-- BOOT_WARM. -/
def execBootWarm (s : State) : Host.Outcome State Fault Refusal := .next (bootWarm s)

/-- BOOT_COLD. -/
def execBootCold (s : State) : Host.Outcome State Fault Refusal := .next (bootCold s)

/-- RESET_N_LOW: the pulse as a whole; the warm start begins at its rising edge. -/
def execResetNLow (s : State) : Host.Outcome State Fault Refusal :=
  .next (if s.chip.boot.inReset || s.chip.power.tripped then s else warmStart s)

/-- PWR_GOOD_FALL. -/
def execPwrGoodFall (s : State) : Host.Outcome State Fault Refusal := .next (pwrGoodFall s)

/-- RST_TILE. -/
def execRstTile (value : Word) (s : State) : Host.Outcome State Fault Refusal := done s (rstTile value s.chip)

/-- RST_FIELD. -/
def execRstField (value : Word) (s : State) : Host.Outcome State Fault Refusal := done s (rstField value s.chip)

/-- RST_DIE. -/
def execRstDie (value : Word) (s : State) : Host.Outcome State Fault Refusal := done s (rstDie value s.chip)

/-- RST_CC. -/
def execRstCc (value : Word) (s : State) : Host.Outcome State Fault Refusal := .next (rstCc value s)

/-- RESET_DONE. -/
def execResetDone (s : State) : Host.Outcome State Fault Refusal := .next (resetDone s)

/-- THERMAL_SAMPLE. -/
def execThermalSample (west east io : Int) (s : State) : Host.Outcome State Fault Refusal := .next (thermalNow west east io s)

/-- SYS_CLK_LOSS. -/
def execSysClkLoss (s : State) : Host.Outcome State Fault Refusal := .next (sysClkLoss s)

/-- SYS_CLK_RESTORED. -/
def execSysClkRestored (s : State) : Host.Outcome State Fault Refusal := .next (sysClkRestored s)

/-- RUNTIME_WDOG_EXPIRE. -/
def execRuntimeWdogExpire (s : State) : Host.Outcome State Fault Refusal := .next (runtimeExpire s)

end Sys2Proof.Machine
end

