-- ==== Sys2Proof/Machine/HostIf.lean ====
section
/-!
DEFINITION. The host interface: PCI Express link, command queues and their commands, function-level reset, recovery transfer
(R478, R482 to R488, R491 to R494, Table 18.6).
-/

namespace Sys2Proof.Machine

/-- The host interface's own state changed. -/
def modHost (f : HostSide → HostSide) (c : Chip) : Chip := { c with host := f c.host }

/-- HIF block base. -/
def hifBase : Nat := 0x200000800000

/-- Address of the recovery buffer (Table 18.3). -/
def rcvBase : Nat := 0x200000840000

/-- Address of slot `i` of queue `q` in the command window (Table 18.3). -/
def slotAddr (q i : Nat) : Nat := 0x200000880000 + 0x4000 * q + 64 * (i % 256)

/-! ### Command queues (R485 to R488) -/

/-- HIF_CQ_q_CFG.EN. -/
def cqOn (c : Chip) (q : Nat) : Bool := rflag c (Reg.HIF_CQ_CFG q) 31

/-- SEQ of record `n` (R485). -/
def recordSeq (n : Nat) : Nat := n % 255 + 1

/-- Records of queue `q` posted while the next slot holds its SEQ (R485). -/
def postRecords (q : Nat) : Nat → Chip → Chip
  | 0, c => c
  | k + 1, c =>
    let n := numOf c.host.tail q
    if (byteAt c (slotAddr q n + 63)).toNat = recordSeq n then
      postRecords q k (modHost (fun H => { H with tail := setNum q (n + 1) H.tail }) c)
    else c

/-- The next slots of an enabled queue checked (R485). -/
def postQueue (q : Nat) (c : Chip) : Chip := if cqOn c q then postRecords q 256 c else c

/-- COMMAND_POST: the host writes a record into its slot; in fallow mode the command window is not served (R482). -/
def commandPost (q slot : Nat) (bs : List Byte) (c : Chip) : Chip :=
  if hostReached c && !inFallow c then c |> putBytes (slotAddr q slot) (bs.take 64) |> postQueue q else c

/-- A write of HIF_CQ_q_CFG: enabling sets HEAD and CPL_WPTR to 0, and record 0 is awaited (R485). -/
def writeCqCfg (q : Nat) (v : Word) (c : Chip) : Chip :=
  let on := cqOn c q
  plainWrite (Reg.HIF_CQ_CFG q) v c |> when_ (flag v 31 && !on) (fun c => c
    |> modHost (fun H => { H with head := setNum q 0 H.head, tail := setNum q 0 H.tail, cpl := setNum q 0 H.cpl })
    |> postQueue q)

/-- CQ_TAKE (R486): Bracken takes the oldest posted record; a write by the host is ignored. -/
def cqTake (who : Initiator) (q : Nat) (c : Chip) : Chip :=
  let n := numOf c.host.head q
  if who == .host || !cqOn c q || decide (numOf c.host.tail q ≤ n) then c
  else modHost (fun H => { H with
    head := setNum q (n + 1) H.head
    taken := H.taken ++ [{ queue := q, record := bytesAt c (slotAddr q n) 64, phase := 0, live := true }] }) c

/-- The oldest command of queue `q` that is taken and not completed. -/
def takenOf (c : Chip) (q : Nat) : Option Taken := c.host.taken.find? (fun x => x.queue == q)

/-- The first element that satisfies `p` removed. -/
def dropFirst {α : Type} (p : α → Bool) : List α → List α
  | [] => []
  | x :: xs => if p x then xs else x :: dropFirst p xs

/-- The first element that satisfies `p` changed. -/
def mapFirst {α : Type} (p : α → Bool) (f : α → α) : List α → List α
  | [] => []
  | x :: xs => if p x then f x :: xs else x :: mapFirst p f xs

/-- CQ_COMPLETE (R487, R488): word 3 of HIF_CQ_q_CPL_DATA sends the completion, when the queue is enabled; a write by the
host is ignored. -/
def cqComplete (who : Initiator) (q : Nat) (v : Word) (c : Chip) : Chip :=
  if who == .host then c
  else
    let x := takenOf c q
    let c := c |> setReg (Reg.HIF_CQ_CPL_DATA q 3) v |> modHost (fun H => { H with taken := dropFirst (fun x => x.queue == q) H.taken })
    if cqOn c q && hostReached c then
      let n := numOf c.host.cpl q
      let a := (reg c (Reg.HIF_CQ_CPL_HI q)).toNat * 2 ^ 32 + rfld c (Reg.HIF_CQ_CPL_LO q) 31 12 * 4096 + 16 * (n % 256)
      let notify := match x with | some x => bit (nAt x.record 2 1) 0 | none => false
      c |> hostWrite a ((List.range 4).flatMap (fun i => toBytes 4 (reg c (Reg.HIF_CQ_CPL_DATA q i)).toNat))
        |> modHost (fun H => { H with cpl := setNum q (n + 1) H.cpl })
        |> when_ notify (msixRequest (rfld c (Reg.HIF_CQ_CFG q) 29 24))
    else c

/-! ### Commands (Table 18.6) -/

/-- `n` bytes at offset `o` of a command's ARGS. -/
def cmdArg (x : Taken) (o n : Nat) : Nat := nAt x.record (8 + o) n

/-- A command's action is complete: words 0 to 2 of its completion, or nothing when its completion is not to be written
(R493). -/
def endAction (x : Taken) (status result : Nat) (c : Chip) : Chip :=
  let q := x.queue
  if x.live then
    c |> modHost (fun H => { H with taken := mapFirst (fun y => y.queue == q) (fun y => { y with phase := 2 }) H.taken })
      |> putNum (Reg.HIF_CQ_CPL_DATA q 0) (nAt x.record 4 4)
      |> putNum (Reg.HIF_CQ_CPL_DATA q 1) (status * 65536 + nAt x.record 0 2)
      |> putNum (Reg.HIF_CQ_CPL_DATA q 2) result
  else modHost (fun H => { H with taken := dropFirst (fun y => y.queue == q) H.taken }) c

/-- A command's action has begun and is not complete. -/
def beginAction (q : Nat) (c : Chip) : Chip :=
  modHost (fun H => { H with taken := mapFirst (fun y => y.queue == q) (fun y => { y with phase := 1 }) H.taken }) c

/-- The action of queue `q`'s oldest taken command, when its OP is `op` and the action is not complete. -/
def runCommand (op q : Nat) (f : Taken → Chip → Chip) (c : Chip) : Chip :=
  match takenOf c q with
  | some x => if nAt x.record 0 2 = op ∧ x.phase < 2 then f x c else c
  | none => c

/-- A 37-bit address or length written to a register pair. -/
def setPair (lo hi n : Nat) (c : Chip) : Chip := c |> plainWrite lo (BitVec.ofNat 32 n) |> plainWrite hi (BitVec.ofNat 32 (n / 2 ^ 32))

/-- IMG_LOAD's result: code and section index of IMG_RESULT. -/
def resultWord (c : Chip) : Nat := rfld c Reg.IMG_RESULT 15 0 * 65536 + rfld c Reg.IMG_RESULT 31 24

/-- Whether Bracken still works on another IMG_LOAD. -/
def loadBusy (c : Chip) : Bool := c.loading != 0 || c.host.taken.any (fun x => nAt x.record 0 2 == 1 && x.phase == 1)

/-- IMG_LOAD (R384), one load after the other: VERIFY; then the load checks; then the apply, as far as it can go now. -/
def cmdImgLoad (x : Taken) (c : Chip) : Chip :=
  if x.phase = 0 then
    if imgState c = 1 ∨ imgState c = 2 then endAction x 3 0 (verifyBegin c)
    else if loadBusy c then c
    else
      c |> setPair Reg.IMG_SRC_LO Reg.IMG_SRC_HI (cmdArg x 0 8) |> setPair Reg.IMG_LEN_LO Reg.IMG_LEN_HI (cmdArg x 8 8)
        |> setPair Reg.IMG_PLAIN_LO Reg.IMG_PLAIN_HI (cmdArg x 16 8) |> verifyBegin |> beginAction x.queue
  else if c.loading ≠ 0 then
    let c := continueImage true c
    if c.loading = 0 then endAction x 0 0 c else c
  else match imgState c with
    | 1 => c
    | 2 =>
      let c := acceptImage (stagedImage c) true c
      if c.loading = 0 then endAction x 4 (resultWord c) c else c
    | 3 => endAction x 4 (rfld c Reg.IMG_STATUS 27 16 * 65536 + rfld c Reg.IMG_STATUS 7 0) c
    | _ => endAction x 4 0x21 c

/-- The clock floors of the jobs that run and are not in `js` reported to the power controller, the lowest where none does
(R378). -/
def floorsWithout (js : List Nat) (c : Chip) : Chip :=
  let left := js.foldl (fun m j => if bit m j then m - 2 ^ j else m) (runningJobs c)
  writeFloors (floorBeside c left false 3) (floorBeside c left true 3) c

/-- JOB_STOP (R66, R378). -/
def cmdJobStop (x : Taken) (c : Chip) : Chip :=
  let js := (setBits 16 (cmdArg x 0 2)).filter (fun j => !(jobTimebases c j).isEmpty)
  c |> forAll (stopJob true) js |> floorsWithout js |> endAction x 0 ((js.map (2 ^ ·)).foldl (· + ·) 0)

/-- The label tile of stream `p`'s job (R230): its lowest tile that learns and has labels configured. -/
def labelTile (c : Chip) (p : Nat) : Option Nat :=
  match (List.range 16).find? (fun j => (jobAt c j).present && (jobAt c j).streams.toNat.testBit p) with
  | none => none
  | some j => (jobTiles c j).find? (fun t => rflag c (Reg.LRN_CTRL t) 0 &&
      (reg c (Reg.LRN_LABEL_CFG t) != 0#32 || reg c (Reg.LRN_LABEL_NRN t) != 0#32))

/-- LABEL (R230). -/
def cmdLabel (x : Taken) (c : Chip) : Chip :=
  match labelTile c (cmdArg x 0 1) with
  | none => endAction x 2 0 c
  | some t =>
    if rfld c (Reg.LRN_LABEL_NRN t) 30 26 < cmdArg x 1 1 then endAction x 2 0 c
    else c |> labelPush t (BitVec.ofNat 32 (cmdArg x 2 2 * 65536 + cmdArg x 1 1)) |> endAction x 0 0

/-- The learning tiles of job `j`. -/
def learners (c : Chip) (j : Nat) : List Nat := (jobTiles c j).filter (fun t => rflag c (Reg.LRN_CTRL t) 0)

/-- FREEZE (R223): LRN_CTRL.FREEZE on the learning tiles of each job. -/
def cmdFreeze (x : Taken) (c : Chip) : Chip :=
  let js := (setBits 16 (cmdArg x 0 2)).filter (fun j => !(learners c j).isEmpty)
  let b := cmdArg x 2 1 == 1
  c |> forAll (fun j c => forAll (fun t => setBit (Reg.LRN_CTRL t) 1 b) (learners c j) c) js
    |> endAction x 0 ((js.map (2 ^ ·)).foldl (· + ·) 0)

/-- LICENCE (R390): the record is loaded once no other is being verified. -/
def cmdLicence (x : Taken) (c : Chip) : Chip :=
  if licState c = 1 then c
  else if x.phase = 0 then
    c |> setPair Reg.LIC_ADDR_LO Reg.LIC_ADDR_HI (cmdArg x 0 8) |> plainWrite Reg.LIC_LEN (BitVec.ofNat 32 (cmdArg x 8 4))
      |> licBegin |> beginAction x.queue
  else
    let r := rfld c Reg.LIC_STATUS 7 0
    endAction x (if r = 0 then 0 else 4) r c

/-- DEVICE_STATE (R428, R429): PWR_DEV_CMD, once no other change is in progress. -/
def cmdDeviceState (x : Taken) (c : Chip) : Chip :=
  let g := cmdArg x 0 1
  let joint := bit (cmdArg x 1 1) 0
  let t16 := cmdArg x 2 2
  if 2 < g then endAction x 2 0 c
  else if devBusy c then c
  else if g = 0 then c |> devRun |> endAction x 0 0
  else
    let id := if devState c = g then 0 else deviceRefuser c joint t16
    c |> devEnterState g (BitVec.ofNat 32 (2 ^ 31 + g * 2 ^ 29 + b2n joint * 2 ^ 28 + t16)) |> endAction x (if id = 0 then 0 else 3) id

/-! ### Function-level reset and the link (R491, R493) -/

/-- HIF_ registers that a function-level reset keeps: HIF_PCI_ID, HIF_CTRL, HIF_FLR_COUNT, and the link's own status. -/
def keptAtFlr (a : Nat) : Bool :=
  a == Reg.HIF_PCI_ID || a == Reg.HIF_CTRL || a == Reg.HIF_FLR_COUNT || a == Reg.HIF_LINK_STATUS

/-- Stream `p`'s held records dropped and counted, and those to come until its ring is enabled (R491, R493). -/
def dropHeld (p : Nat) (c : Chip) : Chip :=
  let n := (streamAt c p).out.length
  c |> modStream p (fun S => { S with out := [], dropping := true, notified := false }) |> forAll (fun _ => dropRecord p) (List.range n)

/-- A function-level reset (R493). -/
def flr (c : Chip) : Chip :=
  let keep (x : Taken) : Bool := decide (x.phase < 2) && decide (nAt x.record 0 2 ≤ 6)
  { c with
    regs := c.regs.filter (fun x => !(decide (hifBase ≤ x.1) && decide (x.1 < rcvBase)) || keptAtFlr x.1)
    host := { mem := c.host.mem, taken := (c.host.taken.filter keep).map (fun x => { x with live := false }) } }
    |> count Reg.HIF_FLR_COUNT 1
    |> forAll dropHeld (List.range 16)

/-- The link is down. -/
def linkDown (c : Chip) : Chip := putNum Reg.HIF_LINK_STATUS 0 c

/-- PCIE_LINK_DOWN (R491). -/
def pcieDown (c : Chip) : Chip := if rflag c Reg.HIF_LINK_STATUS 0 then c |> linkDown |> raise Reg.HIF_FAULT 3 else c

/-- PCIE_LINK_UP (R491, R484): held records and pending messages go out. -/
def pcieUp (rate width : Nat) (c : Chip) : Chip :=
  if domOn c 92 && decide (3 ≤ rate) && decide (rate ≤ 5) && (width == 1 || width == 2 || width == 4) then
    c |> putNum Reg.HIF_LINK_STATUS (rate * 65536 + width * 256 + 3)
      |> forAll (fun p => forAll (fun _ => ringWrite p) (List.range 64)) (List.range 16) |> msixFlush
  else c

/-! ### Recovery transfer (R494) -/

/-- RECOVERY_PIECE: in fallow mode a piece goes to the staging area; the last one hands the object to the Thistle core. -/
def recoveryPiece (v : Word) (s : State) : State :=
  let c := s.chip
  if inFallow c && flag v 31 then
    let n := min 262144 (fld v 18 0)
    let at_ := fld v 29 19 * 262144
    let old := fitTo at_ c.staging
    let staging := old ++ bytesAt c rcvBase n ++ c.staging.drop (at_ + n)
    let c := { c with staging := staging }
    if flag v 30 then
      let len := at_ + n
      let s := { s with chip := { c with staging := [] } }
      let (r, s) := if secState c = 2 then ((5, 0, 0), s) else updateFirmware (staging.take len) len s
      onChip (putNum Reg.HIF_RCV_STATUS (if r.1 = 0 then 3 * 2 ^ 29 else 4 * 2 ^ 29 + r.1)) s
    else { s with chip := putNum Reg.HIF_RCV_STATUS (2 * 2 ^ 29) c }
  else s

/-! ### Meanings -/

/-- COMMAND_POST. -/
def execCommandPost (q : Fin 32) (slot : Fin 256) (record : List Byte) (s : State) : Host.Outcome State Fault Refusal :=
  done s (commandPost q.val slot.val record s.chip)

/-- CQ_TAKE. -/
def execCqTake (who : Initiator) (q : Fin 32) (s : State) : Host.Outcome State Fault Refusal := done s (cqTake who q.val s.chip)

/-- CQ_COMPLETE. -/
def execCqComplete (who : Initiator) (q : Fin 32) (value : Word) (s : State) : Host.Outcome State Fault Refusal :=
  done s (cqComplete who q.val value s.chip)

/-- NOP. -/
def execCmdNop (q : Fin 32) (s : State) : Host.Outcome State Fault Refusal :=
  done s (runCommand 0 q.val (fun x => endAction x 0 0) s.chip)

/-- IMG_LOAD. -/
def execCmdImgLoad (q : Fin 32) (s : State) : Host.Outcome State Fault Refusal := done s (runCommand 1 q.val cmdImgLoad s.chip)

/-- JOB_STOP. -/
def execCmdJobStop (q : Fin 32) (s : State) : Host.Outcome State Fault Refusal := done s (runCommand 2 q.val cmdJobStop s.chip)

/-- LABEL. -/
def execCmdLabel (q : Fin 32) (s : State) : Host.Outcome State Fault Refusal := done s (runCommand 3 q.val cmdLabel s.chip)

/-- FREEZE. -/
def execCmdFreeze (q : Fin 32) (s : State) : Host.Outcome State Fault Refusal := done s (runCommand 4 q.val cmdFreeze s.chip)

/-- LICENCE. -/
def execCmdLicence (q : Fin 32) (s : State) : Host.Outcome State Fault Refusal := done s (runCommand 5 q.val cmdLicence s.chip)

/-- DEVICE_STATE. -/
def execCmdDeviceState (q : Fin 32) (s : State) : Host.Outcome State Fault Refusal :=
  done s (runCommand 6 q.val cmdDeviceState s.chip)

/-- APERTURE_BASE_WRITE (R481): later BAR2 accesses use it. -/
def execApertureBaseWrite (value : Word) (s : State) : Host.Outcome State Fault Refusal :=
  done s (plainWrite Reg.HIF_APERTURE_BASE value s.chip)

/-- FUNCTION_LEVEL_RESET. -/
def execFunctionLevelReset (s : State) : Host.Outcome State Fault Refusal := done s (flr s.chip)

/-- PERST_N (R493): as a function-level reset; the link trains anew. -/
def execPerstN (s : State) : Host.Outcome State Fault Refusal := done s (s.chip |> flr |> linkDown)

/-- RECOVERY_PIECE. -/
def execRecoveryPiece (value : Word) (s : State) : Host.Outcome State Fault Refusal := .next (recoveryPiece value s)

/-- PCIE_LINK_DOWN. -/
def execPcieLinkDown (s : State) : Host.Outcome State Fault Refusal := done s (pcieDown s.chip)

/-- PCIE_LINK_UP. -/
def execPcieLinkUp (rate width : Nat) (s : State) : Host.Outcome State Fault Refusal := done s (pcieUp rate width s.chip)

end Sys2Proof.Machine
end

