-- ==== Sys2Proof/Machine/RegRead.lean ====
section
/-!
DEFINITION. Register reads: the registers that show state kept elsewhere, the memories of the control space, and what a read
does (R16 to R19, R444, R454, R477, R534 to R538).
-/

namespace Sys2Proof.Machine

/-! ### Tile windows -/

/-- SEQ_STATE of Table 3.12. -/
def seqCode : SeqMode → Nat
  | .stopped => 0 | .waitTick => 1 | .executing => 2 | .waiting => 3 | .ended => 4 | .fault => 5 | .fenced => 6

/-- TILE_STATUS (Table 3.12): a fence that an illegal word set shows as the fault. -/
def tileStatus (c : Chip) (t : Nat) : Nat :=
  let q := (tile c t).seq
  (if fenced c t && q.mode != .fault then 6 else seqCode q.mode) * 2 ^ 29 + openParity c t % 2 * 2 ^ 28 + ringHead c t * 2 ^ 26 + q.pc % 2048

/-- TILE_EQ_STATUS (Table 3.16). -/
def eqStatus (c : Chip) (t : Nat) : Nat := (tile c t).evq.spillLen * 65536 + (tile c t).evq.queue.length

/-- NRN_STATUS (Table 4.10); the carry is one step of the model. -/
def nrnStatus (c : Chip) (t : Nat) : Nat :=
  let N := (tile c t).nrn
  b2n (N.updLeft.isSome || !N.emitq.isEmpty || !N.emitPend.isEmpty) * 2 ^ 31 + N.unionLeft % 4 * 2 ^ 28 +
    N.carryLines % 512 * 65536 + N.activeLines % 512

/-- NRN_BMP_w: word `w` of the bitmap that NRN_BMP_SEL selects (Table 4.12). -/
def nrnBitmap (c : Chip) (t w : Nat) : Nat :=
  let N := (tile c t).nrn
  let k := rfld c (Reg.NRN_BMP_SEL t) 2 0
  let v := if k < 2 then bmp N.acc k else if k < 5 then bmp N.upd (k - 2) else bmp N.pst (k - 5)
  v.toNat / 2 ^ (32 * w) % 2 ^ 32

/-- SYN_STATUS (Table 5.10). -/
def synStatus (c : Chip) (t : Nat) : Nat :=
  let S := (tile c t).syn
  let st := if S.cbLoading then 4 else if S.fetching.isSome then 1
    else match S.run with
      | some g => if g.streamed && (S.pwait != 0 || S.wq.isEmpty || S.sq.isEmpty) then 3 else 2
      | none => 0
  let entry := match S.fetching, S.run with
    | some (_, r, _), _ => r.index
    | none, some g => g.entry
    | none, none => S.entry
  st * 2 ^ 29 + b2n S.cbValid * 2 ^ 28 + (b2n S.run.isSome + b2n S.wait.isSome) * 2 ^ 26 + entry % 2048

/-- SYN_STRM_OUT: pairs requested and not yet consumed. -/
def strmOut (c : Chip) (t : Nat) : Nat :=
  match (tile c t).syn.run with
  | some g => (g.requested - g.consumed) % 8
  | none => 0

/-- LRN_LABEL_STATUS. -/
def labelStatus (c : Chip) (t : Nat) : Nat :=
  let l := (tile c t).lrn.labels
  ((l.head?.map (fun x => x.1)).getD 0) % 65536 * 65536 + l.length

/-- LRN_STATUS (Table 8.5). A TRACE_STEP word is one step of the model, so STATE 1 is never seen. -/
def lrnStatus (c : Chip) (t : Nat) : Nat :=
  let L := (tile c t).lrn
  let st := if L.mowLeft.isSome then 2 else if L.heldFb then 4 else if skipping c t then 5
    else if L.incs.isEmpty then 0 else 3
  st * 2 ^ 29 + b2n (rflag c (Reg.LRN_STATUS t) 28) * 2 ^ 28 + L.epochPos % 4096 * 65536 + L.last16 % 65536

/-- RTR_STATUS (Table 9.15): the stored fences beside what the router holds. -/
def rtrStatus (c : Chip) (t : Nat) : Nat :=
  let held (e : Nat) : Bool := (heldFlits c t).any (fun f => f.epoch == e)
  b2n (hasTapPort c t) * 2 ^ 31 + b2n (routerEmpty c t) * 2 ^ 30 + b2n (held 1) * 2 ^ 29 + b2n (held 0) * 2 ^ 28 +
    rfld c (Reg.RTR_STATUS t) 13 8 * 256 + rfld c (Reg.RTR_STATUS t) 5 0

/-- Three bits per VC. -/
def perVc (f : Nat → Nat) : Nat := ((List.range 6).map (fun v => f v * 8 ^ v)).foldl (· + ·) 0

/-- The register at window offset `o` of tile `t` that shows state kept elsewhere. -/
def tileView (c : Chip) (t a : Nat) : Option Nat :=
  if a = Reg.TILE_ID t then some (fieldOf t * 2 ^ 26 + tileY t * 2 ^ 20 + tileX t * 2 ^ 13 + t)
  else if a = Reg.TILE_STATUS t then some (tileStatus c t)
  else if a = Reg.TILE_EQ_STATUS t then some (eqStatus c t)
  else if a = Reg.NRN_STATUS t then some (nrnStatus c t)
  else if a = Reg.SYN_STATUS t then some (synStatus c t)
  else if a = Reg.SYN_STRM_OUT t then some (strmOut c t)
  else if a = Reg.LRN_STATUS t then some (lrnStatus c t)
  else if a = Reg.LRN_LABEL_STATUS t then some (labelStatus c t)
  else if a = Reg.RTR_STATUS t then some (rtrStatus c t)
  else if a = Reg.CHN_STATUS t then some (min 2 (sendBusy c t) * 16 + (tile c t).chn.staging.length % 8)
  else match rowIndex a (Reg.NRN_BMP t 0) 4 32 with
    | some w => some (nrnBitmap c t w)
    | none => match rowIndex a (Reg.RTR_CREDIT t 0) 4 6 with
      | some q => some (if portPresent c t q then perVc (creditOf c t q) else 0)
      | none => match rowIndex a (Reg.RTR_OCC t 0) 4 6 with
        | some p => some (perVc (fun v => (bufAt c t p v).length))
        | none => (rowIndex a (Reg.CHN_RX_STAT t 0) 16 64).map (fun n =>
            rfld c (Reg.CHN_RX_STAT t n) 23 16 * 65536 +
              ringUsed (rxSize c t n) (rfld c (Reg.CHN_RX_WPTR t n) 14 0) (rfld c (Reg.CHN_RX_RPTR t n) 14 0))

/-! ### Control space -/

/-- Millivolts of a point code (Table 15.7). -/
def pointMillivolts (p : Nat) : Nat := match p with | 0 => 800 | 1 => 740 | 2 => 680 | _ => 600

/-- Row link clock in MHz: half the clock of the slower half (R32, Table 15.7). -/
def rowClock (c : Chip) : Nat :=
  match max (halfPoint c false) (halfPoint c true) with | 0 => 1300 | 1 => 1100 | 2 => 900 | _ => 650

/-- Entry `i` of a list of defect entries; a selector beyond it shows a reserved TYPE (R417). -/
def defectWord (es : List Word) (i : Nat) : Nat := (es.getD i 0xF0000000#32).toNat

/-- Bits 0 to 15 of a property of 16 things. -/
def mask16 (f : Nat → Bool) : Nat := ((List.range 16).map (fun j => b2n (f j) * 2 ^ j)).foldl (· + ·) 0

/-- The table and the half that a data register of the gateways' tables is: outbound or key table, high or low half. -/
def tableHalf (a : Nat) : Option (Bool × Bool) :=
  if a = Reg.GW_KT_DATA_LO then some (false, false)
  else if a = Reg.GW_KT_DATA_HI then some (false, true)
  else if a = Reg.GW_OUT_DATA_LO then some (true, false)
  else if a = Reg.GW_OUT_DATA_HI then some (true, true)
  else none

/-- The registers of stream ports, gateways, integrity block, seam, fuses and fields that show state kept elsewhere.
SEAM_STATUS shows a row clock once the clocks run, which they do not in stage 0 (DEDUCED, log entry 188). -/
def unitView (c : Chip) (a : Nat) : Option Nat :=
  if a = Reg.GW_STATUS then
    some (((List.range 4).map (fun d => b2n (linkState c (2 * d) == 3 || linkState c (2 * d + 1) == 3) * 2 ^ (28 + d))).foldl (· + ·) 0 +
      mask16 (fun j => rflag c (Reg.GW_JOB_CFG j) 31))
  else if a = Reg.CHK_STATUS then
    some (mask16 (fun j => (jobAt c j).restarting) * 65536 + mask16 (fun j => (jobAt c j).replay.isSome))
  else if a = Reg.SEAM_STATUS then
    some (if domOn c 95 && bootState c != 0 then
      rowClock c * 65536 + b2n (rflag c Reg.PWR_HALF_W 31 || rflag c Reg.PWR_HALF_E 31) else 0)
  else if a = Reg.SEAM_ROW_LAST then some (mapGet (fun _ => 0#32) c.seamLast (rfld c Reg.SEAM_ROW_SEL 5 0)).toNat
  else if a = Reg.SEAM_ROW_MAX then some (mapGet (fun _ => 0#32) c.seamMax (rfld c Reg.SEAM_ROW_SEL 5 0)).toNat
  else if a = Reg.FUSE_DEFECT_DATA then some (defectWord c.fuses.defects (rfld c Reg.FUSE_DEFECT_SEL 8 0))
  else if a = Reg.FUSE_MAP_COUNT then some c.flash.fieldMap.length
  else if a = Reg.FUSE_MAP_DATA then some (defectWord c.flash.fieldMap (rfld c Reg.FUSE_MAP_SEL 11 0))
  else if let some x := tableHalf a then some (tableView x.1 x.2 c)
  else if let some p := rowIndex a (Reg.ENC_PIPE_LAT 0) 0x10000 16 then some (pipeLatOf c p)
  else match rowIndex a (Reg.QNT_GROUP_SCALE 0) 0x10000 16 with
    | some p => some ((mapGet (fun _ => {}) c.encs p).scales.getD (rfld c (Reg.QNT_GROUP_SEL p) 7 0) 0)
    | none => match rowIndex a (Reg.QNT_GROUP_MAX 0) 0x10000 16 with
      | some p => some ((mapGet (fun _ => {}) c.encs p).lastMax.getD (rfld c (Reg.QNT_GROUP_SEL p) 7 0) 0)
      | none => (rowIndex a (Reg.PWR_FLD_VDD 0) 0x40000 64).map (fun f => pointMillivolts (halfPoint c (decide (4 ≤ f % 8))))

/-- The registers of the interrupt controller, receive channels and timers that show state kept elsewhere, for a reader
`who`. Target 4's registers read zero but for the power controller (R441). -/
def clusterView (v : List Service) (c : Chip) (who : Option Initiator) (a : Nat) : Option Nat :=
  if Reg.IRQ_PEND_SET 0 ≤ a ∧ a < Reg.IRQ_PEND_CLR 16 then some (reg c (Reg.IRQ_PEND 0 + (a - Reg.IRQ_PEND 0) % 64)).toNat
  else if Reg.IRQ_MASK_SET 0 ≤ a ∧ a < Reg.IRQ_MASK_CLR 16 then some (reg c (Reg.IRQ_MASK 0 + (a - Reg.IRQ_MASK 0) % 64)).toNat
  else if Reg.IRQ_T_THRESH 4 ≤ a ∧ a < Reg.IRQ_T_THRESH 4 + 16 ∧ who ≠ some .power then some 0
  else if a = Reg.TMR_RUN then some (mask16 (fun n => rflag c (Reg.TMR_CFG n) 31))
  else if a = Reg.TMR_SNAP then
    some (match who with | some w => (mapGet (fun _ => 0#32) c.snaps (snapBank w)).toNat | none => 0)
  else match rowIndex a (Reg.IRQ_LINE 0) 4 16 with
    | some w => some (lineWord c w)
    | none => match rowIndex a (Reg.IRQ_INSVC 0) 4 16 with
      | some w => some (serviceWord v w)
      | none => match rowIndex a (Reg.IRQ_FIELD 0 0) 4 256 with
        | some i => some (fieldWord c (i / 4) (i % 4))
        | none => match rowIndex a (Reg.IRQ_T_CLAIM 0) 0x100 6 with
          | some k => some ((candidate v c k).map (claimWord c)).toList.sum
          | none => match rowIndex a (Reg.IRQ_T_STATUS 0) 0x100 6 with
            | some k => some (targetStatus v c k)
            | none => (rowIndex a (Reg.CHN_CC_STAT 0) 16 64).map (fun n =>
                rfld c (Reg.CHN_CC_STAT n) 23 16 * 65536 + ccUsed c n)

/-- The owner of mailbox `m`: Bracken of mailbox 0, the host of mailbox 1 (R477). -/
def ownsMailbox (who : Option Initiator) (m : Nat) : Bool :=
  match who with
  | some (.core _) => m == 0
  | some .host => m == 1
  | _ => false

/-- The host interface's counters and the mailboxes of another owner. -/
def hostView (c : Chip) (who : Option Initiator) (a : Nat) : Option Nat :=
  if Reg.SEC_CMD 0 ≤ a ∧ a < Reg.SEC_INFO ∧ !ownsMailbox who ((a - Reg.SEC_CMD 0) / 0x100) then some 0
  else match rowIndex a (Reg.HIF_CQ_HEAD 0) 0x40 32 with
    | some q => some (numOf c.host.head q % 512)
    | none => match rowIndex a (Reg.HIF_CQ_TAIL 0) 0x40 32 with
      | some q => some (numOf c.host.tail q % 512)
      | none => (rowIndex a (Reg.HIF_CQ_CPL_WPTR 0) 0x40 32).map (fun q => numOf c.host.cpl q % 512)

/-- The floor plan record, its edit copy, the recovery buffer and the command window: memories of the control space. -/
def spaceMemory (a : Nat) : Bool :=
  let within (b n : Nat) : Bool := decide (b ≤ a) && decide (a < b + n)
  within fpBase fpLength || within fpEdit fpLength || within rcvBase 0x40000 || within (slotAddr 0 0) 0x80000

/-! ### Access -/

/-- Whether the domain of the register block or memory at `a` is ON (R535). -/
def blockOn (c : Chip) (a : Nat) : Bool :=
  if a < 0x200000000000 then domOn c (fieldOf ((a - win 0) / 0x100000))
  else
    let o := a - 0x200000000000
    match o / 0x100000 with
    | 8 => domOn c 92
    | 9 => decide (o % 0x100000 < 0x1000) || domOn c (80 + (o % 0x100000 / 0x1000 - 1) % 4)
    | 0xA => domOn c (64 + o % 0x100000 / 0x10000)
    | 0xB => domOn c (84 + o % 0x100000 / 0x10000 % 8)
    | n => decide (n < 16) || domOn c ((o - 0x1000000) / 0x40000 % 64)

/-- Whether a register or a memory of the control space stands at `a`. -/
def occupied (a : Nat) : Bool := (regRow a).isSome || spaceMemory a

/-- What the register at `a` reads as; write-only and reserved bits read zero (R19, R20). -/
def readWord (who : Option Initiator) (a : Nat) (s : State) : Word :=
  let c := s.chip
  if !blockOn c a then 0#32
  else
    let view := if a < 0x200000000000 then tileView c ((a - win 0) / 0x100000) a
      else match clusterView s.irq c who a with
        | some n => some n
        | none => match unitView c a with
          | some n => some n
          | none => hostView c who a
    match view with
    | some n => BitVec.ofNat 32 n
    | none => match regRow a with
      | some r => reg c a &&& BitVec.ofNat 32 (r.rw ||| r.w1c ||| r.ro)
      | none => if spaceMemory a then BitVec.ofNat 32 (numAt c a 4) else 0#32

/-- What a read does beside answering: a claim (R444), the latch of TMR_SNAP (R454), the latch and the INDEX of the gateways'
tables (R339). A block whose domain is not ON does nothing (R535). -/
def readEffect (who : Option Initiator) (a : Nat) (s : State) : State :=
  if !blockOn s.chip a then s
  else match rowIndex a (Reg.IRQ_T_CLAIM 0) 0x100 6, tableHalf a with
  | some k, _ => if k = 4 ∧ who ≠ some .power then s else claim k s
  | none, some x => onChip (tableStep x.1 x.2) s
  | none, none => match rowIndex a (Reg.TMR_COUNT 0) 16 16, who with
    | some n, some w => onChip (timerCountRead w n) s
    | _, _ => s

/-- A read of `n` words from `a` up, in order (R17). -/
def readWords (who : Option Initiator) : Nat → Nat → State → List Byte × State
  | _, 0, s => ([], s)
  | a, n + 1, s =>
    let w := readWord who a s
    let (rest, s) := readWords who (a + 4) n (readEffect who a s)
    (toBytes 4 w.toNat ++ rest, s)

/-- Whether an access of `n` bytes at `a` has a size and alignment that register space accepts (R17). -/
def goodAccess (a n : Nat) : Bool := (n == 4 && a % 4 == 0) || (n == 8 && a % 8 == 0)

end Sys2Proof.Machine
end

