-- ==== Sys2Proof/Machine/RegAccess.lean ====
section
/-!
DEFINITION. Register writes on the control space by initiator: access codes, limits of the initiators, and the action of the
registers that act (R16 to R20, R389, R390, R403, R441, R477, R479, Tables 14.11, 15.10, 16.8, 17.10, 18.8).
-/

namespace Sys2Proof.Machine

/-! ### Always-on blocks -/

/-- A write in the BOOT and FUSE blocks and the floor plan's edit copy (Tables 14.11, 14.14, R403). -/
def writeBoot (a : Nat) (v : Word) (s : State) : State :=
  if a = Reg.BOOT_CMD then
    match fld v 31 28 with
    | 1 => onChip (fun c => bootReady (reg c Reg.BOOT_ELAPSED).toNat c) s
    | 2 => bootWarm s
    | 3 => bootCold s
    | _ => s
  else if a = Reg.BOOT_CFG then
    onChip (fun c => let c := plainWrite a v c; { c with flash := { c.flash with cfg := reg c a } }) s
  else if a = Reg.BOOT_WDOG_KICK then onChip bootKick s
  else if a = Reg.BOOT_RST_TILE then onChip (rstTile v) s
  else if a = Reg.BOOT_RST_FIELD then onChip (rstField v) s
  else if a = Reg.BOOT_RST_DIE then onChip (rstDie v) s
  else if a = Reg.BOOT_RST_CC then rstCc v s
  else if a = Reg.BOOT_FP_CTRL then (if flag v 31 then onChip fpCommit s else s)
  else if fpEdit ≤ a ∧ a < fpEdit + fpLength then onChip (putBytes a (toBytes 4 v.toNat)) s
  else onChip (plainWrite a v) s

/-- PWR_DEV_CMD (Table 15.11). -/
def writeDevCmd (v : Word) (c : Chip) : Chip :=
  if !flag v 31 then c
  else match fld v 30 29 with
    | 0 => devRun c
    | 3 => c
    | g => devEnterState g v c

/-- A write in the PWR block (Table 15.10). -/
def writePwr (a : Nat) (v : Word) (c : Chip) : Chip :=
  if a = Reg.PWR_DEV_CMD then writeDevCmd v c
  else if a = Reg.PWR_HALF_W then pointRequest false v c
  else if a = Reg.PWR_HALF_E then pointRequest true v c
  else if a = Reg.PWR_FLOOR then floorWrite v c
  else if a = Reg.PWR_PAD_RELEASE then padRelease v c
  else match rowIndex a (Reg.PWR_DOM 0) 4 96 with
    | some d => domainRequest d v c
    | none => plainWrite a v c

/-- A write in a target's registers (R441, R444): target 4's by the power controller only. -/
def writeTarget (who : Option Initiator) (k a : Nat) (v : Word) (s : State) : State :=
  if k = 4 ∧ who ≠ some .power then onChip (raise Reg.IRQ_FAULT 1) s
  else if a = Reg.IRQ_T_DONE k then endService k (fld v 8 0) s
  else onChip (fun c => c |> plainWrite a v |> notifyHost s.irq) s

/-- A write in the IRQ block and the receive channels (Tables 16.3, 16.4, R441 to R449). -/
def writeIrq (who : Option Initiator) (a : Nat) (v : Word) (s : State) : State :=
  let o := a - Reg.IRQ_PEND 0
  let w := o / 4 % 16
  if Reg.IRQ_PEND_SET 0 ≤ a ∧ a < Reg.IRQ_PEND_CLR 0 then onChip (fun c => c |> raiseMask (Reg.IRQ_PEND w) v |> notifyHost s.irq) s
  else if Reg.IRQ_PEND_CLR 0 ≤ a ∧ a < Reg.IRQ_MASK 0 then onChip (fun c => setReg (Reg.IRQ_PEND w) (reg c (Reg.IRQ_PEND w) &&& ~~~v) c) s
  else if Reg.IRQ_MASK_SET 0 ≤ a ∧ a < Reg.IRQ_MASK_CLR 0 then onChip (raiseMask (Reg.IRQ_MASK w) v) s
  else if Reg.IRQ_MASK_CLR 0 ≤ a ∧ a < Reg.IRQ_LINE 0 then
    onChip (fun c => c |> setReg (Reg.IRQ_MASK w) (reg c (Reg.IRQ_MASK w) &&& ~~~v) |> notifyHost s.irq) s
  else if Reg.IRQ_MASK 0 ≤ a ∧ a < Reg.IRQ_MASK_SET 0 then onChip (fun c => c |> plainWrite a v |> notifyHost s.irq) s
  else if Reg.IRQ_SRC 0 ≤ a ∧ a < Reg.IRQ_SRC 512 then onChip (srcWrite s.irq (who.getD .host) ((a - Reg.IRQ_SRC 0) / 4) v) s
  else if Reg.IRQ_T_THRESH 0 ≤ a ∧ a < Reg.IRQ_T_THRESH 6 then writeTarget who ((a - Reg.IRQ_T_THRESH 0) / 0x100) a v s
  else match rowIndex a (Reg.CHN_CC_CFG 0) 16 64 with
    | some n => onChip (writeCcCfg n v) s
    | none => match rowIndex a (Reg.CHN_CC_RPTR 0) 16 64 with
      | some n => onChip (writeCcRptr n v) s
      | none => onChip (plainWrite a v) s

/-- A write in the TMR block (Table 16.8, R438, R453): the runtime watchdog is armed only after a start. -/
def writeTmr (a : Nat) (v : Word) (c : Chip) : Chip :=
  if a = Reg.TMR_WDOG_CFG then
    if bootState c = 10 then
      let on := rflag c Reg.TMR_WDOG_CFG 31
      c |> plainWrite a (if on then v ||| 0x80000000#32 else v) |> when_ (!on) runtimeKick
    else c
  else if a = Reg.TMR_WDOG_KICK then runtimeKick c
  else match rowIndex a (Reg.TMR_CFG 0) 16 16 with
    | some n => timerEnable n v c
    | none => plainWrite a v c

/-- A write in the REC block. -/
def writeRec (who : Option Initiator) (a : Nat) (v : Word) (c : Chip) : Chip :=
  if a = Reg.REC_NOTE then (match who with | some w => recNote w v c | none => c) else plainWrite a v c

/-- A write in the SEC block (R477, Table 17.10). -/
def writeSec (who : Option Initiator) (a : Nat) (v : Word) (c : Chip) : Chip :=
  let m := (a - Reg.SEC_CMD 0) / 0x100
  if a < Reg.SEC_INFO then
    let st := rfld c (Reg.SEC_STATUS m) 31 29
    if !ownsMailbox who m then c
    else if a = Reg.SEC_CMD m then secGo m v c
    else lockedWrite (st == 1 || st == 2) a v c
  else plainWrite a v c

/-- A write in the CHK block: CHK_JOB_j_RESUME acts as RESUME (R359). -/
def writeChk (a : Nat) (v : Word) (c : Chip) : Chip :=
  match rowIndex a (Reg.CHK_JOB_CFG 0) 64 16 with
  | some j => lockedWrite (jobEnabled c j) a v c
  | none => match rowIndex a (Reg.CHK_JOB_RESUME 0) 64 16 with
    | some j => resumeRestart j v c
    | none => plainWrite a v c

/-! ### Base logic and the host interface -/

/-- A write in the IMG and LIC blocks (R389, R390, Tables 13.17, 13.19). -/
def writeImg (a : Nat) (v : Word) (c : Chip) : Chip :=
  if a = Reg.IMG_CMD then
    match fld v 31 28 with
    | 1 => verifyBegin c
    | 2 => imgRelease c
    | 3 => imgAbort c
    | _ => c
  else if a = Reg.LIC_CMD then when_ (flag v 31) licBegin c
  else if Reg.IMG_SRC_LO ≤ a ∧ a ≤ Reg.IMG_PLAIN_HI then lockedWrite (imgState c == 1 || imgState c == 2) a v c
  else if Reg.LIC_ADDR_LO ≤ a ∧ a ≤ Reg.LIC_LEN then lockedWrite (licState c == 1) a v c
  else plainWrite a v c

/-- A write in the windows of the host interface that are memory (R482, R485). -/
def writeWindow (a : Nat) (bs : List Byte) (c : Chip) : Chip :=
  let c := putBytes a bs c
  if slotAddr 0 0 ≤ a then postQueue ((a - slotAddr 0 0) / 0x4000) c else c

/-- A write in the HIF block (Tables 18.8, 18.9). -/
def writeHif (who : Option Initiator) (a : Nat) (v : Word) (s : State) : State :=
  let host := who == some .host
  let w := who.getD .thistle
  if rcvBase ≤ a then onChip (writeWindow a (toBytes 4 v.toNat)) s
  else if a = Reg.HIF_CTRL then onChip (lockedWrite host a v) s
  else if a = Reg.HIF_RCV_CTRL then recoveryPiece v s
  else if Reg.HIF_RR_BASE_LO 0 ≤ a ∧ a < Reg.HIF_RR_BASE_LO 16 then
    let p := (a - Reg.HIF_RR_BASE_LO 0) / 0x20
    if a = Reg.HIF_RR_CFG p then onChip (rrEnable p v) s
    else if a = Reg.HIF_RR_RPTR p then onChip (rptrHost p v) s
    else if a = Reg.HIF_RR_DROP p then onChip (plainWrite a v) s
    else onChip (fun c => lockedWrite (rflag c (Reg.HIF_RR_CFG p) 31) a v c) s
  else if Reg.HIF_CQ_CFG 0 ≤ a ∧ a < Reg.HIF_CQ_CFG 32 then
    let q := (a - Reg.HIF_CQ_CFG 0) / 0x40
    if a = Reg.HIF_CQ_CFG q then onChip (writeCqCfg q v) s
    else if a = Reg.HIF_CQ_TAKE q then onChip (cqTake w q) s
    else if a = Reg.HIF_CQ_CPL_DATA q 3 then onChip (cqComplete w q v) s
    else if Reg.HIF_CQ_CPL_DATA q 0 ≤ a ∧ a < Reg.HIF_CQ_CPL_DATA q 3 then (if host then s else onChip (setReg a v) s)
    else onChip (fun c => lockedWrite (cqOn c q) a v c) s
  else onChip (plainWrite a v) s

/-- A write in the NLK block. -/
def writeNlk (a : Nat) (v : Word) (c : Chip) : Chip :=
  let e := (a - Reg.NLK_CTRL 0) / 0x10000
  if a = Reg.NLK_CTRL e then writeNlkCtrl e v c else plainWrite a v c

/-! ### One register write -/

/-- Whether the requests of the control taps reach tile `t`: its router is not listed as bad (R537). -/
def tileReached (c : Chip) (t : Nat) : Bool := decide (t < 8192) && !routerBad c t

/-- A write of the register at `a` by an initiator, the mesh when none is named (R16 to R20). -/
def writeReg (who : Option Initiator) (a : Nat) (v : Word) (s : State) : State :=
  if !occupied a || !blockOn s.chip a then s
  else if a < 0x200000000000 then onChip (writeTile ((a - win 0) / 0x100000) a v) s
  else match (a - 0x200000000000) / 0x100000 with
    | 0 => writeBoot a v s
    | 1 => onChip (writePwr a v) s
    | 2 => writeIrq who a v s
    | 3 => onChip (writeTmr a v) s
    | 4 => onChip (writeRec who a v) s
    | 5 => onChip (writeTick a v) s
    | 6 => onChip (writeChk a v) s
    | 7 => onChip (writeImg a v) s
    | 8 => writeHif who a v s
    | 9 => onChip (writeMem a v) s
    | 0xA => onChip (writePort ((a - Reg.ENC_CTRL 0) / 0x10000) a v) s
    | 0xB => onChip (writeNlk a v) s
    | 0xC => onChip (writeGw a v) s
    | 0xD => onChip (writeSeam a v) s
    | 0xE => onChip (writeSec who a v) s
    | _ => onChip (plainWrite a v) s

/-! ### The host's writes (R479) -/

/-- The registers that a host write always reaches (R479). -/
def hostWritable (a : Nat) : Bool :=
  (decide (hifBase ≤ a) && decide (a < hifBase + 0x100000) && a != Reg.HIF_CTRL) ||
    (decide (Reg.SEC_CMD 1 ≤ a) && decide (a < Reg.SEC_CMD 2)) ||
    a == Reg.IRQ_T_THRESH 5 || a == Reg.IRQ_T_DONE 5 || a == Reg.BOOT_CMD || a == Reg.IMG_CMD ||
    (decide (Reg.IMG_SRC_LO ≤ a) && decide (a ≤ Reg.IMG_PLAIN_HI)) || a == Reg.REC_NOTE

/-- Whether a host write of the register at `a` takes effect (R479). -/
def hostMay (c : Chip) (a : Nat) : Bool := hostWritable a || rflag c Reg.HIF_CTRL 1

/-- A write of one control-space word by the host: allowed, or counted in HIF_HOST_DENIED (R479). -/
def hostWord (a : Nat) (v : Word) (s : State) : State :=
  if hostMay s.chip a then writeReg (some .host) a v s else onChip (count Reg.HIF_HOST_DENIED 1) s

/-- A write of one word by an initiator: the host's under R479, and in a tile window only when HIF_CTRL.AP_WR lets it
(R480). -/
def initiatorWord (who : Initiator) (a : Nat) (v : Word) (s : State) : State :=
  if a < 0x200000000000 then
    if !tileReached s.chip ((a - win 0) / 0x100000) || (who == .host && !rflag s.chip Reg.HIF_CTRL 0) then s
    else writeReg (some who) a v s
  else if who == .host then hostWord a v s
  else writeReg (some who) a v s

/-- A register write of 4 or 8 bytes, the lower offset first (R17). -/
def registerWrite (who : Initiator) (a : Nat) (v : DWord) (wide : Bool) (s : State) : State :=
  if !goodAccess a (if wide then 8 else 4) then s
  else
    let s := initiatorWord who a (BitVec.ofNat 32 v.toNat) s
    if wide then initiatorWord who (a + 4) (BitVec.ofNat 32 (v.toNat / 2 ^ 32)) s else s

/-! ### Meanings -/

/-- REGISTER_WRITE. -/
def execRegisterWrite (who : Initiator) (addr : BitVec 48) (value : DWord) (wide : Bool) (s : State) :
    Host.Outcome State Fault Refusal := .next (registerWrite who addr.toNat value wide s)

/-- REGISTER_ACCESS_BAD (R18): the access has no effect and a read returns zero; a denied host write is counted (R479). An
access that is not of this kind is none of this row's. -/
def execRegisterAccessBad (who : Initiator) (addr : BitVec 48) (size : Nat) (write : Bool) (s : State) :
    Host.Outcome State Fault Refusal :=
  let a := addr.toNat
  if goodAccess a size && occupied a then .next s
  else if write then
    done s (when_ (who == .host && decide (0x200000000000 ≤ a) && !hostMay s.chip a) (count Reg.HIF_HOST_DENIED 1) s.chip)
  else done s { s.chip with readOut := 0#64 }

end Sys2Proof.Machine
end

