-- ==== Sys2Proof/Machine/HostAccess.lean ====
section
/-!
DEFINITION. Management requests and replies at tiles and taps (R249, R251, R543, Table 9.4), the host's BAR0 and BAR2
accesses (R479 to R481, R504, R512), and the I3C target (R528).
-/

namespace Sys2Proof.Machine

/-! ### Management requests (Table 9.4, R543) -/

/-- What a request asks: address, length and, of a write, its bytes. -/
structure Ask where
  addr : Nat
  len : Nat
  data : List Byte
  deriving DecidableEq, Repr

/-- The request in a body. -/
def askOf (body : List Flit) : Ask :=
  let ds := body.map (fun f => f.data)
  let d := fData (ds.getD 0 0#64)
  let len := bits d 55 48 + 1
  { addr := bits d 47 0, len := len, data := (bodyBytes (ds.drop 1)).take len }

/-- The address selects a register or a memory of the control space that belongs to the unit at tap `k`: a port's, an
engine's or a controller's own block, and of the control cluster every other block. -/
def tapOwns (k a : Nat) : Bool :=
  let o := a - 0x200000000000
  let n := o / 0x100000
  decide (0x200000000000 ≤ a) && decide (o < 0x2000000) && (match tapUnit k with
    | .port p => n == 0xA && o % 0x100000 / 0x10000 == p
    | .engine e => n == 0xB && o % 0x100000 / 0x10000 == e
    | .memory m => n == 9 && o % 0x100000 / 0x1000 == m + 1
    | .cluster => n != 0xA && n != 0xB && !(n == 9 && decide (0x1000 ≤ o % 0x100000)))

/-- The register words of an access, at the unit that owns the address: STATUS and data (R18, Table 9.4). -/
def askRegister (owned write : Bool) (q : Ask) (s : State) : (Nat × List Byte) × State :=
  if !owned || !occupied q.addr || !blockOn s.chip q.addr then ((2, []), s)
  else if !goodAccess q.addr q.len then ((0, if write then [] else List.replicate q.len 0#8), s)
  else if write then
    let w (i : Nat) : Word := BitVec.ofNat 32 (nAt q.data (4 * i) 4)
    let s := writeReg none q.addr (w 0) s
    ((0, []), if q.len = 8 then writeReg none (q.addr + 4) (w 1) s else s)
  else
    let (bs, s) := readWords none q.addr (q.len / 4) s
    ((0, bs), s)

/-- An access of tile `t`'s SRAM or synapse store by its DMA port (R84, R90, Table 3.4). -/
def askMemory (t : Nat) (write : Bool) (q : Ask) (c : Chip) : (Nat × List Byte) × Chip :=
  let o := q.addr - win t
  if write then
    let ue := (List.range ((o + q.len + 7) / 8 - o / 8)).any (fun i =>
      let w := o / 8 + i
      eccAt c (win t + 8 * w) == 2 && !(decide (o ≤ 8 * w) && decide (8 * w + 8 ≤ o + q.len)))
    ((b2n ue, []), dmaWrite t o q.data c)
  else ((b2n (dmaUe c t o q.len), dmaBytes c t o q.len), dmaReadEffect t o q.len c)

/-- A well-formed request of OP 0 or 1 carried out at a target: STATUS and data. -/
def askTarget (target : Target) (write : Bool) (q : Ask) (s : State) : (Nat × List Byte) × State :=
  match target with
  | .tap k => askRegister (tapOwns k.val q.addr) write q s
  | .tile t =>
    let o := q.addr - win t.val
    let mine := decide (win t.val ≤ q.addr) && decide (o < 0x100000)
    if mine && (decide (o < 0x20000) || (decide (0x40000 ≤ o) && decide (o < 0x80000))) then
      let (r, c) := askMemory t.val write q s.chip
      (r, { s with chip := c })
    else askRegister mine write q s

/-- A reply from a target to request head `h` (R249, R267). -/
def replyTo (target : Target) (h : DWord) (status : Nat) (data : List Byte) (c : Chip) : Chip :=
  let body := bodyFlits ((data.length + 6) / 7) data
  let sub := status * 8192 + fSub h % 8192
  let (own, port) : Nat × Nat := match target with | .tile t => (t.val, 4) | .tap k => (tapTile k.val, 5)
  sendPacket own port (packet 4 (headBack 5 (fEpoch h) (fSrc h) body.length sub own) body) c

/-- The first request at a target whose head satisfies `ok`, taken off it. At a memory tap the controller takes the requests
for its memory itself. -/
def takeRequest (target : Target) (ok : DWord → Bool) (c : Chip) : Option (Flit × List Flit × Chip) :=
  match target with
  | .tile t =>
    if domOn c (fieldOf t.val) then
      (dmaFind c t.val 3 (fun h => ok h.data)).map (fun x => (x.2.1, x.2.2, dmaDrop t.val x.1 3 c))
    else none
  | .tap k =>
    match tapTake k.val 3 c with
    | some (h, body, c') =>
      let mine := match tapUnit k.val with | .memory _ => namesControl h body | _ => true
      if ok h.data && mine then some (h, body, c') else none
    | none => none

/-- MGMT_READ and MGMT_WRITE (R543): a packet with POISON is discarded whole (R251). -/
def management (target : Target) (op : Nat) (s : State) : State :=
  match takeRequest target (fun h => rqOp h == op) s.chip with
  | none => s
  | some (h, body, c) =>
    let s := { s with chip := c }
    if anyPoison h body then s
    else if rqMalformed op body then onChip (replyTo target h.data 3 []) s
    else
      let (r, s) := askTarget target (op == 1) (askOf body) s
      onChip (replyTo target h.data r.1 r.2) s

/-- MGMT_OP_RESERVED (R543): a request of OP 3 to 15, and of OP 2 where no controller takes it, gets STATUS 3. -/
def managementReserved (target : Target) (c : Chip) : Chip :=
  match takeRequest target (fun h => decide (2 ≤ rqOp h)) c with
  | none => c
  | some (h, body, c) => if anyPoison h body then c else replyTo target h.data 3 [] c

/-- The TAG of the host's requests: bit 12 set. -/
def hostTag : Nat := 4096

/-- A reply at a control tap (R480): one to the host with STATUS 1 is a Completer Abort, with STATUS 2 an unmapped access. -/
def replyArrived (h : DWord) (body : List DWord) (c : Chip) : Chip :=
  let status := fSub h / 8192
  let tag := fSub h % 8192
  let host := decide (hostTag ≤ tag)
  { c with replyOut := (status, tag, bodyBytes body) }
    |> when_ (host && status == 1) (raise Reg.HIF_FAULT 1) |> when_ (host && status == 2) (count Reg.HIF_AP_UNMAPPED 1)

/-- MGMT_REPLY (R249): the first reply at a requester. -/
def managementReply (target : Target) (c : Chip) : Chip :=
  match target with
  | .tile t =>
    match dmaFind c t.val 4 (fun _ => true) with
    | some (p, h, body) =>
      if anyPoison h body then dmaDrop t.val p 4 c
      else { dmaDrop t.val p 4 c with replyOut := (fSub h.data / 8192, fSub h.data % 8192, bodyBytes (body.map (fun f => f.data))) }
    | none => c
  | .tap k =>
    match tapTake k.val 4 c with
    | some (h, body, c) => if anyPoison h body then c else replyArrived h.data (body.map (fun f => f.data)) c
    | none => c

/-! ### BAR0 (R479) -/

/-- A host write of 4 or 8 bytes at control-space offset `o`. -/
def bar0Write (o : Nat) (v : DWord) (wide : Bool) (s : State) : State :=
  if hostReached s.chip then registerWrite .host (0x200000000000 + o) v wide s else s

/-! ### BAR2 (R480, R481, R504, R512) -/

/-- Pieces of an access of `n` bytes at `a`, each of at most `m` bytes: address and length. -/
def splitAccess (m : Nat) : Nat → Nat → Nat → List (Nat × Nat)
  | 0, _, _ => []
  | k + 1, a, n => if n ≤ m then [(a, n)] else (a, m) :: splitAccess m k (a + m) (n - m)

/-- The answer to the host's read. -/
def hostAnswer (status : Nat) (bs : List Byte) (c : Chip) : Chip := { c with replyOut := (status, hostTag, bs) }

/-- An access to an address with no memory or register (R480). -/
def unmapped (write : Bool) (n : Nat) (c : Chip) : Chip :=
  c |> count Reg.HIF_AP_UNMAPPED 1 |> when_ (!write) (hostAnswer 0 (List.replicate n 0#8))

/-- Whether the LPDDR5X bytes of an access can be reached: usable, present, and their controller's domain ON. -/
def memMapped (c : Chip) (a n : Nat) : Bool := memReach c a n && domOn c (80 + memController c a)

/-- The host's write of LPDDR5X (R368, R480, R499, R512): discarded without AP_WR, in a locked range, or outside a region
with HOST_WR. -/
def hostMemWrite (a : Nat) (bs : List Byte) (c : Chip) : Chip :=
  if !rflag c Reg.HIF_CTRL 0 then c
  else if (List.range bs.length).any (fun i => lockedAt c (a + i)) then count Reg.IMG_LOCK_VIOL 1 c
  else if !memAllowed c (fun r => flag r 1) a bs.length then count Reg.MEM_DENIED 1 c
  else forAll (fun x => memWrite (memController c x.1) x.1 (cut bs (x.1 - a) x.2)) (splitAccess 210 (bs.length / 210 + 1) a bs.length) c

/-- The host's read of LPDDR5X: an uncorrectable error gives Completer Abort (R480, R512). -/
def hostMemRead (a n : Nat) (c : Chip) : Chip :=
  if !memAllowed c (fun r => flag r 0) a n then c |> count Reg.MEM_DENIED 1 |> hostAnswer 0 (List.replicate n 0#8)
  else
    let ue := memReadUe c a n
    let c := hostAnswer (b2n ue) (bytesAt c a n) c
    c |> forAll (fun x => memRead (memController c x.1) x.1 x.2) (splitAccess 217 (n / 217 + 1) a n)
      |> when_ ue (raise Reg.HIF_FAULT 1)

/-- One management request of the host to tile `t` through control tap `k` (R267, R480). -/
def sendRequest (k t i : Nat) (write : Bool) (a n : Nat) (bs : List Byte) (c : Chip) : Chip :=
  let body := mkBody (a + (n - 1) * 2 ^ 48) :: (if write then bodyFlits ((n + 6) / 7) bs else [])
  let sub := b2n write * 8192 + (hostTag + i % 4096)
  let h := mkHead 4 (tapEpoch c k (rfld c Reg.SEAM_MGMT_EPOCH 0 0)) 0 0 (tileX t) (tileY t) body.length (tapTile k) sub
  sendPacket (tapTile k) 5 (packet 3 h body) c

/-- The host's access of tile `t`'s window: management requests through the first good control tap; a bad router, or a field
that is not ON, answers STATUS 2 (R480, R535, R537). -/
def hostTile (t a n : Nat) (write : Bool) (bs : List Byte) (c : Chip) : Chip :=
  if write && !rflag c Reg.HIF_CTRL 0 then c
  else match (controlTaps.find? (tapGood c)) with
    | some k =>
      if tileReached c t && domOn c (fieldOf t) then
        forAll (fun x => sendRequest k t x.2 write x.1.1 x.1.2 (cut bs (x.1.1 - a) x.1.2))
          (splitAccess (if write then 210 else 217) (n / 210 + 1) a n).zipIdx c
      else unmapped write n c
    | none => unmapped write n c

/-- The host's access of control space through BAR2, under R479. -/
def hostControl (a n : Nat) (write : Bool) (bs : List Byte) (s : State) : State :=
  if !occupied a || !blockOn s.chip a then onChip (unmapped write n) s
  else if !goodAccess a n then onChip (when_ (!write) (hostAnswer 0 (List.replicate n 0#8))) s
  else if write then
    if rflag s.chip Reg.HIF_CTRL 0 then registerWrite .host a (BitVec.ofNat 64 (ofBytes bs)) (n == 8) s else s
  else
    let (out, s) := readWords (some .host) a (n / 4) s
    onChip (hostAnswer 0 out) s

/-- BAR2_ACCESS: in fallow mode it completes without effect (R408). -/
def bar2Access (o : Nat) (write : Bool) (bs : List Byte) (len : Nat) (s : State) : State :=
  let n := if write then bs.length else len
  let a := rfld s.chip Reg.HIF_APERTURE_BASE 15 0 * 2 ^ 32 + o
  if !hostReached s.chip || inFallow s.chip || n == 0 then s
  else if a < 2 ^ 37 then
    if memMapped s.chip a n then onChip (if write then hostMemWrite a bs else hostMemRead a n) s
    else onChip (unmapped write n) s
  else if win 0 ≤ a ∧ a < win 8192 then onChip (hostTile ((a - win 0) / 0x100000) a n write bs) s
  else if 0x200000000000 ≤ a ∧ a < 0x200002000000 then hostControl a n write bs s
  else onChip (unmapped write n) s

/-! ### I3C (R528, Table 20.8) -/

/-- The read window. -/
def i3cWord (c : Chip) (i : Nat) : Word :=
  match i with
  | 0x00 => reg c Reg.BOOT_STATUS
  | 0x04 => reg c Reg.BOOT_FALLOW_CAUSE
  | 0x08 => reg c Reg.BOOT_FAIL_COUNT
  | 0x0C => reg c Reg.PWR_THERM_STATUS
  | 0x10 => reg c Reg.FUSE_SERIAL_LO
  | 0x14 => reg c Reg.FUSE_SERIAL_HI
  | 0x18 => reg c Reg.FUSE_VARIANT
  | _ => 0#32

/-- I3C_READ: 4 bytes, and the index moves on by 4. -/
def i3cRead (c : Chip) : Chip := { c with i3cOut := i3cWord c c.i3cIndex, i3cIndex := (c.i3cIndex + 4) % 256 }

/-- I3C_IBI: the in-band interrupt that THROTTLE or DIE_RESET owes, with its data byte. -/
def i3cIbi (c : Chip) : Chip :=
  if c.i3cDue then { c with i3cDue := false, i3cSent := c.i3cSent ++ [rfld c Reg.PWR_THERM_STATUS 2 0] } else c

/-! ### Meanings -/

/-- MGMT_READ. -/
def execMgmtRead (target : Target) (s : State) : Host.Outcome State Fault Refusal := .next (management target 0 s)

/-- MGMT_WRITE. -/
def execMgmtWrite (target : Target) (s : State) : Host.Outcome State Fault Refusal := .next (management target 1 s)

/-- MGMT_OP_RESERVED. -/
def execMgmtOpReserved (target : Target) (s : State) : Host.Outcome State Fault Refusal := done s (managementReserved target s.chip)

/-- MGMT_REPLY. -/
def execMgmtReply (target : Target) (s : State) : Host.Outcome State Fault Refusal := done s (managementReply target s.chip)

/-- BAR0_WRITE. -/
def execBar0Write (off : BitVec 26) (value : DWord) (wide : Bool) (s : State) : Host.Outcome State Fault Refusal :=
  .next (bar0Write off.toNat value wide s)

/-- BAR2_ACCESS. -/
def execBar2Access (off : BitVec 32) (write : Bool) (data : List Byte) (len : Nat) (s : State) :
    Host.Outcome State Fault Refusal := .next (bar2Access off.toNat write data len s)

/-- I3C_INDEX_WRITE. -/
def execI3cIndexWrite (index : Byte) (s : State) : Host.Outcome State Fault Refusal :=
  done s { s.chip with i3cIndex := index.toNat }

/-- I3C_READ. -/
def execI3cRead (s : State) : Host.Outcome State Fault Refusal := done s (i3cRead s.chip)

/-- I3C_IBI. -/
def execI3cIbi (s : State) : Host.Outcome State Fault Refusal := done s (i3cIbi s.chip)

end Sys2Proof.Machine
end

