-- ==== Sys2Proof/Machine/Dispatch.lean ====
section
/-!
DEFINITION. One arm per command: a direct call of its meaning, or a rejection by name where a command has none yet.
-/

namespace Sys2Proof.Machine

def exec (i : Instr) (s : State) : Host.Outcome State Fault Refusal :=
  match i with
  | .registerWrite who addr value wide => Sys2Proof.Machine.execRegisterWrite who addr value wide s
  | .registerAccessBad who addr size write => Sys2Proof.Machine.execRegisterAccessBad who addr size write s
  | .tick j now => Sys2Proof.Machine.execTick j now s
  | .quiescenceStrobe now => Sys2Proof.Machine.execQuiescenceStrobe now s
  | .updateGo j now => Sys2Proof.Machine.execUpdateGo j now s
  | .forcedUpdateGo j now => Sys2Proof.Machine.execForcedUpdateGo j now s
  | .freeTimeout j now => Sys2Proof.Machine.execFreeTimeout j now s
  | .updateEnd j now => Sys2Proof.Machine.execUpdateEnd j now s
  | .freeRunTick j now => Sys2Proof.Machine.execFreeRunTick j now s
  | .tbEnable j value => Sys2Proof.Machine.execTbEnable j value s
  | .tbDisable j => Sys2Proof.Machine.execTbDisable j s
  | .tbStopComplete j => Sys2Proof.Machine.execTbStopComplete j s
  | .sysrefEdge at_ => Sys2Proof.Machine.execSysrefEdge at_ s
  | .sysrefMiss at_ => Sys2Proof.Machine.execSysrefMiss at_ s
  | .holdoverEdge at_ => Sys2Proof.Machine.execHoldoverEdge at_ s
  | .nop t => Sys2Proof.Machine.execNop t s
  | .waitUntil t now => Sys2Proof.Machine.execWaitUntil t now s
  | .waitUntilExpire t now => Sys2Proof.Machine.execWaitUntilExpire t now s
  | .integrate t => Sys2Proof.Machine.execIntegrate t s
  | .update t clk => Sys2Proof.Machine.execUpdate t clk s
  | .emitFlit t clk => Sys2Proof.Machine.execEmitFlit t clk s
  | .emitMessage t => Sys2Proof.Machine.execEmitMessage t s
  | .gatherBegin t => Sys2Proof.Machine.execGatherBegin t s
  | .gatherEnd t => Sys2Proof.Machine.execGatherEnd t s
  | .gatherDone t clk => Sys2Proof.Machine.execGatherDone t clk s
  | .digest t => Sys2Proof.Machine.execDigest t s
  | .traceStep t => Sys2Proof.Machine.execTraceStep t s
  | .mow t n clk => Sys2Proof.Machine.execMow t n clk s
  | .rotateState t => Sys2Proof.Machine.execRotateState t s
  | .sampleCheck t agree => Sys2Proof.Machine.execSampleCheck t agree s
  | .census t => Sys2Proof.Machine.execCensus t s
  | .endWord t clk => Sys2Proof.Machine.execEndWord t clk s
  | .illegalWord t => Sys2Proof.Machine.execIllegalWord t s
  | .seqEnSet t => Sys2Proof.Machine.execSeqEnSet t s
  | .seqEnClear t => Sys2Proof.Machine.execSeqEnClear t s
  | .fenceSet t => Sys2Proof.Machine.execFenceSet t s
  | .pepperReload t => Sys2Proof.Machine.execPepperReload t s
  | .prime t => Sys2Proof.Machine.execPrime t s
  | .sramRetRequest t banks => Sys2Proof.Machine.execSramRetRequest t banks s
  | .bankWakeDone t bank => Sys2Proof.Machine.execBankWakeDone t bank s
  | .eventArrive t => Sys2Proof.Machine.execEventArrive t s
  | .scatterEvent t n => Sys2Proof.Machine.execScatterEvent t n s
  | .gatherInput t => Sys2Proof.Machine.execGatherInput t s
  | .streamReply t => Sys2Proof.Machine.execStreamReply t s
  | .partnerWaitExpire t => Sys2Proof.Machine.execPartnerWaitExpire t s
  | .cbLoad t => Sys2Proof.Machine.execCbLoad t s
  | .cbLoadDone t => Sys2Proof.Machine.execCbLoadDone t s
  | .learnIncrement t => Sys2Proof.Machine.execLearnIncrement t s
  | .feedbackEvent t => Sys2Proof.Machine.execFeedbackEvent t s
  | .labelPush t value => Sys2Proof.Machine.execLabelPush t value s
  | .ckptAck t => Sys2Proof.Machine.execCkptAck t s
  | .mowCountSet t value => Sys2Proof.Machine.execMowCountSet t value s
  | .flitRx t port vc => Sys2Proof.Machine.execFlitRx t port vc s
  | .creditReturn t port vc => Sys2Proof.Machine.execCreditReturn t port vc s
  | .routerWatchdog t port vc waited => Sys2Proof.Machine.execRouterWatchdog t port vc waited s
  | .outFenceClear t port => Sys2Proof.Machine.execOutFenceClear t port s
  | .routeTableWrite t off value => Sys2Proof.Machine.execRouteTableWrite t off value s
  | .injStop t => Sys2Proof.Machine.execInjStop t s
  | .mgmtRead target => Sys2Proof.Machine.execMgmtRead target s
  | .mgmtWrite target => Sys2Proof.Machine.execMgmtWrite target s
  | .mgmtOpReserved target => Sys2Proof.Machine.execMgmtOpReserved target s
  | .mgmtReply target => Sys2Proof.Machine.execMgmtReply target s
  | .seamEpochSwitch value => Sys2Proof.Machine.execSeamEpochSwitch value s
  | .drainGo value => Sys2Proof.Machine.execDrainGo value s
  | .drainDone => Sys2Proof.Machine.execDrainDone s
  | .collectiveRx t => Sys2Proof.Machine.execCollectiveRx t s
  | .stepCensusDone j => Sys2Proof.Machine.execStepCensusDone j s
  | .messageHead t port => Sys2Proof.Machine.execMessageHead t port s
  | .messageTail t slot => Sys2Proof.Machine.execMessageTail t slot s
  | .rptrWrite t n value => Sys2Proof.Machine.execRptrWrite t n value s
  | .ringOpen t n value => Sys2Proof.Machine.execRingOpen t n value s
  | .ringClose t n => Sys2Proof.Machine.execRingClose t n s
  | .columnLoad t busy => Sys2Proof.Machine.execColumnLoad t busy s
  | .tileLoad t busy => Sys2Proof.Machine.execTileLoad t busy s
  | .bcClear t => Sys2Proof.Machine.execBcClear t s
  | .loadCensus => Sys2Proof.Machine.execLoadCensus s
  | .echo t => Sys2Proof.Machine.execEcho t s
  | .echoReply target => Sys2Proof.Machine.execEchoReply target s
  | .linkEnSet p => Sys2Proof.Machine.execLinkEnSet p s
  | .dataPhase p skew now => Sys2Proof.Machine.execDataPhase p skew now s
  | .multiblockRx p now samples bad => Sys2Proof.Machine.execMultiblockRx p now samples bad s
  | .laneLockLoss p lane now => Sys2Proof.Machine.execLaneLockLoss p lane now s
  | .portSysrefEdge p aligned => Sys2Proof.Machine.execPortSysrefEdge p aligned s
  | .encRunSet p => Sys2Proof.Machine.execEncRunSet p s
  | .encRunClear p => Sys2Proof.Machine.execEncRunClear p s
  | .encoderInject p tap now => Sys2Proof.Machine.execEncoderInject p tap now s
  | .injDeadline p => Sys2Proof.Machine.execInjDeadline p s
  | .encoderReplay p => Sys2Proof.Machine.execEncoderReplay p s
  | .encRouteWrite p set n word value => Sys2Proof.Machine.execEncRouteWrite p set n word value s
  | .qntFreeze p hold => Sys2Proof.Machine.execQntFreeze p hold s
  | .decClear t => Sys2Proof.Machine.execDecClear t s
  | .resultMessage k => Sys2Proof.Machine.execResultMessage k s
  | .resultRelease p => Sys2Proof.Machine.execResultRelease p s
  | .resultRingWrite p => Sys2Proof.Machine.execResultRingWrite p s
  | .rrRptrWrite p value => Sys2Proof.Machine.execRrRptrWrite p value s
  | .nlkEnSet e => Sys2Proof.Machine.execNlkEnSet e s
  | .linkTrained e lanes => Sys2Proof.Machine.execLinkTrained e lanes s
  | .hello e frame => Sys2Proof.Machine.execHello e frame s
  | .helloAck e frame rtt => Sys2Proof.Machine.execHelloAck e frame rtt s
  | .ready e => Sys2Proof.Machine.execReady e s
  | .retrain e => Sys2Proof.Machine.execRetrain e s
  | .retrainFail e => Sys2Proof.Machine.execRetrainFail e s
  | .trainRetry e => Sys2Proof.Machine.execTrainRetry e s
  | .linkFrameRx e frame => Sys2Proof.Machine.execLinkFrameRx e frame s
  | .retryRequest e frame recent => Sys2Proof.Machine.execRetryRequest e frame recent s
  | .retryTimeout e recent => Sys2Proof.Machine.execRetryTimeout e recent s
  | .nlkCreditWdog e v => Sys2Proof.Machine.execNlkCreditWdog e v s
  | .outboundEvent k => Sys2Proof.Machine.execOutboundEvent k s
  | .fabricTransit e v => Sys2Proof.Machine.execFabricTransit e v s
  | .inboundEvent e v => Sys2Proof.Machine.execInboundEvent e v s
  | .fenceMark e v => Sys2Proof.Machine.execFenceMark e v s
  | .endMark e v now => Sys2Proof.Machine.execEndMark e v now s
  | .barrier job => Sys2Proof.Machine.execBarrier job s
  | .alignStart job => Sys2Proof.Machine.execAlignStart job s
  | .alignCheck job => Sys2Proof.Machine.execAlignCheck job s
  | .fabricCensus job => Sys2Proof.Machine.execFabricCensus job s
  | .epochSwitch job => Sys2Proof.Machine.execEpochSwitch job s
  | .rewind job => Sys2Proof.Machine.execRewind job s
  | .rewindCollective job => Sys2Proof.Machine.execRewindCollective job s
  | .rewindAckRound job => Sys2Proof.Machine.execRewindAckRound job s
  | .fabricDrain job => Sys2Proof.Machine.execFabricDrain job s
  | .collTimeout job => Sys2Proof.Machine.execCollTimeout job s
  | .gwCmdAlignStart job value => Sys2Proof.Machine.execGwCmdAlignStart job value s
  | .gwCmdEpochSwitch job value => Sys2Proof.Machine.execGwCmdEpochSwitch job value s
  | .gwCmdDrain job value => Sys2Proof.Machine.execGwCmdDrain job value s
  | .gwTableCommit out value => Sys2Proof.Machine.execGwTableCommit out value s
  | .gwTableRead out high => Sys2Proof.Machine.execGwTableRead out high s
  | .failReport => Sys2Proof.Machine.execFailReport s
  | .replayEndStep job now => Sys2Proof.Machine.execReplayEndStep job now s
  | .resumeWrite job value => Sys2Proof.Machine.execResumeWrite job value s
  | .verify => Sys2Proof.Machine.execVerify s
  | .verifyDone => Sys2Proof.Machine.execVerifyDone s
  | .release => Sys2Proof.Machine.execRelease s
  | .abort => Sys2Proof.Machine.execAbort s
  | .licGo => Sys2Proof.Machine.execLicGo s
  | .licDone => Sys2Proof.Machine.execLicDone s
  | .powerOn strap => Sys2Proof.Machine.execPowerOn strap s
  | .startStageDone ms cause defects => Sys2Proof.Machine.execStartStageDone ms cause defects s
  | .startFail cause => Sys2Proof.Machine.execStartFail cause s
  | .startHoldExpire => Sys2Proof.Machine.execStartHoldExpire s
  | .startTimeLimit => Sys2Proof.Machine.execStartTimeLimit s
  | .bootWdogExpire => Sys2Proof.Machine.execBootWdogExpire s
  | .bootWdogKick => Sys2Proof.Machine.execBootWdogKick s
  | .bootReady ms => Sys2Proof.Machine.execBootReady ms s
  | .bootWarm => Sys2Proof.Machine.execBootWarm s
  | .bootCold => Sys2Proof.Machine.execBootCold s
  | .resetNLow => Sys2Proof.Machine.execResetNLow s
  | .pwrGoodFall => Sys2Proof.Machine.execPwrGoodFall s
  | .perstN => Sys2Proof.Machine.execPerstN s
  | .rstTile value => Sys2Proof.Machine.execRstTile value s
  | .rstField value => Sys2Proof.Machine.execRstField value s
  | .rstDie value => Sys2Proof.Machine.execRstDie value s
  | .rstCc value => Sys2Proof.Machine.execRstCc value s
  | .resetDone => Sys2Proof.Machine.execResetDone s
  | .fpCommit => Sys2Proof.Machine.execFpCommit s
  | .domainRequest d value => Sys2Proof.Machine.execDomainRequest d value s
  | .domainEntryDone d => Sys2Proof.Machine.execDomainEntryDone d s
  | .domainWakeDone d => Sys2Proof.Machine.execDomainWakeDone d s
  | .padRelease value => Sys2Proof.Machine.execPadRelease value s
  | .pointRequest east value => Sys2Proof.Machine.execPointRequest east value s
  | .pointStepDone east => Sys2Proof.Machine.execPointStepDone east s
  | .floorWrite value => Sys2Proof.Machine.execFloorWrite value s
  | .devRun => Sys2Proof.Machine.execDevRun s
  | .devHold value => Sys2Proof.Machine.execDevHold value s
  | .devDeep value => Sys2Proof.Machine.execDevDeep value s
  | .devStateDone => Sys2Proof.Machine.execDevStateDone s
  | .thermalSample west east io => Sys2Proof.Machine.execThermalSample west east io s
  | .thermalStep east => Sys2Proof.Machine.execThermalStep east s
  | .thermalDieReset => Sys2Proof.Machine.execThermalDieReset s
  | .sysClkLoss => Sys2Proof.Machine.execSysClkLoss s
  | .sysClkRestored => Sys2Proof.Machine.execSysClkRestored s
  | .runtimeWdogExpire => Sys2Proof.Machine.execRuntimeWdogExpire s
  | .runtimeWdogKick => Sys2Proof.Machine.execRuntimeWdogKick s
  | .irqLine src => Sys2Proof.Machine.execIrqLine src s
  | .irqClaim k => Sys2Proof.Machine.execIrqClaim k s
  | .irqDone k value => Sys2Proof.Machine.execIrqDone k value s
  | .irqPendSet w value => Sys2Proof.Machine.execIrqPendSet w value s
  | .irqPendClr w value => Sys2Proof.Machine.execIrqPendClr w value s
  | .irqMaskSet w value => Sys2Proof.Machine.execIrqMaskSet w value s
  | .irqMaskClr w value => Sys2Proof.Machine.execIrqMaskClr w value s
  | .irqSrcWrite who n value => Sys2Proof.Machine.execIrqSrcWrite who n value s
  | .msixRequest v => Sys2Proof.Machine.execMsixRequest v s
  | .clusterMessage k => Sys2Proof.Machine.execClusterMessage k s
  | .timerCount n => Sys2Proof.Machine.execTimerCount n s
  | .timerCountRead who n => Sys2Proof.Machine.execTimerCountRead who n s
  | .timerEnable n value => Sys2Proof.Machine.execTimerEnable n value s
  | .recorderInterval => Sys2Proof.Machine.execRecorderInterval s
  | .recNote who value => Sys2Proof.Machine.execRecNote who value s
  | .mirror => Sys2Proof.Machine.execMirror s
  | .mirrorDone ok => Sys2Proof.Machine.execMirrorDone ok s
  | .secGo m value => Sys2Proof.Machine.execSecGo m value s
  | .secStatus => Sys2Proof.Machine.execSecStatus s
  | .secSelftest failed => Sys2Proof.Machine.execSecSelftest failed s
  | .secAttest => Sys2Proof.Machine.execSecAttest s
  | .secFwUpdate => Sys2Proof.Machine.execSecFwUpdate s
  | .secKeyLoad => Sys2Proof.Machine.execSecKeyLoad s
  | .secKeyClear => Sys2Proof.Machine.execSecKeyClear s
  | .secRevoke => Sys2Proof.Machine.execSecRevoke s
  | .secDebugUnlock => Sys2Proof.Machine.execSecDebugUnlock s
  | .secZeroize => Sys2Proof.Machine.execSecZeroize s
  | .secCoreStart => Sys2Proof.Machine.execSecCoreStart s
  | .secRandom => Sys2Proof.Machine.execSecRandom s
  | .secUnknownOp => Sys2Proof.Machine.execSecUnknownOp s
  | .commandPost q slot record => Sys2Proof.Machine.execCommandPost q slot record s
  | .cqTake who q => Sys2Proof.Machine.execCqTake who q s
  | .cqComplete who q value => Sys2Proof.Machine.execCqComplete who q value s
  | .cmdNop q => Sys2Proof.Machine.execCmdNop q s
  | .cmdImgLoad q => Sys2Proof.Machine.execCmdImgLoad q s
  | .cmdJobStop q => Sys2Proof.Machine.execCmdJobStop q s
  | .cmdLabel q => Sys2Proof.Machine.execCmdLabel q s
  | .cmdFreeze q => Sys2Proof.Machine.execCmdFreeze q s
  | .cmdLicence q => Sys2Proof.Machine.execCmdLicence q s
  | .cmdDeviceState q => Sys2Proof.Machine.execCmdDeviceState q s
  | .bar0Write off value wide => Sys2Proof.Machine.execBar0Write off value wide s
  | .bar2Access off write data len => Sys2Proof.Machine.execBar2Access off write data len s
  | .apertureBaseWrite value => Sys2Proof.Machine.execApertureBaseWrite value s
  | .functionLevelReset => Sys2Proof.Machine.execFunctionLevelReset s
  | .recoveryPiece value => Sys2Proof.Machine.execRecoveryPiece value s
  | .memRequest m => Sys2Proof.Machine.execMemRequest m s
  | .streamRead m => Sys2Proof.Machine.execStreamRead m s
  | .scrubRead m => Sys2Proof.Machine.execScrubRead m s
  | .regionWrite n word value => Sys2Proof.Machine.execRegionWrite n word value s
  | .i3cIndexWrite index => Sys2Proof.Machine.execI3cIndexWrite index s
  | .i3cRead => Sys2Proof.Machine.execI3cRead s
  | .i3cIbi => Sys2Proof.Machine.execI3cIbi s
  | .opticalLaneLosesLock e lane => Sys2Proof.Machine.execOpticalLaneLosesLock e lane s
  | .pcieLinkDown => Sys2Proof.Machine.execPcieLinkDown s
  | .pcieLinkUp rate width => Sys2Proof.Machine.execPcieLinkUp rate width s
  | .emptyReportTimeout d => Sys2Proof.Machine.execEmptyReportTimeout d s
  | .inboundPacket e v row => Sys2Proof.Machine.execInboundPacket e v row s
  | .outboundPacket k dest => Sys2Proof.Machine.execOutboundPacket k dest s
  | .msixUnmask v word value fnMask => Sys2Proof.Machine.execMsixUnmask v word value fnMask s
  | .resultRingEnable p value => Sys2Proof.Machine.execResultRingEnable p value s
  | .controllerTrained m restored => Sys2Proof.Machine.execControllerTrained m restored s

end Sys2Proof.Machine
end

