-- ==== Sys2Proof/Safety.lean ====
section
/-!
DEFINITION. The terms that statements about the machine use: a command that completes, what an update leaves alone, a run
that stops nowhere, and the invariants.
-/

namespace Sys2Proof.Safety

open Sys2Proof.Machine

/-- Command `i` completes at `s` and leaves the chip `c`: the queue, the sources in service and the Thistle core's own state are
as they were. -/
def Completes (i : Instr) (s : State) (c : Chip) : Prop := exec i s = .next { s with chip := c }

/-- Command `i` completes at `s` and leaves the state `t`, with the queue as it was. -/
def CompletesAt (i : Instr) (s t : State) : Prop := exec i s = .next t ∧ t.pending = s.pending

/-- `c'` agrees with `c` in every register but those of `as`, in every tile but those of `ts`, in every byte of memory, and in
every other part of the chip. -/
def Frame (as ts : List Nat) (c c' : Chip) : Prop :=
  (∀ a, a ∉ as → reg c' a = reg c a) ∧ (∀ t, t ∉ ts → tile c' t = tile c t) ∧
    c' = { c with regs := c'.regs, tiles := c'.tiles }

/-- The sequencer of tile `t` has moved to the next word (R103). -/
def PastWord (t : Nat) (c c' : Chip) : Prop :=
  (tile c' t).seq.pc = ((tile c t).seq.pc + 1) % 2048 ∧ (tile c' t).seq.mode = .executing

/-- The sequencer of tile `t` waits at its word (R104, R105). -/
def WaitsAtWord (t : Nat) (c c' : Chip) : Prop :=
  (tile c' t).seq.pc = (tile c t).seq.pc ∧ (tile c' t).seq.mode = .waiting

/-- Register `a` has advanced by `n`, stopping at its maximum (R23). -/
def Advanced (a n : Nat) (c c' : Chip) : Prop := (reg c' a).toNat = min ((reg c a).toNat + n) 4294967295

/-- No word of the events that tile `t` holds in its spill carries an error (R91). -/
def SpillClean (t : Nat) (c : Chip) : Prop := ∀ i, i < (tile c t).evq.spillLen → eccIn c (spillAddr c t i) 8 = []

/-- The registers in which a read of tile `t`'s memories leaves its errors (R91, Table 3.4). -/
def eccRegs (t : Nat) : List Nat :=
  [Reg.TILE_FAULT t, Reg.TILE_SRAM_CE t, Reg.TILE_SRAM_UE t, Reg.TILE_STORE_CE t, Reg.TILE_STORE_UE t, Reg.TILE_ECC_LAST t]

/-- Router `t` holds no flit and no combined collective. -/
def QuietRouter (t : Nat) (c : Chip) : Prop := (router c t).buf = [] ∧ (router c t).collOut = []

/-- A half-block whose body flits are `body` taken by the broadcast receiver of tile `t` (R301): its bit of the bitmap, the
accumulator and the bytes it writes. -/
def HalfTaken (t : Nat) (body : List DWord) (c c' : Chip) : Prop :=
  let d0 := fData (body.getD 0 0#64)
  let n := bits d0 12 8
  let h := bits d0 13 13
  let data := (bodyBytes (body.drop 2)).take 128
  bcMap c' t = (bcMap c t).lor (2 ^ (2 * n + h)) ∧
    reg c' (Reg.CHN_BC_CRC t) = reg c (Reg.CHN_BC_CRC t) ^^^ BitVec.ofNat 32 (crc32 ([BitVec.ofNat 8 n, BitVec.ofNat 8 h] ++ data)) ∧
    ∀ a, byteAt c' a = byteAt (dmaWrite t (regionBase c t 3 - win t + 256 * n + 128 * h) data c) a

/-- Whether the half-block of `body` is for the row of tile `t` (R301). -/
def RowNamed (t : Nat) (body : List Flit) : Prop :=
  let d0 := fData ((body.map (fun f => f.data)).getD 0 0#64)
  bits d0 25 20 ≤ tileY t ∧ tileY t ≤ bits d0 31 26

/-- A half-block that the receiver of tile `t` accepts: enabled, of the load it has adopted, for this row, not yet taken, not
poisoned and clear of the schedule that runs (R301). -/
def HalfAcceptable (t : Nat) (h : Flit) (body : List Flit) (c : Chip) : Prop :=
  let bs := body.map (fun f => f.data)
  let d0 := fData (bs.getD 0 0#64)
  let n := bits d0 12 8
  let k := bits d0 13 13
  rflag c (Reg.CHN_BC_CTRL t) 0 = true ∧ anyPoison h body = false ∧ bits d0 25 20 ≤ tileY t ∧ tileY t ≤ bits d0 31 26 ∧
    rfld c (Reg.CHN_BC_STATUS t) 7 0 = bits d0 7 0 ∧ bit (bcMap c t) (2 * n + k) = false ∧
    ∀ i, i < 128 → inSchedule c t (regionBase c t 3 - win t + 256 * n + 128 * k + i) = false

/-- A step that neither faults nor is refused. -/
def StepRuns (s : State) : Prop := ∃ t, step s = .next t

/-- `n` steps from `s`, none of which stops. -/
def runs : Nat → State → Prop
  | 0, _ => True
  | n + 1, s => ∃ t, step s = .next t ∧ runs n t

/-- Adjacent sources in service on one target stand with the higher PRIO claimed later: from the newest back, the PRIOs fall
strictly (R444). `p` is the PRIO of the newer neighbour. -/
def fallingFrom (p : Nat) : List Service → Prop
  | [] => True
  | x :: xs => x.prio < p ∧ fallingFrom x.prio xs

/-- The sources in service on each target were claimed at strictly rising PRIOs, each between 1 and 15 (R442, R444). -/
def ServiceOrder (irq : List Service) : Prop :=
  ∀ k, fallingFrom 16 (irq.filter (fun x => x.target == k)) ∧ ∀ x ∈ irq, 1 ≤ x.prio

/-- Fuses of the Thistle core only move one way (R461, R465, R467, R476): the root hashes, DEBUG_LOCK and the device seed stay, a
revoked slot stays revoked, a killed seed stays killed and no minimum SVN falls. -/
def FusesOneWay (x y : Sec) : Prop :=
  y.rootHash = x.rootHash ∧ y.debugLock = x.debugLock ∧ y.seed = x.seed ∧
    (∀ k, slotRevoked x k = true → slotRevoked y k = true) ∧ (x.seedKill = true → y.seedKill = true) ∧
    ∀ typ, numOf x.svnMin typ ≤ numOf y.svnMin typ

/-- One of the four root slots is not revoked (R465). -/
def SlotLeft (x : Sec) : Prop := ∃ k, k < 4 ∧ slotRevoked x k = false

/-- Command `i` ends the service of mailbox command `j`, which stood in front of `rest`, with CODE `code`: DONE or FAILED, the SEQ
and the code in the mailbox's SEC_STATUS (R477, Table 17.9). -/
def ServiceEnds (i : Instr) (s : State) (j : SecJob) (rest : List SecJob) (code : Nat) (t : State) : Prop :=
  CompletesAt i s t ∧ t.chip.secQ = rest ∧ t.irq = s.irq ∧
    reg t.chip (Reg.SEC_STATUS j.src) = BitVec.ofNat 32 ((if code = 0 then 3 else 4) * 2 ^ 29 + j.seq * 2 ^ 16 + code)

/-- As `ServiceEnds`, with nothing else changed. -/
def ServiceRefused (i : Instr) (s : State) (j : SecJob) (rest : List SecJob) (code : Nat) : Prop :=
  ∃ t, ServiceEnds i s j rest code t ∧ t.sec = s.sec ∧ Frame [Reg.SEC_STATUS j.src] [] s.chip { t.chip with secQ := s.chip.secQ }

/-- The tile whose own action a command is, with the tile named by the command (R419). -/
def tileOf : Instr → Option Nat
  | .nop t | .waitUntil t .. | .waitUntilExpire t .. | .integrate t | .update t .. | .emitFlit t .. | .emitMessage t
  | .gatherBegin t | .gatherEnd t | .gatherDone t .. | .digest t | .traceStep t | .mow t .. | .rotateState t
  | .sampleCheck t .. | .census t | .endWord t .. | .illegalWord t | .seqEnSet t | .seqEnClear t | .fenceSet t
  | .pepperReload t | .prime t | .sramRetRequest t .. | .bankWakeDone t .. | .eventArrive t | .scatterEvent t ..
  | .gatherInput t | .streamReply t | .partnerWaitExpire t | .cbLoad t | .cbLoadDone t | .learnIncrement t
  | .feedbackEvent t | .labelPush t .. | .ckptAck t | .mowCountSet t .. | .flitRx t .. | .creditReturn t ..
  | .routerWatchdog t .. | .outFenceClear t .. | .routeTableWrite t .. | .injStop t | .collectiveRx t
  | .messageHead t .. | .messageTail t .. | .rptrWrite t .. | .ringOpen t .. | .ringClose t .. | .columnLoad t ..
  | .tileLoad t .. | .bcClear t | .echo t | .decClear t => some t.val
  | _ => none

/-- The OP of the mailbox command that a service serves (Table 17.7). -/
def serviceOp : Instr → Option Nat
  | .secStatus => some 1 | .secSelftest _ => some 2 | .secAttest => some 3 | .secFwUpdate => some 4 | .secKeyLoad => some 5
  | .secKeyClear => some 6 | .secRevoke => some 7 | .secDebugUnlock => some 8 | .secZeroize => some 9
  | .secCoreStart => some 10 | .secRandom => some 11
  | _ => none

/-- Whether a command is one through which the Thistle core's own state can change: its services, verification and licence
loads, starts and resets, firmware pieces that the recovery interface brings, and a write of a register, which can ask for any
of these. -/
def mayChangeSec : Instr → Bool
  | .secSelftest _ | .secFwUpdate | .secKeyLoad | .secKeyClear | .secRevoke | .secDebugUnlock | .secZeroize
  | .verifyDone | .licDone | .powerOn _ | .startStageDone .. | .startFail _ | .startHoldExpire | .startTimeLimit
  | .bootWdogExpire | .loadCensus | .bootWarm | .bootCold | .resetNLow | .pwrGoodFall | .rstCc _ | .resetDone | .runtimeWdogExpire
  | .thermalSample .. | .sysClkLoss | .sysClkRestored | .recoveryPiece _ | .registerWrite .. | .mgmtWrite _ | .mgmtRead _
  | .bar0Write .. | .bar2Access .. => true
  | _ => false

end Sys2Proof.Safety
end

