-- ==== Sys2Proof/Certificates/Slice0/Obligations.lean ====
section
/-!
DEFINITION. The statements about the machine, each from the spec's numbered rules. `Completes` says that a command answers a
next state and names the chip it leaves; `Frame` says what it left alone.
-/

open Sys2Proof Sys2Proof.Machine Sys2Proof.Safety


/-! ### The machine as a whole -/

/-- For every command c and state s, step of s with c put at the front of its queue is exec of c on s with the queue's rest. -/
def Obligations.StepRunsFrontCommand : Prop :=
  ∀ (c : Instr) (s : State) (rest : List Instr),
    step { s with pending := c :: rest } = exec c { s with pending := rest }

/-- A step on an empty queue answers the same state (the model's own choice, log entry 1), and the state after reset has an empty queue, no register away from its reset value, no byte of memory listed, no source in service, no tile, router or timebase away from its reset state, and no free value taken. -/
def Obligations.EmptyQueueIdlesAndResetIsBare : Prop :=
  (∀ s : State, s.pending = [] → step s = .next s) ∧ State.reset.pending = [] ∧
    (∀ a, reg State.reset.chip a = regReset a) ∧ State.reset.chip.mem = [] ∧ State.reset.irq = [] ∧
    (∀ t, tile State.reset.chip t = {}) ∧ (∀ t, router State.reset.chip t = {}) ∧
    (∀ j, (tbAt State.reset.chip j).phase = .idle) ∧ State.reset.chip.free = 0

/-- Every one of the 512 interrupt sources is masked in the state after reset. Whatever the state, a masked source is deliverable to no target and no claim selects it, and masking more sources leaves every pending bit as it was (of R445's choice the model never returns a source just masked). -/
def Obligations.MaskedSourceIsNeverSelected : Prop :=
  (∀ n, n < 512 → isMasked State.reset.chip n = true) ∧
  (∀ (s : State) (k n : Nat), isMasked s.chip n = true →
    deliverable s.irq s.chip k n = false ∧ candidate s.irq s.chip k ≠ some n) ∧
  (∀ (w : Fin 16) (v : Word) (s : State), ∃ c', Completes (.irqMaskSet w v) s c' ∧
    reg c' (Reg.IRQ_MASK w.val) = reg s.chip (Reg.IRQ_MASK w.val) ||| v ∧
    (∀ n, isPending c' n = isPending s.chip n) ∧ Frame [Reg.IRQ_MASK w.val] [] s.chip c')

/-- In the state after reset registers read, at their device addresses, what the tables give: tick controller, tile regions, power controller, interrupt sources and the collective tree of a router. -/
def Obligations.ResetRegistersReadTheirValues : Prop :=
  reg State.reset.chip 0x200000500000 = 0x00020802#32 ∧ reg State.reset.chip 0x200000500010 = 0x00000008#32 ∧
  reg State.reset.chip 0x100000080070 = 0x03000000#32 ∧ reg State.reset.chip 0x10000008008C = 0x006007A0#32 ∧
  reg State.reset.chip 0x1001FFF80074 = 0x00800300#32 ∧
  reg State.reset.chip 0x20000010000C = 0x0000001E#32 ∧
  reg State.reset.chip 0x200000201000 = 0x00000070#32 ∧ reg State.reset.chip 0x200000201190 = 0x00000170#32

/-- Every command of the table answers a next state in every state: none faults, none is refused. It leaves the queue of waiting commands as it was. -/
def Obligations.EveryCommandCompletes : Prop := ∀ (i : Instr) (s : State), ∃ t, CompletesAt i s t

/-- If on every target the sources in service were claimed at strictly rising PRIOs of 1 to 15, the same holds after every step that answers a next state. -/
def Obligations.StepKeepsServiceOrder : Prop :=
  ∀ s t : State, ServiceOrder s.irq → step s = .next t → ServiceOrder t.irq

/-- In the state after reset nothing is in service, so the service order holds, and a root slot is left. -/
def Obligations.ResetHasServiceOrderAndSlot : Prop := ServiceOrder State.reset.irq ∧ SlotLeft State.reset.sec

/-- Whatever command a step runs, the Thistle core's root hashes, DEBUG_LOCK and device seed stay, a revoked root slot stays revoked, a killed seed stays killed and no minimum SVN falls; and if one of the four root slots is not revoked before the step, one is not revoked after it. -/
def Obligations.NoStepTurnsAFuseBack : Prop :=
  ∀ s t : State, step s = .next t → FusesOneWay s.sec t.sec ∧ (SlotLeft s.sec → SlotLeft t.sec)

/-- A command that is neither a service of the Thistle core that changes its state, nor a completed verification or licence load, nor part of a start or a reset, nor a recovery piece, nor a register access leaves every key, fuse, grant and firmware slot of the Thistle core as it was. -/
def Obligations.OnlyThistlePathsChangeSec : Prop :=
  ∀ (i : Instr) (s t : State), mayChangeSec i = false → exec i s = .next t → t.sec = s.sec


/-! ### The tile: sequencer, control bits, banks, arriving events -/

/-- Where the tile's field is ON and its sequencer stands at a good word of that opcode: NOP and INTEGRATE take the next word, INTEGRATE putting integration in force; WAIT_UNTIL takes it when its time is past and waits at its word else; WAIT_UNTIL_EXPIRE takes it once its time has come; ROTATE_STATE, after update end, advances TILE_RING.HEAD by 1 mod 3 and takes it. Nothing else changes but the tile's own units, TILE_SRAM_CE and, for ROTATE_STATE, TILE_RING. -/
def Obligations.PlainScheduleWordsAdvance : Prop :=
  ∀ (t : Fin 8192) (now : Nat) (s : State), domOn s.chip (fieldOf t) = true →
    (atWord s.chip t 0x00 = true → ∃ c', Completes (.nop t) s c' ∧ PastWord t s.chip c' ∧
      Frame [Reg.TILE_SRAM_CE t] [t.val] s.chip c') ∧
    (atWord s.chip t 0x01 = true → ∃ c', Completes (.waitUntil t now) s c' ∧
      (if waitOver s.chip t now then PastWord t s.chip c' else WaitsAtWord t s.chip c') ∧
      Frame [Reg.TILE_SRAM_CE t] [t.val] s.chip c') ∧
    (atWord s.chip t 0x01 = true → (tile s.chip t).seq.mode = .waiting → waitOver s.chip t now = true →
      ∃ c', Completes (.waitUntilExpire t now) s c' ∧ PastWord t s.chip c' ∧ Frame [Reg.TILE_SRAM_CE t] [t.val] s.chip c') ∧
    (atWord s.chip t 0x02 = true → ∃ c', Completes (.integrate t) s c' ∧ PastWord t s.chip c' ∧
      (tile c' t).seq.integrate = true ∧ Frame [Reg.TILE_SRAM_CE t] [t.val] s.chip c') ∧
    (atWord s.chip t 0x0A = true → endReached s.chip t = true → ∃ c', Completes (.rotateState t) s c' ∧ PastWord t s.chip c' ∧
      ringHead c' t = (ringHead s.chip t + 1) % 3 ∧ (tile c' t).seq.rotated = true ∧
      Frame [Reg.TILE_SRAM_CE t, Reg.TILE_RING t] [t.val] s.chip c')

/-- At an END word the sequencer goes to ENDED (STOPPED when SEQ_EN is 0), TILE_END_CLK takes the clk since the tick and TILE_END_MAX the larger of itself and it. At an illegal word, or one whose fetch is uncorrectable, of a tile that is not fenced: the fault bit (0 illegal, 1 uncorrectable) is raised, TILE_FAULT_PC takes the pointer, FENCE becomes 1, the sequencer stands in FAULT, and a tile of a job reports cause 10 for the step it works on; the spill entries that the fence drops are read, and their errors are noted and reported as cause 3. -/
def Obligations.EndAndIllegalWords : Prop :=
  ∀ (t : Fin 8192) (clk : Nat) (s : State), domOn s.chip (fieldOf t) = true →
    (atWord s.chip t 0x3F = true → ∃ c', Completes (.endWord t clk) s c' ∧
      (tile c' t).seq.mode = (if seqEn s.chip t then .ended else .stopped) ∧
      rfld c' (Reg.TILE_END_CLK t) 24 0 = min clk 0x1FFFFFF ∧
      (reg c' (Reg.TILE_END_MAX t)).toNat = max (reg s.chip (Reg.TILE_END_MAX t)).toNat (min clk 0x1FFFFFF) ∧
      Frame [Reg.TILE_SRAM_CE t, Reg.TILE_END_CLK t, Reg.TILE_END_MAX t] [t.val] s.chip c') ∧
    (seqBusy s.chip t = true → fenced s.chip t = false → (fetchUe s.chip t || wIllegal (wordAt s.chip t)) = true →
      ∃ c', Completes (.illegalWord t) s c' ∧
        rflag c' (Reg.TILE_FAULT t) (if fetchUe s.chip t then 1 else 0) = true ∧
        reg c' (Reg.TILE_FAULT_PC t) = BitVec.ofNat 32 (tile s.chip t).seq.pc ∧ fenced c' t = true ∧
        (tile c' t).seq.mode = .fault ∧
        (∀ j, jobOfTile s.chip t = some j → ∃ l, c'.reports = s.chip.reports ++
          { job := j, step := jobStep s.chip j, cause := 10, tile := t.val, checker := t.val } :: l ∧
          (SpillClean t s.chip → l = []) ∧ ∀ r, r ∈ l → r.cause = 3 ∧ r.tile = t.val) ∧
        Frame ([Reg.TILE_FAULT_PC t, Reg.TILE_CTRL t, Reg.TILE_DROP_FENCED t] ++ eccRegs t) [t.val] s.chip
          { c' with reports := s.chip.reports })

/-- SEQ_EN_SET on a tile whose SEQ_EN is 0 sets it and a stopped or idle sequencer waits for the tick; SEQ_EN_CLEAR clears it and a sequencer that waits for the tick or has ended stops. FENCE_SET on a tile that is not fenced sets FENCE, puts the sequencer in FENCED, empties queue and spill and counts every event that they held in TILE_DROP_FENCED (reading the spill, whose errors are noted). PEPPER_RELOAD loads the generator from TILE_PEPPER_SEED. PRIME with SEQ_EN 0 marks every neuron of every slot. Nothing else changes. -/
def Obligations.TileControlBits : Prop :=
  ∀ (t : Fin 8192) (s : State), domOn s.chip (fieldOf t) = true →
    (seqEn s.chip t = false → ∃ c', Completes (.seqEnSet t) s c' ∧ reg c' (Reg.TILE_CTRL t) = putBit (reg s.chip (Reg.TILE_CTRL t)) 0 true ∧
      (tile c' t).seq.mode = (match (tile s.chip t).seq.mode with | .stopped | .ended => .waitTick | m => m) ∧
      Frame [Reg.TILE_CTRL t] [t.val] s.chip c') ∧
    (seqEn s.chip t = true → ∃ c', Completes (.seqEnSet t) s c' ∧ c' = s.chip) ∧
    (∃ c', Completes (.seqEnClear t) s c' ∧ reg c' (Reg.TILE_CTRL t) = putBit (reg s.chip (Reg.TILE_CTRL t)) 0 false ∧
      (tile c' t).seq.mode = (match (tile s.chip t).seq.mode with | .waitTick | .ended => .stopped | m => m) ∧
      Frame [Reg.TILE_CTRL t] [t.val] s.chip c') ∧
    (fenced s.chip t = false → ∃ c', Completes (.fenceSet t) s c' ∧ reg c' (Reg.TILE_CTRL t) = putBit (reg s.chip (Reg.TILE_CTRL t)) 31 true ∧
      (tile c' t).seq.mode = .fenced ∧ (tile c' t).evq.queue = [] ∧ (tile c' t).evq.spillLen = 0 ∧
      Advanced (Reg.TILE_DROP_FENCED t) (heldEvents s.chip t).length s.chip c' ∧
      Frame ([Reg.TILE_CTRL t, Reg.TILE_DROP_FENCED t] ++ eccRegs t) [t.val] s.chip { c' with reports := s.chip.reports } ∧
      (SpillClean t s.chip → Frame [Reg.TILE_CTRL t, Reg.TILE_DROP_FENCED t] [t.val] s.chip c')) ∧
    (∃ c', Completes (.pepperReload t) s c' ∧
      tile c' t = { tile s.chip t with
        pepper := BitVec.ofNat 64 (pepperSeed (reg2 s.chip (Reg.TILE_PEPPER_SEED_LO t) (Reg.TILE_PEPPER_SEED_HI t))) } ∧
      Frame [] [t.val] s.chip c') ∧
    (seqEn s.chip t = false → ∃ c', Completes (.prime t) s c' ∧
      (∀ k, k < 3 → mapGet (fun _ => 0) (tile c' t).nrn.upd k = allNeurons ∧ mapGet (fun _ => 0) (tile c' t).nrn.pst k = allNeurons) ∧
      Frame [] [t.val] s.chip c')

/-- SRAM_RET_REQUEST acts on each of the eight banks by itself: a bank asked into retention that the image does not use enters it; one that TILE_SRAM_USE marks stays and raises TILE_FAULT bit 4; a retained bank asked out leaves it and is waking; any other bank keeps its bits. BANK_WAKE_DONE ends the waking of its bank. -/
def Obligations.BankRetention : Prop :=
  ∀ (t : Fin 8192) (banks : Byte) (b : Fin 8) (s : State), domOn s.chip (fieldOf t) = true →
    (∃ c', Completes (.sramRetRequest t banks) s c' ∧
      (bit banks.toNat b = true → rflag s.chip (Reg.TILE_SRAM_RET t) b = false → rflag s.chip (Reg.TILE_SRAM_USE t) b = false →
        rflag c' (Reg.TILE_SRAM_RET t) b = true ∧ rflag c' (Reg.TILE_SRAM_RET_STATUS t) b = true ∧
        rflag c' (Reg.TILE_SRAM_RET_STATUS t) (8 + b) = false) ∧
      (bit banks.toNat b = true → rflag s.chip (Reg.TILE_SRAM_RET t) b = false → rflag s.chip (Reg.TILE_SRAM_USE t) b = true →
        rflag c' (Reg.TILE_SRAM_RET t) b = false ∧ rflag c' (Reg.TILE_FAULT t) 4 = true) ∧
      (bit banks.toNat b = false → rflag s.chip (Reg.TILE_SRAM_RET t) b = true →
        rflag c' (Reg.TILE_SRAM_RET t) b = false ∧ rflag c' (Reg.TILE_SRAM_RET_STATUS t) b = false ∧
        rflag c' (Reg.TILE_SRAM_RET_STATUS t) (8 + b) = true) ∧
      (bit banks.toNat b = rflag s.chip (Reg.TILE_SRAM_RET t) b →
        rflag c' (Reg.TILE_SRAM_RET t) b = rflag s.chip (Reg.TILE_SRAM_RET t) b) ∧
      Frame [Reg.TILE_SRAM_RET t, Reg.TILE_SRAM_RET_STATUS t, Reg.TILE_FAULT t] [] s.chip c') ∧
    (∃ c', Completes (.bankWakeDone t b) s c' ∧
      reg c' (Reg.TILE_SRAM_RET_STATUS t) = putBit (reg s.chip (Reg.TILE_SRAM_RET_STATUS t)) (8 + b) false ∧
      Frame [Reg.TILE_SRAM_RET_STATUS t] [] s.chip c')

/-- EVENT_ARRIVE with an event at the Local port: a fenced tile drops it and counts it in TILE_DROP_FENCED; a tile that is not fenced drops an event of the closed parity and counts it in TILE_DROP_LATE; any other event that is no gather input, while the queue has a free entry and the spill is empty, stands last in the queue. In each case the event leaves the port. -/
def Obligations.ArrivingEvents : Prop :=
  ∀ (t : Fin 8192) (s : State) (f : Flit) (fs : List Flit), domOn s.chip (fieldOf t) = true →
    (tile s.chip t).evq.arrived = f :: fs →
    (fenced s.chip t = true → ∃ c', Completes (.eventArrive t) s c' ∧ (tile c' t).evq.arrived = fs ∧
      (tile c' t).evq.queue = (tile s.chip t).evq.queue ∧ Advanced (Reg.TILE_DROP_FENCED t) 1 s.chip c' ∧
      Frame [Reg.TILE_DROP_FENCED t] [t.val] s.chip c') ∧
    (fenced s.chip t = false → isLate s.chip t f.data = true → ∃ c', Completes (.eventArrive t) s c' ∧
      (tile c' t).evq.arrived = fs ∧ (tile c' t).evq.queue = (tile s.chip t).evq.queue ∧
      Advanced (Reg.TILE_DROP_LATE t) 1 s.chip c' ∧ Frame [Reg.TILE_DROP_LATE t] [t.val] s.chip c') ∧
    (fenced s.chip t = false → isLate s.chip t f.data = false → isGatherInput s.chip t f.data = false →
      (tile s.chip t).evq.queue.length < 256 → (tile s.chip t).evq.spillLen = 0 → ∃ c', Completes (.eventArrive t) s c' ∧
      (tile c' t).evq.arrived = fs ∧ (tile c' t).evq.queue = (tile s.chip t).evq.queue ++ [f.data] ∧
      Frame [Reg.TILE_EQ_HWM t] [t.val] s.chip c')


/-! ### Neurons, synapses and the decoder -/

/-- At an UPDATE word before update go the sequencer waits. After it, with nothing queued from a pause, no decoder on the tile and exactly one active neuron, whose POP names the population that holds it, which does not fire and whose accumulator lies apart from its state: the working slot takes the state that update_neuron of R131 gives, the accumulator becomes zero, every other byte of memory stays, NRN_FIRED_LAST takes the step's count, NRN_UPDATE_CLK the clk, and the sequencer takes the next word. -/
def Obligations.UpdateWordUpdatesANeuron : Prop :=
  ∀ (t : Fin 8192) (clk i : Nat) (s : State), domOn s.chip (fieldOf t) = true → atWord s.chip t 0x03 = true →
    (goReached s.chip t = false → ∃ c', Completes (.update t clk) s c' ∧ WaitsAtWord t s.chip c') ∧
    (goReached s.chip t = true → (tile s.chip t).nrn.updLeft = none → (tile s.chip t).nrn.emitPend = [] →
      decEn s.chip t = false →
      let first := bits (wordAt s.chip t) 7 4
      let last := bits (wordAt s.chip t) 3 0
      let st := nstateOf (bytesAt s.chip (nrnAddr s.chip t (ringHead s.chip t) i) 16)
      let j := popHolding s.chip t first last i
      let bank := readBank (tileStep s.chip t)
      let hot := (bmp (tile s.chip t).nrn.acc bank).getLsbD i
      let acc := accAddr s.chip t bank i
      let out := nrnAddr s.chip t (workSlot s.chip t) i
      let o := updateNeuron (popAt s.chip t j) st (if hot then signed 32 (numAt s.chip acc 4) else 0) (tileStep16 s.chip t) hot
        (rfld s.chip (Reg.LRN_TRACE_CFG t) 7 0) (rfld s.chip (Reg.LRN_TRACE_CFG t) 15 8)
      activeNeurons s.chip t first last = [i] → st.pop = j → o.fired = false → (acc + 4 ≤ out ∨ out + 16 ≤ acc) →
      ∃ c', Completes (.update t clk) s c' ∧ PastWord t s.chip c' ∧ bytesAt c' out 16 = nstateBytes o.state ∧
        numAt c' acc 4 = 0 ∧
        (∀ a, (a < out ∨ out + 16 ≤ a) → (a < acc ∨ acc + 4 ≤ a) → byteAt c' a = byteAt s.chip a) ∧
        reg c' (Reg.NRN_FIRED_LAST t) = BitVec.ofNat 32 (tile s.chip t).nrn.firedNow ∧
        rfld c' (Reg.NRN_UPDATE_CLK t) 24 0 = clk % 2 ^ 25)

/-- EMIT_FLIT with a flit in the emission queue, room in the router's Local input on VC0 and injection not stopped: the flit leaves the queue and stands last on the wire into the Local input on VC0. DEC_CLEAR with SEQ_EN 0: every count of every slot of the count ring reads zero, AGE_FULL is 0 and the next step becomes the window's start; with SEQ_EN 1 it does nothing. -/
def Obligations.EmissionAndDecoderClear : Prop :=
  ∀ (t : Fin 8192) (clk : Nat) (s : State), domOn s.chip (fieldOf t) = true →
    (∀ f fs, (tile s.chip t).nrn.emitq = f :: fs → (tile s.chip t).nrn.emitPend = [] → inRoom s.chip t 4 0 = true →
      rflag s.chip (Reg.RTR_CTRL t) 0 = false → ∃ c', Completes (.emitFlit t clk) s c' ∧ (tile c' t).nrn.emitq = fs ∧
        wire c' t 4 0 = wire s.chip t 4 0 ++ [oneFlit 0 f] ∧ rfld c' (Reg.NRN_UPDATE_CLK t) 24 0 = clk % 2 ^ 25 ∧
        Frame [Reg.NRN_UPDATE_CLK t] [t.val] s.chip { c' with wires := s.chip.wires }) ∧
    (seqEn s.chip t = false → ∃ c', Completes (.decClear t) s c' ∧
      (∀ slot k, slot < 256 → k < 28 → slotCount c' t slot k = 0) ∧ rflag c' (Reg.DEC_STATUS t) 31 = false ∧
      (tile c' t).dec.fresh = true) ∧
    (seqEn s.chip t = true → Completes (.decClear t) s s.chip)

/-- For a tile that integrates and is not fenced: with a fetched row in progress at target j, the event's bank of that target's accumulator takes the saturated sum of its old value and the saturated term of R175, and every other byte of memory stays; an event taken next whose key has no entry leaves the queue and is counted in SYN_DROP_NOKEY. A gather input at the Local port whose position is neither written nor consumed writes its value there and marks the position; one whose position is consumed is counted in SYN_GIN_LATE. -/
def Obligations.ScatterAndGatherInputs : Prop :=
  ∀ (t : Fin 8192) (s : State), domOn s.chip (fieldOf t) = true → fenced s.chip t = false →
    (∀ f r j, (tile s.chip t).seq.integrate = true → (tile s.chip t).syn.fetching = some (f, r, j) →
      j < hLen r.header → (tile s.chip t).syn.run = none →
      let a := accAddr s.chip t (fParity f) (aTgt r.entry + j * aStep r.entry)
      let g := j / groupSize (hGsize r.header)
      let sc := bits (r.scales.getD (g / 4) 0) (16 * (g % 4) + 15) (16 * (g % 4))
      let code := codeIn (hWidth r.header) j (r.codes.getD (j / codesPerUnit (hWidth r.header)) 0)
      let term := termExact (cbEntry s.chip t (hCb r.header) code) (if fKind f = 0 then 1 else (fValue f : Int)) sc
      ∃ c', Completes (.scatterEvent t 1) s c' ∧
        numAt c' a 4 = unsign 32 (satInt 32 (signed 32 (numAt s.chip a 4) + satInt 32 term)) ∧
        (∀ x, (x < a ∨ a + 4 ≤ x) → byteAt c' x = byteAt s.chip x) ∧
        (tile c' t).syn.fetching = (if j + 1 < hLen r.header then some (f, r, j + 1) else none)) ∧
    (∀ f, (tile s.chip t).seq.integrate = true → (tile s.chip t).syn.fetching = none → (tile s.chip t).syn.run = none →
      (tile s.chip t).evq.spillLen = 0 → nextEntry s.chip t = some f → fKind f ≠ 6 → isGatherInput s.chip t f = false →
      keyCount s.chip t ≤ keyIndex s.chip t (fAxon f) → ∃ c', Completes (.scatterEvent t 1) s c' ∧
        (tile c' t).evq.queue = (tile s.chip t).evq.queue.erase f ∧ Advanced (Reg.SYN_DROP_NOKEY t) 1 s.chip c' ∧
        Frame [Reg.SYN_DROP_NOKEY t] [t.val] s.chip c') ∧
    (∀ f fs, (tile s.chip t).evq.arrived = f :: fs → isLate s.chip t f.data = false → isGatherInput s.chip t f.data = true →
      let k := 4096 * fParity f.data + ginPos s.chip t (fAxon f.data)
      (mapGet (fun _ => false) (tile s.chip t).syn.ginUsed k = false →
        mapGet (fun _ => false) (tile s.chip t).syn.ginWritten k = false → ∃ c', Completes (.gatherInput t) s c' ∧
          (tile c' t).evq.arrived = fs ∧ mapGet (fun _ => 0#8) (tile c' t).syn.gin k = BitVec.ofNat 8 (fValue f.data) ∧
          mapGet (fun _ => false) (tile c' t).syn.ginWritten k = true ∧ Frame [] [t.val] s.chip c') ∧
      (mapGet (fun _ => false) (tile s.chip t).syn.ginUsed k = true → ∃ c', Completes (.gatherInput t) s c' ∧
          (tile c' t).evq.arrived = fs ∧ Advanced (Reg.SYN_GIN_LATE t) 1 s.chip c' ∧
          Frame [Reg.SYN_GIN_LATE t] [t.val] s.chip c'))

/-- At a GATHER_BEGIN word with no gather begun: an entry that is absent or of no gather mode counts a header mismatch and the sequencer goes on; a resident entry whose header agrees becomes the running gather of the open parity's bank and the sequencer goes on. At a GATHER_END word the sequencer waits while the entry's gather is begun and not completed and goes on else. GATHER_DONE of the only gather begun, resident with one target and one group, with no row in progress: the target's accumulator takes the saturated sum of its old value and the group's scaled sum, SYN_GATHER_CLK takes the clk, and no gather runs. -/
def Obligations.GatherWords : Prop :=
  ∀ (t : Fin 8192) (clk : Nat) (s : State), domOn s.chip (fieldOf t) = true →
    (atWord s.chip t 0x05 = true → (tile s.chip t).syn.run = none →
      let i := bits (wordAt s.chip t) 10 0
      let a := gatherEntry s.chip t i
      ((keyCount s.chip t ≤ i ∨ aMode a = 0 ∨ aMode a = 3) → ∃ c', Completes (.gatherBegin t) s c' ∧ PastWord t s.chip c' ∧
        Advanced (Reg.SYN_HDR_MISMATCH t) 1 s.chip c' ∧ rflag c' (Reg.SYN_FAULT t) 0 = true) ∧
      (i < keyCount s.chip t → aMode a = 1 → headerOk a (unitAt s.chip t (aRow a)) = true →
        ∃ c', Completes (.gatherBegin t) s c' ∧ PastWord t s.chip c' ∧ (tile c' t).syn.run = some
          { entry := i, word := a, header := unitAt s.chip t (aRow a), wAddr := 0, sAddr := 0, bank := openParity s.chip t
            streamed := false, pairs := 0, requested := 0, consumed := 0 } ∧
          (∀ x, byteAt c' x = byteAt s.chip x))) ∧
    (atWord s.chip t 0x06 = true → ∃ c', Completes (.gatherEnd t) s c' ∧
      (if gathering s.chip t (bits (wordAt s.chip t) 10 0) then WaitsAtWord t s.chip c' else PastWord t s.chip c') ∧
      Frame [Reg.TILE_SRAM_CE t] [t.val] s.chip c') ∧
    (∀ g, (tile s.chip t).syn.run = some g → (tile s.chip t).syn.wait = none → (tile s.chip t).syn.fetching = none →
      g.streamed = false →
      let a := g.word
      let h := g.header
      let x := accAddr s.chip t g.bank (aTgt a)
      let code (i : Nat) : Nat := codeIn (hWidth h) i (unitAt s.chip t (aRow a + 1 + i / codesPerUnit (hWidth h)))
      aLen a = 1 → hLen h = groupSize (hGsize h) → 0 < groupSize (hGsize h) → ∃ c', Completes (.gatherDone t clk) s c' ∧
        numAt c' x 4 = unsign 32 (satInt 32 (signed 32 (numAt s.chip x 4) +
          satInt 32 (scaleExact (groupSum s.chip t g a h 0 code) (bits (unitAt s.chip t (hScale h)) 15 0)))) ∧
        rfld c' (Reg.SYN_GATHER_CLK t) 24 0 = clk % 2 ^ 25 ∧ (tile c' t).syn.run = none)

/-- STREAM_REPLY with the last packet of a requested, unspoiled weight block and no scale block waiting: the block joins the weight queue and its request is closed. PARTNER_WAIT_EXPIRE during a partner wait of a running gather: the gather ends, SYN_SLIP_COUNT advances, SYN_SLIP_LAST carries cause 2 and the expected sequence number, SYN_SLIP_ENTRY the entry, and the fault bit is raised. CB_LOAD with SEQ_EN 0 begins a load, which CB_LOAD_DONE ends: every entry of the codebooks that SYN_CB_CFG names holds the 16 bits of the store. -/
def Obligations.StreamedBlocksAndCodebooks : Prop :=
  ∀ (t : Fin 8192) (s : State), domOn s.chip (fieldOf t) = true →
    (∀ p h body r, dmaFind s.chip t 4 (fun _ => true) = some (p, h, body) → (tile s.chip t).syn.reqs = [r] →
      r.tag = fSub h.data % 8192 → r.tag / 256 % 2 = 0 → fSub h.data / 8192 = 0 → r.len ≤ (r.got + 1) * 217 →
      r.spoiled = false → h.poison = false → (∀ f ∈ body, f.poison = false) → (tile s.chip t).syn.sq = [] →
      ∃ c', Completes (.streamReply t) s c' ∧ (tile c' t).syn.reqs = [] ∧ (tile c' t).syn.wq = (tile s.chip t).syn.wq ++
        [{ seq := r.tag % 256, data := (r.data ++ bodyBytes (body.map (fun f => f.data))).take r.len }] ∧
        (r.ue = false → c'.reports = s.chip.reports) ∧ Frame [] [t.val] s.chip { c' with reports := s.chip.reports }) ∧
    (∀ g, (tile s.chip t).syn.run = some g → (tile s.chip t).syn.pwait ≠ 0 → ∃ c', Completes (.partnerWaitExpire t) s c' ∧
      (tile c' t).syn.run = none ∧ Advanced (Reg.SYN_SLIP_COUNT t) 1 s.chip c' ∧ rfld c' (Reg.SYN_SLIP_LAST t) 7 6 = 2 ∧
      rfld c' (Reg.SYN_SLIP_LAST t) 31 24 = g.consumed % 256 ∧ reg c' (Reg.SYN_SLIP_ENTRY t) = BitVec.ofNat 32 g.entry ∧
      rflag c' (Reg.SYN_FAULT t) 1 = true) ∧
    (seqEn s.chip t = false → ∃ c', Completes (.cbLoad t) s c' ∧ (tile c' t).syn.cbLoading = true ∧ Frame [] [t.val] s.chip c') ∧
    ((tile s.chip t).syn.cbLoading = true → ∃ c', Completes (.cbLoadDone t) s c' ∧ (tile c' t).syn.cbLoading = false ∧
      (tile c' t).syn.cbValid = true ∧
      ∀ i, i < 256 * (rfld s.chip (Reg.SYN_CB_CFG t) 18 16 + 1) →
        mapGet (fun _ => (0 : BitVec 16)) (tile c' t).syn.cb i = BitVec.ofNat 16
          (bits (unitAt s.chip t (rfld s.chip (Reg.SYN_CB_CFG t) 14 0 + i / 4)) (16 * (i % 4) + 15) (16 * (i % 4))))


/-! ### Learning -/

/-- LEARN_INCREMENT takes the oldest queued increment: where the tile learns, skips nothing and a block holds the entry, its axon trace rises by value times increment up to 255, LRN_INCS advances and every other byte of memory stays; where learning is off, nothing else changes. FEEDBACK_EVENT of a feedback event taken next: learning off, it only leaves the queue; no target neuron, LRN_FB_NOKEY advances and the fault bit is raised; under rule 0 with one block of one row whose first target is the neuron, the row's delta takes R228's saturated sum and every other byte stays. LABEL_PUSH queues a label in range, or counts it in LRN_LABEL_DROP when its class is out of range or eight wait. -/
def Obligations.IncrementsFeedbackAndLabels : Prop :=
  ∀ (t : Fin 8192) (s : State), domOn s.chip (fieldOf t) = true →
    (∀ a x par rest, (tile s.chip t).lrn.incs = (a, x, par) :: rest → (tile s.chip t).lrn.mowLeft = none →
      (learns s.chip t = false → ∃ c', Completes (.learnIncrement t) s c' ∧ (tile c' t).lrn.incs = rest ∧ Frame [] [t.val] s.chip c') ∧
      (∀ b, learns s.chip t = true → skipping s.chip t = false → blockOf s.chip t a = some b →
        ∃ c', Completes (.learnIncrement t) s c' ∧ (tile c' t).lrn.incs = rest ∧
          byteAt c' (traceAddr s.chip t a) = BitVec.ofNat 8
            (min 255 ((byteAt s.chip (traceAddr s.chip t a)).toNat + x * rfld s.chip (Reg.LRN_CFG t) 15 8)) ∧
          (∀ p, p ≠ traceAddr s.chip t a → byteAt c' p = byteAt s.chip p) ∧ Advanced (Reg.LRN_INCS t) 1 s.chip c')) ∧
    (∀ f, fenced s.chip t = false → (tile s.chip t).seq.integrate = true → (tile s.chip t).syn.fetching = none →
      (tile s.chip t).syn.run = none → (tile s.chip t).evq.spillLen = 0 → nextEntry s.chip t = some f → fKind f = 6 →
      (learns s.chip t = false → ∃ c', Completes (.feedbackEvent t) s c' ∧
        (tile c' t).evq.queue = (tile s.chip t).evq.queue.erase f ∧ Frame [] [t.val] s.chip c') ∧
      (learns s.chip t = true → skipping s.chip t = false → feedbackTarget s.chip t f = none →
        ∃ c', Completes (.feedbackEvent t) s c' ∧ (tile c' t).evq.queue = (tile s.chip t).evq.queue.erase f ∧
          Advanced (Reg.LRN_FB_NOKEY t) 1 s.chip c' ∧ rflag c' (Reg.LRN_FAULT t) 1 = true ∧
          Frame [Reg.LRN_FB_NOKEY t, Reg.LRN_FAULT t] [t.val] s.chip c') ∧
      (∀ j e b, learns s.chip t = true → skipping s.chip t = false → feedbackTarget s.chip t f = some (j, e) →
        lrnBlocks s.chip t = [b] → b.rows = 1 → b.tgt = j → 0 < b.len → 0 < b.step → rfld s.chip (Reg.LRN_CFG t) 1 0 = 0 →
        let d := deltaAddr s.chip t b.dbase
        let p : Int := (rfld s.chip (Reg.LRN_CFG t) 31 16 : Nat) * ((byteAt s.chip (traceAddr s.chip t b.first)).toNat : Int) * e * 256
        ∃ c', Completes (.feedbackEvent t) s c' ∧
          numAt c' d 2 = unsign 16 (satDelta (deltaAt s.chip t b.dbase + shiftRound p (-28))) ∧
          (∀ x, (x < d ∨ d + 2 ≤ x) → byteAt c' x = byteAt s.chip x) ∧ Advanced (Reg.LRN_FB_EVENTS t) 1 s.chip c')) ∧
    (∀ v : Word, (fld v 4 0 ≤ rfld s.chip (Reg.LRN_LABEL_NRN t) 30 26 → (tile s.chip t).lrn.labels.length < 8 →
        ∃ c', Completes (.labelPush t v) s c' ∧ (tile c' t).lrn.labels = (tile s.chip t).lrn.labels ++ [(fld v 31 16, fld v 4 0)] ∧
          Frame [] [t.val] s.chip c') ∧
      ((rfld s.chip (Reg.LRN_LABEL_NRN t) 30 26 < fld v 4 0 ∨ 8 ≤ (tile s.chip t).lrn.labels.length) →
        ∃ c', Completes (.labelPush t v) s c' ∧ Advanced (Reg.LRN_LABEL_DROP t) 1 s.chip c' ∧ rflag c' (Reg.LRN_FAULT t) 5 = true ∧
          Frame [Reg.LRN_LABEL_DROP t, Reg.LRN_FAULT t] [] s.chip c'))

/-- After update end: a TRACE_STEP word over one population of one neuron, with learning off, leaves that neuron's traces decayed in the working slot and takes the next word; a MOW word that does not act takes the next word and changes nothing else; a MOW word that acts on one learnable entry of a block, whose deltas lie apart from the entry, points the entry at the alternate slot, clears the row's deltas, advances LRN_MOW_ROWS and LRN_MOW_COUNT and takes the next word. CKPT_ACK clears LRN_STATUS bit 28; MOW_COUNT_SET with SEQ_EN 0 writes LRN_MOW_COUNT. -/
def Obligations.TraceStepMowAndCheckpoints : Prop :=
  ∀ (t : Fin 8192) (clk : Nat) (s : State), domOn s.chip (fieldOf t) = true →
    (∀ j i, atWord s.chip t 0x08 = true → endReached s.chip t = true → bits (wordAt s.chip t) 7 4 = j →
      bits (wordAt s.chip t) 3 0 = j → popNeurons s.chip t j = [i] → learns s.chip t = false →
      let a := nrnAddr s.chip t (workSlot s.chip t) i
      let st := nstateOf (bytesAt s.chip a 16)
      let k := (popAt s.chip t j).decay
      ∃ c', Completes (.traceStep t) s c' ∧ PastWord t s.chip c' ∧ (tile c' t).seq.traced = true ∧
        nstateOf (bytesAt c' a 16) = { st with pre := decayTrace st.pre k, post := decayTrace st.post k } ∧
        (∀ x, (x < a ∨ a + 16 ≤ x) → byteAt c' x = byteAt s.chip x)) ∧
    (atWord s.chip t 0x09 = true → endReached s.chip t = true → mowActs s.chip t = false →
      ∃ c', Completes (.mow t 1 clk) s c' ∧ PastWord t s.chip c' ∧ Frame [Reg.TILE_SRAM_CE t] [t.val] s.chip c') ∧
    (∀ a b, atWord s.chip t 0x09 = true → endReached s.chip t = true → mowActs s.chip t = true →
      (tile s.chip t).lrn.mowLeft = none → bits (wordAt s.chip t) 21 11 = a → bits (wordAt s.chip t) 10 0 = a →
      blockOf s.chip t a = some b → aLearn (numAt s.chip (axonAddr s.chip t a) 8) = 1 →
      let x := axonAddr s.chip t a
      let d := deltaAddr s.chip t (b.dbase + (a - b.first) * b.len)
      (d + 2 * b.len ≤ x ∨ x + 8 ≤ d) → ∃ c', Completes (.mow t 1 clk) s c' ∧ PastWord t s.chip c' ∧
        aRow (numAt c' x 8) = hAlt (unitAt s.chip t (aRow (numAt s.chip x 8))) ∧
        (∀ k, k < 2 * b.len → byteAt c' (d + k) = 0#8) ∧ Advanced (Reg.LRN_MOW_ROWS t) 1 s.chip c' ∧
        (reg c' (Reg.LRN_MOW_COUNT t)).toNat = ((reg s.chip (Reg.LRN_MOW_COUNT t)).toNat + 1) % 2 ^ 32) ∧
    (∃ c', Completes (.ckptAck t) s c' ∧ reg c' (Reg.LRN_STATUS t) = putBit (reg s.chip (Reg.LRN_STATUS t)) 28 false ∧
      Frame [Reg.LRN_STATUS t] [] s.chip c') ∧
    (∀ v, seqEn s.chip t = false → ∃ c', Completes (.mowCountSet t v) s c' ∧ reg c' (Reg.LRN_MOW_COUNT t) = v ∧
      Frame [Reg.LRN_MOW_COUNT t] [] s.chip c')


/-! ### Routers, collectives and the seam -/

/-- FLIT_RX of a flit on a present port of a router that holds nothing, with the port not frozen and injection not stopped: a sideband parity error freezes the port, raises fault bit 2 and keeps the credit back; a head with a bad CHECK is counted in RTR_CRC_ERR and discarded; a good unicast event of the open parity for this tile reaches the Local port, or is dropped and counted as without a route where software has fenced that output; one for a column further east, where the slot's table is not valid, goes onto the wire into the eastern neighbour and takes a credit. In each case the flit has left the wire. -/
def Obligations.FlitReception : Prop :=
  ∀ (t : Fin 8192) (p v : Fin 6) (s : State) (f : Flit) (rest : List Flit), domOn s.chip (fieldOf t) = true →
    wire s.chip t p v = f :: rest → f.vc = v.val → router s.chip t = {} → portPresent s.chip t p = true → seamPasses s.chip t p = true →
    rflag s.chip (Reg.RTR_CTRL t) 0 = false → rflag s.chip (Reg.RTR_STATUS t) (8 + p) = false →
    (f.bad = true → ∃ c', Completes (.flitRx t p v) s c' ∧ wire c' t p v = rest ∧
      rflag c' (Reg.RTR_STATUS t) (8 + p) = true ∧ rflag c' (Reg.RTR_FAULT t) 2 = true ∧
      (router c' t).buf = [] ∧ keptAt c' t p v = [f] ∧ c'.creditWires = s.chip.creditWires ∧
      Frame [Reg.RTR_STATUS t, Reg.RTR_FAULT t] [] s.chip { c' with wires := s.chip.wires, routers := s.chip.routers }) ∧
    (f.bad = false → f.head = true → f.tail = true → checkOk f.data = false → ∃ c', Completes (.flitRx t p v) s c' ∧
      wire c' t p v = rest ∧ Advanced (Reg.RTR_CRC_ERR t) 1 s.chip c' ∧ rflag c' (Reg.RTR_FAULT t) 1 = true ∧
      (tile c' t).evq.arrived = (tile s.chip t).evq.arrived) ∧
    (f.bad = false → f.head = true → f.tail = true → checkOk f.data = true → isEvent f.data = true → fCast f.data = 0 →
      lateFlit s.chip f.data = false → v.val < 2 →
      (fDx f.data = tileX t → fDy f.data = tileY t → leavesAtTap s.chip t f.data = false →
        (outFenced s.chip t 4 = false → ∃ c', Completes (.flitRx t p v) s c' ∧
          wire c' t p v = rest ∧ (tile c' t).evq.arrived = (tile s.chip t).evq.arrived ++ [f]) ∧
        (outFenced s.chip t 4 = true → ∃ c', Completes (.flitRx t p v) s c' ∧ wire c' t p v = rest ∧
          Advanced (Reg.RTR_DROP_NOROUTE t) 1 s.chip c' ∧ rflag c' (Reg.RTR_FAULT t) 3 = true ∧
          (tile c' t).evq.arrived = (tile s.chip t).evq.arrived)) ∧
      (tileX t < fDx f.data → rflag s.chip (Reg.RTR_EPOCH t) (slotOf s.chip t f.data) = false → portPresent s.chip t 2 = true →
        outFenced s.chip t 2 = false → wdogFenced s.chip t 2 = false → ∃ c', Completes (.flitRx t p v) s c' ∧
          wire c' (neighbour t 2).1 (neighbour t 2).2 v = wire { s.chip with wires := setList (wireKey t p v) rest s.chip.wires }
            (neighbour t 2).1 (neighbour t 2).2 v ++ [f] ∧
          creditOf c' t 2 v = 3 ∧ (tile c' t).evq.arrived = (tile s.chip t).evq.arrived))

/-- CREDIT_RETURN on a router that holds nothing, with a credit on its way to an output: the credit has arrived, and the output's credits rise by one, to 4 at most, but for an output that the watchdog has fenced. ROUTER_WATCHDOG of an output VC without credit that a head flit or a combined collective waits for: below the limit only RTR_WAIT_MAX may rise; at the limit the output is fenced, both fence bits and fault bit 0 are set and a tile of a job reports cause 6, for the steps that consume the events it prunes, or for its own step where no event waits. OUT_FENCE_CLEAR of a fenced output of such a router clears both bits and gives every VC 4 credits. ROUTE_TABLE_WRITE writes a table word when no held flit uses its slot, and raises fault bit 4 else. INJ_STOP sets its bit. -/
def Obligations.CreditsFencesAndTables : Prop :=
  ∀ (t : Fin 8192) (q v : Fin 6) (s : State), domOn s.chip (fieldOf t) = true →
    (∀ f rest, (router s.chip t).buf = [] → (router s.chip t).collOut = [] →
      listOf s.chip.creditWires (wireKey t q v) = f :: rest → ∃ c', Completes (.creditReturn t q v) s c' ∧
        creditOf c' t q v = (if wdogFenced s.chip t q then creditOf s.chip t q v else min 4 (creditOf s.chip t q v + 1)) ∧
        listOf c'.creditWires (wireKey t q v) = rest ∧
        Frame [] [] s.chip { c' with creditWires := s.chip.creditWires, routers := s.chip.routers }) ∧
    (∀ waited, creditOf s.chip t q v = 0 →
      ((List.range 6).any (fun p => wantsOutput s.chip t p v == some q.val) = true ∨
        (v.val = 5 ∧ (router s.chip t).collOut.any (fun o => o.2.1 == q.val) = true)) →
      (waited < wdogLimit s.chip t → ∃ c', Completes (.routerWatchdog t q v waited) s c' ∧
        (reg c' (Reg.RTR_WAIT_MAX t)).toNat = max (reg s.chip (Reg.RTR_WAIT_MAX t)).toNat (min 65535 waited) ∧
        Frame [Reg.RTR_WAIT_MAX t] [] s.chip c') ∧
      (wdogLimit s.chip t ≤ waited → ∃ c', Completes (.routerWatchdog t q v waited) s c' ∧ outFenced c' t q = true ∧
        wdogFenced c' t q = true ∧ rflag c' (Reg.RTR_FAULT t) 0 = true ∧
        let events := (waitingFor s.chip t q).filter isEvent
        ∀ j, jobOfTile s.chip t = some j → ∃ l, c'.reports = s.chip.reports ++ l ∧
          (∀ r, r ∈ l → r.job = j ∧ r.cause = 6 ∧ r.tile = t.val) ∧
          (events = [] → l.map (fun r => r.step) = [jobStep s.chip j]) ∧
          (events ≠ [] → ∀ n, n ∈ l.map (fun r => r.step) ↔ ∃ f, f ∈ events ∧ n = consumer s.chip t (fParity f)))) ∧
    ((router s.chip t).buf = [] → (router s.chip t).collOut = [] → outFenced s.chip t q = true →
      ∃ c', Completes (.outFenceClear t q) s c' ∧ outFenced c' t q = false ∧ wdogFenced c' t q = false ∧
        (∀ w, w < 6 → creditOf c' t q w = 4)) ∧
    (∀ (o : BitVec 12) (w : Word), isTableWord o.toNat = true →
      (slotBusy s.chip t (if o.toNat < 0x180 then 0 else 1) = false → ∃ c', Completes (.routeTableWrite t o w) s c' ∧
        reg c' (win t + 0x84000 + o.toNat) = w ∧ Frame [win t + 0x84000 + o.toNat] [] s.chip c') ∧
      (slotBusy s.chip t (if o.toNat < 0x180 then 0 else 1) = true → ∃ c', Completes (.routeTableWrite t o w) s c' ∧
        rflag c' (Reg.RTR_FAULT t) 4 = true ∧ Frame [Reg.RTR_FAULT t] [] s.chip c')) ∧
    (∃ c', Completes (.injStop t) s c' ∧ reg c' (Reg.RTR_CTRL t) = putBit (reg s.chip (Reg.RTR_CTRL t)) 0 true ∧
      Frame [Reg.RTR_CTRL t] [] s.chip c')

/-- SEAM_EPOCH_SWITCH with GO, for a timebase whose job is not in compatibility mode: disabled, its current epoch changes at once and no switch stays armed; enabled and T16 ahead of TICK_NOW, the switch is armed for that step; in compatibility mode nothing happens. DRAIN_GO with no drain in progress clears SEAM_DRAIN_RESULT and starts a drain of its epoch, with what no router latched counted at once; DRAIN_DONE brings back DONE and the sum of that and of the root taps, at most 2^24 - 1, once every root tap has its sum, and changes nothing before. COLLECTIVE_RX of a step-census contribution by a child at a router whose own tile has still to give its counts: the contribution is held under its key with its value. -/
def Obligations.EpochsDrainsAndCollectives : Prop :=
  (∀ (s : State) (v : Word), flag v 31 = true → compatTb s.chip (fld v 19 16) = true → Completes (.seamEpochSwitch v) s s.chip) ∧
  (∀ (s : State) (v : Word), flag v 31 = true → compatTb s.chip (fld v 19 16) = false →
    (rflag s.chip (Reg.TICK_TB_CTRL (fld v 19 16)) 31 = false → ∃ c', Completes (.seamEpochSwitch v) s c' ∧
      curEpoch c' (fld v 19 16) = fld v 24 24 ∧ rflag c' Reg.SEAM_EPOCH_STATUS (16 + fld v 19 16) = false ∧
      (tbAt c' (fld v 19 16)).switchAt = none ∧ Frame [Reg.SEAM_EPOCH_STATUS] [] s.chip { c' with tbs := s.chip.tbs }) ∧
    (rflag s.chip (Reg.TICK_TB_CTRL (fld v 19 16)) 31 = true →
      (tickNow s.chip (fld v 19 16) : Int) < step16 (tickNow s.chip (fld v 19 16)) (fld v 15 0) →
      ∃ c', Completes (.seamEpochSwitch v) s c' ∧ (tbAt c' (fld v 19 16)).switchAt =
        some ((step16 (tickNow s.chip (fld v 19 16)) (fld v 15 0) % 2 ^ 48).toNat, fld v 24 24) ∧
        rflag c' Reg.SEAM_EPOCH_STATUS (16 + fld v 19 16) = true ∧ curEpoch c' (fld v 19 16) = curEpoch s.chip (fld v 19 16))) ∧
  (∀ (s : State) (v : Word), flag v 31 = true → s.chip.drain = none → ∃ c', Completes (.drainGo v) s c' ∧
    let e := fld v 0 0
    c'.drain = some (drainSum s.chip e - ((strobeTiles s.chip).map (strobeOf s.chip e)).sum) ∧ c'.drainEpoch = e ∧
    c'.drains = s.chip.drains + 1 ∧ reg c' Reg.SEAM_DRAIN_RESULT = 0#32) ∧
  (∀ (s : State) (n : Nat), s.chip.drain = some n →
    let sums := (rootTaps s.chip).map (rootSum s.chip drainKey)
    ((∀ x, x ∈ sums → x ≠ none) → ∃ c', Completes .drainDone s c' ∧ c'.drain = none ∧
      reg c' Reg.SEAM_DRAIN_RESULT = BitVec.ofNat 32 (2 ^ 31 + min (n + (sums.map (fun x => x.getD 0)).sum) 0xFFFFFF)) ∧
    (none ∈ sums → Completes .drainDone s s.chip)) ∧
  (∀ (t : Fin 8192) (s : State) (p : Nat) (d : DWord) (rest : List (Nat × DWord)), domOn s.chip (fieldOf t) = true →
    (router s.chip t).collIn = (p, d) :: rest → (router s.chip t).coll = [] → p ≠ 4 → collKey d / 1024 = 0 →
    censusTile s.chip t (collKey d / 64 % 16) = true → ∃ c', Completes (.collectiveRx t) s c' ∧
      (router c' t).collIn = rest ∧ collAt c' t (collKey d) = { got := [p], value := collValue d } ∧
      (∀ a, reg c' a = reg s.chip a))


/-! ### Message channels and broadcast loading -/

/-- At an EMIT_MESSAGE word with a send slot free: an invalid transmit entry counts CHN_TX_INVALID and raises fault bit 2; a valid one puts the message's head and body flits on the wire into the Local input on VC2 and counts CHN_SENT; both take the next word. With both slots busy the sequencer waits. MESSAGE_HEAD of the only flit a router holds, a message head for this tile, with a staging buffer free, stages it and counts CHN_ACCEPTED. MESSAGE_TAIL of a complete message that no other ready one precedes (of those ready the lowest channel commits first; a FENCE waits for its source), at a quiet router: poisoned, ill-formed or RESULT it counts CHN_POISON; to a closed ring CHN_DISCARD; without room CHN_OVERFLOW; else its records are written, the write pointer and sequence number advance and CHN_COMMITTED counts. -/
def Obligations.MessageChannels : Prop :=
  ∀ (t : Fin 8192) (s : State), domOn s.chip (fieldOf t) = true →
    (atWord s.chip t 0x04 = true →
      let w := wordAt s.chip t
      let tx := reg s.chip (Reg.CHN_TX t (bits w 25 20))
      let b := bits w 4 0
      (2 ≤ sendBusy s.chip t → ∃ c', Completes (.emitMessage t) s c' ∧ WaitsAtWord t s.chip c') ∧
      (sendBusy s.chip t < 2 → flag tx 31 = false → ∃ c', Completes (.emitMessage t) s c' ∧ PastWord t s.chip c' ∧
        Advanced (Reg.CHN_TX_INVALID t) 1 s.chip c' ∧ rflag c' (Reg.CHN_FAULT t) 2 = true ∧
        Frame [Reg.CHN_TX_INVALID t, Reg.CHN_FAULT t, Reg.TILE_SRAM_CE t] [t.val] s.chip c') ∧
      (sendBusy s.chip t < 2 → flag tx 31 = true → ∃ c', Completes (.emitMessage t) s c' ∧ PastWord t s.chip c' ∧
        Advanced (Reg.CHN_SENT t) 1 s.chip c' ∧
        (wire c' t 4 2).map (fun f => f.data) = (wire s.chip t 4 2).map (fun f => f.data) ++
          (mkHead 2 (tileEpoch s.chip t) 0 (fld tx 30 30) (fld tx 22 16) (fld tx 13 8) b t
            (messageSub (fld tx 29 24) (7 * b) (fld tx 0 0)) ::
          (messageBody s.chip t (32 * bits w 19 8) b).map (fun x => x.1)))) ∧
    (∀ (p : Fin 6) h, bufAt s.chip t p 2 = [h] → (∀ p' v', (p', v') ≠ (p.val, 2) → bufAt s.chip t p' v' = []) →
      (router s.chip t).collOut = [] → h.flit.head = true → droppingOf s.chip t p 2 = false →
      hopOf s.chip t p h.flit.data none = some (.out 4) → (tile s.chip t).chn.staging.length < 4 → allocOf s.chip t 4 2 = 0 →
      ∃ c', Completes (.messageHead t p) s c' ∧ (tile c' t).chn.staging = (tile s.chip t).chn.staging ++
        [{ head := h.flit.data, port := p.val, body := [], done := h.flit.tail, poison := h.flit.poison }] ∧
        Advanced (Reg.CHN_ACCEPTED t) 1 s.chip c' ∧ Frame [Reg.CHN_ACCEPTED t, Reg.RTR_FLITS t 4] [t.val] s.chip
          { c' with routers := s.chip.routers, creditWires := s.chip.creditWires }) ∧
    (∀ slot : Fin 4, nextCommit (tile s.chip t).chn.staging ≠ some slot.val → Completes (.messageTail t slot) s s.chip) ∧
    (∀ (slot : Fin 4) m, (tile s.chip t).chn.staging[slot.val]? = some m →
      nextCommit (tile s.chip t).chn.staging = some slot.val → QuietRouter t s.chip →
      let n := mChannel m.head
      let taken := modTile t (fun T => { T with chn := { T.chn with staging := T.chn.staging.eraseIdx slot } }) s.chip
      let bad := m.poison || !wellFormed m.head || mResult m.head
      let size := rxSize s.chip t n
      let commit := ringCommit size (rfld s.chip (Reg.CHN_RX_WPTR t n) 14 0) (rfld s.chip (Reg.CHN_RX_RPTR t n) 14 0)
        (rfld s.chip (Reg.CHN_RX_STAT t n) 23 16) n (fSrc m.head)
        (match tbOfTile s.chip t with | some j => tickNow s.chip j | none => 0) (mPayload m.head m.body)
      (bad = true → ∃ c', Completes (.messageTail t slot) s c' ∧ Advanced (Reg.CHN_POISON t) 1 s.chip c' ∧
        rflag c' (Reg.CHN_FAULT t) 1 = true ∧ Frame [Reg.CHN_POISON t, Reg.CHN_FAULT t] [t.val] s.chip c') ∧
      (bad = false → rxOpen s.chip t n = false → ∃ c', Completes (.messageTail t slot) s c' ∧
        Advanced (Reg.CHN_DISCARD t) 1 s.chip c' ∧ Frame [Reg.CHN_DISCARD t] [t.val] s.chip c') ∧
      (bad = false → rxOpen s.chip t n = true → commit = none → ∃ c', Completes (.messageTail t slot) s c' ∧
        Advanced (Reg.CHN_OVERFLOW t) 1 s.chip c' ∧ rflag c' (Reg.CHN_FAULT t) 0 = true ∧
        Frame [Reg.CHN_OVERFLOW t, Reg.CHN_FAULT t] [t.val] s.chip c') ∧
      (∀ ws w' seq, bad = false → rxOpen s.chip t n = true → commit = some (ws, w', seq) → n < 64 →
        ∃ c', Completes (.messageTail t slot) s c' ∧
        (tile c' t).chn.staging = (tile s.chip t).chn.staging.eraseIdx slot ∧
        reg c' (Reg.CHN_RX_WPTR t n) = BitVec.ofNat 32 w' ∧ rfld c' (Reg.CHN_RX_STAT t n) 23 16 = seq % 256 ∧
        Advanced (Reg.CHN_COMMITTED t) 1 s.chip c' ∧
        ∀ a, byteAt c' a = byteAt (forAll (fun x c => dmaWrite t (64 * rfld s.chip (Reg.CHN_RX_CFG t n) 10 0 + x.1) x.2 c) ws
          taken) a))

/-- RING_OPEN of a closed ring opens it with both pointers zero and sequence number 1, RING_CLOSE closes it, RPTR_WRITE of an open ring takes a pointer that the ring's contents allow and raises fault bit 4 else; on a closed ring it does nothing. -/
def Obligations.RingsOpenAndClose : Prop :=
  ∀ (t : Fin 8192) (n : Fin 64) (v : Word) (s : State), domOn s.chip (fieldOf t) = true →
    (rxOpen s.chip t n = false → ∃ c', Completes (.ringOpen t n v) s c' ∧ rxOpen c' t n = true ∧
      reg c' (Reg.CHN_RX_WPTR t n) = 0#32 ∧ reg c' (Reg.CHN_RX_RPTR t n) = 0#32 ∧ rfld c' (Reg.CHN_RX_STAT t n) 23 16 = 1 ∧
      rfld c' (Reg.CHN_RX_CFG t n) 23 16 = fld v 23 16 ∧
      Frame [Reg.CHN_RX_CFG t n, Reg.CHN_RX_WPTR t n, Reg.CHN_RX_RPTR t n, Reg.CHN_RX_STAT t n] [] s.chip c') ∧
    (rxOpen s.chip t n = false → Completes (.rptrWrite t n v) s s.chip) ∧
    (∃ c', Completes (.ringClose t n) s c' ∧ rxOpen c' t n = false ∧ Frame [Reg.CHN_RX_CFG t n] [] s.chip c') ∧
    (rxOpen s.chip t n = true →
      let size := rxSize s.chip t n
      let r := fld v 14 0 % (2 * size)
      (ringUsed size (rfld s.chip (Reg.CHN_RX_WPTR t n) 14 0) r ≤ size → ∃ c', Completes (.rptrWrite t n v) s c' ∧
        reg c' (Reg.CHN_RX_RPTR t n) = BitVec.ofNat 32 r ∧ Frame [Reg.CHN_RX_RPTR t n] [] s.chip c') ∧
      (size < ringUsed size (rfld s.chip (Reg.CHN_RX_WPTR t n) 14 0) r → ∃ c', Completes (.rptrWrite t n v) s c' ∧
        rflag c' (Reg.CHN_FAULT t) 4 = true ∧ Frame [Reg.CHN_FAULT t] [] s.chip c'))

/-- COLUMN_LOAD and TILE_LOAD of a packet at the Local port ignore a half for other rows or while EN is 0, drop and count a poisoned one or one while the half-block buffer is busy, and take an acceptable one: bitmap, accumulator and bytes. BC_CLEAR empties bitmap and accumulator and clears LOAD_COMPLETE. -/
def Obligations.BroadcastHalvesLoad : Prop :=
  ∀ (t : Fin 8192) (s : State), domOn s.chip (fieldOf t) = true →
    (∀ p h body, dmaFind s.chip t 5 (fun h => fMop h.data == 0 || decide (4 ≤ fMop h.data)) = some (p, h, body) →
      fMop h.data = 0 →
      (∀ busy, rflag s.chip (Reg.CHN_BC_CTRL t) 0 = true → RowNamed t body → (busy = true ∨ anyPoison h body = true) →
        ∃ c', Completes (.columnLoad t busy) s c' ∧
        Advanced (Reg.CHN_BC_DROP t) 1 s.chip c' ∧ rflag c' (Reg.CHN_FAULT t) 5 = true ∧
        Frame [Reg.CHN_BC_DROP t, Reg.CHN_FAULT t] [t.val] s.chip c') ∧
      (∀ busy, (rflag s.chip (Reg.CHN_BC_CTRL t) 0 = false ∨ ¬ RowNamed t body) →
        Completes (.columnLoad t busy) s (dmaDrop t p 5 s.chip)) ∧
      (HalfAcceptable t h body (dmaDrop t p 5 s.chip) → ∃ c', Completes (.columnLoad t false) s c' ∧
        HalfTaken t (body.map (fun f => f.data)) (dmaDrop t p 5 s.chip) c')) ∧
    (∀ p h body, dmaFind s.chip t 5 (fun h => fMop h.data == 1 || decide (4 ≤ fMop h.data)) = some (p, h, body) →
      fMop h.data = 1 →
      (∀ busy, rflag s.chip (Reg.CHN_BC_CTRL t) 0 = true → RowNamed t body → (busy = true ∨ anyPoison h body = true) →
        ∃ c', Completes (.tileLoad t busy) s c' ∧
        Advanced (Reg.CHN_BC_DROP t) 1 s.chip c' ∧ rflag c' (Reg.CHN_FAULT t) 5 = true ∧
        Frame [Reg.CHN_BC_DROP t, Reg.CHN_FAULT t] [t.val] s.chip c') ∧
      (∀ busy, (rflag s.chip (Reg.CHN_BC_CTRL t) 0 = false ∨ ¬ RowNamed t body) →
        Completes (.tileLoad t busy) s (dmaDrop t p 5 s.chip)) ∧
      (HalfAcceptable t h body (dmaDrop t p 5 s.chip) → ∃ c', Completes (.tileLoad t false) s c' ∧
        HalfTaken t (body.map (fun f => f.data)) (dmaDrop t p 5 s.chip) c')) ∧
    (∃ c', Completes (.bcClear t) s c' ∧ bcMap c' t = 0 ∧ reg c' (Reg.CHN_BC_CRC t) = 0#32 ∧
      rflag c' (Reg.CHN_BC_STATUS t) 31 = false ∧
      Frame [Reg.CHN_BC_MAP_LO t, Reg.CHN_BC_MAP_HI t, Reg.CHN_BC_CRC t, Reg.CHN_BC_STATUS t] [] s.chip c')

/-- LOAD_CENSUS gives each field's complete tiles in its byte; while a broadcast runs it begins a repair round, or ends the load and fences the expected tiles left incomplete, and fails the start with more than BC_FENCE_MAX of them. ECHO sends the body back to the source as ECHO_REPLY, which ECHO_REPLY takes off a tile's Local port; a poisoned packet is discarded. -/
def Obligations.LoadCensusAndEcho : Prop :=
  (∀ (t : Fin 8192) (s : State), domOn s.chip (fieldOf t) = true →
    (∀ p h body, dmaFind s.chip t 5 (fun h => fMop h.data == 2 || decide (4 ≤ fMop h.data)) = some (p, h, body) →
      fMop h.data = 2 → anyPoison h body = false → ∃ c', Completes (.echo t) s c' ∧ (wire c' t 4 5).map (fun f => f.data) =
        (wire s.chip t 4 5).map (fun f => f.data) ++ (headBack 7 (fEpoch h.data) (fSrc h.data) body.length (3 * 4096) t ::
          body.map (fun f => f.data))) ∧
    (∀ p h body, dmaFind s.chip t 5 (fun h => fMop h.data == 3 || decide (4 ≤ fMop h.data)) = some (p, h, body) →
      Completes (.echoReply (.tile t)) s (dmaDrop t p 5 s.chip))) ∧
  (∀ (t : Fin 8192) (s : State) p h body, domOn s.chip (fieldOf t) = true →
    dmaFind s.chip t 5 (fun h => fMop h.data == 2 || decide (4 ≤ fMop h.data)) = some (p, h, body) →
    (anyPoison h body = true ∨ fMop h.data ≠ 2) → Completes (.echo t) s (dmaDrop t p 5 s.chip)) ∧
  (∀ s : State,
    let counts (c' : Chip) : Prop := c'.loadCensus.length = 16 ∧
      ∀ f, f < 64 → bits (c'.loadCensus.getD (f / 4) 0) (8 * (f % 4) + 7) (8 * (f % 4)) = loadCount s.chip f
    (s.chip.boot.load = none → ∃ c', Completes .loadCensus s c' ∧ counts c' ∧
      Frame [] [] s.chip { c' with loadCensus := s.chip.loadCensus }) ∧
    (∀ ld, s.chip.boot.load = some ld →
      (loadEnded s.chip ld = false → ∃ c', Completes .loadCensus s c' ∧ counts c' ∧
        c'.boot.load = some { ld with round := ld.round + 1 }) ∧
      (loadEnded s.chip ld = true → (unloaded s.chip).length ≤ rfld s.chip Reg.BOOT_CFG 15 8 →
        ∃ c', Completes .loadCensus s c' ∧ counts c' ∧ c'.boot.load = none ∧ ∀ t, t ∈ unloaded s.chip → fenced c' t = true) ∧
      (loadEnded s.chip ld = true → rfld s.chip Reg.BOOT_CFG 15 8 < (unloaded s.chip).length → bootState s.chip < 10 →
        s.chip.boot.inReset = false → ∃ t, CompletesAt .loadCensus s t ∧ (bootState t.chip = 12 ∨ bootState t.chip = 11))))


/-! ### LPDDR5X memory -/

/-- With nothing new at its taps, a controller that serves requests takes the oldest request of its queue, counts it and answers at the tap it came by. MEM_REQUEST: a well-formed read of allowed memory without errors answers STATUS 0 and the bytes, and memory stays; a well-formed write of allowed memory that meets no error answers STATUS 0 without data, the bytes stand at its address and every other byte stays; a malformed request answers STATUS 3. STREAM_READ of a block within its 2,048 bytes of allowed memory without errors answers the bytes in packets of 217. -/
def Obligations.MemoryRequests : Prop :=
  ∀ (m : Fin 4) (s : State) (k : Nat) (h : Flit) (body : List Flit) (rest : List (Nat × Flit × List Flit)),
    memServes s.chip m = true → memQueue s.chip m = (k, h, body) :: rest →
    (∀ x ∈ memoryTaps m, listOf s.chip.tapIn (8 * x + 3) = []) →
    let ds := body.map (fun f => f.data)
    let d := fData (ds.getD 0 0#64)
    let a := bits d 47 0
    let n := bits d 55 48 + 1
    let bs := (bodyBytes (ds.drop 1)).take n
    (rqOp h.data = 0 → rqMalformed 0 body = false → memCheck s.chip m a n = 0 → (∀ l ∈ linesOf a n, lineError s.chip l = 0) →
      ∃ c', Completes (.memRequest m) s c' ∧ memQueue c' m = rest ∧ Advanced (Reg.MEM_M_REQS m) 1 s.chip c' ∧
        wire c' (tapTile k) 5 4 = wire (memReply k h.data 0 (bytesAt s.chip a n) s.chip) (tapTile k) 5 4 ∧
        (∀ x, byteAt c' x = byteAt s.chip x)) ∧
    (rqOp h.data = 1 → rqMalformed 1 body = false → bs.length = n → memCheck s.chip m a n = 0 →
      (∀ l ∈ linesOf a n, lineError s.chip l = 0) → ∃ c', Completes (.memRequest m) s c' ∧ memQueue c' m = rest ∧
        (∀ i, i < n → byteAt c' (a + i) = bs.getD i 0#8) ∧ (∀ x, (x < a ∨ a + n ≤ x) → byteAt c' x = byteAt s.chip x) ∧
        wire c' (tapTile k) 5 4 = wire (memReply k h.data 0 [] s.chip) (tapTile k) 5 4) ∧
    (rqOp h.data < 2 → rqMalformed (rqOp h.data) body = true → ∃ c', Completes (.memRequest m) s c' ∧ memQueue c' m = rest ∧
      Advanced (Reg.MEM_M_REQS m) 1 s.chip c' ∧
      wire c' (tapTile k) 5 4 = wire (memReply k h.data 3 [] s.chip) (tapTile k) 5 4 ∧
      (∀ x, byteAt c' x = byteAt s.chip x)) ∧
    (rqOp h.data = 2 → body.length = 1 → bits d 36 0 % 2048 + (bits d 47 37 + 1) ≤ 2048 →
      memCheck s.chip m (bits d 36 0) (bits d 47 37 + 1) = 0 →
      (∀ l ∈ linesOf (bits d 36 0) (bits d 47 37 + 1), lineError s.chip l = 0) →
      ∃ c', Completes (.streamRead m) s c' ∧ memQueue c' m = rest ∧ wire c' (tapTile k) 5 4 =
        wire (memReply k h.data 0 (bytesAt s.chip (bits d 36 0) (bits d 47 37 + 1)) s.chip) (tapTile k) 5 4)

/-- SCRUB_READ of an idle, ready controller with scrubbing on, not at the end of a pass: of a good line only the scrubber moves; a line with one correctable error is corrected, its mark goes and MEM_m_CE advances; an uncorrectable line advances MEM_m_UE, is named with the scrub bit in MEM_m_ERR_ADDR and raises fault bit 2; the scrubber moves to the next line. REGION_WRITE of a region of KIND 1 is ignored while a timebase is enabled, of any region where two valid regions would overlap, and else writes its fields. CONTROLLER_TRAINED makes a training controller ready, and in stage 5 of a warm start raises fault bit 3 where the saved values failed. -/
def Obligations.ScrubbingRegionsAndTraining : Prop :=
  (∀ (m : Fin 4) (s : State), rflag s.chip Reg.MEM_SCRUB_CFG 31 = true → memPresent s.chip m = true → memServes s.chip m = true →
    memQueue s.chip m = [] → numOf s.chip.scrubAt m + 1 < memLines s.chip →
    let line := deviceLine s.chip m (numOf s.chip.scrubAt m)
    (lineError s.chip line = 0 → ∃ c', Completes (.scrubRead m) s c' ∧ numOf c'.scrubAt m = numOf s.chip.scrubAt m + 1 ∧
      Frame [] [] s.chip { c' with scrubAt := s.chip.scrubAt }) ∧
    (lineError s.chip line = 1 → ∃ c', Completes (.scrubRead m) s c' ∧ numOf c'.scrubAt m = numOf s.chip.scrubAt m + 1 ∧
      Advanced (Reg.MEM_M_CE m) 1 s.chip c' ∧ lineError c' line = 0) ∧
    (lineError s.chip line = 2 → ∃ c', Completes (.scrubRead m) s c' ∧ numOf c'.scrubAt m = numOf s.chip.scrubAt m + 1 ∧
      Advanced (Reg.MEM_M_UE m) 1 s.chip c' ∧ rflag c' (Reg.MEM_M_FAULT m) 2 = true ∧
      reg c' (Reg.MEM_M_ERR_ADDR_HI m) = BitVec.ofNat 32 (64 * line / 2 ^ 32) ∧
      reg c' (Reg.MEM_M_ERR_ADDR_LO m) = BitVec.ofNat 32 (64 * line % 2 ^ 32 + 1))) ∧
  (∀ (n : Fin 16) (w : Fin 3) (v : Word) (s : State),
    let a : Nat := match w.val with | 0 => Reg.MEM_REGION_BASE n | 1 => Reg.MEM_REGION_SIZE n | _ => Reg.MEM_REGION_ATTR n
    let x : Word := v &&& (match w.val with | 0 => 0x1FFFFF#32 | 1 => 0x3FFFFF#32 | _ => 0x80000703#32)
    let rs := memRegions (setReg a x s.chip)
    let meets := (List.range 16).any (fun i => i != n.val && regionsMeet (rs.getD n (0, 0, 0#32)) (rs.getD i (0, 0, 0#32)))
    let locked := rfld s.chip (Reg.MEM_REGION_ATTR n) 10 8 == 1 && anyTimebase s.chip
    ((locked || meets) = true → Completes (.regionWrite n w v) s s.chip) ∧
    (locked = false → meets = false → ∃ c', Completes (.regionWrite n w v) s c' ∧ reg c' a = x ∧ Frame [a] [] s.chip c')) ∧
  (∀ (m : Fin 4) (restored : Bool) (s : State), memState s.chip m = 1 → ∃ c', Completes (.controllerTrained m restored) s c' ∧
    memState c' m = 2 ∧ rflag c' (Reg.MEM_M_STATUS m) 28 = restored ∧
    (if restoring s.chip ∧ restored = false then rflag c' (Reg.MEM_M_FAULT m) 3 = true ∧
        Frame [Reg.MEM_M_STATUS m, Reg.MEM_M_FAULT m] [] s.chip c'
      else Frame [Reg.MEM_M_STATUS m] [] s.chip c'))


/-! ### Stream ports and encoders -/

/-- LINK_EN_SET of a port whose domain is ON sets LINK_EN and nothing else. DATA_PHASE of an enabled port out of data phase with its pads released enters data phase with both locks of its lanes, or under skew holds the locks and raises fault bit 2. MULTIBLOCK_RX in data phase hands the samples to the capture of an encoder that is not stopped, with a CRC error counted and raised; out of data phase nothing happens. LANE_LOCK_LOSS in data phase leaves it, drops that lane's locks, counts ENC_LINK_DROPS and raises fault bit 0. PORT_SYSREF_EDGE raises fault bit 3 in data phase off the LEMC boundary, and else does nothing. -/
def Obligations.StreamPortLink : Prop :=
  ∀ (p : Fin 16) (s : State),
    let lanes := 2 ^ (rfld s.chip (Reg.ENC_LINK_CFG p) 9 8 + 1) - 1
    let caught (x : Capture) (c' : Chip) : Prop :=
      (enc c' p).cap = if encState s.chip p = 0 then (enc s.chip p).cap else (enc s.chip p).cap ++ [x]
    (portOn s.chip p = true → ∃ c', Completes (.linkEnSet p) s c' ∧ rflag c' (Reg.ENC_CTRL p) 2 = true ∧
      Frame [Reg.ENC_CTRL p] [] s.chip c') ∧
    (∀ (skew : Bool) (now : Nat), portOn s.chip p = true → rflag s.chip (Reg.ENC_CTRL p) 2 = true → linkUp s.chip p = false →
      padHeld s.chip p = false → ∃ c', Completes (.dataPhase p skew now) s c' ∧
        reg c' (Reg.ENC_LINK_STATUS p) = BitVec.ofNat 32 (lanes * 0x110 + if skew then 2 else 3) ∧
        (skew = true → rflag c' (Reg.ENC_FAULT p) 2 = true ∧ Frame [Reg.ENC_LINK_STATUS p, Reg.ENC_FAULT p] [] s.chip c') ∧
        (skew = false → rflag c' (Reg.ENC_STATUS p) 28 = true ∧ caught { time := now, kind := 2, data := [] } c' ∧
          Frame [Reg.ENC_LINK_STATUS p, Reg.ENC_STATUS p] [] s.chip { c' with encs := s.chip.encs })) ∧
    (∀ (now : Nat) (xs : List (BitVec 16)) (bad : Bool),
      (linkUp s.chip p = true → ∃ c', Completes (.multiblockRx p now xs bad) s c' ∧
        caught { time := now, kind := 0, data := xs } c' ∧
        (bad = true → Advanced (Reg.ENC_CRC_ERR p) 1 s.chip c' ∧ rflag c' (Reg.ENC_FAULT p) 1 = true) ∧
        Frame (if bad then [Reg.ENC_CRC_ERR p, Reg.ENC_FAULT p] else []) [] s.chip { c' with encs := s.chip.encs }) ∧
      (linkUp s.chip p = false → Completes (.multiblockRx p now xs bad) s s.chip)) ∧
    (∀ (lane : Fin 4) (now : Nat), linkUp s.chip p = true → ∃ c', Completes (.laneLockLoss p lane now) s c' ∧
      linkUp c' p = false ∧ rflag c' (Reg.ENC_LINK_STATUS p) (4 + lane) = false ∧
      rflag c' (Reg.ENC_LINK_STATUS p) (8 + lane) = false ∧ rflag c' (Reg.ENC_STATUS p) 28 = false ∧
      Advanced (Reg.ENC_LINK_DROPS p) 1 s.chip c' ∧ rflag c' (Reg.ENC_FAULT p) 0 = true ∧
      caught { time := now, kind := 1, data := [] } c' ∧
      Frame [Reg.ENC_LINK_STATUS p, Reg.ENC_STATUS p, Reg.ENC_LINK_DROPS p, Reg.ENC_FAULT p] [] s.chip { c' with encs := s.chip.encs }) ∧
    (∀ (aligned : Bool), ∃ c', Completes (.portSysrefEdge p aligned) s c' ∧
      (linkUp s.chip p = true → aligned = false → rflag c' (Reg.ENC_FAULT p) 3 = true ∧ Frame [Reg.ENC_FAULT p] [] s.chip c') ∧
      ((linkUp s.chip p = false ∨ aligned = true) → c' = s.chip))

/-- At a port whose domain is ON. ENC_RUN_SET of a stopped encoder publishes ENC_PIPE_LAT and arms it where its configuration is legal; else it sets REFUSED, clears RUN and stays stopped; of one that is not stopped it sets RUN alone. ENC_RUN_CLEAR clears RUN: an armed encoder stops at once, a running one or one at replay end is stopping. QNT_FREEZE sets FREEZE. ENC_ROUTE_WRITE to the set in force changes nothing; to the other set it writes the word's fields. -/
def Obligations.EncoderRunAndSettings : Prop :=
  ∀ (p : Fin 16) (s : State), portOn s.chip p = true →
    (encState s.chip p = 0 → ∃ c', Completes (.encRunSet p) s c' ∧
      reg c' (Reg.ENC_PIPE_LAT p) = BitVec.ofNat 32 (pipeLatOf s.chip p) ∧
      (encLegal s.chip p = true → encState c' p = 1 ∧ rflag c' (Reg.ENC_STATUS p) 27 = false ∧ rflag c' (Reg.ENC_CTRL p) 0 = true) ∧
      (encLegal s.chip p = false → encState c' p = 0 ∧ rflag c' (Reg.ENC_STATUS p) 27 = true ∧ rflag c' (Reg.ENC_CTRL p) 0 = false) ∧
      Frame [Reg.ENC_CTRL p, Reg.ENC_STATUS p, Reg.ENC_PIPE_LAT p] [] s.chip { c' with encs := s.chip.encs }) ∧
    (encState s.chip p ≠ 0 → ∃ c', Completes (.encRunSet p) s c' ∧ rflag c' (Reg.ENC_CTRL p) 0 = true ∧
      Frame [Reg.ENC_CTRL p] [] s.chip c') ∧
    (∃ c', Completes (.encRunClear p) s c' ∧ rflag c' (Reg.ENC_CTRL p) 0 = false ∧
      encState c' p = (match encState s.chip p with | 1 => 0 | 2 => 3 | 4 => 3 | n => n) ∧
      Frame [Reg.ENC_CTRL p, Reg.ENC_STATUS p] [] s.chip { c' with encs := s.chip.encs }) ∧
    (∀ hold, ∃ c', Completes (.qntFreeze p hold) s c' ∧ rflag c' (Reg.QNT_CFG p) 9 = hold ∧ Frame [Reg.QNT_CFG p] [] s.chip c') ∧
    (∀ (set : Fin 2) (n : Fin 32) (w : Fin 4) (v : Word),
      (rfld s.chip (Reg.ENC_EPOCH p) 0 0 = set → Completes (.encRouteWrite p set n w v) s s.chip) ∧
      (rfld s.chip (Reg.ENC_EPOCH p) 0 0 ≠ set → ∃ c', Completes (.encRouteWrite p set n w v) s c' ∧
        reg c' (Reg.ENC_ROUTE p set n w) = (match w.val with | 0 => v &&& 0xFFFF0FFF#32 | 3 => v &&& 0xFFFF#32 | _ => v) ∧
        Frame [Reg.ENC_ROUTE p set n w] [] s.chip c'))

/-- ENCODER_INJECT at a good tap with room: the oldest flit of a replayed interval that leaves by this tap, or with nothing replayed the oldest live one, goes to the tap's router on VC0 with the open parity, and ENC_EVENTS advances. INJ_DEADLINE raises fault bit 5 exactly when something is left to inject, and changes nothing else. ENCODER_REPLAY for the step in progress: a held interval is queued to be sent again and ENC_REPLAYS advances; an interval no longer held raises fault bit 9 and reports a failure of the step with cause GAP. -/
def Obligations.EncoderInjection : Prop :=
  ∀ (p : Fin 16) (s : State),
    (∀ (k : Fin 2) (now n : Nat) (d : DWord) (rest : List (Nat × DWord)),
      let tap := (portTaps p).getD k 0
      let E := enc s.chip p
      tapGood s.chip tap = true → domOn s.chip (fieldOf (tapTile tap)) = true → inRoom s.chip (tapTile tap) 5 0 = true →
      injectTap s.chip p n = k →
      (E.resend = (n, d) :: rest ∨ (E.resend = [] ∧ E.live = (n, d) :: rest ∧ E.asked = [] ∧
        (jobAt s.chip (encJob s.chip p)).replay = none)) →
      ∃ c', Completes (.encoderInject p k now) s c' ∧ Advanced (Reg.ENC_EVENTS p) 1 s.chip c' ∧
        wire c' (tapTile tap) 5 0 = wire s.chip (tapTile tap) 5 0 ++
          [oneFlit 0 (atParity d (tbAt s.chip (encTb s.chip p)).parity)] ∧
        (E.resend ≠ [] → (enc c' p).resend = rest ∧ (enc c' p).live = E.live) ∧
        (E.resend = [] → (enc c' p).resend = [] ∧ (enc c' p).live = rest) ∧
        Frame [Reg.ENC_EVENTS p, Reg.ENC_INJ_LAST p] [] s.chip { c' with encs := s.chip.encs, wires := s.chip.wires }) ∧
    (∃ c', Completes (.injDeadline p) s c' ∧ (encClean s.chip p = true → c' = s.chip) ∧
      (encClean s.chip p = false → rflag c' (Reg.ENC_FAULT p) 5 = true ∧ Frame [Reg.ENC_FAULT p] [] s.chip c')) ∧
    (∀ f rest, (enc s.chip p).asked = f :: rest → f = jobStep s.chip (encJob s.chip p) →
      (jobAt s.chip (encJob s.chip p)).resendDue = false → ∃ c', Completes (.encoderReplay p) s c' ∧ (enc c' p).asked = rest ∧
      (∀ h, (enc s.chip p).held.find? (fun h => h.step == f) = some h →
        (enc c' p).resend = (enc s.chip p).resend ++ h.flits ∧ Advanced (Reg.ENC_REPLAYS p) 1 s.chip c' ∧
        Frame [Reg.ENC_REPLAYS p] [] s.chip { c' with encs := s.chip.encs }) ∧
      ((enc s.chip p).held.find? (fun h => h.step == f) = none → rflag c' (Reg.ENC_FAULT p) 9 = true ∧
        c'.reports = s.chip.reports ++ [{ job := encJob s.chip p, step := f, cause := 8, tile := 0, checker := 0 }] ∧
        Frame [Reg.ENC_FAULT p] [] s.chip { c' with encs := s.chip.encs, reports := s.chip.reports }))


/-! ### Result records and MSI-X -/

/-- RESULT_MESSAGE of a well-formed, unpoisoned RESULT message at a control tap: from the decoder that DEC_S_CFG names it becomes the stream's newest waiting record, none while the stream's job restarts; to a stream not enabled it counts DEC_S_DISCARD. RESULT_RELEASE of a record that may go takes the oldest waiting record, gives it the next sequence number (255 is followed by 1) and hands it to the ring. RESULT_RING_WRITE into an enabled ring with room while the host is reached moves the oldest released record, advances WPTR modulo 2N and DEC_S_RECORDS and, where no interrupt threshold is set, leaves in host memory the record in its slot and the write-back and nothing else. RR_RPTR_WRITE of a legal pointer stores it; a pointer that would make the ring hold more raises HIF_FAULT bit 2. RESULT_RING_ENABLE of a disabled ring zeroes both pointers; at an enabled ring it keeps the size and the pointers. -/
def Obligations.ResultsReachTheHost : Prop :=
  (∀ (k : Fin 8) (s : State) (h : Flit) (body : List Flit) (c1 : Chip), tapTake (48 + k) 2 s.chip = some (h, body, c1) →
    mResult h.data = true → mChannel h.data < 16 → anyPoison h body = false → wellFormed h.data = true →
    portOn s.chip (mChannel h.data) = true →
    let p := mChannel h.data
    let bs := mPayload h.data (body.map (fun f => f.data))
    let cfg := reg s.chip (Reg.DEC_S_CFG p)
    (flag cfg 31 = true → fSrc h.data = fld cfg 12 0 → 16 ≤ mLen h.data → (bs.getD 3 0#8).toNat % 16 = p →
      ∃ c', Completes (.resultMessage k) s c' ∧ (∀ a, reg c' a = reg s.chip a) ∧
        (streamAt c' p).waiting = (streamAt s.chip p).waiting ++ (if (jobAt s.chip (streamJob s.chip p)).restarting then []
          else [recordOf (tickNow s.chip (jobAt s.chip (streamJob s.chip p)).tb) bs])) ∧
    (flag cfg 31 = false → ∃ c', Completes (.resultMessage k) s c' ∧ (streamAt c' p).waiting = (streamAt s.chip p).waiting ∧
      Advanced (Reg.DEC_S_DISCARD p) 1 s.chip c')) ∧
  (∀ (p : Fin 16) (s : State) (r : Record) (rest : List Record), (streamAt s.chip p).waiting = r :: rest →
    (earlyMode s.chip (streamJob s.chip p) || releasable s.chip (streamJob s.chip p) r) = true →
    (streamAt s.chip p).dropping = false → (streamAt s.chip p).out.length < 64 →
    let seq := rfld s.chip (Reg.DEC_S_STATUS p) 7 0
    ∃ c' fl, Completes (.resultRelease p) s c' ∧ (streamAt c' p).waiting = rest ∧
      (streamAt c' p).out = (streamAt s.chip p).out ++ [recordBytes p (streamJob s.chip p) seq fl r] ∧
      (earlyMode s.chip (streamJob s.chip p) = true → bits fl 2 0 = 2) ∧
      rfld c' (Reg.DEC_S_STATUS p) 7 0 = (if seq = 255 then 1 else seq + 1) ∧
      Frame [Reg.DEC_S_STATUS p] [] s.chip { c' with streams := s.chip.streams }) ∧
  (∀ (p : Fin 16) (s : State) (bs : List Byte) (rest : List (List Byte)), (streamAt s.chip p).out = bs :: rest →
    rflag s.chip (Reg.HIF_RR_CFG p) 31 = true → hostReached s.chip = true → rrUsed s.chip p < rrSize s.chip p →
    let w := (reg s.chip (Reg.HIF_RR_WPTR p)).toNat
    let n := rrSize s.chip p
    let slot := (reg s.chip (Reg.HIF_RR_BASE_HI p)).toNat * 2 ^ 32 + rfld s.chip (Reg.HIF_RR_BASE_LO p) 31 6 * 64 + 32 * (w % n)
    let wb := (reg s.chip (Reg.HIF_RR_WB_HI p)).toNat * 2 ^ 32 + rfld s.chip (Reg.HIF_RR_WB_LO p) 31 3 * 8
    ∃ c', Completes (.resultRingWrite p) s c' ∧ (streamAt c' p).out = rest ∧
      reg c' (Reg.HIF_RR_WPTR p) = BitVec.ofNat 32 ((w + 1) % (2 * n)) ∧ Advanced (Reg.DEC_S_RECORDS p) 1 s.chip c' ∧
      (rfld s.chip (Reg.HIF_RR_CFG p) 15 0 = 0 → c'.host.mem = hostPut wb
        (toBytes 4 ((w + 1) % (2 * n)) ++ toBytes 4 (reg s.chip (Reg.HIF_RR_DROP p)).toNat) (hostPut slot bs s.chip.host.mem))) ∧
  (∀ (p : Fin 16) (v : Word) (s : State),
    let n := 2 * rrSize s.chip p
    let held (r : Nat) : Nat := ((reg s.chip (Reg.HIF_RR_WPTR p)).toNat + n - r) % n
    (held (fld v 16 0 % n) ≤ rrUsed s.chip p → ∃ c', Completes (.rrRptrWrite p v) s c' ∧
      reg c' (Reg.HIF_RR_RPTR p) = BitVec.ofNat 32 (fld v 16 0 % n) ∧ (streamAt c' p).notified = false ∧
      Frame [Reg.HIF_RR_RPTR p] [] s.chip { c' with streams := s.chip.streams }) ∧
    (rrUsed s.chip p < held (fld v 16 0 % n) → ∃ c', Completes (.rrRptrWrite p v) s c' ∧ rflag c' Reg.HIF_FAULT 2 = true ∧
      Frame [Reg.HIF_FAULT] [] s.chip c') ∧
    (rflag s.chip (Reg.HIF_RR_CFG p) 31 = false → ∃ c', Completes (.resultRingEnable p v) s c' ∧
      reg c' (Reg.HIF_RR_CFG p) = v &&& 0xBF1FFFFF#32 ∧
      (flag v 31 = true → reg c' (Reg.HIF_RR_WPTR p) = 0#32 ∧ reg c' (Reg.HIF_RR_RPTR p) = 0#32) ∧
      Frame [Reg.HIF_RR_CFG p, Reg.HIF_RR_WPTR p, Reg.HIF_RR_RPTR p] [] s.chip { c' with streams := s.chip.streams }) ∧
    (rflag s.chip (Reg.HIF_RR_CFG p) 31 = true → ∃ c', Completes (.resultRingEnable p v) s c' ∧
      rfld c' (Reg.HIF_RR_CFG p) 20 16 = rfld s.chip (Reg.HIF_RR_CFG p) 20 16 ∧ rflag c' (Reg.HIF_RR_CFG p) 31 = flag v 31 ∧
      Frame [Reg.HIF_RR_CFG p] [] s.chip c'))

/-- MSIX_REQUEST of an unmasked vector while the host is reached writes the entry's data at the entry's address, once, and nothing else changes; of a masked vector it sets the vector's pending bit alone. MSIX_UNMASK stores the word and the function mask; while the host is reached, exactly those pending bits stay whose vector is still masked, and no register changes. -/
def Obligations.MsixMessages : Prop :=
  (∀ (v : Fin 64) (s : State),
    let a := (msixWord s.chip v 1).toNat * 2 ^ 32 + (msixWord s.chip v 0).toNat
    let m := hostPut a (toBytes 4 (msixWord s.chip v 2).toNat) s.chip.host.mem
    (msixMasked s.chip v = false → hostReached s.chip = true →
      Completes (.msixRequest v) s { s.chip with host := { s.chip.host with mem := m } }) ∧
    (msixMasked s.chip v = true → ∃ c', Completes (.msixRequest v) s c' ∧ bit c'.host.pend.toNat v = true ∧
      (∀ u : Fin 64, u ≠ v → bit c'.host.pend.toNat u = bit s.chip.host.pend.toNat u) ∧
      c' = { s.chip with host := { s.chip.host with pend := c'.host.pend } })) ∧
  (∀ (v : Fin 64) (w : Fin 4) (x : Word) (fn : Bool) (s : State), ∃ c', Completes (.msixUnmask v w x fn) s c' ∧
    msixWord c' v w = x ∧ c'.host.fnMask = fn ∧
    (hostReached s.chip = true → ∀ u : Fin 64, bit c'.host.pend.toNat u = (bit s.chip.host.pend.toNat u && msixMasked c' u)) ∧
    (hostReached s.chip = false → c'.host.pend = s.chip.host.pend ∧ c'.host.mem = s.chip.host.mem) ∧
    Frame [] [] s.chip { c' with host := s.chip.host })


/-! ### Timebases and steps -/

/-- TB_ENABLE of a timebase that is neither enabled nor stopping takes the written control fields: where the checks of Table 2.3 pass it is enabled, idle and waits for its first boundary with CONFIG_ERR 0 and its job in state 1; else it stays disabled with CONFIG_ERR 1 and nothing else changes. Of an enabled or stopping one it changes nothing. TB_DISABLE of an enabled timebase clears ENABLE and sets STOP_PENDING alone; of another it changes nothing. TB_STOP_COMPLETE within a step changes nothing; between steps it ends a pending stop with ENABLE, STOP_PENDING and ACTIVE 0 and TICK_NOW kept, or puts a due HOLD into force with HOLD_SKIPPED 0. -/
def Obligations.TimebaseControl : Prop :=
  ∀ (k : Fin 16) (s : State),
    (∀ v : Word, stopPending s.chip k = false → tbEnabled s.chip k = false →
      let c1 := setReg (Reg.TICK_TB_CTRL k) (v &&& 0x13F0FFFF#32) s.chip
      (enableOk c1 k = true → ∃ c', Completes (.tbEnable k v) s c' ∧ tbEnabled c' k = true ∧
        rflag c' (Reg.TICK_TB_CTRL k) 27 = false ∧ (tbAt c' k).armed = true ∧ (tbAt c' k).phase = .idle ∧
        jobOfTb c' k = fld v 23 20 ∧ rfld c' (Reg.CHK_JOB_STATE (fld v 23 20)) 31 29 = 1 ∧
        Frame [Reg.TICK_TB_CTRL k, Reg.TICK_TB_PERIOD k, Reg.CHK_JOB_STATE (fld v 23 20)] [] s.chip
          { c' with tbs := s.chip.tbs, jobs := s.chip.jobs }) ∧
      (enableOk c1 k = false → ∃ c', Completes (.tbEnable k v) s c' ∧ tbEnabled c' k = false ∧
        rflag c' (Reg.TICK_TB_CTRL k) 27 = true ∧ Frame [Reg.TICK_TB_CTRL k] [] s.chip c')) ∧
    (∀ v : Word, (stopPending s.chip k || tbEnabled s.chip k) = true → Completes (.tbEnable k v) s s.chip) ∧
    (tbEnabled s.chip k = true → ∃ c', Completes (.tbDisable k) s c' ∧ tbEnabled c' k = false ∧ stopPending c' k = true ∧
      Frame [Reg.TICK_TB_CTRL k] [] s.chip c') ∧
    (tbEnabled s.chip k = false → Completes (.tbDisable k) s s.chip) ∧
    (betweenSteps s.chip k = false → Completes (.tbStopComplete k) s s.chip) ∧
    (betweenSteps s.chip k = true → stopPending s.chip k = true → ∃ c', Completes (.tbStopComplete k) s c' ∧
      tbEnabled c' k = false ∧ stopPending c' k = false ∧ rflag c' (Reg.TICK_TB_CTRL k) 29 = false ∧
      (tbAt c' k).phase = .idle ∧ tickNow c' k = tickNow s.chip k) ∧
    (betweenSteps s.chip k = true → stopPending s.chip k = false → tbEnabled s.chip k = true → holdsNow s.chip k = true →
      (tbAt s.chip k).held = false → ∃ c', Completes (.tbStopComplete k) s c' ∧ (tbAt c' k).held = true ∧
      tbEnabled c' k = true ∧ reg c' (Reg.TICK_TB_HOLD_SKIPPED k) = 0#32 ∧ tickNow c' k = tickNow s.chip k)

/-- SYSREF_EDGE with tracking off changes nothing. Before lock it measures the period from the last edge and locks once enough edges have come where predicted. In lock, off holdover, an edge outside SYSREF_TOL counts SLIP_COUNT, raises bit 17 of TICK_IRQ_STATUS and nothing else changes, and one within it moves the prediction a period on. SYSREF_MISS past the tolerance of a locked SYSREF off holdover counts MISS_COUNT and raises bit 16: with holdover allowed holdover begins and the prediction moves a period on; without it LOCKED is cleared. HOLDOVER_EDGE in holdover at the predicted time moves the prediction a period on. -/
def Obligations.SysrefEdges : Prop :=
  ∀ (t : Nat) (s : State),
    let c := s.chip
    let moved (from_ : Nat) (c' : Chip) : Prop := c'.sysref.predicted = some (from_ + sysPeriod c) ∧ sysPeriod c' = sysPeriod c
    (rflag c Reg.TICK_SYSREF_CFG 0 = false → Completes (.sysrefEdge t) s c) ∧
    (∀ l p, rflag c Reg.TICK_SYSREF_CFG 0 = true → rflag c Reg.TICK_SYSREF_STATUS 31 = false → c.sysref.lastEdge = some l →
      c.sysref.predicted = some p → ∃ c', Completes (.sysrefEdge t) s c' ∧ sysPeriod c' = (t - l) % 2 ^ 30 ∧
      c'.sysref.lastEdge = some t ∧ c'.sysref.predicted = some (t + (t - l)) ∧
      (Machine.dist t p ≤ sysTol c → c'.sysref.good = c.sysref.good + 1 ∧
        (rflag c' Reg.TICK_SYSREF_STATUS 31 = true ↔ max 1 (rfld c Reg.TICK_SYSREF_CFG 15 8) ≤ c.sysref.good + 1)) ∧
      (sysTol c < Machine.dist t p → c'.sysref.good = 0 ∧ rflag c' Reg.TICK_SYSREF_STATUS 31 = false) ∧
      Frame [Reg.TICK_SYSREF_STATUS] [] c { c' with sysref := c.sysref }) ∧
    (∀ p, rflag c Reg.TICK_SYSREF_CFG 0 = true → rflag c Reg.TICK_SYSREF_STATUS 31 = true →
      rflag c Reg.TICK_SYSREF_STATUS 30 = false → c.sysref.predicted = some p →
      (sysTol c < Machine.dist t p → ∃ c', Completes (.sysrefEdge t) s c' ∧ Advanced Reg.TICK_SYSREF_SLIP_COUNT 1 c c' ∧
        rflag c' Reg.TICK_IRQ_STATUS 17 = true ∧ Frame [Reg.TICK_SYSREF_SLIP_COUNT, Reg.TICK_IRQ_STATUS] [] c c') ∧
      (Machine.dist t p ≤ sysTol c → ∃ c', Completes (.sysrefEdge t) s c' ∧ moved t c' ∧ c'.sysref.lastEdge = some t)) ∧
    (∀ p, rflag c Reg.TICK_SYSREF_STATUS 31 = true → rflag c Reg.TICK_SYSREF_STATUS 30 = false → c.sysref.predicted = some p →
      p + sysTol c < t → ∃ c', Completes (.sysrefMiss t) s c' ∧ Advanced Reg.TICK_SYSREF_MISS_COUNT 1 c c' ∧
      rflag c' Reg.TICK_IRQ_STATUS 16 = true ∧
      (rflag c Reg.TICK_SYSREF_CFG 1 = true → rflag c' Reg.TICK_SYSREF_STATUS 30 = true ∧ moved p c') ∧
      (rflag c Reg.TICK_SYSREF_CFG 1 = false → rflag c' Reg.TICK_SYSREF_STATUS 31 = false ∧ c'.sysref.predicted = none ∧
        Frame [Reg.TICK_SYSREF_MISS_COUNT, Reg.TICK_IRQ_STATUS, Reg.TICK_SYSREF_STATUS] [] c { c' with sysref := c.sysref })) ∧
    (∀ p, rflag c Reg.TICK_SYSREF_STATUS 30 = true → c.sysref.predicted = some p → p ≤ t →
      ∃ c', Completes (.holdoverEdge t) s c' ∧ moved p c')

/-- For an enabled timebase that is not held and whose job does not replay. TICK at or after the boundary that is due begins a step at that boundary in phase integrate with the parity of the step before, and TICK_NOW becomes the start tick at the first boundary and the next number at every later one. FREE_RUN_TICK after a settled step does the same at its own time and records the period. A strobe no later than the latest update go (USTART plus the stretch budget, or FREE_MAX in free-run mode) finds quiescence exactly when every unit is clean and records its offset; a later one finds none. UPDATE_GO at quiescence, not before USTART, begins the update with the step's own parity open, at the latest update go where it comes after that. Without quiescence FORCED_UPDATE_GO, or in free-run mode FREE_TIMEOUT, begins it at the latest update go, and the step counts as an overrun. UPDATE_END begins settle UEND − USTART after update go. -/
def Obligations.StepPhases : Prop :=
  ∀ (k : Fin 16) (now : Nat) (s : State),
    let T := tbAt s.chip k
    let j := jobOfTb s.chip k
    let step := jobStep s.chip j
    let begun (n due : Nat) (c' : Chip) : Prop := tickNow c' k = n ∧ (tbAt c' k).phase = .integrate ∧ (tbAt c' k).tickAt = due ∧
      (tbAt c' k).parity = (n + 1) % 2 ∧ (tbAt c' k).quiet = false ∧ (tbAt c' k).armed = false
    let latest : Nat := if freeRun s.chip k then rfld s.chip (Reg.TICK_TB_FREE_MAX k) 22 0 else uStart s.chip k + stretchOf s.chip k
    let going (at_ : Nat) (c' : Chip) : Prop := (tbAt c' k).phase = .update ∧ (tbAt c' k).goAt = at_ ∧ (tbAt c' k).parity = step % 2
    let overran (c' : Chip) : Prop := Advanced (Reg.TICK_TB_OVERRUN_COUNT k) 1 s.chip c' ∧
      reg c' (Reg.TICK_TB_LAST_OVERRUN k) = BitVec.ofNat 32 (step % 2 ^ 32) ∧ rflag c' (Reg.TICK_TB_EVENT k) 0 = true
    (let c1 := noteFabrics now s.chip;
      (tbEnabled c1 k || stopPending c1 k) = true → (tbAt c1 k).phase = .integrate → (tbAt c1 k).quiet = false →
      ∃ c', Completes (.quiescenceStrobe now) s c' ∧
        (tbAt c' k).quiet = (goTime c1 k now == now && allClean c1 k (tbAt c1 k).parity) ∧
        ((tbAt c' k).quiet = true → reg c' (Reg.TICK_TB_QUIESCE_LAST k) = BitVec.ofNat 32 (min (now - (tbAt c1 k).tickAt) 0x7FFFFF))) ∧
    ((jobAt s.chip j).replay = none →
      (tbEnabled s.chip k = true → T.held = false → freeRun s.chip k = false → ∀ due, T.dueAt = some due → due ≤ now →
        ∃ c', Completes (.tick k now) s c' ∧
          begun (if T.armed then reg2 s.chip (Reg.TICK_TB_START_LO k) (Reg.TICK_TB_START_HI k) % 2 ^ 48
            else nextStep (tickNow s.chip k)) due c') ∧
      (tbEnabled s.chip k = true → T.held = false → freeRun s.chip k = true → T.armed = false → settleDone s.chip k = true →
        T.tickAt + rfld s.chip (Reg.TICK_TB_FREE_MIN k) 22 0 ≤ now → ((jobAt s.chip j).multi = true → T.barrier = true) →
        ∃ c', Completes (.freeRunTick k now) s c' ∧ begun (nextStep (tickNow s.chip k)) now c' ∧
          reg c' (Reg.TICK_TB_PERIOD k) = BitVec.ofNat 32 (min (now - T.tickAt) 0x7FFFFF)) ∧
      (T.phase = .integrate → T.quiet = true →
        (T.tickAt + uStart s.chip k ≤ now → ∃ c', Completes (.updateGo k now) s c' ∧ going (min (now - T.tickAt) latest) c') ∧
        (now < T.tickAt + uStart s.chip k → Completes (.updateGo k now) s s.chip)) ∧
      (T.phase = .integrate → T.quiet = false → freeRun s.chip k = false → T.tickAt + latest ≤ now →
        ∃ c', Completes (.forcedUpdateGo k now) s c' ∧ going latest c' ∧ overran c') ∧
      (T.phase = .integrate → T.quiet = false → freeRun s.chip k = true → T.tickAt + latest ≤ now →
        ∃ c', Completes (.freeTimeout k now) s c' ∧ going latest c' ∧ overran c' ∧ rflag c' (Reg.TICK_TB_EVENT k) 3 = true)) ∧
    (T.phase = .update →
      (T.tickAt + T.goAt + (uEnd s.chip k - uStart s.chip k) ≤ now → ∃ c', Completes (.updateEnd k now) s c' ∧
        (tbAt c' k).phase = .settle ∧ (tbAt c' k).endAt = now - T.tickAt) ∧
      (now < T.tickAt + T.goAt + (uEnd s.chip k - uStart s.chip k) → Completes (.updateEnd k now) s s.chip))


/-! ### Integrity, replay and restart -/

/-- After update end. SAMPLE_CHECK on a checked tile whose stream is open closes the stream with two digests, free values that are equal exactly when the lane agreed (R343 leaves the operand stream's values open), and takes the next word. DIGEST on a checked tile whose stream is closed writes both digests, counts the comparison and, where they differ, counts the mismatch, sets its flag and reports a failure of the step with cause DIGEST; on a tile not sampled it takes the next word and nothing else changes. CENSUS on a quiet router gives the tile's counts of the closed parity once, shown in RTR_CNS_; a tile that has given them takes the next word once its combined contribution has left, and waits until then. -/
def Obligations.IntegrityWords : Prop :=
  ∀ (t : Fin 8192) (s : State), domOn s.chip (fieldOf t) = true → endReached s.chip t = true →
    let k := (tile s.chip t).chk
    let q := (tile s.chip t).seq
    (∀ agree, atWord s.chip t 0x0B = true → k.sampled = true → k.checked = true → q.sampleClosed = false →
      ∃ c', Completes (.sampleCheck t agree) s c' ∧ PastWord t s.chip c' ∧ (tile c' t).seq.sampleClosed = true ∧
        ((tile c' t).chk.digest = (tile c' t).chk.peer ↔ agree = true) ∧ c'.free = s.chip.free + 2 ∧
        Frame [Reg.TILE_SRAM_CE t] [t.val] s.chip { c' with free := s.chip.free }) ∧
    (atWord s.chip t 0x07 = true → k.sampled = true → k.checked = true → q.sampleClosed = true →
      ∃ c', Completes (.digest t) s c' ∧ PastWord t s.chip c' ∧ reg c' (Reg.CHK_T_DIGEST t) = k.digest ∧
        reg c' (Reg.CHK_T_PEER t) = k.peer ∧ Advanced (Reg.CHK_T_COMPARES t) 1 s.chip c' ∧
        (k.digest = k.peer → rflag c' (Reg.CHK_T_STATUS t) 28 = false ∧ c'.reports = s.chip.reports) ∧
        (k.digest ≠ k.peer → Advanced (Reg.CHK_T_MISMATCH t) 1 s.chip c' ∧ rflag c' (Reg.CHK_T_STATUS t) 28 = true ∧
          ∀ j, jobOfTile s.chip t = some j → c'.reports = s.chip.reports ++
            [{ job := j, step := jobStep s.chip j, cause := 0, tile := t, checker := checkerTile s.chip t }])) ∧
    (atWord s.chip t 0x07 = true → k.sampled = false → ∃ c', Completes (.digest t) s c' ∧ PastWord t s.chip c' ∧
      Frame [Reg.TILE_SRAM_CE t] [t.val] s.chip c') ∧
    (∀ b, atWord s.chip t 0x0C = true → tbOfTile s.chip t = some b →
      let par := censusParity (tileStep s.chip t)
      let kind := bits (wordAt s.chip t) 3 0
      (q.censused = false → QuietRouter t s.chip → ∃ c', Completes (.census t) s c' ∧ (tile c' t).seq.censused = true ∧
        reg c' (Reg.RTR_CNS_SENT t) = BitVec.ofNat 32 (numOf (tile s.chip t).census (4 * par)) ∧
        reg c' (Reg.RTR_CNS_DELIV t) = BitVec.ofNat 32 (numOf (tile s.chip t).census (4 * par + 1)) ∧
        reg c' (Reg.RTR_CNS_DROP t) = BitVec.ofNat 32 (numOf (tile s.chip t).census (4 * par + 2))) ∧
      (q.censused = true → ∃ c', Completes (.census t) s c' ∧ Frame [Reg.TILE_SRAM_CE t] [t.val] s.chip c' ∧
        (contributionLeft s.chip t kind b par = true → PastWord t s.chip c') ∧
        (contributionLeft s.chip t kind b par = false → WaitsAtWord t s.chip c')))

/-- FAIL_REPORT takes the oldest report: its counter advances and, unless its step is confirmed, its cause is recorded for the step. STEP_CENSUS_DONE of a settled step with every sum in ends the census and counts late copies; every report of the job then reaches the integrity block, and an imbalance is cause 1. On a job of one device with no report on its way it forms the verdict at once: pass where no cause is recorded and the census balances, else fail. REWIND carries out a due rewind of step f: the job replays f, its timebase integrates again with the parity of f's integrate, STATE and the step's name are shown, and no rewind is due. REPLAY_END_STEP of a replay whose tiles have ended ends the replay, census in or not; unless its verdict begins a restart STATE becomes 1 and the step whose tick has passed meanwhile begins at that tick. RESUME_WRITE while the job restarts, of a step at least two ahead, restores the job and is accepted with STATE 5; while it does not restart, or the image being applied replaces it, nothing changes. -/
def Obligations.ReplayAndRestart : Prop :=
  (∀ (s : State) (r : Report) rest, s.chip.reports = r :: rest → r.job < 16 → ∃ c', Completes .failReport s c' ∧
    c'.reports = rest ∧ (stepMarked s.chip r.job r.step 4 = false → bit (causesOf c' r.job r.step) r.cause = true) ∧
    (∀ n, r.cause ≠ 5 → causeCounter r.cause = some n → Advanced (Reg.CHK_CNT n) 1 s.chip c')) ∧
  (∀ (k : Fin 16) (s : State) (sent deliv drop late : Nat),
    let j := jobOfTb s.chip k
    let par := censusParity (jobStep s.chip j)
    let fine := sent = deliv + drop
    (tbAt s.chip k).phase = .settle → (tbAt s.chip k).censusDone = false → (jobAt s.chip j).census = true →
    (jobAt s.chip j).unjudged = none →
    censusSum s.chip k 0 par = some sent → censusSum s.chip k 1 par = some deliv → censusSum s.chip k 2 par = some drop →
    censusSum s.chip k 3 par = some late → ∃ c', Completes (.stepCensusDone k) s c' ∧ (tbAt c' k).censusDone = true ∧
      Advanced (Reg.TICK_TB_LATE_COUNT k) late s.chip c' ∧ (0 < late → rflag c' (Reg.TICK_TB_EVENT k) 1 = true) ∧
      c'.reports = s.chip.reports.filter (fun r => r.job != j) ∧
      (stepMarked s.chip j (jobStep s.chip j) 4 = false →
        (¬ fine → bit (causesOf c' j (jobStep s.chip j)) 1 = true) ∧
        (openVerdict s.chip j (jobStep s.chip j) = true → (jobAt s.chip j).multi = false → (jobAt s.chip j).tb = k →
          s.chip.reports.all (fun r => r.job != j) = true → verdictOf c' j (jobStep s.chip j) =
            (if fine ∧ causesOf s.chip j (jobStep s.chip j) = 0 then 1 else 2)))) ∧
  (∀ (j : Fin 16) (now : Nat) (s : State),
    let J := jobAt s.chip j
    let T := tbAt s.chip J.tb
    (∀ f, J.rewindDue = some f → J.restarting = false → ∃ c', Completes (.rewind j) s c' ∧
      (jobAt c' j).replay = some f ∧ (jobAt c' j).replayed = some f ∧ (jobAt c' j).rewindDue = none ∧
      (tbAt c' J.tb).phase = .integrate ∧ (tbAt c' J.tb).parity = (f + 1) % 2 ∧ (tbAt c' J.tb).quiet = false ∧
      rfld c' (Reg.CHK_JOB_STATE j) 31 29 = (if J.multi then 2 else 3) ∧
      rfld c' (Reg.CHK_JOB_STATE j) 15 0 = f % 65536 ∧ rflag c' (Reg.CHK_JOB_EVENT j) 2 = true) ∧
    (∀ f, J.replay = some f → J.restarting = false → T.phase = .settle → allEnded s.chip J.tb = true →
      ∃ c', Completes (.replayEndStep j now) s c' ∧ (jobAt c' j).replay = none ∧
      ((jobAt c' j).restarting = false → rfld c' (Reg.CHK_JOB_STATE j) 31 29 = 1 ∧
        (J.tickInReplay = true → (tbAt c' J.tb).tickAt = T.laterTick ∧
          (now ≤ T.laterTick → (tbAt c' J.tb).phase = .integrate))) ∧
      (J.tickInReplay = false → chkOn s.chip j = false → s.chip.reports.all (fun r => r.job != j) = true →
        Frame [Reg.CHK_JOB_STATE j] [] s.chip { c' with jobs := s.chip.jobs })) ∧
    (∀ v : Word,
      let q := step16 (tickNow s.chip J.tb) (fld v 15 0)
      (J.restarting = true → flag v 31 = true → beingReplaced s.chip j = false → (tickNow s.chip J.tb : Int) + 2 ≤ q → ∃ c', Completes (.resumeWrite j v) s c' ∧
        reg c' (Reg.CHK_JOB_RESUME j) = v &&& 0x8000FFFF#32 ∧ (jobAt c' j).resume = some (q.toNat % 2 ^ 48) ∧
        rfld c' (Reg.CHK_JOB_STATE j) 31 29 = 5 ∧
        Frame [Reg.CHK_JOB_RESUME j, Reg.CHK_JOB_STATE j] [] (restartWork j s.chip) { c' with jobs := (restartWork j s.chip).jobs }) ∧
      ((J.restarting = false ∨ beingReplaced s.chip j = true) → Completes (.resumeWrite j v) s s.chip)))


/-! ### Fabric links -/

/-- NLK_EN_SET of a usable link that is down starts training, unless the torus is larger than the licence grants, which raises GW_FAULT bit 6; otherwise it sets EN alone. LINK_TRAINED of a training or retraining link shows the locked lanes and goes to handshake with all lanes, or degraded with one half where that is allowed; in handshake, with the peer's HELLO still to come, it sends HELLO again. The ACK and credits of a HELLO or HELLO_ACK are taken; from another peer than R317 expects it raises fault bit 5 and no more; from the right one HELLO shows the peer and answers with one frame, and HELLO_ACK with nothing unacknowledged takes the peer's free space as credits, shows the round trip and sends READY. READY ends the handshake with the link up; a lane lost in it starts a retrain. RETRAIN of a link that is up counts and flags a retrain; RETRAIN_FAIL takes it down, with nothing left on it; TRAIN_RETRY trains a down link again while EN is set. -/
def Obligations.LinkBringUp : Prop :=
  ∀ (e : Fin 8) (s : State),
    let c := s.chip
    let L := linkAt c e
    let taken (f : BitVec 256) : List Nat := [Reg.NLK_RETRY_OCC e, Reg.NLK_CREDIT e (frCredVc f)]
    (domOn c (84 + e) = true → ∃ c', Completes (.nlkEnSet e) s c' ∧ rflag c' (Reg.NLK_CTRL e) 31 = true ∧
      (linkState c e = 0 → linkUsable c e = true → overLicence c = false → linkState c' e = 1 ∧
        (linkAt c' e).retry = [] ∧ (linkAt c' e).txSeq = 0 ∧ (linkAt c' e).rxNext = 0) ∧
      (linkState c e = 0 → linkUsable c e = true → overLicence c = true → linkState c' e = 0 ∧ rflag c' Reg.GW_FAULT 6 = true ∧
        Frame [Reg.NLK_CTRL e, Reg.GW_FAULT] [] c c') ∧
      (linkState c e ≠ 0 ∨ linkUsable c e = false → Frame [Reg.NLK_CTRL e] [] c c')) ∧
    (∀ lanes : Byte, linkState c e = 1 ∨ linkState c e = 4 → ∃ c', Completes (.linkTrained e lanes) s c' ∧
      rfld c' (Reg.NLK_STATUS e) 27 20 = lanes.toNat ∧
      (lanes = 255#8 → linkState c' e = 2 ∧ rflag c' (Reg.NLK_STATUS e) 28 = false) ∧
      (lanes = 0x0F#8 ∨ lanes = 0xF0#8 → rflag c (Reg.NLK_CTRL e) 8 = true →
        linkState c' e = 2 ∧ rflag c' (Reg.NLK_STATUS e) 28 = true) ∧
      (lanes ≠ 255#8 → rflag c (Reg.NLK_CTRL e) 8 = false → linkState c' e = linkState c e) ∧
      Frame [Reg.NLK_STATUS e] [] c { c' with links := c.links }) ∧
    (∀ lanes : Byte, linkState c e = 2 → L.helloDue = true → ∃ c', Completes (.linkTrained e lanes) s c' ∧
      (linkAt c' e).out.length = L.out.length + 1 ∧ Frame [] [] c { c' with links := c.links }) ∧
    (∀ f, linkState c e = 2 → isControl f 0 = true → ∃ c', Completes (.hello e f) s c' ∧
      (peerOk c e f = true → rfld c' (Reg.NLK_STATUS e) 12 10 = e.val.xor 2 ∧
        rfld c' (Reg.NLK_STATUS e) 9 0 = devNext c (ownId c) (e / 2) ∧ linkState c' e = 2 ∧
        (linkAt c' e).out.length = L.out.length + 1 ∧ Frame (Reg.NLK_STATUS e :: taken f) [] c { c' with links := c.links }) ∧
      (peerOk c e f = false → rflag c' (Reg.NLK_FAULT e) 5 = true ∧
        Frame (Reg.NLK_FAULT e :: taken f) [] c { c' with links := c.links })) ∧
    (∀ f rtt, linkState c e = 2 → isControl f 1 = true → ∃ c', Completes (.helloAck e f rtt) s c' ∧
      (peerOk c e f = true → L.retry = [] → (linkAt c' e).readySent = true ∧ (∀ v, v < 10 → txCredit c' e v = frFree f v) ∧
        reg c' (Reg.NLK_RTT e) = BitVec.ofNat 32 (min rtt 65535) ∧ (linkAt c' e).out.length = L.out.length + 1) ∧
      (peerOk c e f = false → rflag c' (Reg.NLK_FAULT e) 5 = true ∧
        Frame (Reg.NLK_FAULT e :: taken f) [] c { c' with links := c.links })) ∧
    (∀ lane : Fin 8, linkState c e = 2 → ∃ c', Completes (.opticalLaneLosesLock e lane) s c' ∧ linkState c' e = 4 ∧
      rflag c' (Reg.NLK_STATUS e) (20 + lane) = false ∧ Advanced (Reg.NLK_RETRAINS e) 1 c c' ∧ rflag c' (Reg.NLK_FAULT e) 2 = true) ∧
    (linkState c e = 2 → L.readySent = true → ∃ c', Completes (.ready e) s c' ∧ linkIsUp c' e = true ∧
      (linkAt c' e).retraining = false) ∧
    (linkIsUp c e = true → ∃ c', Completes (.retrain e) s c' ∧ linkState c' e = 4 ∧ Advanced (Reg.NLK_RETRAINS e) 1 c c' ∧
      rflag c' (Reg.NLK_FAULT e) 2 = true ∧
      Frame [Reg.NLK_STATUS e, Reg.NLK_RETRAINS e, Reg.NLK_FAULT e] [] c { c' with links := c.links }) ∧
    (linkState c e = 4 → ∃ c', Completes (.retrainFail e) s c' ∧ linkState c' e = 5 ∧ rflag c' (Reg.NLK_FAULT e) 3 = true ∧
      (linkAt c' e).retry = [] ∧ (linkAt c' e).queue = []) ∧
    (linkState c e = 5 → rflag c (Reg.NLK_CTRL e) 31 = true → linkUsable c e = true → ∃ c', Completes (.trainRetry e) s c' ∧
      linkState c' e = 1 ∧ Frame [Reg.NLK_STATUS e, Reg.NLK_RETRY_OCC e] [] c { c' with links := c.links })

/-- On a link that is up. LINK_FRAME_RX of a good data frame with the next SEQ counts it and appends its slots to the receive buffers of their FVCs; of a frame with a bad CRC it counts and flags the error, takes no flit and asks for one retry, and counts and flags FEC_UNCORR or not as a free value says. RETRY_REQUEST and RETRY_TIMEOUT send every unacknowledged frame again and count a retry; too many within a millisecond start a retrain. NLK_CREDIT_WDOG of an FVC with a waiting flit and no credit flags and starts a retrain. OPTICAL_LANE_LOSES_LOCK clears the lane's lock and starts a retrain. -/
def Obligations.LinkFrames : Prop :=
  ∀ (e : Fin 8) (s : State), linkIsUp s.chip e = true →
    let c := s.chip
    let L := linkAt c e
    let tooMany (recent : Nat) : Prop := max 1 (rfld c (Reg.NLK_CFG e) 15 0) ≤ recent
    (∀ f, frameOk f = true → frType f = 0 → frSeq f = L.rxNext → ∃ c', Completes (.linkFrameRx e f) s c' ∧
      (linkAt c' e).rxNext = (L.rxNext + 1) % 1024 ∧ Advanced (Reg.NLK_RX_FRAMES e) 1 c c' ∧
      ∀ v, v < 10 → rxAt c' e v = rxAt c e v ++ ((List.range (frSlots f)).map (frSlot f)).filter (fun x => bits x.toNat 7 4 == v)) ∧
    (∀ f, frameOk f = false → ∃ c', Completes (.linkFrameRx e f) s c' ∧ Advanced (Reg.NLK_CRC_ERR e) 1 c c' ∧
      rflag c' (Reg.NLK_FAULT e) 0 = true ∧ (∀ v, rxAt c' e v = rxAt c e v) ∧ (linkAt c' e).rxNext = L.rxNext ∧
      (linkAt c' e).nak = true ∧ (linkAt c' e).out.length = L.out.length + (if L.nak then 0 else 1) ∧
      (Advanced (Reg.NLK_FEC_UNCORR e) 1 c c' ∧ rflag c' (Reg.NLK_FAULT e) 1 = true ∨
        reg c' (Reg.NLK_FEC_UNCORR e) = reg c (Reg.NLK_FEC_UNCORR e)) ∧
      Frame [Reg.NLK_CRC_ERR e, Reg.NLK_FAULT e, Reg.NLK_FEC_UNCORR e] [] c { c' with links := c.links, free := c.free }) ∧
    (∀ f recent, frameOk f = true → frType f = 2 → ∃ c', Completes (.retryRequest e f recent) s c' ∧
      Advanced (Reg.NLK_RETRIES e) 1 c c' ∧ (tooMany recent → linkState c' e = 4) ∧ (¬ tooMany recent → linkState c' e = 3)) ∧
    (∀ recent, L.retry ≠ [] → ∃ c', Completes (.retryTimeout e recent) s c' ∧ Advanced (Reg.NLK_RETRIES e) 1 c c' ∧
      (linkAt c' e).retry = L.retry ∧ (linkAt c' e).out.length = L.out.length + L.retry.length ∧
      (tooMany recent → linkState c' e = 4) ∧ (¬ tooMany recent → linkState c' e = 3)) ∧
    (∀ v : Fin 10, txCredit c e v = 0 → L.queue.any (fun f => f.fvc == v.val) = true → ∃ c', Completes (.nlkCreditWdog e v) s c' ∧
      rflag c' (Reg.NLK_FAULT e) 4 = true ∧ linkState c' e = 4 ∧ Advanced (Reg.NLK_RETRAINS e) 1 c c') ∧
    (∀ lane : Fin 8, ∃ c', Completes (.opticalLaneLosesLock e lane) s c' ∧ rflag c' (Reg.NLK_STATUS e) (20 + lane) = false ∧
      linkState c' e = 4 ∧ Advanced (Reg.NLK_RETRAINS e) 1 c c')


/-! ### Gateways and the fabric -/

/-- OUTBOUND_EVENT of the event at a gateway tap counts it delivered; without a valid outbound entry it counts GW_DROP_NOKEY, with one the gateway holds the fabric event for replay while it has room. OUTBOUND_PACKET queues prefix, head and body on the engine of its direction and lane, a reply that answers the oldest request from the fabric toward its requester. FABRIC_TRANSIT of an event for another device takes it from its receive buffer once the switch has room, and without an engine counts its copies unreachable. INBOUND_EVENT of a unicast event for this device without a fence takes it from its buffer: without a valid key entry it counts GW_DROP_NOKEY, too late GW_DROP_LATE, into a reset GW_DROP_RESET, without a token GW_DROP_FULL, and else the mesh event enters the router at the entry's tap (a good one in its place) on VC1 and its token is back. INBOUND_PACKET without a fence enters the mesh by the tap of the given row, or counts GW_DROP_RESET in a reset; a request's source is remembered. -/
def Obligations.FabricTraffic : Prop :=
  (∀ (k : Fin 96) (s : State) (e : Nat) (f : DWord) (c1 : Chip),
    let tb := tapTb s.chip k
    let w := reg s.chip (Reg.GW_OUT_WIN (e / 2))
    let i := (fAxon f + 65536 - fld w 31 16) % 65536
    let x := outEntry s.chip (e / 2) (fEpoch f) i
    let step := consumingStep s.chip tb
    tapUnit k = .engine e → (jobAt s.chip (jobOfTb s.chip tb)).resendDue = false → tapEvent k s.chip = some (f, c1) →
    ∃ c', Completes (.outboundEvent k) s c' ∧
      numOf c'.gw.census (8 * tb + 4 * fParity f + 1) = numOf s.chip.gw.census (8 * tb + 4 * fParity f + 1) + 1 ∧
      (bit x 63 = false → Advanced Reg.GW_DROP_NOKEY 1 s.chip c' ∧ rflag c' Reg.GW_FAULT 1 = true ∧ c'.gw.hold = s.chip.gw.hold) ∧
      (bit x 63 = true → bits x 61 60 ≠ 3 → i < min (fld w 15 0) 32768 → listOf s.chip.gw.hold e = [] →
        listOf c'.gw.hold e = [(step, tb, fabricEvent x f)])) ∧
  (∀ (k : Fin 96) (dest : BitVec 10) (s : State) (e d e' : Nat) (h : Flit) (body : List Flit) (c1 : Chip),
    let dst := packetDest h.data dest.toNat s.chip
    let p := prefixFlit h.data dst.1 (ownId c1) ((fSrc h.data % 2).xor (dst.1 % 2)) 0
    let flits := txFlits (outFvc c1 (classOf (fKind p)) d none) none
      (headTail ((p, false) :: (h.data, h.poison) :: body.map (fun f => (f.data, f.poison))))
    tapUnit k = .engine e → fabDir s.chip dst.1 = some d → nextPacketHead k s.chip = some h.data →
    [2, 3, 4, 5].findSome? (fun v => tapTake k v dst.2) = some (h, body, c1) → fFence h.data = false →
    engineFor c1 d (pLane p) = some e' →
    Completes (.outboundPacket k dest) s (pump e' (modLink e' (fun L => { L with queue := L.queue ++ flits }) c1)) ∧
      (s.chip.gw.asked = [] → dst.1 = dest.toNat) ∧
      (∀ a rest, s.chip.gw.asked = a :: rest → answersTo h.data a = true → dst.1 = a.src ∧ dst.2.gw.asked = rest)) ∧
  (∀ (e : Fin 8) (v : Fin 10) (s : State) (f : DWord) rest, rxAt s.chip e v = f :: rest → isEvent f = true →
    (∀ d, eventHop s.chip f = (false, some d) → isForwarded s.chip e v = false →
      let room := switchRoom s.chip 0 d (xLane f) (some (e / 2, v % 2))
      (room = false → Completes (.fabricTransit e v) s s.chip) ∧
      (room = true → ∃ c', Completes (.fabricTransit e v) s c' ∧ rxAt c' e v = rest ∧
        (engineFor s.chip d (xLane f) = none → Advanced Reg.GW_DROP_UNREACH (copiesBeyond s.chip f) s.chip c' ∧
          rflag c' Reg.GW_FAULT 3 = true))) ∧
    (v.val < 2 → xCast f = 0 → xDest f = ownId s.chip → fFence f = false → s.chip.gw.reasm = [] →
      eventHop s.chip f = (true, none) → isCopied s.chip e v = false →
      let i := 262144 * fEpoch f + xKey f
      let x := (mapGet (fun _ => 0#64) s.chip.gw.keyTable i).toNat
      let tap := gatewayIn s.chip ((engineTaps (2 * (e.val / 2) + bits x 24 21 / 5)).getD (bits x 24 21 % 5) 0)
      numOf s.chip.gw.ktMark (524288 * (e.val / 4) + i) = 0 →
      ∃ c', Completes (.inboundEvent e v) s c' ∧ rxAt c' e v = rest ∧
        (bit x 63 = false → Advanced Reg.GW_DROP_NOKEY 1 s.chip c') ∧
        (bit x 63 = true → bits x 62 61 ≠ 3 → bits x 24 21 < 10 →
          (lateFlit s.chip (meshEvent x f) = true → Advanced Reg.GW_DROP_LATE 1 s.chip c') ∧
          (lateFlit s.chip (meshEvent x f) = false → tapInReset s.chip tap = true → Advanced Reg.GW_DROP_RESET 1 s.chip c') ∧
          (lateFlit s.chip (meshEvent x f) = false → tapInReset s.chip tap = false →
            (tokens s.chip (e.val / 2) (xLane f) = 0 → Advanced Reg.GW_DROP_FULL 1 s.chip c') ∧
            (tokens s.chip (e.val / 2) (xLane f) ≠ 0 → inRoom s.chip (tapTile tap) 5 1 = true →
              wire c' (tapTile tap) 5 1 = wire s.chip (tapTile tap) 5 1 ++ [oneFlit 1 (meshEvent x f)] ∧
              tokens c' (e.val / 2) (xLane f) = tokens s.chip (e.val / 2) (xLane f) ∧ c'.gw.reasm = []))))) ∧
  (∀ (e : Fin 8) (v : Fin 10) (row : Fin 5) (s : State) (p h : DWord) (body : List DWord),
    let tap := gatewayIn s.chip ((engineTaps e).getD row 0)
    rxPacket (rxAt s.chip e v) = some (p :: h :: body) → 2 ≤ v.val → isMark p = false → fKind p ≠ 3 →
    xDest p = ownId s.chip → fFence p = false → ∃ c', Completes (.inboundPacket e v row) s c' ∧
      rxAt c' e v = (rxAt s.chip e v).drop (body.length + 2) ∧
      (tapInReset s.chip tap = false → c'.gw.asked = s.chip.gw.asked ++ (if fKind p = 4 then
          [{ src := pSrc p, tile := fSrc h, tag := fSub h % 8192 }] else []) ∧
        (wire c' (tapTile tap) 5 (vcOf (fKind h) false)).map (fun f => f.data) =
          (wire s.chip (tapTile tap) 5 (vcOf (fKind h) false)).map (fun f => f.data) ++ (h :: body).map meshFlit) ∧
      (tapInReset s.chip tap = true → Advanced Reg.GW_DROP_RESET 1 s.chip c' ∧ c'.wires = s.chip.wires))

/-- FENCE_MARK of a mark for this device with nothing in reassembly keeps the mark and frees its slot. END_MARK of a mark of a job that runs here advances the job's count of its phase and parity and frees the slot. GW_TABLE_COMMIT writes the entry at INDEX from DATA_LO and the written DATA_HI (the key table's marks go), leaves every other entry and steps INDEX modulo the table's range. GW_TABLE_READ of the low half returns it and latches the entry; of the high half it returns the latched one and steps INDEX. COLL_TIMEOUT raises the job's event 4 when a reduction has begun (contributions have come, or this device owes its own to a DRAIN or to the second REWIND round), and else does nothing. -/
def Obligations.MarksAndTables : Prop :=
  (∀ (e : Fin 8) (v : Fin 10) (now : Nat) (s : State) (f : DWord) rest, rxAt s.chip e v = f :: rest → isMark f = true →
    (kType f = 0 → mDest f = ownId s.chip → s.chip.gw.reasm = [] → ∃ c', Completes (.fenceMark e v) s c' ∧
      rxAt c' e v = rest ∧ c'.gw = { s.chip.gw with
        stamp := s.chip.gw.stamp + 1
        fmarks := s.chip.gw.fmarks ++ [{ dir := e / 2, lane := kPar f, no := s.chip.gw.stamp, mark := f }] }) ∧
    (kType f = 1 → jobInFabric s.chip (jobOfTb s.chip (kTb f)) = true → ∃ c', Completes (.endMark e v now) s c' ∧
      rxAt c' e v = rest ∧ numOf (fabJob c' (jobOfTb s.chip (kTb f))).marks (2 * kItem f + kDir f) =
        numOf (fabJob s.chip (jobOfTb s.chip (kTb f))).marks (2 * kItem f + kDir f) + 1)) ∧
  (∀ (v : Word) (s : State),
    (∃ c', Completes (.gwTableCommit false v) s c' ∧ entryAt c'.gw.keyTable (ktPos s.chip) = joinWords (reg s.chip Reg.GW_KT_DATA_LO) v ∧
      (∀ k, k ≠ ktPos s.chip → entryAt c'.gw.keyTable k = entryAt s.chip.gw.keyTable k) ∧
      numOf c'.gw.ktMark (ktPos s.chip) = 0 ∧ numOf c'.gw.ktMark (524288 + ktPos s.chip) = 0 ∧
      rfld c' Reg.GW_KT_ADDR 17 0 = (rfld s.chip Reg.GW_KT_ADDR 17 0 + 1) % 2 ^ 18 ∧
      Frame [Reg.GW_KT_DATA_HI, Reg.GW_KT_ADDR] [] s.chip { c' with gw := s.chip.gw }) ∧
    (∃ c', Completes (.gwTableCommit true v) s c' ∧
      entryAt c'.gw.outTable (outPos s.chip) = joinWords (reg s.chip Reg.GW_OUT_DATA_LO) v ∧
      (∀ k, k ≠ outPos s.chip → entryAt c'.gw.outTable k = entryAt s.chip.gw.outTable k) ∧
      rfld c' Reg.GW_OUT_ADDR 14 0 = (rfld s.chip Reg.GW_OUT_ADDR 14 0 + 1) % 2 ^ 15 ∧
      Frame [Reg.GW_OUT_DATA_HI, Reg.GW_OUT_ADDR] [] s.chip { c' with gw := s.chip.gw })) ∧
  (∀ (out : Bool) (s : State),
    let x := if out then entryAt s.chip.gw.outTable (outPos s.chip) else entryAt s.chip.gw.keyTable (ktPos s.chip)
    (∃ c', Completes (.gwTableRead out false) s c' ∧ c'.readOut.toNat = x.toNat % 2 ^ 32 ∧
      (if out then c'.gw.outLatch else c'.gw.ktLatch) = x ∧ Frame [] [] s.chip { c' with gw := s.chip.gw, readOut := s.chip.readOut }) ∧
    (∃ c', Completes (.gwTableRead out true) s c' ∧
      c'.readOut.toNat = (if out then s.chip.gw.outLatch else s.chip.gw.ktLatch).toNat / 2 ^ 32 ∧
      Frame [if out then Reg.GW_OUT_ADDR else Reg.GW_KT_ADDR] [] s.chip { c' with readOut := s.chip.readOut })) ∧
  (∀ (j : Fin 16) (s : State),
    let F := fabJob s.chip j
    let idle := F.coll = [] ∧ F.drainDue = false ∧ F.ackDue = none
    ∃ c', Completes (.collTimeout j) s c' ∧ (idle → c' = s.chip) ∧
    (¬ idle → rflag c' (Reg.GW_JOB_EVENT j) 4 = true ∧ rflag c' Reg.GW_FAULT (16 + j) = true ∧
      Frame [Reg.GW_JOB_EVENT j, Reg.GW_FAULT] [] s.chip c'))

/-- For a job in the fabric at a device without children, of a broadcast that has arrived (c1 is the chip once its flit is taken): BARRIER completes the running step's barrier; the last item of ALIGN_START for a disabled locked timebase sets the start tick and the edges to wait; an ALIGN_CHECK that names neither this step nor the one before counts and reports an alignment error; EPOCH_SWITCH sets the epoch of a disabled timebase; FABRIC_DRAIN shows the sum; FABRIC_CENSUS records balance or notes cause 2 with every report of the job; a REWIND of a checked job before the next update go makes its rewind due; the second REWIND round lets a replay send again. At the root GW_CMD_ALIGN_START and GW_CMD_EPOCH_SWITCH do the same to this device, GW_CMD_DRAIN begins a drain, and FABRIC_DRAIN, once the device's own drain strobe has returned zero, shows the flits it holds. -/
def Obligations.FabricCollectives : Prop :=
  ∀ (j : Fin 16) (s : State), jobInFabric s.chip j = true →
    let J := jobAt s.chip j
    (∀ d f c1, treeKids c1 j = [] → kDir f = 1 →
      (takeColl j 0 (fun _ => true) s.chip = some (d, f, c1) → kValue f = tickNow c1 J.tb % 2 ^ 31 →
        ∃ c', Completes (.barrier j) s c' ∧ (tbAt c' J.tb).barrier = true) ∧
      (takeColl j 1 (fun f => kDir f == 1) s.chip = some (d, f, c1) → kItem f = 2 → tbEnabled c1 J.tb = false →
        freeRun c1 J.tb = false → ∀ lo hi, itemOf c1 j 1 0 = some lo → itemOf c1 j 1 1 = some hi →
        ∃ c', Completes (.alignStart j) s c' ∧ (tbAt c' J.tb).alignEdges = some (max 1 (kValue f)) ∧
          reg2 c' (Reg.TICK_TB_START_LO J.tb) (Reg.TICK_TB_START_HI J.tb) = tickOf lo hi % 2 ^ 64) ∧
      (takeColl j 2 (fun f => kDir f == 1) s.chip = some (d, f, c1) → ((fabJob s.chip j).checkDue && isRoot s.chip j) = false →
        kItem f = 1 → ∀ lo, itemOf c1 j 2 0 = some lo →
        let n := tickOf lo (kValue f)
        ∃ c', Completes (.alignCheck j) s c' ∧
          (tickNow c1 J.tb ≠ n → tickNow c1 J.tb ≠ nextStep n → Advanced (Reg.TICK_TB_ALIGN_ERR_COUNT J.tb) 1 c1 c' ∧
            rflag c' (Reg.TICK_TB_EVENT J.tb) 4 = true ∧
            c'.reports = c1.reports ++ [{ job := j, step := tickNow c1 J.tb, cause := 9, tile := 0, checker := 0 }]) ∧
          ((tickNow c1 J.tb = n ∨ tickNow c1 J.tb = nextStep n) → (∀ a, reg c' a = reg c1 a) ∧ c'.reports = c1.reports)) ∧
      (takeColl j 4 (fun f => kDir f == 1) s.chip = some (d, f, c1) → tbEnabled c1 J.tb = false →
        compatTb c1 J.tb = false → ∃ c', Completes (.epochSwitch j) s c' ∧
        curEpoch c' J.tb = bits (kValue f) 16 16) ∧
      (takeColl j 7 (fun _ => true) s.chip = some (d, f, c1) → kItem f = 0 → ∃ c', Completes (.fabricDrain j) s c' ∧
        reg c' (Reg.GW_JOB_DRAIN j) = BitVec.ofNat 32 (2 ^ 31 + min (kValue f) (2 ^ 24 - 1)) ∧ rflag c' (Reg.GW_JOB_EVENT j) 1 = true) ∧
      (takeColl j 3 (fun _ => true) s.chip = some (d, f, c1) → ∃ c', Completes (.fabricCensus j) s c' ∧
        let t := censusStep c1 j (kPar f)
        c'.reports = c1.reports.filter (fun r => r.job != j.val) ∧
        (kValue f = 0 → (jobAt c' j).fabricOk = some t) ∧
        (kValue f ≠ 0 → rflag c' (Reg.GW_JOB_EVENT j) 3 = true ∧
          (stepMarked c1 j t 4 = false → bit (causesOf c' j t) 2 = true))) ∧
      (takeColl j 5 (fun f => kItem f == 0) s.chip = some (d, f, c1) → chkOn c1 j = true → J.restarting = false →
        kValue f < 65536 → goBegun c1 J.tb (nextStep (stepNotAbove (tickNow c1 J.tb) (kValue f))) = false →
        ∃ c', Completes (.rewindCollective j) s c' ∧
          (jobAt c' j).rewindDue = some (stepNotAbove (tickNow c1 J.tb) (kValue f)) ∧
          reg c' (Reg.GW_JOB_REWIND j) = BitVec.ofNat 32 (kOrigin f * 2 ^ 16 + kValue f)) ∧
      (takeColl j 5 (fun f => kItem f == 1) s.chip = some (d, f, c1) → J.replay.isSome = true → J.resendDue = true →
        ∃ c', Completes (.rewindAckRound j) s c' ∧ (jobAt c' j).resendDue = false ∧
          rfld c' (Reg.CHK_JOB_STATE j) 31 29 = 3)) ∧
    (∀ v : Word, flag v 31 = true → isRoot s.chip j = true → treeKids s.chip j = [] →
      (tbEnabled s.chip J.tb = false → freeRun s.chip J.tb = false → ∃ c', Completes (.gwCmdAlignStart j v) s c' ∧
        (tbAt c' J.tb).alignEdges = some (max 1 (fld v 23 16)) ∧
        reg2 c' (Reg.TICK_TB_START_LO J.tb) (Reg.TICK_TB_START_HI J.tb) =
          reg2 s.chip (Reg.TICK_TB_START_LO J.tb) (Reg.TICK_TB_START_HI J.tb) % 2 ^ 48) ∧
      (tbEnabled s.chip J.tb = false → compatTb s.chip J.tb = false →
        ∃ c', Completes (.gwCmdEpochSwitch j v) s c' ∧ curEpoch c' J.tb = fld v 24 24 ∧
          Frame [Reg.SEAM_EPOCH_STATUS] [] s.chip { c' with tbs := s.chip.tbs }) ∧
      (∃ c', Completes (.gwCmdDrain j v) s c' ∧ reg c' (Reg.GW_JOB_DRAIN j) = 0#32 ∧ (fabJob c' j).drainDue = true ∧
        itemOf c' j 7 1 = some (fld v 24 24))) ∧
    (isRoot s.chip j = true → treeKids s.chip j = [] → takeColl j 7 (fun _ => true) s.chip = none → ownDrained s.chip j = true →
      (fabJob s.chip j).coll = [] → ∃ c', Completes (.fabricDrain j) s c' ∧ (fabJob c' j).drainDue = false ∧
        reg c' (Reg.GW_JOB_DRAIN j) =
          BitVec.ofNat 32 (2 ^ 31 + min (fabricHeld s.chip ((itemOf s.chip j 7 1).getD 0)) (2 ^ 24 - 1)))


/-! ### The control cluster -/

/-- IRQ_LINE sets a level source pending while its line is asserted and it is not in service, an edge source when its line rises, and touches no other pending bit. IRQ_CLAIM returns the deliverable source with the highest PRIO, the lowest number among equals, clears its pending bit and takes it in service; with none deliverable it returns 0 and changes nothing else. IRQ_DONE ends the service of a source in service with the target; of any other it raises IRQ_FAULT bit 0 alone. IRQ_PEND_SET, IRQ_PEND_CLR and IRQ_MASK_CLR set and clear the written bits of their word alone. IRQ_SRC_WRITE writes the source's fields, but from anyone else than the power controller a source of target 4, or a write to target 4, only raises IRQ_FAULT bit 1. -/
def Obligations.Interrupts : Prop :=
  ∀ (s : State),
    let c := s.chip
    let quiet (c' : Chip) : Chip := { c' with host := c.host, asked5 := c.asked5 }
    (∀ n : Fin 512,
      let was := mapGet (fun _ => false) c.lineWas n
      let sets := if srcEdge c n then lineOf c n && !was else lineOf c n && !inService s.irq n
      ∃ c', Completes (.irqLine n) s c' ∧ isPending c' n = (isPending c n || sets) ∧
        mapGet (fun _ => false) c'.lineWas n = lineOf c n ∧ (∀ m, m < 512 → m ≠ n.val → isPending c' m = isPending c m) ∧
        Frame [Reg.IRQ_PEND (n / 32)] [] c { quiet c' with lineWas := c.lineWas }) ∧
    (∀ (k : Fin 6),
      (∀ n, candidate s.irq c k = some n → n < 512 ∧ deliverable s.irq c k n = true ∧
        (∀ m, m < 512 → deliverable s.irq c k m = true → srcPrio c m < srcPrio c n ∨ (srcPrio c m = srcPrio c n ∧ n ≤ m)) ∧
        ∃ t, CompletesAt (.irqClaim k) s t ∧ t.irq = { target := k.val, source := n, prio := srcPrio c n } :: s.irq ∧
          t.chip.readOut.toNat = claimWord c n ∧ isPending t.chip n = false ∧ t.sec = s.sec ∧
          (∀ m, m < 512 → m ≠ n → isPending t.chip m = isPending c m) ∧
          Frame [Reg.IRQ_PEND (n / 32)] [] c { t.chip with readOut := c.readOut, asked5 := c.asked5 }) ∧
      (candidate s.irq c k = none → (∀ m, m < 512 → deliverable s.irq c k m = false) ∧
        Completes (.irqClaim k) s { c with readOut := 0#64 })) ∧
    (∀ (k : Fin 6) (v : Word),
      (s.irq.any (fun x => x.target == k.val && x.source == fld v 8 0) = true → ∃ t, CompletesAt (.irqDone k v) s t ∧
        t.irq = s.irq.filter (fun x => !(x.target == k.val && x.source == fld v 8 0)) ∧ t.sec = s.sec ∧ Frame [] [] c (quiet t.chip)) ∧
      (s.irq.any (fun x => x.target == k.val && x.source == fld v 8 0) = false → ∃ c', Completes (.irqDone k v) s c' ∧
        rflag c' Reg.IRQ_FAULT 0 = true ∧ Frame [Reg.IRQ_FAULT] [] c c')) ∧
    (∀ (w : Fin 16) (v : Word),
      (∃ c', Completes (.irqPendSet w v) s c' ∧ reg c' (Reg.IRQ_PEND w) = reg c (Reg.IRQ_PEND w) ||| v ∧
        Frame [Reg.IRQ_PEND w] [] c (quiet c')) ∧
      (∃ c', Completes (.irqPendClr w v) s c' ∧ reg c' (Reg.IRQ_PEND w) = reg c (Reg.IRQ_PEND w) &&& ~~~v ∧
        Frame [Reg.IRQ_PEND w] [] c c') ∧
      (∃ c', Completes (.irqMaskClr w v) s c' ∧ reg c' (Reg.IRQ_MASK w) = reg c (Reg.IRQ_MASK w) &&& ~~~v ∧
        Frame [Reg.IRQ_MASK w] [] c (quiet c'))) ∧
    (∀ (who : Initiator) (n : Fin 512) (v : Word),
      (who ≠ .power → (srcTarget c n = 4 ∨ fld v 6 4 = 4) → ∃ c', Completes (.irqSrcWrite who n v) s c' ∧
        rflag c' Reg.IRQ_FAULT 1 = true ∧ Frame [Reg.IRQ_FAULT] [] c c') ∧
      ((who = .power ∨ (srcTarget c n ≠ 4 ∧ fld v 6 4 ≠ 4)) → ∃ c', Completes (.irqSrcWrite who n v) s c' ∧
        reg c' (Reg.IRQ_SRC n) = v &&& 0x003F017F#32 ∧ Frame [Reg.IRQ_SRC n] [] c (quiet c')))

/-- TIMER_COUNT of an enabled timer whose source delivers steps COUNT modulo 2^32, sets STATUS at an overflow and at the compare value, where RESET_SELF zeroes COUNT; of one whose source delivers nothing it changes nothing. TIMER_COUNT_READ returns COUNT and latches the chained timer's into the reader's TMR_SNAP. TIMER_ENABLE writes the fields and never clears EN. REC_NOTE, with the recorder and its type on, writes SEQ, the value and MARK into the next slot, steps REC_LAST and REC_WRITTEN and leaves every register outside the recorder. RECORDER_INTERVAL with the recorder on clears every field's statistics; with it off nothing changes. MIRROR shows the copy in progress; MIRROR_DONE ends it with the newest SEQ mirrored, or with the error flag. RUNTIME_WDOG_KICK restarts an armed watchdog's period. CLUSTER_MESSAGE counts a poisoned, unwanted or overflowing message, and commits one that fits. -/
def Obligations.TimersRecorderAndRings : Prop :=
  ∀ (s : State),
    let c := s.chip
    (∀ n : Fin 16,
      let cfg := reg c (Reg.TMR_CFG n)
      let next := ((reg c (Reg.TMR_COUNT n)).toNat + 1) % 2 ^ 32
      let hit := decide ((reg c (Reg.TMR_CMP n)).toNat ≤ next)
      (timerFed c n = false → Completes (.timerCount n) s c) ∧
      (timerFed c n = true → flag cfg 31 = true → ∃ c', Completes (.timerCount n) s c' ∧
        (reg c' (Reg.TMR_COUNT n)).toNat = (if hit && flag cfg 8 then 0 else next) ∧
        (hit = true → rflag c' (Reg.TMR_STATUS n) 0 = true) ∧ (next = 0 → rflag c' (Reg.TMR_STATUS n) 1 = true) ∧
        (hit = false → next ≠ 0 → Frame [Reg.TMR_COUNT n] [] c { c' with host := c.host, asked5 := c.asked5 })) ∧
      (∀ who, ∃ c', Completes (.timerCountRead who n) s c' ∧ c'.readOut.toNat = (reg c (Reg.TMR_COUNT n)).toNat ∧
        (n.val < 15 → rfld c (Reg.TMR_CFG (n + 1)) 29 28 = 2 →
          mapGet (fun _ => 0#32) c'.snaps (snapBank who) = reg c (Reg.TMR_COUNT (n + 1))) ∧
        (rfld c (Reg.TMR_CFG (n + 1)) 29 28 ≠ 2 → c'.snaps = c.snaps) ∧
        Frame [] [] c { c' with readOut := c.readOut, snaps := c.snaps }) ∧
      (∀ v, ∃ c', Completes (.timerEnable n v) s c' ∧ rflag c' (Reg.TMR_CFG n) 31 = (flag v 31 || flag cfg 31) ∧
        reg c' (Reg.TMR_CFG n) &&& 0x7FFFFFFF#32 = v &&& 0x3F00FF00#32 ∧ Frame [Reg.TMR_CFG n] [] c c')) ∧
    (∀ (who : Initiator) (v : Word), rflag c Reg.REC_CTRL 31 = true → rflag c Reg.REC_CTRL 8 = true →
      let seq := nextRecord c.recd.last
      let slot := 16 * ((seq - 1) % 4096)
      ∃ c', Completes (.recNote who v) s c' ∧ reg c' (Reg.REC_RING slot) = BitVec.ofNat 32 seq ∧
        reg c' (Reg.REC_RING (slot + 1)) = BitVec.ofNat 32 (8 + 4 * 256 + snapBank who * 65536) ∧
        reg c' (Reg.REC_RING (slot + 4)) = v ∧ reg c' (Reg.REC_RING (slot + 15)) = BitVec.ofNat 32 seq ∧
        reg c' Reg.REC_LAST = BitVec.ofNat 32 seq ∧ Advanced Reg.REC_WRITTEN 1 c c' ∧
        ∀ a, (a < Reg.REC_CTRL ∨ Reg.REC_RING 65536 ≤ a) → reg c' a = reg c a) ∧
    (rflag c Reg.REC_CTRL 31 = false → Completes .recorderInterval s c) ∧
    (rflag c Reg.REC_CTRL 31 = true → ∃ c', Completes .recorderInterval s c' ∧ c'.recd.util = [] ∧ c'.recd.temps = [] ∧
      ∀ f a, f < 64 → Reg.REC_FLD_HIST f 0 ≤ a → a < Reg.REC_FLD_STEPS f + 4 → reg c' a = regReset a) ∧
    (∃ c', Completes .mirror s c' ∧ rflag c' Reg.REC_STATUS 31 = true ∧ Frame [Reg.REC_STATUS] [] c c') ∧
    (rflag c Reg.REC_STATUS 31 = true →
      (∃ c', Completes (.mirrorDone true) s c' ∧ rflag c' Reg.REC_STATUS 31 = false ∧ c'.flash.mirrorSeq = c.recd.last ∧
        reg c' Reg.REC_MIRROR_SEQ = BitVec.ofNat 32 c.recd.last ∧ rflag c' Reg.REC_FAULT 0 = true) ∧
      (∃ c', Completes (.mirrorDone false) s c' ∧ rflag c' Reg.REC_STATUS 31 = false ∧ rflag c' Reg.REC_FAULT 1 = true ∧
        Frame [Reg.REC_STATUS, Reg.REC_FAULT] [] c c')) ∧
    (∃ c', Completes .runtimeWdogKick s c' ∧ Frame [Reg.TMR_WDOG_LEFT] [] c c' ∧
      (rflag c Reg.TMR_WDOG_CFG 31 = true → reg c' Reg.TMR_WDOG_LEFT = BitVec.ofNat 32 (wdogPeriod c)) ∧
      (rflag c Reg.TMR_WDOG_CFG 31 = false → c' = c)) ∧
    (∀ (k : Fin 8) (h : Flit) (body : List Flit) (c1 : Chip), tapTake (48 + k) 2 c = some (h, body, c1) → mResult h.data = false →
      let n := mChannel h.data
      let bad := anyPoison h body || !wellFormed h.data
      let fits := ringCommit (ccSize c n) (rfld c (Reg.CHN_CC_WPTR n) 14 0) (rfld c (Reg.CHN_CC_RPTR n) 14 0)
        (rfld c (Reg.CHN_CC_STAT n) 23 16) n (fSrc h.data) 0 (mPayload h.data (body.map (fun f => f.data)))
      (bad = true → ∃ c', Completes (.clusterMessage k) s c' ∧ Advanced Reg.CHN_CC_POISON 1 c c') ∧
      (bad = false → rflag c (Reg.CHN_CC_CFG n) 31 = false → ∃ c', Completes (.clusterMessage k) s c' ∧
        Advanced Reg.CHN_CC_DISCARD 1 c c') ∧
      (bad = false → rflag c (Reg.CHN_CC_CFG n) 31 = true → fits = none → ∃ c', Completes (.clusterMessage k) s c' ∧
        Advanced Reg.CHN_CC_OVERFLOW 1 c c') ∧
      (∀ ws w' seq, bad = false → rflag c (Reg.CHN_CC_CFG n) 31 = true → fits = some (ws, w', seq) →
        ∃ c', Completes (.clusterMessage k) s c' ∧ Advanced Reg.CHN_CC_COMMITTED 1 c c' ∧
          reg c' (Reg.CHN_CC_WPTR n) = BitVec.ofNat 32 w' ∧ rfld c' (Reg.CHN_CC_STAT n) 23 16 = seq % 256 ∧
          c'.shared = ws.foldl (fun m x => sharedPut (64 * rfld c (Reg.CHN_CC_CFG n) 15 0 + x.1) x.2 m) c.shared))

/-! ### Power -/

/-- DOMAIN_REQUEST for RET of a domain without RET raises PWR_FAULT bit 0; in a transition the request is held. In ON a request for RET or OFF begins the entry when no refuser of Table 15.3 stands, is refused with the refuser's id, counted and noted otherwise, and waits while a field's routers are not EMPTY. In RET or OFF a request for ON begins the wake or is refused; from OFF to RET and to the state the domain is in nothing moves. With the supplies stripped, or REQ 3, nothing happens. DOMAIN_ENTRY_DONE ends an entry in the state asked for, unless requests of a controller are unanswered (an engine's case is stated for an empty link). EMPTY_REPORT_TIMEOUT refuses a waiting request with id 1 when the field is still not EMPTY. DOMAIN_WAKE_DONE ends a wake from RET in ON, with latched pads held, and a field's wake from OFF in its reset (state 5). PAD_RELEASE releases exactly the held pads named whose domain is ON. In a device change (devWake) the end of a wake starts the next batch once every earlier one is ON. A domain that a device change retains (devEnter) and a held request are left out of the wake and entry clauses. -/
def Obligations.PowerDomains : Prop :=
  ∀ (s : State) (d : Fin 96),
    let c := s.chip
    let quiet (c' : Chip) : Chip := { c' with power := c.power }
    let st := domState c d
    let refused (i : Instr) (id : Nat) : Prop := ∃ c', Completes i s c' ∧ rfld c' (Reg.PWR_DOM d) 26 24 = id ∧
      domState c' d = st ∧ Advanced (Reg.PWR_REFUSE_COUNT d) 1 c c' ∧
      reg c' Reg.PWR_LAST_REFUSE = BitVec.ofNat 32 (id * 2 ^ 24 + d) ∧ numOf c'.power.waiting d = 0 ∧
      Frame [Reg.PWR_DOM d, Reg.PWR_REFUSE_COUNT d, Reg.PWR_LAST_REFUSE] [] c (quiet c')
    (∀ v : Word, (c.power.stripped = true ∨ fld v 1 0 = 3) → Completes (.domainRequest d v) s c) ∧
    (∀ v : Word, c.power.stripped = false → fld v 1 0 = 1 → hasRet d = false → ∃ c', Completes (.domainRequest d v) s c' ∧
      rflag c' Reg.PWR_FAULT 0 = true ∧ Frame [Reg.PWR_FAULT] [] c c') ∧
    (∀ v : Word, c.power.stripped = false → fld v 1 0 < 3 → (fld v 1 0 = 1 → hasRet d = true) →
      let req := fld v 1 0
      let i : Instr := .domainRequest d v
      (3 ≤ st → Completes i s { c with power := { c.power with held := setNum d (req + 1) c.power.held } }) ∧
      (st < 3 → st = req → ∃ c', Completes i s c' ∧ domState c' d = st ∧ rfld c' (Reg.PWR_DOM d) 1 0 = req ∧
        Frame [Reg.PWR_DOM d] [] c (quiet c')) ∧
      (st = 0 → req ≠ 0 → (64 ≤ d.val ∨ fieldEmpty c d = true ∨ needed c d = true) →
        (leaveRefuser c d req = 0 → ∃ c', Completes i s c' ∧ domState c' d = 3 ∧ rfld c' (Reg.PWR_DOM d) 1 0 = req ∧
          numOf c'.power.goal d = req ∧ Frame [Reg.PWR_DOM d] [] c (quiet c')) ∧
        (leaveRefuser c d req ≠ 0 → refused i (leaveRefuser c d req))) ∧
      (st = 0 → req ≠ 0 → d.val < 64 → fieldEmpty c d = false → needed c d = false → ∃ c', Completes i s c' ∧
        numOf c'.power.waiting d = req ∧ Frame [] [] c (quiet c')) ∧
      ((st = 1 ∨ st = 2) → req = 0 →
        (wakeRefuser c d = 0 → ∃ c', Completes i s c' ∧ domState c' d = 4 ∧ rfld c' (Reg.PWR_DOM d) 1 0 = 0 ∧
          numOf c'.power.goal d = st ∧ Frame [Reg.PWR_DOM d] [] c (quiet c')) ∧
        (wakeRefuser c d ≠ 0 → refused i (wakeRefuser c d))) ∧
      (st = 2 → req = 1 → ∃ c', Completes i s c' ∧ Frame [] [] c (quiet c'))) ∧
    (st = 3 → entryFree c d = false → Completes (.domainEntryDone d) s c) ∧
    (∀ g, st = 3 → entryFree c d = true → numOf c.power.goal d = g → (g = 1 ∨ g = 2) → numOf c.power.held d = 0 →
      (84 ≤ d.val → d.val < 92 → (linkAt c (d - 84)).retry = [] ∧ (linkAt c (d - 84)).queue = []) →
      ∃ c', Completes (.domainEntryDone d) s c' ∧ domState c' d = g ∧ numOf c'.power.goal d = 0 ∧
        (g = 1 → (d.val < 80 ∨ 84 ≤ d.val) → Frame [Reg.PWR_DOM d] [] c (quiet c'))) ∧
    (numOf c.power.waiting d = 0 → Completes (.emptyReportTimeout d) s c) ∧
    (numOf c.power.waiting d ≠ 0 → fieldEmpty c d = false → refused (.emptyReportTimeout d) 1) ∧
    (st = 4 → c.power.devWake.contains d.val = false → numOf c.power.held d = 0 → numOf c.power.goal d = 1 →
      ∃ c', Completes (.domainWakeDone d) s c' ∧ domState c' d = 0 ∧ (hasPads d = true → padHeld c' (d - 64) = true) ∧
        (hasPads d = false → Frame [Reg.PWR_DOM d] [] c (quiet c'))) ∧
    (st = 4 → c.power.devWake.contains d.val = true → (∀ x, x ∈ c.power.devWake → x < 96) → numOf c.power.held d = 0 →
      numOf c.power.goal d = 1 →
      ∃ c', Completes (.domainWakeDone d) s c' ∧ domState c' d = 0 ∧ ∀ e, e < 96 → e ∈ c.power.devWake → domState c e = 1 →
        domState c' e = if (batchBefore c.power.devWake e).all (fun x => x == d.val || domOn c x) then 4 else 1) ∧
    (st = 4 → c.power.devWake.contains d.val = false → numOf c.power.goal d = 2 → d.val < 64 →
      ∃ c', Completes (.domainWakeDone d) s c' ∧ domState c' d = 5 ∧
        ∀ t, fieldOf t = d.val → tile c' t = {} ∧ router c' t = {}) ∧
    (∀ v : Word, ∃ c', Completes (.padRelease v) s c' ∧
      (∀ i, i < 20 → padHeld c' i = (padHeld c i && !(flag v i && domOn c (64 + i)))) ∧
      ∀ a, a ≠ Reg.PWR_PAD_HELD → (∀ m, m < 4 → a ≠ Reg.MEM_M_STATUS m) → reg c' a = reg c a)

/-- DEV_HOLD and DEV_DEEP begin the change to their state with the domains to retain fixed, are refused with an id of Table 15.3 counted and noted, and do nothing during a change or in the state they ask for; DEV_RUN begins the wake of the first batch of the retained domains. DEV_STATE_DONE enters the state once every timebase is stopped and every domain has moved. POINT_REQUEST without supplies does nothing; it is refused with id 3 for a higher point of a hot half and id 7 below the floor; otherwise the half aims at the point and its CHANGING bit is set unless the other half changes. POINT_STEP_DONE moves a changing half one code toward its goal. FLOOR_WRITE stores both floors and moves a cool half that is below its floor. THERMAL_SAMPLE below 110 °C shows the readings and each threshold with its 5 °C release; at 110 °C in READY (engines with empty links) it removes every switched supply. THERMAL_STEP lowers a half in EMERGENCY by one code. THERMAL_DIE_RESET with a half at its lowest point at 104 °C or more resets every tile and raises PWR_FAULT bit 4; else nothing happens. -/
def Obligations.DeviceStatesPointsThermal : Prop :=
  ∀ (s : State),
    let c := s.chip
    let quiet (c' : Chip) : Chip := { c' with power := c.power }
    let enters (i : Instr) (g : Nat) (v : Word) : Prop :=
      ((devBusy c = true ∨ devState c = g) → Completes i s c) ∧
      (devBusy c = false → devState c ≠ g → deviceRefuser c (flag v 28) (fld v 15 0) ≠ 0 → ∃ c', Completes i s c' ∧
        rfld c' Reg.PWR_DEV_STATUS 26 24 = deviceRefuser c (flag v 28) (fld v 15 0) ∧ Advanced Reg.PWR_DEV_REFUSE 1 c c' ∧
        devState c' = devState c ∧ devBusy c' = false ∧ Frame [Reg.PWR_DEV_REFUSE, Reg.PWR_DEV_STATUS, Reg.PWR_LAST_REFUSE] [] c c') ∧
      (devBusy c = false → devState c ≠ g → deviceRefuser c (flag v 28) (fld v 15 0) = 0 → ∃ c', Completes i s c' ∧
        devBusy c' = true ∧ devState c' = devState c ∧ c'.power.devGoal = some g ∧
        c'.power.devEnter = ((stateDomains g).filter (domOn c)).reverse)
    (∀ v : Word, enters (.devHold v) 1 v ∧ enters (.devDeep v) 2 v) ∧
    ((devBusy c = true ∨ devState c = 0) → Completes .devRun s c) ∧
    (devBusy c = false → devState c ≠ 0 → ∃ c', Completes .devRun s c' ∧ devBusy c' = true ∧ c'.power.devGoal = some 0 ∧
      c'.power.devWake = (stateDomains 2).filter (fun d => c.power.devRet.contains d && domState c d == 1) ∧
      (∀ d, d ∈ c'.power.devWake →
        if (batchBefore c'.power.devWake d).all (domOn c) then domState c' d = 4 ∧ numOf c'.power.goal d = 1 else domState c' d = 1)) ∧
    (c.power.devGoal = none → Completes .devStateDone s c) ∧
    (∀ g, c.power.devGoal = some g → g < 3 →
      let ready := (g == 0 || allHeld c) && c.power.devEnter.all (fun d => domState c d == 1) && c.power.devWake.all (domOn c)
      (ready = false → Completes .devStateDone s c) ∧
      (ready = true → ∃ c', Completes .devStateDone s c' ∧ devState c' = g ∧ devBusy c' = false ∧
        rflag c' Reg.PWR_FAULT 1 = true ∧ c'.power.devGoal = none ∧
        Frame [Reg.PWR_DEV_STATUS, Reg.PWR_FAULT] [] c { quiet c' with tbs := c.tbs })) ∧
    (∀ (east : Bool),
      let p := halfPoint c east
      let R := halfReg east
      let hot (v : Word) : Bool := decide (fld v 1 0 < p) && halfHot c east
      (∀ v : Word,
        let g := fld v 1 0
        let i : Instr := .pointRequest east v
        let refused (id : Nat) : Prop := ∃ c', Completes i s c' ∧ rfld c' R 26 24 = id ∧ halfPoint c' east = p ∧
          rfld c' R 15 4 = min 4095 (rfld c R 15 4 + 1) ∧ Frame [R, Reg.PWR_LAST_REFUSE] [] c c'
        let powered := c.power.stripped = false
        (c.power.stripped = true → Completes i s c) ∧
        (powered → hot v = true → refused 3) ∧ (powered → hot v = false → halfFloor c east < g → refused 7) ∧
        (powered → hot v = false → g ≤ halfFloor c east → ∃ c', Completes i s c' ∧ rfld c' R 1 0 = g ∧ halfPoint c' east = p ∧
          (halfOf c' east).goal = (if p = g then none else some g) ∧
          (p = g → rflag c' R 31 = false) ∧ (p ≠ g → rflag c (halfReg (!east)) 31 = false → rflag c' R 31 = true) ∧
          Frame [R] [] c (quiet c'))) ∧
      ((halfOf c east).goal = none ∨ rflag c R 31 = false → Completes (.pointStepDone east) s c) ∧
      (∀ g, (halfOf c east).goal = some g → g < 4 → rflag c R 31 = true → ∃ c', Completes (.pointStepDone east) s c' ∧
        halfPoint c' east = (if g < p then p - 1 else if p < g then p + 1 else p) ∧
        (halfPoint c' east = g → (halfOf c' east).goal = none ∧ rflag c' R 31 = false) ∧
        (halfPoint c' east ≠ g → (halfOf c' east).goal = some g ∧ rflag c' R 31 = true) ∧
        Frame [R, halfReg (!east)] [] c (quiet c')) ∧
      (∀ v : Word, ∃ c', Completes (.floorWrite v) s c' ∧ reg c' Reg.PWR_FLOOR = v &&& 0x303#32 ∧
        (p ≤ halfFloor c' east → reg c' R = reg c R) ∧
        (halfFloor c' east < p → halfHot c east = false → rfld c' R 1 0 = halfFloor c' east ∧
          (halfOf c' east).goal = some (halfFloor c' east)) ∧
        (halfFloor c' east < p → halfHot c east = true → rfld c' R 26 24 = 3) ∧
        Frame [Reg.PWR_FLOOR, Reg.PWR_HALF_W, Reg.PWR_HALF_E, Reg.PWR_LAST_REFUSE] [] c (quiet c')) ∧
      (p < 3 → (halfOf c east).emergency = true → ∃ c', Completes (.thermalStep east) s c' ∧ halfPoint c' east = p + 1) ∧
      ((3 ≤ p ∨ ((halfOf c east).emergency = false ∧ (halfOf c east).throttled = false)) → Completes (.thermalStep east) s c)) ∧
    (∀ w e io : Int, c.power.tripped = false →
      (w < 110 → e < 110 → io < 110 → ∃ c', Completes (.thermalSample w e io) s c' ∧
        rfld c' Reg.PWR_THERM_STATUS 31 24 = unsign 8 w ∧ rfld c' Reg.PWR_THERM_STATUS 23 16 = unsign 8 e ∧
        rfld c' Reg.PWR_THERM_STATUS 15 8 = unsign 8 io ∧ rflag c' Reg.PWR_THERM_STATUS 2 = false ∧
        c'.power.west.throttled = holdsAt (throttleAt c) w c.power.west.throttled ∧
        c'.power.west.emergency = holdsAt (emergencyAt c) w c.power.west.emergency ∧
        c'.power.east.throttled = holdsAt (throttleAt c) e c.power.east.throttled ∧
        c'.power.east.emergency = holdsAt (emergencyAt c) e c.power.east.emergency) ∧
      ((110 ≤ w ∨ 110 ≤ e ∨ 110 ≤ io) → 10 ≤ bootState c → (∀ k, k < 8 → (linkAt c k).retry = [] ∧ (linkAt c k).queue = []) →
        ∃ c', Completes (.thermalSample w e io) s c' ∧ c'.power.tripped = true ∧ c'.power.stripped = true ∧
          ∀ d, d < 96 → domState c' d = 2)) ∧
    (let holds (h : Half) (east : Bool) : Prop := 104 ≤ h.hot ∧ halfPoint c east = 3;
      ((holds c.power.west false ∨ holds c.power.east true) → ∃ c', Completes .thermalDieReset s c' ∧
        rflag c' Reg.PWR_FAULT 4 = true ∧ ∀ t, t < 8192 → tile c' t = {}) ∧
      (¬ holds c.power.west false → ¬ holds c.power.east true → Completes .thermalDieReset s c))

/-! ### Security -/

/-- SEC_GO queues a mailbox's command, or is counted while one of it waits or runs. A service does nothing unless the front command of the queue is its own; in the error state every service but STATUS ends with CODE 5. Otherwise it takes the command off the queue and ends it. STATUS returns SEC_INFO. SELFTEST with no failed test ends well; with one the core enters its error state and key slots and DRBG are cleared. ATTEST fails with 7 when seed, keys, DRBG or room are missing, else writes the quote with its nonce. KEY_LOAD, REVOKE, DEBUG_UNLOCK and ZEROIZE with FINAL end with the signed object's code and change nothing when it is not 0. With it 0: KEY_LOAD stores the opened key in its slot or ends with 7, 8, 4 or 2; REVOKE revokes its slot but the last one; DEBUG_UNLOCK opens the token's scope to the JTAG port; ZEROIZE clears keys and, with FINAL, kills the seed. KEY_CLEAR clears one slot or all. CORE_START starts core 1 to 3 of an ON domain at the address. RANDOM returns eight free words or 7 without a DRBG. An unknown OP ends with CODE 1. -/
def Obligations.SecurityServices : Prop :=
  ∀ (s : State),
    let c := s.chip
    let x := s.sec
    (∀ (m : Fin 2) (v : Word),
      let st := rfld c (Reg.SEC_STATUS m) 31 29
      (flag v 31 = false → Completes (.secGo m v) s c) ∧
      (flag v 31 = true → (st = 1 ∨ st = 2) → ∃ c', Completes (.secGo m v) s c' ∧ Advanced Reg.SEC_REFUSED 1 c c' ∧
        Frame [Reg.SEC_REFUSED] [] c c') ∧
      (flag v 31 = true → st ≠ 1 → st ≠ 2 → ∃ c', Completes (.secGo m v) s c' ∧ rfld c' (Reg.SEC_STATUS m) 31 29 = 1 ∧
        c'.secQ = c.secQ ++ [{ src := m.val, op := fld v 7 0, seq := fld v 23 16 }] ∧
        Frame [Reg.SEC_STATUS m] [] c { c' with secQ := c.secQ })) ∧
    (∀ i op, serviceOp i = some op → (c.secQ.head?.all (fun j => decide (2 ≤ j.src) || j.op != op)) = true → Completes i s c) ∧
    (∀ j rest, c.secQ = j :: rest → j.src < 2 →
      let len := bufLen c j.src
      let o := bufBytes c j.src
      let name := nAt o 0x1C 4
      (secState c = 2 → ∀ i op, serviceOp i = some op → j.op = op → op ≠ 1 → (op = 10 → j.src = 0) → ServiceRefused i s j rest 5) ∧
      (j.op = 1 → ∃ t, ServiceEnds .secStatus s j rest 0 t ∧ reg t.chip (Reg.SEC_RES j.src 0) = reg c Reg.SEC_INFO ∧ t.sec = x) ∧
      (secState c ≠ 2 →
        (j.op = 2 → ∀ failed : Word, ∃ t, ServiceEnds (.secSelftest failed) s j rest (if failed = 0#32 then 0 else 5) t ∧
          reg t.chip Reg.SEC_SELFTEST = failed ∧ (failed = 0#32 → t.sec = x) ∧
          (failed ≠ 0#32 → secState t.chip = 2 ∧ t.sec = { x with keys := [], drbg := false })) ∧
        (j.op = 3 → (x.seedKill || !x.derived || !x.drbg || decide (len < 33712)) = true → ServiceRefused .secAttest s j rest 7) ∧
        (j.op = 3 → (x.seedKill || !x.derived || !x.drbg || decide (len < 33712)) = false → ∃ t,
          ServiceEnds .secAttest s j rest 0 t ∧ t.sec = x ∧ reg t.chip (Reg.SEC_RES j.src 0) = 33712#32 ∧
          bytesAt t.chip (bufAddr c j.src) 4 = [0x59#8, 0x41#8, 0x54#8, 0x51#8] ∧
          bytesAt t.chip (bufAddr c j.src + 16) 32 = (List.range 8).flatMap (fun i => toBytes 4 (argOf c j i))) ∧
        (j.op = 5 →
          let code := objectCode x c (· == 0x11) o len
          let opened := Config.gcmOpen (wrapKey x) (cut o 64 12) (o.take 64) (cut o 80 48)
          let all := if code ≠ 0 then code else if x.seedKill || !x.derived then 7 else if name < 1 ∨ 15 < name then 8
            else if nAt o 0x18 4 ≠ 64 then 4 else if opened.isNone then 2 else 0
          (all ≠ 0 → ServiceRefused .secKeyLoad s j rest all) ∧
          (all = 0 → ∃ t k, opened = some k ∧ ServiceEnds .secKeyLoad s j rest 0 t ∧
            t.sec = { x with keys := setList name (fitTo 32 k) x.keys })) ∧
        (j.op = 6 → ∃ t, ServiceEnds .secKeyClear s j rest (if 15 < argOf c j 0 then 8 else 0) t ∧
          (∀ k, listOf t.sec.keys k = if argOf c j 0 ≤ 15 ∧ (argOf c j 0 = 0 ∨ k = argOf c j 0) then [] else listOf x.keys k) ∧
          { t.sec with keys := x.keys } = x) ∧
        (j.op = 7 →
          let code := objectCode x c (· == 0x12) o len
          let last := (List.range 4).all (fun i => i == name || slotRevoked x i)
          let all := if code ≠ 0 then code else if 3 < name then 4 else if last then 7 else 0
          (all ≠ 0 → ServiceRefused .secRevoke s j rest all) ∧
          (all = 0 → ∃ t, ServiceEnds .secRevoke s j rest 0 t ∧ { t.sec with revoked := x.revoked } = x ∧
            ∀ k, slotRevoked t.sec k = (slotRevoked x k || k == name))) ∧
        (j.op = 8 →
          let code := objectCode x c (· == 0x13) o len
          (code ≠ 0 → ServiceRefused .secDebugUnlock s j rest code) ∧
          (code = 0 → ∃ t, ServiceEnds .secDebugUnlock s j rest 0 t ∧ t.sec = { x with scope := x.scope.lor (name % 4) } ∧
            (∀ k, debugAccess t.sec (.bracken k) = (debugAccess x (.bracken k) || bit name 0)) ∧
            debugAccess t.sec .power = (debugAccess x .power || bit name 1) ∧ debugAccess t.sec .thistle = debugAccess x .thistle)) ∧
        (j.op = 9 →
          let final := bit (argOf c j 0) 0
          let code := if final then objectCode x c (fun t => t == 0x12 || t == 0x13) o len else 0
          (code ≠ 0 → ServiceRefused .secZeroize s j rest code) ∧
          (code = 0 → ∃ t, ServiceEnds .secZeroize s j rest 0 t ∧
            t.sec = { x with keys := [], derived := false, drbg := true, seedKill := x.seedKill || final })) ∧
        (j.op = 10 → j.src = 0 →
          let k := argOf c j 0
          ((k < 1 ∨ 3 < k) → ServiceRefused .secCoreStart s j rest 4) ∧
          (1 ≤ k → k ≤ 3 → domOn c (93 + k / 2) = false → ServiceRefused .secCoreStart s j rest 7) ∧
          (1 ≤ k → k ≤ 3 → domOn c (93 + k / 2) = true → ∃ t, ServiceEnds .secCoreStart s j rest 0 t ∧ t.sec = x ∧
            numOf t.chip.cores k = 2 + (argOf c j 2 * 2 ^ 32 + argOf c j 1) ∧
            Frame [Reg.SEC_STATUS j.src] [] c { t.chip with secQ := c.secQ, cores := c.cores })) ∧
        (j.op = 11 → x.drbg = false → ServiceRefused .secRandom s j rest 7) ∧
        (j.op = 11 → x.drbg = true → ∃ t, ServiceEnds .secRandom s j rest 0 t ∧ t.sec = x ∧ t.chip.free = c.free + 8 ∧
          ∀ i, i < 8 → reg t.chip (Reg.SEC_RES j.src i) = Config.freeWord (c.free + i)) ∧
        (unknownOp j = true → ServiceRefused .secUnknownOp s j rest 1)))

/-- FW_UPDATE with a package ends with the signed object's code, which takes the core into its error state when it is not 0; an accepted package lies in the inactive slot of its TYPE, marked to take effect later, its TYPE and slot are returned, and otherwise nothing of the core's own state changes; in fallow mode a start image that verifies is stored and clears the failure count. VERIFY locks and queues the staged image, to be judged by the licences in force now, or sets REFUSED in state 1 or 2. VERIFY_DONE ends the verification at the front of the queue: IMG_STATUS takes state 3 with code and section, or state 2 with the image's id and its hash kept; in the error state the code is 0x20. Either way SEC_EVENT bit 0 is raised. RELEASE and ABORT release a verified image; ABORT of one in verification ends it with code 0x21 and takes it off the queue. LIC_GO queues the record unless one is being verified. LIC_DONE ends with the reason of rejection, or merges the record's grants and shows them. Neither done row acts when the front of the queue is not its own. -/
def Obligations.FirmwareImagesLicences : Prop :=
  ∀ (s : State),
    let c := s.chip
    let x := s.sec
    (∀ j rest, c.secQ = j :: rest → j.src < 2 → j.op = 4 → secState c ≠ 2 →
      let o := bufBytes c j.src
      let len := bufLen c j.src
      let code := objectCode x c (fun t => decide (1 ≤ t) && decide (t ≤ 4)) o len
      let typ := nAt o 4 1
      let slot := 1 - numOf x.active typ
      (inFallow c = false → ∃ t, ServiceEnds .secFwUpdate s j rest code t ∧
        (code ≠ 0 → t.sec = { x with keys := [], drbg := false } ∧ secState t.chip = 2) ∧
        (code = 0 → reg t.chip (Reg.SEC_RES j.src 0) = BitVec.ofNat 32 typ ∧ reg t.chip (Reg.SEC_RES j.src 1) = BitVec.ofNat 32 slot ∧
          t.sec = { x with fw := setList (2 * typ + slot) o x.fw, fresh := mapPut (fun _ => false) x.fresh typ true })) ∧
      (inFallow c = true → nAt o 0 4 = 0x474D4959 →
        let bad := (verifyCode x c (latchGrants c) o len).1 ≠ 0
        ∃ t, ServiceEnds .secFwUpdate s j rest (if bad then 2 else 0) t ∧ (bad → t.sec = x) ∧
          (¬ bad → t.sec = { x with startImage := o } ∧ t.chip.flash.failCount = 0 ∧ reg t.chip Reg.BOOT_FAIL_COUNT = 0#32))) ∧
    ((imgState c = 1 ∨ imgState c = 2) → ∃ c', Completes .verify s c' ∧ rflag c' Reg.IMG_STATUS 28 = true ∧
      imgState c' = imgState c ∧ Frame [Reg.IMG_STATUS] [] c c') ∧
    (imgState c ≠ 1 → imgState c ≠ 2 → ∃ c', Completes .verify s c' ∧ imgState c' = 1 ∧
      c'.secQ = c.secQ ++ [{ src := 2, op := 0, seq := 0 }] ∧ c'.askedGrants = latchGrants c ∧
      Frame [Reg.IMG_STATUS] [] c { c' with secQ := c.secQ, askedGrants := c.askedGrants }) ∧
    ((c.secQ.head?.all (fun j => j.src != 2)) = true → Completes .verifyDone s c) ∧
    (∀ j rest, c.secQ = j :: rest → j.src = 2 →
      let r := if secState c = 2 then (0x20, 0, 0) else verifyCode x c c.askedGrants (staged c) (imgLen c)
      ∃ t, CompletesAt .verifyDone s t ∧ t.chip.secQ = rest ∧ rflag t.chip Reg.SEC_EVENT 0 = true ∧ t.irq = s.irq ∧
        (r.1 ≠ 0 → t.sec = x ∧ reg t.chip Reg.IMG_STATUS = BitVec.ofNat 32 (3 * 2 ^ 29 + r.2.1 % 4096 * 65536 + r.1) ∧
          Advanced Reg.IMG_REJECTED 1 c t.chip) ∧
        (r.1 = 0 → imgState t.chip = 2 ∧ Advanced Reg.IMG_VERIFIED 1 c t.chip ∧
          reg t.chip Reg.IMG_ID = BitVec.ofNat 32 (nAt (staged c) 0x1C 4) ∧
          t.sec = { x with imageHash := Config.sha256 ((staged c).take (imgSigned (staged c))) })) ∧
    (imgState c ≠ 2 → Completes .release s c) ∧
    (imgState c = 2 → ∃ c', Completes .release s c' ∧ imgState c' = 0 ∧ Frame [Reg.IMG_STATUS] [] c c') ∧
    (imgState c ≠ 1 → imgState c ≠ 2 → Completes .abort s c) ∧
    (imgState c = 2 → ∃ c', Completes .abort s c' ∧ imgState c' = 0 ∧ Frame [Reg.IMG_STATUS] [] c c') ∧
    (imgState c = 1 → ∃ c', Completes .abort s c' ∧ reg c' Reg.IMG_STATUS = 0x60000021#32 ∧ c'.secQ = c.secQ.filter (fun j => j.src != 2) ∧
      Advanced Reg.IMG_REJECTED 1 c c' ∧ rflag c' Reg.SEC_EVENT 0 = true ∧
      Frame [Reg.IMG_STATUS, Reg.IMG_REJECTED, Reg.SEC_EVENT] [] c { c' with secQ := c.secQ }) ∧
    (licState c = 1 → Completes .licGo s c) ∧
    (licState c ≠ 1 → ∃ c', Completes .licGo s c' ∧ licState c' = 1 ∧ c'.secQ = c.secQ ++ [{ src := 3, op := 0, seq := 0 }] ∧
      Frame [Reg.LIC_STATUS] [] c { c' with secQ := c.secQ }) ∧
    ((c.secQ.head?.all (fun j => j.src != 3)) = true → Completes .licDone s c) ∧
    (∀ j rest, c.secQ = j :: rest → j.src = 3 →
      let o := licRecord c
      let r := if secState c = 2 then 5 else licenceReason x c o (rfld c Reg.LIC_LEN 15 0)
      ∃ t, CompletesAt .licDone s t ∧ t.chip.secQ = rest ∧ rflag t.chip Reg.SEC_EVENT 1 = true ∧
        (r ≠ 0 → t.sec = x ∧ reg t.chip Reg.LIC_STATUS = BitVec.ofNat 32 (3 * 2 ^ 29 + r) ∧ Advanced Reg.LIC_REJECTED 1 c t.chip) ∧
        (r = 0 → licState t.chip = 2 ∧ t.sec = { x with grants := mergeGrants (licenceEntries o) x.grants } ∧
          ∀ n, 1 ≤ n → n ≤ 5 → numOf t.sec.grants n ≠ 0 → reg t.chip (Reg.LIC_GRANT n) =
            BitVec.ofNat 32 (2 ^ 31 + (if n = 3 ∧ variantOf c = 2 then 1 else numOf t.sec.grants n))))

/-! ### Starts and resets -/

/-- A failed start counts, shifts its cause into the history and holds; the third enters fallow mode with every domain but 92 and 93 OFF. START_FAIL (causes 1 to 11), START_TIME_LIMIT and BOOT_WDOG_EXPIRE with the watchdog running fail a running start. START_STAGE_DONE fails it with a cause of its stage, whose time is recorded, ignores any other, and else records the stage's time and goes on to the next, of which stage 8 starts with its broadcast and cannot end before it; stages 5 and 6 fail when no controller is left; stage 9 stays without a start image and fails with 0x0A when the image does not verify (what loading an accepted one does is left out). BOOT_READY in stage 9 ends the start; BOOT_WDOG_KICK restarts the period. POWER_ON begins a cold start, with the strap fallow mode. START_HOLD_EXPIRE, BOOT_WARM, RESET_N_LOW, BOOT_COLD and SYS_CLK_RESTORED begin their starts with tiles, routers, timebases and services cleared; a warm one keeps LPDDR5X. PWR_GOOD_FALL holds the device in reset. SYS_CLK_LOSS in READY (engines with empty links) takes every domain's supply. -/
def Obligations.StartsAndDeviceResets : Prop :=
  ∀ (s : State),
    let c := s.chip
    let n := bootState c
    let warm := isWarm c
    let inStart := decide (n < 10) && !c.boot.inReset
    let failed (i : Instr) (cause : Nat) : Prop := ∃ t, CompletesAt i s t ∧
      let k := min 3 (rfld c Reg.BOOT_FAIL_COUNT 1 0 + 1)
      t.chip.flash.failCount = k ∧ t.chip.flash.hist = BitVec.ofNat 32 ((reg c Reg.BOOT_FAIL_HIST).toNat * 256 + cause) ∧
      (k < 3 → bootState t.chip = 12 ∧ t.chip.boot.wdogPeriod = 0 ∧ t.sec = s.sec) ∧
      (k = 3 → bootState t.chip = 11 ∧ t.chip.flash.fallowCause = cause ∧ ∀ d, d < 96 → d ≠ 92 → d ≠ 93 → domState t.chip d = 2)
    let begins (i : Instr) (w r : Bool) (more : State → Prop) : Prop := ∃ t, CompletesAt i s t ∧ bootState t.chip = 0 ∧
      rflag t.chip Reg.BOOT_STATUS 27 = w ∧ rflag t.chip Reg.BOOT_STATUS 25 = r ∧ t.chip.tiles = [] ∧ t.chip.routers = [] ∧
      t.chip.tbs = [] ∧ t.irq = [] ∧ t.sec.keys = [] ∧ more t
    let keepsMem (t : State) : Prop := ∀ a, a < 2 ^ 37 → byteAt t.chip a = byteAt c a
    let next (i : Instr) (m : Nat) (ms : Nat) : Prop := ∃ t, CompletesAt i s t ∧ bootState t.chip = m ∧
      reg t.chip (Reg.BOOT_STAGE_TIME n) = BitVec.ofNat 32 ms
    (∀ cause, 1 ≤ cause → cause ≤ 11 → inStart = true → failed (.startFail cause) cause) ∧
    (∀ cause, (cause = 0 ∨ 11 < cause ∨ inStart = false) → Completes (.startFail cause) s c) ∧
    (inStart = true → failed .startTimeLimit 7) ∧ (inStart = false → Completes .startTimeLimit s c) ∧
    (inStart = true → wdogRuns c = true → failed .bootWdogExpire 7) ∧ (wdogRuns c = false → Completes .bootWdogExpire s c) ∧
    (∀ (ms cause : Nat) (ds : List Word),
      let i : Instr := .startStageDone ms cause ds
      let allBad := (List.range 4).all (fun m => listed (badEntries (addTests (ds.filter (fun e => deType e == 9)) c)) 9 m)
      let plan := planBody c.fuses.variant (badEntries (mergeTests (addTests ds c)))
      let noneGood := (List.range 4).all (fun m => !bit (nAt plan 2 1) m)
      ((starting c = false ∨ (n = 9 ∧ c.boot.loaded = true)) → Completes i s c) ∧
      (starting c = true → ¬ (n = 9 ∧ c.boot.loaded = true) →
        (cause ≠ 0 → (stageCauses n).contains cause = false → Completes i s c) ∧
        (cause ≠ 0 → (stageCauses n).contains cause = true → failed i cause ∧ ∃ t, CompletesAt i s t ∧
          reg t.chip (Reg.BOOT_STAGE_TIME n) = BitVec.ofNat 32 ms) ∧
        (cause = 0 → c.boot.load.isSome = true → Completes i s c) ∧
        (cause = 0 → c.boot.load = none → n = 7 → ∃ t, CompletesAt i s t ∧ bootState t.chip = stageAfter warm 7 ∧
          reg t.chip (Reg.BOOT_STAGE_TIME 7) = BitVec.ofNat 32 ms ∧ ∃ ld, t.chip.boot.load = some ld ∧ ld.round = 0) ∧
        (cause = 0 → c.boot.load = none → n ∈ [0, 1, 2, 3, 4, 8] → (∀ x, x ∈ c.flash.mirror → inRing x.1 = true) → next i (stageAfter warm n) ms) ∧
        (cause = 0 → c.boot.load = none → n = 5 → allBad = false → next i (stageAfter warm 5) ms) ∧
        (cause = 0 → c.boot.load = none → n = 5 → allBad = true → failed i 5) ∧
        (cause = 0 → c.boot.load = none → n = 6 → noneGood = false → next i (stageAfter warm 6) ms) ∧
        (cause = 0 → c.boot.load = none → n = 6 → noneGood = true → failed i 5) ∧
        (cause = 0 → c.boot.load = none → n = 9 → autostarts s = false → ∃ t, CompletesAt i s t ∧ bootState t.chip = 9 ∧ t.chip.boot.loaded = true) ∧
        (cause = 0 → c.boot.load = none → n = 9 → autostarts s = true →
          (verifyCode s.sec c (latchGrants c) s.sec.startImage s.sec.startImage.length).1 ≠ 0 →
          failed i 10))) ∧
    (∀ ms, n = 9 → starting c = true → ∃ c', Completes (.bootReady ms) s c' ∧ bootState c' = 10 ∧ c'.flash.failCount = 0 ∧
      reg c' Reg.BOOT_FAIL_COUNT = 0#32 ∧ reg c' Reg.BOOT_ELAPSED = BitVec.ofNat 32 ms ∧ c'.boot.wdogPeriod = 0) ∧
    (∀ ms, (n ≠ 9 ∨ starting c = false) → Completes (.bootReady ms) s c) ∧
    (wdogRuns c = true → Completes .bootWdogKick s
      { c with boot := { c.boot with wdogPeriod := max 1 (rfld c Reg.BOOT_WDOG_CFG 15 0) } }) ∧
    (wdogRuns c = false → Completes .bootWdogKick s c) ∧
    (∀ strap : Bool,
      (c.boot.inReset = false → n ≠ 0 → Completes (.powerOn strap) s c) ∧
      ((c.boot.inReset = true ∨ n = 0) → strap = false → begins (.powerOn strap) false false (fun t => t.sec.scope = 0)) ∧
      ((c.boot.inReset = true ∨ n = 0) → strap = true → ∃ t, CompletesAt (.powerOn strap) s t ∧ bootState t.chip = 11 ∧
        t.chip.flash.fallowCause = 12 ∧ t.chip.tiles = [])) ∧
    (n = 12 → c.power.tripped = false → begins .startHoldExpire false true (fun _ => True)) ∧
    ((n ≠ 12 ∨ c.power.tripped = true) → Completes .startHoldExpire s c) ∧
    ((c.boot.inReset = true ∨ c.power.tripped = true) →
      Completes .bootWarm s c ∧ Completes .resetNLow s c ∧ Completes .bootCold s c) ∧
    (c.boot.inReset = false → c.power.tripped = false →
      begins .bootWarm (!rflag c Reg.BOOT_CFG 30) false keepsMem ∧ begins .resetNLow (!rflag c Reg.BOOT_CFG 30) false keepsMem ∧
      begins .bootCold false false (fun t => t.sec.scope = 0 ∧
        t.chip.flash.failCount = if inFallow c && !c.boot.recovered then 2 else c.flash.failCount)) ∧
    (∃ t, CompletesAt .pwrGoodFall s t ∧ t.chip.boot.inReset = true ∧ t.chip.tiles = [] ∧ t.irq = [] ∧ t.sec.keys = [] ∧
      t.chip.flash = c.flash ∧ t.chip.fuses = c.fuses) ∧
    (c.power.clkLost = true → Completes .sysClkLoss s c) ∧
    (c.power.clkLost = false → 10 ≤ n → (∀ k, k < 8 → (linkAt c k).retry = [] ∧ (linkAt c k).queue = []) →
      ∃ c', Completes .sysClkLoss s c' ∧ c'.power.clkLost = true ∧ c'.power.stripped = true ∧ ∀ d, d < 96 → domState c' d = 2) ∧
    (c.power.clkLost = false → Completes .sysClkRestored s c) ∧
    (c.power.clkLost = true → (n = 10 ∨ n = 11) → c.power.tripped = false →
      begins .sysClkRestored (!rflag c Reg.BOOT_CFG 30) false keepsMem) ∧
    (c.power.clkLost = true → ((n ≠ 10 ∧ n ≠ 11) ∨ c.power.tripped = true) →
      Completes .sysClkRestored s { c with power := { c.power with clkLost := false } })

/-- RST_TILE, RST_FIELD, RST_DIE and RST_CC act only with GO; they are refused with BOOT_FAULT bit 1 while a reset is in progress, RST_TILE also for a tile whose sequencer is enabled and not fenced, RST_FIELD for a field in use. Carried out, BOOT_RST_STATUS shows kind and target. A tile reset clears the tile with its send slots (the rest of a begun message goes on: the model's choice, log entry 192) and its registers and leaves every other register and tile, memory and routers; a field reset clears its tiles, routers and registers, zeroes its memory and leaves registers and tiles elsewhere; a die reset clears every tile; a cluster reset restarts the Thistle core and the cores of domain 93 and ends the services of targets 0 to 3 (sources in service within their range). RUNTIME_WDOG_EXPIRE of an armed watchdog in READY does the same. RESET_DONE clears BOOT_RST_STATUS and fences the target's bad tiles, or brings the Thistle core up; with none in progress the lowest field in reset, if any, is ON. FP_COMMIT of an edit copy that only loses units publishes the next revision and appends to the field map; any other raises BOOT_FAULT bit 2 alone. -/
def Obligations.PartResetsAndFloorPlan : Prop :=
  ∀ (s : State),
    let c := s.chip
    let refused (i : Instr) : Prop := ∃ c', Completes i s c' ∧ rflag c' Reg.BOOT_FAULT 1 = true ∧ Frame [Reg.BOOT_FAULT] [] c c'
    let clusterRestarts (i : Instr) : Prop := ∃ t, CompletesAt i s t ∧
      reg t.chip Reg.BOOT_RST_STATUS = 0xC0000000#32 ∧ t.irq = s.irq.filter (fun x => decide (4 ≤ x.target)) ∧ t.sec.keys = [] ∧
      t.sec.derived = false ∧ t.sec.drbg = false ∧ t.chip.secQ = [] ∧ t.chip.cores = (if domOn c 93 then [(0, 1)] else []) ∧
      t.chip.tiles = c.tiles ∧ t.chip.mem = c.mem
    (∀ v : Word,
      (flag v 31 = false → Completes (.rstTile v) s c ∧ Completes (.rstField v) s c ∧ Completes (.rstDie v) s c ∧ Completes (.rstCc v) s c) ∧
      (flag v 31 = true →
        let t := fld v 12 0
        let f := fld v 5 0
        (rstBusy c = true → refused (.rstTile v) ∧ refused (.rstField v) ∧ refused (.rstDie v) ∧ refused (.rstCc v)) ∧
        (seqEn c t = true → fenced c t = false → refused (.rstTile v)) ∧
        (fieldInUse c f = true → refused (.rstField v)) ∧
        (rstBusy c = false → (seqEn c t = false ∨ fenced c t = true) → ∃ c', Completes (.rstTile v) s c' ∧ tile c' t = {} ∧
          reg c' Reg.BOOT_RST_STATUS = BitVec.ofNat 32 (2 ^ 31 + 2 ^ 28 + t) ∧ (∀ u, u ≠ t → tile c' u = tile c u) ∧
          (∀ a, tileRegister t a = true → reg c' a = regReset a) ∧
          (∀ a, tileRegister t a = false → a ≠ Reg.BOOT_RST_STATUS → reg c' a = reg c a) ∧
          wire c' t 4 2 = unsent (wire c t 4 2) ∧
          (∀ r q v, q < 8 → v < 8 → (r, q, v) ≠ (t, 4, 2) → wire c' r q v = wire c r q v) ∧
          c' = { c with regs := c'.regs, tiles := c'.tiles, wires := c'.wires }) ∧
        (rstBusy c = false → fieldInUse c f = false → ∃ c', Completes (.rstField v) s c' ∧
          reg c' Reg.BOOT_RST_STATUS = BitVec.ofNat 32 (2 ^ 31 + 2 * 2 ^ 28 + f) ∧
          (∀ u, fieldOf u = f → tile c' u = {} ∧ router c' u = {}) ∧ (∀ u, fieldOf u ≠ f → tile c' u = tile c u) ∧
          (∀ a, fieldRegister f a = true → reg c' a = regReset a) ∧
          (∀ a, fieldRegister f a = false → a ≠ Reg.BOOT_RST_STATUS → reg c' a = reg c a) ∧
          (∀ a, fieldUnit a = some f → byteAt c' a = 0#8)) ∧
        (rstBusy c = false → ∃ c', Completes (.rstDie v) s c' ∧ reg c' Reg.BOOT_RST_STATUS = 0xB0000000#32 ∧
          ∀ u, u < 8192 → tile c' u = {}) ∧
        (rstBusy c = false → (∀ x, x ∈ s.irq → x.source < 512) → clusterRestarts (.rstCc v)))) ∧
    ((∀ x, x ∈ s.irq → x.source < 512) → rflag c Reg.TMR_WDOG_CFG 31 = true → bootState c = 10 → clusterRestarts .runtimeWdogExpire) ∧
    ((rflag c Reg.TMR_WDOG_CFG 31 = false ∨ bootState c ≠ 10) → Completes .runtimeWdogExpire s c) ∧
    (rstBusy c = true →
      let k := rfld c Reg.BOOT_RST_STATUS 30 28
      let u := rfld c Reg.BOOT_RST_STATUS 12 0
      ∃ t, CompletesAt .resetDone s t ∧ reg t.chip Reg.BOOT_RST_STATUS = 0#32 ∧ t.irq = s.irq ∧
        (k = 1 → tileGood c u = false → fenced t.chip u = true) ∧
        (k = 1 → tileGood c u = true → Frame [Reg.BOOT_RST_STATUS] [] c t.chip) ∧
        (k = 2 → u < 64 → ∀ w, w ∈ fieldTiles u → tileGood c w = false → fenced t.chip w = true) ∧
        (k = 3 → ∀ w, w < 8192 → tileGood c w = false → fenced t.chip w = true) ∧
        (k = 4 → t.sec = { s.sec with derived := !s.sec.seedKill, drbg := true } ∧ secState t.chip = 1)) ∧
    (rstBusy c = false → (∀ d, d < 64 → domState c d ≠ 5) → Completes .resetDone s c) ∧
    (∀ d, rstBusy c = false → d < 64 → domState c d = 5 → (∀ e, e < d → domState c e ≠ 5) → numOf c.power.held d = 0 →
      ∃ c', Completes .resetDone s c' ∧ domState c' d = 0 ∧ ∀ w, w ∈ fieldTiles d → tileGood c w = false → fenced c' w = true) ∧
    (let old := bytesAt c fpBase fpLength
      let new := bytesAt c fpEdit fpLength;
      (planShrinks old new = false → ∃ c', Completes .fpCommit s c' ∧ rflag c' Reg.BOOT_FAULT 2 = true ∧ Frame [Reg.BOOT_FAULT] [] c c') ∧
      (planShrinks old new = true → ∃ c', Completes .fpCommit s c' ∧
        reg c' Reg.BOOT_FP_REV = BitVec.ofNat 32 (nAt old 4 4 + 1) ∧ c'.flash.fpRev = (nAt old 4 4 + 1) % 2 ^ 32 ∧
        bytesAt c' fpBase fpLength = c'.flash.fpLast ∧ c'.flash.fpLast.length = fpLength ∧ cut c'.flash.fpLast 0x18 0x1428 = cut new 0x18 0x1428 ∧
        ∃ l, c'.flash.fieldMap = c.flash.fieldMap ++ l))

/-! ### The host interface -/

/-- COMMAND_POST puts the record in its slot, and one with the mark awaited posts; without a link or in fallow mode nothing happens. CQ_TAKE by the device takes the oldest posted record; by the host or with none posted it does nothing. CQ_COMPLETE writes the mark and, with the queue enabled and the host reached, the completion to its ring entry. A CMD row acts on the oldest taken command of its queue when its OP is the row's, and does nothing else. NOP answers 0. IMG_LOAD waits for another load in progress, begins the verification of the image named, answers 3 while another is being verified or is locked, waits while its own is verified, and answers 4 with the code of a failed one; a verified one that fails a load check is dropped and answered 4 with the check's code, one that passes is accepted and, once the jobs it replaces have stopped, applied: its jobs run from it. JOB_STOP disables the running timebases of the jobs named. LABEL answers 2 without a label tile or for a class beyond its last, else queues the label. FREEZE sets or clears FREEZE on every learning tile of the jobs named. LICENCE begins a licence load and answers with its reason. DEVICE_STATE waits for a change in progress, answers 2 for a state over 2 and 3 with the refuser, or begins the change. -/
def Obligations.CommandQueues : Prop :=
  ∀ (s : State) (q : Fin 32),
    let c := s.chip
    let quiet (c' : Chip) : Chip := { c' with host := c.host }
    let next (c' : Chip) : Option Taken := takenOf c' q
    (∀ (slot : Fin 256) (bs : List Byte), bs.length = 64 →
      let i : Instr := .commandPost q slot bs
      ((hostReached c = false ∨ inFallow c = true) → Completes i s c) ∧
      (hostReached c = true → inFallow c = false → ∃ c', Completes i s c' ∧ bytesAt c' (slotAddr q slot) 64 = bs ∧
        (∀ a, (a < slotAddr q slot ∨ slotAddr q slot + 64 ≤ a) → byteAt c' a = byteAt c a) ∧ (∀ a, reg c' a = reg c a) ∧
        (cqOn c q = false → c'.host = c.host) ∧
        (cqOn c q = true → slot.val = numOf c.host.tail q % 256 → (bs.getD 63 0#8).toNat = recordSeq (numOf c.host.tail q) →
          numOf c.host.tail q < numOf c'.host.tail q))) ∧
    (∀ who : Initiator, (who = .host ∨ cqOn c q = false ∨ numOf c.host.tail q ≤ numOf c.host.head q) → Completes (.cqTake who q) s c) ∧
    (∀ who : Initiator, who ≠ .host → cqOn c q = true → numOf c.host.head q < numOf c.host.tail q →
      ∃ c', Completes (.cqTake who q) s c' ∧ numOf c'.host.head q = numOf c.host.head q + 1 ∧
        c'.host.taken = c.host.taken ++
          [{ queue := q.val, record := bytesAt c (slotAddr q (numOf c.host.head q)) 64, phase := 0, live := true }] ∧
        Frame [] [] c (quiet c')) ∧
    (∀ v : Word, Completes (.cqComplete .host q v) s c) ∧
    (∀ (who : Initiator) (v : Word), who ≠ .host → ∃ c', Completes (.cqComplete who q v) s c' ∧
      reg c' (Reg.HIF_CQ_CPL_DATA q 3) = v ∧ c'.host.taken = dropFirst (fun x => x.queue == q.val) c.host.taken ∧
      ((cqOn c q = false ∨ hostReached c = false) → c'.host.mem = c.host.mem ∧ c'.host.cpl = c.host.cpl) ∧
      (cqOn c q = true → hostReached c = true → numOf c'.host.cpl q = numOf c.host.cpl q + 1 ∧
        ((next c).all (fun x => !bit (nAt x.record 2 1) 0) = true → c'.host.mem = hostPut
          ((reg c (Reg.HIF_CQ_CPL_HI q)).toNat * 2 ^ 32 + rfld c (Reg.HIF_CQ_CPL_LO q) 31 12 * 4096 + 16 * (numOf c.host.cpl q % 256))
          ((List.range 4).flatMap (fun i => toBytes 4 (if i = 3 then v else reg c (Reg.HIF_CQ_CPL_DATA q i)).toNat)) c.host.mem)) ∧
      Frame [Reg.HIF_CQ_CPL_DATA q 3] [] c (quiet c')) ∧
    (∀ p ∈ [(0, Instr.cmdNop q), (1, .cmdImgLoad q), (2, .cmdJobStop q), (3, .cmdLabel q), (4, .cmdFreeze q), (5, .cmdLicence q),
        (6, .cmdDeviceState q)],
      (next c).all (fun x => nAt x.record 0 2 != p.1 || decide (2 ≤ x.phase)) = true → Completes p.2 s c) ∧
    (∀ x, next c = some x → x.phase < 2 → x.live = true →
      let op := nAt x.record 0 2
      let arg (o n : Nat) : Nat := cmdArg x o n
      let answers (i : Instr) (status result : Nat) (more : Chip → Prop) : Prop := ∃ c', Completes i s c' ∧
        next c' = some { x with phase := 2 } ∧ reg c' (Reg.HIF_CQ_CPL_DATA q 0) = BitVec.ofNat 32 (nAt x.record 4 4) ∧
        reg c' (Reg.HIF_CQ_CPL_DATA q 1) = BitVec.ofNat 32 (status * 65536 + op) ∧
        reg c' (Reg.HIF_CQ_CPL_DATA q 2) = BitVec.ofNat 32 result ∧ more c'
      let cpl : List Nat := [Reg.HIF_CQ_CPL_DATA q 0, Reg.HIF_CQ_CPL_DATA q 1, Reg.HIF_CQ_CPL_DATA q 2]
      let only (c' : Chip) : Prop := Frame cpl [] c (quiet c')
      (op = 0 → answers (.cmdNop q) 0 0 only) ∧
      (op = 1 → x.phase = 0 → (imgState c = 1 ∨ imgState c = 2) → answers (.cmdImgLoad q) 3 0 (fun c' => imgState c' = imgState c)) ∧
      (op = 1 → x.phase = 0 → imgState c ≠ 1 → imgState c ≠ 2 → loadBusy c = true → Completes (.cmdImgLoad q) s c) ∧
      (op = 1 → x.phase = 0 → imgState c ≠ 1 → imgState c ≠ 2 → loadBusy c = false → ∃ c', Completes (.cmdImgLoad q) s c' ∧
        next c' = some { x with phase := 1 } ∧ imgState c' = 1 ∧ imgSrc c' = arg 0 8 % 2 ^ 37 / 64 * 64 ∧ imgLen c' = arg 8 8 % 2 ^ 37 ∧
        imgPlain c' = arg 16 8 % 2 ^ 37 / 64 * 64 ∧ c'.secQ = c.secQ ++ [{ src := 2, op := 0, seq := 0 }]) ∧
      (op = 1 → x.phase = 1 → c.loading = 0 → imgState c = 1 → Completes (.cmdImgLoad q) s c) ∧
      (op = 1 → x.phase = 1 → c.loading = 0 → imgState c = 3 →
        answers (.cmdImgLoad q) 4 (rfld c Reg.IMG_STATUS 27 16 * 65536 + rfld c Reg.IMG_STATUS 7 0) only) ∧
      (op = 1 → x.phase = 1 → c.loading = 0 → (imgState c = 0 ∨ 3 < imgState c) → answers (.cmdImgLoad q) 4 0x21 only) ∧
      (∀ r, op = 1 → x.phase = 1 → c.loading = 0 → imgState c = 2 → loadCode c (stagedImage c) = some r →
        answers (.cmdImgLoad q) 4 (r.2.1 % 65536 * 65536 + r.1 % 256) (fun c' => imgState c' = 0 ∧ c'.loading = 0)) ∧
      (op = 1 → x.phase = 1 → c.loading = 0 → imgState c = 2 → loadCode c (stagedImage c) = none → ∃ c',
        Completes (.cmdImgLoad q) s c' ∧ c'.loading = 1 ∧ c'.accepted = some (stagedImage c) ∧ reg c' Reg.IMG_RESULT = 0#32) ∧
      (∀ I, op = 1 → x.phase = 1 → c.loading = 1 → c.accepted = some I →
        (stopsDone c I = false → Completes (.cmdImgLoad q) s c) ∧
        (stopsDone c I = true → ∃ c', Completes (.cmdImgLoad q) s c' ∧
          ∀ e, e ∈ jobEntries I.ss → (jobAt c' (jeJob e)).present = true ∧ (jobAt c' (jeJob e)).image = I)) ∧
      (op = 2 → answers (.cmdJobStop q) 0
        ((((setBits 16 (arg 0 2)).filter (fun j => !(jobTimebases c j).isEmpty)).map (fun j => 2 ^ j)).foldl (· + ·) 0)
        (fun c' => ∀ k, k < 16 → jobOfTb c k < 16 → bit (arg 0 2) (jobOfTb c k) = true → tbRuns c k = true → tbEnabled c' k = false)) ∧
      (op = 3 → labelTile c (arg 0 1) = none → answers (.cmdLabel q) 2 0 only) ∧
      (∀ t, op = 3 → labelTile c (arg 0 1) = some t →
        (rfld c (Reg.LRN_LABEL_NRN t) 30 26 < arg 1 1 → answers (.cmdLabel q) 2 0 only) ∧
        (arg 1 1 ≤ rfld c (Reg.LRN_LABEL_NRN t) 30 26 → (tile c t).lrn.labels.length < 8 →
          answers (.cmdLabel q) 0 0 (fun c' => (tile c' t).lrn.labels = (tile c t).lrn.labels ++ [(arg 2 2, arg 1 1)] ∧
            Frame cpl [t] c (quiet c')))) ∧
      (op = 4 → answers (.cmdFreeze q) 0
        ((((setBits 16 (arg 0 2)).filter (fun j => !(learners c j).isEmpty)).map (fun j => 2 ^ j)).foldl (· + ·) 0)
        (fun c' => ∀ j t, j < 16 → bit (arg 0 2) j = true → t ∈ learners c j → rflag c' (Reg.LRN_CTRL t) 1 = (arg 2 1 == 1))) ∧
      (op = 5 → licState c = 1 → Completes (.cmdLicence q) s c) ∧
      (op = 5 → licState c ≠ 1 → x.phase = 0 → ∃ c', Completes (.cmdLicence q) s c' ∧ next c' = some { x with phase := 1 } ∧
        licState c' = 1 ∧ c'.secQ = c.secQ ++ [{ src := 3, op := 0, seq := 0 }]) ∧
      (op = 5 → licState c ≠ 1 → x.phase = 1 →
        answers (.cmdLicence q) (if rfld c Reg.LIC_STATUS 7 0 = 0 then 0 else 4) (rfld c Reg.LIC_STATUS 7 0) only) ∧
      (op = 6 → 2 < arg 0 1 → answers (.cmdDeviceState q) 2 0 only) ∧
      (op = 6 → arg 0 1 ≤ 2 → devBusy c = true → Completes (.cmdDeviceState q) s c) ∧
      (op = 6 → arg 0 1 = devState c → arg 0 1 ≤ 2 → devBusy c = false → answers (.cmdDeviceState q) 0 0 only) ∧
      (op = 6 → arg 0 1 ≠ devState c → arg 0 1 ≤ 2 → devBusy c = false →
        let id := if arg 0 1 = 0 then 0 else deviceRefuser c (bit (arg 1 1) 0) (arg 2 2)
        answers (.cmdDeviceState q) (if id = 0 then 0 else 3) id (fun c' =>
          (id = 0 → devBusy c' = true ∧ c'.power.devGoal = some (arg 0 1)) ∧
          (id ≠ 0 → devBusy c' = false ∧ rfld c' Reg.PWR_DEV_STATUS 26 24 = id))))

/-- FUNCTION_LEVEL_RESET and PERST_N disable every command queue and result ring, empty the MSI-X table and the pending bits, drop and count every held record, let taken commands run without completion, count in HIF_FLR_COUNT and leave host memory, HIF_PCI_ID, HIF_CTRL and every register outside the block; PERST_N takes the link down, the function-level reset keeps its status (the model's reading, in the log). PCIE_LINK_DOWN of a link that is up shows it and raises HIF_FAULT bit 3; PCIE_LINK_UP with a rate of 3 to 5 and a width of 1, 2 or 4 shows it and, with nothing held, changes nothing else. APERTURE_BASE_WRITE stores the base. RECOVERY_PIECE in fallow mode adds its piece to the staged object, and the last piece ends it with the object's code; otherwise it does nothing. I3C_INDEX_WRITE sets the index, I3C_READ returns the register that Table 20.8 names there and moves on by 4, I3C_IBI raises the in-band interrupt that is due. -/
def Obligations.HostLinkResetsAndI3c : Prop :=
  ∀ (s : State),
    let c := s.chip
    let quiet (c' : Chip) : Chip := { c' with host := c.host }
    let flrDone (c' : Chip) : Prop :=
      (∀ q, q < 32 → cqOn c' q = false) ∧ (∀ p, p < 16 → rflag c' (Reg.HIF_RR_CFG p) 31 = false) ∧
      (∀ a, (a < hifBase ∨ rcvBase ≤ a) → reg c' a = reg c a) ∧ reg c' Reg.HIF_CTRL = reg c Reg.HIF_CTRL ∧
      reg c' Reg.HIF_PCI_ID = reg c Reg.HIF_PCI_ID ∧ Advanced Reg.HIF_FLR_COUNT 1 c c' ∧
      reg c' Reg.HIF_APERTURE_BASE = regReset Reg.HIF_APERTURE_BASE ∧
      c'.host.table = [] ∧ c'.host.pend = 0#64 ∧ c'.host.mem = c.host.mem ∧ (∀ x, x ∈ c'.host.taken → x.live = false) ∧
      (∀ p, p < 16 → (streamAt c' p).out = [] ∧ (streamAt c' p).dropping = true ∧
        ((streamAt c p).out.length ≤ 64 → (reg c' (Reg.HIF_RR_DROP p)).toNat = (streamAt c p).out.length))
    (∃ c', Completes .functionLevelReset s c' ∧ flrDone c' ∧ reg c' Reg.HIF_LINK_STATUS = reg c Reg.HIF_LINK_STATUS) ∧
    (∃ c', Completes .perstN s c' ∧ flrDone c' ∧ reg c' Reg.HIF_LINK_STATUS = 0#32) ∧
    (rflag c Reg.HIF_LINK_STATUS 0 = false → Completes .pcieLinkDown s c) ∧
    (rflag c Reg.HIF_LINK_STATUS 0 = true → ∃ c', Completes .pcieLinkDown s c' ∧ reg c' Reg.HIF_LINK_STATUS = 0#32 ∧
      rflag c' Reg.HIF_FAULT 3 = true ∧ Frame [Reg.HIF_LINK_STATUS, Reg.HIF_FAULT] [] c c') ∧
    (∀ rate width : Nat,
      let good := domOn c 92 && decide (3 ≤ rate) && decide (rate ≤ 5) && (width == 1 || width == 2 || width == 4)
      (good = false → Completes (.pcieLinkUp rate width) s c) ∧
      (good = true → ∃ c', Completes (.pcieLinkUp rate width) s c' ∧
        reg c' Reg.HIF_LINK_STATUS = BitVec.ofNat 32 (rate * 65536 + width * 256 + 3) ∧ hostReached c' = true ∧
        ((∀ p, p < 16 → (streamAt c p).out = []) → c.host.pend = 0#64 → Frame [Reg.HIF_LINK_STATUS] [] c (quiet c') ∧ c'.host = c.host))) ∧
    (∀ v : Word, ∃ c', Completes (.apertureBaseWrite v) s c' ∧ rfld c' Reg.HIF_APERTURE_BASE 15 0 = fld v 15 0 ∧
      Frame [Reg.HIF_APERTURE_BASE] [] c c') ∧
    (∀ v : Word, (inFallow c = false ∨ flag v 31 = false) → Completes (.recoveryPiece v) s c) ∧
    (∀ v : Word, inFallow c = true → flag v 31 = true →
      let n := min 262144 (fld v 18 0)
      let base := fld v 29 19 * 262144
      let staged := fitTo base c.staging ++ bytesAt c rcvBase n ++ c.staging.drop (base + n)
      (flag v 30 = false → ∃ c', Completes (.recoveryPiece v) s c' ∧ c'.staging = staged ∧
        reg c' Reg.HIF_RCV_STATUS = 0x40000000#32 ∧ Frame [Reg.HIF_RCV_STATUS] [] c { c' with staging := c.staging }) ∧
      (flag v 30 = true →
        let o := staged.take (base + n)
        let package := secState c ≠ 2 ∧ nAt o 0 4 ≠ 0x474D4959
        let code := if secState c = 2 then 5 else if nAt o 0 4 = 0x474D4959 then (if (verifyCode s.sec c (latchGrants c) o (base + n)).1 = 0 then 0 else 2)
          else objectCode s.sec c (fun t => decide (1 ≤ t) && decide (t ≤ 4)) o (base + n)
        ∃ t, CompletesAt (.recoveryPiece v) s t ∧ t.chip.staging = [] ∧
          reg t.chip Reg.HIF_RCV_STATUS = BitVec.ofNat 32 (if code = 0 then 3 * 2 ^ 29 else 4 * 2 ^ 29 + code) ∧
          (code ≠ 0 → t.sec = if package then { s.sec with keys := [], drbg := false } else s.sec))) ∧
    (∀ i : Byte, Completes (.i3cIndexWrite i) s { c with i3cIndex := i.toNat }) ∧
    (∀ p ∈ [(0x00, Reg.BOOT_STATUS), (0x04, Reg.BOOT_FALLOW_CAUSE), (0x08, Reg.BOOT_FAIL_COUNT), (0x0C, Reg.PWR_THERM_STATUS),
        (0x10, Reg.FUSE_SERIAL_LO), (0x14, Reg.FUSE_SERIAL_HI), (0x18, Reg.FUSE_VARIANT)],
      c.i3cIndex = p.1 → Completes .i3cRead s { c with i3cOut := reg c p.2, i3cIndex := p.1 + 4 }) ∧
    (0x18 < c.i3cIndex → Completes .i3cRead s { c with i3cOut := 0#32, i3cIndex := (c.i3cIndex + 4) % 256 }) ∧
    (c.i3cDue = false → Completes .i3cIbi s c) ∧
    (c.i3cDue = true → Completes .i3cIbi s { c with
      i3cDue := false, i3cSent := c.i3cSent ++ [rfld c Reg.PWR_THERM_STATUS 2 0] })

/-! ### Geometry, register access, management requests -/

/-- A tile at column X and row Y has index Y × 128 + X, and every index below 8,192 is one. North (port 0) leads to row Y − 1 and no router of row 0 has it, East (port 2) to column X + 1, and no router of column 0 has a West port (3). Its field is (Y >> 3) × 8 + (X >> 4); field f covers the 16 columns from 16 × (f mod 8) and the 8 rows from 8 × (f div 8); f mod 8 below 4 is columns 0 to 63, above it 64 to 127; each half holds 32 fields and 4,096 tiles. -/
def Obligations.TileGeometry : Prop :=
  (∀ x y, x < 128 → y < 64 → tileAt x y = y * 128 + x ∧ tileAt x y < 8192 ∧ tileX (tileAt x y) = x ∧ tileY (tileAt x y) = y) ∧
  (∀ t, t < 8192 → tileX t < 128 ∧ tileY t < 64 ∧ tileAt (tileX t) (tileY t) = t) ∧
  (∀ x y, x < 128 → 0 < y → y < 64 → neighbour (tileAt x y) 0 = (tileAt x (y - 1), 1)) ∧
  (∀ x y, x + 1 < 128 → y < 64 → neighbour (tileAt x y) 2 = (tileAt (x + 1) y, 3)) ∧
  (∀ (c : Chip) (x y : Nat), x < 128 → y < 64 → portPresent c (tileAt x 0) 0 = false ∧ portPresent c (tileAt 0 y) 3 = false) ∧
  (∀ t, t < 8192 → fieldOf t = (tileY t >>> 3) * 8 + (tileX t >>> 4) ∧ fieldOf t < 64 ∧
    ∀ f, fieldOf t = f ↔ (16 * (f % 8) ≤ tileX t ∧ tileX t ≤ 16 * (f % 8) + 15 ∧ 8 * (f / 8) ≤ tileY t ∧ tileY t ≤ 8 * (f / 8) + 7)) ∧
  (∀ t, t < 8192 → (fieldOf t % 8 < 4 ↔ tileX t ≤ 63)) ∧
  ((List.range 64).filter (fun f => decide (f % 8 < 4))).length = 32 ∧
  ((List.range 8192).filter (fun t => decide (fieldOf t % 8 < 4))).length = 4096

/-- An access is accepted exactly when it has 4 or 8 bytes and is aligned to its size: a register write that is not changes nothing, and one that is acts on each of its words. A 64-bit write does what a 32-bit write of its low half and then one of its high half at the next offset do, in this order, and a 64-bit read answers and does what the two 32-bit reads do in this order. -/
def Obligations.RegisterAccessSizes : Prop :=
  (∀ a n : Nat, goodAccess a n = true ↔ ((n = 4 ∨ n = 8) ∧ a % n = 0)) ∧
  (∀ (who : Initiator) (a : BitVec 48) (v : DWord) (wide : Bool) (s : State),
    goodAccess a.toNat (if wide then 8 else 4) = false → exec (.registerWrite who a v wide) s = .next s) ∧
  (∀ (who : Initiator) (a : BitVec 48) (v : DWord) (s : State), goodAccess a.toNat 4 = true →
    exec (.registerWrite who a v false) s = .next (initiatorWord who a.toNat (v.setWidth 32) s)) ∧
  (∀ (who : Initiator) (a : BitVec 48) (v : DWord) (s t : State), goodAccess a.toNat 8 = true →
    exec (.registerWrite who a v false) s = .next t →
    exec (.registerWrite who a v true) s = exec (.registerWrite who (a + 4) (v >>> 32) false) t) ∧
  (∀ (who : Option Initiator) (a : Nat) (s : State),
    let l := readWords who a 1 s
    let h := readWords who (a + 4) 1 l.2
    readWords who a 2 s = (l.1 ++ h.1, h.2))

/-- REGISTER_WRITE of 4 bytes by an initiator that may write the register leaves in it what its access codes give: for interrupt enables, counter thresholds, timer compare values, the thermal and recorder configuration, and the W1C bits of PWR_FAULT; nothing else changes. A region register of a tile in a field that is ON takes the value only while SEQ_EN is 0. A host write that R479 does not allow, anywhere in the control space, only counts in HIF_HOST_DENIED. A write of another initiator where no register stands changes nothing. REGISTER_ACCESS_BAD changes nothing but the value the read returned, 0, and the count of a denied host write; an access with a good size, alignment and register is none of its kind. BAR0_WRITE is the host's register write at its offset while the host is reached, and nothing else. -/
def Obligations.RegisterWrites : Prop :=
  ∀ (s : State),
    let c := s.chip
    (∀ (who : Initiator) (a : BitVec 48) (v : DWord), (who ≠ .host ∨ rflag c Reg.HIF_CTRL 1 = true) →
      (a.toNat = Reg.PWR_THERM_CFG ∨ a.toNat = Reg.PWR_FAULT ∨ a.toNat = Reg.PWR_IRQ_ENABLE ∨ a.toNat = Reg.REC_CTRL ∨
        a.toNat = Reg.CHK_IRQ_ENABLE ∨ (∃ n, n < 16 ∧ a.toNat = Reg.TMR_CMP n) ∨ (∃ n, n < 16 ∧ a.toNat = Reg.CHK_THR n)) →
      ∃ c' r, regRow a.toNat = some r ∧ Completes (.registerWrite who a v false) s c' ∧
        reg c' a.toNat = storeWord r (reg c a.toNat) (v.setWidth 32) ∧ Frame [a.toNat] [] c c') ∧
    (∀ (who : Initiator) (t : Fin 8192) (n : Fin 8) (v : DWord), who ≠ .host → tileReached c t = true → domOn c (fieldOf t) = true →
      let a := Reg.TILE_REGION t n
      (seqEn c t = true → Completes (.registerWrite who (BitVec.ofNat 48 a) v false) s c) ∧
      (seqEn c t = false → ∃ c' r, regRow a = some r ∧ Completes (.registerWrite who (BitVec.ofNat 48 a) v false) s c' ∧
        reg c' a = storeWord r (reg c a) (v.setWidth 32) ∧ Frame [a] [] c c')) ∧
    (∀ (a : BitVec 48) (v : DWord), 0x200000000000 ≤ a.toNat → a.toNat % 4 = 0 → hostMay c a.toNat = false →
      ∃ c', Completes (.registerWrite .host a v false) s c' ∧ Advanced Reg.HIF_HOST_DENIED 1 c c' ∧ Frame [Reg.HIF_HOST_DENIED] [] c c') ∧
    (∀ (who : Initiator) (a : BitVec 48) (v : DWord), who ≠ .host → (occupied a.toNat = false ∨ blockOn c a.toNat = false) →
      Completes (.registerWrite who a v false) s c) ∧
    (∀ (who : Initiator) (a : BitVec 48) (size : Nat) (write : Bool),
      let good := goodAccess a.toNat size && occupied a.toNat
      let i : Instr := .registerAccessBad who a size write
      (good = true → Completes i s c) ∧
      (good = false → write = false → Completes i s { c with readOut := 0#64 }) ∧
      (good = false → write = true → (who ≠ .host ∨ a.toNat < 0x200000000000 ∨ hostMay c a.toNat = true) → Completes i s c) ∧
      (good = false → write = true → who = .host → 0x200000000000 ≤ a.toNat → hostMay c a.toNat = false → ∃ c', Completes i s c' ∧
        Advanced Reg.HIF_HOST_DENIED 1 c c' ∧ Frame [Reg.HIF_HOST_DENIED] [] c c')) ∧
    (∀ (o : BitVec 26) (v : DWord) (wide : Bool),
      (hostReached c = false → Completes (.bar0Write o v wide) s c) ∧
      (hostReached c = true → exec (.bar0Write o v wide) s =
        exec (.registerWrite .host (BitVec.ofNat 48 (0x200000000000 + o.toNat)) v wide) s))

/-- MGMT_READ and MGMT_WRITE take the first request of their OP at a target, MGMT_OP_RESERVED one of a reserved OP; with none nothing happens, and a poisoned packet is only taken. A malformed or reserved request is answered with STATUS 3. At a tile, a read of SRAM or store answers the bytes, a write stores them. Of a register of the target, a read of 4 bytes (claims apart) answers its word (of the gateways' tables it latches the entry or steps INDEX), and where none stands, the domain is not ON or the address is another's the answer is STATUS 2. MGMT_REPLY shows STATUS, TAG and data, and at a tap raises or counts what a host request met. BAR2_ACCESS: nothing without a link, in fallow mode or of no bytes; where LPDDR5X is not mapped, and outside every map, a read answers zeros and the access is counted; a read of LPDDR5X without an error in a readable region answers its bytes; a write does nothing without AP_WR, is counted in a locked range or outside a writable region, and an allowed one of up to 210 bytes stores its bytes; a tile window that is not reached is unmapped; a write of the control space is the host's register write. -/
def Obligations.ManagementAndBar2 : Prop :=
  ∀ (s : State),
    let c := s.chip
    (∀ (w : Bool) (target : Target),
      let op := if w then 1 else 0
      let i : Instr := if w then .mgmtWrite target else .mgmtRead target
      let req := takeRequest target (fun h => rqOp h == op) c
      (req = none → Completes i s c) ∧
      (∀ h body c1, req = some (h, body, c1) →
        let a := askOf body
        let reply (status : Nat) (bs : List Byte) (x : Chip) : Chip := replyTo target h.data status bs x
        (anyPoison h body = true → Completes i s c1) ∧
        (anyPoison h body = false → rqMalformed op body = true → Completes i s (reply 3 [] c1)) ∧
        (anyPoison h body = false → rqMalformed op body = false →
          (∀ t : Fin 8192, target = .tile t → win t ≤ a.addr →
            (a.addr - win t < 0x20000 ∨ (0x40000 ≤ a.addr - win t ∧ a.addr - win t < 0x80000)) →
            let o := a.addr - win t
            (w = false → Completes i s (reply (b2n (dmaUe c1 t o a.len)) (dmaBytes c1 t o a.len) (dmaReadEffect t o a.len c1))) ∧
            (w = true → ∃ st, st < 2 ∧ Completes i s (reply st [] (dmaWrite t o a.data c1)))) ∧
          (∀ k : Fin 96, target = .tap k → (tapOwns k a.addr = false ∨ occupied a.addr = false ∨ blockOn c1 a.addr = false) →
            Completes i s (reply 2 [] c1)) ∧
          (∀ k : Fin 96, target = .tap k → tapOwns k a.addr = true → occupied a.addr = true → blockOn c1 a.addr = true →
            (goodAccess a.addr a.len = false → Completes i s (reply 0 (if w then [] else List.replicate a.len 0#8) c1)) ∧
            (goodAccess a.addr a.len = true → a.len = 4 → w = false → rowIndex a.addr (Reg.IRQ_T_CLAIM 0) 0x100 6 = none →
              Completes i s (reply 0 (toBytes 4 (readWord none a.addr { s with chip := c1 }).toNat)
                (match tableHalf a.addr with | some y => tableStep y.1 y.2 c1 | none => c1))))))) ∧
    (∀ target : Target,
      let req := takeRequest target (fun h => decide (2 ≤ rqOp h)) c
      (req = none → Completes (.mgmtOpReserved target) s c) ∧
      (∀ h body c1, req = some (h, body, c1) →
        Completes (.mgmtOpReserved target) s (if anyPoison h body then c1 else replyTo target h.data 3 [] c1))) ∧
    (∀ t : Fin 8192,
      (dmaFind c t 4 (fun _ => true) = none → Completes (.mgmtReply (.tile t)) s c) ∧
      (∀ p h body, dmaFind c t 4 (fun _ => true) = some (p, h, body) → ∃ c', Completes (.mgmtReply (.tile t)) s c' ∧
        c'.replyOut = (fSub h.data / 8192, fSub h.data % 8192, bodyBytes (body.map (fun f => f.data))) ∧
        Frame [] [t.val] c { c' with replyOut := c.replyOut })) ∧
    (∀ k : Fin 96,
      (tapTake k 4 c = none → Completes (.mgmtReply (.tap k)) s c) ∧
      (∀ h body c1, tapTake k 4 c = some (h, body, c1) →
        let status := fSub h.data / 8192
        let tag := fSub h.data % 8192
        (anyPoison h body = true → Completes (.mgmtReply (.tap k)) s c1) ∧
        (anyPoison h body = false → ∃ c', Completes (.mgmtReply (.tap k)) s c' ∧
          c'.replyOut = (status, tag, bodyBytes (body.map (fun f => f.data))) ∧
          (4096 ≤ tag → status = 1 → rflag c' Reg.HIF_FAULT 1 = true) ∧ (4096 ≤ tag → status = 2 → Advanced Reg.HIF_AP_UNMAPPED 1 c c') ∧
          (tag < 4096 → ∀ a, reg c' a = reg c a)))) ∧
    (∀ (off : BitVec 32) (w : Bool) (bs : List Byte) (len : Nat),
      let i : Instr := .bar2Access off w bs len
      let n := if w then bs.length else len
      let a := rfld c Reg.HIF_APERTURE_BASE 15 0 * 2 ^ 32 + off.toNat
      let unmappedHere : Prop := ∃ c', Completes i s c' ∧ Advanced Reg.HIF_AP_UNMAPPED 1 c c' ∧
        (w = false → c'.replyOut = (0, hostTag, List.replicate n 0#8)) ∧ Frame [Reg.HIF_AP_UNMAPPED] [] c { c' with replyOut := c.replyOut }
      ((hostReached c = false ∨ inFallow c = true ∨ n = 0) → Completes i s c) ∧
      (hostReached c = true → inFallow c = false → 0 < n →
        (a < 2 ^ 37 → memMapped c a n = false → unmappedHere) ∧
        (2 ^ 37 ≤ a → (a < win 0 ∨ (win 8192 ≤ a ∧ a < 0x200000000000) ∨ 0x200002000000 ≤ a) → unmappedHere) ∧
        (a < 2 ^ 37 → memMapped c a n = true →
          (w = false → memAllowed c (fun r => flag r 0) a n = true → (∀ l, l ∈ linesOf a n → lineError c l = 0) →
            ∃ c', Completes i s c' ∧ c'.replyOut = (0, hostTag, bytesAt c a n) ∧ ∀ b, byteAt c' b = byteAt c b) ∧
          (w = false → memAllowed c (fun r => flag r 0) a n = false → ∃ c', Completes i s c' ∧ Advanced Reg.MEM_DENIED 1 c c' ∧
            c'.replyOut = (0, hostTag, List.replicate n 0#8)) ∧
          (w = true → rflag c Reg.HIF_CTRL 0 = false → Completes i s c) ∧
          (w = true → rflag c Reg.HIF_CTRL 0 = true →
            let locked := (List.range bs.length).any (fun j => lockedAt c (a + j))
            (locked = true → ∃ c', Completes i s c' ∧ Advanced Reg.IMG_LOCK_VIOL 1 c c' ∧ Frame [Reg.IMG_LOCK_VIOL] [] c c') ∧
            (locked = false → memAllowed c (fun r => flag r 1) a n = false → ∃ c', Completes i s c' ∧
              Advanced Reg.MEM_DENIED 1 c c' ∧ Frame [Reg.MEM_DENIED] [] c c') ∧
            (locked = false → memAllowed c (fun r => flag r 1) a n = true → n ≤ 210 → (∀ l, l ∈ linesOf a n → lineError c l = 0) →
              ∃ c', Completes i s c' ∧ (∀ j, j < n → byteAt c' (a + j) = bs.getD j 0#8) ∧
                ∀ b, (b < a ∨ a + n ≤ b) → byteAt c' b = byteAt c b))) ∧
        (win 0 ≤ a → a < win 8192 →
          (w = true → rflag c Reg.HIF_CTRL 0 = false → Completes i s c) ∧
          ((w = false ∨ rflag c Reg.HIF_CTRL 0 = true) →
            (tileReached c ((a - win 0) / 0x100000) = false ∨ domOn c (fieldOf ((a - win 0) / 0x100000)) = false) → unmappedHere)) ∧
        (0x200000000000 ≤ a → a < 0x200002000000 →
          ((occupied a = false ∨ blockOn c a = false) → unmappedHere) ∧
          (occupied a = true → blockOn c a = true → w = true → (n = 4 ∨ n = 8) → a % n = 0 → rflag c Reg.HIF_CTRL 0 = true →
            exec i s = exec (.registerWrite .host (BitVec.ofNat 48 a) (BitVec.ofNat 64 (ofBytes bs)) (n == 8)) s))))

/-- Whatever a tile's own command is, it changes nothing while the domain of the tile's field is not ON: the model's reading of R419, in the log. -/
def Obligations.TileNeedsItsField : Prop :=
  ∀ (i : Instr) (t : Nat) (s : State), tileOf i = some t → domOn s.chip (fieldOf t) = false → Completes i s s.chip
end

