-- ==== Sys2Proof/Laws/Bits.lean ====
section
/-!
SUPPORT. Fields of register words: what a field reads as after it, another field or a bit has been written.
-/

namespace Sys2Proof.Machine

theorem testBit_maskOf (hi lo i : Nat) (h : hi < 32) (hl : lo ≤ hi) :
    (maskOf hi lo).toNat.testBit i = (decide (lo ≤ i) && decide (i ≤ hi)) := by
  have e : ((2 ^ (hi + 1 - lo) - 1) * 2 ^ lo) % 2 ^ 32 = (2 ^ (hi + 1 - lo) - 1) * 2 ^ lo := by
    apply Nat.mod_eq_of_lt
    have h1 : 2 ^ (hi + 1 - lo) * 2 ^ lo = 2 ^ (hi + 1) := by rw [← Nat.pow_add]; congr 1; omega
    have h2 : 2 ^ (hi + 1) ≤ 2 ^ 32 := Nat.pow_le_pow_right (by decide) (by omega)
    have h3 : 0 < 2 ^ lo := Nat.two_pow_pos lo
    have h4 : 0 < 2 ^ (hi + 1 - lo) := Nat.two_pow_pos _
    have h5 : (2 ^ (hi + 1 - lo) - 1) * 2 ^ lo < 2 ^ (hi + 1 - lo) * 2 ^ lo :=
      Nat.mul_lt_mul_of_pos_right (by omega) h3
    omega
  rw [maskOf, BitVec.toNat_ofNat, e, Nat.testBit_mul_two_pow, Nat.testBit_two_pow_sub_one]
  by_cases h1 : lo ≤ i
  · simp [h1]; omega
  · simp [h1]

theorem testBit_bits (v hi lo i : Nat) :
    (bits v hi lo).testBit i = (decide (i < hi + 1 - lo) && v.testBit (lo + i)) := by
  rw [bits, Nat.testBit_mod_two_pow, Nat.testBit_div_two_pow]
  congr 1
  rw [Nat.add_comm]

theorem testBit_putFld (v : Word) (hi lo x i : Nat) (h : hi < 32) (hl : lo ≤ hi) :
    (putFld v hi lo x).toNat.testBit i =
      if lo ≤ i ∧ i ≤ hi then x.testBit (i - lo) else v.toNat.testBit i := by
  have hm : ∀ j, (mk hi lo x).testBit j = (decide (lo ≤ j) && (decide (j - lo < hi + 1 - lo) && x.testBit (j - lo))) := by
    intro j
    rw [mk, Nat.testBit_mul_two_pow, Nat.testBit_mod_two_pow]
  have hk : mk hi lo x % 2 ^ 32 = mk hi lo x := by
    apply Nat.mod_eq_of_lt
    have h1 : 2 ^ (hi + 1 - lo) * 2 ^ lo = 2 ^ (hi + 1) := by rw [← Nat.pow_add]; congr 1; omega
    have h2 : 2 ^ (hi + 1) ≤ 2 ^ 32 := Nat.pow_le_pow_right (by decide) (by omega)
    have h3 : x % 2 ^ (hi + 1 - lo) < 2 ^ (hi + 1 - lo) := Nat.mod_lt _ (Nat.two_pow_pos _)
    have h5 := Nat.mul_lt_mul_of_pos_right h3 (Nat.two_pow_pos lo)
    simp only [mk]; omega
  have hv : i ≥ 32 → v.toNat.testBit i = false := fun hi' =>
    Nat.testBit_lt_two_pow (Nat.lt_of_lt_of_le v.isLt (Nat.pow_le_pow_right (by decide) hi'))
  rw [putFld, BitVec.toNat_or, Nat.testBit_or, BitVec.toNat_and, Nat.testBit_and, BitVec.toNat_ofNat, hk, hm]
  have hn : (~~~ maskOf hi lo).toNat.testBit i = (decide (i < 32) && !(maskOf hi lo).toNat.testBit i) := by
    rw [BitVec.testBit_toNat, BitVec.testBit_toNat, BitVec.getLsbD_not]
  rw [hn, testBit_maskOf hi lo i h hl]
  by_cases h1 : lo ≤ i <;> by_cases h2 : i ≤ hi
  · have : i - lo < hi + 1 - lo := by omega
    simp [h1, h2, this]
  · have : ¬ i - lo < hi + 1 - lo := by omega
    by_cases h3 : i < 32
    · simp [h1, h2, this, h3]
    · simp [h1, h2, this, hv (by omega)]
  · have : i < 32 := by omega
    simp [h1, h2, this]
  · omega

/-- A field reads as what was written to it, in its width. -/
theorem fld_putFld_same (v : Word) (hi lo x : Nat) (h : hi < 32) (hl : lo ≤ hi) :
    fld (putFld v hi lo x) hi lo = x % 2 ^ (hi + 1 - lo) := by
  apply Nat.eq_of_testBit_eq
  intro i
  rw [fld, testBit_bits, testBit_putFld v hi lo x _ h hl, Nat.testBit_mod_two_pow]
  by_cases h1 : i < hi + 1 - lo
  · have h2 : lo ≤ lo + i ∧ lo + i ≤ hi := by omega
    simp [h1, h2]
  · simp [h1]

/-- A field write leaves every field that it does not overlap. -/
theorem fld_putFld_apart (v : Word) (hi lo x h2 l2 : Nat) (h : hi < 32) (hl : lo ≤ hi) (hd : h2 < lo ∨ hi < l2) :
    fld (putFld v hi lo x) h2 l2 = fld v h2 l2 := by
  apply Nat.eq_of_testBit_eq
  intro i
  rw [fld, fld, testBit_bits, testBit_bits, testBit_putFld v hi lo x _ h hl]
  by_cases h1 : i < h2 + 1 - l2
  · have : ¬ (lo ≤ l2 + i ∧ l2 + i ≤ hi) := by omega
    simp only [this, if_false]
  · simp [h1]

theorem bit_eq_testBit (v i : Nat) : bit v i = v.testBit i := by
  rw [bit, Nat.testBit_eq_decide_div_mod_eq]; rfl

/-- A bit reads as what was written to it. -/
theorem flag_putBit_same (v : Word) (i : Nat) (b : Bool) (h : i < 32) : flag (putBit v i b) i = b := by
  rw [flag, bit_eq_testBit, putBit, testBit_putFld v i i _ i h (Nat.le_refl i)]
  cases b <;> simp

/-- A bit write leaves every other bit. -/
theorem flag_putBit_ne (v : Word) (i j : Nat) (b : Bool) (h : i < 32) (hj : j ≠ i) : flag (putBit v i b) j = flag v j := by
  rw [flag, flag, bit_eq_testBit, bit_eq_testBit, putBit, testBit_putFld v i i _ j h (Nat.le_refl i)]
  have : ¬ (i ≤ j ∧ j ≤ i) := by omega
  simp only [this, if_false]

/-- A field write leaves every bit outside the field. -/
theorem flag_putFld_apart (v : Word) (hi lo x j : Nat) (h : hi < 32) (hl : lo ≤ hi) (hj : j < lo ∨ hi < j) :
    flag (putFld v hi lo x) j = flag v j := by
  rw [flag, flag, bit_eq_testBit, bit_eq_testBit, testBit_putFld v hi lo x j h hl]
  have : ¬ (lo ≤ j ∧ j ≤ hi) := by omega
  simp only [this, if_false]

/-- A bit write leaves every field that does not hold the bit. -/
theorem fld_putBit_apart (v : Word) (i hi lo : Nat) (b : Bool) (h : i < 32) (hd : i < lo ∨ hi < i) :
    fld (putBit v i b) hi lo = fld v hi lo := by
  rw [putBit]
  exact fld_putFld_apart v i i _ hi lo h (Nat.le_refl i) (by omega)

end Sys2Proof.Machine
end

