-- ==== Sys2Proof/Laws/Sparse.lean ====
section
/-!
SUPPORT. What reading a sparse store gives after a write, and that a write keeps the canonical form.
-/

namespace Sys2Proof.Machine

theorem mapGet_mapErase_same {β : Type} (d : Nat → β) (m : Sparse β) (k : Nat) : mapGet d (mapErase m k) k = d k := by
  induction m with
  | nil => rfl
  | cons p m ih =>
    obtain ⟨j, v⟩ := p
    by_cases h : j = k
    · simp [mapErase, h, ih]
    · simp [mapErase, h, mapGet, ih]

theorem mapGet_mapErase_ne {β : Type} (d : Nat → β) (m : Sparse β) {k k' : Nat} (h : k' ≠ k) :
    mapGet d (mapErase m k) k' = mapGet d m k' := by
  induction m with
  | nil => rfl
  | cons p m ih =>
    obtain ⟨j, v⟩ := p
    by_cases hj : j = k
    · have : ¬ k = k' := fun e => h e.symm
      simp [mapErase, hj, ih, mapGet, this]
    · simp [mapErase, hj, mapGet, ih]

theorem mapGet_mapInsert_ne {β : Type} (d : Nat → β) (m : Sparse β) {k k' : Nat} (v : β) (h : k' ≠ k) :
    mapGet d (mapInsert m k v) k' = mapGet d m k' := by
  have h' : ¬ k = k' := fun e => h e.symm
  induction m with
  | nil => simp [mapInsert, mapGet, h']
  | cons p m ih =>
    obtain ⟨j, w⟩ := p
    by_cases hj : k < j
    · simp [mapInsert, hj, mapGet, h']
    · simp [mapInsert, hj, mapGet, ih]

theorem mapGet_mapInsert_erased {β : Type} (d : Nat → β) (m : Sparse β) (k : Nat) (v : β) :
    mapGet d (mapInsert (mapErase m k) k v) k = v := by
  induction m with
  | nil => simp [mapErase, mapInsert, mapGet]
  | cons p m ih =>
    obtain ⟨j, w⟩ := p
    by_cases hj : j = k
    · simpa [mapErase, hj] using ih
    · by_cases hk : k < j
      · simp [mapErase, hj, mapInsert, hk, mapGet]
      · simp [mapErase, hj, mapInsert, hk, mapGet, ih]

/-- A key reads as what was last written to it. -/
@[simp] theorem mapGet_mapPut_same {β : Type} [DecidableEq β] (d : Nat → β) (m : Sparse β) (k : Nat) (v : β) :
    mapGet d (mapPut d m k v) k = v := by
  unfold mapPut
  split
  · next h => rw [mapGet_mapErase_same, h]
  · exact mapGet_mapInsert_erased d m k v

/-- A write leaves every other key as it was. -/
theorem mapGet_mapPut_ne {β : Type} [DecidableEq β] (d : Nat → β) (m : Sparse β) {k k' : Nat} (v : β) (h : k' ≠ k) :
    mapGet d (mapPut d m k v) k' = mapGet d m k' := by
  unfold mapPut
  split
  · exact mapGet_mapErase_ne d m h
  · rw [mapGet_mapInsert_ne d _ v h, mapGet_mapErase_ne d m h]

/-- Reading any key after a write. -/
theorem mapGet_mapPut {β : Type} [DecidableEq β] (d : Nat → β) (m : Sparse β) (k k' : Nat) (v : β) :
    mapGet d (mapPut d m k v) k' = if k' = k then v else mapGet d m k' := by
  by_cases h : k' = k
  · simp [h]
  · simp [h, mapGet_mapPut_ne d m v h]

/-- Whether the first key of a map, if there is one, lies above `k`. -/
def headAbove {β : Type} (k : Nat) : Sparse β → Prop
  | [] => True
  | p :: _ => k < p.1

theorem mapWf_cons {β : Type} [DecidableEq β] (d : Nat → β) (j : Nat) (v : β) (m : Sparse β) :
    mapWf d ((j, v) :: m) = true ↔ v ≠ d j ∧ headAbove j m ∧ mapWf d m = true := by
  cases m with
  | nil => simp [mapWf, headAbove]
  | cons p m => obtain ⟨k, w⟩ := p; simp [mapWf, headAbove, and_assoc]

theorem headAbove_mapErase {β : Type} [DecidableEq β] (d : Nat → β) (m : Sparse β) (j k : Nat) (hw : mapWf d m = true)
    (h : headAbove j m) : headAbove j (mapErase m k) := by
  induction m with
  | nil => trivial
  | cons p m ih =>
    obtain ⟨i, v⟩ := p
    obtain ⟨_, ha, hm⟩ := (mapWf_cons d i v m).1 hw
    by_cases hi : i = k
    · simp only [mapErase, hi, if_true]
      refine ih hm ?_
      cases m with
      | nil => trivial
      | cons q m => exact Nat.lt_trans h ha
    · simp only [mapErase, hi, if_false]
      exact h

theorem mapWf_mapErase {β : Type} [DecidableEq β] (d : Nat → β) (m : Sparse β) (k : Nat) (hw : mapWf d m = true) :
    mapWf d (mapErase m k) = true := by
  induction m with
  | nil => rfl
  | cons p m ih =>
    obtain ⟨i, v⟩ := p
    obtain ⟨hv, ha, hm⟩ := (mapWf_cons d i v m).1 hw
    by_cases hi : i = k
    · simpa [mapErase, hi] using ih hm
    · simp only [mapErase, hi, if_false]
      exact (mapWf_cons d i v _).2 ⟨hv, headAbove_mapErase d m i k hm ha, ih hm⟩

theorem mapErase_absent {β : Type} (m : Sparse β) (k : Nat) : ∀ p ∈ mapErase m k, p.1 ≠ k := by
  induction m with
  | nil => simp [mapErase]
  | cons p m ih =>
    obtain ⟨j, v⟩ := p
    by_cases h : j = k
    · simpa [mapErase, h] using ih
    · intro q hq
      simp only [mapErase, h, if_false, List.mem_cons] at hq
      rcases hq with rfl | hq
      · exact h
      · exact ih q hq

theorem mapWf_mapInsert {β : Type} [DecidableEq β] (d : Nat → β) (m : Sparse β) (k : Nat) (v : β) (hv : v ≠ d k)
    (ha : ∀ p ∈ m, p.1 ≠ k) (hw : mapWf d m = true) : mapWf d (mapInsert m k v) = true := by
  induction m with
  | nil => simpa [mapInsert, mapWf] using hv
  | cons p m ih =>
    obtain ⟨j, w⟩ := p
    obtain ⟨hw1, hw2, hw3⟩ := (mapWf_cons d j w m).1 hw
    by_cases hk : k < j
    · simp only [mapInsert, hk, if_true]
      exact (mapWf_cons d k v _).2 ⟨hv, hk, hw⟩
    · have hne : j ≠ k := ha (j, w) (by simp)
      have hjk : j < k := by omega
      simp only [mapInsert, hk, if_false]
      refine (mapWf_cons d j w _).2 ⟨hw1, ?_, ih (fun q hq => ha q (by simp [hq])) hw3⟩
      cases m with
      | nil => exact hjk
      | cons q m =>
        obtain ⟨i, u⟩ := q
        by_cases hi : k < i
        · simpa [mapInsert, hi, headAbove] using hjk
        · simpa [mapInsert, hi, headAbove] using hw2

/-- A write keeps the canonical form. -/
theorem mapWf_mapPut {β : Type} [DecidableEq β] (d : Nat → β) (m : Sparse β) (k : Nat) (v : β) (hw : mapWf d m = true) :
    mapWf d (mapPut d m k v) = true := by
  unfold mapPut
  split
  · exact mapWf_mapErase d m k hw
  · next hv => exact mapWf_mapInsert d _ k v hv (mapErase_absent m k) (mapWf_mapErase d m k hw)

end Sys2Proof.Machine
end

