-- ==== Sys2Proof/Laws/State.lean ====
section
/-!
SUPPORT. What each update of the state leaves in each field: one lemma per field of `Chip` for a register write and for the
update of a keyed unit, so that no later proof unfolds a record update; and what a register or a unit reads as after them.
-/

namespace Sys2Proof.Machine

/-! ### A register write -/

@[simp] theorem setReg_mem (a : Nat) (v : Word) (c : Chip) : (setReg a v c).mem = c.mem := rfl
@[simp] theorem setReg_ecc (a : Nat) (v : Word) (c : Chip) : (setReg a v c).ecc = c.ecc := rfl
@[simp] theorem setReg_tiles (a : Nat) (v : Word) (c : Chip) : (setReg a v c).tiles = c.tiles := rfl
@[simp] theorem setReg_routers (a : Nat) (v : Word) (c : Chip) : (setReg a v c).routers = c.routers := rfl
@[simp] theorem setReg_wires (a : Nat) (v : Word) (c : Chip) : (setReg a v c).wires = c.wires := rfl
@[simp] theorem setReg_creditWires (a : Nat) (v : Word) (c : Chip) : (setReg a v c).creditWires = c.creditWires := rfl
@[simp] theorem setReg_tapIn (a : Nat) (v : Word) (c : Chip) : (setReg a v c).tapIn = c.tapIn := rfl
@[simp] theorem setReg_tbs (a : Nat) (v : Word) (c : Chip) : (setReg a v c).tbs = c.tbs := rfl
@[simp] theorem setReg_sysref (a : Nat) (v : Word) (c : Chip) : (setReg a v c).sysref = c.sysref := rfl
@[simp] theorem setReg_jobs (a : Nat) (v : Word) (c : Chip) : (setReg a v c).jobs = c.jobs := rfl
@[simp] theorem setReg_fieldJob (a : Nat) (v : Word) (c : Chip) : (setReg a v c).fieldJob = c.fieldJob := rfl
@[simp] theorem setReg_seamCnt (a : Nat) (v : Word) (c : Chip) : (setReg a v c).seamCnt = c.seamCnt := rfl
@[simp] theorem setReg_seamLast (a : Nat) (v : Word) (c : Chip) : (setReg a v c).seamLast = c.seamLast := rfl
@[simp] theorem setReg_seamMax (a : Nat) (v : Word) (c : Chip) : (setReg a v c).seamMax = c.seamMax := rfl
@[simp] theorem setReg_loadCensus (a : Nat) (v : Word) (c : Chip) : (setReg a v c).loadCensus = c.loadCensus := rfl
@[simp] theorem setReg_drain (a : Nat) (v : Word) (c : Chip) : (setReg a v c).drain = c.drain := rfl
@[simp] theorem setReg_drains (a : Nat) (v : Word) (c : Chip) : (setReg a v c).drains = c.drains := rfl
@[simp] theorem setReg_drainEpoch (a : Nat) (v : Word) (c : Chip) : (setReg a v c).drainEpoch = c.drainEpoch := rfl
@[simp] theorem setReg_reports (a : Nat) (v : Word) (c : Chip) : (setReg a v c).reports = c.reports := rfl
@[simp] theorem setReg_readOut (a : Nat) (v : Word) (c : Chip) : (setReg a v c).readOut = c.readOut := rfl
@[simp] theorem setReg_replyOut (a : Nat) (v : Word) (c : Chip) : (setReg a v c).replyOut = c.replyOut := rfl
@[simp] theorem setReg_lost (a : Nat) (v : Word) (c : Chip) : (setReg a v c).lost = c.lost := rfl
@[simp] theorem setReg_memQ (a : Nat) (v : Word) (c : Chip) : (setReg a v c).memQ = c.memQ := rfl
@[simp] theorem setReg_scrubAt (a : Nat) (v : Word) (c : Chip) : (setReg a v c).scrubAt = c.scrubAt := rfl
@[simp] theorem setReg_scrubPass (a : Nat) (v : Word) (c : Chip) : (setReg a v c).scrubPass = c.scrubPass := rfl
@[simp] theorem setReg_encs (a : Nat) (v : Word) (c : Chip) : (setReg a v c).encs = c.encs := rfl
@[simp] theorem setReg_streams (a : Nat) (v : Word) (c : Chip) : (setReg a v c).streams = c.streams := rfl
@[simp] theorem setReg_host (a : Nat) (v : Word) (c : Chip) : (setReg a v c).host = c.host := rfl
@[simp] theorem setReg_links (a : Nat) (v : Word) (c : Chip) : (setReg a v c).links = c.links := rfl
@[simp] theorem setReg_gw (a : Nat) (v : Word) (c : Chip) : (setReg a v c).gw = c.gw := rfl
@[simp] theorem setReg_fabJobs (a : Nat) (v : Word) (c : Chip) : (setReg a v c).fabJobs = c.fabJobs := rfl
@[simp] theorem setReg_fuses (a : Nat) (v : Word) (c : Chip) : (setReg a v c).fuses = c.fuses := rfl
@[simp] theorem setReg_flash (a : Nat) (v : Word) (c : Chip) : (setReg a v c).flash = c.flash := rfl
@[simp] theorem setReg_boot (a : Nat) (v : Word) (c : Chip) : (setReg a v c).boot = c.boot := rfl
@[simp] theorem setReg_power (a : Nat) (v : Word) (c : Chip) : (setReg a v c).power = c.power := rfl
@[simp] theorem setReg_recd (a : Nat) (v : Word) (c : Chip) : (setReg a v c).recd = c.recd := rfl
@[simp] theorem setReg_shared (a : Nat) (v : Word) (c : Chip) : (setReg a v c).shared = c.shared := rfl
@[simp] theorem setReg_lineWas (a : Nat) (v : Word) (c : Chip) : (setReg a v c).lineWas = c.lineWas := rfl
@[simp] theorem setReg_asked5 (a : Nat) (v : Word) (c : Chip) : (setReg a v c).asked5 = c.asked5 := rfl
@[simp] theorem setReg_snaps (a : Nat) (v : Word) (c : Chip) : (setReg a v c).snaps = c.snaps := rfl
@[simp] theorem setReg_cores (a : Nat) (v : Word) (c : Chip) : (setReg a v c).cores = c.cores := rfl
@[simp] theorem setReg_secQ (a : Nat) (v : Word) (c : Chip) : (setReg a v c).secQ = c.secQ := rfl
@[simp] theorem setReg_staging (a : Nat) (v : Word) (c : Chip) : (setReg a v c).staging = c.staging := rfl
@[simp] theorem setReg_i3cIndex (a : Nat) (v : Word) (c : Chip) : (setReg a v c).i3cIndex = c.i3cIndex := rfl
@[simp] theorem setReg_i3cOut (a : Nat) (v : Word) (c : Chip) : (setReg a v c).i3cOut = c.i3cOut := rfl
@[simp] theorem setReg_i3cDue (a : Nat) (v : Word) (c : Chip) : (setReg a v c).i3cDue = c.i3cDue := rfl
@[simp] theorem setReg_i3cSent (a : Nat) (v : Word) (c : Chip) : (setReg a v c).i3cSent = c.i3cSent := rfl
@[simp] theorem setReg_loading (a : Nat) (v : Word) (c : Chip) : (setReg a v c).loading = c.loading := rfl
@[simp] theorem setReg_accepted (a : Nat) (v : Word) (c : Chip) : (setReg a v c).accepted = c.accepted := rfl
@[simp] theorem setReg_askedGrants (a : Nat) (v : Word) (c : Chip) : (setReg a v c).askedGrants = c.askedGrants := rfl
@[simp] theorem setReg_loadGrants (a : Nat) (v : Word) (c : Chip) : (setReg a v c).loadGrants = c.loadGrants := rfl
@[simp] theorem setReg_free (a : Nat) (v : Word) (c : Chip) : (setReg a v c).free = c.free := rfl

/-- A register reads as what was last written to it. -/
@[simp] theorem reg_setReg_same (a : Nat) (v : Word) (c : Chip) : reg (setReg a v c) a = v := by simp [reg, setReg]

/-- A register write leaves every other register as it was. -/
theorem reg_setReg_ne {a b : Nat} (v : Word) (c : Chip) (h : b ≠ a) : reg (setReg a v c) b = reg c b := by
  simp [reg, setReg, mapGet_mapPut_ne _ _ _ h]

/-- Any register after a register write. -/
theorem reg_setReg (a b : Nat) (v : Word) (c : Chip) : reg (setReg a v c) b = if b = a then v else reg c b := by
  by_cases h : b = a
  · simp [h]
  · simp [h, reg_setReg_ne v c h]

/-- Any field after a register write. -/
theorem rfld_setReg (a b : Nat) (v : Word) (c : Chip) (hi lo : Nat) :
    rfld (setReg a v c) b hi lo = if b = a then fld v hi lo else rfld c b hi lo := by
  rw [rfld, reg_setReg]; split <;> rfl

/-- Any bit after a register write. -/
theorem rflag_setReg (a b : Nat) (v : Word) (c : Chip) (i : Nat) :
    rflag (setReg a v c) b i = if b = a then flag v i else rflag c b i := by
  rw [rflag, reg_setReg]; split <;> rfl

/-! ### The named register updates are register writes -/

theorem setFld_eq (a hi lo x : Nat) (c : Chip) : setFld a hi lo x c = setReg a (putFld (reg c a) hi lo x) c := rfl
theorem setBit_eq (a i : Nat) (b : Bool) (c : Chip) : setBit a i b c = setReg a (putBit (reg c a) i b) c := rfl
theorem raise_eq (a i : Nat) (c : Chip) : raise a i c = setReg a (putBit (reg c a) i true) c := rfl
theorem raiseMask_eq (a : Nat) (m : Word) (c : Chip) : raiseMask a m c = setReg a (reg c a ||| m) c := rfl
theorem count_eq (a n : Nat) (c : Chip) : count a n c = setReg a (satAdd (reg c a) n) c := rfl
theorem putNum_eq (a n : Nat) (c : Chip) : putNum a n c = setReg a (BitVec.ofNat 32 n) c := rfl

/-! ### The keyed units -/

@[simp] theorem modTile_regs (k : Nat) (f : Tile → Tile) (c : Chip) : (modTile k f c).regs = c.regs := rfl
@[simp] theorem modTile_mem (k : Nat) (f : Tile → Tile) (c : Chip) : (modTile k f c).mem = c.mem := rfl
@[simp] theorem modTile_ecc (k : Nat) (f : Tile → Tile) (c : Chip) : (modTile k f c).ecc = c.ecc := rfl
@[simp] theorem modTile_routers (k : Nat) (f : Tile → Tile) (c : Chip) : (modTile k f c).routers = c.routers := rfl
@[simp] theorem modTile_wires (k : Nat) (f : Tile → Tile) (c : Chip) : (modTile k f c).wires = c.wires := rfl
@[simp] theorem modTile_creditWires (k : Nat) (f : Tile → Tile) (c : Chip) : (modTile k f c).creditWires = c.creditWires := rfl
@[simp] theorem modTile_tapIn (k : Nat) (f : Tile → Tile) (c : Chip) : (modTile k f c).tapIn = c.tapIn := rfl
@[simp] theorem modTile_tbs (k : Nat) (f : Tile → Tile) (c : Chip) : (modTile k f c).tbs = c.tbs := rfl
@[simp] theorem modTile_sysref (k : Nat) (f : Tile → Tile) (c : Chip) : (modTile k f c).sysref = c.sysref := rfl
@[simp] theorem modTile_jobs (k : Nat) (f : Tile → Tile) (c : Chip) : (modTile k f c).jobs = c.jobs := rfl
@[simp] theorem modTile_fieldJob (k : Nat) (f : Tile → Tile) (c : Chip) : (modTile k f c).fieldJob = c.fieldJob := rfl
@[simp] theorem modTile_seamCnt (k : Nat) (f : Tile → Tile) (c : Chip) : (modTile k f c).seamCnt = c.seamCnt := rfl
@[simp] theorem modTile_seamLast (k : Nat) (f : Tile → Tile) (c : Chip) : (modTile k f c).seamLast = c.seamLast := rfl
@[simp] theorem modTile_seamMax (k : Nat) (f : Tile → Tile) (c : Chip) : (modTile k f c).seamMax = c.seamMax := rfl
@[simp] theorem modTile_loadCensus (k : Nat) (f : Tile → Tile) (c : Chip) : (modTile k f c).loadCensus = c.loadCensus := rfl
@[simp] theorem modTile_drain (k : Nat) (f : Tile → Tile) (c : Chip) : (modTile k f c).drain = c.drain := rfl
@[simp] theorem modTile_drains (k : Nat) (f : Tile → Tile) (c : Chip) : (modTile k f c).drains = c.drains := rfl
@[simp] theorem modTile_drainEpoch (k : Nat) (f : Tile → Tile) (c : Chip) : (modTile k f c).drainEpoch = c.drainEpoch := rfl
@[simp] theorem modTile_reports (k : Nat) (f : Tile → Tile) (c : Chip) : (modTile k f c).reports = c.reports := rfl
@[simp] theorem modTile_readOut (k : Nat) (f : Tile → Tile) (c : Chip) : (modTile k f c).readOut = c.readOut := rfl
@[simp] theorem modTile_replyOut (k : Nat) (f : Tile → Tile) (c : Chip) : (modTile k f c).replyOut = c.replyOut := rfl
@[simp] theorem modTile_lost (k : Nat) (f : Tile → Tile) (c : Chip) : (modTile k f c).lost = c.lost := rfl
@[simp] theorem modTile_memQ (k : Nat) (f : Tile → Tile) (c : Chip) : (modTile k f c).memQ = c.memQ := rfl
@[simp] theorem modTile_scrubAt (k : Nat) (f : Tile → Tile) (c : Chip) : (modTile k f c).scrubAt = c.scrubAt := rfl
@[simp] theorem modTile_scrubPass (k : Nat) (f : Tile → Tile) (c : Chip) : (modTile k f c).scrubPass = c.scrubPass := rfl
@[simp] theorem modTile_encs (k : Nat) (f : Tile → Tile) (c : Chip) : (modTile k f c).encs = c.encs := rfl
@[simp] theorem modTile_streams (k : Nat) (f : Tile → Tile) (c : Chip) : (modTile k f c).streams = c.streams := rfl
@[simp] theorem modTile_host (k : Nat) (f : Tile → Tile) (c : Chip) : (modTile k f c).host = c.host := rfl
@[simp] theorem modTile_links (k : Nat) (f : Tile → Tile) (c : Chip) : (modTile k f c).links = c.links := rfl
@[simp] theorem modTile_gw (k : Nat) (f : Tile → Tile) (c : Chip) : (modTile k f c).gw = c.gw := rfl
@[simp] theorem modTile_fabJobs (k : Nat) (f : Tile → Tile) (c : Chip) : (modTile k f c).fabJobs = c.fabJobs := rfl
@[simp] theorem modTile_fuses (k : Nat) (f : Tile → Tile) (c : Chip) : (modTile k f c).fuses = c.fuses := rfl
@[simp] theorem modTile_flash (k : Nat) (f : Tile → Tile) (c : Chip) : (modTile k f c).flash = c.flash := rfl
@[simp] theorem modTile_boot (k : Nat) (f : Tile → Tile) (c : Chip) : (modTile k f c).boot = c.boot := rfl
@[simp] theorem modTile_power (k : Nat) (f : Tile → Tile) (c : Chip) : (modTile k f c).power = c.power := rfl
@[simp] theorem modTile_recd (k : Nat) (f : Tile → Tile) (c : Chip) : (modTile k f c).recd = c.recd := rfl
@[simp] theorem modTile_shared (k : Nat) (f : Tile → Tile) (c : Chip) : (modTile k f c).shared = c.shared := rfl
@[simp] theorem modTile_lineWas (k : Nat) (f : Tile → Tile) (c : Chip) : (modTile k f c).lineWas = c.lineWas := rfl
@[simp] theorem modTile_asked5 (k : Nat) (f : Tile → Tile) (c : Chip) : (modTile k f c).asked5 = c.asked5 := rfl
@[simp] theorem modTile_snaps (k : Nat) (f : Tile → Tile) (c : Chip) : (modTile k f c).snaps = c.snaps := rfl
@[simp] theorem modTile_cores (k : Nat) (f : Tile → Tile) (c : Chip) : (modTile k f c).cores = c.cores := rfl
@[simp] theorem modTile_secQ (k : Nat) (f : Tile → Tile) (c : Chip) : (modTile k f c).secQ = c.secQ := rfl
@[simp] theorem modTile_staging (k : Nat) (f : Tile → Tile) (c : Chip) : (modTile k f c).staging = c.staging := rfl
@[simp] theorem modTile_i3cIndex (k : Nat) (f : Tile → Tile) (c : Chip) : (modTile k f c).i3cIndex = c.i3cIndex := rfl
@[simp] theorem modTile_i3cOut (k : Nat) (f : Tile → Tile) (c : Chip) : (modTile k f c).i3cOut = c.i3cOut := rfl
@[simp] theorem modTile_i3cDue (k : Nat) (f : Tile → Tile) (c : Chip) : (modTile k f c).i3cDue = c.i3cDue := rfl
@[simp] theorem modTile_i3cSent (k : Nat) (f : Tile → Tile) (c : Chip) : (modTile k f c).i3cSent = c.i3cSent := rfl
@[simp] theorem modTile_loading (k : Nat) (f : Tile → Tile) (c : Chip) : (modTile k f c).loading = c.loading := rfl
@[simp] theorem modTile_accepted (k : Nat) (f : Tile → Tile) (c : Chip) : (modTile k f c).accepted = c.accepted := rfl
@[simp] theorem modTile_askedGrants (k : Nat) (f : Tile → Tile) (c : Chip) : (modTile k f c).askedGrants = c.askedGrants := rfl
@[simp] theorem modTile_loadGrants (k : Nat) (f : Tile → Tile) (c : Chip) : (modTile k f c).loadGrants = c.loadGrants := rfl
@[simp] theorem modTile_free (k : Nat) (f : Tile → Tile) (c : Chip) : (modTile k f c).free = c.free := rfl
@[simp] theorem reg_modTile (k : Nat) (f : Tile → Tile) (c : Chip) (a : Nat) : reg (modTile k f c) a = reg c a := rfl
@[simp] theorem tile_setReg (a : Nat) (v : Word) (c : Chip) (k : Nat) : tile (setReg a v c) k = tile c k := rfl
@[simp] theorem tile_modTile_same (k : Nat) (f : Tile → Tile) (c : Chip) : tile (modTile k f c) k = f (tile c k) := by
  simp [tile, modTile]
theorem tile_modTile_ne {k k' : Nat} (f : Tile → Tile) (c : Chip) (h : k' ≠ k) : tile (modTile k f c) k' = tile c k' := by
  simp [tile, modTile, mapGet_mapPut_ne _ _ _ h]

@[simp] theorem modRouter_regs (k : Nat) (f : Router → Router) (c : Chip) : (modRouter k f c).regs = c.regs := rfl
@[simp] theorem modRouter_mem (k : Nat) (f : Router → Router) (c : Chip) : (modRouter k f c).mem = c.mem := rfl
@[simp] theorem modRouter_ecc (k : Nat) (f : Router → Router) (c : Chip) : (modRouter k f c).ecc = c.ecc := rfl
@[simp] theorem modRouter_tiles (k : Nat) (f : Router → Router) (c : Chip) : (modRouter k f c).tiles = c.tiles := rfl
@[simp] theorem modRouter_wires (k : Nat) (f : Router → Router) (c : Chip) : (modRouter k f c).wires = c.wires := rfl
@[simp] theorem modRouter_creditWires (k : Nat) (f : Router → Router) (c : Chip) : (modRouter k f c).creditWires = c.creditWires := rfl
@[simp] theorem modRouter_tapIn (k : Nat) (f : Router → Router) (c : Chip) : (modRouter k f c).tapIn = c.tapIn := rfl
@[simp] theorem modRouter_tbs (k : Nat) (f : Router → Router) (c : Chip) : (modRouter k f c).tbs = c.tbs := rfl
@[simp] theorem modRouter_sysref (k : Nat) (f : Router → Router) (c : Chip) : (modRouter k f c).sysref = c.sysref := rfl
@[simp] theorem modRouter_jobs (k : Nat) (f : Router → Router) (c : Chip) : (modRouter k f c).jobs = c.jobs := rfl
@[simp] theorem modRouter_fieldJob (k : Nat) (f : Router → Router) (c : Chip) : (modRouter k f c).fieldJob = c.fieldJob := rfl
@[simp] theorem modRouter_seamCnt (k : Nat) (f : Router → Router) (c : Chip) : (modRouter k f c).seamCnt = c.seamCnt := rfl
@[simp] theorem modRouter_seamLast (k : Nat) (f : Router → Router) (c : Chip) : (modRouter k f c).seamLast = c.seamLast := rfl
@[simp] theorem modRouter_seamMax (k : Nat) (f : Router → Router) (c : Chip) : (modRouter k f c).seamMax = c.seamMax := rfl
@[simp] theorem modRouter_loadCensus (k : Nat) (f : Router → Router) (c : Chip) : (modRouter k f c).loadCensus = c.loadCensus := rfl
@[simp] theorem modRouter_drain (k : Nat) (f : Router → Router) (c : Chip) : (modRouter k f c).drain = c.drain := rfl
@[simp] theorem modRouter_drains (k : Nat) (f : Router → Router) (c : Chip) : (modRouter k f c).drains = c.drains := rfl
@[simp] theorem modRouter_drainEpoch (k : Nat) (f : Router → Router) (c : Chip) : (modRouter k f c).drainEpoch = c.drainEpoch := rfl
@[simp] theorem modRouter_reports (k : Nat) (f : Router → Router) (c : Chip) : (modRouter k f c).reports = c.reports := rfl
@[simp] theorem modRouter_readOut (k : Nat) (f : Router → Router) (c : Chip) : (modRouter k f c).readOut = c.readOut := rfl
@[simp] theorem modRouter_replyOut (k : Nat) (f : Router → Router) (c : Chip) : (modRouter k f c).replyOut = c.replyOut := rfl
@[simp] theorem modRouter_lost (k : Nat) (f : Router → Router) (c : Chip) : (modRouter k f c).lost = c.lost := rfl
@[simp] theorem modRouter_memQ (k : Nat) (f : Router → Router) (c : Chip) : (modRouter k f c).memQ = c.memQ := rfl
@[simp] theorem modRouter_scrubAt (k : Nat) (f : Router → Router) (c : Chip) : (modRouter k f c).scrubAt = c.scrubAt := rfl
@[simp] theorem modRouter_scrubPass (k : Nat) (f : Router → Router) (c : Chip) : (modRouter k f c).scrubPass = c.scrubPass := rfl
@[simp] theorem modRouter_encs (k : Nat) (f : Router → Router) (c : Chip) : (modRouter k f c).encs = c.encs := rfl
@[simp] theorem modRouter_streams (k : Nat) (f : Router → Router) (c : Chip) : (modRouter k f c).streams = c.streams := rfl
@[simp] theorem modRouter_host (k : Nat) (f : Router → Router) (c : Chip) : (modRouter k f c).host = c.host := rfl
@[simp] theorem modRouter_links (k : Nat) (f : Router → Router) (c : Chip) : (modRouter k f c).links = c.links := rfl
@[simp] theorem modRouter_gw (k : Nat) (f : Router → Router) (c : Chip) : (modRouter k f c).gw = c.gw := rfl
@[simp] theorem modRouter_fabJobs (k : Nat) (f : Router → Router) (c : Chip) : (modRouter k f c).fabJobs = c.fabJobs := rfl
@[simp] theorem modRouter_fuses (k : Nat) (f : Router → Router) (c : Chip) : (modRouter k f c).fuses = c.fuses := rfl
@[simp] theorem modRouter_flash (k : Nat) (f : Router → Router) (c : Chip) : (modRouter k f c).flash = c.flash := rfl
@[simp] theorem modRouter_boot (k : Nat) (f : Router → Router) (c : Chip) : (modRouter k f c).boot = c.boot := rfl
@[simp] theorem modRouter_power (k : Nat) (f : Router → Router) (c : Chip) : (modRouter k f c).power = c.power := rfl
@[simp] theorem modRouter_recd (k : Nat) (f : Router → Router) (c : Chip) : (modRouter k f c).recd = c.recd := rfl
@[simp] theorem modRouter_shared (k : Nat) (f : Router → Router) (c : Chip) : (modRouter k f c).shared = c.shared := rfl
@[simp] theorem modRouter_lineWas (k : Nat) (f : Router → Router) (c : Chip) : (modRouter k f c).lineWas = c.lineWas := rfl
@[simp] theorem modRouter_asked5 (k : Nat) (f : Router → Router) (c : Chip) : (modRouter k f c).asked5 = c.asked5 := rfl
@[simp] theorem modRouter_snaps (k : Nat) (f : Router → Router) (c : Chip) : (modRouter k f c).snaps = c.snaps := rfl
@[simp] theorem modRouter_cores (k : Nat) (f : Router → Router) (c : Chip) : (modRouter k f c).cores = c.cores := rfl
@[simp] theorem modRouter_secQ (k : Nat) (f : Router → Router) (c : Chip) : (modRouter k f c).secQ = c.secQ := rfl
@[simp] theorem modRouter_staging (k : Nat) (f : Router → Router) (c : Chip) : (modRouter k f c).staging = c.staging := rfl
@[simp] theorem modRouter_i3cIndex (k : Nat) (f : Router → Router) (c : Chip) : (modRouter k f c).i3cIndex = c.i3cIndex := rfl
@[simp] theorem modRouter_i3cOut (k : Nat) (f : Router → Router) (c : Chip) : (modRouter k f c).i3cOut = c.i3cOut := rfl
@[simp] theorem modRouter_i3cDue (k : Nat) (f : Router → Router) (c : Chip) : (modRouter k f c).i3cDue = c.i3cDue := rfl
@[simp] theorem modRouter_i3cSent (k : Nat) (f : Router → Router) (c : Chip) : (modRouter k f c).i3cSent = c.i3cSent := rfl
@[simp] theorem modRouter_loading (k : Nat) (f : Router → Router) (c : Chip) : (modRouter k f c).loading = c.loading := rfl
@[simp] theorem modRouter_accepted (k : Nat) (f : Router → Router) (c : Chip) : (modRouter k f c).accepted = c.accepted := rfl
@[simp] theorem modRouter_askedGrants (k : Nat) (f : Router → Router) (c : Chip) : (modRouter k f c).askedGrants = c.askedGrants := rfl
@[simp] theorem modRouter_loadGrants (k : Nat) (f : Router → Router) (c : Chip) : (modRouter k f c).loadGrants = c.loadGrants := rfl
@[simp] theorem modRouter_free (k : Nat) (f : Router → Router) (c : Chip) : (modRouter k f c).free = c.free := rfl
@[simp] theorem reg_modRouter (k : Nat) (f : Router → Router) (c : Chip) (a : Nat) : reg (modRouter k f c) a = reg c a := rfl
@[simp] theorem router_setReg (a : Nat) (v : Word) (c : Chip) (k : Nat) : router (setReg a v c) k = router c k := rfl
@[simp] theorem router_modRouter_same (k : Nat) (f : Router → Router) (c : Chip) : router (modRouter k f c) k = f (router c k) := by
  simp [router, modRouter]
theorem router_modRouter_ne {k k' : Nat} (f : Router → Router) (c : Chip) (h : k' ≠ k) : router (modRouter k f c) k' = router c k' := by
  simp [router, modRouter, mapGet_mapPut_ne _ _ _ h]

@[simp] theorem modTb_regs (k : Nat) (f : Timebase → Timebase) (c : Chip) : (modTb k f c).regs = c.regs := rfl
@[simp] theorem modTb_mem (k : Nat) (f : Timebase → Timebase) (c : Chip) : (modTb k f c).mem = c.mem := rfl
@[simp] theorem modTb_ecc (k : Nat) (f : Timebase → Timebase) (c : Chip) : (modTb k f c).ecc = c.ecc := rfl
@[simp] theorem modTb_tiles (k : Nat) (f : Timebase → Timebase) (c : Chip) : (modTb k f c).tiles = c.tiles := rfl
@[simp] theorem modTb_routers (k : Nat) (f : Timebase → Timebase) (c : Chip) : (modTb k f c).routers = c.routers := rfl
@[simp] theorem modTb_wires (k : Nat) (f : Timebase → Timebase) (c : Chip) : (modTb k f c).wires = c.wires := rfl
@[simp] theorem modTb_creditWires (k : Nat) (f : Timebase → Timebase) (c : Chip) : (modTb k f c).creditWires = c.creditWires := rfl
@[simp] theorem modTb_tapIn (k : Nat) (f : Timebase → Timebase) (c : Chip) : (modTb k f c).tapIn = c.tapIn := rfl
@[simp] theorem modTb_sysref (k : Nat) (f : Timebase → Timebase) (c : Chip) : (modTb k f c).sysref = c.sysref := rfl
@[simp] theorem modTb_jobs (k : Nat) (f : Timebase → Timebase) (c : Chip) : (modTb k f c).jobs = c.jobs := rfl
@[simp] theorem modTb_fieldJob (k : Nat) (f : Timebase → Timebase) (c : Chip) : (modTb k f c).fieldJob = c.fieldJob := rfl
@[simp] theorem modTb_seamCnt (k : Nat) (f : Timebase → Timebase) (c : Chip) : (modTb k f c).seamCnt = c.seamCnt := rfl
@[simp] theorem modTb_seamLast (k : Nat) (f : Timebase → Timebase) (c : Chip) : (modTb k f c).seamLast = c.seamLast := rfl
@[simp] theorem modTb_seamMax (k : Nat) (f : Timebase → Timebase) (c : Chip) : (modTb k f c).seamMax = c.seamMax := rfl
@[simp] theorem modTb_loadCensus (k : Nat) (f : Timebase → Timebase) (c : Chip) : (modTb k f c).loadCensus = c.loadCensus := rfl
@[simp] theorem modTb_drain (k : Nat) (f : Timebase → Timebase) (c : Chip) : (modTb k f c).drain = c.drain := rfl
@[simp] theorem modTb_drains (k : Nat) (f : Timebase → Timebase) (c : Chip) : (modTb k f c).drains = c.drains := rfl
@[simp] theorem modTb_drainEpoch (k : Nat) (f : Timebase → Timebase) (c : Chip) : (modTb k f c).drainEpoch = c.drainEpoch := rfl
@[simp] theorem modTb_reports (k : Nat) (f : Timebase → Timebase) (c : Chip) : (modTb k f c).reports = c.reports := rfl
@[simp] theorem modTb_readOut (k : Nat) (f : Timebase → Timebase) (c : Chip) : (modTb k f c).readOut = c.readOut := rfl
@[simp] theorem modTb_replyOut (k : Nat) (f : Timebase → Timebase) (c : Chip) : (modTb k f c).replyOut = c.replyOut := rfl
@[simp] theorem modTb_lost (k : Nat) (f : Timebase → Timebase) (c : Chip) : (modTb k f c).lost = c.lost := rfl
@[simp] theorem modTb_memQ (k : Nat) (f : Timebase → Timebase) (c : Chip) : (modTb k f c).memQ = c.memQ := rfl
@[simp] theorem modTb_scrubAt (k : Nat) (f : Timebase → Timebase) (c : Chip) : (modTb k f c).scrubAt = c.scrubAt := rfl
@[simp] theorem modTb_scrubPass (k : Nat) (f : Timebase → Timebase) (c : Chip) : (modTb k f c).scrubPass = c.scrubPass := rfl
@[simp] theorem modTb_encs (k : Nat) (f : Timebase → Timebase) (c : Chip) : (modTb k f c).encs = c.encs := rfl
@[simp] theorem modTb_streams (k : Nat) (f : Timebase → Timebase) (c : Chip) : (modTb k f c).streams = c.streams := rfl
@[simp] theorem modTb_host (k : Nat) (f : Timebase → Timebase) (c : Chip) : (modTb k f c).host = c.host := rfl
@[simp] theorem modTb_links (k : Nat) (f : Timebase → Timebase) (c : Chip) : (modTb k f c).links = c.links := rfl
@[simp] theorem modTb_gw (k : Nat) (f : Timebase → Timebase) (c : Chip) : (modTb k f c).gw = c.gw := rfl
@[simp] theorem modTb_fabJobs (k : Nat) (f : Timebase → Timebase) (c : Chip) : (modTb k f c).fabJobs = c.fabJobs := rfl
@[simp] theorem modTb_fuses (k : Nat) (f : Timebase → Timebase) (c : Chip) : (modTb k f c).fuses = c.fuses := rfl
@[simp] theorem modTb_flash (k : Nat) (f : Timebase → Timebase) (c : Chip) : (modTb k f c).flash = c.flash := rfl
@[simp] theorem modTb_boot (k : Nat) (f : Timebase → Timebase) (c : Chip) : (modTb k f c).boot = c.boot := rfl
@[simp] theorem modTb_power (k : Nat) (f : Timebase → Timebase) (c : Chip) : (modTb k f c).power = c.power := rfl
@[simp] theorem modTb_recd (k : Nat) (f : Timebase → Timebase) (c : Chip) : (modTb k f c).recd = c.recd := rfl
@[simp] theorem modTb_shared (k : Nat) (f : Timebase → Timebase) (c : Chip) : (modTb k f c).shared = c.shared := rfl
@[simp] theorem modTb_lineWas (k : Nat) (f : Timebase → Timebase) (c : Chip) : (modTb k f c).lineWas = c.lineWas := rfl
@[simp] theorem modTb_asked5 (k : Nat) (f : Timebase → Timebase) (c : Chip) : (modTb k f c).asked5 = c.asked5 := rfl
@[simp] theorem modTb_snaps (k : Nat) (f : Timebase → Timebase) (c : Chip) : (modTb k f c).snaps = c.snaps := rfl
@[simp] theorem modTb_cores (k : Nat) (f : Timebase → Timebase) (c : Chip) : (modTb k f c).cores = c.cores := rfl
@[simp] theorem modTb_secQ (k : Nat) (f : Timebase → Timebase) (c : Chip) : (modTb k f c).secQ = c.secQ := rfl
@[simp] theorem modTb_staging (k : Nat) (f : Timebase → Timebase) (c : Chip) : (modTb k f c).staging = c.staging := rfl
@[simp] theorem modTb_i3cIndex (k : Nat) (f : Timebase → Timebase) (c : Chip) : (modTb k f c).i3cIndex = c.i3cIndex := rfl
@[simp] theorem modTb_i3cOut (k : Nat) (f : Timebase → Timebase) (c : Chip) : (modTb k f c).i3cOut = c.i3cOut := rfl
@[simp] theorem modTb_i3cDue (k : Nat) (f : Timebase → Timebase) (c : Chip) : (modTb k f c).i3cDue = c.i3cDue := rfl
@[simp] theorem modTb_i3cSent (k : Nat) (f : Timebase → Timebase) (c : Chip) : (modTb k f c).i3cSent = c.i3cSent := rfl
@[simp] theorem modTb_loading (k : Nat) (f : Timebase → Timebase) (c : Chip) : (modTb k f c).loading = c.loading := rfl
@[simp] theorem modTb_accepted (k : Nat) (f : Timebase → Timebase) (c : Chip) : (modTb k f c).accepted = c.accepted := rfl
@[simp] theorem modTb_askedGrants (k : Nat) (f : Timebase → Timebase) (c : Chip) : (modTb k f c).askedGrants = c.askedGrants := rfl
@[simp] theorem modTb_loadGrants (k : Nat) (f : Timebase → Timebase) (c : Chip) : (modTb k f c).loadGrants = c.loadGrants := rfl
@[simp] theorem modTb_free (k : Nat) (f : Timebase → Timebase) (c : Chip) : (modTb k f c).free = c.free := rfl
@[simp] theorem reg_modTb (k : Nat) (f : Timebase → Timebase) (c : Chip) (a : Nat) : reg (modTb k f c) a = reg c a := rfl
@[simp] theorem tbAt_setReg (a : Nat) (v : Word) (c : Chip) (k : Nat) : tbAt (setReg a v c) k = tbAt c k := rfl
@[simp] theorem tbAt_modTb_same (k : Nat) (f : Timebase → Timebase) (c : Chip) : tbAt (modTb k f c) k = f (tbAt c k) := by
  simp [tbAt, modTb]
theorem tbAt_modTb_ne {k k' : Nat} (f : Timebase → Timebase) (c : Chip) (h : k' ≠ k) : tbAt (modTb k f c) k' = tbAt c k' := by
  simp [tbAt, modTb, mapGet_mapPut_ne _ _ _ h]

@[simp] theorem modJob_regs (k : Nat) (f : Job → Job) (c : Chip) : (modJob k f c).regs = c.regs := rfl
@[simp] theorem modJob_mem (k : Nat) (f : Job → Job) (c : Chip) : (modJob k f c).mem = c.mem := rfl
@[simp] theorem modJob_ecc (k : Nat) (f : Job → Job) (c : Chip) : (modJob k f c).ecc = c.ecc := rfl
@[simp] theorem modJob_tiles (k : Nat) (f : Job → Job) (c : Chip) : (modJob k f c).tiles = c.tiles := rfl
@[simp] theorem modJob_routers (k : Nat) (f : Job → Job) (c : Chip) : (modJob k f c).routers = c.routers := rfl
@[simp] theorem modJob_wires (k : Nat) (f : Job → Job) (c : Chip) : (modJob k f c).wires = c.wires := rfl
@[simp] theorem modJob_creditWires (k : Nat) (f : Job → Job) (c : Chip) : (modJob k f c).creditWires = c.creditWires := rfl
@[simp] theorem modJob_tapIn (k : Nat) (f : Job → Job) (c : Chip) : (modJob k f c).tapIn = c.tapIn := rfl
@[simp] theorem modJob_tbs (k : Nat) (f : Job → Job) (c : Chip) : (modJob k f c).tbs = c.tbs := rfl
@[simp] theorem modJob_sysref (k : Nat) (f : Job → Job) (c : Chip) : (modJob k f c).sysref = c.sysref := rfl
@[simp] theorem modJob_fieldJob (k : Nat) (f : Job → Job) (c : Chip) : (modJob k f c).fieldJob = c.fieldJob := rfl
@[simp] theorem modJob_seamCnt (k : Nat) (f : Job → Job) (c : Chip) : (modJob k f c).seamCnt = c.seamCnt := rfl
@[simp] theorem modJob_seamLast (k : Nat) (f : Job → Job) (c : Chip) : (modJob k f c).seamLast = c.seamLast := rfl
@[simp] theorem modJob_seamMax (k : Nat) (f : Job → Job) (c : Chip) : (modJob k f c).seamMax = c.seamMax := rfl
@[simp] theorem modJob_loadCensus (k : Nat) (f : Job → Job) (c : Chip) : (modJob k f c).loadCensus = c.loadCensus := rfl
@[simp] theorem modJob_drain (k : Nat) (f : Job → Job) (c : Chip) : (modJob k f c).drain = c.drain := rfl
@[simp] theorem modJob_drains (k : Nat) (f : Job → Job) (c : Chip) : (modJob k f c).drains = c.drains := rfl
@[simp] theorem modJob_drainEpoch (k : Nat) (f : Job → Job) (c : Chip) : (modJob k f c).drainEpoch = c.drainEpoch := rfl
@[simp] theorem modJob_reports (k : Nat) (f : Job → Job) (c : Chip) : (modJob k f c).reports = c.reports := rfl
@[simp] theorem modJob_readOut (k : Nat) (f : Job → Job) (c : Chip) : (modJob k f c).readOut = c.readOut := rfl
@[simp] theorem modJob_replyOut (k : Nat) (f : Job → Job) (c : Chip) : (modJob k f c).replyOut = c.replyOut := rfl
@[simp] theorem modJob_lost (k : Nat) (f : Job → Job) (c : Chip) : (modJob k f c).lost = c.lost := rfl
@[simp] theorem modJob_memQ (k : Nat) (f : Job → Job) (c : Chip) : (modJob k f c).memQ = c.memQ := rfl
@[simp] theorem modJob_scrubAt (k : Nat) (f : Job → Job) (c : Chip) : (modJob k f c).scrubAt = c.scrubAt := rfl
@[simp] theorem modJob_scrubPass (k : Nat) (f : Job → Job) (c : Chip) : (modJob k f c).scrubPass = c.scrubPass := rfl
@[simp] theorem modJob_encs (k : Nat) (f : Job → Job) (c : Chip) : (modJob k f c).encs = c.encs := rfl
@[simp] theorem modJob_streams (k : Nat) (f : Job → Job) (c : Chip) : (modJob k f c).streams = c.streams := rfl
@[simp] theorem modJob_host (k : Nat) (f : Job → Job) (c : Chip) : (modJob k f c).host = c.host := rfl
@[simp] theorem modJob_links (k : Nat) (f : Job → Job) (c : Chip) : (modJob k f c).links = c.links := rfl
@[simp] theorem modJob_gw (k : Nat) (f : Job → Job) (c : Chip) : (modJob k f c).gw = c.gw := rfl
@[simp] theorem modJob_fabJobs (k : Nat) (f : Job → Job) (c : Chip) : (modJob k f c).fabJobs = c.fabJobs := rfl
@[simp] theorem modJob_fuses (k : Nat) (f : Job → Job) (c : Chip) : (modJob k f c).fuses = c.fuses := rfl
@[simp] theorem modJob_flash (k : Nat) (f : Job → Job) (c : Chip) : (modJob k f c).flash = c.flash := rfl
@[simp] theorem modJob_boot (k : Nat) (f : Job → Job) (c : Chip) : (modJob k f c).boot = c.boot := rfl
@[simp] theorem modJob_power (k : Nat) (f : Job → Job) (c : Chip) : (modJob k f c).power = c.power := rfl
@[simp] theorem modJob_recd (k : Nat) (f : Job → Job) (c : Chip) : (modJob k f c).recd = c.recd := rfl
@[simp] theorem modJob_shared (k : Nat) (f : Job → Job) (c : Chip) : (modJob k f c).shared = c.shared := rfl
@[simp] theorem modJob_lineWas (k : Nat) (f : Job → Job) (c : Chip) : (modJob k f c).lineWas = c.lineWas := rfl
@[simp] theorem modJob_asked5 (k : Nat) (f : Job → Job) (c : Chip) : (modJob k f c).asked5 = c.asked5 := rfl
@[simp] theorem modJob_snaps (k : Nat) (f : Job → Job) (c : Chip) : (modJob k f c).snaps = c.snaps := rfl
@[simp] theorem modJob_cores (k : Nat) (f : Job → Job) (c : Chip) : (modJob k f c).cores = c.cores := rfl
@[simp] theorem modJob_secQ (k : Nat) (f : Job → Job) (c : Chip) : (modJob k f c).secQ = c.secQ := rfl
@[simp] theorem modJob_staging (k : Nat) (f : Job → Job) (c : Chip) : (modJob k f c).staging = c.staging := rfl
@[simp] theorem modJob_i3cIndex (k : Nat) (f : Job → Job) (c : Chip) : (modJob k f c).i3cIndex = c.i3cIndex := rfl
@[simp] theorem modJob_i3cOut (k : Nat) (f : Job → Job) (c : Chip) : (modJob k f c).i3cOut = c.i3cOut := rfl
@[simp] theorem modJob_i3cDue (k : Nat) (f : Job → Job) (c : Chip) : (modJob k f c).i3cDue = c.i3cDue := rfl
@[simp] theorem modJob_i3cSent (k : Nat) (f : Job → Job) (c : Chip) : (modJob k f c).i3cSent = c.i3cSent := rfl
@[simp] theorem modJob_loading (k : Nat) (f : Job → Job) (c : Chip) : (modJob k f c).loading = c.loading := rfl
@[simp] theorem modJob_accepted (k : Nat) (f : Job → Job) (c : Chip) : (modJob k f c).accepted = c.accepted := rfl
@[simp] theorem modJob_askedGrants (k : Nat) (f : Job → Job) (c : Chip) : (modJob k f c).askedGrants = c.askedGrants := rfl
@[simp] theorem modJob_loadGrants (k : Nat) (f : Job → Job) (c : Chip) : (modJob k f c).loadGrants = c.loadGrants := rfl
@[simp] theorem modJob_free (k : Nat) (f : Job → Job) (c : Chip) : (modJob k f c).free = c.free := rfl
@[simp] theorem reg_modJob (k : Nat) (f : Job → Job) (c : Chip) (a : Nat) : reg (modJob k f c) a = reg c a := rfl
@[simp] theorem jobAt_setReg (a : Nat) (v : Word) (c : Chip) (k : Nat) : jobAt (setReg a v c) k = jobAt c k := rfl
@[simp] theorem jobAt_modJob_same (k : Nat) (f : Job → Job) (c : Chip) : jobAt (modJob k f c) k = f (jobAt c k) := by
  simp [jobAt, modJob]
theorem jobAt_modJob_ne {k k' : Nat} (f : Job → Job) (c : Chip) (h : k' ≠ k) : jobAt (modJob k f c) k' = jobAt c k' := by
  simp [jobAt, modJob, mapGet_mapPut_ne _ _ _ h]

/-! ### Memory and the error marks -/

@[simp] theorem putByte_regs (a : Nat) (b : Byte) (c : Chip) : (putByte a b c).regs = c.regs := rfl
@[simp] theorem clearEcc_regs (a n : Nat) (c : Chip) : (clearEcc a n c).regs = c.regs := rfl
@[simp] theorem clearEcc_mem (a n : Nat) (c : Chip) : (clearEcc a n c).mem = c.mem := rfl
@[simp] theorem putByte_ecc (a : Nat) (b : Byte) (c : Chip) : (putByte a b c).ecc = c.ecc := rfl
@[simp] theorem putByte_tiles (a : Nat) (b : Byte) (c : Chip) : (putByte a b c).tiles = c.tiles := rfl
@[simp] theorem clearEcc_tiles (a n : Nat) (c : Chip) : (clearEcc a n c).tiles = c.tiles := rfl
@[simp] theorem putByte_routers (a : Nat) (b : Byte) (c : Chip) : (putByte a b c).routers = c.routers := rfl
@[simp] theorem clearEcc_routers (a n : Nat) (c : Chip) : (clearEcc a n c).routers = c.routers := rfl
@[simp] theorem putByte_wires (a : Nat) (b : Byte) (c : Chip) : (putByte a b c).wires = c.wires := rfl
@[simp] theorem clearEcc_wires (a n : Nat) (c : Chip) : (clearEcc a n c).wires = c.wires := rfl
@[simp] theorem putByte_creditWires (a : Nat) (b : Byte) (c : Chip) : (putByte a b c).creditWires = c.creditWires := rfl
@[simp] theorem clearEcc_creditWires (a n : Nat) (c : Chip) : (clearEcc a n c).creditWires = c.creditWires := rfl
@[simp] theorem putByte_tapIn (a : Nat) (b : Byte) (c : Chip) : (putByte a b c).tapIn = c.tapIn := rfl
@[simp] theorem clearEcc_tapIn (a n : Nat) (c : Chip) : (clearEcc a n c).tapIn = c.tapIn := rfl
@[simp] theorem putByte_tbs (a : Nat) (b : Byte) (c : Chip) : (putByte a b c).tbs = c.tbs := rfl
@[simp] theorem clearEcc_tbs (a n : Nat) (c : Chip) : (clearEcc a n c).tbs = c.tbs := rfl
@[simp] theorem putByte_sysref (a : Nat) (b : Byte) (c : Chip) : (putByte a b c).sysref = c.sysref := rfl
@[simp] theorem clearEcc_sysref (a n : Nat) (c : Chip) : (clearEcc a n c).sysref = c.sysref := rfl
@[simp] theorem putByte_jobs (a : Nat) (b : Byte) (c : Chip) : (putByte a b c).jobs = c.jobs := rfl
@[simp] theorem clearEcc_jobs (a n : Nat) (c : Chip) : (clearEcc a n c).jobs = c.jobs := rfl
@[simp] theorem putByte_fieldJob (a : Nat) (b : Byte) (c : Chip) : (putByte a b c).fieldJob = c.fieldJob := rfl
@[simp] theorem clearEcc_fieldJob (a n : Nat) (c : Chip) : (clearEcc a n c).fieldJob = c.fieldJob := rfl
@[simp] theorem putByte_seamCnt (a : Nat) (b : Byte) (c : Chip) : (putByte a b c).seamCnt = c.seamCnt := rfl
@[simp] theorem clearEcc_seamCnt (a n : Nat) (c : Chip) : (clearEcc a n c).seamCnt = c.seamCnt := rfl
@[simp] theorem putByte_seamLast (a : Nat) (b : Byte) (c : Chip) : (putByte a b c).seamLast = c.seamLast := rfl
@[simp] theorem clearEcc_seamLast (a n : Nat) (c : Chip) : (clearEcc a n c).seamLast = c.seamLast := rfl
@[simp] theorem putByte_seamMax (a : Nat) (b : Byte) (c : Chip) : (putByte a b c).seamMax = c.seamMax := rfl
@[simp] theorem clearEcc_seamMax (a n : Nat) (c : Chip) : (clearEcc a n c).seamMax = c.seamMax := rfl
@[simp] theorem putByte_loadCensus (a : Nat) (b : Byte) (c : Chip) : (putByte a b c).loadCensus = c.loadCensus := rfl
@[simp] theorem clearEcc_loadCensus (a n : Nat) (c : Chip) : (clearEcc a n c).loadCensus = c.loadCensus := rfl
@[simp] theorem putByte_drain (a : Nat) (b : Byte) (c : Chip) : (putByte a b c).drain = c.drain := rfl
@[simp] theorem putByte_drains (a : Nat) (b : Byte) (c : Chip) : (putByte a b c).drains = c.drains := rfl
@[simp] theorem putByte_drainEpoch (a : Nat) (b : Byte) (c : Chip) : (putByte a b c).drainEpoch = c.drainEpoch := rfl
@[simp] theorem clearEcc_drain (a n : Nat) (c : Chip) : (clearEcc a n c).drain = c.drain := rfl
@[simp] theorem clearEcc_drains (a n : Nat) (c : Chip) : (clearEcc a n c).drains = c.drains := rfl
@[simp] theorem clearEcc_drainEpoch (a n : Nat) (c : Chip) : (clearEcc a n c).drainEpoch = c.drainEpoch := rfl
@[simp] theorem putByte_reports (a : Nat) (b : Byte) (c : Chip) : (putByte a b c).reports = c.reports := rfl
@[simp] theorem clearEcc_reports (a n : Nat) (c : Chip) : (clearEcc a n c).reports = c.reports := rfl
@[simp] theorem putByte_readOut (a : Nat) (b : Byte) (c : Chip) : (putByte a b c).readOut = c.readOut := rfl
@[simp] theorem clearEcc_readOut (a n : Nat) (c : Chip) : (clearEcc a n c).readOut = c.readOut := rfl
@[simp] theorem putByte_replyOut (a : Nat) (b : Byte) (c : Chip) : (putByte a b c).replyOut = c.replyOut := rfl
@[simp] theorem clearEcc_replyOut (a n : Nat) (c : Chip) : (clearEcc a n c).replyOut = c.replyOut := rfl
@[simp] theorem putByte_lost (a : Nat) (b : Byte) (c : Chip) : (putByte a b c).lost = c.lost := rfl
@[simp] theorem clearEcc_lost (a n : Nat) (c : Chip) : (clearEcc a n c).lost = c.lost := rfl
@[simp] theorem putByte_memQ (a : Nat) (b : Byte) (c : Chip) : (putByte a b c).memQ = c.memQ := rfl
@[simp] theorem clearEcc_memQ (a n : Nat) (c : Chip) : (clearEcc a n c).memQ = c.memQ := rfl
@[simp] theorem putByte_scrubAt (a : Nat) (b : Byte) (c : Chip) : (putByte a b c).scrubAt = c.scrubAt := rfl
@[simp] theorem clearEcc_scrubAt (a n : Nat) (c : Chip) : (clearEcc a n c).scrubAt = c.scrubAt := rfl
@[simp] theorem putByte_scrubPass (a : Nat) (b : Byte) (c : Chip) : (putByte a b c).scrubPass = c.scrubPass := rfl
@[simp] theorem clearEcc_scrubPass (a n : Nat) (c : Chip) : (clearEcc a n c).scrubPass = c.scrubPass := rfl
@[simp] theorem putByte_encs (a : Nat) (b : Byte) (c : Chip) : (putByte a b c).encs = c.encs := rfl
@[simp] theorem clearEcc_encs (a n : Nat) (c : Chip) : (clearEcc a n c).encs = c.encs := rfl
@[simp] theorem putByte_streams (a : Nat) (b : Byte) (c : Chip) : (putByte a b c).streams = c.streams := rfl
@[simp] theorem clearEcc_streams (a n : Nat) (c : Chip) : (clearEcc a n c).streams = c.streams := rfl
@[simp] theorem putByte_host (a : Nat) (b : Byte) (c : Chip) : (putByte a b c).host = c.host := rfl
@[simp] theorem clearEcc_host (a n : Nat) (c : Chip) : (clearEcc a n c).host = c.host := rfl
@[simp] theorem putByte_links (a : Nat) (b : Byte) (c : Chip) : (putByte a b c).links = c.links := rfl
@[simp] theorem clearEcc_links (a n : Nat) (c : Chip) : (clearEcc a n c).links = c.links := rfl
@[simp] theorem putByte_gw (a : Nat) (b : Byte) (c : Chip) : (putByte a b c).gw = c.gw := rfl
@[simp] theorem clearEcc_gw (a n : Nat) (c : Chip) : (clearEcc a n c).gw = c.gw := rfl
@[simp] theorem putByte_fabJobs (a : Nat) (b : Byte) (c : Chip) : (putByte a b c).fabJobs = c.fabJobs := rfl
@[simp] theorem clearEcc_fabJobs (a n : Nat) (c : Chip) : (clearEcc a n c).fabJobs = c.fabJobs := rfl
@[simp] theorem putByte_fuses (a : Nat) (b : Byte) (c : Chip) : (putByte a b c).fuses = c.fuses := rfl
@[simp] theorem clearEcc_fuses (a n : Nat) (c : Chip) : (clearEcc a n c).fuses = c.fuses := rfl
@[simp] theorem putByte_flash (a : Nat) (b : Byte) (c : Chip) : (putByte a b c).flash = c.flash := rfl
@[simp] theorem clearEcc_flash (a n : Nat) (c : Chip) : (clearEcc a n c).flash = c.flash := rfl
@[simp] theorem putByte_boot (a : Nat) (b : Byte) (c : Chip) : (putByte a b c).boot = c.boot := rfl
@[simp] theorem clearEcc_boot (a n : Nat) (c : Chip) : (clearEcc a n c).boot = c.boot := rfl
@[simp] theorem putByte_power (a : Nat) (b : Byte) (c : Chip) : (putByte a b c).power = c.power := rfl
@[simp] theorem clearEcc_power (a n : Nat) (c : Chip) : (clearEcc a n c).power = c.power := rfl
@[simp] theorem putByte_recd (a : Nat) (b : Byte) (c : Chip) : (putByte a b c).recd = c.recd := rfl
@[simp] theorem clearEcc_recd (a n : Nat) (c : Chip) : (clearEcc a n c).recd = c.recd := rfl
@[simp] theorem putByte_shared (a : Nat) (b : Byte) (c : Chip) : (putByte a b c).shared = c.shared := rfl
@[simp] theorem clearEcc_shared (a n : Nat) (c : Chip) : (clearEcc a n c).shared = c.shared := rfl
@[simp] theorem putByte_lineWas (a : Nat) (b : Byte) (c : Chip) : (putByte a b c).lineWas = c.lineWas := rfl
@[simp] theorem clearEcc_lineWas (a n : Nat) (c : Chip) : (clearEcc a n c).lineWas = c.lineWas := rfl
@[simp] theorem putByte_asked5 (a : Nat) (b : Byte) (c : Chip) : (putByte a b c).asked5 = c.asked5 := rfl
@[simp] theorem clearEcc_asked5 (a n : Nat) (c : Chip) : (clearEcc a n c).asked5 = c.asked5 := rfl
@[simp] theorem putByte_snaps (a : Nat) (b : Byte) (c : Chip) : (putByte a b c).snaps = c.snaps := rfl
@[simp] theorem clearEcc_snaps (a n : Nat) (c : Chip) : (clearEcc a n c).snaps = c.snaps := rfl
@[simp] theorem putByte_cores (a : Nat) (b : Byte) (c : Chip) : (putByte a b c).cores = c.cores := rfl
@[simp] theorem clearEcc_cores (a n : Nat) (c : Chip) : (clearEcc a n c).cores = c.cores := rfl
@[simp] theorem putByte_secQ (a : Nat) (b : Byte) (c : Chip) : (putByte a b c).secQ = c.secQ := rfl
@[simp] theorem clearEcc_secQ (a n : Nat) (c : Chip) : (clearEcc a n c).secQ = c.secQ := rfl
@[simp] theorem putByte_staging (a : Nat) (b : Byte) (c : Chip) : (putByte a b c).staging = c.staging := rfl
@[simp] theorem clearEcc_staging (a n : Nat) (c : Chip) : (clearEcc a n c).staging = c.staging := rfl
@[simp] theorem putByte_i3cIndex (a : Nat) (b : Byte) (c : Chip) : (putByte a b c).i3cIndex = c.i3cIndex := rfl
@[simp] theorem clearEcc_i3cIndex (a n : Nat) (c : Chip) : (clearEcc a n c).i3cIndex = c.i3cIndex := rfl
@[simp] theorem putByte_i3cOut (a : Nat) (b : Byte) (c : Chip) : (putByte a b c).i3cOut = c.i3cOut := rfl
@[simp] theorem clearEcc_i3cOut (a n : Nat) (c : Chip) : (clearEcc a n c).i3cOut = c.i3cOut := rfl
@[simp] theorem putByte_i3cDue (a : Nat) (b : Byte) (c : Chip) : (putByte a b c).i3cDue = c.i3cDue := rfl
@[simp] theorem clearEcc_i3cDue (a n : Nat) (c : Chip) : (clearEcc a n c).i3cDue = c.i3cDue := rfl
@[simp] theorem putByte_i3cSent (a : Nat) (b : Byte) (c : Chip) : (putByte a b c).i3cSent = c.i3cSent := rfl
@[simp] theorem clearEcc_i3cSent (a n : Nat) (c : Chip) : (clearEcc a n c).i3cSent = c.i3cSent := rfl
@[simp] theorem putByte_loading (a : Nat) (b : Byte) (c : Chip) : (putByte a b c).loading = c.loading := rfl
@[simp] theorem putByte_accepted (a : Nat) (b : Byte) (c : Chip) : (putByte a b c).accepted = c.accepted := rfl
@[simp] theorem putByte_askedGrants (a : Nat) (b : Byte) (c : Chip) : (putByte a b c).askedGrants = c.askedGrants := rfl
@[simp] theorem putByte_loadGrants (a : Nat) (b : Byte) (c : Chip) : (putByte a b c).loadGrants = c.loadGrants := rfl
@[simp] theorem clearEcc_loading (a n : Nat) (c : Chip) : (clearEcc a n c).loading = c.loading := rfl
@[simp] theorem clearEcc_accepted (a n : Nat) (c : Chip) : (clearEcc a n c).accepted = c.accepted := rfl
@[simp] theorem clearEcc_askedGrants (a n : Nat) (c : Chip) : (clearEcc a n c).askedGrants = c.askedGrants := rfl
@[simp] theorem clearEcc_loadGrants (a n : Nat) (c : Chip) : (clearEcc a n c).loadGrants = c.loadGrants := rfl
@[simp] theorem putByte_free (a : Nat) (b : Byte) (c : Chip) : (putByte a b c).free = c.free := rfl
@[simp] theorem clearEcc_free (a n : Nat) (c : Chip) : (clearEcc a n c).free = c.free := rfl
@[simp] theorem reg_putByte (a : Nat) (b : Byte) (c : Chip) (k : Nat) : reg (putByte a b c) k = reg c k := rfl
@[simp] theorem byteAt_setReg (a : Nat) (v : Word) (c : Chip) (k : Nat) : byteAt (setReg a v c) k = byteAt c k := rfl
@[simp] theorem byteAt_modTile (t : Nat) (f : Tile → Tile) (c : Chip) (k : Nat) : byteAt (modTile t f c) k = byteAt c k := rfl

/-- What an action of a tile leaves where its field is ON. -/
@[simp] theorem atTile_on {t : Nat} (f : Chip → Chip) {c : Chip} (h : domOn c (fieldOf t) = true) : atTile t f c = f c := by
  simp [atTile, h]

/-- An action of a tile whose field is not ON does nothing. -/
@[simp] theorem atTile_off {t : Nat} (f : Chip → Chip) {c : Chip} (h : domOn c (fieldOf t) = false) : atTile t f c = c := by
  simp [atTile, h]

@[simp] theorem done_eq (s : State) (c : Chip) : done s c = .next { s with chip := c } := rfl

end Sys2Proof.Machine
end

