-- ==== Sys2Proof/Laws/Memory.lean ====
section
/-!
SUPPORT. The memory operations: a byte reads as it was last written, every other byte stays, and each operation keeps the
canonical form.
-/

namespace Sys2Proof.Machine

/-- A byte reads as what was last written to it. -/
@[simp] theorem byteAt_putByte_same (a : Nat) (b : Byte) (c : Chip) : byteAt (putByte a b c) a = b := by
  simp [byteAt, putByte]

/-- A byte write leaves every other byte as it was. -/
theorem byteAt_putByte_ne {a x : Nat} (b : Byte) (c : Chip) (h : x ≠ a) : byteAt (putByte a b c) x = byteAt c x := by
  simp [byteAt, putByte, mapGet_mapPut_ne _ _ _ h]

/-- A write of bytes from `a` up leaves every byte outside them as it was. -/
theorem byteAt_putBytes_outside (bs : List Byte) (a x : Nat) (c : Chip) (h : x < a ∨ a + bs.length ≤ x) :
    byteAt (putBytes a bs c) x = byteAt c x := by
  induction bs generalizing a c with
  | nil => rfl
  | cons b bs ih =>
    simp only [List.length_cons] at h
    rw [putBytes, ih (a + 1) _ (by omega), byteAt_putByte_ne b c (by omega)]

/-- Each byte of a write reads back. -/
theorem byteAt_putBytes_inside (bs : List Byte) (a i : Nat) (c : Chip) (h : i < bs.length) :
    byteAt (putBytes a bs c) (a + i) = bs.getD i 0#8 := by
  induction bs generalizing a i c with
  | nil => simp at h
  | cons b bs ih =>
    cases i with
    | zero => rw [putBytes, byteAt_putBytes_outside bs (a + 1) (a + 0) _ (by omega)]; simp
    | succ i =>
      have hi : i < bs.length := by simpa using h
      have := ih (a + 1) i (putByte a b c) hi
      rw [putBytes, show a + (i + 1) = a + 1 + i by omega, this]
      simp

@[simp] theorem putBytes_regs (bs : List Byte) (a : Nat) (c : Chip) : (putBytes a bs c).regs = c.regs := by
  induction bs generalizing a c with
  | nil => rfl
  | cons b bs ih => rw [putBytes, ih]; rfl

@[simp] theorem putBytes_lost (bs : List Byte) (a : Nat) (c : Chip) : (putBytes a bs c).lost = c.lost := by
  induction bs generalizing a c with
  | nil => rfl
  | cons b bs ih => rw [putBytes, ih]; rfl

@[simp] theorem putBytes_tiles (bs : List Byte) (a : Nat) (c : Chip) : (putBytes a bs c).tiles = c.tiles := by
  induction bs generalizing a c with
  | nil => rfl
  | cons b bs ih => rw [putBytes, ih]; rfl

/-- A byte write keeps the canonical form of memory. -/
theorem putByte_keeps_wf (a : Nat) (b : Byte) (c : Chip) (h : Memory.wf c.lost c.mem = true) :
    Memory.wf (putByte a b c).lost (putByte a b c).mem = true := mapWf_mapPut _ _ _ _ h

/-- A write of bytes keeps the canonical form of memory. -/
theorem putBytes_keeps_wf (bs : List Byte) (a : Nat) (c : Chip) (h : Memory.wf c.lost c.mem = true) :
    Memory.wf (putBytes a bs c).lost (putBytes a bs c).mem = true := by
  induction bs generalizing a c with
  | nil => exact h
  | cons b bs ih => exact ih (a + 1) _ (putByte_keeps_wf a b c h)

theorem headAbove_filter {β : Type} [DecidableEq β] (d : Nat → β) (p : Nat × β → Bool) (m : Sparse β) (j : Nat)
    (hw : mapWf d m = true) (h : headAbove j m) : headAbove j (m.filter p) := by
  induction m with
  | nil => trivial
  | cons q m ih =>
    obtain ⟨i, v⟩ := q
    obtain ⟨_, ha, hm⟩ := (mapWf_cons d i v m).1 hw
    by_cases hp : p (i, v) = true
    · rw [List.filter_cons_of_pos hp]; exact h
    · rw [List.filter_cons_of_neg hp]
      refine ih hm ?_
      cases m with
      | nil => trivial
      | cons q m => exact Nat.lt_trans h ha

/-- Dropping entries keeps the canonical form of a map. -/
theorem mapWf_filter {β : Type} [DecidableEq β] (d : Nat → β) (p : Nat × β → Bool) (m : Sparse β)
    (hw : mapWf d m = true) : mapWf d (m.filter p) = true := by
  induction m with
  | nil => rfl
  | cons q m ih =>
    obtain ⟨i, v⟩ := q
    obtain ⟨hv, ha, hm⟩ := (mapWf_cons d i v m).1 hw
    by_cases hp : p (i, v) = true
    · rw [List.filter_cons_of_pos hp]
      exact (mapWf_cons d i v _).2 ⟨hv, headAbove_filter d p m i hm ha, ih hm⟩
    · rw [List.filter_cons_of_neg hp]; exact ih hm

/-- Erasing a range keeps the canonical form of memory. -/
theorem eraseMem_keeps_wf (p : Nat → Bool) (c : Chip) (h : Memory.wf c.lost c.mem = true) :
    Memory.wf (eraseMem p c).lost (eraseMem p c).mem = true := mapWf_filter _ _ _ h

end Sys2Proof.Machine
end

