-- ==== Sys2Proof/Laws/Frame.lean ====
section
/-!
SUPPORT. What the shared operations leave alone: frames of register and tile updates, folds over lists, counters, the words of a
schedule, tiles whose field is not ON.
-/

namespace Sys2Proof.Machine

open Sys2Proof.Safety

/-! ### Frames -/

theorem frame_refl (as ts : List Nat) (c : Chip) : Frame as ts c c := ⟨fun _ _ => rfl, fun _ _ => rfl, rfl⟩

/-- Two updates within a frame stay within it. -/
theorem frame_trans {as ts : List Nat} {c c' c'' : Chip} (h : Frame as ts c c') (h' : Frame as ts c' c'') : Frame as ts c c'' := by
  obtain ⟨h1, h2, h3⟩ := h
  obtain ⟨k1, k2, k3⟩ := h'
  refine ⟨fun a ha => (k1 a ha).trans (h1 a ha), fun t ht => (k2 t ht).trans (h2 t ht), ?_⟩
  rw [k3, h3]

/-- A frame may be widened. -/
theorem frame_mono {as as' ts ts' : List Nat} {c c' : Chip} (ha : ∀ a, a ∈ as → a ∈ as') (ht : ∀ t, t ∈ ts → t ∈ ts')
    (h : Frame as ts c c') : Frame as' ts' c c' :=
  ⟨fun a h' => h.1 a (fun x => h' (ha a x)), fun t h' => h.2.1 t (fun x => h' (ht t x)), h.2.2⟩

/-- A write of a register of the frame stays within it. -/
theorem frame_setReg {as ts : List Nat} {c c' : Chip} (a : Nat) (v : Word) (h : a ∈ as) (f : Frame as ts c c') :
    Frame as ts c (setReg a v c') := by
  obtain ⟨f1, f2, f3⟩ := f
  refine ⟨fun b hb => ?_, fun t ht => f2 t ht, by rw [f3]; rfl⟩
  rw [reg_setReg_ne _ _ (by rintro rfl; exact hb h)]
  exact f1 b hb

theorem frame_setFld {as ts : List Nat} {c c' : Chip} (a hi lo x : Nat) (h : a ∈ as) (f : Frame as ts c c') :
    Frame as ts c (setFld a hi lo x c') := frame_setReg a _ h f

theorem frame_setBit {as ts : List Nat} {c c' : Chip} (a i : Nat) (b : Bool) (h : a ∈ as) (f : Frame as ts c c') :
    Frame as ts c (setBit a i b c') := frame_setReg a _ h f

theorem frame_raise {as ts : List Nat} {c c' : Chip} (a i : Nat) (h : a ∈ as) (f : Frame as ts c c') :
    Frame as ts c (raise a i c') := frame_setReg a _ h f

theorem frame_count {as ts : List Nat} {c c' : Chip} (a n : Nat) (h : a ∈ as) (f : Frame as ts c c') :
    Frame as ts c (count a n c') := frame_setReg a _ h f

theorem frame_putNum {as ts : List Nat} {c c' : Chip} (a n : Nat) (h : a ∈ as) (f : Frame as ts c c') :
    Frame as ts c (putNum a n c') := frame_setReg a _ h f

/-- An update of a tile of the frame stays within it. -/
theorem frame_modTile {as ts : List Nat} {c c' : Chip} (t : Nat) (g : Tile → Tile) (h : t ∈ ts) (f : Frame as ts c c') :
    Frame as ts c (modTile t g c') := by
  obtain ⟨f1, f2, f3⟩ := f
  refine ⟨fun b hb => f1 b hb, fun u hu => ?_, by rw [f3]; rfl⟩
  rw [tile_modTile_ne _ _ (by rintro rfl; exact hu h)]
  exact f2 u hu

/-- A conditional update stays within a frame that its update keeps. -/
theorem frame_when {as ts : List Nat} {c c' : Chip} (b : Bool) (g : Chip → Chip) (f : Frame as ts c c')
    (h : Frame as ts c (g c')) : Frame as ts c (when_ b g c') := by
  cases b
  · exact f
  · exact h

/-! ### Folds -/

@[simp] theorem forAll_nil {α : Type} (f : α → Chip → Chip) (c : Chip) : forAll f [] c = c := rfl

@[simp] theorem forAll_cons {α : Type} (f : α → Chip → Chip) (x : α) (xs : List α) (c : Chip) :
    forAll f (x :: xs) c = forAll f xs (f x c) := rfl

/-- What every step of a fold keeps, the fold keeps. -/
theorem forAll_keeps {α : Type} {P : Chip → Prop} {f : α → Chip → Chip} (l : List α) (h : ∀ x, x ∈ l → ∀ c, P c → P (f x c))
    (c : Chip) (hc : P c) : P (forAll f l c) := by
  induction l generalizing c with
  | nil => exact hc
  | cons x xs ih => exact ih (fun y hy => h y (List.mem_cons_of_mem _ hy)) _ (h x List.mem_cons_self c hc)

/-- A register that no step of a fold changes stays. -/
theorem reg_forAll {α : Type} {f : α → Chip → Chip} {a : Nat} (l : List α) (h : ∀ x, x ∈ l → ∀ c, reg (f x c) a = reg c a) (c : Chip) :
    reg (forAll f l c) a = reg c a :=
  forAll_keeps (P := fun x => reg x a = reg c a) l (fun x hx d hd => (h x hx d).trans hd) c rfl

/-- A fold within a frame stays within it. -/
theorem frame_forAll {α : Type} {as ts : List Nat} {f : α → Chip → Chip} {c c' : Chip} (l : List α)
    (h : ∀ x, x ∈ l → ∀ d, Frame as ts c d → Frame as ts c (f x d)) (hc : Frame as ts c c') : Frame as ts c (forAll f l c') :=
  forAll_keeps (P := Frame as ts c) l h c' hc

/-! ### Counters and flags -/

/-- A counter advances by its count and stops at its maximum (R23). -/
theorem advanced_count (a n : Nat) (c : Chip) : Advanced a n c (count a n c) := by
  have h : min ((reg c a).toNat + n) 4294967295 < 4294967296 := by omega
  simp [Advanced, count, satAdd, Nat.mod_eq_of_lt h]

/-- A bit that is raised reads 1. -/
theorem rflag_raise (a i : Nat) (c : Chip) (h : i < 32) : rflag (raise a i c) a i = true := by
  simp [rflag, raise, setBit, flag_putBit_same _ _ _ h]

/-- A field reads as what was written to it, in its width. -/
theorem rfld_setFld (a hi lo x : Nat) (c : Chip) (h : hi < 32) (hl : lo ≤ hi) :
    rfld (setFld a hi lo x c) a hi lo = x % 2 ^ (hi + 1 - lo) := by
  simp [rfld, setFld, fld_putFld_same _ _ _ _ h hl]

/-! ### Commands of tiles, words of a schedule -/

/-- A meaning that acts on the chip alone completes there. -/
theorem completes_done {i : Instr} {s : State} {c : Chip} (h : exec i s = done s c) : Completes i s c := h

theorem tile_fetchCe (t u : Nat) (c : Chip) : tile (fetchCe t c) u = tile c u := by
  unfold fetchCe when_
  split <;> rfl

theorem frame_fetchCe {as ts : List Nat} (t : Nat) (c : Chip) (h : Reg.TILE_SRAM_CE t ∈ as) : Frame as ts c (fetchCe t c) := by
  unfold fetchCe when_
  split
  · exact frame_setReg _ _ h (frame_refl ..)
  · exact frame_refl ..

/-- The next word (R103): the pointer moves on, and nothing outside the tile but its count of corrected fetches changes. -/
theorem nextWord_moves {as ts : List Nat} (t : Nat) (c : Chip) (h : Reg.TILE_SRAM_CE t ∈ as) (ht : t ∈ ts) :
    PastWord t c (nextWord t c) ∧ Frame as ts c (nextWord t c) := by
  refine ⟨?_, frame_modTile _ _ ht (frame_fetchCe _ _ h)⟩
  simp [PastWord, nextWord, tile_fetchCe]

/-- A word that waits (R104, R105): the pointer stays, and nothing outside the tile but its count of corrected fetches changes. -/
theorem holdWord_waits {as ts : List Nat} (t : Nat) (c : Chip) (h : Reg.TILE_SRAM_CE t ∈ as) (ht : t ∈ ts) :
    WaitsAtWord t c (holdWord t c) ∧ Frame as ts c (holdWord t c) := by
  refine ⟨?_, frame_modTile _ _ ht (frame_fetchCe _ _ h)⟩
  simp [WaitsAtWord, holdWord, tile_fetchCe]

/-! ### Keyed numbers and lists -/

@[simp] theorem numOf_setNum_same (k n : Nat) (m : Sparse Nat) : numOf (setNum k n m) k = n := by simp [numOf, setNum]

theorem numOf_setNum_ne {k j : Nat} (n : Nat) (m : Sparse Nat) (h : j ≠ k) : numOf (setNum k n m) j = numOf m j := by
  simp [numOf, setNum, mapGet_mapPut_ne _ _ _ h]

@[simp] theorem listOf_setList_same {α : Type} [DecidableEq α] (k : Nat) (l : List α) (m : Sparse (List α)) :
    listOf (setList k l m) k = l := by simp [listOf, setList]

theorem listOf_setList_ne {α : Type} [DecidableEq α] {k j : Nat} (l : List α) (m : Sparse (List α)) (h : j ≠ k) :
    listOf (setList k l m) j = listOf m j := by simp [listOf, setList, mapGet_mapPut_ne _ _ _ h]

end Sys2Proof.Machine
end

