-- ==== Sys2Proof/Laws/Lost.lean ====
section
/-!
SUPPORT. Lost contents (R502): what a memory loses, zeroes or resets leaves its canonical form.
-/

namespace Sys2Proof.Machine

/-- The canonical form depends on the defaults of the listed keys alone. -/
theorem mapWf_congr {β : Type} [DecidableEq β] {d d' : Nat → β} (m : Sparse β) (h : ∀ p, p ∈ m → d p.1 = d' p.1)
    (hw : mapWf d m = true) : mapWf d' m = true := by
  induction m with
  | nil => rfl
  | cons q m ih =>
    obtain ⟨j, v⟩ := q
    obtain ⟨hv, ha, hm⟩ := (mapWf_cons d j v m).1 hw
    refine (mapWf_cons d' j v m).2 ⟨?_, ha, ih (fun p hp => h p (List.mem_cons_of_mem _ hp)) hm⟩
    rw [← h (j, v) List.mem_cons_self]
    exact hv

theorem numOf_mapPut_ne {k j : Nat} (n : Nat) (m : Sparse Nat) (h : j ≠ k) :
    mapGet (fun _ => 0) (mapPut (fun _ => 0) m k n) j = mapGet (fun _ => 0) m j := mapGet_mapPut_ne _ _ _ h

theorem fieldUnit_lt {a f : Nat} (h : fieldUnit a = some f) : f < 64 := by
  unfold fieldUnit at h
  split at h
  · injection h with h
    subst h
    simp only [fieldOf, tileY, tileX]
    omega
  · cases h

/-- The bytes that are not on controller `m` keep their default when its contents are lost. -/
theorem memDefault_loseController (m : Nat) (hm : m < 4) (c : Chip) (n a : Nat) (h : onController c m a = false) :
    memDefault (setNum (if memLinear c then 104 + m else 100 + m) n c.lost) a = memDefault c.lost a := by
  have key : lossAt (setNum (if memLinear c then 104 + m else 100 + m) n c.lost) a = lossAt c.lost a := by
    unfold lossAt
    by_cases ha : a < 2 ^ 37
    · simp only [ha, if_true]
      have hne : (memController c a == m) = false := by
        have h' : (decide (a < 2 ^ 37) && (memController c a == m)) = false := h
        rwa [decide_eq_true ha, Bool.true_and] at h'
      by_cases hl : memLinear c = true
      · have h1 : a / 2 ^ 35 % 4 ≠ m := by simpa [memController, hl] using hne
        have h2 : 104 + a / 2 ^ 35 ≠ 104 + m := by omega
        have h3 : 100 + a / 2048 % 4 ≠ 104 + m := by omega
        simp only [hl, if_true, setNum, numOf_mapPut_ne n c.lost h2, numOf_mapPut_ne n c.lost h3]
      · have h1 : a / 2048 % 4 ≠ m := by simpa [memController, hl] using hne
        have h2 : 104 + a / 2 ^ 35 ≠ 100 + m := by omega
        have h3 : 100 + a / 2048 % 4 ≠ 100 + m := by omega
        simp only [hl, if_false, setNum, numOf_mapPut_ne n c.lost h2, numOf_mapPut_ne n c.lost h3, Bool.false_eq_true]
    · simp only [ha, if_false]
      cases hf : fieldUnit a with
      | none => rfl
      | some f =>
        have := fieldUnit_lt hf
        have hk : f ≠ (if memLinear c then 104 + m else 100 + m) := by split <;> omega
        simp only [setNum, numOf_mapPut_ne n c.lost hk]
  simp only [memDefault, key]

theorem mem_of_eraseMem {p : Nat → Bool} {c : Chip} {x : Host.Cell} (h : x ∈ (eraseMem p c).mem) : x ∈ c.mem ∧ p x.1 = false := by
  simpa [eraseMem] using h

/-- The loss of a controller's contents keeps the canonical form of memory. -/
theorem loseController_keeps_wf (m : Nat) (hm : m < 4) (c : Chip) (h : Memory.wf c.lost c.mem = true) :
    Memory.wf (loseController m c).lost (loseController m c).mem = true := by
  have h0 := eraseMem_keeps_wf (onController c m) c h
  refine mapWf_congr _ (fun x hx => ?_) h0
  exact (memDefault_loseController m hm c _ x.1 (mem_of_eraseMem hx).2).symm

/-- A field reset keeps the canonical form of memory: it erases what the field's default changes for. -/
theorem eraseField_keeps_wf (f : Nat) (hf : f < 64) (c : Chip) (h : Memory.wf c.lost c.mem = true) :
    Memory.wf (setNum f 0 c.lost) (eraseMem (fun a => fieldUnit a == some f) c).mem = true := by
  have h0 := eraseMem_keeps_wf (fun a => fieldUnit a == some f) c h
  refine mapWf_congr _ (fun x hx => ?_) h0
  have hx' := (mem_of_eraseMem hx).2
  have key : lossAt (setNum f 0 c.lost) x.1 = lossAt c.lost x.1 := by
    unfold lossAt
    by_cases ha : x.1 < 2 ^ 37
    · have h2 : 104 + x.1 / 2 ^ 35 ≠ f := by omega
      have h3 : 100 + x.1 / 2048 % 4 ≠ f := by omega
      simp only [ha, if_true, setNum, numOf_mapPut_ne 0 c.lost h2, numOf_mapPut_ne 0 c.lost h3]
    · simp only [ha, if_false]
      cases hu : fieldUnit x.1 with
      | none => rfl
      | some g =>
        have hg : g ≠ f := by rintro rfl; simp [hu] at hx'
        simp only [setNum, numOf_mapPut_ne 0 c.lost hg]
  show memDefault c.lost x.1 = memDefault (setNum f 0 c.lost) x.1
  simp only [memDefault, key]

/-- The memory after reset is in canonical form. -/
theorem reset_memory_wf : Memory.wf State.reset.chip.lost State.reset.chip.mem = true := rfl

end Sys2Proof.Machine
end

