-- ==== Sys2Proof/WellFormed.lean ====
section
/-!
DEFINITION. Well-formed commands: an access is aligned to its size (R17), a command record has 64 bytes (R483), a block
of data fits its window.
-/

namespace Sys2Proof

/-- Whether a command is well formed. -/
def Instr.wf : Instr → Bool
  | .registerWrite _ addr _ wide => addr.toNat % (if wide then 8 else 4) == 0
  | .registerAccessBad _ _ size _ => decide (size ≤ 64)
  | .tick _ _ => true
  | .quiescenceStrobe _ => true
  | .updateGo _ _ => true
  | .forcedUpdateGo _ _ => true
  | .freeTimeout _ _ => true
  | .updateEnd _ _ => true
  | .freeRunTick _ _ => true
  | .tbEnable _ _ => true
  | .tbDisable _ => true
  | .tbStopComplete _ => true
  | .sysrefEdge _ => true
  | .sysrefMiss _ => true
  | .holdoverEdge _ => true
  | .nop _ => true
  | .waitUntil _ _ => true
  | .waitUntilExpire _ _ => true
  | .integrate _ => true
  | .update _ _ => true
  | .emitFlit _ _ => true
  | .emitMessage _ => true
  | .gatherBegin _ => true
  | .gatherEnd _ => true
  | .gatherDone _ _ => true
  | .digest _ => true
  | .traceStep _ => true
  | .mow _ _ _ => true
  | .rotateState _ => true
  | .sampleCheck _ _ => true
  | .census _ => true
  | .endWord _ _ => true
  | .illegalWord _ => true
  | .seqEnSet _ => true
  | .seqEnClear _ => true
  | .fenceSet _ => true
  | .pepperReload _ => true
  | .prime _ => true
  | .sramRetRequest _ _ => true
  | .bankWakeDone _ _ => true
  | .eventArrive _ => true
  | .scatterEvent _ _ => true
  | .gatherInput _ => true
  | .streamReply _ => true
  | .partnerWaitExpire _ => true
  | .cbLoad _ => true
  | .cbLoadDone _ => true
  | .learnIncrement _ => true
  | .feedbackEvent _ => true
  | .labelPush _ _ => true
  | .ckptAck _ => true
  | .mowCountSet _ _ => true
  | .flitRx _ _ _ => true
  | .creditReturn _ _ _ => true
  | .routerWatchdog _ _ _ _ => true
  | .outFenceClear _ _ => true
  | .routeTableWrite _ _ _ => true
  | .injStop _ => true
  | .mgmtRead _ => true
  | .mgmtWrite _ => true
  | .mgmtOpReserved _ => true
  | .mgmtReply _ => true
  | .seamEpochSwitch _ => true
  | .drainGo _ => true
  | .drainDone => true
  | .collectiveRx _ => true
  | .stepCensusDone _ => true
  | .messageHead _ _ => true
  | .messageTail _ _ => true
  | .rptrWrite _ _ _ => true
  | .ringOpen _ _ _ => true
  | .ringClose _ _ => true
  | .columnLoad _ _ => true
  | .tileLoad _ _ => true
  | .bcClear _ => true
  | .loadCensus => true
  | .echo _ => true
  | .echoReply _ => true
  | .linkEnSet _ => true
  | .dataPhase _ _ _ => true
  | .multiblockRx _ _ samples _ => decide (samples.length ≤ 4096)
  | .laneLockLoss _ _ _ => true
  | .portSysrefEdge _ _ => true
  | .encRunSet _ => true
  | .encRunClear _ => true
  | .encoderInject _ _ _ => true
  | .injDeadline _ => true
  | .encoderReplay _ => true
  | .encRouteWrite _ _ _ _ _ => true
  | .qntFreeze _ _ => true
  | .decClear _ => true
  | .resultMessage _ => true
  | .resultRelease _ => true
  | .resultRingWrite _ => true
  | .rrRptrWrite _ _ => true
  | .nlkEnSet _ => true
  | .linkTrained _ _ => true
  | .hello _ _ => true
  | .helloAck _ _ _ => true
  | .ready _ => true
  | .retrain _ => true
  | .retrainFail _ => true
  | .trainRetry _ => true
  | .linkFrameRx _ _ => true
  | .retryRequest _ _ _ => true
  | .retryTimeout _ _ => true
  | .nlkCreditWdog _ _ => true
  | .outboundEvent _ => true
  | .fabricTransit _ _ => true
  | .inboundEvent _ _ => true
  | .fenceMark _ _ => true
  | .endMark _ _ _ => true
  | .barrier _ => true
  | .alignStart _ => true
  | .alignCheck _ => true
  | .fabricCensus _ => true
  | .epochSwitch _ => true
  | .rewind _ => true
  | .rewindCollective _ => true
  | .rewindAckRound _ => true
  | .fabricDrain _ => true
  | .collTimeout _ => true
  | .gwCmdAlignStart _ _ => true
  | .gwCmdEpochSwitch _ _ => true
  | .gwCmdDrain _ _ => true
  | .gwTableCommit _ _ => true
  | .gwTableRead _ _ => true
  | .failReport => true
  | .replayEndStep _ _ => true
  | .resumeWrite _ _ => true
  | .verify => true
  | .verifyDone => true
  | .release => true
  | .abort => true
  | .licGo => true
  | .licDone => true
  | .powerOn _ => true
  | .startStageDone _ _ _ => true
  | .startFail _ => true
  | .startHoldExpire => true
  | .startTimeLimit => true
  | .bootWdogExpire => true
  | .bootWdogKick => true
  | .bootReady _ => true
  | .bootWarm => true
  | .bootCold => true
  | .resetNLow => true
  | .pwrGoodFall => true
  | .perstN => true
  | .rstTile _ => true
  | .rstField _ => true
  | .rstDie _ => true
  | .rstCc _ => true
  | .resetDone => true
  | .fpCommit => true
  | .domainRequest _ _ => true
  | .domainEntryDone _ => true
  | .domainWakeDone _ => true
  | .padRelease _ => true
  | .pointRequest _ _ => true
  | .pointStepDone _ => true
  | .floorWrite _ => true
  | .devRun => true
  | .devHold _ => true
  | .devDeep _ => true
  | .devStateDone => true
  | .thermalSample _ _ _ => true
  | .thermalStep _ => true
  | .thermalDieReset => true
  | .sysClkLoss => true
  | .sysClkRestored => true
  | .runtimeWdogExpire => true
  | .runtimeWdogKick => true
  | .irqLine _ => true
  | .irqClaim _ => true
  | .irqDone _ _ => true
  | .irqPendSet _ _ => true
  | .irqPendClr _ _ => true
  | .irqMaskSet _ _ => true
  | .irqMaskClr _ _ => true
  | .irqSrcWrite _ _ _ => true
  | .msixRequest _ => true
  | .clusterMessage _ => true
  | .timerCount _ => true
  | .timerCountRead _ _ => true
  | .timerEnable _ _ => true
  | .recorderInterval => true
  | .recNote _ _ => true
  | .mirror => true
  | .mirrorDone _ => true
  | .secGo _ _ => true
  | .secStatus => true
  | .secSelftest _ => true
  | .secAttest => true
  | .secFwUpdate => true
  | .secKeyLoad => true
  | .secKeyClear => true
  | .secRevoke => true
  | .secDebugUnlock => true
  | .secZeroize => true
  | .secCoreStart => true
  | .secRandom => true
  | .secUnknownOp => true
  | .commandPost _ _ record => record.length == 64
  | .cqTake _ _ => true
  | .cqComplete _ _ _ => true
  | .cmdNop _ => true
  | .cmdImgLoad _ => true
  | .cmdJobStop _ => true
  | .cmdLabel _ => true
  | .cmdFreeze _ => true
  | .cmdLicence _ => true
  | .cmdDeviceState _ => true
  | .bar0Write off _ wide => off.toNat % (if wide then 8 else 4) == 0
  | .bar2Access _ write data len => decide (len ≤ 4096) && (!write || data.length == len)
  | .apertureBaseWrite _ => true
  | .functionLevelReset => true
  | .recoveryPiece _ => true
  | .memRequest _ => true
  | .streamRead _ => true
  | .scrubRead _ => true
  | .regionWrite _ _ _ => true
  | .i3cIndexWrite _ => true
  | .i3cRead => true
  | .i3cIbi => true
  | .opticalLaneLosesLock _ _ => true
  | .pcieLinkDown => true
  | .pcieLinkUp _ _ => true
  | .emptyReportTimeout _ => true
  | .inboundPacket _ _ _ => true
  | .outboundPacket _ _ => true
  | .msixUnmask _ _ _ _ => true
  | .resultRingEnable _ _ => true
  | .controllerTrained _ _ => true

/-- How many data items a command carries: bytes, or converter samples. -/
def Instr.payload : Instr → Nat
  | .registerWrite _ _ _ _ => 0
  | .registerAccessBad _ _ _ _ => 0
  | .tick _ _ => 0
  | .quiescenceStrobe _ => 0
  | .updateGo _ _ => 0
  | .forcedUpdateGo _ _ => 0
  | .freeTimeout _ _ => 0
  | .updateEnd _ _ => 0
  | .freeRunTick _ _ => 0
  | .tbEnable _ _ => 0
  | .tbDisable _ => 0
  | .tbStopComplete _ => 0
  | .sysrefEdge _ => 0
  | .sysrefMiss _ => 0
  | .holdoverEdge _ => 0
  | .nop _ => 0
  | .waitUntil _ _ => 0
  | .waitUntilExpire _ _ => 0
  | .integrate _ => 0
  | .update _ _ => 0
  | .emitFlit _ _ => 0
  | .emitMessage _ => 0
  | .gatherBegin _ => 0
  | .gatherEnd _ => 0
  | .gatherDone _ _ => 0
  | .digest _ => 0
  | .traceStep _ => 0
  | .mow _ _ _ => 0
  | .rotateState _ => 0
  | .sampleCheck _ _ => 0
  | .census _ => 0
  | .endWord _ _ => 0
  | .illegalWord _ => 0
  | .seqEnSet _ => 0
  | .seqEnClear _ => 0
  | .fenceSet _ => 0
  | .pepperReload _ => 0
  | .prime _ => 0
  | .sramRetRequest _ _ => 0
  | .bankWakeDone _ _ => 0
  | .eventArrive _ => 0
  | .scatterEvent _ _ => 0
  | .gatherInput _ => 0
  | .streamReply _ => 0
  | .partnerWaitExpire _ => 0
  | .cbLoad _ => 0
  | .cbLoadDone _ => 0
  | .learnIncrement _ => 0
  | .feedbackEvent _ => 0
  | .labelPush _ _ => 0
  | .ckptAck _ => 0
  | .mowCountSet _ _ => 0
  | .flitRx _ _ _ => 0
  | .creditReturn _ _ _ => 0
  | .routerWatchdog _ _ _ _ => 0
  | .outFenceClear _ _ => 0
  | .routeTableWrite _ _ _ => 0
  | .injStop _ => 0
  | .mgmtRead _ => 0
  | .mgmtWrite _ => 0
  | .mgmtOpReserved _ => 0
  | .mgmtReply _ => 0
  | .seamEpochSwitch _ => 0
  | .drainGo _ => 0
  | .drainDone => 0
  | .collectiveRx _ => 0
  | .stepCensusDone _ => 0
  | .messageHead _ _ => 0
  | .messageTail _ _ => 0
  | .rptrWrite _ _ _ => 0
  | .ringOpen _ _ _ => 0
  | .ringClose _ _ => 0
  | .columnLoad _ _ => 0
  | .tileLoad _ _ => 0
  | .bcClear _ => 0
  | .loadCensus => 0
  | .echo _ => 0
  | .echoReply _ => 0
  | .linkEnSet _ => 0
  | .dataPhase _ _ _ => 0
  | .multiblockRx _ _ samples _ => samples.length
  | .laneLockLoss _ _ _ => 0
  | .portSysrefEdge _ _ => 0
  | .encRunSet _ => 0
  | .encRunClear _ => 0
  | .encoderInject _ _ _ => 0
  | .injDeadline _ => 0
  | .encoderReplay _ => 0
  | .encRouteWrite _ _ _ _ _ => 0
  | .qntFreeze _ _ => 0
  | .decClear _ => 0
  | .resultMessage _ => 0
  | .resultRelease _ => 0
  | .resultRingWrite _ => 0
  | .rrRptrWrite _ _ => 0
  | .nlkEnSet _ => 0
  | .linkTrained _ _ => 0
  | .hello _ _ => 0
  | .helloAck _ _ _ => 0
  | .ready _ => 0
  | .retrain _ => 0
  | .retrainFail _ => 0
  | .trainRetry _ => 0
  | .linkFrameRx _ _ => 0
  | .retryRequest _ _ _ => 0
  | .retryTimeout _ _ => 0
  | .nlkCreditWdog _ _ => 0
  | .outboundEvent _ => 0
  | .fabricTransit _ _ => 0
  | .inboundEvent _ _ => 0
  | .fenceMark _ _ => 0
  | .endMark _ _ _ => 0
  | .barrier _ => 0
  | .alignStart _ => 0
  | .alignCheck _ => 0
  | .fabricCensus _ => 0
  | .epochSwitch _ => 0
  | .rewind _ => 0
  | .rewindCollective _ => 0
  | .rewindAckRound _ => 0
  | .fabricDrain _ => 0
  | .collTimeout _ => 0
  | .gwCmdAlignStart _ _ => 0
  | .gwCmdEpochSwitch _ _ => 0
  | .gwCmdDrain _ _ => 0
  | .gwTableCommit _ _ => 0
  | .gwTableRead _ _ => 0
  | .failReport => 0
  | .replayEndStep _ _ => 0
  | .resumeWrite _ _ => 0
  | .verify => 0
  | .verifyDone => 0
  | .release => 0
  | .abort => 0
  | .licGo => 0
  | .licDone => 0
  | .powerOn _ => 0
  | .startStageDone _ _ _ => 0
  | .startFail _ => 0
  | .startHoldExpire => 0
  | .startTimeLimit => 0
  | .bootWdogExpire => 0
  | .bootWdogKick => 0
  | .bootReady _ => 0
  | .bootWarm => 0
  | .bootCold => 0
  | .resetNLow => 0
  | .pwrGoodFall => 0
  | .perstN => 0
  | .rstTile _ => 0
  | .rstField _ => 0
  | .rstDie _ => 0
  | .rstCc _ => 0
  | .resetDone => 0
  | .fpCommit => 0
  | .domainRequest _ _ => 0
  | .domainEntryDone _ => 0
  | .domainWakeDone _ => 0
  | .padRelease _ => 0
  | .pointRequest _ _ => 0
  | .pointStepDone _ => 0
  | .floorWrite _ => 0
  | .devRun => 0
  | .devHold _ => 0
  | .devDeep _ => 0
  | .devStateDone => 0
  | .thermalSample _ _ _ => 0
  | .thermalStep _ => 0
  | .thermalDieReset => 0
  | .sysClkLoss => 0
  | .sysClkRestored => 0
  | .runtimeWdogExpire => 0
  | .runtimeWdogKick => 0
  | .irqLine _ => 0
  | .irqClaim _ => 0
  | .irqDone _ _ => 0
  | .irqPendSet _ _ => 0
  | .irqPendClr _ _ => 0
  | .irqMaskSet _ _ => 0
  | .irqMaskClr _ _ => 0
  | .irqSrcWrite _ _ _ => 0
  | .msixRequest _ => 0
  | .clusterMessage _ => 0
  | .timerCount _ => 0
  | .timerCountRead _ _ => 0
  | .timerEnable _ _ => 0
  | .recorderInterval => 0
  | .recNote _ _ => 0
  | .mirror => 0
  | .mirrorDone _ => 0
  | .secGo _ _ => 0
  | .secStatus => 0
  | .secSelftest _ => 0
  | .secAttest => 0
  | .secFwUpdate => 0
  | .secKeyLoad => 0
  | .secKeyClear => 0
  | .secRevoke => 0
  | .secDebugUnlock => 0
  | .secZeroize => 0
  | .secCoreStart => 0
  | .secRandom => 0
  | .secUnknownOp => 0
  | .commandPost _ _ record => record.length
  | .cqTake _ _ => 0
  | .cqComplete _ _ _ => 0
  | .cmdNop _ => 0
  | .cmdImgLoad _ => 0
  | .cmdJobStop _ => 0
  | .cmdLabel _ => 0
  | .cmdFreeze _ => 0
  | .cmdLicence _ => 0
  | .cmdDeviceState _ => 0
  | .bar0Write _ _ _ => 0
  | .bar2Access _ write data _ => if write then data.length else 0
  | .apertureBaseWrite _ => 0
  | .functionLevelReset => 0
  | .recoveryPiece _ => 0
  | .memRequest _ => 0
  | .streamRead _ => 0
  | .scrubRead _ => 0
  | .regionWrite _ _ _ => 0
  | .i3cIndexWrite _ => 0
  | .i3cRead => 0
  | .i3cIbi => 0
  | .opticalLaneLosesLock _ _ => 0
  | .pcieLinkDown => 0
  | .pcieLinkUp _ _ => 0
  | .emptyReportTimeout _ => 0
  | .inboundPacket _ _ _ => 0
  | .outboundPacket _ _ => 0
  | .msixUnmask _ _ _ _ => 0
  | .resultRingEnable _ _ => 0
  | .controllerTrained _ _ => 0

end Sys2Proof
end

