-- ==== Sys2Proof/Laws/PerInstr.lean ====
section
/-!
SUPPORT. Per command: a well-formed command carries at most 4,096 data items.
-/

namespace Sys2Proof.Laws.Bounded

/-- A well-formed command carries at most 4,096 data items. -/
def Statement (i : Instr) : Prop := i.wf = true → i.payload ≤ 4096

theorem registerWrite (who : Initiator) (addr : BitVec 48) (value : DWord) (wide : Bool) : Statement (.registerWrite who addr value wide) := fun _ => Nat.zero_le _
theorem registerAccessBad (who : Initiator) (addr : BitVec 48) (size : Nat) (write : Bool) : Statement (.registerAccessBad who addr size write) := fun _ => Nat.zero_le _
theorem tick (j : Fin 16) (now : Nat) : Statement (.tick j now) := fun _ => Nat.zero_le _
theorem quiescenceStrobe (now : Nat) : Statement (.quiescenceStrobe now) := fun _ => Nat.zero_le _
theorem updateGo (j : Fin 16) (now : Nat) : Statement (.updateGo j now) := fun _ => Nat.zero_le _
theorem forcedUpdateGo (j : Fin 16) (now : Nat) : Statement (.forcedUpdateGo j now) := fun _ => Nat.zero_le _
theorem freeTimeout (j : Fin 16) (now : Nat) : Statement (.freeTimeout j now) := fun _ => Nat.zero_le _
theorem updateEnd (j : Fin 16) (now : Nat) : Statement (.updateEnd j now) := fun _ => Nat.zero_le _
theorem freeRunTick (j : Fin 16) (now : Nat) : Statement (.freeRunTick j now) := fun _ => Nat.zero_le _
theorem tbEnable (j : Fin 16) (value : Word) : Statement (.tbEnable j value) := fun _ => Nat.zero_le _
theorem tbDisable (j : Fin 16) : Statement (.tbDisable j) := fun _ => Nat.zero_le _
theorem tbStopComplete (j : Fin 16) : Statement (.tbStopComplete j) := fun _ => Nat.zero_le _
theorem sysrefEdge (at_ : Nat) : Statement (.sysrefEdge at_) := fun _ => Nat.zero_le _
theorem sysrefMiss (at_ : Nat) : Statement (.sysrefMiss at_) := fun _ => Nat.zero_le _
theorem holdoverEdge (at_ : Nat) : Statement (.holdoverEdge at_) := fun _ => Nat.zero_le _
theorem nop (t : Fin 8192) : Statement (.nop t) := fun _ => Nat.zero_le _
theorem waitUntil (t : Fin 8192) (now : Nat) : Statement (.waitUntil t now) := fun _ => Nat.zero_le _
theorem waitUntilExpire (t : Fin 8192) (now : Nat) : Statement (.waitUntilExpire t now) := fun _ => Nat.zero_le _
theorem integrate (t : Fin 8192) : Statement (.integrate t) := fun _ => Nat.zero_le _
theorem update (t : Fin 8192) (clk : Nat) : Statement (.update t clk) := fun _ => Nat.zero_le _
theorem emitFlit (t : Fin 8192) (clk : Nat) : Statement (.emitFlit t clk) := fun _ => Nat.zero_le _
theorem emitMessage (t : Fin 8192) : Statement (.emitMessage t) := fun _ => Nat.zero_le _
theorem gatherBegin (t : Fin 8192) : Statement (.gatherBegin t) := fun _ => Nat.zero_le _
theorem gatherEnd (t : Fin 8192) : Statement (.gatherEnd t) := fun _ => Nat.zero_le _
theorem gatherDone (t : Fin 8192) (clk : Nat) : Statement (.gatherDone t clk) := fun _ => Nat.zero_le _
theorem digest (t : Fin 8192) : Statement (.digest t) := fun _ => Nat.zero_le _
theorem traceStep (t : Fin 8192) : Statement (.traceStep t) := fun _ => Nat.zero_le _
theorem mow (t : Fin 8192) (n : Nat) (clk : Nat) : Statement (.mow t n clk) := fun _ => Nat.zero_le _
theorem rotateState (t : Fin 8192) : Statement (.rotateState t) := fun _ => Nat.zero_le _
theorem sampleCheck (t : Fin 8192) (agree : Bool) : Statement (.sampleCheck t agree) := fun _ => Nat.zero_le _
theorem census (t : Fin 8192) : Statement (.census t) := fun _ => Nat.zero_le _
theorem endWord (t : Fin 8192) (clk : Nat) : Statement (.endWord t clk) := fun _ => Nat.zero_le _
theorem illegalWord (t : Fin 8192) : Statement (.illegalWord t) := fun _ => Nat.zero_le _
theorem seqEnSet (t : Fin 8192) : Statement (.seqEnSet t) := fun _ => Nat.zero_le _
theorem seqEnClear (t : Fin 8192) : Statement (.seqEnClear t) := fun _ => Nat.zero_le _
theorem fenceSet (t : Fin 8192) : Statement (.fenceSet t) := fun _ => Nat.zero_le _
theorem pepperReload (t : Fin 8192) : Statement (.pepperReload t) := fun _ => Nat.zero_le _
theorem prime (t : Fin 8192) : Statement (.prime t) := fun _ => Nat.zero_le _
theorem sramRetRequest (t : Fin 8192) (banks : Byte) : Statement (.sramRetRequest t banks) := fun _ => Nat.zero_le _
theorem bankWakeDone (t : Fin 8192) (bank : Fin 8) : Statement (.bankWakeDone t bank) := fun _ => Nat.zero_le _
theorem eventArrive (t : Fin 8192) : Statement (.eventArrive t) := fun _ => Nat.zero_le _
theorem scatterEvent (t : Fin 8192) (n : Nat) : Statement (.scatterEvent t n) := fun _ => Nat.zero_le _
theorem gatherInput (t : Fin 8192) : Statement (.gatherInput t) := fun _ => Nat.zero_le _
theorem streamReply (t : Fin 8192) : Statement (.streamReply t) := fun _ => Nat.zero_le _
theorem partnerWaitExpire (t : Fin 8192) : Statement (.partnerWaitExpire t) := fun _ => Nat.zero_le _
theorem cbLoad (t : Fin 8192) : Statement (.cbLoad t) := fun _ => Nat.zero_le _
theorem cbLoadDone (t : Fin 8192) : Statement (.cbLoadDone t) := fun _ => Nat.zero_le _
theorem learnIncrement (t : Fin 8192) : Statement (.learnIncrement t) := fun _ => Nat.zero_le _
theorem feedbackEvent (t : Fin 8192) : Statement (.feedbackEvent t) := fun _ => Nat.zero_le _
theorem labelPush (t : Fin 8192) (value : Word) : Statement (.labelPush t value) := fun _ => Nat.zero_le _
theorem ckptAck (t : Fin 8192) : Statement (.ckptAck t) := fun _ => Nat.zero_le _
theorem mowCountSet (t : Fin 8192) (value : Word) : Statement (.mowCountSet t value) := fun _ => Nat.zero_le _
theorem flitRx (t : Fin 8192) (port : Fin 6) (vc : Fin 6) : Statement (.flitRx t port vc) := fun _ => Nat.zero_le _
theorem creditReturn (t : Fin 8192) (port : Fin 6) (vc : Fin 6) : Statement (.creditReturn t port vc) := fun _ => Nat.zero_le _
theorem routerWatchdog (t : Fin 8192) (port : Fin 6) (vc : Fin 6) (waited : Nat) : Statement (.routerWatchdog t port vc waited) := fun _ => Nat.zero_le _
theorem outFenceClear (t : Fin 8192) (port : Fin 6) : Statement (.outFenceClear t port) := fun _ => Nat.zero_le _
theorem routeTableWrite (t : Fin 8192) (off : BitVec 12) (value : Word) : Statement (.routeTableWrite t off value) := fun _ => Nat.zero_le _
theorem injStop (t : Fin 8192) : Statement (.injStop t) := fun _ => Nat.zero_le _
theorem mgmtRead (target : Target) : Statement (.mgmtRead target) := fun _ => Nat.zero_le _
theorem mgmtWrite (target : Target) : Statement (.mgmtWrite target) := fun _ => Nat.zero_le _
theorem mgmtOpReserved (target : Target) : Statement (.mgmtOpReserved target) := fun _ => Nat.zero_le _
theorem mgmtReply (target : Target) : Statement (.mgmtReply target) := fun _ => Nat.zero_le _
theorem seamEpochSwitch (value : Word) : Statement (.seamEpochSwitch value) := fun _ => Nat.zero_le _
theorem drainGo (value : Word) : Statement (.drainGo value) := fun _ => Nat.zero_le _
theorem drainDone : Statement (.drainDone) := fun _ => Nat.zero_le _
theorem collectiveRx (t : Fin 8192) : Statement (.collectiveRx t) := fun _ => Nat.zero_le _
theorem stepCensusDone (j : Fin 16) : Statement (.stepCensusDone j) := fun _ => Nat.zero_le _
theorem messageHead (t : Fin 8192) (port : Fin 6) : Statement (.messageHead t port) := fun _ => Nat.zero_le _
theorem messageTail (t : Fin 8192) (slot : Fin 4) : Statement (.messageTail t slot) := fun _ => Nat.zero_le _
theorem rptrWrite (t : Fin 8192) (n : Fin 64) (value : Word) : Statement (.rptrWrite t n value) := fun _ => Nat.zero_le _
theorem ringOpen (t : Fin 8192) (n : Fin 64) (value : Word) : Statement (.ringOpen t n value) := fun _ => Nat.zero_le _
theorem ringClose (t : Fin 8192) (n : Fin 64) : Statement (.ringClose t n) := fun _ => Nat.zero_le _
theorem columnLoad (t : Fin 8192) (busy : Bool) : Statement (.columnLoad t busy) := fun _ => Nat.zero_le _
theorem tileLoad (t : Fin 8192) (busy : Bool) : Statement (.tileLoad t busy) := fun _ => Nat.zero_le _
theorem bcClear (t : Fin 8192) : Statement (.bcClear t) := fun _ => Nat.zero_le _
theorem loadCensus : Statement (.loadCensus) := fun _ => Nat.zero_le _
theorem echo (t : Fin 8192) : Statement (.echo t) := fun _ => Nat.zero_le _
theorem echoReply (target : Target) : Statement (.echoReply target) := fun _ => Nat.zero_le _
theorem linkEnSet (p : Fin 16) : Statement (.linkEnSet p) := fun _ => Nat.zero_le _
theorem dataPhase (p : Fin 16) (skew : Bool) (now : Nat) : Statement (.dataPhase p skew now) := fun _ => Nat.zero_le _
theorem multiblockRx (p : Fin 16) (now : Nat) (samples : List (BitVec 16)) (bad : Bool) : Statement (.multiblockRx p now samples bad) := by
  simp_all [Statement, Instr.wf, Instr.payload]
theorem laneLockLoss (p : Fin 16) (lane : Fin 4) (now : Nat) : Statement (.laneLockLoss p lane now) := fun _ => Nat.zero_le _
theorem portSysrefEdge (p : Fin 16) (aligned : Bool) : Statement (.portSysrefEdge p aligned) := fun _ => Nat.zero_le _
theorem encRunSet (p : Fin 16) : Statement (.encRunSet p) := fun _ => Nat.zero_le _
theorem encRunClear (p : Fin 16) : Statement (.encRunClear p) := fun _ => Nat.zero_le _
theorem encoderInject (p : Fin 16) (tap : Fin 2) (now : Nat) : Statement (.encoderInject p tap now) := fun _ => Nat.zero_le _
theorem injDeadline (p : Fin 16) : Statement (.injDeadline p) := fun _ => Nat.zero_le _
theorem encoderReplay (p : Fin 16) : Statement (.encoderReplay p) := fun _ => Nat.zero_le _
theorem encRouteWrite (p : Fin 16) (set : Fin 2) (n : Fin 32) (word : Fin 4) (value : Word) : Statement (.encRouteWrite p set n word value) := fun _ => Nat.zero_le _
theorem qntFreeze (p : Fin 16) (hold : Bool) : Statement (.qntFreeze p hold) := fun _ => Nat.zero_le _
theorem decClear (t : Fin 8192) : Statement (.decClear t) := fun _ => Nat.zero_le _
theorem resultMessage (k : Fin 8) : Statement (.resultMessage k) := fun _ => Nat.zero_le _
theorem resultRelease (p : Fin 16) : Statement (.resultRelease p) := fun _ => Nat.zero_le _
theorem resultRingWrite (p : Fin 16) : Statement (.resultRingWrite p) := fun _ => Nat.zero_le _
theorem rrRptrWrite (p : Fin 16) (value : Word) : Statement (.rrRptrWrite p value) := fun _ => Nat.zero_le _
theorem nlkEnSet (e : Fin 8) : Statement (.nlkEnSet e) := fun _ => Nat.zero_le _
theorem linkTrained (e : Fin 8) (lanes : Byte) : Statement (.linkTrained e lanes) := fun _ => Nat.zero_le _
theorem hello (e : Fin 8) (frame : BitVec 256) : Statement (.hello e frame) := fun _ => Nat.zero_le _
theorem helloAck (e : Fin 8) (frame : BitVec 256) (rtt : Nat) : Statement (.helloAck e frame rtt) := fun _ => Nat.zero_le _
theorem ready (e : Fin 8) : Statement (.ready e) := fun _ => Nat.zero_le _
theorem retrain (e : Fin 8) : Statement (.retrain e) := fun _ => Nat.zero_le _
theorem retrainFail (e : Fin 8) : Statement (.retrainFail e) := fun _ => Nat.zero_le _
theorem trainRetry (e : Fin 8) : Statement (.trainRetry e) := fun _ => Nat.zero_le _
theorem linkFrameRx (e : Fin 8) (frame : BitVec 256) : Statement (.linkFrameRx e frame) := fun _ => Nat.zero_le _
theorem retryRequest (e : Fin 8) (frame : BitVec 256) (recent : Nat) : Statement (.retryRequest e frame recent) := fun _ => Nat.zero_le _
theorem retryTimeout (e : Fin 8) (recent : Nat) : Statement (.retryTimeout e recent) := fun _ => Nat.zero_le _
theorem nlkCreditWdog (e : Fin 8) (v : Fin 10) : Statement (.nlkCreditWdog e v) := fun _ => Nat.zero_le _
theorem outboundEvent (k : Fin 96) : Statement (.outboundEvent k) := fun _ => Nat.zero_le _
theorem fabricTransit (e : Fin 8) (v : Fin 10) : Statement (.fabricTransit e v) := fun _ => Nat.zero_le _
theorem inboundEvent (e : Fin 8) (v : Fin 10) : Statement (.inboundEvent e v) := fun _ => Nat.zero_le _
theorem fenceMark (e : Fin 8) (v : Fin 10) : Statement (.fenceMark e v) := fun _ => Nat.zero_le _
theorem endMark (e : Fin 8) (v : Fin 10) (now : Nat) : Statement (.endMark e v now) := fun _ => Nat.zero_le _
theorem barrier (job : Fin 16) : Statement (.barrier job) := fun _ => Nat.zero_le _
theorem alignStart (job : Fin 16) : Statement (.alignStart job) := fun _ => Nat.zero_le _
theorem alignCheck (job : Fin 16) : Statement (.alignCheck job) := fun _ => Nat.zero_le _
theorem fabricCensus (job : Fin 16) : Statement (.fabricCensus job) := fun _ => Nat.zero_le _
theorem epochSwitch (job : Fin 16) : Statement (.epochSwitch job) := fun _ => Nat.zero_le _
theorem rewind (job : Fin 16) : Statement (.rewind job) := fun _ => Nat.zero_le _
theorem rewindCollective (job : Fin 16) : Statement (.rewindCollective job) := fun _ => Nat.zero_le _
theorem rewindAckRound (job : Fin 16) : Statement (.rewindAckRound job) := fun _ => Nat.zero_le _
theorem fabricDrain (job : Fin 16) : Statement (.fabricDrain job) := fun _ => Nat.zero_le _
theorem collTimeout (job : Fin 16) : Statement (.collTimeout job) := fun _ => Nat.zero_le _
theorem gwCmdAlignStart (job : Fin 16) (value : Word) : Statement (.gwCmdAlignStart job value) := fun _ => Nat.zero_le _
theorem gwCmdEpochSwitch (job : Fin 16) (value : Word) : Statement (.gwCmdEpochSwitch job value) := fun _ => Nat.zero_le _
theorem gwCmdDrain (job : Fin 16) (value : Word) : Statement (.gwCmdDrain job value) := fun _ => Nat.zero_le _
theorem gwTableCommit (out : Bool) (value : Word) : Statement (.gwTableCommit out value) := fun _ => Nat.zero_le _
theorem gwTableRead (out : Bool) (high : Bool) : Statement (.gwTableRead out high) := fun _ => Nat.zero_le _
theorem failReport : Statement (.failReport) := fun _ => Nat.zero_le _
theorem replayEndStep (job : Fin 16) (now : Nat) : Statement (.replayEndStep job now) := fun _ => Nat.zero_le _
theorem resumeWrite (job : Fin 16) (value : Word) : Statement (.resumeWrite job value) := fun _ => Nat.zero_le _
theorem verify : Statement (.verify) := fun _ => Nat.zero_le _
theorem verifyDone : Statement (.verifyDone) := fun _ => Nat.zero_le _
theorem release : Statement (.release) := fun _ => Nat.zero_le _
theorem abort : Statement (.abort) := fun _ => Nat.zero_le _
theorem licGo : Statement (.licGo) := fun _ => Nat.zero_le _
theorem licDone : Statement (.licDone) := fun _ => Nat.zero_le _
theorem powerOn (strap : Bool) : Statement (.powerOn strap) := fun _ => Nat.zero_le _
theorem startStageDone (ms : Nat) (cause : Nat) (defects : List Word) : Statement (.startStageDone ms cause defects) := fun _ => Nat.zero_le _
theorem startFail (cause : Nat) : Statement (.startFail cause) := fun _ => Nat.zero_le _
theorem startHoldExpire : Statement (.startHoldExpire) := fun _ => Nat.zero_le _
theorem startTimeLimit : Statement (.startTimeLimit) := fun _ => Nat.zero_le _
theorem bootWdogExpire : Statement (.bootWdogExpire) := fun _ => Nat.zero_le _
theorem bootWdogKick : Statement (.bootWdogKick) := fun _ => Nat.zero_le _
theorem bootReady (ms : Nat) : Statement (.bootReady ms) := fun _ => Nat.zero_le _
theorem bootWarm : Statement (.bootWarm) := fun _ => Nat.zero_le _
theorem bootCold : Statement (.bootCold) := fun _ => Nat.zero_le _
theorem resetNLow : Statement (.resetNLow) := fun _ => Nat.zero_le _
theorem pwrGoodFall : Statement (.pwrGoodFall) := fun _ => Nat.zero_le _
theorem perstN : Statement (.perstN) := fun _ => Nat.zero_le _
theorem rstTile (value : Word) : Statement (.rstTile value) := fun _ => Nat.zero_le _
theorem rstField (value : Word) : Statement (.rstField value) := fun _ => Nat.zero_le _
theorem rstDie (value : Word) : Statement (.rstDie value) := fun _ => Nat.zero_le _
theorem rstCc (value : Word) : Statement (.rstCc value) := fun _ => Nat.zero_le _
theorem resetDone : Statement (.resetDone) := fun _ => Nat.zero_le _
theorem fpCommit : Statement (.fpCommit) := fun _ => Nat.zero_le _
theorem domainRequest (d : Fin 96) (value : Word) : Statement (.domainRequest d value) := fun _ => Nat.zero_le _
theorem domainEntryDone (d : Fin 96) : Statement (.domainEntryDone d) := fun _ => Nat.zero_le _
theorem domainWakeDone (d : Fin 96) : Statement (.domainWakeDone d) := fun _ => Nat.zero_le _
theorem padRelease (value : Word) : Statement (.padRelease value) := fun _ => Nat.zero_le _
theorem pointRequest (east : Bool) (value : Word) : Statement (.pointRequest east value) := fun _ => Nat.zero_le _
theorem pointStepDone (east : Bool) : Statement (.pointStepDone east) := fun _ => Nat.zero_le _
theorem floorWrite (value : Word) : Statement (.floorWrite value) := fun _ => Nat.zero_le _
theorem devRun : Statement (.devRun) := fun _ => Nat.zero_le _
theorem devHold (value : Word) : Statement (.devHold value) := fun _ => Nat.zero_le _
theorem devDeep (value : Word) : Statement (.devDeep value) := fun _ => Nat.zero_le _
theorem devStateDone : Statement (.devStateDone) := fun _ => Nat.zero_le _
theorem thermalSample (west : Int) (east : Int) (io : Int) : Statement (.thermalSample west east io) := fun _ => Nat.zero_le _
theorem thermalStep (east : Bool) : Statement (.thermalStep east) := fun _ => Nat.zero_le _
theorem thermalDieReset : Statement (.thermalDieReset) := fun _ => Nat.zero_le _
theorem sysClkLoss : Statement (.sysClkLoss) := fun _ => Nat.zero_le _
theorem sysClkRestored : Statement (.sysClkRestored) := fun _ => Nat.zero_le _
theorem runtimeWdogExpire : Statement (.runtimeWdogExpire) := fun _ => Nat.zero_le _
theorem runtimeWdogKick : Statement (.runtimeWdogKick) := fun _ => Nat.zero_le _
theorem irqLine (src : Fin 512) : Statement (.irqLine src) := fun _ => Nat.zero_le _
theorem irqClaim (k : Fin 6) : Statement (.irqClaim k) := fun _ => Nat.zero_le _
theorem irqDone (k : Fin 6) (value : Word) : Statement (.irqDone k value) := fun _ => Nat.zero_le _
theorem irqPendSet (w : Fin 16) (value : Word) : Statement (.irqPendSet w value) := fun _ => Nat.zero_le _
theorem irqPendClr (w : Fin 16) (value : Word) : Statement (.irqPendClr w value) := fun _ => Nat.zero_le _
theorem irqMaskSet (w : Fin 16) (value : Word) : Statement (.irqMaskSet w value) := fun _ => Nat.zero_le _
theorem irqMaskClr (w : Fin 16) (value : Word) : Statement (.irqMaskClr w value) := fun _ => Nat.zero_le _
theorem irqSrcWrite (who : Initiator) (n : Fin 512) (value : Word) : Statement (.irqSrcWrite who n value) := fun _ => Nat.zero_le _
theorem msixRequest (v : Fin 64) : Statement (.msixRequest v) := fun _ => Nat.zero_le _
theorem clusterMessage (k : Fin 8) : Statement (.clusterMessage k) := fun _ => Nat.zero_le _
theorem timerCount (n : Fin 16) : Statement (.timerCount n) := fun _ => Nat.zero_le _
theorem timerCountRead (who : Initiator) (n : Fin 16) : Statement (.timerCountRead who n) := fun _ => Nat.zero_le _
theorem timerEnable (n : Fin 16) (value : Word) : Statement (.timerEnable n value) := fun _ => Nat.zero_le _
theorem recorderInterval : Statement (.recorderInterval) := fun _ => Nat.zero_le _
theorem recNote (who : Initiator) (value : Word) : Statement (.recNote who value) := fun _ => Nat.zero_le _
theorem mirror : Statement (.mirror) := fun _ => Nat.zero_le _
theorem mirrorDone (ok : Bool) : Statement (.mirrorDone ok) := fun _ => Nat.zero_le _
theorem secGo (m : Fin 2) (value : Word) : Statement (.secGo m value) := fun _ => Nat.zero_le _
theorem secStatus : Statement (.secStatus) := fun _ => Nat.zero_le _
theorem secSelftest (failed : Word) : Statement (.secSelftest failed) := fun _ => Nat.zero_le _
theorem secAttest : Statement (.secAttest) := fun _ => Nat.zero_le _
theorem secFwUpdate : Statement (.secFwUpdate) := fun _ => Nat.zero_le _
theorem secKeyLoad : Statement (.secKeyLoad) := fun _ => Nat.zero_le _
theorem secKeyClear : Statement (.secKeyClear) := fun _ => Nat.zero_le _
theorem secRevoke : Statement (.secRevoke) := fun _ => Nat.zero_le _
theorem secDebugUnlock : Statement (.secDebugUnlock) := fun _ => Nat.zero_le _
theorem secZeroize : Statement (.secZeroize) := fun _ => Nat.zero_le _
theorem secCoreStart : Statement (.secCoreStart) := fun _ => Nat.zero_le _
theorem secRandom : Statement (.secRandom) := fun _ => Nat.zero_le _
theorem secUnknownOp : Statement (.secUnknownOp) := fun _ => Nat.zero_le _
theorem commandPost (q : Fin 32) (slot : Fin 256) (record : List Byte) : Statement (.commandPost q slot record) := by
  simp only [Statement, Instr.wf, Instr.payload, beq_iff_eq]
  omega
theorem cqTake (who : Initiator) (q : Fin 32) : Statement (.cqTake who q) := fun _ => Nat.zero_le _
theorem cqComplete (who : Initiator) (q : Fin 32) (value : Word) : Statement (.cqComplete who q value) := fun _ => Nat.zero_le _
theorem cmdNop (q : Fin 32) : Statement (.cmdNop q) := fun _ => Nat.zero_le _
theorem cmdImgLoad (q : Fin 32) : Statement (.cmdImgLoad q) := fun _ => Nat.zero_le _
theorem cmdJobStop (q : Fin 32) : Statement (.cmdJobStop q) := fun _ => Nat.zero_le _
theorem cmdLabel (q : Fin 32) : Statement (.cmdLabel q) := fun _ => Nat.zero_le _
theorem cmdFreeze (q : Fin 32) : Statement (.cmdFreeze q) := fun _ => Nat.zero_le _
theorem cmdLicence (q : Fin 32) : Statement (.cmdLicence q) := fun _ => Nat.zero_le _
theorem cmdDeviceState (q : Fin 32) : Statement (.cmdDeviceState q) := fun _ => Nat.zero_le _
theorem bar0Write (off : BitVec 26) (value : DWord) (wide : Bool) : Statement (.bar0Write off value wide) := fun _ => Nat.zero_le _
theorem bar2Access (off : BitVec 32) (write : Bool) (data : List Byte) (len : Nat) : Statement (.bar2Access off write data len) := by
  cases write <;> simp [Statement, Instr.wf, Instr.payload] <;> omega
theorem apertureBaseWrite (value : Word) : Statement (.apertureBaseWrite value) := fun _ => Nat.zero_le _
theorem functionLevelReset : Statement (.functionLevelReset) := fun _ => Nat.zero_le _
theorem recoveryPiece (value : Word) : Statement (.recoveryPiece value) := fun _ => Nat.zero_le _
theorem memRequest (m : Fin 4) : Statement (.memRequest m) := fun _ => Nat.zero_le _
theorem streamRead (m : Fin 4) : Statement (.streamRead m) := fun _ => Nat.zero_le _
theorem scrubRead (m : Fin 4) : Statement (.scrubRead m) := fun _ => Nat.zero_le _
theorem regionWrite (n : Fin 16) (word : Fin 3) (value : Word) : Statement (.regionWrite n word value) := fun _ => Nat.zero_le _
theorem i3cIndexWrite (index : Byte) : Statement (.i3cIndexWrite index) := fun _ => Nat.zero_le _
theorem i3cRead : Statement (.i3cRead) := fun _ => Nat.zero_le _
theorem i3cIbi : Statement (.i3cIbi) := fun _ => Nat.zero_le _
theorem opticalLaneLosesLock (e : Fin 8) (lane : Fin 8) : Statement (.opticalLaneLosesLock e lane) := fun _ => Nat.zero_le _
theorem pcieLinkDown : Statement (.pcieLinkDown) := fun _ => Nat.zero_le _
theorem pcieLinkUp (rate : Nat) (width : Nat) : Statement (.pcieLinkUp rate width) := fun _ => Nat.zero_le _
theorem emptyReportTimeout (d : Fin 96) : Statement (.emptyReportTimeout d) := fun _ => Nat.zero_le _
theorem inboundPacket (e : Fin 8) (v : Fin 10) (row : Fin 5) : Statement (.inboundPacket e v row) := fun _ => Nat.zero_le _
theorem outboundPacket (k : Fin 96) (dest : BitVec 10) : Statement (.outboundPacket k dest) := fun _ => Nat.zero_le _
theorem msixUnmask (v : Fin 64) (word : Fin 4) (value : Word) (fnMask : Bool) : Statement (.msixUnmask v word value fnMask) := fun _ => Nat.zero_le _
theorem resultRingEnable (p : Fin 16) (value : Word) : Statement (.resultRingEnable p value) := fun _ => Nat.zero_le _
theorem controllerTrained (m : Fin 4) (restored : Bool) : Statement (.controllerTrained m restored) := fun _ => Nat.zero_le _

end Sys2Proof.Laws.Bounded
end

