-- ==== Sys2Proof/Tests/Slice0.lean ====
section
/-!
SUPPORT. Tests: ill-formed commands that WellFormed refuses, and for the statements of the certificate states and operands that
meet their hypotheses, each with what one step on it gives. Expected values come from the spec's rules and tables.
-/

namespace Sys2Proof.Tests

open Sys2Proof Sys2Proof.Machine Sys2Proof.Safety

-- one theorem after another: each evaluates a step, and many at once would need much memory
set_option Elab.async false

/-- A chip whose listed registers hold the numbers beside them. -/
def chipOf (rs : List (Nat × Nat)) : Chip := rs.foldl (fun c p => putNum p.1 p.2 c) {}

/-- The state after reset with another chip. -/
def stOf (c : Chip) : State := { State.reset with chip := c }

/-- The state that a command leaves. -/
def after (i : Instr) (s : State) : State :=
  match exec i s with
  | .next t => t
  | _ => State.reset

/-- The chip that a command leaves. -/
def post (i : Instr) (s : State) : Chip := (after i s).chip

/-- Whether a chip differs from another in the listed registers and tiles at most. -/
def frameOk (as ts : List Nat) (c c' : Chip) : Bool :=
  ((c.regs ++ c'.regs).all (fun x => as.contains x.1 || reg c' x.1 == reg c x.1)) &&
    ((c.tiles ++ c'.tiles).all (fun x => ts.contains x.1 || tile c' x.1 == tile c x.1)) &&
    decide ({ c' with regs := c.regs, tiles := c.tiles } = c)

/-! ### Ill-formed commands, and the machine as a whole -/

theorem test_ill_formed_commands : (Instr.registerWrite .host 0x200000100002 1 false).wf = false ∧
    (Instr.registerWrite .host 0x200000100004 1 true).wf = false ∧ (Instr.registerAccessBad .host 0 65 false).wf = false ∧
    (Instr.multiblockRx 0 0 (List.replicate 4097 0) 0).wf = false ∧ (Instr.commandPost 0 0 [0#8]).wf = false ∧
    (Instr.bar0Write 4 1 true).wf = false ∧ (Instr.bar2Access 0 true [1#8] 2).wf = false ∧ (Instr.bar2Access 0 false [] 4097).wf = false := by
  decide +kernel

theorem test_well_formed_commands : (Instr.registerWrite .host 0x200000100008 1 true).wf = true ∧ (Instr.bar2Access 0 true [1#8] 1).wf = true ∧
    (Instr.commandPost 0 0 (List.replicate 64 0)).wf = true := by decide +kernel

theorem test_step_takes_front : step { State.reset with pending := [.apertureBaseWrite 5, .i3cRead] } =
    exec (.apertureBaseWrite 5) { State.reset with pending := [.i3cRead] } ∧ step State.reset = .next State.reset := ⟨rfl, rfl⟩

theorem test_masked_source : isMasked ({} : Chip) 511 = true ∧ isMasked (chipOf [(Reg.IRQ_MASK 15, 0x7FFFFFFF)]) 511 = false := by
  decide +kernel

/-- Two sources in service on target 2 at rising PRIOs, and two at one PRIO. -/
theorem test_service_order : ServiceOrder [⟨2, 9, 6⟩, ⟨2, 5, 3⟩] ∧ ¬ ServiceOrder [⟨2, 9, 3⟩, ⟨2, 5, 3⟩] := by
  constructor
  · intro k
    by_cases h : k = 2
    · subst h; simp [List.filter, fallingFrom]
    · have h' : (2 == k) = false := by simp; omega
      simp [List.filter, h', fallingFrom]
  · intro h; have := (h 2).1; simp [List.filter, fallingFrom] at this

theorem test_slot_left : SlotLeft { revoked := 7 } := ⟨3, by decide, by decide⟩

theorem test_sec_untouched : mayChangeSec (.tick 0 0) = false ∧ mayChangeSec .secRevoke = true := by decide

/-! ### The tile -/

/-- Tile 5, executing, with a schedule word at its pointer, in a job of timebase 0 at a phase. -/
def atSchedule (w : Nat) (ph : Phase) : Chip :=
  ({} : Chip) |> modTile 5 (fun T => { T with seq := { T.seq with mode := .executing } })
    |> putNumAt (schedAddr {} 5 0) 4 w |> modJob 0 (fun J => { J with present := true })
    |> modTb 0 (fun T => { T with phase := ph }) |> fun c => { c with fieldJob := [(0, 1)] }

theorem test_nop : atWord (atSchedule 0 .idle) 5 0 = true ∧ domOn (atSchedule 0 .idle) (fieldOf 5) = true ∧
    (tile (post (.nop 5) (stOf (atSchedule 0 .idle))) 5).seq.pc = 1 ∧
    frameOk [Reg.TILE_SRAM_CE 5] [5] (atSchedule 0 .idle) (post (.nop 5) (stOf (atSchedule 0 .idle))) = true := by
  decide +kernel

theorem test_wait_until : atWord (atSchedule 0x04000010 .idle) 5 1 = true ∧ waitOver (atSchedule 0x04000010 .idle) 5 16 = true ∧
    waitOver (atSchedule 0x04000010 .idle) 5 15 = false ∧
    (tile (post (.waitUntil 5 16) (stOf (atSchedule 0x04000010 .idle))) 5).seq.pc = 1 ∧
    (tile (post (.waitUntil 5 15) (stOf (atSchedule 0x04000010 .idle))) 5).seq.mode = .waiting := by decide +kernel

/-- Tile 5 at a WAIT_UNTIL that waits. -/
def atWait : Chip := atSchedule 0x04000010 .idle |> modTile 5 (fun T => { T with seq := { T.seq with mode := .waiting } })

theorem test_wait_until_expire : atWord atWait 5 1 = true ∧ (tile atWait 5).seq.mode = .waiting ∧ waitOver atWait 5 16 = true ∧
    (tile (post (.waitUntilExpire 5 16) (stOf atWait)) 5).seq.pc = 1 := by decide +kernel

theorem test_integrate : atWord (atSchedule 0x08000000 .idle) 5 2 = true ∧
    (tile (post (.integrate 5) (stOf (atSchedule 0x08000000 .idle))) 5).seq.integrate = true := by decide +kernel

theorem test_rotate_state : atWord (atSchedule 0x28000000 .settle) 5 0x0A = true ∧ endReached (atSchedule 0x28000000 .settle) 5 = true ∧
    ringHead (post (.rotateState 5) (stOf (atSchedule 0x28000000 .settle))) 5 = 1 ∧
    frameOk [Reg.TILE_SRAM_CE 5, Reg.TILE_RING 5] [5] (atSchedule 0x28000000 .settle)
      (post (.rotateState 5) (stOf (atSchedule 0x28000000 .settle))) = true := by decide +kernel

theorem test_end : atWord (atSchedule 0xFC000000 .settle) 5 0x3F = true ∧
    (tile (post (.endWord 5 77) (stOf (atSchedule 0xFC000000 .settle))) 5).seq.mode = .stopped ∧
    rfld (post (.endWord 5 77) (stOf (atSchedule 0xFC000000 .settle))) (Reg.TILE_END_CLK 5) 24 0 = 77 ∧
    rfld (post (.endWord 5 77) (stOf (atSchedule 0xFC000000 .settle))) (Reg.TILE_END_MAX 5) 24 0 = 77 ∧
    frameOk [Reg.TILE_SRAM_CE 5, Reg.TILE_END_CLK 5, Reg.TILE_END_MAX 5] [5] (atSchedule 0xFC000000 .settle)
      (post (.endWord 5 77) (stOf (atSchedule 0xFC000000 .settle))) = true := by decide +kernel

/-- Tile 5 at a word of a reserved opcode, with one event in its queue. -/
def atBadWord : Chip := atSchedule 0xF8000000 .idle |> modTile 5 (fun T => { T with evq := { T.evq with queue := [1#64] } })

theorem test_illegal_word : seqBusy atBadWord 5 = true ∧ fenced atBadWord 5 = false ∧
    (fetchUe atBadWord 5 || wIllegal (wordAt atBadWord 5)) = true ∧ jobOfTile atBadWord 5 = some 0 ∧
    rflag (post (.illegalWord 5) (stOf atBadWord)) (Reg.TILE_FAULT 5) 0 = true ∧ fenced (post (.illegalWord 5) (stOf atBadWord)) 5 = true ∧
    (tile (post (.illegalWord 5) (stOf atBadWord)) 5).seq.mode = .fault ∧
    (post (.illegalWord 5) (stOf atBadWord)).reports = [{ job := 0, step := 0, cause := 10, tile := 5, checker := 5 }] ∧
    frameOk [Reg.TILE_FAULT 5, Reg.TILE_FAULT_PC 5, Reg.TILE_CTRL 5, Reg.TILE_DROP_FENCED 5] [5] atBadWord
      { post (.illegalWord 5) (stOf atBadWord) with reports := [] } = true := by decide +kernel

theorem test_seq_en : seqEn ({} : Chip) 5 = false ∧ seqEn (post (.seqEnSet 5) (stOf {})) 5 = true ∧
    (tile (post (.seqEnSet 5) (stOf {})) 5).seq.mode = .waitTick ∧
    seqEn (post (.seqEnClear 5) (after (.seqEnSet 5) (stOf {}))) 5 = false ∧
    (tile (post (.seqEnClear 5) (after (.seqEnSet 5) (stOf {}))) 5).seq.mode = .stopped := by decide +kernel

theorem test_fence_set : fenced atBadWord 5 = false ∧ (heldEvents atBadWord 5).length = 1 ∧
    (tile (post (.fenceSet 5) (stOf atBadWord)) 5).evq.queue = [] ∧
    reg (post (.fenceSet 5) (stOf atBadWord)) (Reg.TILE_DROP_FENCED 5) = 1#32 ∧
    frameOk [Reg.TILE_CTRL 5, Reg.TILE_DROP_FENCED 5] [5] atBadWord (post (.fenceSet 5) (stOf atBadWord)) = true := by decide +kernel

theorem test_pepper_and_prime : (tile (post (.pepperReload 5) (stOf (chipOf [(Reg.TILE_PEPPER_SEED_LO 5, 9)]))) 5).pepper = 9#64 ∧
    mapGet (fun _ => 0) (tile (post (.prime 5) (stOf {})) 5).nrn.pst 2 = allNeurons := by decide +kernel

theorem test_bank_retention :
    rflag (post (.sramRetRequest 5 0x01) (stOf (chipOf [(Reg.TILE_SRAM_USE 5, 0)]))) (Reg.TILE_SRAM_RET_STATUS 5) 0 = true ∧
    rflag (post (.sramRetRequest 5 0x01) (stOf (chipOf [(Reg.TILE_SRAM_USE 5, 1)]))) (Reg.TILE_FAULT 5) 4 = true ∧
    rflag (post (.sramRetRequest 5 0x00) (stOf (chipOf [(Reg.TILE_SRAM_RET 5, 0x80), (Reg.TILE_SRAM_RET_STATUS 5, 0x80)])))
      (Reg.TILE_SRAM_RET_STATUS 5) 15 = true ∧
    reg (post (.bankWakeDone 5 7) (stOf (chipOf [(Reg.TILE_SRAM_RET_STATUS 5, 0x8000)]))) (Reg.TILE_SRAM_RET_STATUS 5) = 0#32 := by
  decide +kernel

/-- Tile 5 of a job with an event of axon 7 and a parity at its Local port. -/
def withArrival (parity : Nat) : Chip :=
  atSchedule 0 .idle |> modTile 5 (fun T => { T with evq := { T.evq with arrived := [oneFlit 0 (mkEvent 0 0 0 parity 0 5 0 0 7 1)] } })

theorem test_event_arrive :
    (post (.eventArrive 5) (stOf (withArrival 0)) |> fun c => (tile c 5).evq.queue.length) = 1 ∧
    frameOk [Reg.TILE_EQ_HWM 5] [5] (withArrival 0) (post (.eventArrive 5) (stOf (withArrival 0))) = true ∧
    isLate (withArrival 1) 5 (mkEvent 0 0 0 1 0 5 0 0 7 1) = true ∧
    reg (post (.eventArrive 5) (stOf (withArrival 1))) (Reg.TILE_DROP_LATE 5) = 1#32 ∧
    reg (post (.eventArrive 5) (stOf (setBit (Reg.TILE_CTRL 5) 31 true (withArrival 1)))) (Reg.TILE_DROP_FENCED 5) = 1#32 := by
  decide +kernel

/-! ### Neurons, synapses and the decoder -/

/-- Tile 5 at an UPDATE word of population 0, which is neuron 0 with a threshold of 100, after update go. -/
def atUpdate : Chip := atSchedule 0x0C000000 .update
  |> putNumAt (regionBase {} 5 4 + 4) 3 100 |> putNumAt (regionBase {} 5 4 + 0x12) 2 1 |> putByte (nrnAddr {} 5 0 0) 50#8

theorem test_update_hypotheses : atWord atUpdate 5 3 = true ∧ goReached atUpdate 5 = true ∧ decEn atUpdate 5 = false ∧
    bits (wordAt atUpdate 5) 7 4 = 0 ∧ bits (wordAt atUpdate 5) 3 0 = 0 ∧
    (nstateOf (bytesAt atUpdate (nrnAddr atUpdate 5 0 0) 16)).pop = popHolding atUpdate 5 0 0 0 ∧
    (updateNeuron (popAt atUpdate 5 0) (nstateOf (bytesAt atUpdate (nrnAddr atUpdate 5 0 0) 16)) 0 0 false 0 0).fired = false ∧
    accAddr atUpdate 5 1 0 = win 5 + 0xD000 ∧ nrnAddr atUpdate 5 1 0 = win 5 + 0x4000 := by decide +kernel

theorem test_update_active : activeNeurons atUpdate 5 0 0 = [0] := by decide +kernel

theorem test_update_waits : goReached (atSchedule 0x0C000000 .integrate) 5 = false ∧
    (tile (post (.update 5 9) (stOf (atSchedule 0x0C000000 .integrate))) 5).seq.mode = .waiting := by decide +kernel

/-- Tile 5 with a flit in its emission queue. -/
def withEmission : Chip := ({} : Chip) |> modTile 5 (fun T => { T with nrn := { T.nrn with emitq := [mkEvent 0 0 0 0 0 6 0 0 9 1] } })

theorem test_emit_flit : inRoom withEmission 5 4 0 = true ∧ rflag withEmission (Reg.RTR_CTRL 5) 0 = false ∧
    (wire (post (.emitFlit 5 3) (stOf withEmission)) 5 4 0).length = 1 ∧
    (tile (post (.emitFlit 5 3) (stOf withEmission)) 5).nrn.emitq = [] ∧
    frameOk [Reg.NRN_UPDATE_CLK 5] [5] withEmission { post (.emitFlit 5 3) (stOf withEmission) with wires := [] } = true := by
  decide +kernel

theorem test_dec_clear : seqEn ({} : Chip) 5 = false ∧
    slotCount (zeroSlot 5 7 (({} : Chip) |> putByte (ringByte {} 5 7 3) 9#8)) 5 7 3 = 0 ∧
    seqEn (chipOf [(Reg.TILE_CTRL 5, 1)]) 5 = true := by decide +kernel

/-- A row of one unit scale and code 1 for one target, whose codebook entry is 7. -/
def oneRow : Row := { key := 9, index := 0, entry := 0, header := 0xA001, scales := [0x8000], codes := [1] }

/-- Tile 5 with that row in progress for an event of parity 0. -/
def fetchingRow : Chip := ({} : Chip) |> modTile 5 (fun T => { T with
  seq := { T.seq with integrate := true }
  syn := { T.syn with fetching := some (mkEvent 0 0 0 0 0 5 0 0 9 1, oneRow, 0), cb := [(1, 7#16)] } })

theorem test_scatter_target : hLen oneRow.header = 1 ∧ fenced fetchingRow 5 = false ∧
    numAt (post (.scatterEvent 5 1) (stOf fetchingRow)) (accAddr fetchingRow 5 0 0) 4 = 7 ∧
    (tile (post (.scatterEvent 5 1) (stOf fetchingRow)) 5).syn.fetching = none := by decide +kernel

/-- Tile 5 with an event of axon 9 in its queue and no key. -/
def withNoKey : Chip := ({} : Chip) |> modTile 5 (fun T => { T with
  seq := { T.seq with integrate := true }, evq := { T.evq with queue := [mkEvent 0 0 0 0 0 5 0 0 9 1] } })

theorem test_scatter_no_key : nextEntry withNoKey 5 = some (mkEvent 0 0 0 0 0 5 0 0 9 1) ∧ keyCount withNoKey 5 ≤ keyIndex withNoKey 5 9 ∧
    isGatherInput withNoKey 5 (mkEvent 0 0 0 0 0 5 0 0 9 1) = false ∧
    reg (post (.scatterEvent 5 1) (stOf withNoKey)) (Reg.SYN_DROP_NOKEY 5) = 1#32 ∧
    frameOk [Reg.SYN_DROP_NOKEY 5] [5] withNoKey (post (.scatterEvent 5 1) (stOf withNoKey)) = true := by decide +kernel

/-- Tile 5 with a gather input of axon 9 and value 33 at its Local port. -/
def withGin : Chip := chipOf [(Reg.SYN_GIN_CFG 5, 0x00000010)] |> modTile 5 (fun T => { T with
  evq := { T.evq with arrived := [oneFlit 0 (mkEvent 1 0 0 0 0 5 0 0 9 33)] } })

theorem test_gather_input : isGatherInput withGin 5 (mkEvent 1 0 0 0 0 5 0 0 9 33) = true ∧
    isLate withGin 5 (mkEvent 1 0 0 0 0 5 0 0 9 33) = false ∧
    mapGet (fun _ => 0#8) (tile (post (.gatherInput 5) (stOf withGin)) 5).syn.gin 9 = 33#8 ∧
    frameOk [] [5] withGin (post (.gatherInput 5) (stOf withGin)) = true ∧
    reg (post (.gatherInput 5) (stOf (withGin |> modTile 5 (fun T => { T with syn := { T.syn with ginUsed := [(9, true)] } }))))
      (Reg.SYN_GIN_LATE 5) = 1#32 := by decide +kernel

/-- Tile 5 with a resident gather entry 0 of one target and one group of 32, whose scale is 1, codes 0 and codebook entry 3. -/
def withGatherEntry (w : Nat) : Chip := atSchedule w .idle |> setReg (Reg.SYN_KEY_CFG 5) 1#32
  |> putNumAt (axonAddr {} 5 0) 8 (2 ^ 62 + 2 ^ 43 + 2 ^ 32) |> putNumAt (unitAddr 5 1) 8 (5 * 8192 + 32 + 9 * 2 ^ 33)
  |> putNumAt (unitAddr 5 9) 8 0x8000
  |> modTile 5 (fun T => { T with syn := { T.syn with cb := [(0, 3#16)], gin := [(0, 2#8)] } })

theorem test_gather_begin : atWord (withGatherEntry 0x14000000) 5 5 = true ∧ aMode (gatherEntry (withGatherEntry 0x14000000) 5 0) = 1 ∧
    headerOk (gatherEntry (withGatherEntry 0x14000000) 5 0) (unitAt (withGatherEntry 0x14000000) 5 1) = true ∧
    (tile (post (.gatherBegin 5) (stOf (withGatherEntry 0x14000000))) 5).syn.run =
      some { entry := 0, word := 2 ^ 62 + 2 ^ 43 + 2 ^ 32, header := 5 * 8192 + 32 + 9 * 2 ^ 33, wAddr := 0, sAddr := 0, bank := 0
             streamed := false, pairs := 0, requested := 0, consumed := 0 } ∧
    reg (post (.gatherBegin 5) (stOf (atSchedule 0x14000000 .idle))) (Reg.SYN_HDR_MISMATCH 5) = 1#32 := by decide +kernel

/-- The gather of that entry runs. -/
def gatherRuns (w : Nat) : Chip := withGatherEntry w |> modTile 5 (fun T => { T with syn := { T.syn with
  run := some { entry := 0, word := 2 ^ 62 + 2 ^ 43 + 2 ^ 32, header := 5 * 8192 + 32 + 9 * 2 ^ 33, wAddr := 0, sAddr := 0, bank := 0
                streamed := false, pairs := 0, requested := 0, consumed := 0 } } })

theorem test_gather_end : atWord (gatherRuns 0x18000000) 5 6 = true ∧ gathering (gatherRuns 0x18000000) 5 0 = true ∧
    (tile (post (.gatherEnd 5) (stOf (gatherRuns 0x18000000))) 5).seq.mode = .waiting ∧
    (tile (post (.gatherEnd 5) (stOf (withGatherEntry 0x18000000))) 5).seq.pc = 1 := by decide +kernel

theorem test_gather_done : aLen (2 ^ 62 + 2 ^ 43 + 2 ^ 32) = 1 ∧ hLen (5 * 8192 + 32 + 9 * 2 ^ 33) = 32 ∧ (tile (gatherRuns 0) 5).syn.fetching = none ∧
    numAt (post (.gatherDone 5 8) (stOf (gatherRuns 0))) (accAddr (gatherRuns 0) 5 0 0) 4 = 6 ∧
    (tile (post (.gatherDone 5 8) (stOf (gatherRuns 0))) 5).syn.run = none := by decide +kernel

/-- Tile 5 with a whole reply packet of TAG 0 and one request for 7 bytes. -/
def withReply : Chip := ({} : Chip) |> modTile 5 (fun T => { T with
  chn := { T.chn with dma := [(4, packet 4 (mkHead 5 0 0 0 5 0 0 0 0) [mkBody 0x0605])] }
  syn := { T.syn with reqs := [{ tag := 0, len := 2, got := 0, data := [], spoiled := false, ue := false }] } })

theorem test_stream_reply : (dmaFind withReply 5 4 (fun _ => true)).isSome = true ∧
    (tile (post (.streamReply 5) (stOf withReply)) 5).syn.wq = [{ seq := 0, data := [5#8, 6#8] }] ∧
    frameOk [] [5] withReply (post (.streamReply 5) (stOf withReply)) = true := by decide +kernel

/-- Tile 5 in a partner wait of a streamed gather. -/
def inPartnerWait : Chip := ({} : Chip) |> modTile 5 (fun T => { T with syn := { T.syn with
  run := some { entry := 3, word := 0, header := 0, wAddr := 0, sAddr := 0, bank := 0, streamed := true, pairs := 9, requested := 4, consumed := 2 }, pwait := 1
  wq := [{ seq := 2, data := [] }], sq := [{ seq := 3, data := [] }] } })

theorem test_partner_wait : reg (post (.partnerWaitExpire 5) (stOf inPartnerWait)) (Reg.SYN_SLIP_LAST 5) = 0x02020380#32 ∧
    reg (post (.partnerWaitExpire 5) (stOf inPartnerWait)) (Reg.SYN_SLIP_COUNT 5) = 1#32 ∧
    reg (post (.partnerWaitExpire 5) (stOf inPartnerWait)) (Reg.SYN_SLIP_ENTRY 5) = 3#32 := by decide +kernel

theorem test_codebook_load :
    mapGet (fun _ => (0 : BitVec 16)) (tile (post (.cbLoadDone 5) (after (.cbLoad 5)
      (stOf (({} : Chip) |> putNumAt (unitAddr 5 1) 2 0x1234)))) 5).syn.cb 4 = 0x1234#16 := by decide +kernel

/-! ### Learning -/

/-- Tile 5 with learning on, block 0 of one row at entry 3 for neuron 0, increment 2 and feedback gain 4096. -/
def learner : Chip := atSchedule 0 .settle |> setReg (Reg.LRN_CTRL 5) 1#32 |> putNum (Reg.LRN_CFG 5) 0x10000200
  |> putNum (Reg.LRN_BLK_A 5 0) 0x80030001 |> putNum (Reg.LRN_BLK_C 5 0) 0x00010000 |> putByte (traceAddr {} 5 3) 10#8

/-- That tile with an increment of value 3 for entry 3. -/
def withIncrement : Chip := learner |> modTile 5 (fun T => { T with lrn := { T.lrn with incs := [(3, 3, 0)] } })

theorem test_learn_increment : learns withIncrement 5 = true ∧ skipping withIncrement 5 = false ∧
    (blockOf withIncrement 5 3).isSome = true ∧
    byteAt (post (.learnIncrement 5) (stOf withIncrement)) (traceAddr {} 5 3) = 16#8 ∧
    (tile (post (.learnIncrement 5) (stOf withIncrement)) 5).lrn.incs = [] := by decide +kernel

/-- That tile with a feedback event of axon 0 and value 7 in its queue. -/
def withFeedback (pos : Nat) : Chip := learner |> putNum (Reg.LRN_FB_POS 5) pos |> modTile 5 (fun T => { T with
  seq := { T.seq with integrate := true }, evq := { T.evq with queue := [mkEvent 6 0 0 0 0 5 0 0 0 7] } })

theorem test_feedback_hypotheses : nextEntry (withFeedback 1) 5 = some (mkEvent 6 0 0 0 0 5 0 0 0 7) ∧
    fKind (mkEvent 6 0 0 0 0 5 0 0 0 7) = 6 ∧ feedbackTarget (withFeedback 1) 5 (mkEvent 6 0 0 0 0 5 0 0 0 7) = some (0, 7) ∧
    (lrnBlocks (withFeedback 1) 5).map (fun b => (b.rows, b.tgt, b.len, b.step)) = [(1, 0, 1, 1)] ∧
    feedbackTarget (withFeedback 0) 5 (mkEvent 6 0 0 0 0 5 0 0 0 7) = none := by decide +kernel

theorem test_feedback_event : numAt (post (.feedbackEvent 5) (stOf (withFeedback 1))) (deltaAddr {} 5 0) 2 = 0 ∧
    reg (post (.feedbackEvent 5) (stOf (withFeedback 1))) (Reg.LRN_FB_EVENTS 5) = 1#32 ∧
    reg (post (.feedbackEvent 5) (stOf (withFeedback 0))) (Reg.LRN_FB_NOKEY 5) = 1#32 := by decide +kernel

theorem test_label_push : (tile (post (.labelPush 5 0x00070000) (stOf {})) 5).lrn.labels = [(7, 0)] ∧
    reg (post (.labelPush 5 0x00070001) (stOf {})) (Reg.LRN_LABEL_DROP 5) = 1#32 := by decide +kernel

/-- Tile 5 at a TRACE_STEP word of population 0, neuron 0, decay 1, trace 8 in the working slot. -/
def atTrace : Chip := atSchedule 0x20000000 .settle |> putNumAt (regionBase {} 5 4 + 0x12) 2 1
  |> putByte (regionBase {} 5 4 + 0x14) 1#8 |> putByte (nrnAddr {} 5 1 0 + 8) 8#8

theorem test_trace_step : atWord atTrace 5 8 = true ∧ popNeurons atTrace 5 0 = [0] ∧ learns atTrace 5 = false ∧
    endReached atTrace 5 = true ∧ byteAt (post (.traceStep 5) (stOf atTrace)) (nrnAddr {} 5 1 0 + 8) = 4#8 ∧
    (tile (post (.traceStep 5) (stOf atTrace)) 5).seq.pc = 1 := by decide +kernel

/-- Tile 5 at a MOW word of entry 3, whose row 1 has its alternate slot at unit 20 and no code; one delta waits. -/
def atMow : Chip := atSchedule (0x24000000 + 3 * 2048 + 3) .settle |> setReg (Reg.LRN_CTRL 5) 1#32
  |> putNum (Reg.LRN_BLK_A 5 0) 0x80030001 |> putNum (Reg.LRN_BLK_C 5 0) 0x00010000 |> putNum (Reg.LRN_EPOCH_CFG 5) 0x00010000
  |> putNumAt (axonAddr {} 5 3) 8 (2 ^ 60 + 2 ^ 43) |> putNumAt (unitAddr 5 1) 8 (20 * 2 ^ 49) |> putByte (deltaAddr {} 5 0) 5#8

theorem test_mow : atWord atMow 5 9 = true ∧ mowActs atMow 5 = true ∧ (blockOf atMow 5 3).map (fun b => b.len) = some 1 ∧
    aRow (numAt (post (.mow 5 1 4) (stOf atMow)) (axonAddr {} 5 3) 8) = 20 ∧
    byteAt (post (.mow 5 1 4) (stOf atMow)) (deltaAddr {} 5 0) = 0#8 ∧
    reg (post (.mow 5 1 4) (stOf atMow)) (Reg.LRN_MOW_COUNT 5) = 1#32 := by decide +kernel

theorem test_mow_idle : mowActs (atSchedule 0x24000000 .settle) 5 = false ∧
    (tile (post (.mow 5 1 4) (stOf (atSchedule 0x24000000 .settle))) 5).seq.pc = 1 := by decide +kernel

theorem test_checkpoint : reg (post (.ckptAck 5) (stOf (chipOf [(Reg.LRN_STATUS 5, 0x10000000)]))) (Reg.LRN_STATUS 5) = 0#32 ∧
    reg (post (.mowCountSet 5 77) (stOf {})) (Reg.LRN_MOW_COUNT 5) = 77#32 := by decide +kernel

/-! ### Routers, collectives and the seam -/

/-- Flits on wires, with a floor plan in which the east link of tile 5 is good. -/
def meshChip (fs : List (Nat × Nat × Flit)) : Chip := fs.foldl (fun c x => putWire x.1 x.2.1 x.2.2 c) (putByte (fpBase + 0x440) 0x20 {})

/-- A flit for tile (5, 0) and one for tile (6, 0), on the wire into port 4 of router 5. -/
def forHere : Flit := oneFlit 0 (mkEvent 0 0 0 0 0 5 0 0 9 1)
def forEast : Flit := oneFlit 0 (mkEvent 0 0 0 0 0 6 0 0 9 1)

theorem test_flit_rx_local : wire (meshChip [(5, 4, forHere)]) 5 4 0 = [forHere] ∧ portPresent (meshChip []) 5 4 = true ∧
    seamPasses (meshChip []) 5 4 = true ∧ checkOk forHere.data = true ∧ lateFlit (meshChip []) forHere.data = false ∧
    leavesAtTap (meshChip []) 5 forHere.data = false ∧ isEvent forHere.data = true ∧
    (tile (post (.flitRx 5 4 0) (stOf (meshChip [(5, 4, forHere)]))) 5).evq.arrived = [forHere] := by decide +kernel

theorem test_flit_rx_forward : fDx forEast.data = 6 ∧ rflag (meshChip []) (Reg.RTR_EPOCH 5) 0 = false ∧
    portPresent (meshChip []) 5 2 = true ∧ outFenced (meshChip []) 5 2 = false ∧ wdogFenced (meshChip []) 5 2 = false ∧
    wire (post (.flitRx 5 4 0) (stOf (meshChip [(5, 4, forEast)]))) 6 3 0 = [forEast] := by decide +kernel

theorem test_flit_rx_errors :
    rflag (post (.flitRx 5 4 0) (stOf (meshChip [(5, 4, { forHere with bad := true })]))) (Reg.RTR_STATUS 5) 12 = true ∧
    keptAt (post (.flitRx 5 4 0) (stOf (meshChip [(5, 4, { forHere with bad := true })]))) 5 4 0 = [{ forHere with bad := true }] ∧
    reg (post (.flitRx 5 4 0) (stOf (meshChip [(5, 4, { forHere with data := forHere.data ^^^ 1#64 })]))) (Reg.RTR_CRC_ERR 5) = 1#32 := by
  decide +kernel

theorem test_flit_rx_local_fenced : outFenced (setReg (Reg.RTR_CTRL 5) 0x1000#32 {}) 5 4 = true ∧
    reg (post (.flitRx 5 4 0) (stOf (setReg (Reg.RTR_CTRL 5) 0x1000#32 (meshChip [(5, 4, forHere)])))) (Reg.RTR_DROP_NOROUTE 5) = 1#32 := by
  decide +kernel

/-- Router 5 without credit on VC0 of its east output and with a head that waits for it. -/
def starved : Chip := modRouter 5 (fun R => { R with credit := [(16, 0)], buf := [(32, [{ flit := forEast, stamp := 0, copied := false }])] }) {}

theorem test_credit_return : wdogFenced ({} : Chip) 5 2 = false ∧
    creditOf (post (.creditReturn 5 2 0) (stOf { (modRouter 5 (fun R => { R with credit := [(16, 1)] }) {} : Chip) with
      creditWires := [(wireKey 5 2 0, [forEast])] })) 5 2 0 = 2 ∧
    creditOf (post (.creditReturn 5 2 0) (stOf { (setBit (Reg.RTR_STATUS 5) 2 true (modRouter 5 (fun R => { R with credit := [(16, 1)] }) {}) : Chip) with
      creditWires := [(wireKey 5 2 0, [forEast])] })) 5 2 0 = 1 := by decide +kernel

theorem test_router_watchdog : creditOf starved 5 2 0 = 0 ∧ (List.range 6).any (fun p => wantsOutput starved 5 p 0 == some 2) = true ∧
    wdogLimit starved 5 = 256 ∧
    rfld (post (.routerWatchdog 5 2 0 200) (stOf starved)) (Reg.RTR_WAIT_MAX 5) 15 0 = 200 ∧
    outFenced (post (.routerWatchdog 5 2 0 4096) (stOf starved)) 5 2 = true := by decide +kernel

theorem test_router_watchdog_prunes : (waitingFor starved 5 2).filter isEvent = [forEast.data] ∧ isEvent forEast.data = true ∧
    (post (.routerWatchdog 5 2 0 4096) (stOf { starved with fieldJob := [(0, 1)] })).reports.map (fun r => (r.cause, r.tile, r.step)) =
      [(6, 5, consumer { starved with fieldJob := [(0, 1)] } 5 0)] := by decide +kernel

/-- Router 5 with a combined collective that waits for its east output without credit. -/
def starvedColl : Chip := modRouter 5 (fun R => { R with credit := [(21, 0)], collOut := [(0, 2, mkColl 0 0 0 0 0 6)] }) {}

theorem test_router_watchdog_collective : creditOf starvedColl 5 2 5 = 0 ∧ waitingFor starvedColl 5 2 = [] ∧
    outFenced (post (.routerWatchdog 5 2 5 4096) (stOf starvedColl)) 5 2 = true := by decide +kernel

theorem test_out_fence_clear : outFenced (chipOf [(Reg.RTR_CTRL 5, 0x400)]) 5 2 = true ∧
    outFenced (post (.outFenceClear 5 2) (stOf (chipOf [(Reg.RTR_CTRL 5, 0x400)]))) 5 2 = false := by decide +kernel

theorem test_route_table_write : isTableWord 0x100 = true ∧ isTableWord 0x160 = false ∧ slotBusy starved 5 0 = true ∧
    reg (post (.routeTableWrite 5 0x100 7) (stOf {})) (win 5 + 0x84100) = 7#32 ∧
    rflag (post (.routeTableWrite 5 0x100 7) (stOf starved)) (Reg.RTR_FAULT 5) 4 = true ∧
    rflag (post (.injStop 5) (stOf {})) (Reg.RTR_CTRL 5) 0 = true := by decide +kernel

theorem test_seam_epoch_switch : curEpoch (post (.seamEpochSwitch 0x81030000) (stOf {})) 3 = 1 ∧
    (tbAt (post (.seamEpochSwitch 0x81030009) (stOf (chipOf [(Reg.TICK_TB_CTRL 3, 0x80000000)]))) 3).switchAt = some (9, 1) := by
  decide +kernel

theorem test_drain : (post (.drainGo 0x80000000) (stOf (meshChip [(5, 4, forHere)]))).drain = some 1 ∧
    reg (post .drainDone (after (.drainGo 0x80000000) (stOf (meshChip [(5, 4, forHere)])))) Reg.SEAM_DRAIN_RESULT = 0x80000001#32 := by
  decide +kernel

/-- A chip with root tap 48, a drain in progress and the tree's sum at that tap, or still to come. -/
def draining (come : Bool) : Chip := { putByte (fpBase + 0x26) 1#8 {} with
  drain := some 2, routers := [(tapTile 48, { strobe := some 4 })]
  tapIn := if come then [(8 * 48 + 5, [oneFlit 5 (mkColl 0 1 0 0 0 6)])] else [] }

theorem test_drain_sums : rootTaps (draining true) = [48] ∧ rootSum (draining true) drainKey 48 = some 6 ∧
    rootSum (draining false) drainKey 48 = none ∧ reg (post .drainDone (stOf (draining true))) Reg.SEAM_DRAIN_RESULT = 0x80000008#32 ∧
    reg (post .drainDone (stOf (draining false))) Reg.SEAM_DRAIN_RESULT = 0#32 := by decide +kernel

theorem test_seam_epoch_compat : compatTb (modJob 0 (fun J => { J with compat := true }) {}) 0 = true ∧
    curEpoch (post (.seamEpochSwitch 0x81000000) (stOf (modJob 0 (fun J => { J with compat := true }) {}))) 0 = 0 := by decide +kernel

/-- Router 5, whose tile has still to give its counts, with a child's contribution of 6 at item 0. -/
def withCollective : Chip := atSchedule 0 .settle |> modRouter 5 (fun R => { R with collIn := [(1, mkColl 0 0 0 0 0 6)] })

theorem test_collective_rx : collKey (mkColl 0 0 0 0 0 6) = 0 ∧ censusTile withCollective 5 0 = true ∧
    collAt (post (.collectiveRx 5) (stOf withCollective)) 5 0 = { got := [1], value := 6 } := by decide +kernel

/-! ### Message channels and broadcast loading -/

/-- Tile 5 at an EMIT_MESSAGE word of entry 0 with one body flit. -/
def atEmit (tx : Nat) : Chip := atSchedule 0x10000001 .idle |> putNum (Reg.CHN_TX 5 0) tx

theorem test_emit_message : atWord (atEmit 0x80010600) 5 4 = true ∧ sendBusy (atEmit 0x80010600) 5 = 0 ∧
    (wire (post (.emitMessage 5) (stOf (atEmit 0x80010600))) 5 4 2).length = 2 ∧
    reg (post (.emitMessage 5) (stOf (atEmit 0x80010600))) (Reg.CHN_SENT 5) = 1#32 ∧
    reg (post (.emitMessage 5) (stOf (atEmit 0))) (Reg.CHN_TX_INVALID 5) = 1#32 := by decide +kernel

/-- The head of a message of 7 bytes to channel 1 of tile 5. -/
def msgHead : DWord := mkHead 2 0 0 0 5 0 1 9 (messageSub 1 7 0)

/-- Router 5 with that head in its Local input. -/
def withHead : Chip := modRouter 5 (fun R => { R with buf := [(34, [{ flit := { oneFlit 2 msgHead with tail := false }, stamp := 0, copied := false }])] }) {}

theorem test_message_head : (bufAt withHead 5 4 2).length = 1 ∧ bufAt withHead 5 4 1 = [] ∧ hopOf withHead 5 4 msgHead none = some (.out 4) ∧
    (tile (post (.messageHead 5 4) (stOf withHead)) 5).chn.staging =
      [{ head := msgHead, port := 4, body := [], done := false, poison := false }] := by decide +kernel

/-- Tile 5 with a complete message in staging buffer 0. -/
def withMessage (poison : Bool) (cfg : Nat) : Chip := chipOf [(Reg.CHN_RX_CFG 5 1, cfg), (Reg.CHN_RX_STAT 5 1, 0x10000)]
  |> modTile 5 (fun T => { T with chn := { T.chn with
      staging := [{ head := msgHead, port := 4, body := [mkBody 0x07060504030201], done := true, poison := poison }] } })

theorem test_next_commit : nextCommit (tile (withMessage false 0) 5).chn.staging = some 0 ∧
    nextCommit [{ head := mkHead 2 0 0 0 5 0 1 9 (messageSub 3 7 0), port := 4, body := [], done := true, poison := false },
      { head := msgHead, port := 4, body := [], done := true, poison := false }] = some 1 ∧
    (post (.messageTail 5 1) (stOf (withMessage false 0))) = withMessage false 0 := by decide +kernel

theorem test_message_tail : mChannel msgHead = 1 ∧ wellFormed msgHead = true ∧ mResult msgHead = false ∧
    reg (post (.messageTail 5 0) (stOf (withMessage true 0x80000100))) (Reg.CHN_POISON 5) = 1#32 ∧
    reg (post (.messageTail 5 0) (stOf (withMessage false 0))) (Reg.CHN_DISCARD 5) = 1#32 ∧
    reg (post (.messageTail 5 0) (stOf (withMessage false 0x80000100))) (Reg.CHN_RX_WPTR 5 1) = 32#32 ∧
    byteAt (post (.messageTail 5 0) (stOf (withMessage false 0x80000100))) (win 5 + 0x4000 + 8) = 1#8 := by decide +kernel

theorem test_message_no_room :
    reg (post (.messageTail 5 0) (stOf (setReg (Reg.CHN_RX_WPTR 5 1) 0x100#32 (withMessage false 0x80000100)))) (Reg.CHN_OVERFLOW 5) = 1#32 := by
  decide +kernel

theorem test_rings : rxOpen (post (.ringOpen 5 1 0x00020100) (stOf {})) 5 1 = true ∧
    rxOpen (post (.ringClose 5 1) (stOf (chipOf [(Reg.CHN_RX_CFG 5 1, 0x80000000)]))) 5 1 = false ∧
    reg (post (.rptrWrite 5 1 32) (stOf (chipOf [(Reg.CHN_RX_CFG 5 1, 0x80000000), (Reg.CHN_RX_WPTR 5 1, 32)]))) (Reg.CHN_RX_RPTR 5 1) = 32#32 ∧
    rflag (post (.rptrWrite 5 1 64) (stOf (chipOf [(Reg.CHN_RX_CFG 5 1, 0x80000000), (Reg.CHN_RX_WPTR 5 1, 32)]))) (Reg.CHN_FAULT 5) 4 = true := by
  decide +kernel

/-- Tile 5 with a maintenance packet of operation `mop` at its Local port: half 0 of block 0 of load 1, rows 0 to 63. -/
def withHalf (mop : Nat) (en : Nat) : Chip := chipOf [(Reg.CHN_BC_CTRL 5, en), (Reg.CHN_BC_STATUS 5, 1)] |> modTile 5 (fun T => { T with
  chn := { T.chn with dma := [(5, packet 5 (mkHead 7 0 0 0 5 0 3 9 (4096 * mop)) [mkBody 0xFC000001, mkBody 0, mkBody 0x99])] } })

theorem test_half_blocks : (dmaFind (withHalf 0 1) 5 5 (fun h => fMop h.data == 0 || decide (4 ≤ fMop h.data))).isSome = true ∧
    bcMap (post (.columnLoad 5 false) (stOf (withHalf 0 1))) 5 = 1 ∧
    reg (post (.columnLoad 5 true) (stOf (withHalf 0 1))) (Reg.CHN_BC_DROP 5) = 1#32 ∧
    bcMap (post (.tileLoad 5 false) (stOf (withHalf 1 1))) 5 = 1 ∧
    reg (post (.tileLoad 5 true) (stOf (withHalf 1 1))) (Reg.CHN_BC_DROP 5) = 1#32 := by decide +kernel

theorem test_half_is_acceptable : anyPoison (oneFlit 5 0) [] = false ∧ rflag (withHalf 0 1) (Reg.CHN_BC_CTRL 5) 0 = true ∧
    rfld (withHalf 0 1) (Reg.CHN_BC_STATUS 5) 7 0 = 1 ∧ bit (bcMap (withHalf 0 1) 5) 0 = false ∧ inSchedule (withHalf 0 1) 5 0x12000 = false ∧
    bcMap (post (.bcClear 5) (stOf (chipOf [(Reg.CHN_BC_MAP_LO 5, 7)]))) 5 = 0 := by decide +kernel

/-- Tile 5 with a half for rows 1 to 63, which are not its own. -/
def otherRows : Chip := modTile 5 (fun T => { T with chn := { T.chn with
  dma := [(5, packet 5 (mkHead 7 0 0 0 5 0 3 9 0) [mkBody 0xFC100001, mkBody 0, mkBody 0x99])] } }) (chipOf [(Reg.CHN_BC_CTRL 5, 1)])

theorem test_half_of_other_rows : bits (fData (mkBody 0xFC100001)) 25 20 = 1 ∧ tileY 5 = 0 ∧
    post (.columnLoad 5 true) (stOf otherRows) = dmaDrop 5 0 5 otherRows ∧
    post (.tileLoad 5 true) (stOf (withHalf 1 0)) = dmaDrop 5 0 5 (withHalf 1 0) := by decide +kernel

theorem test_load_census : (post .loadCensus (stOf {})).loadCensus.length = 16 := by decide +kernel

/-- A broadcast of one block that tile 5, good and with EN, has not completed, in round `r`; `BC_FENCE_MAX` tiles may fail. -/
def broadcasting (r fenceMax : Nat) : Chip := { chipOf [(Reg.CHN_BC_CTRL 5, 1), (Reg.BOOT_CFG, 256 * fenceMax), (Reg.BOOT_STATUS, 0x90000000)]
  with boot := { ({} : Chip).boot with load := some { blocks := 1, data := [], round := r } } } |> putByte (fpBase + 0x40) 0x20#8
    |> putByte (fpBase + 0xC41) 0x0C#8

theorem test_load_repairs : (expectsLoad (broadcasting 0 1) 5, loadEnded (broadcasting 0 1) { blocks := 1, data := [], round := 0 },
    (post .loadCensus (stOf (broadcasting 0 1))).boot.load.map (fun l => l.round)) = (true, false, some 1) := by decide +kernel

theorem test_load_fences : loadEnded (broadcasting 3 1) { blocks := 1, data := [], round := 3 } = true ∧ unloaded (broadcasting 3 1) = [5] ∧
    rfld (broadcasting 3 1) Reg.BOOT_CFG 15 8 = 1 := by decide +kernel

theorem test_load_fails : rfld (broadcasting 3 0) Reg.BOOT_CFG 15 8 = 0 ∧ bootState (broadcasting 3 0) = 9 ∧
    (broadcasting 3 0).boot.inReset = false := by decide +kernel

theorem test_echo : (wire (post (.echo 5) (stOf (withHalf 2 0))) 5 4 5).length = 4 ∧
    anyPoison (oneFlit 5 0) [] = false ∧
    (post (.echoReply (.tile 5)) (stOf (withHalf 3 0)) |> fun c => dmaFind c 5 5 (fun _ => true)) = none := by decide +kernel

/-! ### LPDDR5X memory -/

/-- Controller 0 ready, every controller there, region 0 over the first 64 KiB, with a request from tap 0 of OP `op` at the
front of its queue. -/
def withRequest (op : Nat) (body : List DWord) : Chip :=
  { chipOf [(Reg.MEM_M_STATUS 0, 0x40000000), (Reg.MEM_STATUS, 0x000F0080), (Reg.MEM_REGION_SIZE 0, 1), (Reg.MEM_REGION_ATTR 0, 0x80000100)] with
    mem := [(0x40, 7#8)]
    memQ := [(0, [(0, oneFlit 3 (mkHead 4 0 0 1 0 0 body.length 9 (8192 * op)), body.map (oneFlit 3))])] }

theorem test_mem_read : memServes (withRequest 0 [mkBody 0x40]) 0 = true ∧ memCheck (withRequest 0 [mkBody 0x40]) 0 0x40 1 = 0 ∧
    lineError (withRequest 0 [mkBody 0x40]) 1 = 0 ∧ memoryTaps 0 ≠ [] ∧
    (wire (post (.memRequest 0) (stOf (withRequest 0 [mkBody 0x40]))) (tapTile 0) 5 4).map (fun f => f.data.toNat / 256 % 256) = [0, 7] := by
  decide +kernel

theorem test_mem_write : memQueue (withRequest 1 [mkBody (0x41 + 2 ^ 48), mkBody 0x0605]) 0 ≠ [] ∧
    byteAt (post (.memRequest 0) (stOf (withRequest 1 [mkBody (0x41 + 2 ^ 48), mkBody 0x0605]))) 0x42 = 6#8 ∧
    byteAt (post (.memRequest 0) (stOf (withRequest 1 [mkBody (0x41 + 2 ^ 48), mkBody 0x0605]))) 0x40 = 7#8 := by decide +kernel

theorem test_mem_malformed : rqMalformed 0 [] = true ∧
    reg (post (.memRequest 0) (stOf (withRequest 0 []))) (Reg.MEM_M_REQS 0) = 1#32 := by decide +kernel

theorem test_stream_read : memCheck (withRequest 2 [mkBody 0x40]) 0 0x40 1 = 0 ∧
    (wire (post (.streamRead 0) (stOf (withRequest 2 [mkBody 0x40]))) (tapTile 0) 5 4).length = 2 := by decide +kernel

/-- An idle controller 0 with scrubbing and inline ECC on, and a mark on line 0. -/
def toScrub (mark : Nat) : Chip :=
  { chipOf [(Reg.MEM_M_STATUS 0, 0x40000000), (Reg.MEM_STATUS, 0x800F007C), (Reg.MEM_SCRUB_CFG, 0x80000000)] with ecc := [(1, mark)] }

theorem test_scrub_hypotheses : rflag (toScrub 1) Reg.MEM_SCRUB_CFG 31 = true ∧ memPresent (toScrub 1) 0 = true ∧
    memServes (toScrub 1) 0 = true ∧ lineError (toScrub 1) (deviceLine (toScrub 1) 0 0) = 1 ∧
    lineError (toScrub 2) (deviceLine (toScrub 2) 0 0) = 2 := by decide +kernel

theorem test_scrub_read : reg (post (.scrubRead 0) (stOf (toScrub 1))) (Reg.MEM_M_CE 0) = 1#32 ∧
    (post (.scrubRead 0) (stOf (toScrub 1))).ecc = [] ∧ reg (post (.scrubRead 0) (stOf (toScrub 2))) (Reg.MEM_M_ERR_ADDR_LO 0) = 1#32 := by
  decide +kernel

theorem test_scrub_good_line : lineError { toScrub 1 with ecc := [] } (deviceLine (toScrub 1) 0 0) = 0 ∧
    numOf (post (.scrubRead 0) (stOf { toScrub 1 with ecc := [] })).scrubAt 0 = 1 := by decide +kernel

/-- Region 2 of KIND 1 while timebase 0 runs, and region 2 over the lines of a valid region 3. -/
def lockedRegion : Chip := chipOf [(Reg.MEM_REGION_ATTR 2, 0x80000100), (Reg.TICK_TB_CTRL 0, 0x80000000)]
def metRegion : Chip := chipOf [(Reg.MEM_REGION_SIZE 3, 4), (Reg.MEM_REGION_ATTR 3, 0x80000200), (Reg.MEM_REGION_ATTR 2, 0x80000200)]

theorem test_region_write_refused : post (.regionWrite 2 1 9) (stOf lockedRegion) = lockedRegion ∧
    post (.regionWrite 2 1 9) (stOf metRegion) = metRegion := by decide +kernel

theorem test_region_write : regionValid (reg ({} : Chip) (Reg.MEM_REGION_ATTR 3)) = false ∧ rfld ({} : Chip) (Reg.MEM_REGION_ATTR 2) 10 8 = 0 ∧
    reg (post (.regionWrite 2 1 0xFFFFFFFF) (stOf {})) (Reg.MEM_REGION_SIZE 2) = 0x3FFFFF#32 ∧
    anyTimebase (chipOf [(Reg.MEM_REGION_ATTR 2, 0x80000100), (Reg.TICK_TB_CTRL 0, 0x80000000)]) = true := by decide +kernel

theorem test_controller_trained : memState (chipOf [(Reg.MEM_M_STATUS 1, 0x20000000)]) 1 = 1 ∧
    reg (post (.controllerTrained 1 true) (stOf (chipOf [(Reg.MEM_M_STATUS 1, 0x20000000)]))) (Reg.MEM_M_STATUS 1) = 0x50000000#32 ∧
    reg (post (.controllerTrained 1 false) (stOf (chipOf [(Reg.MEM_M_STATUS 1, 0x20000000), (Reg.BOOT_STATUS, 0x58000000)])))
      (Reg.MEM_M_FAULT 1) = 8#32 := by decide +kernel

/-! ### Stream ports and encoders -/

/-- Port 3 with LINK_EN; `link` is its link status and `st` its encoder's state. -/
def atPort (link st : Nat) : Chip :=
  chipOf [(Reg.ENC_CTRL 3, 4), (Reg.ENC_LINK_STATUS 3, link), (Reg.ENC_STATUS 3, 0x20000000 * st), (Reg.ENC_LINK_CFG 3, 0x100), (Reg.PWR_PAD_HELD, 0)]

theorem test_link_enable : portOn ({} : Chip) 3 = true ∧ rflag (post (.linkEnSet 3) (stOf {})) (Reg.ENC_CTRL 3) 2 = true := by
  decide +kernel

theorem test_data_phase : linkUp (atPort 0 1) 3 = false ∧ padHeld (atPort 0 1) 3 = false ∧
    reg (post (.dataPhase 3 false 9) (stOf (atPort 0 1))) (Reg.ENC_LINK_STATUS 3) = 0x333#32 ∧
    (enc (post (.dataPhase 3 false 9) (stOf (atPort 0 1))) 3).cap = [{ time := 9, kind := 2, data := [] }] ∧
    reg (post (.dataPhase 3 true 9) (stOf (atPort 0 1))) (Reg.ENC_LINK_STATUS 3) = 0x332#32 := by decide +kernel

theorem test_multiblock : (enc (post (.multiblockRx 3 9 [5#16] true) (stOf (atPort 0x333 1))) 3).cap = [{ time := 9, kind := 0, data := [5#16] }] ∧
    reg (post (.multiblockRx 3 9 [5#16] true) (stOf (atPort 0x333 1))) (Reg.ENC_CRC_ERR 3) = 1#32 ∧
    (enc (post (.multiblockRx 3 9 [5#16] true) (stOf (atPort 0x333 0))) 3).cap = [] := by decide +kernel

theorem test_lane_loss : linkUp (atPort 0x333 1) 3 = true ∧
    reg (post (.laneLockLoss 3 1 9) (stOf (atPort 0x333 1))) (Reg.ENC_LINK_STATUS 3) = 0x110#32 ∧
    rflag (post (.portSysrefEdge 3 false) (stOf (atPort 0x333 1))) (Reg.ENC_FAULT 3) 3 = true := by decide +kernel

/-- Port 3 with a replay source of one magnitude feature. -/
def toRun (lead : Nat) : Chip := chipOf [(Reg.ENC_CTRL 3, 2), (Reg.ENC_FEAT_CFG 3, 1), (Reg.ENC_SEG 3, 1), (Reg.ENC_SPT 3, 2), (Reg.ENC_GEN_CFG 3, 0x100),
  (Reg.ENC_CAPTURE_LEAD 3, lead), (Reg.ENC_LINK_CFG 3, 0x10000)]

theorem test_illegal_configuration : encState ({} : Chip) 3 = 0 ∧ featLegal (toRun 65535) 3 = true ∧
    encLegal (setReg (Reg.ENC_FEAT_CFG 3) 0xFFFFFFFF#32 (toRun 65535)) 3 = false := by decide +kernel

/-- CAPTURE_LEAD 65,535 is not below any pipeline latency of 16 bits. -/
theorem test_legal_configuration : encLegal (toRun 65535) 3 = true := by
  have h1 : featLegal (toRun 65535) 3 = true ∧ groupsOf (toRun 65535) 3 ≤ 256 ∧ 1 ≤ rfld (toRun 65535) (Reg.ENC_GEN_CFG 3) 14 8 ∧
      encReplays (toRun 65535) 3 = true ∧ packed12 (toRun 65535) 3 = false ∧ rfld (toRun 65535) (Reg.ENC_CAPTURE_LEAD 3) 15 0 = 65535 ∧ linkLegal (toRun 65535) 3 = true := by
    decide +kernel
  have h : pipeLatOf (toRun 65535) 3 ≤ 65535 := Nat.le_of_lt_succ (BitVec.isLt _)
  obtain ⟨a, b, d, e, f, g, k⟩ := h1
  simp [encLegal, a, b, d, e, f, g, h, k]

theorem test_run_clear : encState (post (.encRunClear 3) (stOf (atPort 0 1))) 3 = 0 ∧ encState (post (.encRunClear 3) (stOf (atPort 0 2))) 3 = 3 ∧
    encState (atPort 0 2) 3 ≠ 0 := by decide +kernel

theorem test_settings : reg (post (.encRouteWrite 3 1 2 0 0xFFFFFFFF) (stOf {})) (Reg.ENC_ROUTE 3 1 2 0) = 0xFFFF0FFF#32 ∧
    rfld ({} : Chip) (Reg.ENC_EPOCH 3) 0 0 = 0 ∧ rflag (post (.qntFreeze 3 true) (stOf {})) (Reg.QNT_CFG 3) 9 = true := by decide +kernel

/-- Encoder 3 with the event flit `d` to inject by tap 0, live or replayed, and that tap good. -/
def toInject (again : Bool) : Chip :=
  let d := mkEvent 0 0 0 0 0 1 0 0 7 1
  modEnc 3 (fun E => if again then { E with resend := [(0, d)] } else { E with live := [(0, d)] }) (putByte (fpBase + 0x21) 8#8 {})

theorem test_inject : tapGood (toInject false) ((portTaps 3).getD 0 0) = true ∧ injectTap (toInject false) 3 0 = 0 ∧
    inRoom (toInject false) (tapTile 11) 5 0 = true ∧ domOn (toInject false) (fieldOf (tapTile 11)) = true ∧
    (wire (post (.encoderInject 3 0 9) (stOf (toInject false))) (tapTile 11) 5 0).length = 1 ∧
    (wire (post (.encoderInject 3 0 9) (stOf (toInject true))) (tapTile 11) 5 0).length = 1 := by decide +kernel

theorem test_deadline : encClean (toInject false) 3 = false ∧ encClean ({} : Chip) 3 = true ∧
    rflag (post (.injDeadline 3) (stOf (toInject false))) (Reg.ENC_FAULT 3) 5 = true := by decide +kernel

/-- Encoder 3 asked for step 0, which it holds or has lost. -/
def toReplay (held : Bool) : Chip :=
  modEnc 3 (fun E => { E with asked := [0], held := if held then [{ step := 0, flits := [(0, 1#64)] }] else [] }) {}

theorem test_replay : jobStep (toReplay true) (encJob (toReplay true) 3) = 0 ∧ (jobAt (toReplay true) (encJob (toReplay true) 3)).resendDue = false ∧
    (enc (post (.encoderReplay 3) (stOf (toReplay true))) 3).resend = [(0, 1#64)] ∧
    (post (.encoderReplay 3) (stOf (toReplay false))).reports = [{ job := 0, step := 0, cause := 8, tile := 0, checker := 0 }] := by
  decide +kernel

/-! ### Result records and MSI-X -/

/-- Control tap 1 with a RESULT message of 16 bytes for stream 2 from tile 9, and DEC_S_2 configured. -/
def withResult (cfg : Nat) : Chip :=
  { chipOf [(Reg.DEC_S_CFG 2, cfg)] with
    tapIn := [(8 * 49 + 2, packet 2 (mkHead 2 0 0 0 0 0 3 9 (messageSub 2 16 1)) [mkBody 0x02000005, mkBody 0, mkBody 0])] }

theorem test_result_message : (tapTake 49 2 (withResult 0x80000009)).isSome = true ∧ portOn (withResult 0x80000009) 2 = true ∧
    ((streamAt (post (.resultMessage 1) (stOf (withResult 0x80000009))) 2).waiting.map (fun r => r.wlen)) = [0] ∧
    (streamAt (post (.resultMessage 1) (stOf (withResult 0x80000009))) 2).waiting.length = 1 ∧
    reg (post (.resultMessage 1) (stOf (withResult 0))) (Reg.DEC_S_DISCARD 2) = 1#32 := by decide +kernel

theorem test_result_message_restarting :
    (streamAt (post (.resultMessage 1) (stOf (modJob 0 (fun J => { J with restarting := true }) (withResult 0x80000009)))) 2).waiting = [] ∧
    streamJob (withResult 0x80000009) 2 = 0 := by decide +kernel

/-- Stream 2 with a record of step 4 of its job, which is not checked, while the timebase is at step 6. -/
def toRelease : Chip := chipOf [(Reg.DEC_S_STATUS 2, 255), (Reg.TICK_TB_NOW_LO 0, 6)]
  |> modStream 2 (fun S => { S with waiting := [{ step := 4, wlen := 0, cls := 1, score := 2, ruCls := 3, ruScore := 4, anomaly := 5 }] })

theorem test_release : releasable toRelease 0 { step := 4, wlen := 0, cls := 1, score := 2, ruCls := 3, ruScore := 4, anomaly := 5 } = true ∧
    streamJob toRelease 2 = 0 ∧ (streamAt (post (.resultRelease 2) (stOf toRelease)) 2).out.length = 1 ∧
    rfld (post (.resultRelease 2) (stOf toRelease)) (Reg.DEC_S_STATUS 2) 7 0 = 1 := by decide +kernel

/-- Ring 2 enabled at host address 0x1000 with write-back at 0x2000, PCI Express up, and a released record. -/
def toRing : Chip := chipOf [(Reg.HIF_RR_CFG 2, 0x80080000), (Reg.HIF_RR_BASE_LO 2, 0x1000), (Reg.HIF_RR_WB_LO 2, 0x2000), (Reg.HIF_LINK_STATUS, 1)]
  |> modStream 2 (fun S => { S with out := [[7#8]] })

theorem test_ring_write : hostReached toRing = true ∧ rrUsed toRing 2 < rrSize toRing 2 ∧ rflag toRing (Reg.HIF_RR_CFG 2) 31 = true ∧
    rfld toRing (Reg.HIF_RR_CFG 2) 15 0 = 0 ∧ (post (.resultRingWrite 2) (stOf toRing)).host.mem = [(0x1000, 7#8), (0x2000, 1#8)] ∧
    reg (post (.resultRingWrite 2) (stOf toRing)) (Reg.HIF_RR_WPTR 2) = 1#32 := by decide +kernel

theorem test_ring_pointer :
    reg (post (.rrRptrWrite 2 1) (stOf (putNum (Reg.HIF_RR_WPTR 2) 2 toRing))) (Reg.HIF_RR_RPTR 2) = 1#32 ∧
    rflag (post (.rrRptrWrite 2 3) (stOf (putNum (Reg.HIF_RR_WPTR 2) 2 toRing))) Reg.HIF_FAULT 2 = true := by decide +kernel

theorem test_ring_enable : rflag ({} : Chip) (Reg.HIF_RR_CFG 2) 31 = false ∧
    reg (post (.resultRingEnable 2 0x80080000) (stOf (chipOf [(Reg.HIF_RR_WPTR 2, 9)]))) (Reg.HIF_RR_WPTR 2) = 0#32 ∧
    reg (post (.resultRingEnable 2 0x80100000) (stOf toRing)) (Reg.HIF_RR_CFG 2) = 0x80080000#32 := by decide +kernel

/-- PCI Express up, vector 5 with address 0x3000 and data 9, masked or not, and a message of it pending or not. -/
def withVector (mask : Word) (pend : DWord) : Chip :=
  let c := chipOf [(Reg.HIF_LINK_STATUS, 1)]
  { c with host := { c.host with table := [(20, 0x3000#32), (22, 9#32)] ++ (if mask = 0#32 then [(23, 0#32)] else []), pend := pend } }

theorem test_msix_request : msixMasked (withVector 0 0) 5 = false ∧ msixMasked (withVector 1 0) 5 = true ∧ hostReached (withVector 0 0) = true ∧
    (post (.msixRequest 5) (stOf (withVector 0 0))).host.mem = [(0x3000, 9#8)] ∧
    (post (.msixRequest 5) (stOf (withVector 1 0))).host.pend = 32#64 := by decide +kernel

theorem test_msix_unmask : (post (.msixUnmask 5 3 0 false) (stOf (withVector 1 0x60))).host.pend = 0x40#64 ∧
    (post (.msixUnmask 5 3 0 false) (stOf (withVector 1 0x60))).host.mem = [(0x3000, 9#8)] ∧
    (post (.msixUnmask 5 3 0 true) (stOf (withVector 1 0x60))).host.pend = 0x60#64 := by decide +kernel

/-! ### Timebases and steps -/

/-- SYSREF locked at 2,000 rclk and timebase 2 with the update from 100 to 300. -/
def lockedTb : List (Nat × Nat) :=
  [(Reg.TICK_SYSREF_STATUS, 0x80000000 + 2000), (Reg.TICK_TB_USTART 2, 100), (Reg.TICK_TB_UEND 2, 300)]

theorem test_enable : enableOk (setReg (Reg.TICK_TB_CTRL 2) (0x80300001#32 &&& 0x13F0FFFF#32) (chipOf lockedTb)) 2 = true ∧
    rfld (post (.tbEnable 2 0x80300001) (stOf (chipOf lockedTb))) (Reg.CHK_JOB_STATE 3) 31 29 = 1 ∧
    reg (post (.tbEnable 2 0x80300001) (stOf (chipOf lockedTb))) (Reg.TICK_TB_PERIOD 2) = 8000#32 ∧
    rflag (post (.tbEnable 2 0x80300001) (stOf {})) (Reg.TICK_TB_CTRL 2) 27 = true ∧ stopPending ({} : Chip) 2 = false ∧
    tbEnabled ({} : Chip) 2 = false := by decide +kernel

/-- Timebase 2 of job 3 with control word `ctl` in phase `ph`, begun at 1,000. -/
def atPhase (ctl : Nat) (ph : Phase) : Chip :=
  chipOf (lockedTb ++ [(Reg.TICK_TB_CTRL 2, ctl + 0x00300001), (Reg.TICK_TB_NOW_LO 2, 7)])
    |> modTb 2 (fun T => { T with phase := ph, tickAt := 1000 }) |> modJob 3 (fun J => { J with tb := 2 })

theorem test_stop : tbEnabled (atPhase 0xA0000000 .idle) 2 = true ∧ betweenSteps (atPhase 0x60000000 .idle) 2 = true ∧
    reg (post (.tbDisable 2) (stOf (atPhase 0xA0000000 .update))) (Reg.TICK_TB_CTRL 2) = 0x60300001#32 ∧
    reg (post (.tbStopComplete 2) (stOf (atPhase 0x60000000 .idle))) (Reg.TICK_TB_CTRL 2) = 0x00300001#32 ∧
    betweenSteps (atPhase 0x60000000 .update) 2 = false := by decide +kernel

/-- A hold asked of timebase 2 between steps. -/
def toHold : Chip := modTb 2 (fun T => { T with holdReq := true }) (atPhase 0xA0000000 .idle)

theorem test_hold : holdsNow toHold 2 = true ∧ stopPending toHold 2 = false ∧
    (tbAt (post (.tbStopComplete 2) (stOf toHold)) 2).held = true := by decide +kernel

/-- SYSREF tracked with status `st`, the last edge at 1,000 and the next predicted at 3,000. -/
def tracked (cfg st : Nat) : Chip :=
  { chipOf [(Reg.TICK_SYSREF_CFG, cfg), (Reg.TICK_SYSREF_STATUS, st)] with sysref := { lastEdge := some 1000, predicted := some 3000, good := 7 } }

theorem test_sysref_lock : reg (post (.sysrefEdge 3001) (stOf (tracked 0x00020801 2000))) Reg.TICK_SYSREF_STATUS = 0x800007D1#32 ∧
    reg (post (.sysrefEdge 3003) (stOf (tracked 0x00020801 2000))) Reg.TICK_SYSREF_STATUS = 2003#32 := by decide +kernel

theorem test_sysref_follow : (post (.sysrefEdge 3001) (stOf (tracked 0x00020801 0x800007D0))).sysref.predicted = some 5001 ∧
    reg (post (.sysrefEdge 3003) (stOf (tracked 0x00020801 0x800007D0))) Reg.TICK_SYSREF_SLIP_COUNT = 1#32 := by decide +kernel

theorem test_sysref_miss : reg (post (.sysrefMiss 3003) (stOf (tracked 0x00020801 0x800007D0))) Reg.TICK_SYSREF_STATUS = 2000#32 ∧
    reg (post (.sysrefMiss 3003) (stOf (tracked 0x00020803 0x800007D0))) Reg.TICK_SYSREF_STATUS = 0xC00007D0#32 ∧
    (post (.holdoverEdge 3000) (stOf (tracked 0x00020803 0xC00007D0))).sysref.predicted = some 5000 := by decide +kernel

/-- Timebase 2 at a boundary due at 5,000. -/
def atBoundary (armed : Bool) : Chip :=
  modTb 2 (fun T => { T with armed := armed, dueAt := some 5000 }) (putNum (Reg.TICK_TB_START_LO 2) 40 (atPhase 0x80000000 .settle))

theorem test_tick : (tbAt (atBoundary true) 2).held = false ∧ freeRun (atBoundary true) 2 = false ∧ jobOfTb (atBoundary true) 2 = 3 ∧
    (jobAt (atBoundary true) 3).replay = none ∧ tickNow (post (.tick 2 5003) (stOf (atBoundary true))) 2 = 40 ∧
    tickNow (post (.tick 2 5003) (stOf (atBoundary false))) 2 = 8 ∧
    (tbAt (post (.tick 2 5003) (stOf (atBoundary false))) 2).tickAt = 5000 := by decide +kernel

theorem test_free_run_tick : freeRun (atPhase 0x81000000 .settle) 2 = true ∧ settleDone (atPhase 0x81000000 .settle) 2 = true ∧
    reg (post (.freeRunTick 2 1500) (stOf (atPhase 0x81000000 .settle))) (Reg.TICK_TB_PERIOD 2) = 500#32 := by decide +kernel

theorem test_strobe : (tbAt (noteFabrics 1020 (atPhase 0x80000000 .integrate)) 2).phase = .integrate ∧
    tbEnabled (noteFabrics 1020 (atPhase 0x80000000 .integrate)) 2 = true ∧
    goTime (noteFabrics 1020 (atPhase 0x80000000 .integrate)) 2 1020 = 1020 ∧
    reg (post (.quiescenceStrobe 1020) (stOf (atPhase 0x80000000 .integrate))) (Reg.TICK_TB_QUIESCE_LAST 2) = 20#32 ∧
    goTime (atPhase 0x80000000 .integrate) 2 1101 = 1100 ∧
    (tbAt (post (.quiescenceStrobe 1101) (stOf (atPhase 0x80000000 .integrate))) 2).quiet = false := by decide +kernel

theorem test_update_go :
    (tbAt (post (.updateGo 2 1120) (stOf (modTb 2 (fun T => { T with quiet := true }) (atPhase 0x80000000 .integrate)))) 2).goAt = 100 ∧
    (tbAt (post (.updateEnd 2 1320) (stOf (modTb 2 (fun T => { T with goAt := 120 }) (atPhase 0x80000000 .update)))) 2).endAt = 320 := by
  decide +kernel

theorem test_forced_go : stretchOf (atPhase 0x80000000 .integrate) 2 = 0 ∧
    reg (post (.forcedUpdateGo 2 1120) (stOf (atPhase 0x80000000 .integrate))) (Reg.TICK_TB_OVERRUN_COUNT 2) = 1#32 ∧
    reg (post (.freeTimeout 2 200000000) (stOf (atPhase 0x81000000 .integrate))) (Reg.TICK_TB_EVENT 2) = 9#32 := by decide +kernel

/-! ### Integrity, replay and restart -/

/-- Tile 5 at word `w` after update end, sampled with its stream closed or open. -/
def atCheck (w : Nat) (sampled closed : Bool) (peer : Word) : Chip := atSchedule w .settle
  |> modTile 5 (fun T => { T with chk := { sampled := sampled, checked := sampled, digest := 7#32, peer := peer }, seq := { T.seq with sampleClosed := closed } })

theorem test_sample_check : atWord (atCheck 0x2C000000 true false 0) 5 0x0B = true ∧ endReached (atCheck 0x2C000000 true false 0) 5 = true ∧
    (tile (post (.sampleCheck 5 true) (stOf (atCheck 0x2C000000 true false 0))) 5).seq.sampleClosed = true ∧
    (post (.sampleCheck 5 false) (stOf (atCheck 0x2C000000 true false 0))).free = 2 := by decide +kernel

theorem test_digest : atWord (atCheck 0x1C000000 true true 9) 5 7 = true ∧ jobOfTile (atCheck 0x1C000000 true true 9) 5 = some 0 ∧
    reg (post (.digest 5) (stOf (atCheck 0x1C000000 true true 9))) (Reg.CHK_T_MISMATCH 5) = 1#32 ∧
    (post (.digest 5) (stOf (atCheck 0x1C000000 true true 9))).reports = [{ job := 0, step := 0, cause := 0, tile := 5, checker := 6 }] ∧
    (post (.digest 5) (stOf (atCheck 0x1C000000 true true 7))).reports = [] ∧
    (tile (post (.digest 5) (stOf (atCheck 0x1C000000 false false 7))) 5).seq.pc = 1 := by decide +kernel

/-- Tile 5 at a CENSUS word with 6 copies sent of parity 1, its counts given or not. -/
def atCensus (given : Bool) : Chip := atSchedule 0x30000000 .settle
  |> modTile 5 (fun T => { T with census := [(4, 6)], seq := { T.seq with censused := given } })

theorem test_census : atWord (atCensus false) 5 0x0C = true ∧ tbOfTile (atCensus false) 5 = some 0 ∧ censusParity (tileStep (atCensus false) 5) = 1 ∧
    contributionLeft (atCensus true) 5 (bits (wordAt (atCensus true) 5) 3 0) 0 1 = true ∧ (tile (post (.census 5) (stOf (atCensus true))) 5).seq.pc = 1 ∧
    contributionLeft (modRouter 5 (fun R => { R with coll := [(stepKey 0 0 1, { got := [4], value := 6 })] }) (atCensus true)) 5 0 0 1 = false := by
  decide +kernel

/-- A report of an uncorrectable error at tile 5 in step 7 of job 3. -/
def withReport : Chip := { ({} : Chip) with reports := [{ job := 3, step := 7, cause := 3, tile := 5, checker := 5 }] }

theorem test_fail_report : stepMarked withReport 3 7 4 = false ∧ causesOf (post .failReport (stOf withReport)) 3 7 = 8 ∧
    reg (post .failReport (stOf withReport)) (Reg.CHK_CNT 10) = 1#32 := by decide +kernel

/-- Timebase 2 of job 3 settled, with no good root tap and encoders that have sent `n` copies, one late. -/
def toSum (n : Nat) : Chip := atPhase 0x80000000 .settle |> modJob 3 (fun J => { J with census := true })
  |> fun c => { c with gw := { c.gw with census := [(16, n), (17, 1), (19, 1)] } }

theorem test_step_census : censusParity (jobStep (toSum 1) (jobOfTb (toSum 1) 2)) = 0 ∧ censusSum (toSum 1) 2 0 0 = some 1 ∧
    censusSum (toSum 1) 2 1 0 = some 1 ∧ censusSum (toSum 1) 2 2 0 = some 0 ∧ censusSum (toSum 1) 2 3 0 = some 1 ∧
    (tbAt (post (.stepCensusDone 2) (stOf (toSum 1))) 2).censusDone = true ∧
    reg (post (.stepCensusDone 2) (stOf (toSum 1))) (Reg.TICK_TB_LATE_COUNT 2) = 1#32 ∧
    (jobAt (toSum 1) 3).unjudged = none ∧ (post (.stepCensusDone 2) (stOf (toSum 2))).reports = [] ∧
    causesOf (post (.stepCensusDone 2) (stOf (toSum 2))) 3 7 = 2 := by decide +kernel

/-- The same with checking on. -/
def toJudge (n : Nat) : Chip := setReg (Reg.CHK_JOB_CFG 3) 0x80000000#32 (toSum n)

theorem test_verdict : openVerdict (toJudge 1) 3 7 = true ∧ (jobAt (toJudge 1) 3).tb = 2 ∧
    verdictOf (post (.stepCensusDone 2) (stOf (toJudge 1))) 3 7 = 1 ∧ verdictOf (post (.stepCensusDone 2) (stOf (toJudge 2))) 3 7 = 2 := by
  decide +kernel

/-- Job 3 with a rewind of step 7 due. -/
def toRewind : Chip := modJob 3 (fun J => { J with rewindDue := some 7 }) (atPhase 0x80000000 .update)

theorem test_rewind : (jobAt toRewind 3).restarting = false ∧ (jobAt (post (.rewind 3) (stOf toRewind)) 3).replay = some 7 ∧
    reg (post (.rewind 3) (stOf toRewind)) (Reg.CHK_JOB_STATE 3) = 0x60000007#32 ∧
    (tbAt (post (.rewind 3) (stOf toRewind)) 2).parity = 0 := by decide +kernel

/-- Job 3 at the end of its replay of step 7; the tick of step 8 has come at 5,000 or not. -/
def atReplayEnd (came : Bool) : Chip := atPhase 0x80000000 .settle
  |> modJob 3 (fun J => { J with replay := some 7, tickInReplay := came }) |> modTb 2 (fun T => { T with laterTick := 5000 })

theorem test_replay_end : allEnded (atReplayEnd true) 2 = true ∧ (jobAt (atReplayEnd true) 3).tb = 2 ∧
    (tbAt (post (.replayEndStep 3 5000) (stOf (atReplayEnd true))) 2).tickAt = 5000 ∧
    reg (post (.replayEndStep 3 5000) (stOf (atReplayEnd false))) (Reg.CHK_JOB_STATE 3) = 0x20000000#32 := by decide +kernel

/-- Job 3 restarts at step 7. -/
def restartingJob : Chip := modJob 3 (fun J => { J with restarting := true }) (atPhase 0x80000000 .idle)

theorem test_resume : step16 (tickNow restartingJob 2) (fld 0x80000009#32 15 0) = 9 ∧
    (jobAt (post (.resumeWrite 3 0x80000009) (stOf restartingJob)) 3).resume = some 9 ∧
    (jobAt (post (.resumeWrite 3 0x80000009) (stOf ({} : Chip))) 3).resume = none ∧ beingReplaced restartingJob 3 = false ∧
    beingReplaced { restartingJob with loading := 1, accepted := some { hdr := List.replicate 0x28 0#8 ++ [8#8], ss := [] } } 3 = true := by
  decide +kernel

/-! ### Fabric links -/

/-- Engine 3 in state `st` of a torus of 4 by 1, with the licence for `lic` devices, its engine good and EN set. -/
def atLink (st lic : Nat) : Chip :=
  chipOf [(Reg.NLK_STATUS 3, 0x20000000 * st), (Reg.GW_TOPO, 0xC01), (Reg.NLK_CTRL 3, 0x80000000)]
    |> (fun c => { c with loadGrants := [(3, BitVec.ofNat 32 (0x80000000 + lic))] }) |> putByte (fpBase + 0x1B) 0xFF#8

theorem test_link_starts : linkUsable (atLink 0 4) 3 = true ∧ overLicence (atLink 0 4) = false ∧ overLicence (atLink 0 1) = true ∧
    linkState (post (.nlkEnSet 3) (stOf (atLink 0 4))) 3 = 1 ∧ rflag (post (.nlkEnSet 3) (stOf (atLink 0 1))) Reg.GW_FAULT 6 = true ∧
    linkState (post (.trainRetry 3) (stOf (atLink 5 4))) 3 = 1 := by decide +kernel

theorem test_link_trained : linkState (post (.linkTrained 3 255) (stOf (atLink 1 4))) 3 = 2 ∧
    linkState (post (.linkTrained 3 0x0F) (stOf (atLink 1 4))) 3 = 1 ∧
    rflag (post (.linkTrained 3 0xF0) (stOf (setReg (Reg.NLK_CTRL 3) 0x80000100#32 (atLink 4 4)))) (Reg.NLK_STATUS 3) 28 = true := by
  decide +kernel

/-- A control frame of type `ctype` from engine 1 of device `dev`, with 9 flits free on FVC 0. -/
def controlFrame (ctype dev : Nat) : BitVec 256 :=
  mkFrame 3 0 0 0 0 [BitVec.ofNat 64 (mk 63 60 ctype + mk 59 50 dev + mk 49 47 1 + mk 46 42 3), 0x900#64, 0#64]

theorem test_hello : isControl (controlFrame 0 2) 0 = true ∧ peerOk (atLink 2 4) 3 (controlFrame 0 2) = true ∧
    peerOk (atLink 2 4) 3 (controlFrame 0 3) = false ∧
    rfld (post (.hello 3 (controlFrame 0 2)) (stOf (atLink 2 4))) (Reg.NLK_STATUS 3) 12 0 = 1026 ∧
    rflag (post (.hello 3 (controlFrame 0 3)) (stOf (atLink 2 4))) (Reg.NLK_FAULT 3) 5 = true := by decide +kernel

theorem test_hello_again : (linkAt (post (.linkTrained 3 255) (stOf (modLink 3 (fun L => { L with helloDue := true }) (atLink 2 4)))) 3).out.length = 1 ∧
    linkState (post (.opticalLaneLosesLock 3 2) (stOf (atLink 2 4))) 3 = 4 := by decide +kernel

theorem test_hello_ack : (linkAt (atLink 2 4) 3).retry = [] ∧
    txCredit (post (.helloAck 3 (controlFrame 1 2) 70) (stOf (atLink 2 4))) 3 0 = 9 ∧
    linkIsUp (post (.ready 3) (after (.helloAck 3 (controlFrame 1 2) 70) (stOf (atLink 2 4)))) 3 = true := by decide +kernel

theorem test_retrain : linkIsUp (atLink 3 4) 3 = true ∧ reg (post (.retrain 3) (stOf (atLink 3 4))) (Reg.NLK_RETRAINS 3) = 1#32 ∧
    linkState (post (.retrainFail 3) (stOf (atLink 4 4))) 3 = 5 ∧
    linkState (post (.opticalLaneLosesLock 3 2) (stOf (atLink 3 4))) 3 = 4 := by decide +kernel

theorem test_frame_rx : Machine.frameOk (mkFrame 0 0 0 0 0 [0x3C#64]) = true ∧ frType (mkFrame 0 0 0 0 0 [0x3C#64]) = 0 ∧ Machine.frameOk 0#256 = false ∧
    linkIsUp (atLink 3 4) 3 = true ∧ rxAt (post (.linkFrameRx 3 (mkFrame 0 0 0 0 0 [0x3C#64])) (stOf (atLink 3 4))) 3 3 = [0x3C#64] := by
  decide +kernel

/-- Engine 3 up with one unacknowledged frame and a flit of FVC 0 that has no credit. -/
def withRetry : Chip := modLink 3 (fun L => { L with
  retry := [(5, [{ fvc := 3, flit := 0x3C#64, tb := none, epoch := none }])]
  queue := [{ fvc := 0, flit := 12#64, tb := none, epoch := none }] }) (atLink 3 4)

theorem test_retry : (linkAt (post (.retryTimeout 3 0) (stOf withRetry)) 3).out = [mkFrame 0 5 1023 0 0 [0x3C#64]] ∧
    linkState (post (.retryTimeout 3 65535) (stOf withRetry)) 3 = 4 ∧
    reg (post (.retryRequest 3 (mkFrame 2 0 1023 0 0 []) 0) (stOf withRetry)) (Reg.NLK_RETRIES 3) = 1#32 ∧
    frType (mkFrame 2 0 1023 0 0 []) = 2 ∧ txCredit withRetry 3 0 = 0 ∧
    rflag (post (.nlkCreditWdog 3 0) (stOf withRetry)) (Reg.NLK_FAULT 3) 4 = true := by decide +kernel

/-! ### Gateways and the fabric -/

/-- Device 1 of a torus of 4 by 1, with job 3 of timebase 2 on it alone and this device its root. -/
def onFabric : List (Nat × Nat) := [(Reg.GW_TOPO, 0xC01), (Reg.GW_JOB_CFG 3, 0x80000001), (Reg.GW_JOB_RECT 3, 1 * 32768)]

/-- That device with event `f` at gateway tap 0 and outbound entry 5 as given; engines down. -/
def toLeave (x : DWord) (f : Flit) : Chip :=
  { chipOf (onFabric ++ [(Reg.GW_OUT_WIN 0, 0x00000100)]) with tapIn := [(0, [f])], gw := { outTable := [(5, x)] } }

theorem test_outbound_event : tapUnit 0 = .engine 0 ∧ (tapEvent 0 (toLeave (1#64 <<< 63) (oneFlit 0 (mkEvent 0 0 0 0 0 8 2 0 5 1)))).isSome = true ∧
    (listOf (post (.outboundEvent 0) (stOf (toLeave (1#64 <<< 63) (oneFlit 0 (mkEvent 0 0 0 0 0 8 2 0 5 1))))).gw.hold 0).length = 1 ∧
    reg (post (.outboundEvent 0) (stOf (toLeave 0 (oneFlit 0 (mkEvent 0 0 0 0 0 8 2 0 5 1))))) Reg.GW_DROP_NOKEY = 1#32 := by decide +kernel

/-- The device with engine 3 (X+) up and a message at gateway tap 0. -/
def packetLeaves : Chip :=
  { chipOf (onFabric ++ [(Reg.NLK_STATUS 3, 0x60000000)]) with tapIn := [(2, packet 2 (mkHead 2 0 0 0 8 2 1 9 0) [mkBody 7])] }

theorem test_outbound_packet : fabDir packetLeaves 2 = some 1 ∧
    ([2, 3, 4, 5].findSome? (fun v => tapTake 0 v packetLeaves)).isSome = true ∧ engineFor packetLeaves 1 1 = some 3 ∧
    ((linkAt (post (.outboundPacket 0 2) (stOf packetLeaves)) 3).queue.map (fun f => f.fvc)) = [2, 2, 2] := by decide +kernel

/-- A reply of tile 9 with TAG 4 at gateway tap 0, and the request of device 3 that it answers. -/
def replyLeaves : Chip :=
  { packetLeaves with
    tapIn := [(4, packet 4 (mkHead 5 0 0 0 2 0 1 9 4) [mkBody 7])]
    gw := { asked := [{ src := 2, tile := 2, tag := 4 }] } }

theorem test_reply_goes_back : (nextPacketHead 0 replyLeaves).map (fun h => answersTo h { src := 2, tile := 2, tag := 4 }) = some true ∧
    (nextPacketHead 0 replyLeaves).map (fun h => (packetDest h 3 replyLeaves).1) = some 2 ∧
    (post (.outboundPacket 0 3) (stOf replyLeaves)).gw.asked = [] ∧
    ((linkAt (post (.outboundPacket 0 3) (stOf replyLeaves)) 3).queue.map (fun f => xDest f.flit)).head? = some 2 := by decide +kernel

/-- The device with flits `fs` at the front of FVC `v` of engine 3, good gateway taps in row 0, and key table entry 7 as given. -/
def received (v : Nat) (fs : List DWord) (x : DWord) : Chip :=
  { chipOf onFabric with gw := { keyTable := [(7, x)] } } |> putByte (fpBase + 0x20) 0xFF#8 |> modLink 3 (fun L => { L with rx := [(v, fs)] })

/-- A fabric event of key 7 for device `dest`, and an entry that sends it to tile (9, 2) by tap row 0. -/
def fabricFlit (dest : Nat) : DWord := BitVec.ofNat 64 (mk 55 46 dest + mk 39 22 7 + mk 21 14 5 + 12)
def keyEntry : DWord := BitVec.ofNat 64 (2 ^ 63 + mk 60 54 9 + mk 53 48 2)

theorem test_transit : eventHop (received 0 [fabricFlit 2] 0) (fabricFlit 2) = (false, some 1) ∧
    isForwarded (received 0 [fabricFlit 2] 0) 3 0 = false ∧ switchRoom (received 0 [fabricFlit 2] 0) 0 1 (xLane (fabricFlit 2)) (some (1, 0)) = true ∧
    reg (post (.fabricTransit 3 0) (stOf (received 0 [fabricFlit 2] 0))) Reg.GW_DROP_UNREACH = 1#32 ∧
    rxAt (post (.fabricTransit 3 0) (stOf (received 0 [fabricFlit 2] 0))) 3 0 = [] := by decide +kernel

theorem test_inbound_event : eventHop (received 0 [fabricFlit 1] keyEntry) (fabricFlit 1) = (true, none) ∧
    isCopied (received 0 [fabricFlit 1] keyEntry) 3 0 = false ∧ isEvent (fabricFlit 1) = true ∧
    lateFlit (received 0 [fabricFlit 1] keyEntry) (meshEvent keyEntry.toNat (fabricFlit 1)) = false ∧
    tokens (received 0 [fabricFlit 1] keyEntry) 1 0 ≠ 0 ∧ inRoom (received 0 [fabricFlit 1] keyEntry) (tapTile 2) 5 1 = true ∧
    (wire (post (.inboundEvent 3 0) (stOf (received 0 [fabricFlit 1] keyEntry))) (tapTile 2) 5 1).length = 1 ∧
    reg (post (.inboundEvent 3 0) (stOf (received 0 [fabricFlit 1] 0))) Reg.GW_DROP_NOKEY = 1#32 := by decide +kernel

/-- The same with no token left, and for a tile whose open parity is 1. -/
theorem test_inbound_event_drops :
    reg (post (.inboundEvent 3 0) (stOf (setReg (Reg.GW_TOK 1) 0#32 (received 0 [fabricFlit 1] keyEntry)))) Reg.GW_DROP_FULL = 1#32 ∧
    reg (post (.inboundEvent 3 0) (stOf (modTb 0 (fun T => { T with parity := 1 })
      { received 0 [fabricFlit 1] keyEntry with fieldJob := [(fieldOf (tileAt 9 2), 1)] }))) Reg.GW_DROP_LATE = 1#32 := by decide +kernel

/-- A message for this device on FVC 2. -/
def fabricPacket : List DWord := [BitVec.ofNat 64 (mk 63 61 2 + mk 55 46 1 + 8), BitVec.ofNat 64 (mk 63 61 2 + mk 42 38 1), 0x704#64]

theorem test_inbound_packet : (rxPacket (rxAt (received 2 fabricPacket 0) 3 2)).map (fun l => l.length) = some 3 ∧
    (wire (post (.inboundPacket 3 2 0) (stOf (received 2 fabricPacket 0))) (tapTile 3) 5 2).length = 2 ∧
    reg (post (.inboundPacket 3 2 0) (stOf (setReg (Reg.PWR_DOM (fieldOf (tapTile 3))) 0x20000000#32 (received 2 fabricPacket 0)))) Reg.GW_DROP_RESET = 1#32 := by
  decide +kernel

theorem test_marks : isMark (fenceMark 2 0 2 1 4) = true ∧ mDest (fenceMark 2 0 2 1 4) = 1 ∧ isMark (endMark 2 1 0 1 2 1) = true ∧
    (post (.fenceMark 3 0) (stOf (received 0 [fenceMark 2 0 2 1 4] 0))).gw.fmarks =
      [{ dir := 1, lane := kPar (fenceMark 2 0 2 1 4), no := 0, mark := fenceMark 2 0 2 1 4 }] ∧
    jobInFabric (putNum (Reg.TICK_TB_CTRL 2) 0x300000 (received 0 [endMark 2 1 0 1 2 1] 0)) 3 = true ∧
    numOf (fabJob (post (.endMark 3 0 9) (stOf (putNum (Reg.TICK_TB_CTRL 2) 0x300000 (received 0 [endMark 2 1 0 1 2 1] 0)))) 3).marks 3 = 1 := by
  decide +kernel

theorem test_tables : entryAt (post (.gwTableCommit false 2) (stOf (chipOf [(Reg.GW_KT_ADDR, 9), (Reg.GW_KT_DATA_LO, 3)]))).gw.keyTable 9 = 0x200000003#64 ∧
    entryAt (post (.gwTableCommit true 2) (stOf (chipOf [(Reg.GW_OUT_ADDR, 9), (Reg.GW_OUT_DATA_LO, 3)]))).gw.outTable 9 = 0x200000003#64 ∧
    (post (.gwTableRead false false) (stOf (received 0 [] 0x500000006#64 |> putNum Reg.GW_KT_ADDR 7))).readOut = 6#64 ∧
    (post (.gwTableRead false true) (after (.gwTableRead false false) (stOf (received 0 [] 0x500000006#64 |> putNum Reg.GW_KT_ADDR 7)))).readOut = 5#64 := by
  decide +kernel

theorem test_collective_timeout : (fabJob ({} : Chip) 3).coll = [] ∧ (post (.collTimeout 3) (stOf {})) = {} ∧
    rflag (post (.collTimeout 3) (stOf (modFab 3 (fun F => { F with coll := [(0, { got := [4], value := 1 })] }) {})))
    (Reg.GW_JOB_EVENT 3) 4 = true := by decide +kernel

/-- The device with collective flit `f` of job 3 on FVC 8 of engine 2; its timebase 2 stands at step 7. -/
def withColl (f : DWord) : Chip :=
  chipOf (onFabric ++ [(Reg.TICK_TB_NOW_LO 2, 7), (Reg.TICK_TB_CTRL 2, 0x300000), (Reg.CHK_JOB_CFG 3, 0x80000000)])
    |> modJob 3 (fun J => { J with tb := 2 }) |> modLink 2 (fun L => { L with rx := [(8, [f])] })

theorem test_collective_hypotheses : jobInFabric (withColl 0) 3 = true ∧ treeKids (withColl 0) 3 = [] ∧ isRoot (withColl 0) 3 = true ∧
    kDir (collFlit 0 2 1 0 0 1 7) = 1 ∧ (takeColl 3 0 (fun _ => true) (withColl (collFlit 0 2 1 0 0 1 7))).isSome = true ∧
    (takeColl 3 0 (fun _ => true) (withColl (collFlit 0 2 1 0 0 1 7))).map (fun r => treeKids r.2.2 3) = some [] := by decide +kernel

theorem test_barrier : (tbAt (post (.barrier 3) (stOf (withColl (collFlit 0 2 1 0 0 1 7)))) 2).barrier = true := by decide +kernel

theorem test_align_start :
    (tbAt (post (.alignStart 3) (stOf (modFab 3 (fun F => { F with items := [(4, 6), (5, 1)] }) (withColl (collFlit 1 2 1 0 2 1 9))))) 2).alignEdges = some 9 ∧
    tickNow (withColl 0) 2 = 7 ∧ tbEnabled (withColl 0) 2 = false := by decide +kernel

theorem test_align_check :
    reg (post (.alignCheck 3) (stOf (modFab 3 (fun F => { F with items := [(8, 6)] }) (withColl (collFlit 2 2 1 0 1 1 0))))) (Reg.TICK_TB_ALIGN_ERR_COUNT 2) = 1#32 ∧
    reg (post (.alignCheck 3) (stOf (modFab 3 (fun F => { F with items := [(8, 7)] }) (withColl (collFlit 2 2 1 0 1 1 0))))) (Reg.TICK_TB_ALIGN_ERR_COUNT 2) = 0#32 := by
  decide +kernel

theorem test_epoch_and_drain : curEpoch (post (.epochSwitch 3) (stOf (withColl (collFlit 4 2 1 0 0 1 65536)))) 2 = 1 ∧
    reg (post (.fabricDrain 3) (stOf (withColl (collFlit 7 2 1 0 0 1 5)))) (Reg.GW_JOB_DRAIN 3) = 0x80000005#32 ∧
    compatTb (withColl 0) 2 = false := by decide +kernel

/-- The root with a DRAIN of epoch 1 in progress, whose own strobe has returned zero. -/
def rootDrains : Chip := { withColl 0 with links := [] } |> setReg Reg.SEAM_DRAIN_RESULT 0x80000000#32
  |> modFab 3 (fun F => { F with drainDue := true, drainFrom := 0, items := [(29, 2)] }) |> fun c => { c with drains := 1, drainEpoch := 1 }

theorem test_root_drain : isRoot rootDrains 3 = true ∧ treeKids rootDrains 3 = [] ∧ (takeColl 3 7 (fun _ => true) rootDrains).isNone = true ∧
    ownDrained rootDrains 3 = true ∧ (fabJob (post (.fabricDrain 3) (stOf rootDrains)) 3).drainDue = false ∧
    reg (post (.fabricDrain 3) (stOf rootDrains)) (Reg.GW_JOB_DRAIN 3) = 0x80000000#32 := by decide +kernel

theorem test_fabric_census : (jobAt (post (.fabricCensus 3) (stOf (withColl (collFlit 3 2 1 0 0 1 0)))) 3).fabricOk = some 7 ∧
    stepMarked (withColl 0) 3 7 4 = false ∧ causesOf (post (.fabricCensus 3) (stOf (withColl (collFlit 3 2 1 0 0 1 1)))) 3 7 = 4 := by
  decide +kernel

theorem test_rewind_collective : (jobAt (post (.rewindCollective 3) (stOf (withColl (collFlit 5 2 1 0 0 2 7)))) 3).rewindDue = some 7 ∧
    chkOn (withColl 0) 3 = true ∧ goBegun (withColl 0) 2 8 = false ∧
    (jobAt (post (.rewindAckRound 3) (stOf (modJob 3 (fun J => { J with replay := some 7, resendDue := true }) (withColl (collFlit 5 2 1 0 1 2 7))))) 3).resendDue = false := by
  decide +kernel

theorem test_root_commands : (tbAt (post (.gwCmdAlignStart 3 0x80040000) (stOf (withColl 0))) 2).alignEdges = some 4 ∧
    curEpoch (post (.gwCmdEpochSwitch 3 0x81000000) (stOf (withColl 0))) 2 = 1 ∧
    (fabJob (post (.gwCmdDrain 3 0x81000000) (stOf (withColl 0))) 3).drainDue = true := by decide +kernel

/-! ### The control cluster -/

/-- A level source 116 and an edge source 117 of targets 5 and 2, unmasked, with their lines asserted. -/
def withLines : Chip := chipOf [(Reg.IRQ_SRC 116, 0x59), (Reg.IRQ_SRC 117, 0x125), (Reg.IRQ_MASK 3, 0), (Reg.CHK_IRQ_STATUS, 1),
  (Reg.CHK_IRQ_ENABLE, 1), (Reg.BOOT_FAULT, 1), (Reg.BOOT_IRQ_ENABLE, 1)]

theorem test_irq_line : lineOf withLines 116 = true ∧ srcEdge withLines 117 = true ∧ srcEdge withLines 116 = false ∧
    isPending (post (.irqLine 116) (stOf withLines)) 116 = true ∧ isPending (post (.irqLine 117) (stOf withLines)) 117 = true ∧
    isPending (post (.irqLine 117) (stOf { withLines with lineWas := [(117, true)] })) 117 = false := by decide +kernel

/-- Sources 3 and 5 of PRIO 6 pending for target 2. -/
def twoPending : Chip := chipOf [(Reg.IRQ_SRC 3, 0x26), (Reg.IRQ_SRC 5, 0x26), (Reg.IRQ_MASK 0, 0), (Reg.IRQ_PEND 0, 0x28)]

theorem test_irq_claim : candidate [] twoPending 2 = some 3 ∧ candidate [] ({} : Chip) 2 = none := by decide +kernel

theorem test_irq_service :
    (after (.irqDone 2 3) { stOf twoPending with irq := [{ target := 2, source := 3, prio := 6 }] }).irq = [] ∧
    rflag (post (.irqDone 2 4) (stOf twoPending)) Reg.IRQ_FAULT 0 = true := by decide +kernel

theorem test_irq_words : reg (post (.irqPendSet 0 4) (stOf twoPending)) (Reg.IRQ_PEND 0) = 0x2C#32 ∧
    reg (post (.irqPendClr 0 8) (stOf twoPending)) (Reg.IRQ_PEND 0) = 0x20#32 ∧
    reg (post (.irqMaskClr 0 8) (stOf {})) (Reg.IRQ_MASK 0) = 0xFFFFFFF7#32 := by decide +kernel

theorem test_irq_source_write : reg (post (.irqSrcWrite .host 3 0x35) (stOf twoPending)) (Reg.IRQ_SRC 3) = 0x35#32 ∧
    reg (post (.irqSrcWrite .host 3 0x45) (stOf twoPending)) (Reg.IRQ_SRC 3) = 0x26#32 ∧ srcTarget twoPending 3 = 2 := by decide +kernel

/-- Timer 4 enabled at `n` with compare value `cmp`, RESET_SELF at the compare and timer 5 chained to it. -/
def withTimer (n cmp : Nat) : Chip :=
  chipOf [(Reg.TMR_CFG 4, 0x80000100), (Reg.TMR_COUNT 4, n), (Reg.TMR_CMP 4, cmp), (Reg.TMR_CFG 5, 0xA0000000), (Reg.TMR_COUNT 5, 70)]

theorem test_timer : timerFed (withTimer 6 9) 4 = true ∧ timerFed (withTimer 6 9) 5 = false ∧
    reg (post (.timerCount 4) (stOf (withTimer 6 9))) (Reg.TMR_COUNT 4) = 7#32 ∧
    reg (post (.timerCount 4) (stOf (withTimer 8 9))) (Reg.TMR_COUNT 4) = 0#32 ∧
    reg (post (.timerCount 4) (stOf (withTimer 0xFFFFFFFF 0xFFFFFFFF))) (Reg.TMR_COUNT 5) = 71#32 ∧
    (post (.timerCountRead (.core 1) 4) (stOf (withTimer 6 9))).snaps = [(1, 70#32)] ∧
    reg (post (.timerEnable 4 0x3F00FFFF) (stOf (withTimer 6 9))) (Reg.TMR_CFG 4) = 0xBF00FF00#32 := by decide +kernel

theorem test_record : rflag (chipOf [(Reg.REC_CTRL, 0x80000100)]) Reg.REC_CTRL 31 = true ∧
    rflag (chipOf [(Reg.REC_CTRL, 0x80000100)]) Reg.REC_CTRL 8 = true ∧ nextRecord 0xFFFFF000 = 1 := by decide +kernel

/-- The recorder on with no type enabled, and statistics of field 2. -/
def toClose : Chip := { chipOf [(Reg.REC_CTRL, 0x80000000), (Reg.REC_FLD_STEPS 2, 9)] with recd := { util := [(0, 1)] } }

theorem test_interval : rflag toClose Reg.REC_CTRL 31 = true ∧ reg (post .recorderInterval (stOf toClose)) (Reg.REC_FLD_STEPS 2) = 0#32 ∧
    (post .recorderInterval (stOf toClose)).recd.util = [] := by decide +kernel

theorem test_mirror : rflag (post .mirror (stOf {})) Reg.REC_STATUS 31 = true ∧
    reg (post (.mirrorDone true) (stOf { chipOf [(Reg.REC_STATUS, 0x80000000), (Reg.REC_CTRL, 0)] with recd := { last := 5 } })) Reg.REC_MIRROR_SEQ = 5#32 ∧
    rflag (post (.mirrorDone false) (stOf (chipOf [(Reg.REC_STATUS, 0x80000000)]))) Reg.REC_FAULT 1 = true ∧
    reg (post .runtimeWdogKick (stOf (chipOf [(Reg.TMR_WDOG_CFG, 0x80000032)]))) Reg.TMR_WDOG_LEFT = 50#32 := by decide +kernel

/-- Control tap 1 with a message of 7 bytes for cluster ring 2, whose configuration and write pointer are given. -/
def forRing (cfg w len : Nat) : Chip :=
  { chipOf [(Reg.CHN_CC_CFG 2, cfg), (Reg.CHN_CC_WPTR 2, w), (Reg.CHN_CC_STAT 2, 0x10000)] with
    tapIn := [(8 * 49 + 2, packet 2 (mkHead 2 0 0 0 0 0 1 9 (messageSub 2 len 0)) [mkBody 0x0201])] }

theorem test_cluster_message : (tapTake 49 2 (forRing 0x80000040 0 7)).isSome = true ∧
    reg (post (.clusterMessage 1) (stOf (forRing 0x80000040 0 7))) Reg.CHN_CC_COMMITTED = 1#32 ∧
    reg (post (.clusterMessage 1) (stOf (forRing 0x80000040 0x100 7))) Reg.CHN_CC_OVERFLOW = 1#32 ∧
    reg (post (.clusterMessage 1) (stOf (forRing 0 0 7))) Reg.CHN_CC_DISCARD = 1#32 ∧
    reg (post (.clusterMessage 1) (stOf (forRing 0x80000040 0 70))) Reg.CHN_CC_POISON = 1#32 := by decide +kernel

/-! ### Power -/

/-- Every switched domain of the list in the given state. -/
def domsAt (st : Nat) (ds : List Nat) : List (Nat × Nat) := ds.map (fun d => (Reg.PWR_DOM d, st * 2 ^ 29))

theorem test_domain_request_refused : rflag (post (.domainRequest 84 1) (stOf {})) Reg.PWR_FAULT 0 = true ∧
    post (.domainRequest 84 3) (stOf {}) = {} ∧ hasRet 84 = false ∧
    leaveRefuser (chipOf [(Reg.PWR_NEED 2, 1)]) 64 1 = 1 ∧
    rfld (post (.domainRequest 64 1) (stOf (chipOf [(Reg.PWR_NEED 2, 1)]))) (Reg.PWR_DOM 64) 26 24 = 1 ∧
    wakeRefuser ({} : Chip) 84 = 0 ∧ wakeRefuser { ({} : Chip) with power := { ioThrottled := true } } 84 = 3 := by decide +kernel

theorem test_domain_request_begins : leaveRefuser ({} : Chip) 94 2 = 0 ∧ fieldEmpty ({} : Chip) 3 = true ∧
    domState (post (.domainRequest 94 2) (stOf {})) 94 = 3 ∧
    domState (post (.domainRequest 84 0) (stOf (chipOf (domsAt 2 [84])))) 84 = 4 ∧
    (post (.domainRequest 84 0) (stOf (chipOf (domsAt 3 [84])))).power.held = [(84, 1)] ∧
    post (.domainRequest 94 1) (stOf (chipOf (domsAt 2 [94]))) = chipOf (domsAt 2 [94]) := by decide +kernel

/-- A router of field 0 that holds a flit. -/
def busyField : Chip :=
  { ({} : Chip) with routers := [(0, { buf := [(0, [{ flit := ⟨0#64, 0, true, true, false, false, 0⟩, stamp := 0, copied := false }])] })] }

theorem test_field_waits : fieldEmpty busyField 0 = false ∧ needed busyField 0 = false ∧
    (post (.domainRequest 0 2) (stOf busyField)).power.waiting = [(0, 2)] ∧
    rfld (post (.emptyReportTimeout 0) (stOf { busyField with power := { waiting := [(0, 2)] } })) (Reg.PWR_DOM 0) 26 24 = 1 := by
  decide +kernel

/-- Domain `d` in transition `st` with goal `g`. -/
def moving (d st g : Nat) : Chip := { chipOf (domsAt st [d]) with power := { goal := [(d, g)] } }

theorem test_domain_entry : entryFree (moving 64 3 1) 64 = true ∧ domState (post (.domainEntryDone 64) (stOf (moving 64 3 1))) 64 = 1 ∧
    domState (post (.domainEntryDone 94) (stOf (moving 94 3 2))) 94 = 2 ∧
    entryFree { moving 80 3 2 with memQ := [(0, [(72, ⟨0#64, 3, true, true, false, false, 0⟩, [])])] } 80 = false := by decide +kernel

theorem test_domain_wake : domState (post (.domainWakeDone 70) (stOf (moving 70 4 1))) 70 = 0 ∧
    padHeld (post (.domainWakeDone 70) (stOf (moving 70 4 1))) 6 = true ∧
    domState (post (.domainWakeDone 5) (stOf (moving 5 4 2))) 5 = 5 ∧
    padHeld (post (.padRelease 0x40) (stOf (chipOf [(Reg.PWR_PAD_HELD, 0x60)]))) 6 = false ∧
    padHeld (post (.padRelease 0x40) (stOf (chipOf [(Reg.PWR_PAD_HELD, 0x60)]))) 5 = true := by decide +kernel

theorem test_device_state : devBusy ({} : Chip) = false ∧ devState ({} : Chip) = 0 ∧ deviceRefuser ({} : Chip) false 0 = 0 ∧
    deviceRefuser (chipOf [(Reg.IRQ_SRC 3, 0x26), (Reg.IRQ_MASK 0, 0), (Reg.IRQ_PEND 0, 8)]) false 0 = 4 ∧
    devState (chipOf [(Reg.PWR_DEV_STATUS, 0x40000000)]) = 1 ∧ devBusy (chipOf [(Reg.PWR_DEV_STATUS, 0x20000000)]) = true := by
  decide +kernel

theorem test_device_run : (post .devRun (stOf { chipOf ((Reg.PWR_DEV_STATUS, 0x40000000) :: domsAt 1 [0, 1]) with power := { devRet := [0, 1] } })).power.devWake =
    [0, 1] ∧
    domState (post (.domainWakeDone 0) (stOf { moving 0 4 1 with power := { goal := [(0, 1)], devWake := [0] } })) 0 = 0 ∧
    (List.all [0] (fun x : Nat => decide (x < 96))) = true ∧
    devState (post .devStateDone (stOf { chipOf [(Reg.PWR_DEV_STATUS, 0x60000000)] with power := { devGoal := some 0 } })) = 0 ∧
    post .devStateDone (stOf { chipOf [(Reg.PWR_DEV_STATUS, 0x20000000)] with power := { devGoal := some 1, devEnter := [3] } }) =
      { chipOf [(Reg.PWR_DEV_STATUS, 0x20000000)] with power := { devGoal := some 1, devEnter := [3] } } := by decide +kernel

/-- The west half at code `p` with its floor at `fl`, going to `g`. -/
def halfAt (p fl : Nat) (g : Option Nat) (hot emergency : Bool) : Chip :=
  { chipOf [(Reg.PWR_HALF_W, p * 65536 + (if g.isSome then 2 ^ 31 else 0)), (Reg.PWR_FLOOR, fl)] with
    power := { west := { goal := g, throttled := hot, emergency := emergency, hot := 104 } } }

theorem test_points : rfld (post (.pointRequest false 0) (stOf (halfAt 2 3 none true false))) Reg.PWR_HALF_W 26 24 = 3 ∧
    rfld (post (.pointRequest false 3) (stOf (halfAt 1 2 none false false))) Reg.PWR_HALF_W 26 24 = 7 ∧
    rflag (post (.pointRequest false 2) (stOf (halfAt 1 2 none false false))) Reg.PWR_HALF_W 31 = true ∧
    halfPoint (post (.pointStepDone false) (stOf (halfAt 1 3 (some 3) false false))) false = 2 ∧
    rflag (post (.pointStepDone false) (stOf (halfAt 2 3 (some 3) false false))) Reg.PWR_HALF_W 31 = false ∧
    (post (.floorWrite 1) (stOf (halfAt 3 3 none false false))).power.west.goal = some 1 ∧
    rfld (post (.floorWrite 1) (stOf (halfAt 3 3 none true false))) Reg.PWR_HALF_W 26 24 = 3 ∧
    halfPoint (post (.thermalStep false) (stOf (halfAt 1 3 none true true))) false = 2 := by decide +kernel

theorem test_thermal : (halfAt 3 3 none true true).power.west.hot = 104 ∧ halfPoint (halfAt 3 3 none true true) false = 3 ∧
    holdsAt 95 91 true = true ∧ holdsAt 95 90 true = false ∧ holdsAt 95 94 false = false ∧ holdsAt 95 95 false = true ∧
    bootState (chipOf [(Reg.BOOT_STATUS, 0xA0000000)]) = 10 := by decide +kernel

/-! ### Security -/

/-- A mailbox command at the front of the Thistle core's queue, and the registers beside it. -/
def withJob (m op : Nat) (rs : List (Nat × Nat)) (x : Sec) : State :=
  { stOf { chipOf rs with secQ := [{ src := m, op := op, seq := 7 }] } with sec := x }

/-- A core that is up. -/
def upCore : Sec := { derived := true, drbg := true, keys := [(3, [1#8])], seed := [9#8] }

theorem test_sec_go : (post (.secGo 1 0x80070005) (stOf {})).secQ = [{ src := 1, op := 5, seq := 7 }] ∧
    reg (post (.secGo 1 0x80070005) (stOf (chipOf [(Reg.SEC_STATUS 1, 0x20000000)]))) Reg.SEC_REFUSED = 1#32 ∧
    flag 0x00070005#32 31 = false := by decide +kernel

theorem test_sec_status : reg (post .secStatus (withJob 1 1 [(Reg.SEC_INFO, 0x20000000)] upCore)) (Reg.SEC_RES 1 0) = 0x20000000#32 ∧
    reg (post .secStatus (withJob 1 1 [] upCore)) (Reg.SEC_STATUS 1) = 0x60070000#32 ∧
    post .secStatus (withJob 1 2 [] upCore) = (withJob 1 2 [] upCore).chip ∧
    reg (post .secRandom (withJob 0 11 [(Reg.SEC_INFO, 0x40000000)] upCore)) (Reg.SEC_STATUS 0) = 0x80070005#32 := by decide +kernel

theorem test_sec_selftest : secState (withJob 0 2 [] upCore).chip ≠ 2 ∧
    secState (post (.secSelftest 8) (withJob 0 2 [] upCore)) = 2 ∧ (after (.secSelftest 8) (withJob 0 2 [] upCore)).sec.keys = [] ∧
    rfld (post (.secSelftest 8) (withJob 0 2 [] upCore)) Reg.SEC_INFO 7 0 = 3 := by decide +kernel

theorem test_sec_attest : bufLen (chipOf [(Reg.SEC_LEN_LO 0, 33712)]) 0 = 33712 ∧
    reg (post .secAttest (withJob 0 3 [(Reg.SEC_LEN_LO 0, 33711)] upCore)) (Reg.SEC_STATUS 0) = 0x80070007#32 := by decide +kernel

/-- The first 64 bytes of a signed object of a TYPE: slot 0, no body, with a word at offset 0x1C. -/
def objectHead (typ name : Nat) : List Byte :=
  toBytes 4 0x424F5359 ++ toBytes 1 typ ++ toBytes 19 0 ++ toBytes 4 0 ++ toBytes 4 name ++ List.replicate 32 0#8

/-- Mailbox 0 with a service and a buffer of 64 bytes whose object has a bad length, or a bad TYPE. -/
def badObject (op typ : Nat) : State :=
  let s := withJob 0 op [(Reg.SEC_LEN_LO 0, 64), (Reg.SEC_INFO, 0x20000000), (Reg.SEC_ARG 0 0, 1)] upCore
  { s with chip := putBytes 0 (objectHead typ 1) s.chip }

theorem test_sec_bad_object : [(Instr.secKeyLoad, 5, 0x11), (.secRevoke, 7, 0x12), (.secDebugUnlock, 8, 0x13), (.secZeroize, 9, 0x12)].all (fun q =>
      reg (post q.1 (badObject q.2.1 q.2.2)) (Reg.SEC_STATUS 0) == 0x80070004#32) = true ∧
    objectCode upCore (badObject 4 1).chip (fun t => decide (1 ≤ t) && decide (t ≤ 4)) (bufBytes (badObject 4 1).chip 0) 64 = 4 ∧
    inFallow (badObject 4 1).chip = false ∧
    reg (post .secFwUpdate (withJob 0 4 [(Reg.SEC_INFO, 0x40000000)] upCore)) (Reg.SEC_STATUS 0) = 0x80070005#32 := by decide +kernel

theorem test_sec_key_clear : (after .secKeyClear (withJob 0 6 [(Reg.SEC_ARG 0 0, 3)] upCore)).sec.keys = [] ∧
    reg (post .secKeyClear (withJob 0 6 [(Reg.SEC_ARG 0 0, 16)] upCore)) (Reg.SEC_STATUS 0) = 0x80070008#32 := by decide +kernel

theorem test_sec_zeroize : (after .secZeroize (withJob 0 9 [] upCore)).sec.derived = false ∧
    (after .secZeroize (withJob 0 9 [] upCore)).sec.seedKill = false := by decide +kernel

theorem test_sec_core_start : (post .secCoreStart (withJob 0 10 [(Reg.SEC_ARG 0 0, 3), (Reg.SEC_ARG 0 1, 64)] upCore)).cores = [(3, 66)] ∧
    reg (post .secCoreStart (withJob 0 10 [(Reg.SEC_ARG 0 0, 4)] upCore)) (Reg.SEC_STATUS 0) = 0x80070004#32 ∧
    reg (post .secCoreStart (withJob 0 10 [(Reg.SEC_ARG 0 0, 3), (Reg.PWR_DOM 94, 0x40000000)] upCore)) (Reg.SEC_STATUS 0) = 0x80070007#32 ∧
    reg (post .secUnknownOp (withJob 1 10 [] upCore)) (Reg.SEC_STATUS 1) = 0x80070001#32 ∧
    reg (post .secRandom (withJob 1 11 [] {})) (Reg.SEC_STATUS 1) = 0x80070007#32 := by decide +kernel

/-- A signed object is accepted when its header is in form, its key is the vendor slot's and its body's hash and signature hold: here
for a token without a body, whatever the hash function, when the signature verifies. -/
theorem test_object_accepted (o : List Byte) (x : Sec) (typ : Nat) (ok : Nat → Bool) (c : Chip)
    (hm : nAt o 0 4 = 0x424F5359) (ht : nAt o 4 1 = typ) (hok : ok typ = true) (hf : nAt o 5 1 = 0) (h7 : nAt o 7 1 = 0)
    (he : nAt o 0x0E 2 = 0) (hb : nAt o 0x18 4 = 0) (h6 : nAt o 6 1 = 0) (hr : x.revoked = 0)
    (hk : rootHash x 0 = Config.sha256 (cut o 64 48)) (hs : Config.slhVerify (cut o 64 48) (o.take 64) (cut o 112 16224) = true)
    (hh : Config.sha256 (cut o 64 0) = cut o 0x20 32) (hd : nAt o 0x10 8 = serialOf c) (hn : serialAny typ = false) :
    objectCode x c ok o 16336 = 0 := by
  have hv : vendorSlot x = 0 := by simp [vendorSlot, slotRevoked, hr]; decide
  have hv' : slotRevoked x 0 = false := by simp [slotRevoked, hr]; decide
  simp [objectCode, hm, ht, hok, hf, h7, he, hb, h6, hv, hv', hk, hs, hh, hd, hn]

theorem test_debug_port : debugAccess { debugLock := true } (.bracken 3) = false ∧ debugAccess { debugLock := true, scope := 1 } (.bracken 3) = true ∧
    debugAccess { debugLock := true, scope := 1 } .power = false ∧ debugAccess { debugLock := true, scope := 3 } .thistle = false ∧
    debugAccess { debugLock := false } .thistle = true := by decide

theorem test_jtag : jtagIdcode = 0x1840056B#32 ∧ boundaryScan.contains .tck = false ∧ boundaryScan ≠ [] := by decide

theorem test_revoke_last : (List.range 4).all (fun i => i == 3 || slotRevoked { revoked := 7 } i) = true ∧
    (List.range 4).all (fun i => i == 3 || slotRevoked { revoked := 3 } i) = false := by decide +kernel

theorem test_fallow_update : inFallow (chipOf [(Reg.BOOT_STATUS, 0xB0000000)]) = true ∧
    nAt (toBytes 4 0x474D4959) 0 4 = 0x474D4959 := by decide +kernel

/-- An image or a licence at the front of the queue, and the registers beside it. -/
def withLoad (src : Nat) (rs : List (Nat × Nat)) : State := stOf { chipOf rs with secQ := [{ src := src, op := 0, seq := 0 }] }

theorem test_verify : imgState (post .verify (stOf {})) = 1 ∧ (post .verify (stOf {})).secQ = [{ src := 2, op := 0, seq := 0 }] ∧
    reg (post .verify (stOf (chipOf [(Reg.IMG_STATUS, 0x40000000)]))) Reg.IMG_STATUS = 0x50000000#32 ∧
    reg (post .verifyDone (withLoad 2 [(Reg.IMG_STATUS, 0x20000000)])) Reg.IMG_STATUS = 0x60000001#32 ∧
    reg (post .verifyDone (withLoad 2 [(Reg.SEC_INFO, 0x40000000)])) Reg.IMG_STATUS = 0x60000020#32 ∧
    post .verifyDone (withLoad 3 []) = (withLoad 3 []).chip := by decide +kernel

theorem test_release_abort : imgState (post .release (stOf (chipOf [(Reg.IMG_STATUS, 0x40000000)]))) = 0 ∧
    imgState (post .abort (stOf (chipOf [(Reg.IMG_STATUS, 0x40000000)]))) = 0 ∧
    reg (post .abort (withLoad 2 [(Reg.IMG_STATUS, 0x20000000)])) Reg.IMG_STATUS = 0x60000021#32 ∧
    (post .abort (withLoad 2 [(Reg.IMG_STATUS, 0x20000000)])).secQ = [] ∧ post .abort (stOf {}) = {} := by decide +kernel

theorem test_licence : licState (post .licGo (stOf {})) = 1 ∧ post .licGo (stOf (chipOf [(Reg.LIC_STATUS, 0x20000000)])) = chipOf [(Reg.LIC_STATUS, 0x20000000)] ∧
    reg (post .licDone (withLoad 3 [(Reg.LIC_STATUS, 0x20000000)])) Reg.LIC_STATUS = 0x60000004#32 ∧
    mergeGrants [(1, 4), (1, 8), (9, 1)] [(1, 4)] = [(1, 8)] := by decide +kernel

/-! ### Starts and resets -/

/-- A start in stage `n`, cold or warm, with failure count `k`. -/
def inStage (n : Nat) (warm : Bool) (k : Nat) : Chip :=
  chipOf [(Reg.BOOT_STATUS, n * 2 ^ 28 + b2n warm * 2 ^ 27), (Reg.BOOT_FAIL_COUNT, k), (Reg.BOOT_FAIL_HIST, 0x0102), (Reg.REC_CTRL, 0),
    (Reg.IRQ_SRC 3, 0x26)]

theorem test_start_fail : bootState (post (.startFail 3) (stOf (inStage 3 false 0))) = 12 ∧
    (post (.startFail 3) (stOf (inStage 3 false 0))).flash.hist = 0x010203#32 ∧
    bootState (post .startTimeLimit (stOf (inStage 3 false 2))) = 11 ∧
    domState (post .startTimeLimit (stOf (inStage 3 false 2))) 40 = 2 ∧
    domState (post .startTimeLimit (stOf (inStage 3 false 2))) 92 = 0 ∧
    post (.startFail 12) (stOf (inStage 3 false 0)) = inStage 3 false 0 := by decide +kernel

theorem test_start_stages : starting (inStage 0 false 0) = true ∧ starting { inStage 9 false 0 with boot := { loaded := true } } = true ∧
    bootState (post (.startStageDone 5 0 []) (stOf (inStage 0 false 0))) = 1 ∧
    bootState (post (.startStageDone 5 0 []) (stOf (inStage 3 true 0))) = 5 ∧
    bootState (post (.startStageDone 5 6 []) (stOf (inStage 1 false 0))) = 12 ∧
    bootState (post (.startStageDone 5 5 []) (stOf (inStage 1 false 0))) = 1 ∧
    bootState (post (.startStageDone 5 0 []) (stOf (inStage 5 false 0))) = 6 ∧
    bootState (post (.startStageDone 5 0 [0x90000000, 0x90000001, 0x90000002, 0x90000003]) (stOf (inStage 5 false 0))) = 12 ∧
    reg (post (.startStageDone 5 0 []) (stOf (inStage 5 false 0))) (Reg.BOOT_STAGE_TIME 5) = 5#32 := by decide +kernel

theorem test_start_plan :
    bit (nAt (planBody 0xFF00 (badEntries (mergeTests (addTests [0x90000000] (inStage 6 false 0))))) 2 1) 0 = false ∧
    bit (nAt (planBody 0xFF00 (badEntries (mergeTests (addTests [0x90000000] (inStage 6 false 0))))) 2 1) 1 = true ∧
    (List.range 4).all (fun m => !bit (nAt (planBody 0xFF00 (badEntries (mergeTests (addTests
      [0x90000000, 0x90000001, 0x90000002, 0x90000003] (inStage 6 false 0))))) 2 1) m) = true := by decide +kernel

theorem test_start_image : autostarts (stOf (inStage 9 false 0)) = false ∧
    autostarts { stOf (chipOf [(Reg.BOOT_CFG, 0x80000000)]) with sec := { startImage := [1#8] } } = true ∧
    (verifyCode {} ({} : Chip) [] [1#8] 1).1 = 1 ∧ (post (.startStageDone 5 0 []) (stOf (inStage 9 false 0))).boot.loaded = true ∧
    (∀ x, x ∈ (inStage 2 false 0).flash.mirror → inRing x.1 = true) := by
  refine ⟨by decide +kernel, by decide +kernel, by decide +kernel, by decide +kernel, ?_⟩
  intro x h; simp [inStage, chipOf, putNum, setReg] at h

/-- A broadcast keeps stage 8 from ending. -/
def stageEight : Chip := { inStage 8 false 0 with boot := { (inStage 8 false 0).boot with load := some { blocks := 1, data := [], round := 0 } } }

theorem test_stage_eight : starting stageEight = true ∧ stageEight.boot.load.isSome = true ∧
    post (.startStageDone 5 0 []) (stOf stageEight) = stageEight ∧ (inStage 7 false 0).boot.load.isNone = true ∧
    bootState (post (.startStageDone 5 0 []) (stOf (inStage 8 false 0))) = 9 ∧
    (halfBody 1 1 0 63 7 [1#8]).map (fun f => fData f / 2 ^ 13 % 2) = [1] ++ List.replicate 20 0 := by decide +kernel

theorem test_boot_ready : bootState (post (.bootReady 900) (stOf (inStage 9 false 2))) = 10 ∧
    (post (.bootReady 900) (stOf { inStage 9 false 2 with flash := { failCount := 2 } })).flash.failCount = 0 ∧
    (post .bootWdogKick (stOf { inStage 4 false 0 with boot := { wdogPeriod := 3 } })).boot.wdogPeriod =
      max 1 (rfld ({} : Chip) Reg.BOOT_WDOG_CFG 15 0) ∧
    bootState (post .bootWdogExpire (stOf { inStage 4 false 0 with boot := { wdogPeriod := 3 } })) = 12 ∧
    wdogRuns (inStage 2 false 0) = false := by decide +kernel

theorem test_power_on : (post (.powerOn false) (stOf { inStage 10 false 0 with boot := { inReset := true } })).boot.inReset = false ∧
    bootState ({} : Chip) = 0 ∧ post (.powerOn true) (stOf (inStage 10 false 0)) = inStage 10 false 0 := by
  decide +kernel

theorem test_hold_and_restarts : rflag (post .startHoldExpire (stOf (inStage 12 false 1))) Reg.BOOT_STATUS 25 = true ∧
    rflag (post .bootWarm (stOf (inStage 10 false 0))) Reg.BOOT_STATUS 27 = true ∧
    rflag (post .resetNLow (stOf { inStage 10 false 0 with mem := [(7, 9#8)] })) Reg.BOOT_STATUS 27 = true ∧
    byteAt (post .resetNLow (stOf { inStage 10 false 0 with mem := [(7, 9#8)] })) 7 = 9#8 ∧
    (post .bootCold (stOf (inStage 11 false 0))).flash.failCount = 2 ∧
    (post .pwrGoodFall (stOf (inStage 10 false 0))).boot.inReset = true := by decide +kernel

theorem test_sys_clk : (post .sysClkLoss (stOf (inStage 10 false 0))).power.clkLost = true ∧
    (∀ k, k < 8 → (linkAt (inStage 10 false 0) k).retry = [] ∧ (linkAt (inStage 10 false 0) k).queue = []) ∧
    bootState (post .sysClkRestored (stOf { inStage 10 false 0 with power := { clkLost := true } })) = 0 ∧
    (post .sysClkRestored (stOf { inStage 12 false 0 with power := { clkLost := true } })).power.clkLost = false := by
  refine ⟨by decide +kernel, ?_, by decide +kernel, by decide +kernel⟩
  intro k _; exact ⟨rfl, rfl⟩

/-- Tile 5 with a PC, beside tile 6 of the same field. -/
def twoTiles : Chip := { ({} : Chip) with tiles := [(5, { seq := { pc := 9 } }), (6, { seq := { pc := 8 } })] }

theorem test_rst_tile : tile (post (.rstTile 0x80000005) (stOf twoTiles)) 5 = {} ∧
    (tile (post (.rstTile 0x80000005) (stOf twoTiles)) 6).seq.pc = 8 ∧
    reg (post (.rstTile 0x80000005) (stOf twoTiles)) Reg.BOOT_RST_STATUS = 0x90000005#32 ∧
    rflag (post (.rstTile 0x80000005) (stOf (chipOf [(Reg.TILE_CTRL 5, 1)]))) Reg.BOOT_FAULT 1 = true ∧
    rflag (post (.rstDie 0x80000000) (stOf (chipOf [(Reg.BOOT_RST_STATUS, 0x90000005)]))) Reg.BOOT_FAULT 1 = true ∧
    post (.rstTile 5) (stOf twoTiles) = twoTiles := by decide +kernel

theorem test_rst_field : (post (.rstField 0x80000000) (stOf twoTiles)).tiles = [] ∧ fieldInUse twoTiles 0 = false ∧
    fieldInUse (chipOf [(Reg.PWR_NEED 0, 1)]) 0 = true ∧ rstBusy twoTiles = false := by decide +kernel

theorem test_rst_cluster :
    (after (.rstCc 0x80000000) { stOf {} with irq := [⟨2, 3, 6⟩, ⟨5, 4, 6⟩] }).irq = [⟨5, 4, 6⟩] ∧
    (after .runtimeWdogExpire (stOf (chipOf [(Reg.TMR_WDOG_CFG, 0x80000032), (Reg.BOOT_STATUS, 0xA0000000)]))).chip.cores = [(0, 1)] := by
  decide +kernel

theorem test_reset_done : fenced (post .resetDone (stOf (chipOf [(Reg.BOOT_RST_STATUS, 0x90000005)]))) 5 = true ∧
    reg (post .resetDone (stOf (chipOf [(Reg.BOOT_RST_STATUS, 0x90000005)]))) Reg.BOOT_RST_STATUS = 0#32 ∧
    secState (post .resetDone (stOf (chipOf [(Reg.BOOT_RST_STATUS, 0xC0000000)]))) = 1 ∧
    tileGood ({} : Chip) 5 = false := by decide +kernel

theorem test_field_reset_done : domState (chipOf [(Reg.PWR_DOM 2, 0xA0000000)]) 2 = 5 ∧ domState ({} : Chip) 1 ≠ 5 ∧
    (List.range 64).find? (fun d => domState (chipOf [(Reg.PWR_DOM 2, 0xA0000000)]) d == 5) = some 2 := by decide +kernel

theorem test_fp_commit : planShrinks (bytesAt ({} : Chip) fpBase fpLength) (bytesAt ({} : Chip) fpEdit fpLength) = true ∧
    rflag (post .fpCommit (stOf { ({} : Chip) with mem := [(fpEdit + 0x18, 1#8)] })) Reg.BOOT_FAULT 2 = true := by decide +kernel

/-! ### The host interface -/

/-- A record of OP `op` with arguments and TAG 0x55, SEQ `k`. -/
def recordOf (op k : Nat) (args : List Byte) : List Byte :=
  toBytes 2 op ++ toBytes 2 0 ++ toBytes 4 0x55 ++ args ++ List.replicate (55 - args.length) 0#8 ++ [BitVec.ofNat 8 k]

/-- The host is reached and queue 3 enabled; queue 3 has taken a command in the given phase. -/
def withTaken (op phase : Nat) (args : List Byte) (rs : List (Nat × Nat)) : Chip :=
  { chipOf ([(Reg.HIF_LINK_STATUS, 3), (Reg.HIF_CQ_CFG 3, 0x80000000)] ++ rs) with
    host := { taken := [{ queue := 3, record := recordOf op 1 args, phase := phase, live := true }] } }

/-- The host is reached and queue 3 enabled, with `n` records posted of which `k` are taken. -/
def withQueue (n k : Nat) : Chip :=
  { chipOf [(Reg.HIF_LINK_STATUS, 3), (Reg.HIF_CQ_CFG 3, 0x80000000)] with host := { tail := [(3, n)], head := [(3, k)] } }

theorem test_command_post : (post (.commandPost 3 1 (recordOf 0 2 [])) (stOf (withQueue 1 0))).host.tail = [(3, 2)] ∧
    (post (.commandPost 3 1 (recordOf 0 9 [])) (stOf (withQueue 1 0))).host.tail = [(3, 1)] ∧ (recordOf 0 2 []).length = 64 ∧
    hostReached (withQueue 1 0) = true ∧ inFallow (withQueue 1 0) = false ∧ post (.commandPost 3 1 (recordOf 0 2 [])) (stOf {}) = {} := by
  decide +kernel

theorem test_cq_take : (post (.cqTake (.core 0) 3) (stOf (withQueue 1 0))).host.head = [(3, 1)] ∧
    (post (.cqTake .host 3) (stOf (withQueue 1 0))).host.head = [(3, 0)] := by decide +kernel

theorem test_cq_complete : (post (.cqComplete (.core 0) 3 7) (stOf (withTaken 0 2 [] []))).host.cpl = [(3, 1)] ∧
    (post (.cqComplete (.core 0) 3 7) (stOf (withTaken 0 2 [] [(Reg.HIF_CQ_CPL_DATA 3 0, 0x55)]))).host.mem = [(0, 0x55#8), (12, 7#8)] ∧
    (post (.cqComplete (.core 0) 3 7) (stOf (withTaken 0 2 [] []))).host.taken = [] := by decide +kernel

theorem test_cmd_nop : reg (post (.cmdNop 3) (stOf (withTaken 0 0 [] []))) (Reg.HIF_CQ_CPL_DATA 3 0) = 0x55#32 ∧
    post (.cmdNop 3) (stOf (withTaken 6 0 [] [])) = withTaken 6 0 [] [] := by decide +kernel

theorem test_cmd_img_load :
    reg (post (.cmdImgLoad 3) (stOf (withTaken 1 0 [] [(Reg.IMG_STATUS, 0x40000000)]))) (Reg.HIF_CQ_CPL_DATA 3 1) = 0x30001#32 ∧
    imgSrc (post (.cmdImgLoad 3) (stOf (withTaken 1 0 (toBytes 8 0xFF12345678C5 ++ toBytes 8 0xFF87654321 ++ toBytes 8 0x1FFFFFFFFF) []))) =
      0x12345678C0 ∧
    imgLen (post (.cmdImgLoad 3) (stOf (withTaken 1 0 (toBytes 8 0xFF12345678C5 ++ toBytes 8 0xFF87654321 ++ toBytes 8 0x1FFFFFFFFF) []))) =
      0x1F87654321 ∧
    imgPlain (post (.cmdImgLoad 3) (stOf (withTaken 1 0 (toBytes 8 0xFF12345678C5 ++ toBytes 8 0xFF87654321 ++ toBytes 8 0x1FFFFFFFFF) []))) =
      0x1FFFFFFFC0 ∧
    reg (post (.cmdImgLoad 3) (stOf (withTaken 1 1 [] [(Reg.IMG_STATUS, 0x60020005)]))) (Reg.HIF_CQ_CPL_DATA 3 2) = 0x20005#32 ∧
    reg (post (.cmdImgLoad 3) (stOf (withTaken 1 1 [] []))) (Reg.HIF_CQ_CPL_DATA 3 2) = 0x21#32 ∧
    post (.cmdImgLoad 3) (stOf { withTaken 1 0 [] [] with loading := 2 }) = { withTaken 1 0 [] [] with loading := 2 } := by decide +kernel

/-- A verified image without a section, and an accepted one whose jobs have stopped. -/
def verified : Chip := withTaken 1 1 [] [(Reg.IMG_STATUS, 0x40000000)]
def toApply : Chip := { withTaken 1 1 [] [] with loading := 1, accepted := some { hdr := [], ss := [] } }

theorem test_cmd_img_load_check : verified.loading = 0 ∧ imgState verified = 2 ∧ checkTypes { hdr := [], ss := [] } = some (0, 0) ∧
    stagedImage verified = { hdr := [], ss := [] } := by decide +kernel

/-- A partial image that replaces job 2. -/
def replacing : Image := { hdr := List.replicate 7 0#8 ++ [1#8] ++ List.replicate 32 0#8 ++ [4#8], ss := [] }

theorem test_cmd_img_apply : stopsDone toApply { hdr := [], ss := [] } = true ∧ replacing.replaces = 4 ∧ stopsDone toApply replacing = true ∧
    stopsDone (setReg (Reg.TICK_TB_CTRL 1) 0x80200000#32 toApply) replacing = false := by decide +kernel

theorem test_cmd_job_stop : tbRuns (withTaken 2 0 [4#8] [(Reg.TICK_TB_CTRL 1, 0x80200000)]) 1 = true ∧
    jobOfTb (withTaken 2 0 [4#8] [(Reg.TICK_TB_CTRL 1, 0x80200000)]) 1 = 2 ∧
    reg (post (.cmdJobStop 3) (stOf (withTaken 2 0 [4#8] [(Reg.TICK_TB_CTRL 1, 0x80200000)]))) (Reg.HIF_CQ_CPL_DATA 3 2) = 4#32 ∧
    tbEnabled (post (.cmdJobStop 3) (stOf (withTaken 2 0 [4#8] [(Reg.TICK_TB_CTRL 1, 0x80200000)]))) 1 = false := by decide +kernel

/-- Job 2 on field 0 with stream 5; tile 0 learns, with labels of up to class 3. -/
def withLearner (op : Nat) (args : List Byte) : Chip :=
  modJob 2 (fun J => { J with present := true, fields := 1#64, streams := 32#16 })
    (withTaken op 0 args [(Reg.LRN_CTRL 0, 1), (Reg.LRN_LABEL_CFG 0, 1), (Reg.LRN_LABEL_NRN 0, 3 * 2 ^ 26)])

theorem test_cmd_label : labelTile (withLearner 3 [5#8]) 5 = some 0 ∧ labelTile (withLearner 3 [4#8]) 4 = none ∧
    (tile (post (.cmdLabel 3) (stOf (withLearner 3 [5#8, 2#8, 9#8, 1#8]))) 0).lrn.labels = [(0x109, 2)] ∧
    reg (post (.cmdLabel 3) (stOf (withLearner 3 [5#8, 4#8, 9#8, 1#8]))) (Reg.HIF_CQ_CPL_DATA 3 1) = 0x20003#32 := by decide +kernel

theorem test_cmd_freeze : 0 ∈ learners (withLearner 4 [4#8, 0#8, 1#8]) 2 ∧
    rflag (post (.cmdFreeze 3) (stOf (withLearner 4 [4#8, 0#8, 1#8]))) (Reg.LRN_CTRL 0) 1 = true := by decide +kernel

theorem test_cmd_licence : licState (post (.cmdLicence 3) (stOf (withTaken 5 0 [] []))) = 1 ∧
    reg (post (.cmdLicence 3) (stOf (withTaken 5 1 [] [(Reg.LIC_STATUS, 0x60000002)]))) (Reg.HIF_CQ_CPL_DATA 3 1) = 0x40005#32 ∧
    licState (withTaken 5 1 [] [(Reg.LIC_STATUS, 0x20000000)]) = 1 := by decide +kernel

theorem test_cmd_device_state :
    reg (post (.cmdDeviceState 3) (stOf (withTaken 6 0 [3#8] []))) (Reg.HIF_CQ_CPL_DATA 3 1) = 0x20006#32 ∧
    (post (.cmdDeviceState 3) (stOf (withTaken 6 0 [] [(Reg.PWR_DEV_STATUS, 0x40000000)]))).power.devGoal = some 0 ∧
    reg (post (.cmdDeviceState 3) (stOf (withTaken 6 0 [1#8] [(Reg.IRQ_SRC 3, 0x26), (Reg.IRQ_MASK 0, 0), (Reg.IRQ_PEND 0, 8)])))
      (Reg.HIF_CQ_CPL_DATA 3 2) = 4#32 ∧
    devBusy (withTaken 6 0 [] [(Reg.PWR_DEV_STATUS, 0x20000000)]) = true := by decide +kernel

/-- Stream 4 with two released records at the result engine. -/
def withHeld : Chip :=
  modStream 4 (fun S => { S with out := [[1#8], [2#8]] }) (chipOf [(Reg.HIF_LINK_STATUS, 0x40403), (Reg.HIF_RR_CFG 4, 0x80000000),
    (Reg.HIF_APERTURE_BASE, 5)])

theorem test_flr : reg (post .functionLevelReset (stOf withHeld)) (Reg.HIF_RR_DROP 4) = 2#32 ∧
    reg (post .functionLevelReset (stOf withHeld)) Reg.HIF_LINK_STATUS = 0x40403#32 ∧
    reg (post .perstN (stOf withHeld)) Reg.HIF_LINK_STATUS = 0#32 ∧ reg (post .perstN (stOf withHeld)) Reg.HIF_FLR_COUNT = 1#32 ∧
    reg (post .perstN (stOf withHeld)) Reg.HIF_APERTURE_BASE = regReset Reg.HIF_APERTURE_BASE := by decide +kernel

theorem test_link : rflag (post .pcieLinkDown (stOf withHeld)) Reg.HIF_FAULT 3 = true ∧
    domOn ({} : Chip) 92 = true ∧ post (.pcieLinkUp 4 3) (stOf {}) = {} ∧
    reg (post (.apertureBaseWrite 0xABCD1234) (stOf {})) Reg.HIF_APERTURE_BASE = 0x1234#32 := by decide +kernel

/-- Fallow mode with a piece in the recovery buffer. -/
def inRecovery : Chip := putBytes rcvBase [7#8, 8#8] (chipOf [(Reg.BOOT_STATUS, 0xB0000000)])

theorem test_recovery : (post (.recoveryPiece 0x80000002) (stOf inRecovery)).staging = [7#8, 8#8] ∧
    reg (post (.recoveryPiece 0xC0000002) (stOf (putNum Reg.SEC_INFO 0x40000000 inRecovery))) Reg.HIF_RCV_STATUS = 0x80000005#32 ∧
    objectCode {} inRecovery (fun t => decide (1 ≤ t) && decide (t ≤ 4)) [7#8, 8#8] 2 = 4 ∧ secState inRecovery = 0 ∧
    inFallow inRecovery = true := by decide +kernel

theorem test_i3c : (post (.i3cIndexWrite 0x18) (stOf {})).i3cIndex = 0x18 ∧
    (post .i3cRead (stOf { chipOf [(Reg.FUSE_SERIAL_LO, 77)] with i3cIndex := 0x10 })).i3cOut = 77#32 ∧
    (post .i3cRead (stOf { ({} : Chip) with i3cIndex := 0xFC })).i3cIndex = 0 ∧
    (post .i3cIbi (stOf { chipOf [(Reg.PWR_THERM_STATUS, 5)] with i3cDue := true })).i3cSent = [5] := by decide +kernel

/-! ### Register access, management requests, BAR2 -/

theorem test_geometry : tileAt 127 63 = 8191 ∧ neighbour (tileAt 3 5) 0 = (tileAt 3 4, 1) ∧ neighbour (tileAt 3 5) 2 = (tileAt 4 5, 3) ∧
    fieldOf (tileAt 16 8) = 9 ∧ fieldOf (tileAt 127 63) = 63 := by decide +kernel

theorem test_access_sizes : goodAccess 8 8 = true ∧ goodAccess 4 8 = false ∧ goodAccess 6 4 = false ∧ goodAccess 8 16 = false ∧
    after (.registerWrite .power 0x200000100142 5 false) (stOf {}) = stOf {} ∧
    reg (post (.registerWrite .power 0x200000300108 0x0000000900000007 true) (stOf {})) (Reg.TMR_CMP 0) = 7#32 := by decide +kernel

theorem test_register_write :
    reg (post (.registerWrite .power 0x200000100008 0x5 false) (stOf (chipOf [(Reg.PWR_FAULT, 7)]))) Reg.PWR_FAULT = 2#32 ∧
    reg (post (.registerWrite .power (BitVec.ofNat 48 (Reg.CHK_THR 3)) 0x25 false) (stOf {})) (Reg.CHK_THR 3) = 0x25#32 ∧
    reg (post (.registerWrite .host (BitVec.ofNat 48 Reg.PWR_IRQ_ENABLE) 0 false) (stOf (chipOf [(Reg.HIF_CTRL, 2)]))) Reg.PWR_IRQ_ENABLE = 0#32 ∧
    reg (post (.registerWrite .host (BitVec.ofNat 48 Reg.PWR_IRQ_ENABLE) 0 false) (stOf {})) Reg.HIF_HOST_DENIED = 1#32 ∧
    hostMay ({} : Chip) Reg.PWR_IRQ_ENABLE = false ∧ hostMay ({} : Chip) Reg.REC_NOTE = true := by decide +kernel

/-- A floor plan in which tile 9 is good, and registers. -/
def goodNine (rs : List (Nat × Nat)) : Chip := { chipOf rs with mem := [(fpBase + 0x41, 2#8)] }

theorem test_tile_register : tileReached (goodNine []) 9 = true ∧ domOn (goodNine []) (fieldOf 9) = true ∧ tileReached ({} : Chip) 9 = false ∧
    reg (post (.registerWrite .thistle (BitVec.ofNat 48 (Reg.TILE_REGION 9 2)) 0x25 false) (stOf (goodNine []))) (Reg.TILE_REGION 9 2) = 0x25#32 ∧
    post (.registerWrite .thistle (BitVec.ofNat 48 (Reg.TILE_REGION 9 2)) 0x25 false) (stOf (goodNine [(Reg.TILE_CTRL 9, 1)])) =
      goodNine [(Reg.TILE_CTRL 9, 1)] := by decide +kernel

theorem test_register_bad : occupied 0x2000001FFFFC = false ∧
    post (.registerAccessBad .host 0x2000001FFFFC 4 true) (stOf {}) = chipOf [(Reg.HIF_HOST_DENIED, 1)] ∧
    post (.registerAccessBad .host 0x2000001FFFFC 4 false) (stOf { ({} : Chip) with readOut := 5#64 }) = {} ∧
    post (.registerAccessBad (.core 1) 0x200000100142 4 true) (stOf {}) = {} ∧
    reg (post (.bar0Write 0x800014 3 false) (stOf (chipOf [(Reg.HIF_LINK_STATUS, 3)]))) Reg.HIF_APERTURE_BASE = 3#32 ∧
    blockOn (chipOf [(Reg.PWR_DOM 92, 0x40000000)]) Reg.HIF_CTRL = false := by decide +kernel

/-- Tile 9 with a request of OP `op` from tile 5 at its Local port, by input port 1, and 7 at offset 0x40 of its SRAM. -/
def tileAsked (op : Nat) (body : List DWord) : Chip :=
  modTile 9 (fun T => { T with chn := { T.chn with dma := [(8 + 3, packet 3 (mkHead 4 0 0 0 9 0 body.length 5 (8192 * op)) body)] } })
    { ({} : Chip) with mem := [(win 9 + 0x40, 7#8)] }

theorem test_mgmt_tile : (takeRequest (.tile 9) (fun h => rqOp h == 0) (tileAsked 0 [mkBody (win 9 + 0x40)])).isSome = true ∧
    (wire (post (.mgmtRead (.tile 9)) (stOf (tileAsked 0 [mkBody (win 9 + 0x40)]))) 9 4 4).map (fun f => f.data.toNat / 256 % 256) = [0, 7] ∧
    byteAt (post (.mgmtWrite (.tile 9)) (stOf (tileAsked 1 [mkBody (win 9 + 0x41), mkBody 0x05]))) (win 9 + 0x41) = 5#8 ∧
    (wire (post (.mgmtOpReserved (.tile 9)) (stOf (tileAsked 3 []))) 9 4 4).map (fun f => fSub f.data / 8192) = [3] ∧
    rqMalformed 0 [] = true ∧ takeRequest (.tile 9) (fun h => rqOp h == 1) (tileAsked 0 []) = none := by decide +kernel

/-- Control tap 48 with a request of OP `op` that names `a`, 4 bytes. -/
def tapAsked (op a : Nat) (body : List DWord) : Chip :=
  { ({} : Chip) with tapIn := [(8 * 48 + 3, packet 3 (mkHead 4 0 0 1 0 0 (1 + body.length) 5 (8192 * op)) (mkBody (a + 3 * 2 ^ 48) :: body))] }

theorem test_mgmt_tap : tapOwns 48 Reg.PWR_IRQ_ENABLE = true ∧ tapOwns 48 (Reg.ENC_CTRL 0) = false ∧ occupied Reg.PWR_IRQ_ENABLE = true ∧
    rowIndex Reg.PWR_IRQ_ENABLE (Reg.IRQ_T_CLAIM 0) 0x100 6 = none ∧
    (wire (post (.mgmtRead (.tap 48)) (stOf (tapAsked 0 Reg.PWR_IRQ_ENABLE []))) (tapTile 48) 5 4).map (fun f => f.data.toNat / 256 % 256) =
      [0, 0x1E] ∧
    ((wire (post (.mgmtRead (.tap 48)) (stOf (tapAsked 0 (Reg.ENC_CTRL 0) []))) (tapTile 48) 5 4).head?.map (fun f => fSub f.data / 8192)) =
      some 2 := by decide +kernel

/-- A read of the key table's data registers latches the entry and steps INDEX, by a tap as by the command (R339). -/
theorem test_table_half : tableHalf Reg.GW_KT_DATA_LO = some (false, false) ∧ tableHalf Reg.GW_OUT_DATA_HI = some (true, true) ∧
    tableHalf Reg.PWR_IRQ_ENABLE = none ∧ rfld (tableStep false true (chipOf [(Reg.GW_KT_ADDR, 9)])) Reg.GW_KT_ADDR 17 0 = 10 := by
  decide +kernel

/-- A reply with TAG `tag` and STATUS `st` at control tap 48. -/
def tapAnswered (st tag : Nat) : Chip :=
  { ({} : Chip) with tapIn := [(8 * 48 + 4, packet 4 (mkHead 5 0 0 1 0 0 1 9 (8192 * st + tag)) [mkBody 0x0201])] }

theorem test_mgmt_reply : rflag (post (.mgmtReply (.tap 48)) (stOf (tapAnswered 1 4097))) Reg.HIF_FAULT 1 = true ∧
    reg (post (.mgmtReply (.tap 48)) (stOf (tapAnswered 2 4097))) Reg.HIF_AP_UNMAPPED = 1#32 ∧
    ((post (.mgmtReply (.tap 48)) (stOf (tapAnswered 0 9))).replyOut.1, (post (.mgmtReply (.tap 48)) (stOf (tapAnswered 0 9))).replyOut.2.1) = (0, 9) := by
  decide +kernel

/-- The host is reached, with AP_WR as given; every controller there; region 0 over the first 64 KiB for the host to read and write. -/
def forHost (ap : Nat) (rs : List (Nat × Nat)) : Chip :=
  chipOf ([(Reg.HIF_LINK_STATUS, 3), (Reg.HIF_CTRL, ap), (Reg.HIF_APERTURE_BASE, 0), (Reg.MEM_STATUS, 0x000F0080), (Reg.MEM_REGION_SIZE 0, 1),
    (Reg.MEM_REGION_ATTR 0, 0x80000103)] ++ rs)

theorem test_bar2_memory : memMapped (forHost 1 []) 0x40 2 = true ∧ memAllowed (forHost 1 []) (fun r => flag r 1) 0x40 2 = true ∧
    memAllowed (forHost 1 []) (fun r => flag r 0) 0x40 2 = true ∧ memAllowed (forHost 1 []) (fun r => flag r 0) 0x10040 2 = false ∧
    linesOf 0x40 2 = [1] ∧ lineError (forHost 1 []) 1 = 0 ∧ lockedAt (forHost 1 []) 0x40 = false ∧
    byteAt (post (.bar2Access 0x40 true [5#8, 6#8] 0) (stOf (forHost 1 []))) 0x41 = 6#8 ∧
    reg (post (.bar2Access 0x10040 true [5#8] 0) (stOf (forHost 1 []))) Reg.MEM_DENIED = 1#32 ∧
    reg (post (.bar2Access 0x40 true [5#8] 0) (stOf (forHost 1 [(Reg.IMG_STATUS, 0x20000000), (Reg.IMG_SRC_LO, 0x40), (Reg.IMG_LEN_LO, 64)])))
      Reg.IMG_LOCK_VIOL = 1#32 ∧
    post (.bar2Access 0x40 true [5#8] 0) (stOf (forHost 0 [])) = forHost 0 [] := by decide +kernel

theorem test_bar2_space : memMapped (chipOf [(Reg.HIF_LINK_STATUS, 3)]) 0x40 4 = false ∧
    (post (.bar2Access 0x40 false [] 4) (stOf (chipOf [(Reg.HIF_LINK_STATUS, 3)]))).replyOut = (0, 4096, [0#8, 0#8, 0#8, 0#8]) ∧
    reg (post (.bar2Access 0 false [] 4) (stOf (chipOf [(Reg.HIF_LINK_STATUS, 3), (Reg.HIF_APERTURE_BASE, 0x3000)]))) Reg.HIF_AP_UNMAPPED = 1#32 ∧
    reg (post (.bar2Access 0x800014 true (toBytes 4 7) 0) (stOf (chipOf [(Reg.HIF_LINK_STATUS, 3), (Reg.HIF_APERTURE_BASE, 0x2000), (Reg.HIF_CTRL, 1)])))
      Reg.HIF_APERTURE_BASE = 7#32 := by decide +kernel

theorem test_tile_domain : tileOf (.nop 5) = some 5 ∧ domOn (chipOf [(Reg.PWR_DOM 0, 0x40000000)]) (fieldOf 5) = false ∧
    post (.seqEnSet 5) (stOf (chipOf [(Reg.PWR_DOM 0, 0x40000000)])) = chipOf [(Reg.PWR_DOM 0, 0x40000000)] := by decide +kernel

end Sys2Proof.Tests
end

section
/-!
PROOFS. Register accesses: sizes and alignment, the two words of a 64-bit access, what a write of one word does by initiator
and place, and what the access codes leave in a register (R16 to R20, R86, R479, R535).
-/

namespace Sys2Proof.Machine

open Sys2Proof.Safety

/-! ### Size and alignment (R17) -/

theorem goodAccess_iff (a n : Nat) : goodAccess a n = true ↔ (n = 4 ∨ n = 8) ∧ a % n = 0 := by
  simp only [goodAccess, Bool.or_eq_true, Bool.and_eq_true, beq_iff_eq]
  constructor
  · rintro (⟨rfl, h⟩ | ⟨rfl, h⟩)
    · exact ⟨.inl rfl, h⟩
    · exact ⟨.inr rfl, h⟩
  · rintro ⟨rfl | rfl, h⟩
    · exact .inl ⟨rfl, h⟩
    · exact .inr ⟨rfl, h⟩

theorem goodAccess_four {a : Nat} (h : a % 4 = 0) : goodAccess a 4 = true := (goodAccess_iff a 4).2 ⟨.inl rfl, h⟩

/-- Both words of an aligned 8-byte access are aligned, and the upper one is inside the 48-bit space. -/
theorem words_of_goodAccess_eight {a : BitVec 48} (h : goodAccess a.toNat 8 = true) :
    goodAccess a.toNat 4 = true ∧ (a + 4).toNat = a.toNat + 4 ∧ goodAccess (a.toNat + 4) 4 = true := by
  obtain ⟨-, ha⟩ := (goodAccess_iff _ _).1 h
  have hlt := a.isLt
  refine ⟨goodAccess_four (by omega), ?_, goodAccess_four (by omega)⟩
  rw [BitVec.toNat_add, show (4 : BitVec 48).toNat = 4 from rfl, Nat.mod_eq_of_lt (by omega)]

theorem exec_registerWrite (who : Initiator) (a : BitVec 48) (v : DWord) (wide : Bool) (s : State) :
    exec (.registerWrite who a v wide) s = .next (registerWrite who a.toNat v wide s) := rfl

theorem registerWrite_of_bad {who : Initiator} {a : Nat} {v : DWord} {wide : Bool} {s : State}
    (h : goodAccess a (if wide then 8 else 4) = false) : registerWrite who a v wide s = s := by
  simp [registerWrite, h]

theorem registerWrite_narrow {who : Initiator} {a : Nat} {v : DWord} {s : State} (h : goodAccess a 4 = true) :
    registerWrite who a v false s = initiatorWord who a (v.setWidth 32) s := by
  simp [registerWrite, h]

theorem registerWrite_wide {who : Initiator} {a : Nat} {v : DWord} {s : State} (h : goodAccess a 8 = true) :
    registerWrite who a v true s =
      initiatorWord who (a + 4) ((v >>> 32).setWidth 32) (initiatorWord who a (v.setWidth 32) s) := by
  have hi : BitVec.ofNat 32 (v.toNat / 2 ^ 32) = (v >>> 32).setWidth 32 := by
    rw [← BitVec.ofNat_toNat, BitVec.toNat_ushiftRight, Nat.shiftRight_eq_div_pow]
  simp [registerWrite, h, ← hi]

/-- A 64-bit write is a 32-bit write of the low half, then one of the high half at the next offset. -/
theorem registerWrite_wide_eq_two {who : Initiator} {a : BitVec 48} {v : DWord} {s : State} (h : goodAccess a.toNat 8 = true) :
    registerWrite who a.toNat v true s =
      registerWrite who (a + 4).toNat (v >>> 32) false (registerWrite who a.toNat v false s) := by
  obtain ⟨lo, next, hi⟩ := words_of_goodAccess_eight h
  rw [registerWrite_wide h, registerWrite_narrow lo, next, registerWrite_narrow hi]

theorem readWords_two (who : Option Initiator) (a : Nat) (s : State) :
    readWords who a 2 s =
      ((readWords who a 1 s).1 ++ (readWords who (a + 4) 1 (readWords who a 1 s).2).1,
        (readWords who (a + 4) 1 (readWords who a 1 s).2).2) := by
  simp [readWords]

/-- Settles O57: every write is its words in ascending order, each an access of its own. -/
theorem registerAccessSizes : Obligations.RegisterAccessSizes := by
  refine ⟨goodAccess_iff, fun who a v wide s h => ?_, fun who a v s h => ?_, fun who a v s t h ht => ?_, readWords_two⟩
  · rw [exec_registerWrite, registerWrite_of_bad h]
  · rw [exec_registerWrite, registerWrite_narrow h]
  · injection ht with ht
    rw [exec_registerWrite, exec_registerWrite, registerWrite_wide_eq_two h, ht]

/-! ### One word by initiator and place (R18, R479, R535) -/

theorem writeReg_of_absent {who : Option Initiator} {a : Nat} {v : Word} {s : State}
    (h : occupied a = false ∨ blockOn s.chip a = false) : writeReg who a v s = s := by
  have hc : (!occupied a || !blockOn s.chip a) = true := by
    rcases h with h | h <;> simp [h]
  rw [writeReg, if_pos hc]

theorem initiatorWord_of_absent {who : Initiator} {a : Nat} {v : Word} {s : State} (hw : who ≠ .host)
    (h : occupied a = false ∨ blockOn s.chip a = false) : initiatorWord who a v s = s := by
  simp [initiatorWord, hw, writeReg_of_absent h]

theorem initiatorWord_control {who : Initiator} {a : Nat} {v : Word} {s : State} (ha : 0x200000000000 ≤ a)
    (h : who ≠ .host ∨ hostMay s.chip a = true) : initiatorWord who a v s = writeReg (some who) a v s := by
  rw [initiatorWord, if_neg (Nat.not_lt.2 ha)]
  by_cases hw : who = .host
  · subst hw
    have hm : hostMay s.chip a = true := h.resolve_left (fun hne => hne rfl)
    simp [hostWord, hm]
  · simp [hw]

theorem initiatorWord_host_denied {a : Nat} {v : Word} {s : State} (ha : 0x200000000000 ≤ a)
    (h : hostMay s.chip a = false) : initiatorWord .host a v s = onChip (count Reg.HIF_HOST_DENIED 1) s := by
  rw [initiatorWord, if_neg (Nat.not_lt.2 ha)]
  simp [hostWord, h]

theorem initiatorWord_tile {who : Initiator} {a : Nat} {v : Word} {s : State} (hw : who ≠ .host) (ha : a < 0x200000000000)
    (h : tileReached s.chip ((a - win 0) / 0x100000) = true) : initiatorWord who a v s = writeReg (some who) a v s := by
  simp [initiatorWord, ha, h, hw]

/-- A denied write shows in HIF_HOST_DENIED and nowhere else. -/
theorem count_advances_alone (a : Nat) (c : Chip) : Advanced a 1 c (count a 1 c) ∧ Frame [a] [] c (count a 1 c) :=
  ⟨advanced_count a 1 c, frame_count a 1 List.mem_cons_self (frame_refl ..)⟩

/-! ### The access codes (R19, R20) -/

theorem plainWrite_eq {a : Nat} {r : RegRow} (h : regRow a = some r) (v : Word) (c : Chip) :
    plainWrite a v c = setReg a (storeWord r (reg c a) v) c := by
  rw [plainWrite, h]

/-- A plain write of a register of the map leaves there what its access codes give, and touches nothing else. -/
theorem plainWrite_stores {a : Nat} {r : RegRow} (h : regRow a = some r) (v : Word) (c : Chip) :
    reg (plainWrite a v c) a = storeWord r (reg c a) v ∧ Frame [a] [] c (plainWrite a v c) := by
  rw [plainWrite_eq h]
  exact ⟨reg_setReg_same .., frame_setReg _ _ List.mem_cons_self (frame_refl ..)⟩

theorem occupied_of_regRow {a : Nat} {r : RegRow} (h : regRow a = some r) : occupied a = true := by simp [occupied, h]

theorem rowIndex_below {a base stride n : Nat} (h : a < base) : rowIndex a base stride n = none :=
  if_neg (fun ⟨hbase, _⟩ => Nat.not_le.2 h hbase)

theorem rowIndex_between {a base stride n : Nat} (h : (a - base) % stride ≠ 0) : rowIndex a base stride n = none :=
  if_neg (fun ⟨_, hmul, _⟩ => h hmul)

/-! ### Control-space registers that a write sets by its access codes alone -/

/-- The registers of the timers, recorder, integrity block and power controller that hold what a write leaves and act on
nothing by it. -/
def PlainControl (a : Nat) : Prop :=
  a = Reg.PWR_THERM_CFG ∨ a = Reg.PWR_FAULT ∨ a = Reg.PWR_IRQ_ENABLE ∨ a = Reg.REC_CTRL ∨
    a = Reg.CHK_IRQ_ENABLE ∨ (∃ n, n < 16 ∧ a = Reg.TMR_CMP n) ∨ (∃ n, n < 16 ∧ a = Reg.CHK_THR n)

theorem regRow_TMR_CMP : ∀ n, n < 16 → (regRow (Reg.TMR_CMP n)).isSome = true := by decide +kernel

theorem regRow_CHK_THR : ∀ n, n < 16 → (regRow (Reg.CHK_THR n)).isSome = true := by decide +kernel

theorem regRow_of_plainControl {a : Nat} (h : PlainControl a) : ∃ r, regRow a = some r := by
  rw [← Option.isSome_iff_exists]
  rcases h with rfl | rfl | rfl | rfl | rfl | ⟨n, hn, rfl⟩ | ⟨n, hn, rfl⟩
  · decide +kernel
  · decide +kernel
  · decide +kernel
  · decide +kernel
  · decide +kernel
  · exact regRow_TMR_CMP n hn
  · exact regRow_CHK_THR n hn

/-- The blocks of the control space below the host interface stand in no power domain (R535). -/
theorem blockOn_low {a : Nat} (c : Chip) (ha : 0x200000000000 ≤ a) (hb : a < 0x200000800000) : blockOn c a = true := by
  have hk : (a - 0x200000000000) / 0x100000 < 8 := by omega
  rw [blockOn, if_neg (Nat.not_lt.2 ha)]
  simp only
  split
  · omega
  · omega
  · omega
  · omega
  · simp; omega

/-- A register that stands in one of these blocks is always there to be written. -/
theorem low_block_present {a : Nat} (ho : occupied a = true) (c : Chip) (ha : 0x200000000000 ≤ a) (hb : a < 0x200000800000) :
    ¬ (!occupied a || !blockOn c a) = true := by
  simp [ho, blockOn_low c ha hb]

section
variable {a : Nat} (ho : occupied a = true) (who : Option Initiator) (v : Word) (s : State)
include ho

theorem writeReg_pwr (ha : 0x200000100000 ≤ a) (hb : a < 0x200000200000) : writeReg who a v s = onChip (writePwr a v) s := by
  have hk : (a - 0x200000000000) / 0x100000 = 1 := by omega
  rw [writeReg, if_neg (low_block_present ho s.chip (by omega) (by omega)), if_neg (by omega)]
  simp only [hk]

theorem writeReg_tmr (ha : 0x200000300000 ≤ a) (hb : a < 0x200000400000) : writeReg who a v s = onChip (writeTmr a v) s := by
  have hk : (a - 0x200000000000) / 0x100000 = 3 := by omega
  rw [writeReg, if_neg (low_block_present ho s.chip (by omega) (by omega)), if_neg (by omega)]
  simp only [hk]

theorem writeReg_rec (ha : 0x200000400000 ≤ a) (hb : a < 0x200000500000) : writeReg who a v s = onChip (writeRec who a v) s := by
  have hk : (a - 0x200000000000) / 0x100000 = 4 := by omega
  rw [writeReg, if_neg (low_block_present ho s.chip (by omega) (by omega)), if_neg (by omega)]
  simp only [hk]

theorem writeReg_chk (ha : 0x200000600000 ≤ a) (hb : a < 0x200000700000) : writeReg who a v s = onChip (writeChk a v) s := by
  have hk : (a - 0x200000000000) / 0x100000 = 6 := by omega
  rw [writeReg, if_neg (low_block_present ho s.chip (by omega) (by omega)), if_neg (by omega)]
  simp only [hk]

end

theorem writePwr_plain {a : Nat} (h : a = Reg.PWR_THERM_CFG ∨ a = Reg.PWR_FAULT ∨ a = Reg.PWR_IRQ_ENABLE) (v : Word) (c : Chip) :
    writePwr a v c = plainWrite a v c := by
  rcases h with rfl | rfl | rfl <;> rfl

theorem writeTmr_TMR_CMP (n : Nat) (v : Word) (c : Chip) : writeTmr (Reg.TMR_CMP n) v c = plainWrite (Reg.TMR_CMP n) v c := by
  have hc : Reg.TMR_CMP n ≠ Reg.TMR_WDOG_CFG := by simp only [Reg.TMR_CMP, Reg.TMR_WDOG_CFG]; omega
  have hk : Reg.TMR_CMP n ≠ Reg.TMR_WDOG_KICK := by simp only [Reg.TMR_CMP, Reg.TMR_WDOG_KICK]; omega
  have hr : rowIndex (Reg.TMR_CMP n) (Reg.TMR_CFG 0) 16 16 = none :=
    rowIndex_between (by simp only [Reg.TMR_CMP, Reg.TMR_CFG]; omega)
  simp [writeTmr, hc, hk, hr]

/-- Below the jobs' part the integrity block holds plain registers only. -/
theorem writeChk_below_jobs {a : Nat} (h : a < Reg.CHK_JOB_CFG 0) (v : Word) (c : Chip) : writeChk a v c = plainWrite a v c := by
  have hj : a < Reg.CHK_JOB_RESUME 0 := Nat.lt_trans h (by decide)
  simp [writeChk, rowIndex_below h, rowIndex_below hj]

/-- A write of such a register acts by its access codes alone, whoever writes. -/
theorem writeReg_plainControl {a : Nat} (h : PlainControl a) (who : Option Initiator) (v : Word) (s : State) :
    writeReg who a v s = onChip (plainWrite a v) s := by
  obtain ⟨r, hr⟩ := regRow_of_plainControl h
  have ho := occupied_of_regRow hr
  have pwr (hp : a = Reg.PWR_THERM_CFG ∨ a = Reg.PWR_FAULT ∨ a = Reg.PWR_IRQ_ENABLE) :
      writeReg who a v s = onChip (plainWrite a v) s := by
    simp only [Reg.PWR_THERM_CFG, Reg.PWR_FAULT, Reg.PWR_IRQ_ENABLE] at hp
    rw [writeReg_pwr ho who v s (by omega) (by omega), funext (writePwr_plain hp v)]
  have chk (hlo : 0x200000600000 ≤ a) (hhi : a < Reg.CHK_JOB_CFG 0) :
      writeReg who a v s = onChip (plainWrite a v) s := by
    rw [writeReg_chk ho who v s hlo (Nat.lt_trans hhi (by decide)), funext (writeChk_below_jobs hhi v)]
  rcases h with h | h | h | rfl | rfl | ⟨n, hn, rfl⟩ | ⟨n, hn, rfl⟩
  · exact pwr (.inl h)
  · exact pwr (.inr (.inl h))
  · exact pwr (.inr (.inr h))
  · rw [writeReg_rec ho who v s (by decide) (by decide)]; rfl
  · exact chk (by decide) (by decide)
  · rw [writeReg_tmr ho who v s (by simp only [Reg.TMR_CMP]; omega) (by simp only [Reg.TMR_CMP]; omega),
      funext (writeTmr_TMR_CMP n v)]
  · exact chk (by simp only [Reg.CHK_THR]; omega) (by simp only [Reg.CHK_THR, Reg.CHK_JOB_CFG]; omega)

theorem plainControl_aligned {a : Nat} (h : PlainControl a) : 0x200000000000 ≤ a ∧ a % 4 = 0 := by
  rcases h with rfl | rfl | rfl | rfl | rfl | ⟨n, -, rfl⟩ | ⟨n, -, rfl⟩
  · decide
  · decide
  · decide
  · decide
  · decide
  · simp only [Reg.TMR_CMP]; omega
  · simp only [Reg.CHK_THR]; omega

/-! ### Region registers of a tile (R86, R109) -/

/-- The two blocks that stand first in the map: the tick controller and the tile unit. -/
theorem regBlocks_front : regBlocks = ⟨0x200000500000, 1, 0x100000, 0x100000, rowsTICK⟩ ::
    ⟨0x100000080000, 8192, 0x100000, 0x1000, rowsTILE⟩ :: regBlocks.drop 2 := rfl

theorem blockHas_below {b : RegBlock} {a : Nat} (h : a < b.base) : blockHas b a = false := by
  simp [blockHas, Nat.not_le.2 h]

theorem blockHas_tile_unit {t o : Nat} (ht : t < 8192) (ho : o < 0x1000) :
    blockHas ⟨0x100000080000, 8192, 0x100000, 0x1000, rowsTILE⟩ (win t + 0x80000 + o) = true := by
  have hbase : 0x100000080000 ≤ win t + 0x80000 + o := by simp only [win]; omega
  have hunit : (win t + 0x80000 + o - 0x100000080000) / 0x100000 < 8192 := by simp only [win]; omega
  have hoff : (win t + 0x80000 + o - 0x100000080000) % 0x100000 < 0x1000 := by simp only [win]; omega
  simp [blockHas, hbase, hunit, hoff]

/-- The register part of tile `t`'s window begins with the tile unit's block. The blocks are peeled off one by one, so that
the kernel never evaluates the search at an open address. -/
theorem findBlock_tile_unit {t o : Nat} (ht : t < 8192) (ho : o < 0x1000) :
    findBlock (win t + 0x80000 + o) = some ⟨0x100000080000, 8192, 0x100000, 0x1000, rowsTILE⟩ := by
  have ha : win t + 0x80000 + o < 0x200000500000 := by simp only [win]; omega
  rw [findBlock, regBlocks_front, List.find?_cons_of_neg (by rw [blockHas_below ha]; decide),
    List.find?_cons_of_pos (p := fun b => blockHas b (win t + 0x80000 + o)) (blockHas_tile_unit ht ho)]

theorem regRow_of_findBlock {a : Nat} {b : RegBlock} (h : findBlock a = some b) :
    regRow a = findRow b.rows ((a - b.base) % b.stride) := by
  rw [regRow, h]

theorem regRow_tile_unit {t o : Nat} (ht : t < 8192) (ho : o < 0x1000) : regRow (win t + 0x80000 + o) = findRow rowsTILE o := by
  have hof : (win t + 0x80000 + o - 0x100000080000) % 0x100000 = o := by simp only [win]; omega
  rw [regRow_of_findBlock (findBlock_tile_unit ht ho), hof]

theorem TILE_REGION_eq (t n : Nat) : Reg.TILE_REGION t n = win t + 0x80000 + (0x70 + 4 * n) := by
  simp only [Reg.TILE_REGION, win]; omega

theorem findRow_TILE_REGION : ∀ n, n < 8 → (findRow rowsTILE (0x70 + 4 * n)).isSome = true := by decide +kernel

theorem regRow_TILE_REGION {t n : Nat} (ht : t < 8192) (hn : n < 8) : ∃ r, regRow (Reg.TILE_REGION t n) = some r := by
  rw [TILE_REGION_eq, regRow_tile_unit ht (by omega), ← Option.isSome_iff_exists]
  exact findRow_TILE_REGION n hn

theorem lockedBySeq_region : ∀ n, n < 8 → lockedBySeq (0x80000 + (0x70 + 4 * n)) = true := by decide +kernel

/-- No action stands at a region register: the lock by SEQ_EN is all that its write asks. -/
theorem writeTile_TILE_REGION {n : Nat} (hn : n < 8) (t : Nat) (v : Word) (c : Chip) :
    writeTile t (Reg.TILE_REGION t n) v c = lockedWrite (seqEn c t) (Reg.TILE_REGION t n) v c := by
  have hl : lockedBySeq (Reg.TILE_REGION t n - win t) = true := by
    rw [TILE_REGION_eq, Nat.add_assoc, Nat.add_sub_cancel_left]
    exact lockedBySeq_region n hn
  have hcfg : rowIndex (Reg.TILE_REGION t n) (Reg.CHN_RX_CFG t 0) 16 64 = none :=
    rowIndex_below (by simp only [Reg.TILE_REGION, Reg.CHN_RX_CFG]; omega)
  have hptr : rowIndex (Reg.TILE_REGION t n) (Reg.CHN_RX_RPTR t 0) 16 64 = none :=
    rowIndex_below (by simp only [Reg.TILE_REGION, Reg.CHN_RX_RPTR]; omega)
  rw [writeTile, hcfg, hptr, hl, Bool.and_true]
  simp (disch := (simp only [Reg.TILE_REGION, Reg.TILE_CTRL, Reg.TILE_RING, Reg.TILE_SRAM_RET, Reg.NRN_CTRL, Reg.SYN_CTRL,
    Reg.LRN_CTRL, Reg.LRN_LABEL_PUSH, Reg.LRN_MOW_COUNT_SET, Reg.RTR_CTRL, Reg.RTR_TAP_CFG, Reg.CHN_BC_CTRL, Reg.DEC_CTRL,
    Reg.DEC_WINDOW, win]; omega)) only [if_neg]

theorem writeReg_tile {a : Nat} (who : Option Initiator) (v : Word) (s : State) (ho : occupied a = true)
    (ha : a < 0x200000000000) (hd : domOn s.chip (fieldOf ((a - win 0) / 0x100000)) = true) :
    writeReg who a v s = onChip (writeTile ((a - win 0) / 0x100000) a v) s := by
  simp [writeReg, ho, blockOn, ha, hd]

/-- A write of a region register by the mesh: plain while SEQ_EN is 0, none while it is 1. -/
theorem initiatorWord_TILE_REGION {who : Initiator} {t n : Nat} {s : State} (ht : t < 8192) (hn : n < 8) (v : Word)
    (hw : who ≠ .host) (hr : tileReached s.chip t = true) (hd : domOn s.chip (fieldOf t) = true) :
    initiatorWord who (Reg.TILE_REGION t n) v s =
      onChip (fun c => lockedWrite (seqEn c t) (Reg.TILE_REGION t n) v c) s := by
  obtain ⟨r, hrow⟩ := regRow_TILE_REGION ht hn
  have ha : Reg.TILE_REGION t n < 0x200000000000 := by simp only [Reg.TILE_REGION]; omega
  have hi : (Reg.TILE_REGION t n - win 0) / 0x100000 = t := by simp only [Reg.TILE_REGION, win]; omega
  rw [initiatorWord_tile hw ha (by rw [hi]; exact hr),
    writeReg_tile _ v s (occupied_of_regRow hrow) ha (by rw [hi]; exact hd), hi, funext (writeTile_TILE_REGION hn t v)]

/-! ### The clauses of the statement -/

theorem completes_registerWrite {who : Initiator} {a : BitVec 48} {v : DWord} {s : State} {c : Chip} (h : a.toNat % 4 = 0)
    (hc : initiatorWord who a.toNat (v.setWidth 32) s = { s with chip := c }) : Completes (.registerWrite who a v false) s c := by
  rw [Completes, exec_registerWrite, registerWrite_narrow (goodAccess_four h), hc]

theorem registerWrite_plainControl {who : Initiator} {a : BitVec 48} {s : State} (v : DWord) (h : PlainControl a.toNat)
    (hw : who ≠ .host ∨ rflag s.chip Reg.HIF_CTRL 1 = true) :
    Completes (.registerWrite who a v false) s (plainWrite a.toNat (v.setWidth 32) s.chip) := by
  obtain ⟨hlo, ha⟩ := plainControl_aligned h
  have hm : who ≠ .host ∨ hostMay s.chip a.toNat = true := hw.imp_right (fun hf => by simp [hostMay, hf])
  refine completes_registerWrite ha ?_
  rw [initiatorWord_control hlo hm, writeReg_plainControl h]
  rfl

theorem registerWrite_TILE_REGION {who : Initiator} {t n : Nat} {s : State} (v : DWord) (ht : t < 8192) (hn : n < 8)
    (hw : who ≠ .host) (hr : tileReached s.chip t = true) (hd : domOn s.chip (fieldOf t) = true) :
    Completes (.registerWrite who (BitVec.ofNat 48 (Reg.TILE_REGION t n)) v false) s
      (lockedWrite (seqEn s.chip t) (Reg.TILE_REGION t n) (v.setWidth 32) s.chip) := by
  have ha : (BitVec.ofNat 48 (Reg.TILE_REGION t n)).toNat = Reg.TILE_REGION t n :=
    (BitVec.toNat_ofNat ..).trans (Nat.mod_eq_of_lt (by simp only [Reg.TILE_REGION]; omega))
  refine completes_registerWrite (by rw [ha]; simp only [Reg.TILE_REGION]; omega) ?_
  rw [ha, initiatorWord_TILE_REGION ht hn _ hw hr hd]
  rfl

theorem registerWrite_host_denied {a : BitVec 48} {s : State} (v : DWord) (hlo : 0x200000000000 ≤ a.toNat)
    (ha : a.toNat % 4 = 0) (h : hostMay s.chip a.toNat = false) :
    Completes (.registerWrite .host a v false) s (count Reg.HIF_HOST_DENIED 1 s.chip) :=
  completes_registerWrite ha (initiatorWord_host_denied hlo h)

theorem registerWrite_of_absent {who : Initiator} {a : BitVec 48} {s : State} (v : DWord) (hw : who ≠ .host)
    (h : occupied a.toNat = false ∨ blockOn s.chip a.toNat = false) : Completes (.registerWrite who a v false) s s.chip := by
  by_cases ha : goodAccess a.toNat 4 = true
  · exact completes_registerWrite ((goodAccess_iff _ _).1 ha).2 (initiatorWord_of_absent hw h)
  · rw [Completes, exec_registerWrite, registerWrite_of_bad (by simpa using ha)]

/-- What an access of a bad kind does (R18): a read shows 0, a write counts where R479 denies it. -/
theorem exec_registerAccessBad {who : Initiator} {a : BitVec 48} {size : Nat} {s : State} (write : Bool)
    (h : (goodAccess a.toNat size && occupied a.toNat) = false) :
    exec (.registerAccessBad who a size write) s =
      done s (if write then
        when_ (who == .host && decide (0x200000000000 ≤ a.toNat) && !hostMay s.chip a.toNat) (count Reg.HIF_HOST_DENIED 1) s.chip
      else { s.chip with readOut := 0#64 }) := by
  show execRegisterAccessBad who a size write s = _
  cases write <;> simp [execRegisterAccessBad, h]

theorem registerAccessBad_of_good {who : Initiator} {a : BitVec 48} {size : Nat} {s : State} (write : Bool)
    (h : (goodAccess a.toNat size && occupied a.toNat) = true) : Completes (.registerAccessBad who a size write) s s.chip := by
  show execRegisterAccessBad who a size write s = _
  simp [execRegisterAccessBad, h]

theorem registerAccessBad_write_undenied {who : Initiator} {a : BitVec 48} {size : Nat} {s : State}
    (h : (goodAccess a.toNat size && occupied a.toNat) = false)
    (hm : who ≠ .host ∨ a.toNat < 0x200000000000 ∨ hostMay s.chip a.toNat = true) :
    Completes (.registerAccessBad who a size true) s s.chip := by
  have hf : (who == .host && decide (0x200000000000 ≤ a.toNat) && !hostMay s.chip a.toNat) = false := by
    rcases hm with hw | ha | hm
    · simp [hw]
    · simp [Nat.not_le.2 ha]
    · simp [hm]
  refine (exec_registerAccessBad true h).trans ?_
  rw [hf]
  rfl

theorem registerAccessBad_write_denied {a : BitVec 48} {size : Nat} {s : State}
    (h : (goodAccess a.toNat size && occupied a.toNat) = false) (ha : 0x200000000000 ≤ a.toNat)
    (hm : hostMay s.chip a.toNat = false) :
    Completes (.registerAccessBad .host a size true) s (count Reg.HIF_HOST_DENIED 1 s.chip) := by
  refine (exec_registerAccessBad true h).trans ?_
  simp [ha, hm, when_, done]

theorem exec_bar0Write (o : BitVec 26) (v : DWord) (wide : Bool) (s : State) :
    exec (.bar0Write o v wide) s =
      if hostReached s.chip then exec (.registerWrite .host (BitVec.ofNat 48 (0x200000000000 + o.toNat)) v wide) s else .next s := by
  have ha : (BitVec.ofNat 48 (0x200000000000 + o.toNat)).toNat = 0x200000000000 + o.toNat :=
    (BitVec.toNat_ofNat ..).trans (Nat.mod_eq_of_lt (by omega))
  rw [exec_registerWrite, ha]
  show Host.Outcome.next (bar0Write o.toNat v wide s) = _
  rw [bar0Write]
  split <;> rfl

/-- Settles O58: each kind of write by the lemma that says what its word does. -/
theorem registerWrites : Obligations.RegisterWrites := by
  intro s
  refine ⟨fun who a v hw h => ?_, fun who t n v hw hr hd => ⟨fun hs => ?_, fun hs => ?_⟩, fun a v hlo ha hm => ?_,
    fun who a v hw h => registerWrite_of_absent v hw h, fun who a size write => ⟨?_, ?_, ?_, ?_⟩,
    fun o v wide => ⟨fun h => ?_, fun h => ?_⟩⟩
  · obtain ⟨r, hr⟩ := regRow_of_plainControl h
    exact ⟨_, r, hr, registerWrite_plainControl v h hw, plainWrite_stores hr _ _⟩
  · have hc := registerWrite_TILE_REGION v t.isLt n.isLt hw hr hd
    rwa [hs] at hc
  · have hc := registerWrite_TILE_REGION v t.isLt n.isLt hw hr hd
    rw [hs] at hc
    obtain ⟨r, hrow⟩ := regRow_TILE_REGION t.isLt n.isLt
    exact ⟨_, r, hrow, hc, plainWrite_stores hrow _ _⟩
  · exact ⟨_, registerWrite_host_denied v hlo ha hm, count_advances_alone ..⟩
  · exact registerAccessBad_of_good write
  · rintro h rfl
    exact exec_registerAccessBad false h
  · rintro h rfl hm
    exact registerAccessBad_write_undenied h hm
  · rintro h rfl rfl ha hm
    exact ⟨_, registerAccessBad_write_denied h ha hm, count_advances_alone ..⟩
  · rw [Completes, exec_bar0Write, h]; rfl
  · rw [exec_bar0Write, h]; rfl

end Sys2Proof.Machine
end

section
/-!
PROOFS. The grid: a tile index and its coordinates, the ports at the edges, the fields and the two halves of the die
(R29, R30, R34).
-/

namespace Sys2Proof.Machine

/-! ### Tile index and coordinates (R29) -/

theorem tileX_lt (t : Nat) : tileX t < 128 := Nat.mod_lt t (by decide)

theorem tileY_lt {t : Nat} (h : t < 8192) : tileY t < 64 := by
  simp only [tileY]; omega

theorem tileAt_lt {x y : Nat} (hx : x < 128) (hy : y < 64) : tileAt x y < 8192 := by
  simp only [tileAt]; omega

theorem tileX_tileAt {x : Nat} (hx : x < 128) (y : Nat) : tileX (tileAt x y) = x := by
  simp only [tileX, tileAt]; omega

theorem tileY_tileAt {x : Nat} (hx : x < 128) (y : Nat) : tileY (tileAt x y) = y := by
  simp only [tileY, tileAt]; omega

@[simp] theorem tileAt_tileX_tileY (t : Nat) : tileAt (tileX t) (tileY t) = t := Nat.div_add_mod' t 128

/-- A whole number of rows further on lies the same column. -/
theorem tileX_rows_add (n t : Nat) : tileX (128 * n + t) = tileX t := Nat.mul_add_mod 128 n t

/-! ### Ports and what they lead to (R29, R34) -/

theorem neighbour_zero (t : Nat) : neighbour t 0 = (t - 128, 1) := rfl

theorem neighbour_two (t : Nat) : neighbour t 2 = (t + 1, 3) := rfl

theorem neighbour_north {y : Nat} (x : Nat) (hy : 0 < y) : neighbour (tileAt x y) 0 = (tileAt x (y - 1), 1) := by
  have h : tileAt x y - 128 = tileAt x (y - 1) := by simp only [tileAt]; omega
  rw [neighbour_zero, h]

theorem neighbour_east (x y : Nat) : neighbour (tileAt x y) 2 = (tileAt (x + 1) y, 3) := by
  have h : tileAt x y + 1 = tileAt (x + 1) y := by simp only [tileAt]; omega
  rw [neighbour_two, h]

theorem portPresent_north_of_row_zero {t : Nat} (c : Chip) (h : tileY t = 0) : portPresent c t 0 = false := by
  simp [portPresent, h]

theorem portPresent_west_of_column_zero {t : Nat} (c : Chip) (h : tileX t = 0) : portPresent c t 3 = false := by
  simp [portPresent, h]

/-! ### Fields and halves (R30) -/

theorem fieldOf_eq_shifts (t : Nat) : fieldOf t = (tileY t >>> 3) * 8 + (tileX t >>> 4) := by
  rw [fieldOf, Nat.shiftRight_eq_div_pow, Nat.shiftRight_eq_div_pow]

/-- A field's place in its row of eight fields comes from the column alone. -/
theorem fieldOf_mod (t : Nat) : fieldOf t % 8 = tileX t / 16 := by
  have hx := tileX_lt t
  simp only [fieldOf]; omega

/-- Its row of fields comes from the tile's row alone. -/
theorem fieldOf_div (t : Nat) : fieldOf t / 8 = tileY t / 8 := by
  have hx := tileX_lt t
  simp only [fieldOf]; omega

theorem fieldOf_lt {t : Nat} (h : t < 8192) : fieldOf t < 64 := by
  have hdiv := fieldOf_div t
  have hy := tileY_lt h
  omega

/-- The tiles of a field: those of its 16 columns and 8 rows. -/
theorem fieldOf_eq_iff (t f : Nat) :
    fieldOf t = f ↔ 16 * (f % 8) ≤ tileX t ∧ tileX t ≤ 16 * (f % 8) + 15 ∧ 8 * (f / 8) ≤ tileY t ∧ tileY t ≤ 8 * (f / 8) + 7 := by
  have hmod := fieldOf_mod t
  have hdiv := fieldOf_div t
  constructor
  · rintro rfl
    omega
  · intro h
    have hm : fieldOf t % 8 = f % 8 := by omega
    have hd : fieldOf t / 8 = f / 8 := by omega
    omega

theorem fieldOf_west_iff (t : Nat) : fieldOf t % 8 < 4 ↔ tileX t ≤ 63 := by
  rw [fieldOf_mod]; omega

theorem count_west_columns : Nat.count (fun t => tileX t ≤ 63) 128 = 64 := by decide

/-- Each row of the grid has 64 tiles in the west half. -/
theorem count_west_rows (n : Nat) : Nat.count (fun t => tileX t ≤ 63) (128 * n) = 64 * n := by
  induction n with
  | zero => rfl
  | succ n ih =>
    simp only [Nat.mul_succ, Nat.count_add, ih, tileX_rows_add, count_west_columns]

theorem length_westTiles : ((List.range 8192).filter (fun t => decide (fieldOf t % 8 < 4))).length = 4096 := by
  simp only [fieldOf_west_iff, ← List.countP_eq_length_filter]
  exact count_west_rows 64

/-- Settles O56: a tile's coordinates are its index's remainder and quotient by 128, and its field's those of its
coordinates by 16 and 8; the tiles of the west half are counted row by row. -/
theorem tileGeometry : Obligations.TileGeometry := by
  refine ⟨fun x y hx hy => ⟨rfl, tileAt_lt hx hy, tileX_tileAt hx y, tileY_tileAt hx y⟩,
    fun t ht => ⟨tileX_lt t, tileY_lt ht, tileAt_tileX_tileY t⟩,
    fun x y _ h0 _ => neighbour_north x h0,
    fun x y _ _ => neighbour_east x y,
    fun c x y hx _ => ⟨?north, ?west⟩,
    fun t ht => ⟨fieldOf_eq_shifts t, fieldOf_lt ht, fieldOf_eq_iff t⟩,
    fun t _ => fieldOf_west_iff t, ?westFields, length_westTiles⟩
  case north => exact portPresent_north_of_row_zero c (tileY_tileAt hx 0)
  case west => exact portPresent_west_of_column_zero c (tileX_tileAt (by decide) y)
  case westFields => decide

end Sys2Proof.Machine
end

section
/-!
PROOFS. Events that arrive at a tile's Local port (R57, R98, R102, R278).
-/

namespace Sys2Proof.Machine

open Sys2Proof.Safety

/-! ### The parts of an arrival -/

@[simp] theorem reg_popArrived (t : Nat) (c : Chip) (a : Nat) : reg (popArrived t c) a = reg c a := rfl
@[simp] theorem reg_tally (t p item n : Nat) (c : Chip) (a : Nat) : reg (tally t p item n c) a = reg c a := rfl
@[simp] theorem tile_count (a n : Nat) (c : Chip) (k : Nat) : tile (count a n c) k = tile c k := rfl

@[simp] theorem tile_peak (a n : Nat) (c : Chip) (k : Nat) : tile (peak a n c) k = tile c k := by
  unfold peak; split <;> rfl

/-- A census count leaves the event queue and the port as they were. -/
@[simp] theorem evq_tally (t p item n : Nat) (c : Chip) : (tile (tally t p item n c) t).evq = (tile c t).evq := by simp [tally]

@[simp] theorem evq_popArrived (t : Nat) (c : Chip) :
    (tile (popArrived t c) t).evq = { (tile c t).evq with arrived := (tile c t).evq.arrived.drop 1 } := by simp [popArrived]

section
variable {as ts : List Nat} {c c' : Chip}

theorem frame_popArrived (t : Nat) (ht : t ∈ ts) (f : Frame as ts c c') : Frame as ts c (popArrived t c') := frame_modTile _ _ ht f

theorem frame_tally (t p item n : Nat) (ht : t ∈ ts) (f : Frame as ts c c') : Frame as ts c (tally t p item n c') :=
  frame_modTile _ _ ht f

theorem frame_peak (a n : Nat) (h : a ∈ as) (f : Frame as ts c c') : Frame as ts c (peak a n c') := by
  unfold peak
  split
  · exact frame_putNum _ _ h f
  · exact f

end

/-- A counter that `count` advances from the value it had. -/
theorem advanced_of_count {a n : Nat} {c d c' : Chip} (hd : reg d a = reg c a) (hc : reg c' a = reg (count a n d) a) :
    Advanced a n c c' := by
  have h := advanced_count a n d
  rwa [Advanced, hd, ← hc] at h

/-! ### The three ends of an arrival -/

section
variable {t : Nat} {c : Chip} {f : Flit} {fs : List Flit} (ha : (tile c t).evq.arrived = f :: fs)
include ha

theorem arriveEvent_fenced (hf : fenced c t = true) :
    arriveEvent t c = tally t (fParity f.data) 2 1 (count (Reg.TILE_DROP_FENCED t) 1 (popArrived t c)) := by
  simp [arriveEvent, ha, hf]

theorem arriveEvent_late (hf : fenced c t = false) (hl : isLate c t f.data = true) :
    arriveEvent t c = tally t (fParity f.data) 3 1 (tally t (fParity f.data) 2 1
      (count (Reg.TILE_DROP_LATE t) 1 (popArrived t c))) := by
  simp [arriveEvent, ha, hf, hl]

theorem arriveEvent_taken (hf : fenced c t = false) (hl : isLate c t f.data = false)
    (hg : isGatherInput c t f.data = false) : arriveEvent t c = enqueue t f.data (popArrived t c) := by
  simp [arriveEvent, ha, hf, hl, hg]

theorem arrived_popArrived : (tile (popArrived t c) t).evq.arrived = fs := by simp [ha]

end

/-- An event that finds a free entry, with nothing spilled, stands last in the queue. -/
theorem enqueue_free {t : Nat} {f : DWord} {c : Chip} (hq : (tile c t).evq.queue.length < 256) (hs : (tile c t).evq.spillLen = 0) :
    (tile (enqueue t f c) t).evq = { (tile c t).evq with queue := (tile c t).evq.queue ++ [f] } ∧
      Frame [Reg.TILE_EQ_HWM t] [t] c (enqueue t f c) := by
  rw [enqueue, if_pos ⟨hq, hs⟩]
  refine ⟨by simp, ?_⟩
  exact frame_peak _ _ (by simp) (frame_tally _ _ _ _ (by simp) (frame_modTile _ _ (by simp) (frame_refl ..)))

theorem completes_eventArrive {t : Fin 8192} {s : State} (hd : domOn s.chip (fieldOf t) = true) :
    Completes (.eventArrive t) s (arriveEvent t s.chip) := by
  show execEventArrive t s = _
  rw [execEventArrive, atTile_on _ hd, done_eq]

/-- Settles O14: the arrival's three ends, each with what it leaves of the queue and the port. -/
theorem arrivingEvents : Obligations.ArrivingEvents := by
  intro t s f fs hd ha
  have hc := completes_eventArrive hd
  refine ⟨fun hf => ?fenced, fun hf hl => ?late, fun hf hl hg hq hs => ?taken⟩
  case fenced =>
    rw [arriveEvent_fenced ha hf] at hc
    refine ⟨_, hc, by simp [ha], by simp, advanced_of_count (reg_popArrived ..) (reg_tally ..), ?_⟩
    exact frame_tally _ _ _ _ (by simp) (frame_count _ _ (by simp) (frame_popArrived _ (by simp) (frame_refl ..)))
  case late =>
    rw [arriveEvent_late ha hf hl] at hc
    refine ⟨_, hc, by simp [ha], by simp, advanced_of_count (reg_popArrived ..) (reg_tally ..), ?_⟩
    exact frame_tally _ _ _ _ (by simp) (frame_tally _ _ _ _ (by simp)
      (frame_count _ _ (by simp) (frame_popArrived _ (by simp) (frame_refl ..))))
  case taken =>
    rw [arriveEvent_taken ha hf hl hg] at hc
    obtain ⟨he, hfr⟩ := enqueue_free (t := t) (f := f.data) (c := popArrived t s.chip) (by simpa using hq) (by simpa using hs)
    refine ⟨_, hc, ?_, ?_, frame_trans (frame_popArrived _ (by simp) (frame_refl ..)) hfr⟩
    · rw [he]; simp [ha]
    · rw [he]; simp

end Sys2Proof.Machine
end

section
/-!
PROOFS. The phases of a step (R74, R279): where a forced update go does not leave exactly one overrun.
-/

namespace Sys2Proof.Machine

open Sys2Proof.Safety

/-! ### What a command that completes has left

A command answers one state, so the chip that `Completes` speaks of can be evaluated. -/

/-- The chip that a command leaves, or the one it found where it stopped. -/
def chipAfter (i : Instr) (s : State) : Chip :=
  match exec i s with
  | .next t => t.chip
  | _ => s.chip

theorem chipAfter_of_completes {i : Instr} {s : State} {c : Chip} (h : Completes i s c) : chipAfter i s = c := by
  rw [Completes] at h
  simp [chipAfter, h]

/-! ### A router whose path leads past its ports

A router numbers its outputs without a bound in its state, so a packet's path can name an output whose count of flits has
the address of another register. Routing makes no such path; the obligation speaks of every state. -/

/-- A body flit whose packet is on its way through the router. -/
def strayHeld : Held :=
  { flit := { data := 0#64, vc := 0, head := false, tail := true, poison := false, bad := false, epoch := 0 }, stamp := 0, copied := true }

def strayTile : Nat := 0x1000004

def strayPort : Nat := 127021

/-- Timebase 0 integrates, and the router forwards its packet to the output `strayPort` (paths from 8 name outputs). -/
def strayState : State :=
  { State.reset with chip :=
    { tbs := [(0, { phase := .integrate })], routers := [(strayTile, { buf := [(0, [strayHeld])], path := [(0, 8 + strayPort)] })] } }

theorem strayPort_counts_overruns : Reg.RTR_FLITS strayTile strayPort = Reg.TICK_TB_OVERRUN_COUNT 0 := rfl

theorem overruns_strayState : reg strayState.chip (Reg.TICK_TB_OVERRUN_COUNT 0) = 0#32 := rfl

/-- The update go counts its overrun, and the purge of the closed parity (R279) has the router forward its flit. -/
theorem overruns_after_forcedUpdateGo :
    reg (chipAfter (.forcedUpdateGo 0 0) strayState) (Reg.TICK_TB_OVERRUN_COUNT 0) = 2#32 := by decide +kernel

theorem stray_goes_at_zero : (tbAt strayState.chip 0).tickAt + (uStart strayState.chip 0 + stretchOf strayState.chip 0) ≤ 0 := by
  decide +kernel

/-- Refutes O38: the statement speaks of every state, and in `strayState` the flit that the update go makes the router forward is
counted in the timebase's overrun counter, which advances by 2. -/
theorem not_stepPhases : ¬ Obligations.StepPhases := by
  unfold Obligations.StepPhases
  intro h
  obtain ⟨-, hsteps, -⟩ := h 0 0 strayState
  obtain ⟨-, -, -, hforced, -⟩ := hsteps (by decide +kernel)
  obtain ⟨c', hc, -, hover, -⟩ := hforced rfl rfl (by decide +kernel) stray_goes_at_zero
  rw [Advanced, ← chipAfter_of_completes hc] at hover
  have hcount := overruns_after_forcedUpdateGo
  have hbefore := overruns_strayState
  simp only [Fin.val_zero] at hover
  rw [hcount, hbefore] at hover
  exact absurd hover (by decide)

end Sys2Proof.Machine
end

section
/-!
PROOFS. The fabric's collectives (R337): where a failing census verdict does not leave bit 3 of GW_JOB_EVENT raised.
-/

namespace Sys2Proof.Machine

open Sys2Proof.Safety

/-! ### A link whose queue names no channel

A link's queue holds a channel number without a bound in its state, so the credit that a flit takes can have the address of
another register. The model's own units queue flits for a link's ten channels alone; the obligation speaks of every state. -/

/-- The downward CENSUS verdict of job 0 that found the sums unequal. -/
def verdictFlit : DWord := collFlit 3 0 1 1 0 1 1

def strayFvc : Nat := 229427

def registersOf (rs : List (Nat × Nat)) : Chip := rs.foldl (fun c p => putNum p.1 p.2 c) {}

/-- A device without children whose job 0 is in the fabric and checked, with the verdict arrived on link 0; link 2, which leads to
its parent, has a flit for the channel `strayFvc` queued. -/
def strayFabric : State :=
  { State.reset with chip :=
    { registersOf [(Reg.GW_TOPO, 0x400), (Reg.GW_JOB_CFG 0, 0x80000001), (Reg.GW_JOB_RECT 0, 0x400), (Reg.NLK_STATUS 2, 0x60000000),
        (Reg.CHK_JOB_CFG 0, 0x80000000)] with
      jobs := [(0, { multi := true })], tbs := [(0, { censusDone := true })]
      links := [(0, { rx := [(8, [verdictFlit])] }), (2, { queue := [{ fvc := strayFvc, flit := 0#64, tb := none, epoch := none }] })] } }

/-- The chip once the verdict is taken. -/
def verdictTaken : Chip := popRx 0 8 1 strayFabric.chip

theorem strayFvc_credits_job_event : Reg.NLK_CREDIT 2 strayFvc = Reg.GW_JOB_EVENT 0 := rfl

theorem strayFabric_in_fabric : jobInFabric strayFabric.chip 0 = true := by decide +kernel

theorem strayFabric_takes_verdict : takeColl 0 3 (fun _ => true) strayFabric.chip = some (0, verdictFlit, verdictTaken) := rfl

theorem strayFabric_has_no_children : treeKids verdictTaken 0 = [] := by decide +kernel

theorem verdictFlit_down : kDir verdictFlit = 1 := by decide

theorem verdictFlit_fails : kValue verdictFlit ≠ 0 := by decide

/-- The verdict raises bit 3, and the REWIND that it asks of the root lets link 2 send its queued flit, whose credit takes 1 from
the register: 8 becomes 7. -/
theorem event_after_fabricCensus :
    rflag (chipAfter (.fabricCensus 0) strayFabric) (Reg.GW_JOB_EVENT 0) 3 = false := by decide +kernel

/-- Refutes O45: the statement speaks of every state, and in `strayFabric` a failing FABRIC_CENSUS leaves bit 3 of GW_JOB_EVENT
clear, since the flit sent after it takes its credit from that register. -/
theorem not_fabricCollectives : ¬ Obligations.FabricCollectives := by
  unfold Obligations.FabricCollectives
  intro h
  obtain ⟨hdown, -⟩ := h 0 strayFabric strayFabric_in_fabric
  obtain ⟨-, -, -, -, -, hcensus, -⟩ := hdown 0 verdictFlit verdictTaken strayFabric_has_no_children verdictFlit_down
  obtain ⟨c', hc, -, -, hfail⟩ := hcensus strayFabric_takes_verdict
  obtain ⟨hraised, -⟩ := hfail verdictFlit_fails
  rw [← chipAfter_of_completes hc] at hraised
  have hclear := event_after_fabricCensus
  simp only [Fin.val_zero] at hraised
  rw [hclear] at hraised
  exact Bool.false_ne_true hraised

end Sys2Proof.Machine
end

section
/-!
PROOFS. What the operations of other units leave alone of the timebases, of the image and licence blocks and of the host interface:
they write registers outside these blocks, and no timebase.
-/

namespace Sys2Proof.Machine

open Sys2Proof.Safety

/-! ### The registers that are watched -/

/-- The addresses of the timebases' registers and of the image and licence blocks. -/
def Watched (a : Nat) : Prop := (0x200000500000 ≤ a ∧ a < 0x200000501000) ∨ (0x200000700000 ≤ a ∧ a < 0x200000710000)

/-- What the timebases, the loader and the command queues keep: the watched registers and the two states beside them. -/
structure Watch where
  tbs : Sparse Timebase
  host : HostSide
  regs : (a : Nat) → Watched a → Word

/-- The watched part of a chip. -/
def watch (c : Chip) : Watch := { tbs := c.tbs, host := c.host, regs := fun a _ => reg c a }

theorem watch_eq {c c' : Chip} (ht : c'.tbs = c.tbs) (hh : c'.host = c.host) (hr : ∀ a, Watched a → reg c' a = reg c a) :
    watch c' = watch c := by
  simp only [watch, ht, hh, Watch.mk.injEq, true_and]
  funext a ha
  exact hr a ha

section
variable {c c' : Chip} (h : watch c' = watch c)
include h

theorem reg_of_watch {a : Nat} (ha : Watched a) : reg c' a = reg c a := congrFun (congrFun (congrArg Watch.regs h) a) ha

theorem host_of_watch : c'.host = c.host := congrArg Watch.host h

theorem tbAt_of_watch (k : Nat) : tbAt c' k = tbAt c k := by
  have ht : c'.tbs = c.tbs := congrArg Watch.tbs h
  rw [tbAt, tbAt, ht]

end

/-! ### Updates that leave the watched part -/

theorem watch_setReg {a : Nat} (h : ¬ Watched a) (v : Word) (c : Chip) : watch (setReg a v c) = watch c :=
  watch_eq rfl rfl fun b hb => reg_setReg_ne v c (by rintro rfl; exact h hb)

theorem watch_setFld {a : Nat} (h : ¬ Watched a) (hi lo x : Nat) (c : Chip) : watch (setFld a hi lo x c) = watch c := watch_setReg h _ c

theorem watch_setBit {a : Nat} (h : ¬ Watched a) (i : Nat) (b : Bool) (c : Chip) : watch (setBit a i b c) = watch c := watch_setReg h _ c

theorem watch_raise {a : Nat} (h : ¬ Watched a) (i : Nat) (c : Chip) : watch (raise a i c) = watch c := watch_setReg h _ c

theorem watch_count {a : Nat} (h : ¬ Watched a) (n : Nat) (c : Chip) : watch (count a n c) = watch c := watch_setReg h _ c

theorem watch_putNum {a : Nat} (h : ¬ Watched a) (n : Nat) (c : Chip) : watch (putNum a n c) = watch c := watch_setReg h _ c

theorem watch_forAll {α : Type} {f : α → Chip → Chip} (l : List α) (h : ∀ x c, watch (f x c) = watch c) (c : Chip) :
    watch (forAll f l c) = watch c :=
  forAll_keeps (P := fun d => watch d = watch c) l (fun x _ d hd => (h x d).trans hd) c rfl

theorem watch_when {f : Chip → Chip} (b : Bool) (c : Chip) (h : watch (f c) = watch c) : watch (when_ b f c) = watch c := by
  cases b
  · rfl
  · exact h

@[simp] theorem watch_modTile (t : Nat) (f : Tile → Tile) (c : Chip) : watch (modTile t f c) = watch c := rfl
@[simp] theorem watch_modStream (p : Nat) (f : Stream → Stream) (c : Chip) : watch (modStream p f c) = watch c := rfl
@[simp] theorem watch_modEnc (p : Nat) (f : Enc → Enc) (c : Chip) : watch (modEnc p f c) = watch c := rfl
@[simp] theorem watch_modHalf (e : Bool) (f : Half → Half) (c : Chip) : watch (modHalf e f c) = watch c := rfl
@[simp] theorem watch_utilAdd (k i n : Nat) (c : Chip) : watch (utilAdd k i n c) = watch c := rfl
@[simp] theorem watch_utilMax (k i n : Nat) (c : Chip) : watch (utilMax k i n c) = watch c := rfl

/-! ### Figures of a step, streams and encoders -/

@[simp] theorem watch_statTile (k s t : Nat) (c : Chip) : watch (statTile k s t c) = watch c := by
  unfold statTile
  split
  · rw [watch_utilMax, watch_utilAdd, watch_count (by unfold Watched Reg.REC_FLD_STEPS; omega),
      watch_count (by unfold Watched Reg.REC_FLD_HIST; omega)]
  · rfl

@[simp] theorem watch_statStep (k s : Nat) (c : Chip) : watch (statStep k s c) = watch c :=
  watch_forAll _ (fun t c => watch_statTile k s t c) _

@[simp] theorem watch_dropRecord (p : Nat) (c : Chip) : watch (dropRecord p c) = watch c := by
  rw [dropRecord, watch_raise (by unfold Watched Reg.HIF_FAULT; omega), watch_count (by unfold Watched Reg.HIF_RR_DROP; omega)]

@[simp] theorem watch_emitRecord (p flags : Nat) (r : Record) (c : Chip) : watch (emitRecord p flags r c) = watch c := by
  unfold emitRecord
  extract_lets seq bs d S
  have hd : watch d = watch c := watch_setFld (by unfold Watched Reg.DEC_S_STATUS; omega) ..
  split
  · rw [watch_dropRecord, hd]
  · split
    · rw [watch_modStream, hd]
    · rw [watch_dropRecord, watch_modStream, hd]

theorem watch_chkCount_retracted (c : Chip) : watch (chkCount 6 c) = watch c := by
  have hc : watch (count (Reg.CHK_CNT 6) 1 c) = watch c := watch_count (by unfold Watched Reg.CHK_CNT; omega) ..
  unfold chkCount
  dsimp only
  split
  · rw [watch_raise (by unfold Watched Reg.CHK_IRQ_STATUS; omega), hc]
  · exact hc

@[simp] theorem watch_retractWhere (p : Nat) (f : Nat → Bool) (c : Chip) : watch (retractWhere p f c) = watch c :=
  watch_forAll _ (fun e c => by rw [watch_chkCount_retracted, watch_emitRecord]) _

@[simp] theorem watch_streamLost (p : Nat) (c : Chip) : watch (streamLost p c) = watch c := by
  rw [streamLost, watch_retractWhere, watch_modStream]

@[simp] theorem watch_setEncState (p s : Nat) (c : Chip) : watch (setEncState p s c) = watch c :=
  watch_setFld (by unfold Watched Reg.ENC_STATUS; omega) ..

@[simp] theorem watch_encRunClear (p : Nat) (c : Chip) : watch (encRunClear p c) = watch c := by
  have hb : watch (setBit (Reg.ENC_CTRL p) 0 false c) = watch c := watch_setBit (by unfold Watched Reg.ENC_CTRL; omega) ..
  unfold encRunClear
  split
  · dsimp only
    split
    · rw [watch_modEnc, watch_setEncState, hb]
    · rw [watch_setEncState, hb]
    · rw [watch_setEncState, hb]
    · exact hb
  · rfl

theorem watch_setJobState {j : Nat} (h : j < 16) (st : Nat) (c : Chip) : watch (setJobState j st c) = watch c :=
  watch_setFld (by unfold Watched Reg.CHK_JOB_STATE; omega) ..

/-! ### Timebase registers among the watched -/

section
variable {k : Nat} (h : k < 16)
include h

theorem watched_TICK_TB_CTRL : Watched (Reg.TICK_TB_CTRL k) := by unfold Watched Reg.TICK_TB_CTRL; omega
theorem watched_TICK_TB_NOW_LO : Watched (Reg.TICK_TB_NOW_LO k) := by unfold Watched Reg.TICK_TB_NOW_LO; omega
theorem watched_TICK_TB_NOW_HI : Watched (Reg.TICK_TB_NOW_HI k) := by unfold Watched Reg.TICK_TB_NOW_HI; omega
theorem watched_TICK_TB_HOLD_SKIPPED : Watched (Reg.TICK_TB_HOLD_SKIPPED k) := by
  unfold Watched Reg.TICK_TB_HOLD_SKIPPED; omega

theorem tickNow_of_watch {c c' : Chip} (hw : watch c' = watch c) : tickNow c' k = tickNow c k := by
  rw [tickNow, tickNow, reg2, reg2, reg_of_watch hw (watched_TICK_TB_NOW_LO h), reg_of_watch hw (watched_TICK_TB_NOW_HI h)]

end

end Sys2Proof.Machine
end

section
/-!
PROOFS. A timebase is enabled, disabled and stops (R65, R66, R81, Table 2.3).
-/

namespace Sys2Proof.Machine

open Sys2Proof.Safety

/-! ### Bits and fields of one register, and the other registers -/

section
variable {a b : Nat} (h : b ≠ a)
include h

theorem reg_setBit_ne (i : Nat) (x : Bool) (c : Chip) : reg (setBit a i x c) b = reg c b := reg_setReg_ne _ c h
theorem reg_setFld_ne (hi lo x : Nat) (c : Chip) : reg (setFld a hi lo x c) b = reg c b := reg_setReg_ne _ c h
theorem reg_putNum_ne (n : Nat) (c : Chip) : reg (putNum a n c) b = reg c b := reg_setReg_ne _ c h
theorem reg_count_ne (n : Nat) (c : Chip) : reg (count a n c) b = reg c b := reg_setReg_ne _ c h
theorem reg_raise_ne (i : Nat) (c : Chip) : reg (raise a i c) b = reg c b := reg_setReg_ne _ c h

end

theorem reg_setBit_same (a i : Nat) (x : Bool) (c : Chip) : reg (setBit a i x c) a = putBit (reg c a) i x := reg_setReg_same ..
theorem reg_putNum_same (a n : Nat) (c : Chip) : reg (putNum a n c) a = BitVec.ofNat 32 n := reg_setReg_same ..

theorem rflag_setBit_same (a : Nat) {i : Nat} (h : i < 32) (x : Bool) (c : Chip) : rflag (setBit a i x c) a i = x := by
  rw [rflag, reg_setBit_same, flag_putBit_same _ _ _ h]

theorem rflag_setBit_bit (a : Nat) {i j : Nat} (h : i < 32) (hj : j ≠ i) (x : Bool) (c : Chip) :
    rflag (setBit a i x c) a j = rflag c a j := by
  rw [rflag, reg_setBit_same, flag_putBit_ne _ _ _ _ h hj]; rfl

theorem rfld_setBit_apart (a : Nat) {i hi lo : Nat} (h : i < 32) (hd : i < lo ∨ hi < i) (x : Bool) (c : Chip) :
    rfld (setBit a i x c) a hi lo = rfld c a hi lo := by
  rw [rfld, reg_setBit_same, fld_putBit_apart _ _ _ _ _ h hd]; rfl

theorem rflag_congr {c c' : Chip} {a i : Nat} (h : reg c' a = reg c a) : rflag c' a i = rflag c a i := congrArg (flag · i) h

theorem rfld_congr {c c' : Chip} {a hi lo : Nat} (h : reg c' a = reg c a) : rfld c' a hi lo = rfld c a hi lo := congrArg (fld · hi lo) h

theorem tickNow_setReg {k a : Nat} (hlo : Reg.TICK_TB_NOW_LO k ≠ a) (hhi : Reg.TICK_TB_NOW_HI k ≠ a) (v : Word) (c : Chip) :
    tickNow (setReg a v c) k = tickNow c k := by
  rw [tickNow, tickNow, reg2, reg2, reg_setReg_ne _ _ hlo, reg_setReg_ne _ _ hhi]

theorem tickNow_setBit_ctrl (k i : Nat) (x : Bool) (c : Chip) : tickNow (setBit (Reg.TICK_TB_CTRL k) i x c) k = tickNow c k :=
  tickNow_setReg (by unfold Reg.TICK_TB_NOW_LO Reg.TICK_TB_CTRL; omega) (by unfold Reg.TICK_TB_NOW_HI Reg.TICK_TB_CTRL; omega) _ c

theorem tickNow_putNum_skipped (k n : Nat) (c : Chip) : tickNow (putNum (Reg.TICK_TB_HOLD_SKIPPED k) n c) k = tickNow c k :=
  tickNow_setReg (by unfold Reg.TICK_TB_NOW_LO Reg.TICK_TB_HOLD_SKIPPED; omega)
    (by unfold Reg.TICK_TB_NOW_HI Reg.TICK_TB_HOLD_SKIPPED; omega) _ c

@[simp] theorem tickNow_modTb (j : Nat) (f : Timebase → Timebase) (c : Chip) (k : Nat) : tickNow (modTb j f c) k = tickNow c k := rfl

theorem jobOfTb_lt (c : Chip) (k : Nat) : jobOfTb c k < 16 := Nat.mod_lt _ (by decide)

/-! ### Enabling (R65) -/

/-- The registers of a timebase that has passed the checks: ENABLE 1, CONFIG_ERR 0 and, off free-run mode, its period. -/
def enabledRegs (k : Nat) (c : Chip) : Chip :=
  c |> setBit (Reg.TICK_TB_CTRL k) 31 true |> setBit (Reg.TICK_TB_CTRL k) 27 false
    |> when_ (!freeRun c k) (putNum (Reg.TICK_TB_PERIOD k) (lockedPeriod c k))

theorem TICK_TB_CTRL_ne_PERIOD (k : Nat) : Reg.TICK_TB_CTRL k ≠ Reg.TICK_TB_PERIOD k := by
  unfold Reg.TICK_TB_CTRL Reg.TICK_TB_PERIOD; omega

theorem TICK_TB_CTRL_ne_STATE {j : Nat} (_h : j < 16) (k : Nat) : Reg.TICK_TB_CTRL k ≠ Reg.CHK_JOB_STATE j := by
  unfold Reg.TICK_TB_CTRL Reg.CHK_JOB_STATE; omega

/-- A timebase that passes the checks of Table 2.3: its registers, its own state, and its job's state. -/
theorem enableTb_of_ok {k : Nat} {c : Chip} (h : enableOk c k = true) :
    ∃ f g, enableTb k c = setFld (Reg.CHK_JOB_STATE (jobOfTb c k)) 31 29 1 (modJob (jobOfTb c k) g (modTb k f (enabledRegs k c))) ∧
      (∀ T, (f T).armed = true ∧ (f T).phase = .idle) ∧ ∀ J, (g J).present = J.present ∧ (g J).image = J.image := by
  rw [enableTb, if_pos h]
  exact ⟨_, _, rfl, fun T => ⟨rfl, rfl⟩, fun J => ⟨rfl, rfl⟩⟩

theorem enableTb_of_bad {k : Nat} {c : Chip} (h : enableOk c k = false) :
    enableTb k c = setBit (Reg.TICK_TB_CTRL k) 27 true (setBit (Reg.TICK_TB_CTRL k) 31 false c) := by
  simp [enableTb, h]

theorem ctrl_enabledRegs (k : Nat) (c : Chip) :
    reg (enabledRegs k c) (Reg.TICK_TB_CTRL k) = putBit (putBit (reg c (Reg.TICK_TB_CTRL k)) 31 true) 27 false := by
  have hw : reg (setBit (Reg.TICK_TB_CTRL k) 27 false (setBit (Reg.TICK_TB_CTRL k) 31 true c)) (Reg.TICK_TB_CTRL k) =
      putBit (putBit (reg c (Reg.TICK_TB_CTRL k)) 31 true) 27 false := by rw [reg_setBit_same, reg_setBit_same]
  unfold enabledRegs when_
  split
  · rw [reg_putNum_ne (TICK_TB_CTRL_ne_PERIOD k), hw]
  · exact hw

theorem ctrl_enableTb_of_ok {k : Nat} {c : Chip} (h : enableOk c k = true) :
    reg (enableTb k c) (Reg.TICK_TB_CTRL k) = putBit (putBit (reg c (Reg.TICK_TB_CTRL k)) 31 true) 27 false := by
  obtain ⟨f, g, he, -, -⟩ := enableTb_of_ok h
  rw [he, reg_setFld_ne (TICK_TB_CTRL_ne_STATE (jobOfTb_lt c k) k)]
  exact ctrl_enabledRegs k c

/-- A write within the frame of registers alone, with timebases and jobs set aside. -/
theorem frame_enableTb_of_ok {k : Nat} {c : Chip} (h : enableOk c k = true) :
    Frame [Reg.TICK_TB_CTRL k, Reg.TICK_TB_PERIOD k, Reg.CHK_JOB_STATE (jobOfTb c k)] [] c
      { enableTb k c with tbs := c.tbs, jobs := c.jobs } := by
  obtain ⟨f, g, he, -, -⟩ := enableTb_of_ok h
  have hr : Frame [Reg.TICK_TB_CTRL k, Reg.TICK_TB_PERIOD k, Reg.CHK_JOB_STATE (jobOfTb c k)] [] c (enabledRegs k c) :=
    have hb := frame_setBit _ 27 false (by simp) (frame_setBit _ 31 true (by simp) (frame_refl ..))
    frame_when _ _ hb (frame_putNum _ _ (by simp) hb)
  rw [he]
  have htj : (enabledRegs k c).tbs = c.tbs ∧ (enabledRegs k c).jobs = c.jobs := by rw [hr.2.2]; exact ⟨rfl, rfl⟩
  have hs := frame_setFld (Reg.CHK_JOB_STATE (jobOfTb c k)) 31 29 1 (by simp) hr
  convert hs using 1
  simp [setFld, setReg, modJob, modTb, htj, reg]

/-- The write of the control word, and its enabling. -/
theorem completes_tbEnable {k : Fin 16} {v : Word} {s : State} (hp : stopPending s.chip k = false) (he : tbEnabled s.chip k = false) :
    Completes (.tbEnable k v) s (enableTb k (setReg (Reg.TICK_TB_CTRL k) (v &&& 0x13F0FFFF#32) s.chip)) := by
  have h : tbEnable k v s.chip = enableTb k (setReg (Reg.TICK_TB_CTRL k) (v &&& 0x13F0FFFF#32) s.chip) := by simp [tbEnable, hp, he]
  rw [← h]
  exact done_eq ..

/-- A mask that holds every bit of a field keeps the field. -/
theorem fld_and_of_ones {m : Word} {hi lo : Nat} (h : ∀ i, i < hi + 1 - lo → m.toNat.testBit (lo + i) = true) (v : Word) :
    fld (v &&& m) hi lo = fld v hi lo := by
  refine Nat.eq_of_testBit_eq fun i => ?_
  rw [fld, fld, testBit_bits, testBit_bits, BitVec.toNat_and, Nat.testBit_land]
  by_cases hi' : i < hi + 1 - lo
  · simp [h i hi']
  · simp [hi']

/-- The writable bits of the control word hold JOB. -/
theorem jobOfTb_written (k : Nat) (v : Word) (c : Chip) :
    jobOfTb (setReg (Reg.TICK_TB_CTRL k) (v &&& 0x13F0FFFF#32) c) k = fld v 23 20 := by
  rw [jobOfTb, rfld, reg_setReg_same]
  exact fld_and_of_ones (by decide) v

/-! ### Disabling and stopping (R66, R81) -/

theorem completes_tbDisable {k : Fin 16} {s : State} : Completes (.tbDisable k) s (tbDisable k s.chip) := done_eq ..

theorem completes_tbStopComplete {k : Fin 16} {s : State} : Completes (.tbStopComplete k) s (tbStopComplete k s.chip) := done_eq ..

/-- TB_DISABLE of an enabled timebase. -/
theorem tbDisable_enabled {k : Nat} {c : Chip} (h : tbEnabled c k = true) :
    tbEnabled (tbDisable k c) k = false ∧ stopPending (tbDisable k c) k = true ∧ Frame [Reg.TICK_TB_CTRL k] [] c (tbDisable k c) := by
  have he : tbDisable k c = setBit (Reg.TICK_TB_CTRL k) 30 true (setBit (Reg.TICK_TB_CTRL k) 31 false c) := by simp [tbDisable, h]
  rw [he]
  refine ⟨?_, ?_, frame_setBit _ _ _ (by simp) (frame_setBit _ _ _ (by simp) (frame_refl ..))⟩
  · rw [tbEnabled, rflag_setBit_bit _ (by decide) (by decide), rflag_setBit_same _ (by decide)]
  · rw [stopPending, rflag_setBit_same _ (by decide)]

theorem tbDisable_disabled {k : Nat} {c : Chip} (h : tbEnabled c k = false) : tbDisable k c = c := by simp [tbDisable, h]

/-- The control word of a stopped timebase: ENABLE, STOP_PENDING and ACTIVE 0. -/
def stoppedWord (v : Word) : Word := putBit (putBit (putBit v 31 false) 30 false) 29 false

theorem flags_stoppedWord (v : Word) :
    flag (stoppedWord v) 31 = false ∧ flag (stoppedWord v) 30 = false ∧ flag (stoppedWord v) 29 = false := by
  refine ⟨?_, ?_, flag_putBit_same _ _ _ (by decide)⟩
  · rw [stoppedWord, flag_putBit_ne _ _ _ _ (by decide) (by decide), flag_putBit_ne _ _ _ _ (by decide) (by decide),
      flag_putBit_same _ _ _ (by decide)]
  · rw [stoppedWord, flag_putBit_ne _ _ _ _ (by decide) (by decide), flag_putBit_same _ _ _ (by decide)]

/-- A stopped timebase: its control word, its phase, and its TICK_NOW kept. -/
theorem stopTimebase_stops {k : Nat} (hk : k < 16) (c : Chip) :
    reg (stopTimebase k c) (Reg.TICK_TB_CTRL k) = stoppedWord (reg c (Reg.TICK_TB_CTRL k)) ∧
      (tbAt (stopTimebase k c) k).phase = .idle ∧ tickNow (stopTimebase k c) k = tickNow c k := by
  unfold stopTimebase
  extract_lets j
  have hw (d : Chip) : watch (forAll streamLost (jobStreams c j) (setJobState j 0 d)) = watch d := by
    rw [watch_forAll _ watch_streamLost, watch_setJobState (jobOfTb_lt c k)]
  refine ⟨?_, ?_, ?_⟩
  · rw [reg_of_watch (hw _) (watched_TICK_TB_CTRL hk), reg_modTb, reg_setBit_same, reg_setBit_same, reg_setBit_same]; rfl
  · rw [tbAt_of_watch (hw _), tbAt_modTb_same]
  · rw [tickNow_of_watch hk (hw _), tickNow_modTb, tickNow_setBit_ctrl, tickNow_setBit_ctrl, tickNow_setBit_ctrl]

theorem tbStopComplete_stops {k : Nat} (hk : k < 16) {c : Chip} (hb : betweenSteps c k = true) (hp : stopPending c k = true) :
    reg (tbStopComplete k c) (Reg.TICK_TB_CTRL k) = stoppedWord (reg c (Reg.TICK_TB_CTRL k)) ∧
      (tbAt (tbStopComplete k c) k).phase = .idle ∧ tickNow (tbStopComplete k c) k = tickNow c k := by
  have he : tbStopComplete k c = stopTimebase k (when_ ((tbAt c k).phase == .settle) (statStep k (tickNow c k)) c) := by
    simp [tbStopComplete, hb, hp]
  have hw : watch (when_ ((tbAt c k).phase == .settle) (statStep k (tickNow c k)) c) = watch c := watch_when _ _ (watch_statStep ..)
  obtain ⟨hr, hph, hn⟩ := stopTimebase_stops hk (when_ ((tbAt c k).phase == .settle) (statStep k (tickNow c k)) c)
  rw [he, hr, reg_of_watch hw (watched_TICK_TB_CTRL hk)]
  exact ⟨rfl, hph, hn.trans (tickNow_of_watch hk hw)⟩

/-- Timebase `k` as a HOLD that comes into force leaves it. -/
def heldTimebase (k : Nat) (c : Chip) : Chip :=
  c |> modTb k (fun T => { T with held := true, holdReq := false, holdAt := none })
    |> putNum (Reg.TICK_TB_HOLD_SKIPPED k) 0
    |> setBit (Reg.TICK_TB_CTRL k) 29 false

/-- Beside the timebase, a HOLD that comes into force stops encoders and marks streams. -/
theorem watch_tbStopComplete_hold {k : Nat} {c : Chip} (hb : betweenSteps c k = true) (hp : stopPending c k = false)
    (he : tbEnabled c k = true) (hh : holdsNow c k = true) (hn : (tbAt c k).held = false) :
    watch (tbStopComplete k c) = watch (heldTimebase k c) := by
  have hs : tbStopComplete k c = (heldTimebase k c |> forAll (fun p c => if encTb c p = k then encRunClear p c else c) (List.range 16)
      |> forAll (fun p c => modStream p (fun S => { S with gapNext := true }) c) (jobStreams c (jobOfTb c k))) := by
    simp [tbStopComplete, heldTimebase, hb, hp, he, hh, hn]
  rw [hs, watch_forAll _ (fun p c => watch_modStream ..), watch_forAll]
  intro p c
  split
  · exact watch_encRunClear ..
  · rfl

theorem heldTimebase_holds (k : Nat) (c : Chip) :
    (tbAt (heldTimebase k c) k).held = true ∧ tbEnabled (heldTimebase k c) k = tbEnabled c k ∧
      reg (heldTimebase k c) (Reg.TICK_TB_HOLD_SKIPPED k) = 0#32 ∧ tickNow (heldTimebase k c) k = tickNow c k := by
  have hne : Reg.TICK_TB_HOLD_SKIPPED k ≠ Reg.TICK_TB_CTRL k := by unfold Reg.TICK_TB_HOLD_SKIPPED Reg.TICK_TB_CTRL; omega
  refine ⟨by simp [heldTimebase, setBit, putNum], ?_, ?_, ?_⟩
  · rw [heldTimebase, tbEnabled, rflag_setBit_bit _ (by decide) (by decide), rflag_congr (reg_putNum_ne hne.symm ..)]; rfl
  · rw [heldTimebase, reg_setBit_ne hne, reg_putNum_same]
  · rw [heldTimebase, tickNow_setBit_ctrl, tickNow_putNum_skipped, tickNow_modTb]

/-! ### The obligation -/

/-- TB_ENABLE where the checks of Table 2.3 pass. -/
theorem enableTb_enables {k j : Nat} {c d : Chip} (ho : enableOk d k = true) (hj : jobOfTb d k = j)
    (hf : Frame [Reg.TICK_TB_CTRL k] [] c d) :
    let c' := enableTb k d
    tbEnabled c' k = true ∧ rflag c' (Reg.TICK_TB_CTRL k) 27 = false ∧ (tbAt c' k).armed = true ∧ (tbAt c' k).phase = .idle ∧
      jobOfTb c' k = j ∧ rfld c' (Reg.CHK_JOB_STATE j) 31 29 = 1 ∧
      Frame [Reg.TICK_TB_CTRL k, Reg.TICK_TB_PERIOD k, Reg.CHK_JOB_STATE j] [] c { c' with tbs := c.tbs, jobs := c.jobs } := by
  subst hj
  have hw := ctrl_enableTb_of_ok ho
  obtain ⟨f, g, he, hft, -⟩ := enableTb_of_ok ho
  have ht : tbAt (enableTb k d) k = f (tbAt (enabledRegs k d) k) := by rw [he]; exact tbAt_modTb_same ..
  refine ⟨?_, ?_, ?_, ?_, ?_, ?_, ?_⟩
  · rw [tbEnabled, rflag, hw, flag_putBit_ne _ _ _ _ (by decide) (by decide), flag_putBit_same _ _ _ (by decide)]
  · rw [rflag, hw, flag_putBit_same _ _ _ (by decide)]
  · rw [ht]; exact (hft _).1
  · rw [ht]; exact (hft _).2
  · rw [jobOfTb, rfld, hw, fld_putBit_apart _ _ _ _ _ (by decide) (by decide), fld_putBit_apart _ _ _ _ _ (by decide) (by decide)]; rfl
  · rw [he, rfld_setFld _ _ _ _ _ (by decide) (by decide)]; decide
  · have ht : d.tbs = c.tbs ∧ d.jobs = c.jobs := by rw [hf.2.2]; exact ⟨rfl, rfl⟩
    have h := frame_enableTb_of_ok ho
    rw [ht.1, ht.2] at h
    exact frame_trans (frame_mono (by simp) (by simp) hf) h

/-- TB_ENABLE where a check of Table 2.3 fails. -/
theorem enableTb_refuses {k : Nat} {c d : Chip} (ho : enableOk d k = false) (hf : Frame [Reg.TICK_TB_CTRL k] [] c d) :
    tbEnabled (enableTb k d) k = false ∧ rflag (enableTb k d) (Reg.TICK_TB_CTRL k) 27 = true ∧
      Frame [Reg.TICK_TB_CTRL k] [] c (enableTb k d) := by
  rw [enableTb_of_bad ho]
  refine ⟨?_, rflag_setBit_same _ (by decide) .., frame_setBit _ _ _ (by simp) (frame_setBit _ _ _ (by simp) hf)⟩
  rw [tbEnabled, rflag_setBit_bit _ (by decide) (by decide), rflag_setBit_same _ (by decide)]

/-- Settles O36: enabling by the outcome of the checks, disabling by ENABLE, and the ends of a step by what is pending. -/
theorem timebaseControl : Obligations.TimebaseControl := by
  intro k s
  refine ⟨fun v hp he => ⟨fun ho => ?enabled, fun ho => ?refused⟩, fun v hpe => ?ignored, fun he => ?disabled, fun he => ?idle,
    fun hb => ?within, fun hb hp => ?stops, fun hb hp he hh hn => ?holds⟩
  case enabled =>
    exact ⟨_, completes_tbEnable hp he, enableTb_enables ho (jobOfTb_written ..) (frame_setReg _ _ (by simp) (frame_refl ..))⟩
  case refused =>
    exact ⟨_, completes_tbEnable hp he, enableTb_refuses ho (frame_setReg _ _ (by simp) (frame_refl ..))⟩
  case ignored =>
    have h : tbEnable k v s.chip = s.chip := by simp only [tbEnable, hpe, if_true]
    exact congrArg (fun c => Host.Outcome.next { s with chip := c }) h
  case disabled => exact ⟨_, completes_tbDisable, tbDisable_enabled he⟩
  case idle =>
    have h := completes_tbDisable (k := k) (s := s)
    rwa [tbDisable_disabled he] at h
  case within =>
    have h := completes_tbStopComplete (k := k) (s := s)
    rwa [tbStopComplete, hb] at h
  case stops =>
    obtain ⟨hr, hph, hn⟩ := tbStopComplete_stops k.isLt hb hp
    obtain ⟨h31, h30, h29⟩ := flags_stoppedWord (reg s.chip (Reg.TICK_TB_CTRL k))
    refine ⟨_, completes_tbStopComplete, ?_, ?_, ?_, hph, hn⟩
    · rw [tbEnabled, rflag, hr, h31]
    · rw [stopPending, rflag, hr, h30]
    · rw [rflag, hr, h29]
  case holds =>
    have hw := watch_tbStopComplete_hold hb hp he hh hn
    obtain ⟨hheld, hen, hskip, hnow⟩ := heldTimebase_holds k s.chip
    refine ⟨_, completes_tbStopComplete, ?_, ?_, ?_, ?_⟩
    · rw [tbAt_of_watch hw, hheld]
    · rw [tbEnabled, rflag_congr (reg_of_watch hw (watched_TICK_TB_CTRL k.isLt)), ← tbEnabled, hen, he]
    · rw [reg_of_watch hw (watched_TICK_TB_HOLD_SKIPPED k.isLt), hskip]
    · rw [tickNow_of_watch k.isLt hw, hnow]

end Sys2Proof.Machine
end

section
/-!
PROOFS. SYSREF edges: measured before lock, followed in lock, missed, and generated in holdover (R67, R68, R69).
-/

namespace Sys2Proof.Machine

open Sys2Proof.Safety

/-! ### What an edge that the timebases count leaves of SYSREF -/

/-- The registers that stand before the first timebase's: SYSREF's own and the interrupt bits. -/
abbrev SysrefReg (a : Nat) : Prop := 0x200000500000 ≤ a ∧ a < 0x200000500100

/-- `c'` agrees with `c` in SYSREF's state and in the registers before the timebases'. -/
def SameSysref (c c' : Chip) : Prop := c'.sysref = c.sysref ∧ ∀ a, SysrefReg a → reg c' a = reg c a

theorem sameSysref_refl (c : Chip) : SameSysref c c := ⟨rfl, fun _ _ => rfl⟩

theorem sameSysref_trans {c c' c'' : Chip} (h : SameSysref c c') (h' : SameSysref c' c'') : SameSysref c c'' :=
  ⟨h'.1.trans h.1, fun a ha => (h'.2 a ha).trans (h.2 a ha)⟩

theorem sameSysref_setReg {a : Nat} (h : ¬ SysrefReg a) (v : Word) (c : Chip) : SameSysref c (setReg a v c) :=
  ⟨rfl, fun b hb => reg_setReg_ne v c (by rintro rfl; exact h hb)⟩

theorem sameSysref_modTb (k : Nat) (f : Timebase → Timebase) (c : Chip) : SameSysref c (modTb k f c) := ⟨rfl, fun _ _ => rfl⟩

theorem sameSysref_when {f : Chip → Chip} (b : Bool) (c : Chip) (h : SameSysref c (f c)) : SameSysref c (when_ b f c) := by
  cases b
  · exact sameSysref_refl c
  · exact h

theorem sameSysref_enableTb (k : Nat) (c : Chip) : SameSysref c (enableTb k c) := by
  have hctrl (v : Word) (d : Chip) : SameSysref d (setReg (Reg.TICK_TB_CTRL k) v d) :=
    sameSysref_setReg (by unfold SysrefReg Reg.TICK_TB_CTRL; omega) v d
  cases ho : enableOk c k with
  | true =>
    obtain ⟨f, g, he, -, -⟩ := enableTb_of_ok ho
    have hregs : SameSysref c (enabledRegs k c) := by
      refine sameSysref_trans (sameSysref_trans (hctrl ..) (hctrl ..)) (sameSysref_when _ _ ?_)
      exact sameSysref_setReg (by unfold SysrefReg Reg.TICK_TB_PERIOD; omega) ..
    have hj := jobOfTb_lt c k
    rw [he]
    refine sameSysref_trans hregs (sameSysref_trans (c' := modJob (jobOfTb c k) g (modTb k f (enabledRegs k c))) ⟨rfl, fun _ _ => rfl⟩ ?_)
    exact sameSysref_setReg (by unfold SysrefReg Reg.CHK_JOB_STATE; omega) ..
  | false =>
    rw [enableTb_of_bad ho]
    exact sameSysref_trans (hctrl ..) (hctrl ..)

theorem sameSysref_putBoundary (kind : EdgeKind) (due k : Nat) (c : Chip) : SameSysref c (putBoundary kind due k c) := by
  refine sameSysref_trans (sameSysref_when _ _ ?_) (sameSysref_modTb ..)
  exact sameSysref_setReg (by unfold SysrefReg Reg.TICK_TB_HOLD_SKIPPED; omega) ..

theorem sameSysref_edgeTb (at_ found : Nat) (kind : EdgeKind) (k : Nat) (c : Chip) : SameSysref c (edgeTb at_ found kind k c) := by
  unfold edgeTb
  extract_lets T put
  have hput (d : Chip) : SameSysref d (put d) := sameSysref_putBoundary ..
  split
  · split
    · exact sameSysref_refl c
    · split
      · exact sameSysref_trans (sameSysref_modTb ..) (sameSysref_enableTb ..)
      · exact sameSysref_modTb ..
  · split
    · exact sameSysref_refl c
    · split
      · split
        · exact sameSysref_trans (sameSysref_modTb ..) (hput _)
        · exact sameSysref_refl c
      · split
        · exact hput c
        · split
          · exact sameSysref_refl c
          · exact sameSysref_trans (sameSysref_modTb ..) (sameSysref_when _ _ (hput _))

theorem sameSysref_edgeAll (at_ found : Nat) (kind : EdgeKind) (c : Chip) : SameSysref c (edgeAll at_ found kind c) :=
  forAll_keeps (P := SameSysref c) _ (fun k _ d hd => sameSysref_trans hd (sameSysref_edgeTb at_ found kind k d)) c (sameSysref_refl c)

theorem sysPeriod_of_same {c c' : Chip} (h : SameSysref c c') : sysPeriod c' = sysPeriod c :=
  rfld_congr (h.2 Reg.TICK_SYSREF_STATUS (by unfold SysrefReg Reg.TICK_SYSREF_STATUS; omega))

/-! ### An edge before lock (R67) -/

/-- SYSREF's state and period after an edge at `t` whose predecessor came at `l`; `good` edges now came where predicted. -/
def measured (t l good : Nat) (c : Chip) : Chip :=
  setFld Reg.TICK_SYSREF_STATUS 29 0 (t - l)
    { c with sysref := { c.sysref with lastEdge := some t, good := good, predicted := some (t + (t - l)) } }

section
variable {t l p : Nat} {c : Chip} (hl : c.sysref.lastEdge = some l) (hp : c.sysref.predicted = some p)
include hl hp

theorem edgeUnlocked_near (hd : dist t p ≤ sysTol c) :
    edgeUnlocked t c = when_ (decide (max 1 (rfld c Reg.TICK_SYSREF_CFG 15 8) ≤ c.sysref.good + 1)) (raise Reg.TICK_SYSREF_STATUS 31)
      (measured t l (c.sysref.good + 1) c) := by
  simp [edgeUnlocked, measured, hl, hp, hd]
  rfl

theorem edgeUnlocked_far (hd : sysTol c < dist t p) : edgeUnlocked t c = when_ false (raise Reg.TICK_SYSREF_STATUS 31) (measured t l 0 c) := by
  have hn : ¬ dist t p ≤ sysTol c := by omega
  simp [edgeUnlocked, measured, when_, hl, hp, hn]

end

theorem sysPeriod_measured (t l good : Nat) (c : Chip) : sysPeriod (measured t l good c) = (t - l) % 2 ^ 30 :=
  rfld_setFld _ _ _ _ _ (by decide) (by decide)

theorem locked_measured (t l good : Nat) (c : Chip) :
    rflag (measured t l good c) Reg.TICK_SYSREF_STATUS 31 = rflag c Reg.TICK_SYSREF_STATUS 31 := by
  rw [measured, setFld_eq, rflag, reg_setReg_same, flag_putFld_apart _ _ _ _ _ (by decide) (by decide) (by decide)]
  rfl

theorem frame_measured (t l good : Nat) (c : Chip) :
    Frame [Reg.TICK_SYSREF_STATUS] [] c { measured t l good c with sysref := c.sysref } :=
  frame_setFld _ _ _ _ (by simp) (frame_refl ..)

/-- What an edge before lock leaves, whether or not it came where predicted. -/
theorem measured_edge {t l : Nat} (good : Nat) (lock : Bool) (c : Chip) :
    let c' := when_ lock (raise Reg.TICK_SYSREF_STATUS 31) (measured t l good c)
    sysPeriod c' = (t - l) % 2 ^ 30 ∧ c'.sysref.lastEdge = some t ∧ c'.sysref.predicted = some (t + (t - l)) ∧ c'.sysref.good = good ∧
      rflag c' Reg.TICK_SYSREF_STATUS 31 = (lock || rflag c Reg.TICK_SYSREF_STATUS 31) ∧
      Frame [Reg.TICK_SYSREF_STATUS] [] c { c' with sysref := c.sysref } := by
  cases lock with
  | false => exact ⟨sysPeriod_measured .., rfl, rfl, rfl, by simpa [when_] using locked_measured t l good c, frame_measured ..⟩
  | true =>
    refine ⟨?_, rfl, rfl, rfl, rflag_raise _ _ _ (by decide), ?_⟩
    · exact (rfld_setBit_apart _ (by decide) (by decide) true _).trans (sysPeriod_measured t l good c)
    · exact frame_raise _ _ (by simp) (frame_measured t l good c)

/-! ### Edges in lock, misses and holdover (R67, R68) -/

theorem completes_sysrefEdge {t : Nat} {s : State} : Completes (.sysrefEdge t) s (sysrefEdge t s.chip) := done_eq ..
theorem completes_sysrefMiss {t : Nat} {s : State} : Completes (.sysrefMiss t) s (sysrefMiss t s.chip) := done_eq ..
theorem completes_holdoverEdge {t : Nat} {s : State} : Completes (.holdoverEdge t) s (holdoverEdge t s.chip) := done_eq ..

section
variable {t p : Nat} {c : Chip}

theorem sysrefEdge_unlocked (he : rflag c Reg.TICK_SYSREF_CFG 0 = true) (hl : rflag c Reg.TICK_SYSREF_STATUS 31 = false) :
    sysrefEdge t c = edgeUnlocked t c := by
  simp [sysrefEdge, he, hl]

section
variable (he : rflag c Reg.TICK_SYSREF_CFG 0 = true) (hl : rflag c Reg.TICK_SYSREF_STATUS 31 = true)
  (hh : rflag c Reg.TICK_SYSREF_STATUS 30 = false) (hp : c.sysref.predicted = some p)
include he hl hh hp

theorem sysrefEdge_slips (hd : sysTol c < dist t p) :
    sysrefEdge t c = raise Reg.TICK_IRQ_STATUS 17 (count Reg.TICK_SYSREF_SLIP_COUNT 1 c) := by
  have hn : ¬ dist t p ≤ sysTol c := by omega
  simp [sysrefEdge, he, hl, hh, hp, hn]

theorem sysrefEdge_followed (hd : dist t p ≤ sysTol c) :
    sysrefEdge t c = edgeAll t t .plain { c with sysref := { c.sysref with lastEdge := some t, predicted := some (t + sysPeriod c) } } := by
  simp [sysrefEdge, he, hl, hh, hp, hd]

end

/-- A miss counted. -/
def missNoted (c : Chip) : Chip := raise Reg.TICK_IRQ_STATUS 16 (count Reg.TICK_SYSREF_MISS_COUNT 1 c)

/-- The next edge predicted a period after `p`. -/
def predictAfter (p : Nat) (c : Chip) : Chip := { c with sysref := { c.sysref with predicted := some (p + sysPeriod c) } }

@[simp] theorem reg_predictAfter (p : Nat) (c : Chip) (a : Nat) : reg (predictAfter p c) a = reg c a := rfl

theorem predicted_predictAfter (p : Nat) (c : Chip) : (predictAfter p c).sysref.predicted = some (p + sysPeriod c) := rfl

/-- Holdover as a miss begins it: the generated edge is counted, and the next one predicted. -/
def holdoverBegun (p t : Nat) (c : Chip) : Chip :=
  predictAfter p (edgeAll p t .plain (raise Reg.TICK_SYSREF_STATUS 30 (missNoted c)))

section
variable (hl : rflag c Reg.TICK_SYSREF_STATUS 31 = true) (hh : rflag c Reg.TICK_SYSREF_STATUS 30 = false)
  (hp : c.sysref.predicted = some p) (ht : p + sysTol c < t)
include hl hh hp ht

theorem sysrefMiss_holds (ha : rflag (missNoted c) Reg.TICK_SYSREF_CFG 1 = true) : sysrefMiss t c = holdoverBegun p t c := by
  rw [missNoted] at ha
  simp [sysrefMiss, holdoverBegun, predictAfter, missNoted, hl, hh, hp, ht, ha]

theorem sysrefMiss_unlocks (ha : rflag (missNoted c) Reg.TICK_SYSREF_CFG 1 = false) :
    sysrefMiss t c = setBit Reg.TICK_SYSREF_STATUS 31 false
      { missNoted c with sysref := { (missNoted c).sysref with good := 0, predicted := none } } := by
  rw [missNoted] at ha
  simp [sysrefMiss, missNoted, hl, hh, hp, ht, ha]

end

theorem holdoverEdge_generates (hh : rflag c Reg.TICK_SYSREF_STATUS 30 = true) (hp : c.sysref.predicted = some p) (ht : p ≤ t) :
    holdoverEdge t c = edgeAll p p (if c.sysref.returning then .waiting else .plain) (predictAfter p c) := by
  have hn : ¬ t < p := by omega
  simp [holdoverEdge, predictAfter, hh, hp, hn]

end

/-! ### What they leave -/

/-- A register of SYSREF that is none of those a miss writes. -/
theorem reg_missNoted {a : Nat} (hm : a ≠ Reg.TICK_SYSREF_MISS_COUNT) (hi : a ≠ Reg.TICK_IRQ_STATUS) (c : Chip) :
    reg (missNoted c) a = reg c a := by
  rw [missNoted, reg_raise_ne hi, reg_count_ne hm]

theorem missNoted_counts (c : Chip) :
    Advanced Reg.TICK_SYSREF_MISS_COUNT 1 c (missNoted c) ∧ rflag (missNoted c) Reg.TICK_IRQ_STATUS 16 = true ∧
      Frame [Reg.TICK_SYSREF_MISS_COUNT, Reg.TICK_IRQ_STATUS] [] c (missNoted c) := by
  refine ⟨?_, rflag_raise _ _ _ (by decide), frame_raise _ _ (by simp) (frame_count _ _ (by simp) (frame_refl ..))⟩
  have h := advanced_count Reg.TICK_SYSREF_MISS_COUNT 1 c
  rwa [Advanced, missNoted, reg_raise_ne (by decide)]

/-- A count is carried over to a chip whose counter reads the same. -/
theorem advanced_congr {a n : Nat} {c d c' : Chip} (h : Advanced a n c d) (hr : reg c' a = reg d a) : Advanced a n c c' := by
  rwa [Advanced, hr]

/-- Holdover begins: STATUS bit 30 is set and bit 31 stays, the miss is counted, and the prediction moves a period on. -/
theorem holdoverBegun_facts (p t : Nat) (c : Chip) :
    Advanced Reg.TICK_SYSREF_MISS_COUNT 1 c (holdoverBegun p t c) ∧ rflag (holdoverBegun p t c) Reg.TICK_IRQ_STATUS 16 = true ∧
      rflag (holdoverBegun p t c) Reg.TICK_SYSREF_STATUS 30 = true ∧
      (holdoverBegun p t c).sysref.predicted = some (p + sysPeriod c) ∧ sysPeriod (holdoverBegun p t c) = sysPeriod c := by
  have hsame := sameSysref_edgeAll p t .plain (raise Reg.TICK_SYSREF_STATUS 30 (missNoted c))
  have hreg (a : Nat) (ha : SysrefReg a) : reg (holdoverBegun p t c) a = reg (raise Reg.TICK_SYSREF_STATUS 30 (missNoted c)) a := by
    rw [holdoverBegun, reg_predictAfter, hsame.2 a ha]
  have hper : sysPeriod (raise Reg.TICK_SYSREF_STATUS 30 (missNoted c)) = sysPeriod c :=
    (rfld_setBit_apart _ (by decide) (by decide) true _).trans (rfld_congr (reg_missNoted (by decide) (by decide) c))
  obtain ⟨hadv, hirq, -⟩ := missNoted_counts c
  refine ⟨?_, ?_, ?_, ?_, ?_⟩
  · exact advanced_congr hadv ((hreg _ (by decide)).trans (reg_raise_ne (by decide) ..))
  · exact (rflag_congr ((hreg _ (by decide)).trans (reg_raise_ne (by decide) ..))).trans hirq
  · exact (rflag_congr (hreg _ (by decide))).trans (rflag_raise _ _ _ (by decide))
  · rw [holdoverBegun, predicted_predictAfter, sysPeriod_of_same hsame, hper]
  · exact (rfld_congr (hreg _ (by decide))).trans hper

/-- Lock is lost: the miss is counted and LOCKED cleared. -/
theorem lock_lost (c : Chip) :
    let c' := setBit Reg.TICK_SYSREF_STATUS 31 false { missNoted c with sysref := { (missNoted c).sysref with good := 0, predicted := none } }
    Advanced Reg.TICK_SYSREF_MISS_COUNT 1 c c' ∧ rflag c' Reg.TICK_IRQ_STATUS 16 = true ∧ rflag c' Reg.TICK_SYSREF_STATUS 31 = false ∧
      Frame [Reg.TICK_SYSREF_MISS_COUNT, Reg.TICK_IRQ_STATUS, Reg.TICK_SYSREF_STATUS] [] c { c' with sysref := c.sysref } := by
  obtain ⟨hadv, hirq, hf⟩ := missNoted_counts c
  refine ⟨?_, ?_, rflag_setBit_same _ (by decide) .., ?_⟩
  · exact advanced_congr hadv (reg_setBit_ne (by decide) ..)
  · exact (rflag_congr (reg_setBit_ne (by decide) ..)).trans hirq
  · exact frame_setBit Reg.TICK_SYSREF_STATUS 31 false (by simp) (frame_mono (by simp) (by simp) hf)

/-- An edge counted by the timebases leaves the prediction that stood before it. -/
theorem moved_of_edgeAll {at_ found : Nat} {kind : EdgeKind} {c d : Chip} {n : Nat} (hd : d.sysref.predicted = some n)
    (hr : sysPeriod d = sysPeriod c) :
    (edgeAll at_ found kind d).sysref.predicted = some n ∧ sysPeriod (edgeAll at_ found kind d) = sysPeriod c := by
  have h := sameSysref_edgeAll at_ found kind d
  exact ⟨by rw [h.1, hd], (sysPeriod_of_same h).trans hr⟩

/-- Settles O37: an edge before lock, in lock and missed, and one generated in holdover. -/
theorem sysrefEdges : Obligations.SysrefEdges := by
  intro t s
  refine ⟨fun he => ?off, fun l p he hl hle hp => ?unlocked, fun p he hl hh hp => ⟨fun hd => ?slips, fun hd => ?followed⟩,
    fun p hl hh hp ht => ?miss, fun p hh hp ht => ?holdover⟩
  case off =>
    have h := completes_sysrefEdge (t := t) (s := s)
    rwa [sysrefEdge, he] at h
  case unlocked =>
    refine ⟨_, completes_sysrefEdge, ?_⟩
    rw [sysrefEdge_unlocked he hl]
    by_cases hd : dist t p ≤ sysTol s.chip
    · have hnot : ¬ sysTol s.chip < dist t p := by omega
      rw [edgeUnlocked_near hle hp hd]
      obtain ⟨hper, hlast, hpred, hgood, hlock, hf⟩ := measured_edge (t := t) (l := l) (s.chip.sysref.good + 1)
        (decide (max 1 (rfld s.chip Reg.TICK_SYSREF_CFG 15 8) ≤ s.chip.sysref.good + 1)) s.chip
      exact ⟨hper, hlast, hpred, fun _ => ⟨hgood, by rw [hlock, hl]; simp⟩, fun h => absurd h hnot, hf⟩
    · have hfar : sysTol s.chip < dist t p := by omega
      rw [edgeUnlocked_far hle hp hfar]
      obtain ⟨hper, hlast, hpred, hgood, hlock, hf⟩ := measured_edge (t := t) (l := l) 0 false s.chip
      exact ⟨hper, hlast, hpred, fun h => absurd h hd, fun _ => ⟨hgood, by rw [hlock, hl]; rfl⟩, hf⟩
  case slips =>
    refine ⟨_, completes_sysrefEdge, ?_⟩
    rw [sysrefEdge_slips he hl hh hp hd]
    refine ⟨?_, rflag_raise _ _ _ (by decide), frame_raise _ _ (by simp) (frame_count _ _ (by simp) (frame_refl ..))⟩
    exact advanced_congr (advanced_count ..) (reg_raise_ne (by decide) ..)
  case followed =>
    refine ⟨_, completes_sysrefEdge, ?_⟩
    rw [sysrefEdge_followed he hl hh hp hd]
    exact ⟨moved_of_edgeAll rfl rfl, by rw [(sameSysref_edgeAll ..).1]⟩
  case miss =>
    refine ⟨_, completes_sysrefMiss, ?_⟩
    have hcfg : rflag (missNoted s.chip) Reg.TICK_SYSREF_CFG 1 = rflag s.chip Reg.TICK_SYSREF_CFG 1 :=
      rflag_congr (reg_missNoted (by decide) (by decide) s.chip)
    cases ha : rflag s.chip Reg.TICK_SYSREF_CFG 1 with
    | true =>
      rw [sysrefMiss_holds hl hh hp ht (hcfg.trans ha)]
      obtain ⟨hadv, hirq, hhold, hpred, hper⟩ := holdoverBegun_facts p t s.chip
      exact ⟨hadv, hirq, fun _ => ⟨hhold, hpred, hper⟩, fun h => absurd h (by simp)⟩
    | false =>
      rw [sysrefMiss_unlocks hl hh hp ht (hcfg.trans ha)]
      obtain ⟨hadv, hirq, hlost, hf⟩ := lock_lost s.chip
      exact ⟨hadv, hirq, fun h => absurd h (by simp), fun _ => ⟨hlost, rfl, hf⟩⟩
  case holdover =>
    refine ⟨_, completes_holdoverEdge, ?_⟩
    rw [holdoverEdge_generates hh hp ht]
    exact moved_of_edgeAll rfl rfl

end Sys2Proof.Machine
end

section
/-!
PROOFS. Command queues: records are posted, taken and completed (R485 to R488).
-/

namespace Sys2Proof.Machine

open Sys2Proof.Safety

/-! ### Updates of the host interface's own state -/

/-- `c'` is `c` but for the host interface's own state. -/
def OnlyHost (c c' : Chip) : Prop := c' = { c with host := c'.host }

theorem onlyHost_refl (c : Chip) : OnlyHost c c := rfl

theorem onlyHost_trans {c c' c'' : Chip} (h : OnlyHost c c') (h' : OnlyHost c' c'') : OnlyHost c c'' := by
  rw [OnlyHost] at *
  rw [h', h]

theorem onlyHost_modHost (f : HostSide → HostSide) (c : Chip) : OnlyHost c (modHost f c) := rfl

theorem onlyHost_msixRequest (v : Nat) (c : Chip) : OnlyHost c (msixRequest v c) := by
  unfold msixRequest
  split <;> rfl

theorem onlyHost_when {f : Chip → Chip} (b : Bool) (c : Chip) (h : OnlyHost c (f c)) : OnlyHost c (when_ b f c) := by
  cases b
  · rfl
  · exact h

theorem reg_of_onlyHost {c c' : Chip} (h : OnlyHost c c') (a : Nat) : reg c' a = reg c a := by rw [h]; rfl

theorem byteAt_of_onlyHost {c c' : Chip} (h : OnlyHost c c') (a : Nat) : byteAt c' a = byteAt c a := by rw [h]; rfl

/-- Set aside the host interface's own state, nothing has changed. -/
theorem frame_of_onlyHost {as ts : List Nat} {c d d' : Chip} (h : OnlyHost d d') (f : Frame as ts c { d with host := c.host }) :
    Frame as ts c { d' with host := c.host } := by
  rw [h]
  exact f

/-! ### Posting (R485) -/

theorem onlyHost_postRecords (q n : Nat) (c : Chip) : OnlyHost c (postRecords q n c) := by
  induction n generalizing c with
  | zero => rfl
  | succ n ih =>
    unfold postRecords
    dsimp only
    split
    · exact onlyHost_trans (onlyHost_modHost ..) (ih _)
    · rfl

theorem onlyHost_postQueue (q : Nat) (c : Chip) : OnlyHost c (postQueue q c) := by
  unfold postQueue
  split
  · exact onlyHost_postRecords ..
  · rfl

/-- Posting never takes the tail back. -/
theorem tail_le_postRecords (q n : Nat) (c : Chip) : numOf c.host.tail q ≤ numOf (postRecords q n c).host.tail q := by
  induction n generalizing c with
  | zero => exact Nat.le_refl _
  | succ n ih =>
    unfold postRecords
    dsimp only
    split
    · have h := ih (modHost (fun H => { H with tail := setNum q (numOf c.host.tail q + 1) H.tail }) c)
      simp only [modHost, numOf_setNum_same] at h
      exact Nat.le_of_succ_le h
    · exact Nat.le_refl _

/-- A slot that holds the SEQ awaited posts its record. -/
theorem tail_lt_postRecords {q : Nat} {c : Chip}
    (h : (byteAt c (slotAddr q (numOf c.host.tail q) + 63)).toNat = recordSeq (numOf c.host.tail q)) (n : Nat) :
    numOf c.host.tail q < numOf (postRecords q (n + 1) c).host.tail q := by
  have hle := tail_le_postRecords q n (modHost (fun H => { H with tail := setNum q (numOf c.host.tail q + 1) H.tail }) c)
  simp only [modHost, numOf_setNum_same] at hle
  simp only [postRecords, h, if_true, modHost]
  exact hle

/-- Slots repeat after 256 records. -/
theorem slotAddr_mod (q n : Nat) : slotAddr q (n % 256) = slotAddr q n := by simp [slotAddr]

theorem commandPost_reached {q slot : Nat} {bs : List Byte} {c : Chip} (hb : bs.length = 64) (hr : hostReached c = true)
    (hf : inFallow c = false) : commandPost q slot bs c = postQueue q (putBytes (slotAddr q slot) bs c) := by
  simp [commandPost, hr, hf, ← hb]

theorem commandPost_unreached {q slot : Nat} {bs : List Byte} {c : Chip} (h : hostReached c = false ∨ inFallow c = true) :
    commandPost q slot bs c = c := by
  rcases h with h | h <;> simp [commandPost, h]

@[simp] theorem putBytes_host (bs : List Byte) (a : Nat) (c : Chip) : (putBytes a bs c).host = c.host := by
  induction bs generalizing a c with
  | nil => rfl
  | cons b bs ih => rw [putBytes, ih, putByte_host]

@[simp] theorem reg_putBytes (bs : List Byte) (a : Nat) (c : Chip) (k : Nat) : reg (putBytes a bs c) k = reg c k := by simp [reg]

theorem bytesAt_putBytes (bs : List Byte) (a : Nat) (c : Chip) : bytesAt (putBytes a bs c) a bs.length = bs := by
  refine List.ext_getElem (by simp [bytesAt]) fun i h h' => ?_
  simp only [bytesAt, List.getElem_map, List.getElem_range]
  rw [byteAt_putBytes_inside bs a i c h', List.getD_eq_getElem _ _ h']

/-- A record written into its slot: its bytes, every other byte and every register. -/
theorem commandPost_writes {q slot : Nat} {bs : List Byte} {c : Chip} (hb : bs.length = 64) (hr : hostReached c = true)
    (hf : inFallow c = false) :
    bytesAt (commandPost q slot bs c) (slotAddr q slot) 64 = bs ∧
      (∀ a, (a < slotAddr q slot ∨ slotAddr q slot + 64 ≤ a) → byteAt (commandPost q slot bs c) a = byteAt c a) ∧
      ∀ a, reg (commandPost q slot bs c) a = reg c a := by
  rw [commandPost_reached hb hr hf]
  have h := onlyHost_postQueue q (putBytes (slotAddr q slot) bs c)
  refine ⟨?_, fun a ha => ?_, fun a => ?_⟩
  · rw [bytesAt, funext fun i => byteAt_of_onlyHost h (slotAddr q slot + i), ← bytesAt, ← hb, bytesAt_putBytes]
  · rw [byteAt_of_onlyHost h, byteAt_putBytes_outside _ _ _ _ (by rwa [hb])]
  · rw [reg_of_onlyHost h, reg_putBytes]

theorem cqOn_putBytes (bs : List Byte) (a q : Nat) (c : Chip) : cqOn (putBytes a bs c) q = cqOn c q := rflag_congr (reg_putBytes ..)

/-- A disabled queue posts nothing. -/
theorem commandPost_disabled {q slot : Nat} {bs : List Byte} {c : Chip} (hb : bs.length = 64) (hr : hostReached c = true)
    (hf : inFallow c = false) (ho : cqOn c q = false) : (commandPost q slot bs c).host = c.host := by
  rw [commandPost_reached hb hr hf, postQueue, cqOn_putBytes, ho, if_neg (by decide), putBytes_host]

/-- A record in the slot awaited that bears its SEQ is posted. -/
theorem commandPost_posts {q slot : Nat} {bs : List Byte} {c : Chip} (hb : bs.length = 64) (hr : hostReached c = true)
    (hf : inFallow c = false) (ho : cqOn c q = true) (hs : slot = numOf c.host.tail q % 256)
    (hm : (bs.getD 63 0#8).toNat = recordSeq (numOf c.host.tail q)) :
    numOf c.host.tail q < numOf (commandPost q slot bs c).host.tail q := by
  have ha : slotAddr q slot = slotAddr q (numOf c.host.tail q) := by rw [hs, slotAddr_mod]
  rw [commandPost_reached hb hr hf, postQueue, cqOn_putBytes, ho, if_pos rfl, ha]
  have h := tail_lt_postRecords (q := q) (c := putBytes (slotAddr q (numOf c.host.tail q)) bs c)
    (by rw [putBytes_host, byteAt_putBytes_inside _ _ _ _ (by omega), hm]) 255
  rwa [putBytes_host] at h

/-! ### Taking (R486) -/

theorem cqTake_ignored {who : Initiator} {q : Nat} {c : Chip}
    (h : who = .host ∨ cqOn c q = false ∨ numOf c.host.tail q ≤ numOf c.host.head q) : cqTake who q c = c := by
  rcases h with h | h | h <;> simp [cqTake, h]

theorem cqTake_takes {who : Initiator} {q : Nat} {c : Chip} (hw : who ≠ .host) (ho : cqOn c q = true)
    (hn : numOf c.host.head q < numOf c.host.tail q) :
    cqTake who q c = modHost (fun H => { H with
      head := setNum q (numOf c.host.head q + 1) H.head
      taken := H.taken ++ [{ queue := q, record := bytesAt c (slotAddr q (numOf c.host.head q)) 64, phase := 0, live := true }] }) c := by
  simp [cqTake, hw, ho, hn]

/-! ### Completing (R487, R488) -/

/-- A completion as the device writes it: its last word, and its command taken off the list. -/
def completed (q : Nat) (v : Word) (c : Chip) : Chip :=
  c |> setReg (Reg.HIF_CQ_CPL_DATA q 3) v |> modHost (fun H => { H with taken := dropFirst (fun x => x.queue == q) H.taken })

/-- The address of the completion's entry in the ring of queue `q`. -/
def cplAddr (q : Nat) (c : Chip) : Nat :=
  (reg c (Reg.HIF_CQ_CPL_HI q)).toNat * 2 ^ 32 + rfld c (Reg.HIF_CQ_CPL_LO q) 31 12 * 4096 + 16 * (numOf c.host.cpl q % 256)

/-- The bytes of the completion. -/
def cplBytes (q : Nat) (c : Chip) : List Byte := (List.range 4).flatMap (fun i => toBytes 4 (reg c (Reg.HIF_CQ_CPL_DATA q i)).toNat)

/-- The completion written to its ring entry, and the ring's write pointer moved on. -/
def cplWritten (q : Nat) (c : Chip) : Chip :=
  c |> hostWrite (cplAddr q c) (cplBytes q c) |> modHost (fun H => { H with cpl := setNum q (numOf c.host.cpl q + 1) H.cpl })

/-- Whether the command asks for a message with its completion. -/
def notifies : Option Taken → Bool
  | some x => bit (nAt x.record 2 1) 0
  | none => false

section
variable {who : Initiator} (hw : who ≠ .host) (q : Nat) (v : Word) (c : Chip)
include hw

theorem cqComplete_silent (h : (cqOn (completed q v c) q && hostReached (completed q v c)) = false) :
    cqComplete who q v c = completed q v c := by
  rw [completed] at h
  simp only [cqComplete, completed, beq_eq_false_iff_ne.2 hw, h, Bool.false_eq_true, if_false]

theorem cqComplete_written (h : (cqOn (completed q v c) q && hostReached (completed q v c)) = true) :
    cqComplete who q v c = when_ (notifies (takenOf c q)) (msixRequest (rfld (completed q v c) (Reg.HIF_CQ_CFG q) 29 24))
      (cplWritten q (completed q v c)) := by
  rw [completed] at h
  simp only [cqComplete, completed, beq_eq_false_iff_ne.2 hw, h, Bool.false_eq_true, if_false, if_true]
  rfl

end

theorem reg_completed_ne {a q : Nat} (h : a ≠ Reg.HIF_CQ_CPL_DATA q 3) (v : Word) (c : Chip) : reg (completed q v c) a = reg c a :=
  reg_setReg_ne v c h

theorem reg_completed_same (q : Nat) (v : Word) (c : Chip) : reg (completed q v c) (Reg.HIF_CQ_CPL_DATA q 3) = v := reg_setReg_same ..

theorem cqOn_completed (q : Nat) (v : Word) (c : Chip) : cqOn (completed q v c) q = cqOn c q :=
  rflag_congr (reg_completed_ne (by unfold Reg.HIF_CQ_CFG Reg.HIF_CQ_CPL_DATA; omega) ..)

theorem hostReached_completed (q : Nat) (v : Word) (c : Chip) : hostReached (completed q v c) = hostReached c := by
  rw [hostReached, hostReached, domOn, domOn, domState, domState,
    rflag_congr (reg_completed_ne (by unfold Reg.HIF_LINK_STATUS Reg.HIF_CQ_CPL_DATA; omega) ..),
    rfld_congr (reg_completed_ne (by unfold Reg.PWR_DOM Reg.HIF_CQ_CPL_DATA; omega) ..)]

theorem cplAddr_completed (q : Nat) (v : Word) (c : Chip) : cplAddr q (completed q v c) = cplAddr q c := by
  rw [cplAddr, cplAddr, reg_completed_ne (by unfold Reg.HIF_CQ_CPL_HI Reg.HIF_CQ_CPL_DATA; omega),
    rfld_congr (reg_completed_ne (by unfold Reg.HIF_CQ_CPL_LO Reg.HIF_CQ_CPL_DATA; omega) ..)]
  rfl

theorem cplBytes_completed (q : Nat) (v : Word) (c : Chip) :
    cplBytes q (completed q v c) =
      (List.range 4).flatMap (fun i => toBytes 4 (if i = 3 then v else reg c (Reg.HIF_CQ_CPL_DATA q i)).toNat) := by
  refine congrArg (fun f => (List.range 4).flatMap f) (funext fun i => ?_)
  split
  · next h => rw [h, reg_completed_same]
  · next h => rw [reg_completed_ne (by unfold Reg.HIF_CQ_CPL_DATA; omega)]

theorem onlyHost_cplWritten (q : Nat) (c : Chip) : OnlyHost c (cplWritten q c) := rfl

theorem cpl_cplWritten (q : Nat) (c : Chip) : numOf (cplWritten q c).host.cpl q = numOf c.host.cpl q + 1 := by
  simp [cplWritten, modHost, hostWrite]

/-- A message for the host leaves the queues' own records and pointers. -/
theorem msixRequest_queues (v : Nat) (c : Chip) :
    (msixRequest v c).host.taken = c.host.taken ∧ (msixRequest v c).host.cpl = c.host.cpl := by
  unfold msixRequest
  split <;> exact ⟨rfl, rfl⟩

theorem when_msixRequest_queues (b : Bool) (v : Nat) (c : Chip) :
    (when_ b (msixRequest v) c).host.taken = c.host.taken ∧ (when_ b (msixRequest v) c).host.cpl = c.host.cpl := by
  cases b
  · exact ⟨rfl, rfl⟩
  · exact msixRequest_queues v c

theorem notifies_false {o : Option Taken} (h : o.all (fun x => !bit (nAt x.record 2 1) 0) = true) : notifies o = false := by
  cases o with
  | none => rfl
  | some x => simpa [notifies] using h

/-- The three clauses of a completion that is sent: the records, the ring entry and the write pointer. -/
theorem cqComplete_facts {who : Initiator} (hw : who ≠ .host) (q : Nat) (v : Word) (c : Chip) :
    ∃ c', cqComplete who q v c = c' ∧ reg c' (Reg.HIF_CQ_CPL_DATA q 3) = v ∧
      c'.host.taken = dropFirst (fun x => x.queue == q) c.host.taken ∧
      ((cqOn c q = false ∨ hostReached c = false) → c'.host.mem = c.host.mem ∧ c'.host.cpl = c.host.cpl) ∧
      (cqOn c q = true → hostReached c = true → numOf c'.host.cpl q = numOf c.host.cpl q + 1 ∧
        (notifies (takenOf c q) = false → c'.host.mem = hostPut (cplAddr q c) (cplBytes q (completed q v c)) c.host.mem)) ∧
      OnlyHost (completed q v c) c' := by
  refine ⟨_, rfl, ?_⟩
  cases h : cqOn (completed q v c) q && hostReached (completed q v c) with
  | false =>
    rw [cqComplete_silent hw q v c h]
    rw [cqOn_completed, hostReached_completed] at h
    refine ⟨reg_completed_same .., rfl, fun _ => ⟨rfl, rfl⟩, fun ho hr => ?_, onlyHost_refl _⟩
    simp [ho, hr] at h
  | true =>
    rw [cqComplete_written hw q v c h]
    rw [cqOn_completed, hostReached_completed] at h
    have hon := onlyHost_trans (onlyHost_cplWritten q (completed q v c))
      (onlyHost_when (notifies (takenOf c q)) _ (onlyHost_msixRequest (rfld (completed q v c) (Reg.HIF_CQ_CFG q) 29 24) _))
    obtain ⟨ht, hc⟩ := when_msixRequest_queues (notifies (takenOf c q)) (rfld (completed q v c) (Reg.HIF_CQ_CFG q) 29 24)
      (cplWritten q (completed q v c))
    refine ⟨(reg_of_onlyHost hon _).trans (reg_completed_same ..), ht, fun hoff => ?_, fun _ _ => ⟨?_, fun hn => ?_⟩, hon⟩
    · rcases hoff with hoff | hoff <;> simp [hoff] at h
    · rw [hc, cpl_cplWritten]
      rfl
    · rw [hn, ← cplAddr_completed q v]
      rfl

end Sys2Proof.Machine
end

section
/-!
PROOFS. The commands of a queue (Table 18.6): how one is found, how its action begins and how it is answered.
-/

namespace Sys2Proof.Machine

open Sys2Proof.Safety

/-! ### Folds and fields -/

/-- What every step of a fold leaves of a chip, the fold leaves. -/
theorem forAll_leaves {α β : Type} (g : Chip → β) {f : α → Chip → Chip} (l : List α) (h : ∀ x c, g (f x c) = g c) (c : Chip) :
    g (forAll f l c) = g c :=
  forAll_keeps (P := fun d => g d = g c) l (fun x _ d hd => (h x d).trans hd) c rfl

/-- Where each step keeps an invariant, a property of an element that its own step establishes and no step destroys holds after the
fold. -/
theorem forAll_reaches {α : Type} {I : Chip → Prop} {P : α → Chip → Prop} {f : α → Chip → Chip} (hinv : ∀ x c, I c → I (f x c))
    (hmake : ∀ x c, I c → P x (f x c)) (hkeep : ∀ x y c, P y c → P y (f x c)) (l : List α) (c : Chip) (hc : I c) :
    ∀ x ∈ l, P x (forAll f l c) := by
  induction l generalizing c with
  | nil => simp
  | cons y ys ih =>
    intro x hx
    rcases List.mem_cons.1 hx with rfl | hx
    · exact forAll_keeps (P := P x) ys (fun z _ d hd => hkeep z x d hd) _ (hmake x c hc)
    · exact ih (f y c) (hinv y c hc) x hx

/-! ### The oldest command that is taken -/

theorem queue_of_takenOf {c : Chip} {q : Nat} {x : Taken} (h : takenOf c q = some x) : x.queue = q := by
  have hq := List.find?_some h
  simpa using hq

theorem find?_mapFirst {α : Type} {p : α → Bool} {f : α → α} (hf : ∀ y, p (f y) = p y) (l : List α) :
    (mapFirst p f l).find? p = (l.find? p).map f := by
  induction l with
  | nil => rfl
  | cons y ys ih =>
    by_cases hy : p y = true
    · simp [mapFirst, hy, hf]
    · simp [mapFirst, hy, ih]

theorem takenOf_congr {c d : Chip} (h : d.host.taken = c.host.taken) (q : Nat) : takenOf d q = takenOf c q := by
  rw [takenOf, takenOf, h]

theorem runCommand_of_taken {op q : Nat} {f : Taken → Chip → Chip} {c : Chip} {x : Taken} (h : takenOf c q = some x)
    (ho : nAt x.record 0 2 = op) (hp : x.phase < 2) : runCommand op q f c = f x c := by
  simp [runCommand, h, ho, hp]

/-- A row whose OP is not the command's, or whose command has acted, does nothing. -/
theorem runCommand_ignored {op q : Nat} {f : Taken → Chip → Chip} {c : Chip}
    (h : (takenOf c q).all (fun x => nAt x.record 0 2 != op || decide (2 ≤ x.phase)) = true) : runCommand op q f c = c := by
  unfold runCommand
  cases ht : takenOf c q with
  | none => rfl
  | some x =>
    have hn : ¬ (nAt x.record 0 2 = op ∧ x.phase < 2) := by
      rw [ht] at h
      simp at h
      omega
    exact if_neg hn

/-! ### The end and the beginning of an action -/

/-- The command `x` of queue `q` has been answered with a status and a result. -/
def Answered (q : Nat) (x : Taken) (status result : Nat) (c' : Chip) : Prop :=
  takenOf c' q = some { x with phase := 2 } ∧ reg c' (Reg.HIF_CQ_CPL_DATA q 0) = BitVec.ofNat 32 (nAt x.record 4 4) ∧
    reg c' (Reg.HIF_CQ_CPL_DATA q 1) = BitVec.ofNat 32 (status * 65536 + nAt x.record 0 2) ∧
    reg c' (Reg.HIF_CQ_CPL_DATA q 2) = BitVec.ofNat 32 result

/-- The registers that an answer writes. -/
abbrev cplRegs (q : Nat) : List Nat := [Reg.HIF_CQ_CPL_DATA q 0, Reg.HIF_CQ_CPL_DATA q 1, Reg.HIF_CQ_CPL_DATA q 2]

/-- The oldest command of queue `q` set to phase `n`. -/
def setPhase (q n : Nat) (c : Chip) : Chip :=
  modHost (fun H => { H with taken := mapFirst (fun y => y.queue == q) (fun y => { y with phase := n }) H.taken }) c

theorem takenOf_setPhase {q : Nat} {c : Chip} {x : Taken} (h : takenOf c q = some x) (n : Nat) :
    takenOf (setPhase q n c) q = some { x with phase := n } := by
  have hf := find?_mapFirst (p := fun y : Taken => y.queue == q) (f := fun y => { y with phase := n }) (fun _ => rfl) c.host.taken
  rw [takenOf] at h
  rw [takenOf, setPhase, modHost, hf, h]
  rfl

theorem takenOf_beginAction {q : Nat} {c : Chip} {x : Taken} (h : takenOf c q = some x) :
    takenOf (beginAction x.queue c) q = some { x with phase := 1 } := by
  have hb := takenOf_setPhase h 1
  rwa [← queue_of_takenOf h] at hb ⊢

theorem frame_putNum_quiet {as ts : List Nat} {c d : Chip} (a n : Nat) (h : a ∈ as) (f : Frame as ts c { d with host := c.host }) :
    Frame as ts c { putNum a n d with host := c.host } := frame_putNum a n h f

theorem HIF_CQ_CPL_DATA_inj {q i j : Nat} (h : i ≠ j) : Reg.HIF_CQ_CPL_DATA q i ≠ Reg.HIF_CQ_CPL_DATA q j := by
  unfold Reg.HIF_CQ_CPL_DATA; omega

section
variable {x : Taken} (hl : x.live = true) (status result : Nat)
include hl

theorem endAction_live (d : Chip) :
    endAction x status result d = (setPhase x.queue 2 d |> putNum (Reg.HIF_CQ_CPL_DATA x.queue 0) (nAt x.record 4 4)
      |> putNum (Reg.HIF_CQ_CPL_DATA x.queue 1) (status * 65536 + nAt x.record 0 2) |> putNum (Reg.HIF_CQ_CPL_DATA x.queue 2) result) := by
  simp [endAction, setPhase, hl]

theorem endAction_answers {d : Chip} {q : Nat} (ht : takenOf d q = some x) : Answered q x status result (endAction x status result d) := by
  have hq := queue_of_takenOf ht
  subst hq
  rw [endAction_live hl]
  refine ⟨takenOf_setPhase ht 2, ?_, ?_, reg_putNum_same ..⟩
  · rw [reg_putNum_ne (HIF_CQ_CPL_DATA_inj (by decide)), reg_putNum_ne (HIF_CQ_CPL_DATA_inj (by decide)), reg_putNum_same]
  · rw [reg_putNum_ne (HIF_CQ_CPL_DATA_inj (by decide)), reg_putNum_same]

theorem reg_endAction {a : Nat} (ha : ∀ i, i < 3 → a ≠ Reg.HIF_CQ_CPL_DATA x.queue i) (d : Chip) :
    reg (endAction x status result d) a = reg d a := by
  rw [endAction_live hl, reg_putNum_ne (ha 2 (by decide)), reg_putNum_ne (ha 1 (by decide)), reg_putNum_ne (ha 0 (by decide))]
  rfl

/-- Beside the host's own state, an answer writes its registers. -/
theorem frame_endAction {q : Nat} (hq : x.queue = q) {ts : List Nat} {c d : Chip} (f : Frame (cplRegs q) ts c { d with host := c.host }) :
    Frame (cplRegs q) ts c { endAction x status result d with host := c.host } := by
  subst hq
  rw [endAction_live hl]
  exact frame_putNum_quiet _ _ (by simp) (frame_putNum_quiet _ _ (by simp) (frame_putNum_quiet _ _ (by simp) f))

end

/-- Beside the registers and the host's own state, the end of an action changes nothing. -/
theorem endAction_rest (x : Taken) (status result : Nat) (d : Chip) :
    ∃ r h, endAction x status result d = { d with regs := r, host := h } := by
  unfold endAction
  split <;> exact ⟨_, _, rfl⟩

@[simp] theorem endAction_jobs (x : Taken) (status result : Nat) (d : Chip) : (endAction x status result d).jobs = d.jobs := by
  obtain ⟨r, h, he⟩ := endAction_rest x status result d
  rw [he]

@[simp] theorem endAction_tile (x : Taken) (status result : Nat) (d : Chip) (t : Nat) : tile (endAction x status result d) t = tile d t := by
  obtain ⟨r, h, he⟩ := endAction_rest x status result d
  rw [he]
  rfl

@[simp] theorem endAction_loading (x : Taken) (status result : Nat) (d : Chip) : (endAction x status result d).loading = d.loading := by
  obtain ⟨r, h, he⟩ := endAction_rest x status result d
  rw [he]

@[simp] theorem endAction_power (x : Taken) (status result : Nat) (d : Chip) : (endAction x status result d).power = d.power := by
  obtain ⟨r, h, he⟩ := endAction_rest x status result d
  rw [he]

/-! ### Arguments of a command -/

theorem ofBytes_lt (bs : List Byte) : ofBytes bs < 256 ^ bs.length := by
  induction bs with
  | nil => decide
  | cons b bs ih =>
    have hb := b.isLt
    simp only [ofBytes, List.length_cons, Nat.pow_succ]
    omega

theorem cmdArg_lt (x : Taken) (o n : Nat) : cmdArg x o n < 256 ^ n := by
  refine Nat.lt_of_lt_of_le (ofBytes_lt _) (Nat.pow_le_pow_right (by decide) ?_)
  simp

end Sys2Proof.Machine
end

section
/-!
PROOFS. The commands LABEL, FREEZE and LICENCE (R223, R230, R390).
-/

namespace Sys2Proof.Machine

open Sys2Proof.Safety

/-! ### Commands that are run -/

section
variable {q : Fin 32} {s : State} {x : Taken} (ht : takenOf s.chip q = some x) (hp : x.phase < 2)
include ht hp

theorem completes_cmdNop (ho : nAt x.record 0 2 = 0) : Completes (.cmdNop q) s (endAction x 0 0 s.chip) := by
  rw [← runCommand_of_taken (f := fun x => endAction x 0 0) ht ho hp]
  exact done_eq ..

theorem completes_cmdImgLoad (ho : nAt x.record 0 2 = 1) : Completes (.cmdImgLoad q) s (cmdImgLoad x s.chip) := by
  rw [← runCommand_of_taken (f := cmdImgLoad) ht ho hp]
  exact done_eq ..

theorem completes_cmdJobStop (ho : nAt x.record 0 2 = 2) : Completes (.cmdJobStop q) s (cmdJobStop x s.chip) := by
  rw [← runCommand_of_taken (f := cmdJobStop) ht ho hp]
  exact done_eq ..

theorem completes_cmdLabel (ho : nAt x.record 0 2 = 3) : Completes (.cmdLabel q) s (cmdLabel x s.chip) := by
  rw [← runCommand_of_taken (f := cmdLabel) ht ho hp]
  exact done_eq ..

theorem completes_cmdFreeze (ho : nAt x.record 0 2 = 4) : Completes (.cmdFreeze q) s (cmdFreeze x s.chip) := by
  rw [← runCommand_of_taken (f := cmdFreeze) ht ho hp]
  exact done_eq ..

theorem completes_cmdLicence (ho : nAt x.record 0 2 = 5) : Completes (.cmdLicence q) s (cmdLicence x s.chip) := by
  rw [← runCommand_of_taken (f := cmdLicence) ht ho hp]
  exact done_eq ..

theorem completes_cmdDeviceState (ho : nAt x.record 0 2 = 6) : Completes (.cmdDeviceState q) s (cmdDeviceState x s.chip) := by
  rw [← runCommand_of_taken (f := cmdDeviceState) ht ho hp]
  exact done_eq ..

end

/-! ### An answer alone -/

/-- What a command answers and, beside the answer, leaves. -/
def AnswersWith (i : Instr) (s : State) (q : Nat) (x : Taken) (status result : Nat) (more : Chip → Prop) : Prop :=
  ∃ c', Completes i s c' ∧ Answered q x status result c' ∧ more c'

/-- A command that answers and does nothing else. -/
theorem answersWith_only {i : Instr} {s : State} {q : Nat} {x : Taken} {status result : Nat} (ht : takenOf s.chip q = some x)
    (hl : x.live = true) (hc : Completes i s (endAction x status result s.chip)) :
    AnswersWith i s q x status result (fun c' => Frame (cplRegs q) [] s.chip { c' with host := s.chip.host }) :=
  ⟨_, hc, endAction_answers hl status result ht, frame_endAction hl status result (queue_of_takenOf ht) (frame_refl ..)⟩

/-! ### LABEL (R230) -/

/-- The word by which a label is pushed holds its step and its class. -/
theorem fields_of_labelWord {step cls : Nat} (hs : step < 65536) (hc : cls < 32) :
    fld (BitVec.ofNat 32 (step * 65536 + cls)) 31 16 = step ∧ fld (BitVec.ofNat 32 (step * 65536 + cls)) 4 0 = cls := by
  have hmod : (step * 65536 + cls) % 4294967296 = step * 65536 + cls := by omega
  constructor
  · simp only [fld, bits, BitVec.toNat_ofNat, Nat.reducePow, Nat.reduceAdd, Nat.reduceSub, hmod]
    omega
  · simp only [fld, bits, BitVec.toNat_ofNat, Nat.reducePow, Nat.reduceAdd, Nat.reduceSub, hmod]
    omega

theorem cmdLabel_without {x : Taken} {c : Chip} (h : labelTile c (cmdArg x 0 1) = none) : cmdLabel x c = endAction x 2 0 c := by
  simp [cmdLabel, h]

section
variable {x : Taken} {c : Chip} {t : Nat} (h : labelTile c (cmdArg x 0 1) = some t)
include h

theorem cmdLabel_beyond (hk : rfld c (Reg.LRN_LABEL_NRN t) 30 26 < cmdArg x 1 1) : cmdLabel x c = endAction x 2 0 c := by
  simp [cmdLabel, h, hk]

theorem cmdLabel_queues (hk : cmdArg x 1 1 ≤ rfld c (Reg.LRN_LABEL_NRN t) 30 26) (hn : (tile c t).lrn.labels.length < 8) :
    cmdLabel x c = endAction x 0 0 (modLrn t (fun L => { L with labels := L.labels ++ [(cmdArg x 2 2, cmdArg x 1 1)] }) c) := by
  have hcls : rfld c (Reg.LRN_LABEL_NRN t) 30 26 < 32 := Nat.mod_lt _ (by decide)
  obtain ⟨hs, hc⟩ := fields_of_labelWord (step := cmdArg x 2 2) (cls := cmdArg x 1 1) (cmdArg_lt x 2 2) (by omega)
  have hfree : ¬ (rfld c (Reg.LRN_LABEL_NRN t) 30 26 < cmdArg x 1 1 ∨ 8 ≤ (tile c t).lrn.labels.length) := by omega
  simp only [cmdLabel, h, if_neg (Nat.not_lt.2 hk), labelPush, hs, hc, hfree, if_false]

end

/-! ### FREEZE (R223) -/

/-- FREEZE set or cleared on the tiles `ts`. -/
def freezeTiles (b : Bool) (ts : List Nat) (c : Chip) : Chip := forAll (fun t => setBit (Reg.LRN_CTRL t) 1 b) ts c

theorem LRN_CTRL_inj {t u : Nat} (h : t ≠ u) : Reg.LRN_CTRL t ≠ Reg.LRN_CTRL u := by unfold Reg.LRN_CTRL; omega

theorem rflag_setBit_freeze {t u : Nat} {b : Bool} {c : Chip} (h : rflag c (Reg.LRN_CTRL t) 1 = b) :
    rflag (setBit (Reg.LRN_CTRL u) 1 b c) (Reg.LRN_CTRL t) 1 = b := by
  by_cases htu : t = u
  · rw [htu, rflag_setBit_same _ (by decide)]
  · rw [rflag_congr (reg_setBit_ne (LRN_CTRL_inj htu) ..), h]

theorem freezeTiles_reaches (b : Bool) (ts : List Nat) (c : Chip) : ∀ t ∈ ts, rflag (freezeTiles b ts c) (Reg.LRN_CTRL t) 1 = b :=
  forAll_reaches (I := fun _ => True) (P := fun t d => rflag d (Reg.LRN_CTRL t) 1 = b) (fun _ _ _ => trivial)
    (fun t c _ => rflag_setBit_same _ (by decide) ..) (fun _ _ _ h => rflag_setBit_freeze h) ts c trivial

theorem freezeTiles_keeps {b : Bool} {t : Nat} (ts : List Nat) {c : Chip} (h : rflag c (Reg.LRN_CTRL t) 1 = b) :
    rflag (freezeTiles b ts c) (Reg.LRN_CTRL t) 1 = b :=
  forAll_keeps (P := fun d => rflag d (Reg.LRN_CTRL t) 1 = b) ts (fun _ _ _ hd => rflag_setBit_freeze hd) c h

/-- FREEZE leaves LEARN of every tile as it is. -/
theorem learn_freezeTiles (b : Bool) (ts : List Nat) (c : Chip) (t : Nat) :
    rflag (freezeTiles b ts c) (Reg.LRN_CTRL t) 0 = rflag c (Reg.LRN_CTRL t) 0 := by
  refine forAll_leaves (fun d => rflag d (Reg.LRN_CTRL t) 0) ts (fun u d => ?_) c
  by_cases htu : t = u
  · rw [htu, rflag_setBit_bit _ (by decide) (by decide)]
  · rw [rflag_congr (reg_setBit_ne (LRN_CTRL_inj htu) ..)]

theorem host_freezeTiles (b : Bool) (ts : List Nat) (c : Chip) : (freezeTiles b ts c).host = c.host :=
  forAll_leaves Chip.host (f := fun t => setBit (Reg.LRN_CTRL t) 1 b) ts (fun _ _ => rfl) c

theorem jobs_freezeTiles (b : Bool) (ts : List Nat) (c : Chip) : (freezeTiles b ts c).jobs = c.jobs :=
  forAll_leaves Chip.jobs (f := fun t => setBit (Reg.LRN_CTRL t) 1 b) ts (fun _ _ => rfl) c

theorem learners_congr {c d : Chip} (hj : d.jobs = c.jobs) (hl : ∀ t, rflag d (Reg.LRN_CTRL t) 0 = rflag c (Reg.LRN_CTRL t) 0) (j : Nat) :
    learners d j = learners c j := by
  have ht : jobTiles d j = jobTiles c j := by simp [jobTiles, jobFields, jobAt, hj]
  simp [learners, ht, hl]

/-- The jobs that FREEZE names and that learn. -/
def freezeJobs (x : Taken) (c : Chip) : List Nat := (setBits 16 (cmdArg x 0 2)).filter (fun j => !(learners c j).isEmpty)

/-- FREEZE carried out on the jobs `js`. -/
def freezeAll (b : Bool) (js : List Nat) (c : Chip) : Chip := forAll (fun j c => freezeTiles b (learners c j) c) js c

theorem cmdFreeze_eq (x : Taken) (c : Chip) :
    cmdFreeze x c = endAction x 0 (((freezeJobs x c).map (2 ^ ·)).foldl (· + ·) 0) (freezeAll (cmdArg x 2 1 == 1) (freezeJobs x c) c) := rfl

/-- Every learning tile of the jobs reads the bit that was written. -/
theorem freezeAll_reaches (b : Bool) (js : List Nat) (c : Chip) :
    ∀ j ∈ js, ∀ t ∈ learners c j, rflag (freezeAll b js c) (Reg.LRN_CTRL t) 1 = b := by
  refine forAll_reaches (I := fun d => ∀ j, learners d j = learners c j)
    (P := fun j d => ∀ t ∈ learners c j, rflag d (Reg.LRN_CTRL t) 1 = b) (fun j d hd i => ?_) (fun j d hd t ht => ?_)
    (fun j i d hd t ht => freezeTiles_keeps _ (hd t ht)) js c (fun _ => rfl)
  · rw [learners_congr (jobs_freezeTiles ..) (learn_freezeTiles b _ d), hd]
  · exact freezeTiles_reaches b _ d t (by rwa [hd])

theorem host_freezeAll (b : Bool) (js : List Nat) (c : Chip) : (freezeAll b js c).host = c.host :=
  forAll_leaves Chip.host js (fun _ _ => host_freezeTiles ..) c

theorem mem_setBits {n m j : Nat} : j ∈ setBits n m ↔ j < n ∧ bit m j = true := by simp [setBits]

theorem mem_freezeJobs {x : Taken} {c : Chip} {j t : Nat} (hj : j < 16) (hb : bit (cmdArg x 0 2) j = true) (ht : t ∈ learners c j) :
    j ∈ freezeJobs x c := by
  refine List.mem_filter.2 ⟨mem_setBits.2 ⟨hj, hb⟩, ?_⟩
  simpa using List.ne_nil_of_mem ht

theorem LRN_CTRL_ne_CPL_DATA {q i : Nat} (_hq : q < 32) (_hi : i < 3) (t : Nat) : Reg.LRN_CTRL t ≠ Reg.HIF_CQ_CPL_DATA q i := by
  unfold Reg.LRN_CTRL Reg.HIF_CQ_CPL_DATA; omega

/-! ### LICENCE (R390) -/

/-- A plain write touches its own register at most. -/
theorem plainWrite_cases (a : Nat) (v : Word) (c : Chip) :
    ∃ r, plainWrite a v c = { c with regs := r } ∧ ∀ b, b ≠ a → reg { c with regs := r } b = reg c b := by
  unfold plainWrite
  split
  · exact ⟨_, rfl, fun b hb => reg_setReg_ne _ c hb⟩
  · exact ⟨_, rfl, fun b _ => rfl⟩

theorem reg_plainWrite_ne {a b : Nat} (h : b ≠ a) (v : Word) (c : Chip) : reg (plainWrite a v c) b = reg c b := by
  obtain ⟨r, he, hr⟩ := plainWrite_cases a v c
  rw [he, hr b h]

@[simp] theorem plainWrite_host (a : Nat) (v : Word) (c : Chip) : (plainWrite a v c).host = c.host := by
  obtain ⟨r, he, -⟩ := plainWrite_cases a v c
  rw [he]

@[simp] theorem plainWrite_secQ (a : Nat) (v : Word) (c : Chip) : (plainWrite a v c).secQ = c.secQ := by
  obtain ⟨r, he, -⟩ := plainWrite_cases a v c
  rw [he]

theorem reg_setPair_ne {lo hi b : Nat} (hl : b ≠ lo) (hh : b ≠ hi) (n : Nat) (c : Chip) : reg (setPair lo hi n c) b = reg c b := by
  rw [setPair, reg_plainWrite_ne hh, reg_plainWrite_ne hl]

@[simp] theorem setPair_host (lo hi n : Nat) (c : Chip) : (setPair lo hi n c).host = c.host := by simp [setPair]

@[simp] theorem setPair_secQ (lo hi n : Nat) (c : Chip) : (setPair lo hi n c).secQ = c.secQ := by simp [setPair]

/-- The licence's record named, as LICENCE writes it. -/
def licNamed (x : Taken) (c : Chip) : Chip :=
  c |> setPair Reg.LIC_ADDR_LO Reg.LIC_ADDR_HI (cmdArg x 0 8) |> plainWrite Reg.LIC_LEN (BitVec.ofNat 32 (cmdArg x 8 4))

theorem licState_licNamed (x : Taken) (c : Chip) : licState (licNamed x c) = licState c := by
  refine rfld_congr ?_
  rw [licNamed, reg_plainWrite_ne (by decide), reg_setPair_ne (by decide) (by decide)]

theorem cmdLicence_waits {x : Taken} {c : Chip} (h : licState c = 1) : cmdLicence x c = c := by simp [cmdLicence, h]

theorem cmdLicence_answers {x : Taken} {c : Chip} (h : licState c ≠ 1) (hp : x.phase = 1) :
    cmdLicence x c = endAction x (if rfld c Reg.LIC_STATUS 7 0 = 0 then 0 else 4) (rfld c Reg.LIC_STATUS 7 0) c := by
  simp [cmdLicence, h, hp]

theorem licBegin_of_free {c : Chip} (h : licState c ≠ 1) :
    licBegin c = putNum Reg.LIC_STATUS (2 ^ 29) { c with secQ := c.secQ ++ [{ src := 3, op := 0, seq := 0 }] } := if_neg h

/-- A licence load that begins is queued for the Thistle core. -/
theorem licBegin_queues {c : Chip} (h : licState c ≠ 1) :
    licState (licBegin c) = 1 ∧ (licBegin c).secQ = c.secQ ++ [{ src := 3, op := 0, seq := 0 }] ∧ (licBegin c).host = c.host := by
  rw [licBegin_of_free h]
  exact ⟨(congrArg (fld · 31 29) (reg_putNum_same ..)).trans (by decide), rfl, rfl⟩

/-- LICENCE begins: the load is queued for the Thistle core, and the command's action has begun. -/
theorem cmdLicence_begins {x : Taken} {c : Chip} {q : Nat} (ht : takenOf c q = some x) (h : licState c ≠ 1) (hp : x.phase = 0) :
    takenOf (cmdLicence x c) q = some { x with phase := 1 } ∧ licState (cmdLicence x c) = 1 ∧
      (cmdLicence x c).secQ = c.secQ ++ [{ src := 3, op := 0, seq := 0 }] := by
  have he : cmdLicence x c = beginAction x.queue (licBegin (licNamed x c)) := by
    simp only [cmdLicence, h, hp, if_false, if_true]
    rfl
  have hhost : (licNamed x c).host = c.host := by simp [licNamed]
  have hsec : (licNamed x c).secQ = c.secQ := by simp [licNamed]
  obtain ⟨hl, hs, hh⟩ := licBegin_queues (c := licNamed x c) (by rwa [licState_licNamed])
  rw [he]
  refine ⟨takenOf_beginAction ?_, hl, hs.trans (by rw [hsec])⟩
  exact (takenOf_congr (by rw [hh, hhost]) q).trans ht

end Sys2Proof.Machine
end

section
/-!
PROOFS. The command IMG_LOAD up to the acceptance of its image (R380, R384).
-/

namespace Sys2Proof.Machine

open Sys2Proof.Safety

/-! ### Addresses written to register pairs -/

/-- Register `a` stores the bits of the mask `m` and has no others. -/
def StoresBits (a m : Nat) : Prop := (regRow a).map (fun r => (r.rw, r.ro, r.w1c)) = some (m, 0, 0)

theorem reg_plainWrite_same {a m : Nat} (h : StoresBits a m) (v : Word) (c : Chip) :
    reg (plainWrite a v c) a = v &&& BitVec.ofNat 32 m := by
  obtain ⟨r, hr, hm⟩ := Option.map_eq_some_iff.1 h
  obtain ⟨hrw, hro, hw1c⟩ : r.rw = m ∧ r.ro = 0 ∧ r.w1c = 0 := by simpa using hm
  rw [(plainWrite_stores hr v c).1, storeWord, hrw, hro, hw1c]
  simp

/-- The high register of a pair holds bits 36 to 32. -/
theorem rfld_setPair_hi {lo hi : Nat} (hh : StoresBits hi 31) (n : Nat) (c : Chip) : rfld (setPair lo hi n c) hi 4 0 = n / 2 ^ 32 % 32 := by
  rw [rfld, setPair, reg_plainWrite_same hh, fld_and_of_ones (by decide), fld, bits, BitVec.toNat_ofNat]
  omega

section
variable {lo hi : Nat} (hne : lo ≠ hi) (n : Nat) (c : Chip)
include hne

/-- The low register of a pair of 64-byte units holds bits 31 to 6. -/
theorem rfld_setPair_lo (hl : StoresBits lo 0xFFFFFFC0) : rfld (setPair lo hi n c) lo 31 6 = n % 2 ^ 32 / 64 := by
  rw [rfld, setPair, reg_plainWrite_ne hne, reg_plainWrite_same hl, fld_and_of_ones (by decide), fld, bits, BitVec.toNat_ofNat]
  omega

/-- The low register of a pair of bytes holds bits 31 to 0. -/
theorem reg_setPair_lo (hl : StoresBits lo 0xFFFFFFFF) : (reg (setPair lo hi n c) lo).toNat = n % 2 ^ 32 := by
  have hm : BitVec.ofNat 32 0xFFFFFFFF = BitVec.allOnes 32 := by decide
  rw [setPair, reg_plainWrite_ne hne, reg_plainWrite_same hl, hm, BitVec.and_allOnes, BitVec.toNat_ofNat]

end

theorem storesBits_IMG_SRC_LO : StoresBits Reg.IMG_SRC_LO 0xFFFFFFC0 := by unfold StoresBits; decide +kernel
theorem storesBits_IMG_SRC_HI : StoresBits Reg.IMG_SRC_HI 31 := by unfold StoresBits; decide +kernel
theorem storesBits_IMG_LEN_LO : StoresBits Reg.IMG_LEN_LO 0xFFFFFFFF := by unfold StoresBits; decide +kernel
theorem storesBits_IMG_LEN_HI : StoresBits Reg.IMG_LEN_HI 31 := by unfold StoresBits; decide +kernel
theorem storesBits_IMG_PLAIN_LO : StoresBits Reg.IMG_PLAIN_LO 0xFFFFFFC0 := by unfold StoresBits; decide +kernel
theorem storesBits_IMG_PLAIN_HI : StoresBits Reg.IMG_PLAIN_HI 31 := by unfold StoresBits; decide +kernel

/-! ### VERIFY for a command -/

/-- The image named by the arguments of IMG_LOAD. -/
def imgNamed (x : Taken) (c : Chip) : Chip :=
  c |> setPair Reg.IMG_SRC_LO Reg.IMG_SRC_HI (cmdArg x 0 8) |> setPair Reg.IMG_LEN_LO Reg.IMG_LEN_HI (cmdArg x 8 8)
    |> setPair Reg.IMG_PLAIN_LO Reg.IMG_PLAIN_HI (cmdArg x 16 8)

theorem imgState_imgNamed (x : Taken) (c : Chip) : imgState (imgNamed x c) = imgState c := by
  refine rfld_congr ?_
  rw [imgNamed, reg_setPair_ne (by decide) (by decide), reg_setPair_ne (by decide) (by decide), reg_setPair_ne (by decide) (by decide)]

theorem imgSrc_imgNamed (x : Taken) (c : Chip) : imgSrc (imgNamed x c) = cmdArg x 0 8 % 2 ^ 37 / 64 * 64 := by
  have hr {a : Nat} (h1 : a ≠ Reg.IMG_LEN_LO) (h2 : a ≠ Reg.IMG_LEN_HI) (h3 : a ≠ Reg.IMG_PLAIN_LO) (h4 : a ≠ Reg.IMG_PLAIN_HI) :
      reg (imgNamed x c) a = reg (setPair Reg.IMG_SRC_LO Reg.IMG_SRC_HI (cmdArg x 0 8) c) a := by
    rw [imgNamed, reg_setPair_ne h3 h4, reg_setPair_ne h1 h2]
  rw [imgSrc, rfld_congr (hr (by decide) (by decide) (by decide) (by decide)),
    rfld_congr (hr (by decide) (by decide) (by decide) (by decide)),
    rfld_setPair_hi storesBits_IMG_SRC_HI, rfld_setPair_lo (by decide) _ _ storesBits_IMG_SRC_LO]
  omega

theorem imgLen_imgNamed (x : Taken) (c : Chip) : imgLen (imgNamed x c) = cmdArg x 8 8 % 2 ^ 37 := by
  have hr {a : Nat} (h3 : a ≠ Reg.IMG_PLAIN_LO) (h4 : a ≠ Reg.IMG_PLAIN_HI) :
      reg (imgNamed x c) a = reg (setPair Reg.IMG_LEN_LO Reg.IMG_LEN_HI (cmdArg x 8 8)
        (setPair Reg.IMG_SRC_LO Reg.IMG_SRC_HI (cmdArg x 0 8) c)) a := reg_setPair_ne h3 h4 ..
  rw [imgLen, rfld_congr (hr (by decide) (by decide)), hr (by decide) (by decide),
    rfld_setPair_hi storesBits_IMG_LEN_HI, reg_setPair_lo (by decide) _ _ storesBits_IMG_LEN_LO]
  omega

theorem imgPlain_imgNamed (x : Taken) (c : Chip) : imgPlain (imgNamed x c) = cmdArg x 16 8 % 2 ^ 37 / 64 * 64 := by
  rw [imgPlain, imgNamed, rfld_setPair_hi storesBits_IMG_PLAIN_HI,
    rfld_setPair_lo (by decide) _ _ storesBits_IMG_PLAIN_LO]
  omega

/-- A verification that begins: STATE 1, and its job behind those of the Thistle core. -/
theorem verifyBegin_begins {c : Chip} (h1 : imgState c ≠ 1) (h2 : imgState c ≠ 2) :
    imgState (verifyBegin c) = 1 ∧ (verifyBegin c).secQ = c.secQ ++ [{ src := 2, op := 0, seq := 0 }] ∧
      (verifyBegin c).host = c.host ∧ ∀ a, a ≠ Reg.IMG_STATUS → reg (verifyBegin c) a = reg c a := by
  have he : verifyBegin c = putNum Reg.IMG_STATUS (2 ^ 29)
      { c with secQ := c.secQ ++ [{ src := 2, op := 0, seq := 0 }], askedGrants := latchGrants c } := if_neg (by simp [h1, h2])
  rw [he]
  exact ⟨(congrArg (fld · 31 29) (reg_putNum_same ..)).trans (by decide), rfl, rfl, fun a ha => reg_putNum_ne ha ..⟩

/-- A refused verification shows in IMG_STATUS alone. -/
theorem verifyBegin_refused {c : Chip} (h : imgState c = 1 ∨ imgState c = 2) : verifyBegin c = setBit Reg.IMG_STATUS 28 true c :=
  if_pos h

/-! ### The answers of IMG_LOAD -/

section
variable {x : Taken} {c : Chip}

theorem cmdImgLoad_refused (hp : x.phase = 0) (h : imgState c = 1 ∨ imgState c = 2) :
    cmdImgLoad x c = endAction x 3 0 (setBit Reg.IMG_STATUS 28 true c) := by
  rw [cmdImgLoad, if_pos hp, if_pos h, verifyBegin_refused h]

theorem cmdImgLoad_busy (hp : x.phase = 0) (h1 : imgState c ≠ 1) (h2 : imgState c ≠ 2) (hb : loadBusy c = true) : cmdImgLoad x c = c := by
  rw [cmdImgLoad, if_pos hp, if_neg (by simp [h1, h2]), if_pos hb]

theorem cmdImgLoad_begins {q : Nat} (ht : takenOf c q = some x) (hp : x.phase = 0) (h1 : imgState c ≠ 1) (h2 : imgState c ≠ 2)
    (hb : loadBusy c = false) :
    takenOf (cmdImgLoad x c) q = some { x with phase := 1 } ∧ imgState (cmdImgLoad x c) = 1 ∧
      imgSrc (cmdImgLoad x c) = cmdArg x 0 8 % 2 ^ 37 / 64 * 64 ∧ imgLen (cmdImgLoad x c) = cmdArg x 8 8 % 2 ^ 37 ∧
      imgPlain (cmdImgLoad x c) = cmdArg x 16 8 % 2 ^ 37 / 64 * 64 ∧
      (cmdImgLoad x c).secQ = c.secQ ++ [{ src := 2, op := 0, seq := 0 }] := by
  have he : cmdImgLoad x c = beginAction x.queue (verifyBegin (imgNamed x c)) := by
    rw [cmdImgLoad, if_pos hp, if_neg (by simp [h1, h2]), if_neg (by simp [hb])]
    rfl
  have hhost : (imgNamed x c).host = c.host := by simp [imgNamed]
  have hsec : (imgNamed x c).secQ = c.secQ := by simp [imgNamed]
  obtain ⟨hs, hq, hh, hr⟩ := verifyBegin_begins (c := imgNamed x c) (by rwa [imgState_imgNamed]) (by rwa [imgState_imgNamed])
  have hreg {a : Nat} (ha : a ≠ Reg.IMG_STATUS) : reg (beginAction x.queue (verifyBegin (imgNamed x c))) a = reg (imgNamed x c) a := hr a ha
  rw [he]
  refine ⟨takenOf_beginAction ((takenOf_congr (by rw [hh, hhost]) q).trans ht), hs, ?_, ?_, ?_, hq.trans (by rw [hsec])⟩
  · rw [← imgSrc_imgNamed x c, imgSrc, imgSrc, rfld_congr (hreg (by decide)), rfld_congr (hreg (by decide))]
  · rw [← imgLen_imgNamed x c, imgLen, imgLen, rfld_congr (hreg (by decide)), hreg (by decide)]
  · rw [← imgPlain_imgNamed x c, imgPlain, imgPlain, rfld_congr (hreg (by decide)), rfld_congr (hreg (by decide))]

section
variable (hp : x.phase = 1) (hl : c.loading = 0)
include hp hl

theorem cmdImgLoad_verifying (h : imgState c = 1) : cmdImgLoad x c = c := by simp [cmdImgLoad, hp, hl, h]

theorem cmdImgLoad_failed (h : imgState c = 3) :
    cmdImgLoad x c = endAction x 4 (rfld c Reg.IMG_STATUS 27 16 * 65536 + rfld c Reg.IMG_STATUS 7 0) c := by
  simp [cmdImgLoad, hp, hl, h]

theorem cmdImgLoad_aborted (h : imgState c = 0 ∨ 3 < imgState c) : cmdImgLoad x c = endAction x 4 0x21 c := by
  rw [cmdImgLoad, if_neg (by simp [hp]), if_neg (by simp [hl])]
  split
  · omega
  · omega
  · omega
  · rfl

end

end

end Sys2Proof.Machine
end

section
/-!
PROOFS. The commands JOB_STOP and IMG_LOAD where they stop jobs: a stopped job's timebases, an accepted and a rejected image
(R66, R378, R380, R384).
-/

namespace Sys2Proof.Machine

open Sys2Proof.Safety

/-! ### What stopping a job leaves -/

theorem host_tbDisable (k : Nat) (c : Chip) : (tbDisable k c).host = c.host := by
  unfold tbDisable
  split <;> rfl

theorem reg_tbDisable {k a : Nat} (h : a ≠ Reg.TICK_TB_CTRL k) (c : Chip) : reg (tbDisable k c) a = reg c a := by
  unfold tbDisable
  split
  · rw [reg_setBit_ne h, reg_setBit_ne h]
  · rfl

@[simp] theorem watch_clearSeqEn (t : Nat) (c : Chip) : watch (clearSeqEn t c) = watch c := by
  rw [clearSeqEn, watch_modTile, watch_setBit (by unfold Watched Reg.TILE_CTRL; omega)]

@[simp] theorem watch_injStop (t : Nat) (c : Chip) : watch (injStop t c) = watch c :=
  watch_setBit (by unfold Watched Reg.RTR_CTRL; omega) ..

/-- The timebases of job `j` disabled. -/
def disableJob (j : Nat) (c : Chip) : Chip := forAll tbDisable (jobTimebases c j) c

/-- Beside its timebases, stopping a job touches nothing that is watched. -/
theorem watch_stopJob (tiles : Bool) (j : Nat) (c : Chip) : watch (stopJob tiles j c) = watch (disableJob j c) := by
  unfold stopJob
  rw [watch_when _ _ (watch_forAll _ (fun t d => watch_when _ _ (watch_clearSeqEn t d)) _), watch_forAll _ watch_encRunClear]
  rfl

theorem host_stopJob (tiles : Bool) (j : Nat) (c : Chip) : (stopJob tiles j c).host = c.host :=
  (host_of_watch (watch_stopJob tiles j c)).trans (forAll_leaves Chip.host _ host_tbDisable c)

theorem watched_IMG_RESULT : Watched Reg.IMG_RESULT := by unfold Watched Reg.IMG_RESULT; omega

theorem imgResult_stopJob (tiles : Bool) (j : Nat) (c : Chip) : reg (stopJob tiles j c) Reg.IMG_RESULT = reg c Reg.IMG_RESULT :=
  (reg_of_watch (watch_stopJob tiles j c) watched_IMG_RESULT).trans
    (forAll_leaves (fun d => reg d Reg.IMG_RESULT) _
      (fun k d => reg_tbDisable (by unfold Reg.IMG_RESULT Reg.TICK_TB_CTRL; omega) d) c)

theorem imgResult_askStops (I : Image) (c : Chip) : reg (askStops I c) Reg.IMG_RESULT = reg c Reg.IMG_RESULT := by
  unfold askStops
  extract_lets r
  refine (reg_of_watch (watch_when _ _ ?_) watched_IMG_RESULT).trans ?_
  · exact watch_forAll _ watch_injStop _
  exact forAll_leaves (fun d => reg d Reg.IMG_RESULT) _ (fun j d => imgResult_stopJob (bit I.replaces j) j d) c

/-! ### The timebases of a stopped job (R66) -/

/-- Timebase `k` has its control word as it was, or is disabled. -/
def KeptOrStopped (k : Nat) (c c' : Chip) : Prop :=
  reg c' (Reg.TICK_TB_CTRL k) = reg c (Reg.TICK_TB_CTRL k) ∨ tbEnabled c' k = false

theorem keptOrStopped_trans {k : Nat} {c c' c'' : Chip} (h : KeptOrStopped k c c') (h' : KeptOrStopped k c' c'') :
    KeptOrStopped k c c'' := by
  rcases h' with h' | h'
  · rcases h with h | h
    · exact .inl (h'.trans h)
    · exact .inr ((rflag_congr h').trans h)
  · exact .inr h'

theorem stopped_of_kept {k : Nat} {c c' : Chip} (h : KeptOrStopped k c c') (hs : tbEnabled c k = false) : tbEnabled c' k = false := by
  rcases h with h | h
  · exact (rflag_congr h).trans hs
  · exact h

theorem tbDisable_stops (k : Nat) (c : Chip) : tbEnabled (tbDisable k c) k = false := by
  cases he : tbEnabled c k with
  | true => exact (tbDisable_enabled he).1
  | false => rwa [tbDisable_disabled he]

theorem keptOrStopped_tbDisable (k i : Nat) (c : Chip) : KeptOrStopped k c (tbDisable i c) := by
  by_cases h : k = i
  · subst h
    exact .inr (tbDisable_stops k c)
  · exact .inl (reg_tbDisable (by unfold Reg.TICK_TB_CTRL; omega) c)

theorem disableJob_stops (j : Nat) (c : Chip) : ∀ k ∈ jobTimebases c j, tbEnabled (disableJob j c) k = false :=
  forAll_reaches (I := fun _ => True) (P := fun k d => tbEnabled d k = false) (fun _ _ _ => trivial) (fun k d _ => tbDisable_stops k d)
    (fun i k d hd => stopped_of_kept (keptOrStopped_tbDisable k i d) hd) _ c trivial

theorem keptOrStopped_disableJob (k j : Nat) (c : Chip) : KeptOrStopped k c (disableJob j c) :=
  forAll_keeps (P := KeptOrStopped k c) _ (fun i _ d hd => keptOrStopped_trans hd (keptOrStopped_tbDisable k i d)) c (.inl rfl)

section
variable {k : Nat} (hk : k < 16)
include hk

theorem ctrl_stopJob (tiles : Bool) (j : Nat) (c : Chip) :
    reg (stopJob tiles j c) (Reg.TICK_TB_CTRL k) = reg (disableJob j c) (Reg.TICK_TB_CTRL k) :=
  reg_of_watch (watch_stopJob tiles j c) (watched_TICK_TB_CTRL hk)

theorem keptOrStopped_stopJob (tiles : Bool) (j : Nat) (c : Chip) : KeptOrStopped k c (stopJob tiles j c) := by
  rcases keptOrStopped_disableJob k j c with h | h
  · exact .inl ((ctrl_stopJob hk tiles j c).trans h)
  · exact .inr ((rflag_congr (ctrl_stopJob hk tiles j c)).trans h)

theorem mem_jobTimebases {c : Chip} {j : Nat} : k ∈ jobTimebases c j ↔ tbRuns c k = true ∧ jobOfTb c k = j := by
  simp [jobTimebases, hk]

/-- A job's stop disables its timebase, unless that is disabled already. -/
theorem stopJob_stops {c d : Chip} (tiles : Bool) (hr : tbRuns c k = true) (h : KeptOrStopped k c d) :
    tbEnabled (stopJob tiles (jobOfTb c k) d) k = false := by
  rcases h with h | h
  · have hrd : tbRuns d k = true := by rw [← hr, tbRuns, tbRuns, tbEnabled, tbEnabled, stopPending, stopPending, rflag_congr h, rflag_congr h]
    have hm : k ∈ jobTimebases d (jobOfTb c k) := (mem_jobTimebases hk).2 ⟨hrd, rfld_congr h⟩
    exact (rflag_congr (ctrl_stopJob hk tiles _ d)).trans (disableJob_stops _ d k hm)
  · exact stopped_of_kept (keptOrStopped_stopJob hk tiles _ d) h

/-- Once every job of a list is stopped, the timebases that ran them are disabled. -/
theorem stopJobs_stop {c : Chip} (tiles : Bool) {js : List Nat} (hr : tbRuns c k = true) (hj : jobOfTb c k ∈ js) :
    tbEnabled (forAll (stopJob tiles) js c) k = false :=
  forAll_reaches (I := KeptOrStopped k c) (P := fun j d => jobOfTb c k = j → tbEnabled d k = false)
    (fun j d hd => keptOrStopped_trans hd (keptOrStopped_stopJob hk tiles j d))
    (fun j d hd he => by rw [← he]; exact stopJob_stops hk tiles hr hd)
    (fun i j d hd he => stopped_of_kept (keptOrStopped_stopJob hk tiles i d) (hd he)) js c (.inl rfl) _ hj rfl

end

/-! ### Floors and points (R378, R432) -/

theorem not_watched_halfReg (e : Bool) : ¬ Watched (halfReg e) := by
  cases e <;> simp [Watched, halfReg, Reg.PWR_HALF_E, Reg.PWR_HALF_W]

@[simp] theorem watch_refusePoint (e : Bool) (id : Nat) (c : Chip) : watch (refusePoint e id c) = watch c := by
  rw [refusePoint, noteRefusal, watch_putNum (by unfold Watched Reg.PWR_LAST_REFUSE; omega), watch_setFld (not_watched_halfReg e),
    watch_setFld (not_watched_halfReg e)]

@[simp] theorem watch_startChange (e : Bool) (c : Chip) : watch (startChange e c) = watch c := by
  unfold startChange
  split
  · exact watch_raise (not_watched_halfReg e) ..
  · rfl

@[simp] theorem watch_takePoint (e : Bool) (g : Nat) (c : Chip) : watch (takePoint e g c) = watch c := by
  have hs : watch (setFld (halfReg e) 1 0 g c) = watch c := watch_setFld (not_watched_halfReg e) ..
  unfold takePoint
  extract_lets d
  split
  · rw [watch_setBit (not_watched_halfReg e), watch_modHalf, hs]
  · rw [watch_startChange, watch_modHalf, hs]

@[simp] theorem watch_raiseToFloor (e : Bool) (c : Chip) : watch (raiseToFloor e c) = watch c := by
  unfold raiseToFloor
  extract_lets fl
  split
  · rfl
  · split
    · exact watch_refusePoint ..
    · exact watch_takePoint ..

@[simp] theorem watch_floorWrite (v : Word) (c : Chip) : watch (floorWrite v c) = watch c := by
  rw [floorWrite, watch_raiseToFloor, watch_raiseToFloor, watch_setReg (by unfold Watched Reg.PWR_FLOOR; omega)]

@[simp] theorem watch_floorsWithout (js : List Nat) (c : Chip) : watch (floorsWithout js c) = watch c := watch_floorWrite ..

/-! ### JOB_STOP -/

/-- The jobs that JOB_STOP names and that run. -/
def stopJobs (x : Taken) (c : Chip) : List Nat := (setBits 16 (cmdArg x 0 2)).filter (fun j => !(jobTimebases c j).isEmpty)

/-- The named jobs stopped, and the floors of the jobs that are left. -/
def jobsStopped (x : Taken) (c : Chip) : Chip := floorsWithout (stopJobs x c) (forAll (stopJob true) (stopJobs x c) c)

theorem cmdJobStop_eq (x : Taken) (c : Chip) :
    cmdJobStop x c = endAction x 0 (((stopJobs x c).map (2 ^ ·)).foldl (· + ·) 0) (jobsStopped x c) := rfl

theorem host_jobsStopped (x : Taken) (c : Chip) : (jobsStopped x c).host = c.host :=
  (host_of_watch (watch_floorsWithout ..)).trans (forAll_leaves Chip.host _ (host_stopJob true) c)

theorem jobsStopped_stops {x : Taken} {c : Chip} {k : Nat} (hk : k < 16) (hb : bit (cmdArg x 0 2) (jobOfTb c k) = true)
    (hr : tbRuns c k = true) : tbEnabled (jobsStopped x c) k = false := by
  have hm : k ∈ jobTimebases c (jobOfTb c k) := (mem_jobTimebases hk).2 ⟨hr, rfl⟩
  have hj : jobOfTb c k ∈ stopJobs x c :=
    List.mem_filter.2 ⟨mem_setBits.2 ⟨jobOfTb_lt c k, hb⟩, by simpa using List.ne_nil_of_mem hm⟩
  exact (rflag_congr (reg_of_watch (watch_floorsWithout ..) (watched_TICK_TB_CTRL hk))).trans (stopJobs_stop hk true hr hj)

theorem TICK_TB_CTRL_ne_CPL_DATA {k : Nat} (_hk : k < 16) (q i : Nat) : Reg.TICK_TB_CTRL k ≠ Reg.HIF_CQ_CPL_DATA q i := by
  unfold Reg.TICK_TB_CTRL Reg.HIF_CQ_CPL_DATA; omega

/-! ### The load checks of IMG_LOAD (R380, R384) -/

/-- A failed check's refusals by the power controller. -/
def refusalsNoted (I : Image) (r : Nat × Nat × Nat) (c : Chip) : Chip :=
  when_ (r.1 == 0x1E) (fun c => c |> when_ (floorRefused c I false) (refusePoint false 3) |> when_ (floorRefused c I true) (refusePoint true 3)) c

theorem watch_refusalsNoted (I : Image) (r : Nat × Nat × Nat) (c : Chip) : watch (refusalsNoted I r c) = watch c := by
  refine watch_when _ _ ?_
  rw [watch_when _ _ (watch_refusePoint ..), watch_when _ _ (watch_refusePoint ..)]

theorem loading_when {f : Chip → Chip} (b : Bool) (c : Chip) (h : (f c).loading = c.loading) : (when_ b f c).loading = c.loading := by
  cases b
  · rfl
  · exact h

theorem loading_refusalsNoted (I : Image) (r : Nat × Nat × Nat) (c : Chip) : (refusalsNoted I r c).loading = c.loading := by
  refine loading_when _ _ ?_
  exact (loading_when _ _ rfl).trans (loading_when _ _ rfl)

/-- The code and detail of a failed check. -/
def codeNoted (r : Nat × Nat × Nat) (c : Chip) : Chip :=
  c |> putNum Reg.IMG_RESULT (r.1 * 2 ^ 24 + r.2.1 % 65536) |> putNum Reg.IMG_DETAIL r.2.2

theorem resultWord_codeNoted (r : Nat × Nat × Nat) (c : Chip) : resultWord (codeNoted r c) = r.2.1 % 65536 * 65536 + r.1 % 256 := by
  have hr : reg (codeNoted r c) Reg.IMG_RESULT = BitVec.ofNat 32 (r.1 * 2 ^ 24 + r.2.1 % 65536) := by
    rw [codeNoted, reg_putNum_ne (by decide), reg_putNum_same]
  simp only [resultWord, rfld, hr, fld, bits, BitVec.toNat_ofNat]
  omega

theorem putNum_loading (a n : Nat) (c : Chip) : (putNum a n c).loading = c.loading := rfl
theorem putNum_host (a n : Nat) (c : Chip) : (putNum a n c).host = c.host := rfl

theorem codeNoted_loading (r : Nat × Nat × Nat) (c : Chip) : (codeNoted r c).loading = c.loading := by
  rw [codeNoted, putNum_loading, putNum_loading]
theorem codeNoted_host (r : Nat × Nat × Nat) (c : Chip) : (codeNoted r c).host = c.host := by
  rw [codeNoted, putNum_host, putNum_host]
theorem setFld_loading (a hi lo n : Nat) (c : Chip) : (setFld a hi lo n c).loading = c.loading := rfl
theorem setFld_host (a hi lo n : Nat) (c : Chip) : (setFld a hi lo n c).host = c.host := rfl

theorem imgAbort_of_verified {c : Chip} (h : imgState c = 2) : imgAbort c = setFld Reg.IMG_STATUS 31 29 0 c := by simp [imgAbort, h]

/-- A rejected image: the lock of the staged one is released, and the result shows the code. -/
theorem rejectImage_rejects {I : Image} {r : Nat × Nat × Nat} {c : Chip} (h : imgState c = 2) :
    let d := rejectImage I r true c
    imgState d = 0 ∧ resultWord d = r.2.1 % 65536 * 65536 + r.1 % 256 ∧ d.loading = c.loading ∧ d.host = c.host := by
  have hs : imgState (codeNoted r (refusalsNoted I r c)) = 2 := by
    rw [← h]
    refine rfld_congr ?_
    rw [codeNoted, reg_putNum_ne (by decide), reg_putNum_ne (by decide),
      reg_of_watch (watch_refusalsNoted I r c) (by unfold Watched Reg.IMG_STATUS; omega)]
  have he : rejectImage I r true c = setFld Reg.IMG_STATUS 31 29 0 (codeNoted r (refusalsNoted I r c)) := by
    rw [← imgAbort_of_verified hs]
    rfl
  rw [he]
  refine ⟨(rfld_setFld _ _ _ _ _ (by decide) (by decide)).trans (by decide), ?_, ?_, ?_⟩
  rotate_left
  · rw [setFld_loading, codeNoted_loading, loading_refusalsNoted]
  · rw [setFld_host, codeNoted_host, host_of_watch (watch_refusalsNoted I r c)]
  rw [← resultWord_codeNoted r (refusalsNoted I r c), resultWord, resultWord, rfld_congr (reg_setFld_ne (by decide) ..),
    rfld_congr (reg_setFld_ne (by decide) ..)]

/-- An image that has passed the checks, its jobs asked to stop. -/
def imageTaken (I : Image) (c : Chip) : Chip := { c with loading := 1, accepted := some I }

@[simp] theorem reg_imageTaken (I : Image) (c : Chip) (a : Nat) : reg (imageTaken I c) a = reg c a := rfl

theorem imgResult_accepted (I : Image) (c : Chip) : reg (imageTaken I (askStops I (noteAccepted I c))) Reg.IMG_RESULT = 0#32 := by
  rw [reg_imageTaken, imgResult_askStops, noteAccepted, reg_putNum_same]

section
variable {x : Taken} {c : Chip} (hp : x.phase = 1) (hl : c.loading = 0) (hs : imgState c = 2)
include hp hl hs

theorem cmdImgLoad_verified :
    cmdImgLoad x c = if (acceptImage (stagedImage c) true c).loading = 0
      then endAction x 4 (resultWord (acceptImage (stagedImage c) true c)) (acceptImage (stagedImage c) true c)
      else acceptImage (stagedImage c) true c := by
  simp [cmdImgLoad, hp, hl, hs]

theorem cmdImgLoad_rejects {r : Nat × Nat × Nat} (hc : loadCode c (stagedImage c) = some r) :
    cmdImgLoad x c = endAction x 4 (r.2.1 % 65536 * 65536 + r.1 % 256) (rejectImage (stagedImage c) r true c) := by
  obtain ⟨-, hw, hload, -⟩ := rejectImage_rejects (I := stagedImage c) (r := r) hs
  have ha : acceptImage (stagedImage c) true c = rejectImage (stagedImage c) r true c := by rw [acceptImage, hc]
  rw [cmdImgLoad_verified hp hl hs, ha, if_pos (hload.trans hl), hw]

theorem cmdImgLoad_accepts (hc : loadCode c (stagedImage c) = none) :
    cmdImgLoad x c = imageTaken (stagedImage c) (askStops (stagedImage c) (noteAccepted (stagedImage c) c)) := by
  have ha : acceptImage (stagedImage c) true c = imageTaken (stagedImage c) (askStops (stagedImage c) (noteAccepted (stagedImage c) c)) := by
    rw [acceptImage, hc]
    rfl
  rw [cmdImgLoad_verified hp hl hs, ha]
  exact if_neg Nat.one_ne_zero

end

end Sys2Proof.Machine
end

section
/-!
PROOFS. The command IMG_LOAD where it applies its image: the jobs of the image run from it (R384, R385).
-/

namespace Sys2Proof.Machine

open Sys2Proof.Safety

/-! ### Updates that leave the jobs -/

theorem when_jobs {f : Chip → Chip} (b : Bool) (c : Chip) (h : (f c).jobs = c.jobs) : (when_ b f c).jobs = c.jobs := by
  cases b
  · rfl
  · exact h

theorem setBit_jobs (a i : Nat) (b : Bool) (c : Chip) : (setBit a i b c).jobs = c.jobs := rfl
theorem setReg2_jobs (lo hi n : Nat) (c : Chip) : (setReg2 lo hi n c).jobs = c.jobs := rfl
theorem modStream_jobs (p : Nat) (f : Stream → Stream) (c : Chip) : (modStream p f c).jobs = c.jobs := rfl

theorem plainWrite_jobs (a : Nat) (v : Word) (c : Chip) : (plainWrite a v c).jobs = c.jobs := by
  obtain ⟨r, he, -⟩ := plainWrite_cases a v c
  rw [he]

theorem seamSwitch_jobs (v : Word) (c : Chip) : (seamSwitch v c).jobs = c.jobs := by
  unfold seamSwitch
  extract_lets j e now T late at_
  split
  · rfl
  · split
    · rfl
    · exact when_jobs _ _ rfl

theorem setSeqEn_jobs (t : Nat) (c : Chip) : (setSeqEn t c).jobs = c.jobs := by
  unfold setSeqEn
  split <;> rfl

theorem linkEnable_jobs (p : Nat) (c : Chip) : (linkEnable p c).jobs = c.jobs := by
  unfold linkEnable
  split <;> rfl

theorem encArm_jobs (p : Nat) (c : Chip) : (encArm p c).jobs = c.jobs := by
  unfold encArm
  extract_lets d
  split <;> rfl

theorem encRunSet_jobs (p : Nat) (c : Chip) : (encRunSet p c).jobs = c.jobs := by
  unfold encRunSet
  split
  · extract_lets d
    split
    · exact encArm_jobs p d
    · rfl
  · rfl

theorem jobAt_gw (g : Gateway) (c : Chip) (j : Nat) : jobAt { c with gw := g } j = jobAt c j := rfl

theorem jobAt_mirrorSlots (e : Nat) (c : Chip) (j : Nat) : jobAt (mirrorSlots e c) j = jobAt c j := by
  unfold mirrorSlots
  extract_lets inTable mv inSets mvSet half put new sets d d1 d2 d3
  refine (jobAt_gw _ _ j).trans ?_
  have h1 : jobAt d1 j = jobAt c j := forAll_leaves (jobAt · j) new (fun x d => jobAt_setReg _ _ d j) d
  have h2 : jobAt d2 j = jobAt d1 j := forAll_leaves (jobAt · j) sets (fun x d => jobAt_setReg _ _ d j) d1
  have h3 : jobAt d3 j = jobAt d2 j := forAll_leaves (jobAt · j) (List.range 8192)
    (fun t d => congrArg (mapGet _ · j) (when_jobs _ d (setBit_jobs ..))) d2
  rw [h3, h2, h1]

theorem jobAt_finishMirror (c : Chip) (j : Nat) : jobAt (finishMirror c) j = jobAt c j := by
  unfold finishMirror
  split
  · exact jobAt_mirrorSlots ..
  · rfl

/-! ### A job that runs from an image -/

/-- Job `j` is present and runs from the image `I`. -/
def RunsFrom (I : Image) (j : Nat) (c : Chip) : Prop := (jobAt c j).present = true ∧ (jobAt c j).image = I

section
variable {I : Image} {j : Nat} {c : Chip}

theorem runsFrom_of_jobs {c' : Chip} (h : c'.jobs = c.jobs) (hr : RunsFrom I j c) : RunsFrom I j c' := by
  rwa [RunsFrom, jobAt, h]

theorem runsFrom_of_jobAt {c' : Chip} (h : jobAt c' j = jobAt c j) (hr : RunsFrom I j c) : RunsFrom I j c' := by
  rwa [RunsFrom, h]

theorem runsFrom_enableTb (k : Nat) (hr : RunsFrom I j c) : RunsFrom I j (enableTb k c) := by
  cases ho : enableOk c k with
  | true =>
    obtain ⟨f, g, he, -, hg⟩ := enableTb_of_ok ho
    have hregs : (enabledRegs k c).jobs = c.jobs := when_jobs _ _ rfl
    have hjob (i : Nat) : jobAt (modTb k f (enabledRegs k c)) i = jobAt c i := by
      show mapGet _ (enabledRegs k c).jobs i = _
      rw [hregs]
      rfl
    rw [he]
    refine runsFrom_of_jobs (c := modJob (jobOfTb c k) g (modTb k f (enabledRegs k c))) rfl ?_
    obtain ⟨hp, hi⟩ := hr
    by_cases hj : j = jobOfTb c k
    · rw [RunsFrom, hj, jobAt_modJob_same, hjob, ← hj, (hg _).1, (hg _).2]
      exact ⟨hp, hi⟩
    · rw [RunsFrom, jobAt_modJob_ne _ _ hj, hjob]
      exact ⟨hp, hi⟩
  | false =>
    rw [enableTb_of_bad ho]
    exact runsFrom_of_jobs rfl hr

theorem runsFrom_when {f : Chip → Chip} (b : Bool) (hr : RunsFrom I j c) (h : RunsFrom I j (f c)) : RunsFrom I j (when_ b f c) := by
  cases b
  · exact hr
  · exact h

/-- The registers of a job's entry written: the job is put under its number, and no other changes. -/
theorem writeJob_jobs (I : Image) (e : List Byte) (c : Chip) :
    ∃ J : Job, J.present = true ∧ J.image = I ∧ (writeJob I e c).jobs = mapPut (fun _ => {}) c.jobs (jeJob e) J := by
  unfold writeJob
  extract_lets j k w d d' ctrl
  have hd : d.jobs = c.jobs := forAll_leaves Chip.jobs (f := fun f c => { c with fieldJob := setNum f (j + 1) c.fieldJob }) _
    (fun _ _ => rfl) c
  have hw (a n : Nat) (x : Chip) : (w a n x).jobs = x.jobs := plainWrite_jobs ..
  refine ⟨makeJob d I e, rfl, rfl, ?_⟩
  rw [when_jobs _ _ (by rw [hw, hw])]
  simp only [hw, setReg_jobs]
  exact congrArg (mapPut (fun _ => {}) · (jeJob e) (makeJob d I e)) hd

theorem runsFrom_writeJob_own (I : Image) (e : List Byte) (c : Chip) : RunsFrom I (jeJob e) (writeJob I e c) := by
  obtain ⟨J, hp, hi, hj⟩ := writeJob_jobs I e c
  rw [RunsFrom, jobAt, hj, mapGet_mapPut_same]
  exact ⟨hp, hi⟩

theorem runsFrom_writeJob (e : List Byte) (hr : RunsFrom I j c) : RunsFrom I j (writeJob I e c) := by
  by_cases h : j = jeJob e
  · rw [h]
    exact runsFrom_writeJob_own I e c
  · obtain ⟨J, -, -, hj⟩ := writeJob_jobs I e c
    rw [RunsFrom, jobAt, hj, mapGet_mapPut_ne _ _ _ h]
    exact hr

/-- What follows the writing of a job's registers leaves its image. -/
theorem runsFrom_startJob_of_written {e : List Byte} (slot : Nat) (hr : RunsFrom I j (writeJob I e c)) :
    RunsFrom I j (startJob I slot e c) := by
  unfold startJob
  extract_lets k
  have hs := runsFrom_of_jobs (seamSwitch_jobs (BitVec.ofNat 32 (2 ^ 31 + slot * 2 ^ 24 + k * 65536)) _) hr
  have he := runsFrom_when (f := enableTb k) (!jeMulti e) hs (runsFrom_enableTb k hs)
  refine runsFrom_of_jobs ?_ he
  refine (forAll_leaves Chip.jobs _ (fun p d => ?_) _).trans (forAll_leaves Chip.jobs _ setSeqEn_jobs _)
  exact (encRunSet_jobs p _).trans (when_jobs _ _ (linkEnable_jobs p d))

theorem runsFrom_startJobs (I : Image) (slot : Nat) (es : List (List Byte)) (c : Chip) :
    ∀ e ∈ es, RunsFrom I (jeJob e) (forAll (startJob I slot) es c) :=
  forAll_reaches (I := fun _ => True) (P := fun e d => RunsFrom I (jeJob e) d) (fun _ _ _ => trivial)
    (fun e d _ => runsFrom_startJob_of_written slot (runsFrom_writeJob_own I e d))
    (fun e _ _ hr => runsFrom_startJob_of_written slot (runsFrom_writeJob e hr)) es c trivial

theorem runsFrom_restoreJob (i : Nat) (hr : RunsFrom I j c) : RunsFrom I j (restoreJob i c) := by
  unfold restoreJob
  extract_lets k n
  refine runsFrom_of_jobs (forAll_leaves Chip.jobs _ encRunSet_jobs _) (runsFrom_enableTb k (runsFrom_of_jobs ?_ hr))
  rw [forAll_leaves Chip.jobs _ (fun p d => modStream_jobs p _ d), setReg2_jobs, forAll_leaves Chip.jobs _ (fun t d => setBit_jobs _ _ _ d)]

/-- An applied image's jobs run from it. -/
theorem runsFrom_applyImage (I : Image) (release : Bool) (c : Chip) : ∀ e ∈ jobEntries I.ss, RunsFrom I (jeJob e) (applyImage I release c) := by
  intro e he
  unfold applyImage
  extract_lets gone drained pass copies slot fw fe
  have hrest (d : Chip) (hr : RunsFrom I (jeJob e) d) : RunsFrom I (jeJob e) (forAll restoreJob drained d) :=
    forAll_keeps (P := RunsFrom I (jeJob e)) drained (fun i _ x hx => runsFrom_restoreJob i hx) d hr
  have hlast (d : Chip) (hr : RunsFrom I (jeJob e) d) : RunsFrom I (jeJob e)
      ((if I.compat || (!I.isPart && namedSlots I == [0, 1]) then fun c : Chip => { c with loading := 0 }
        else fun c => finishMirror { c with loading := 2 }) d) := by
    split
    · exact runsFrom_of_jobs rfl hr
    · exact runsFrom_of_jobAt (jobAt_finishMirror _ _) hr
  exact hlast _ (hrest _ (runsFrom_startJobs I slot _ _ e he))

end

/-! ### IMG_LOAD once its image is accepted -/

section
variable {x : Taken} {c : Chip} {I : Image} (hp : x.phase = 1) (hl : c.loading = 1) (ha : c.accepted = some I)
include hp hl ha

theorem cmdImgLoad_stopping (hs : stopsDone c I = false) : cmdImgLoad x c = c := by
  simp [cmdImgLoad, continueImage, hp, hl, ha, hs]

theorem cmdImgLoad_applies (hs : stopsDone c I = true) : ∀ e ∈ jobEntries I.ss, RunsFrom I (jeJob e) (cmdImgLoad x c) := by
  intro e he
  have hr := runsFrom_applyImage I true c e he
  have hc : continueImage true c = applyImage I true c := by simp [continueImage, hl, ha, hs]
  rw [cmdImgLoad, if_neg (by simp [hp]), if_pos (by simp [hl]), hc]
  dsimp only
  split
  · exact runsFrom_of_jobs (endAction_jobs ..) hr
  · exact hr

end

end Sys2Proof.Machine
end

section
/-!
PROOFS. The command DEVICE_STATE (R428, R429), and what a command queue does (R485 to R488, Table 18.6).
-/

namespace Sys2Proof.Machine

open Sys2Proof.Safety

/-! ### A device-state change -/

/-- Domain `d` begins its wake. -/
def wakeBegun (d : Nat) (c : Chip) : Chip := c |> setDom d 4 |> modPower (fun P => { P with goal := setNum d 1 P.goal })

theorem devBusy_wakeBegun (d : Nat) (c : Chip) : devBusy (wakeBegun d c) = devBusy c :=
  rflag_congr (reg_setFld_ne (by unfold Reg.PWR_DEV_STATUS Reg.PWR_DOM; omega) ..)

/-- The wakes of a device-state change leave the change itself. -/
theorem startWakes_keeps (c : Chip) :
    (startWakes c).host = c.host ∧ (startWakes c).power.devGoal = c.power.devGoal ∧ devBusy (startWakes c) = devBusy c :=
  ⟨forAll_leaves Chip.host (f := wakeBegun) _ (fun _ _ => rfl) c,
    forAll_leaves (fun x => x.power.devGoal) (f := wakeBegun) _ (fun _ _ => rfl) c,
    forAll_leaves devBusy (f := wakeBegun) _ devBusy_wakeBegun c⟩

theorem beginDevice_begins (g : Nat) (c : Chip) :
    (beginDevice g c).host = c.host ∧ (beginDevice g c).power.devGoal = some g ∧ devBusy (beginDevice g c) = true := by
  unfold beginDevice
  extract_lets wake enter
  obtain ⟨hh, hg, hb⟩ := startWakes_keeps
    (modPower (fun P => { P with devGoal := some g, devEnter := enter, devWake := wake }) (raise Reg.PWR_DEV_STATUS 29 c))
  exact ⟨hh, hg, hb.trans (rflag_raise _ _ _ (by decide))⟩

theorem host_armHold (joint : Bool) (t16 k : Nat) (c : Chip) : (armHold joint t16 k c).host = c.host := by
  unfold armHold
  split
  · split <;> rfl
  · rfl

/-- The refusers of a device request (Table 15.3). -/
theorem deviceRefuser_cases (c : Chip) (joint : Bool) (t16 : Nat) :
    deviceRefuser c joint t16 = 0 ∨ deviceRefuser c joint t16 = 4 ∨ deviceRefuser c joint t16 = 6 := by
  unfold deviceRefuser
  split
  · simp
  · split <;> simp

theorem refuseDevice_refuses {id : Nat} (hi : id < 8) (c : Chip) :
    (refuseDevice id c).host = c.host ∧ devBusy (refuseDevice id c) = devBusy c ∧ rfld (refuseDevice id c) Reg.PWR_DEV_STATUS 26 24 = id := by
  have hr : reg (refuseDevice id c) Reg.PWR_DEV_STATUS = putFld (reg c Reg.PWR_DEV_STATUS) 26 24 id := by
    rw [refuseDevice, noteRefusal, reg_putNum_ne (by decide), setFld_eq, reg_setReg_same, reg_count_ne (by decide)]
  refine ⟨by rw [refuseDevice, noteRefusal, putNum_host, setFld_host]; rfl, ?_, ?_⟩
  · rw [devBusy, rflag, hr, flag_putFld_apart _ _ _ _ _ (by decide) (by decide) (by decide)]
    rfl
  · rw [rfld, hr, fld_putFld_same _ _ _ _ (by decide) (by decide)]
    exact Nat.mod_eq_of_lt hi

/-- The word by which a command asks for device state `g` holds JOINT and T16. -/
theorem fields_of_deviceWord {g t16 : Nat} (b : Bool) (hg : g ≤ 2) (ht : t16 < 65536) :
    flag (BitVec.ofNat 32 (2 ^ 31 + g * 2 ^ 29 + b2n b * 2 ^ 28 + t16)) 28 = b ∧
      fld (BitVec.ofNat 32 (2 ^ 31 + g * 2 ^ 29 + b2n b * 2 ^ 28 + t16)) 15 0 = t16 := by
  have hb : b2n b ≤ 1 := by cases b <;> decide
  have hmod : (2 ^ 31 + g * 2 ^ 29 + b2n b * 2 ^ 28 + t16) % 2 ^ 32 = 2 ^ 31 + g * 2 ^ 29 + b2n b * 2 ^ 28 + t16 := by omega
  constructor
  · have hd : (2 ^ 31 + g * 2 ^ 29 + b2n b * 2 ^ 28 + t16) / 2 ^ 28 % 2 = b2n b := by omega
    rw [flag, bit, BitVec.toNat_ofNat, hmod, hd]
    cases b <;> rfl
  · rw [fld, bits, BitVec.toNat_ofNat, hmod]
    omega

/-- A request for HOLD or DEEP: the change begins, or its refuser is shown. -/
theorem devEnterState_outcome {g t16 : Nat} {b : Bool} {c : Chip} (hb : devBusy c = false) (hg : devState c ≠ g) (hg2 : g ≤ 2)
    (ht : t16 < 65536) :
    let id := deviceRefuser c b t16
    let d := devEnterState g (BitVec.ofNat 32 (2 ^ 31 + g * 2 ^ 29 + b2n b * 2 ^ 28 + t16)) c
    d.host = c.host ∧ (id = 0 → devBusy d = true ∧ d.power.devGoal = some g) ∧
      (id ≠ 0 → devBusy d = false ∧ rfld d Reg.PWR_DEV_STATUS 26 24 = id) := by
  obtain ⟨hj, hs⟩ := fields_of_deviceWord b hg2 ht
  simp only [devEnterState, hb, beq_eq_false_iff_ne.2 hg, Bool.or_self, Bool.false_eq_true, if_false, hj, hs]
  split
  · next h0 =>
    obtain ⟨hh, hgoal, hbusy⟩ := beginDevice_begins g (forAll (armHold b t16) (List.range 16)
      (setFld Reg.PWR_DEV_STATUS 15 0 (if b = true then t16 else 0) c))
    exact ⟨hh.trans (forAll_leaves Chip.host _ (host_armHold b t16) _), fun _ => ⟨hbusy, hgoal⟩, fun h => absurd h0 h⟩
  · next h0 =>
    have hlt : deviceRefuser c b t16 < 8 := by rcases deviceRefuser_cases c b t16 with h | h | h <;> omega
    obtain ⟨hh, hbusy, hid⟩ := refuseDevice_refuses hlt c
    exact ⟨hh, fun h => absurd h h0, fun _ => ⟨hbusy.trans hb, hid⟩⟩

/-! ### DEVICE_STATE -/

section
variable {x : Taken} {c : Chip}

theorem cmdDeviceState_over (h : 2 < cmdArg x 0 1) : cmdDeviceState x c = endAction x 2 0 c := by
  unfold cmdDeviceState
  exact if_pos h

theorem cmdDeviceState_waits (h : cmdArg x 0 1 ≤ 2) (hb : devBusy c = true) : cmdDeviceState x c = c := by
  simp [cmdDeviceState, Nat.not_lt.2 h, hb]

/-- The state that the device is in is answered at once. -/
theorem cmdDeviceState_same (h : cmdArg x 0 1 ≤ 2) (hs : cmdArg x 0 1 = devState c) (hb : devBusy c = false) :
    cmdDeviceState x c = endAction x 0 0 c := by
  have hn : ¬ 2 < devState c := by omega
  by_cases h0 : devState c = 0
  · simp [cmdDeviceState, devRun, hs, hb, h0]
  · simp [cmdDeviceState, devEnterState, hs, hb, hn, h0]

/-- The refuser that DEVICE_STATE answers with, 0 for none. -/
def commandRefuser (x : Taken) (c : Chip) : Nat :=
  if cmdArg x 0 1 = 0 then 0 else deviceRefuser c (bit (cmdArg x 1 1) 0) (cmdArg x 2 2)

/-- Another state: the change begins, or its refuser is answered and shown. -/
theorem cmdDeviceState_changes (h : cmdArg x 0 1 ≤ 2) (hs : cmdArg x 0 1 ≠ devState c) (hb : devBusy c = false) :
    ∃ d, cmdDeviceState x c = endAction x (if commandRefuser x c = 0 then 0 else 3) (commandRefuser x c) d ∧ d.host = c.host ∧
      (commandRefuser x c = 0 → devBusy d = true ∧ d.power.devGoal = some (cmdArg x 0 1)) ∧
      (commandRefuser x c ≠ 0 → devBusy d = false ∧ rfld d Reg.PWR_DEV_STATUS 26 24 = commandRefuser x c) := by
  by_cases h0 : cmdArg x 0 1 = 0
  · have hs0 : devState c ≠ 0 := fun hz => hs (by rw [h0, hz])
    have hr : devRun c = beginDevice 0 c := by simp [devRun, hb, hs0]
    obtain ⟨hh, hgoal, hbusy⟩ := beginDevice_begins 0 c
    have hid : commandRefuser x c = 0 := if_pos h0
    refine ⟨beginDevice 0 c, ?_, hh, fun _ => ⟨hbusy, by rw [hgoal, h0]⟩, fun hn => absurd hid hn⟩
    simp [cmdDeviceState, h0, hb, hr, hid]
  · have hid : commandRefuser x c = deviceRefuser c (bit (cmdArg x 1 1) 0) (cmdArg x 2 2) := if_neg h0
    rw [hid]
    refine ⟨_, ?_, devEnterState_outcome (b := bit (cmdArg x 1 1) 0) hb (Ne.symm hs) h (cmdArg_lt x 2 2)⟩
    simp [cmdDeviceState, h0, hb, Nat.not_lt.2 h, Ne.symm hs]

end

end Sys2Proof.Machine
end

section
/-!
PROOFS. What a command queue does, assembled (R485 to R488, Table 18.6).
-/

namespace Sys2Proof.Machine

open Sys2Proof.Safety

/-! ### Records -/

theorem completes_commandPost {q : Fin 32} {slot : Fin 256} {bs : List Byte} {s : State} :
    Completes (.commandPost q slot bs) s (commandPost q slot bs s.chip) := done_eq ..

theorem completes_cqTake {who : Initiator} {q : Fin 32} {s : State} : Completes (.cqTake who q) s (cqTake who q s.chip) := done_eq ..

theorem completes_cqComplete {who : Initiator} {q : Fin 32} {v : Word} {s : State} :
    Completes (.cqComplete who q v) s (cqComplete who q v s.chip) := done_eq ..

/-- The row of the command with OP `op`. -/
theorem completes_row_ignored {q : Fin 32} {s : State} :
    ∀ p ∈ [(0, Instr.cmdNop q), (1, .cmdImgLoad q), (2, .cmdJobStop q), (3, .cmdLabel q), (4, .cmdFreeze q), (5, .cmdLicence q),
        (6, .cmdDeviceState q)],
      (takenOf s.chip q).all (fun x => nAt x.record 0 2 != p.1 || decide (2 ≤ x.phase)) = true → Completes p.2 s s.chip := by
  have hrow {i : Instr} {op : Nat} {f : Taken → Chip → Chip} (hi : exec i s = done s (runCommand op q f s.chip))
      (h : (takenOf s.chip q).all (fun x => nAt x.record 0 2 != op || decide (2 ≤ x.phase)) = true) : Completes i s s.chip := by
    rw [runCommand_ignored h] at hi
    exact hi
  simp only [List.forall_mem_cons]
  exact ⟨hrow rfl, hrow rfl, hrow rfl, hrow rfl, hrow rfl, hrow rfl, hrow rfl, by simp⟩

/-! ### Answers -/

/-- An answer after an action that leaves the queues' records. -/
theorem answersWith_of {i : Instr} {s : State} {q : Nat} {x : Taken} {d : Chip} {status result : Nat} {more : Chip → Prop}
    (ht : takenOf s.chip q = some x) (hl : x.live = true) (hc : Completes i s (endAction x status result d)) (hd : d.host = s.chip.host)
    (hm : more (endAction x status result d)) : AnswersWith i s q x status result more :=
  ⟨_, hc, endAction_answers hl status result ((takenOf_congr (by rw [hd]) q).trans ht), hm⟩

/-- The clauses of an answer, one by one. -/
theorem AnswersWith.clauses {i : Instr} {s : State} {q : Nat} {x : Taken} {status result : Nat} {more : Chip → Prop}
    (h : AnswersWith i s q x status result more) :
    ∃ c', Completes i s c' ∧ takenOf c' q = some { x with phase := 2 } ∧
      reg c' (Reg.HIF_CQ_CPL_DATA q 0) = BitVec.ofNat 32 (nAt x.record 4 4) ∧
      reg c' (Reg.HIF_CQ_CPL_DATA q 1) = BitVec.ofNat 32 (status * 65536 + nAt x.record 0 2) ∧
      reg c' (Reg.HIF_CQ_CPL_DATA q 2) = BitVec.ofNat 32 result ∧ more c' := by
  obtain ⟨c', hc, ⟨h1, h2, h3, h4⟩, hm⟩ := h
  exact ⟨c', hc, h1, h2, h3, h4, hm⟩

theorem frame_modLrn_quiet (as : List Nat) (t : Nat) (f : Lrn → Lrn) (c : Chip) :
    Frame as [t] c { modLrn t f c with host := c.host } := by
  have h : Frame as [t] c (modLrn t f c) := frame_modTile t _ (by simp) (frame_refl ..)
  exact h

/-! ### IMG_LOAD, JOB_STOP, LABEL, FREEZE, LICENCE and DEVICE_STATE -/

section
variable {s : State} {q : Fin 32} {x : Taken} (ht : takenOf s.chip q = some x) (hp : x.phase < 2) (hl : x.live = true)
include ht hp hl

theorem cmdImgLoad_answers_refused (ho : nAt x.record 0 2 = 1) (h0 : x.phase = 0) (hs : imgState s.chip = 1 ∨ imgState s.chip = 2) :
    AnswersWith (.cmdImgLoad q) s q x 3 0 (fun c' => imgState c' = imgState s.chip) := by
  have hc := completes_cmdImgLoad ht hp ho
  rw [cmdImgLoad_refused h0 hs] at hc
  refine answersWith_of ht hl hc rfl ?_
  have hr := reg_endAction hl 3 0 (a := Reg.IMG_STATUS) (fun i _ => by unfold Reg.IMG_STATUS Reg.HIF_CQ_CPL_DATA; omega)
    (setBit Reg.IMG_STATUS 28 true s.chip)
  exact (rfld_congr hr).trans (rfld_setBit_apart _ (by decide) (by decide) true _)

theorem cmdImgLoad_answers_rejected (ho : nAt x.record 0 2 = 1) (h1 : x.phase = 1) (hload : s.chip.loading = 0)
    (hs : imgState s.chip = 2) {r : Nat × Nat × Nat} (hcode : loadCode s.chip (stagedImage s.chip) = some r) :
    AnswersWith (.cmdImgLoad q) s q x 4 (r.2.1 % 65536 * 65536 + r.1 % 256) (fun c' => imgState c' = 0 ∧ c'.loading = 0) := by
  have hc := completes_cmdImgLoad ht hp ho
  rw [cmdImgLoad_rejects h1 hload hs hcode] at hc
  obtain ⟨hst, -, hl0, hh⟩ := rejectImage_rejects (I := stagedImage s.chip) (r := r) hs
  refine answersWith_of ht hl hc hh ⟨?_, (endAction_loading ..).trans (hl0.trans hload)⟩
  exact (rfld_congr (reg_endAction hl _ _ (fun i _ => by unfold Reg.IMG_STATUS Reg.HIF_CQ_CPL_DATA; omega) _)).trans hst

theorem cmdJobStop_answers (ho : nAt x.record 0 2 = 2) :
    AnswersWith (.cmdJobStop q) s q x 0 (((stopJobs x s.chip).map (fun j => 2 ^ j)).foldl (· + ·) 0) (fun c' => ∀ k, k < 16 →
      jobOfTb s.chip k < 16 → bit (cmdArg x 0 2) (jobOfTb s.chip k) = true → tbRuns s.chip k = true → tbEnabled c' k = false) := by
  have hc := completes_cmdJobStop ht hp ho
  rw [cmdJobStop_eq] at hc
  refine answersWith_of ht hl hc (host_jobsStopped x s.chip) fun k hk _ hb hr => ?_
  exact (rflag_congr (reg_endAction hl _ _ (fun i _ => TICK_TB_CTRL_ne_CPL_DATA hk _ i) _)).trans (jobsStopped_stops hk hb hr)

theorem cmdLabel_answers {t : Nat} (ho : nAt x.record 0 2 = 3) (hlab : labelTile s.chip (cmdArg x 0 1) = some t)
    (hk : cmdArg x 1 1 ≤ rfld s.chip (Reg.LRN_LABEL_NRN t) 30 26) (hn : (tile s.chip t).lrn.labels.length < 8) :
    AnswersWith (.cmdLabel q) s q x 0 0 (fun c' => (tile c' t).lrn.labels = (tile s.chip t).lrn.labels ++ [(cmdArg x 2 2, cmdArg x 1 1)] ∧
      Frame (cplRegs q) [t] s.chip { c' with host := s.chip.host }) := by
  have hc := completes_cmdLabel ht hp ho
  rw [cmdLabel_queues hlab hk hn] at hc
  refine answersWith_of ht hl hc rfl ⟨by simp [modLrn], ?_⟩
  exact frame_endAction hl 0 0 (queue_of_takenOf ht) (frame_modLrn_quiet ..)

theorem cmdFreeze_answers (ho : nAt x.record 0 2 = 4) :
    AnswersWith (.cmdFreeze q) s q x 0 (((freezeJobs x s.chip).map (fun j => 2 ^ j)).foldl (· + ·) 0) (fun c' => ∀ j t, j < 16 →
      bit (cmdArg x 0 2) j = true → t ∈ learners s.chip j → rflag c' (Reg.LRN_CTRL t) 1 = (cmdArg x 2 1 == 1)) := by
  have hc := completes_cmdFreeze ht hp ho
  rw [cmdFreeze_eq] at hc
  refine answersWith_of ht hl hc (host_freezeAll ..) fun j t hj hb hm => ?_
  have hq : x.queue < 32 := by rw [queue_of_takenOf ht]; exact q.isLt
  exact (rflag_congr (reg_endAction hl _ _ (fun i hi => LRN_CTRL_ne_CPL_DATA hq hi t) _)).trans
    (freezeAll_reaches _ _ _ j (mem_freezeJobs hj hb hm) t hm)

theorem cmdDeviceState_answers (ho : nAt x.record 0 2 = 6) (hg : cmdArg x 0 1 ≤ 2) (hs : cmdArg x 0 1 ≠ devState s.chip)
    (hb : devBusy s.chip = false) :
    AnswersWith (.cmdDeviceState q) s q x (if commandRefuser x s.chip = 0 then 0 else 3) (commandRefuser x s.chip) (fun c' =>
      (commandRefuser x s.chip = 0 → devBusy c' = true ∧ c'.power.devGoal = some (cmdArg x 0 1)) ∧
      (commandRefuser x s.chip ≠ 0 → devBusy c' = false ∧ rfld c' Reg.PWR_DEV_STATUS 26 24 = commandRefuser x s.chip)) := by
  have hc := completes_cmdDeviceState ht hp ho
  obtain ⟨d, he, hh, hbegun, hrefused⟩ := cmdDeviceState_changes hg hs hb
  rw [he] at hc
  have hr (st res : Nat) : reg (endAction x st res d) Reg.PWR_DEV_STATUS = reg d Reg.PWR_DEV_STATUS :=
    reg_endAction hl st res (fun i _ => by unfold Reg.PWR_DEV_STATUS Reg.HIF_CQ_CPL_DATA; omega) d
  refine answersWith_of ht hl hc hh ⟨fun h0 => ?_, fun h0 => ?_⟩
  · rw [devBusy, rflag_congr (hr ..), endAction_power]
    exact hbegun h0
  · rw [devBusy, rflag_congr (hr ..), rfld_congr (hr ..)]
    exact hrefused h0

end

/-! ### The obligation -/

/-- Settles O54: the records of a queue, then each row of Table 18.6 by the state in which it finds its command. -/
theorem commandQueues : Obligations.CommandQueues := by
  intro s q c quiet next
  refine ⟨fun slot bs hb => ⟨fun h => ?unserved, fun hr hf => ?posted⟩, fun who h => ?untaken, fun who hw ho hn => ?taken,
    fun v => completes_cqComplete, fun who v hw => ?completed, completes_row_ignored, fun x ht hp hl => ?acts⟩
  case unserved =>
    have hc := completes_commandPost (q := q) (slot := slot) (bs := bs) (s := s)
    rwa [commandPost_unreached h] at hc
  case posted =>
    obtain ⟨hbytes, hother, hregs⟩ := commandPost_writes (q := q) (slot := slot) hb hr hf
    exact ⟨_, completes_commandPost, hbytes, hother, hregs, commandPost_disabled hb hr hf, commandPost_posts hb hr hf⟩
  case untaken =>
    have hc := completes_cqTake (who := who) (q := q) (s := s)
    rwa [cqTake_ignored h] at hc
  case taken =>
    have hc := completes_cqTake (who := who) (q := q) (s := s)
    rw [cqTake_takes hw ho hn] at hc
    exact ⟨_, hc, by simp [modHost], rfl, frame_of_onlyHost (onlyHost_modHost ..) (frame_refl ..)⟩
  case completed =>
    obtain ⟨c', he, hv, htaken, hoff, hon, hh⟩ := cqComplete_facts hw q v c
    have hc := completes_cqComplete (who := who) (q := q) (v := v) (s := s)
    rw [he] at hc
    refine ⟨c', hc, hv, htaken, hoff, fun ho hr => ⟨(hon ho hr).1, fun hn => ?_⟩, frame_of_onlyHost hh ?_⟩
    · rw [(hon ho hr).2 (notifies_false hn), cplBytes_completed]
      rfl
    · exact frame_setReg _ _ (by simp) (frame_refl ..)
  case acts =>
    intro op arg answers cpl only
    refine ⟨fun ho => ?nop, fun ho h0 hs => ?imgRefused, fun ho h0 h1 h2 hb => ?imgBusy, fun ho h0 h1 h2 hb => ?imgBegins,
      fun ho h1 h0 hs => ?imgVerifying, fun ho h1 h0 hs => ?imgFailed, fun ho h1 h0 hs => ?imgAborted,
      fun r ho h1 h0 hs hcode => ?imgRejected, fun ho h1 h0 hs hcode => ?imgAccepted,
      fun I ho h1 h0 ha => ⟨fun hs => ?imgStopping, fun hs => ?imgApplied⟩, fun ho => ?jobStop, fun ho hn => ?labelNone,
      fun t ho hlab => ⟨fun hk => ?labelBeyond, fun hk hn => ?label⟩, fun ho => ?freeze, fun ho hs => ?licenceWaits,
      fun ho hs h0 => ?licenceBegins, fun ho hs h1 => ?licenceAnswers, fun ho hg => ?deviceOver, fun ho hg hb => ?deviceWaits,
      fun ho hs hg hb => ?deviceSame, fun ho hs hg hb => ?device⟩
    case nop => exact (answersWith_only ht hl (completes_cmdNop ht hp ho)).clauses
    case imgRefused => exact (cmdImgLoad_answers_refused ht hp hl ho h0 hs).clauses
    case imgBusy =>
      have hc := completes_cmdImgLoad ht hp ho
      rwa [cmdImgLoad_busy h0 h1 h2 hb] at hc
    case imgBegins => exact ⟨_, completes_cmdImgLoad ht hp ho, cmdImgLoad_begins ht h0 h1 h2 hb⟩
    case imgVerifying =>
      have hc := completes_cmdImgLoad ht hp ho
      rwa [cmdImgLoad_verifying h1 h0 hs] at hc
    case imgFailed =>
      have hc := completes_cmdImgLoad ht hp ho
      rw [cmdImgLoad_failed h1 h0 hs] at hc
      exact (answersWith_only ht hl hc).clauses
    case imgAborted =>
      have hc := completes_cmdImgLoad ht hp ho
      rw [cmdImgLoad_aborted h1 h0 hs] at hc
      exact (answersWith_only ht hl hc).clauses
    case imgRejected => exact (cmdImgLoad_answers_rejected ht hp hl ho h1 h0 hs hcode).clauses
    case imgAccepted =>
      have hc := completes_cmdImgLoad ht hp ho
      rw [cmdImgLoad_accepts h1 h0 hs hcode] at hc
      exact ⟨_, hc, rfl, rfl, imgResult_accepted ..⟩
    case imgStopping =>
      have hc := completes_cmdImgLoad ht hp ho
      rwa [cmdImgLoad_stopping h1 h0 ha hs] at hc
    case imgApplied => exact ⟨_, completes_cmdImgLoad ht hp ho, cmdImgLoad_applies h1 h0 ha hs⟩
    case jobStop => exact (cmdJobStop_answers ht hp hl ho).clauses
    case labelNone =>
      have hc := completes_cmdLabel ht hp ho
      rw [cmdLabel_without hn] at hc
      exact (answersWith_only ht hl hc).clauses
    case labelBeyond =>
      have hc := completes_cmdLabel ht hp ho
      rw [cmdLabel_beyond hlab hk] at hc
      exact (answersWith_only ht hl hc).clauses
    case label => exact (cmdLabel_answers ht hp hl ho hlab hk hn).clauses
    case freeze => exact (cmdFreeze_answers ht hp hl ho).clauses
    case licenceWaits =>
      have hc := completes_cmdLicence ht hp ho
      rwa [cmdLicence_waits hs] at hc
    case licenceBegins => exact ⟨_, completes_cmdLicence ht hp ho, cmdLicence_begins ht hs h0⟩
    case licenceAnswers =>
      have hc := completes_cmdLicence ht hp ho
      rw [cmdLicence_answers hs h1] at hc
      exact (answersWith_only ht hl hc).clauses
    case deviceOver =>
      have hc := completes_cmdDeviceState ht hp ho
      rw [cmdDeviceState_over hg] at hc
      exact (answersWith_only ht hl hc).clauses
    case deviceWaits =>
      have hc := completes_cmdDeviceState ht hp ho
      rwa [cmdDeviceState_waits hg hb] at hc
    case deviceSame =>
      have hc := completes_cmdDeviceState ht hp ho
      rw [cmdDeviceState_same hg hs hb] at hc
      exact (answersWith_only ht hl hc).clauses
    case device => exact (cmdDeviceState_answers ht hp hl ho hg hs hb).clauses

end Sys2Proof.Machine
end

section
/-!
PROOFS. The words of a schedule that only move the sequencer (R99, R103 to R106, R122), and what a command of a tile leaves where
its field is ON (R419).
-/

namespace Sys2Proof.Machine

open Sys2Proof.Safety

/-! ### Commands of a tile whose field is ON -/

theorem completes_tile {i : Instr} {t : Nat} {f : Chip → Chip} {s : State} {c' : Chip} (hi : exec i s = done s (atTile t f s.chip))
    (hd : domOn s.chip (fieldOf t) = true) (hf : f s.chip = c') : Completes i s c' := by
  rw [Completes, hi, atTile_on _ hd, hf, done_eq]

/-! ### The next word -/

@[simp] theorem seq_nextWord (t : Nat) (c : Chip) :
    (tile (nextWord t c) t).seq = { (tile c t).seq with mode := .executing, pc := ((tile c t).seq.pc + 1) % 2048 } := by
  simp [nextWord, tile_fetchCe]

theorem reg_fetchCe_ne {t a : Nat} (h : a ≠ Reg.TILE_SRAM_CE t) (c : Chip) : reg (fetchCe t c) a = reg c a := by
  unfold fetchCe when_
  split
  · exact reg_count_ne h 1 c
  · rfl

theorem reg_nextWord_ne {t a : Nat} (h : a ≠ Reg.TILE_SRAM_CE t) (c : Chip) : reg (nextWord t c) a = reg c a :=
  reg_fetchCe_ne h c

/-- An update of the tile that leaves the pointer, with the next word after it. -/
theorem pastWord_of_pc {t : Nat} {c d c' : Chip} (hpc : (tile d t).seq.pc = (tile c t).seq.pc) (h : PastWord t d c') : PastWord t c c' := by
  rwa [PastWord, hpc] at h

/-! ### What each word does -/

section
variable {t now : Nat} {c : Chip}

theorem nopWord_at (h : atWord c t 0x00 = true) : nopWord t c = nextWord t c := if_pos h

theorem waitUntilWord_over (h : atWord c t 0x01 = true) (ho : waitOver c t now = true) : waitUntilWord t now c = nextWord t c := by
  simp [waitUntilWord, h, ho]

theorem waitUntilWord_early (h : atWord c t 0x01 = true) (ho : waitOver c t now = false) : waitUntilWord t now c = holdWord t c := by
  simp [waitUntilWord, h, ho]

theorem waitUntilOver_over (h : atWord c t 0x01 = true) (hm : (tile c t).seq.mode = .waiting) (ho : waitOver c t now = true) :
    waitUntilOver t now c = nextWord t c := by
  simp [waitUntilOver, h, hm, ho]

/-- Integration in force at tile `t` (R99). -/
def beginIntegration (t : Nat) (c : Chip) : Chip := modTile t (fun T => { T with seq := { T.seq with integrate := true } }) c

theorem integrateWord_at (h : atWord c t 0x02 = true) : integrateWord t c = nextWord t (beginIntegration t c) := if_pos h

theorem rotateWord_open (h : atWord c t 0x0A = true) (he : endReached c t = true) : rotateWord t c = nextWord t (rotateRing t c) := by
  simp [rotateWord, settleWord, h, he]

end

theorem ringHead_rotateRing (t : Nat) (c : Chip) : ringHead (rotateRing t c) t = (ringHead c t + 1) % 3 := by
  have h : (ringHead c t + 1) % 3 % 4 = (ringHead c t + 1) % 3 := by omega
  exact (rfld_setFld (Reg.TILE_RING t) 1 0 ((ringHead c t + 1) % 3) c (by decide) (by decide)).trans h

theorem frame_rotateRing {as ts : List Nat} {t : Nat} (c : Chip) (h : Reg.TILE_RING t ∈ as) (ht : t ∈ ts) :
    Frame as ts c (rotateRing t c) := frame_modTile _ _ ht (frame_setFld _ _ _ _ h (frame_refl ..))

theorem TILE_RING_ne_CE (t : Nat) : Reg.TILE_RING t ≠ Reg.TILE_SRAM_CE t := by unfold Reg.TILE_RING Reg.TILE_SRAM_CE; omega

/-- Settles O10: each of the five words takes the next one, WAIT_UNTIL where its time is past. -/
theorem plainScheduleWordsAdvance : Obligations.PlainScheduleWordsAdvance := by
  intro t now s hd
  refine ⟨fun hw => ?nop, fun hw => ?waitUntil, fun hw hm ho => ?expire, fun hw => ?integrate, fun hw he => ?rotate⟩
  case nop => exact ⟨_, completes_tile rfl hd (nopWord_at hw), nextWord_moves _ _ (by simp) (by simp)⟩
  case waitUntil =>
    cases ho : waitOver s.chip t now with
    | true => exact ⟨_, completes_tile rfl hd (waitUntilWord_over hw ho), nextWord_moves _ _ (by simp) (by simp)⟩
    | false => exact ⟨_, completes_tile rfl hd (waitUntilWord_early hw ho), holdWord_waits _ _ (by simp) (by simp)⟩
  case expire => exact ⟨_, completes_tile rfl hd (waitUntilOver_over hw hm ho), nextWord_moves _ _ (by simp) (by simp)⟩
  case integrate =>
    obtain ⟨hp, hf⟩ := nextWord_moves (as := [Reg.TILE_SRAM_CE t]) (ts := [t.val]) t (beginIntegration t s.chip) (by simp) (by simp)
    refine ⟨_, completes_tile rfl hd (integrateWord_at hw), pastWord_of_pc (by simp [beginIntegration]) hp, by simp [beginIntegration], ?_⟩
    exact frame_trans (frame_modTile _ _ (by simp) (frame_refl ..)) hf
  case rotate =>
    obtain ⟨hp, hf⟩ := nextWord_moves (as := [Reg.TILE_SRAM_CE t, Reg.TILE_RING t]) (ts := [t.val]) t (rotateRing t s.chip) (by simp) (by simp)
    refine ⟨_, completes_tile rfl hd (rotateWord_open hw he), pastWord_of_pc (by simp [rotateRing]; rfl) hp, ?_, by simp [rotateRing], ?_⟩
    · rw [← ringHead_rotateRing]
      exact rfld_congr (reg_nextWord_ne (TILE_RING_ne_CE t) _)
    · exact frame_trans (frame_rotateRing _ (by simp) (by simp)) hf

end Sys2Proof.Machine
end

section
/-!
PROOFS. Errors found by a tile's reads, fences, END and illegal words (R91, R102, R103, R108, R114, R115, R346).
-/

namespace Sys2Proof.Machine

open Sys2Proof.Safety

/-! ### Frames that leave the reports aside -/

/-- `c'` is within a frame of `c` but for the reports on their way to the integrity block. -/
def FrameButReports (as ts : List Nat) (c c' : Chip) : Prop := Frame as ts c { c' with reports := c.reports }

section
variable {as ts : List Nat} {c c' c'' : Chip}

theorem frameButReports_of_frame (h : Frame as ts c c') : FrameButReports as ts c c' := by
  have hr : c'.reports = c.reports := (congrArg Chip.reports h.2.2 :)
  rwa [FrameButReports, ← hr]

theorem frameButReports_trans (h : FrameButReports as ts c c') (h' : FrameButReports as ts c' c'') : FrameButReports as ts c c'' := by
  obtain ⟨h1, h2, h3⟩ := h
  obtain ⟨k1, k2, k3⟩ := h'
  refine ⟨fun a ha => (k1 a ha).trans (h1 a ha), fun t ht => (k2 t ht).trans (h2 t ht), ?_⟩
  calc { c'' with reports := c.reports }
      = { { c'' with reports := c'.reports } with reports := c.reports } := rfl
    _ = { { c' with regs := c''.regs, tiles := c''.tiles } with reports := c.reports } :=
      congrArg (fun d : Chip => { d with reports := c.reports }) k3
    _ = { { c' with reports := c.reports } with regs := c''.regs, tiles := c''.tiles } := rfl
    _ = { c with regs := c''.regs, tiles := c''.tiles } :=
      congrArg (fun d : Chip => { d with regs := c''.regs, tiles := c''.tiles }) h3

theorem frameButReports_mono {as' ts' : List Nat} (ha : ∀ a, a ∈ as → a ∈ as') (ht : ∀ t, t ∈ ts → t ∈ ts')
    (h : FrameButReports as ts c c') : FrameButReports as' ts' c c' := frame_mono ha ht h

theorem reg_of_frameButReports {a : Nat} (h : FrameButReports as ts c c') (ha : a ∉ as) : reg c' a = reg c a := h.1 a ha

theorem tile_of_frameButReports {t : Nat} (h : FrameButReports as ts c c') (ht : t ∉ ts) : tile c' t = tile c t := h.2.1 t ht

/-- A part of the chip other than its registers, tiles and reports stays. -/
theorem part_of_frameButReports {β : Type} (g : Chip → β) (hg : ∀ d rs us ps, g { d with regs := rs, tiles := us, reports := ps } = g d)
    (h : FrameButReports as ts c c') : g c' = g c :=
  calc g c' = g { c' with reports := c.reports } := (hg c' c'.regs c'.tiles c.reports).symm
    _ = g { c with regs := c'.regs, tiles := c'.tiles } := congrArg g h.2.2
    _ = g c := hg c c'.regs c'.tiles c.reports

end

/-! ### What a read's errors leave (R91, Table 3.4) -/

theorem mem_eccRegs {t a : Nat} : a ∈ eccRegs t ↔ a = 0x100000080014 + 0x100000 * t ∨ a = 0x10000008002C + 0x100000 * t ∨
    a = 0x100000080030 + 0x100000 * t ∨ a = 0x100000080034 + 0x100000 * t ∨ a = 0x100000080038 + 0x100000 * t ∨
    a = 0x10000008003C + 0x100000 * t := by
  simp only [eccRegs, List.mem_cons, List.not_mem_nil, or_false]
  rfl

/-- Between `c` and `c'` reads of tile `t` have noted errors: in the tile's error registers, and as reports of cause 3. -/
def ErrorsNoted (t : Nat) (c c' : Chip) : Prop :=
  FrameButReports (eccRegs t) [] c c' ∧ ∃ l, c'.reports = c.reports ++ l ∧ ∀ r, r ∈ l → r.cause = 3 ∧ r.tile = t

theorem errorsNoted_of_frame {t : Nat} {c c' : Chip} (h : Frame (eccRegs t) [] c c') : ErrorsNoted t c c' :=
  ⟨frameButReports_of_frame h, [], by rw [List.append_nil]; exact (congrArg Chip.reports h.2.2 :), by simp⟩

theorem errorsNoted_refl (t : Nat) (c : Chip) : ErrorsNoted t c c := errorsNoted_of_frame (frame_refl ..)

theorem errorsNoted_trans {t : Nat} {c c' c'' : Chip} (h : ErrorsNoted t c c') (h' : ErrorsNoted t c' c'') : ErrorsNoted t c c'' := by
  obtain ⟨hf, l, hl, hc⟩ := h
  obtain ⟨hf', l', hl', hc'⟩ := h'
  refine ⟨frameButReports_trans hf hf', l ++ l', by rw [hl', hl, List.append_assoc], fun r hr => ?_⟩
  exact (List.mem_append.1 hr).elim (hc r) (hc' r)

theorem errorsNoted_forAll {α : Type} {t : Nat} {f : α → Chip → Chip} (l : List α) (h : ∀ x c, ErrorsNoted t c (f x c)) (c : Chip) :
    ErrorsNoted t c (forAll f l c) :=
  forAll_keeps (P := ErrorsNoted t c) l (fun x _ d hd => errorsNoted_trans hd (h x d)) c (errorsNoted_refl t c)

theorem frame_noteError {as ts : List Nat} {t : Nat} (h : ∀ a, a ∈ eccRegs t → a ∈ as) (p : Nat × Nat) (c : Chip) :
    Frame as ts c (noteError t p c) := by
  unfold noteError
  split
  · refine frame_putNum _ _ (h _ (by simp [eccRegs])) (frame_count _ _ (h _ ?_) (frame_raise _ _ (h _ (by simp [eccRegs])) (frame_refl ..)))
    split <;> simp [eccRegs]
  · refine frame_count _ _ (h _ ?_) (frame_refl ..)
    split <;> simp [eccRegs]

/-- A report leaves everything but the reports. -/
theorem frameButReports_reportTile (as ts : List Nat) (t cause : Nat) (c : Chip) : FrameButReports as ts c (reportTile t cause c) := by
  unfold reportTile
  split <;> exact frame_refl as ts c

theorem reports_reportTile {t cause : Nat} {c : Chip} {j : Nat} (h : jobOfTile c t = some j) :
    (reportTile t cause c).reports = c.reports ++ [{ job := j, step := jobStep c j, cause := cause, tile := t, checker := t }] := by
  simp [reportTile, h, reportJob]

theorem errorsNoted_reportTile (t : Nat) (c : Chip) : ErrorsNoted t c (reportTile t 3 c) := by
  refine ⟨frameButReports_reportTile _ _ t 3 c, ?_⟩
  cases h : jobOfTile c t with
  | none => exact ⟨[], by simp [reportTile, h], by simp⟩
  | some j => exact ⟨_, reports_reportTile h, by simp⟩

/-- A read whose words carry no error leaves nothing. -/
theorem engineRead_clean {t a n : Nat} {c : Chip} (h : eccIn c a n = []) : engineRead t a n c = c := by simp [engineRead, h]

theorem errorsNoted_engineRead (t a n : Nat) (c : Chip) : ErrorsNoted t c (engineRead t a n c) := by
  cases h : eccIn c a n with
  | nil => rw [engineRead_clean h]; exact errorsNoted_refl t c
  | cons e es =>
    have hnote := errorsNoted_forAll (e :: es) (fun p c => errorsNoted_of_frame (frame_noteError (t := t) (fun _ h => h) p c)) c
    simp only [engineRead, h]
    cases (e :: es).any (fun p => p.2 == 2) with
    | false => exact hnote
    | true => exact errorsNoted_trans hnote (errorsNoted_reportTile t _)

theorem errorsNoted_readSpill (t : Nat) (c : Chip) : ErrorsNoted t c (readSpill t c) :=
  errorsNoted_forAll _ (fun a d => errorsNoted_engineRead t a 8 d) c

/-- A fold whose steps each leave `c` leaves `c`. -/
theorem forAll_fixed {α : Type} {f : α → Chip → Chip} (l : List α) (c : Chip) (h : ∀ x, x ∈ l → f x c = c) : forAll f l c = c :=
  forAll_keeps (P := fun d => d = c) l (fun x hx d hd => by rw [hd]; exact h x hx) c rfl

theorem readSpill_clean {t : Nat} {c : Chip} (h : SpillClean t c) : readSpill t c = c := by
  refine forAll_fixed _ c (fun a ha => ?_)
  obtain ⟨i, hi, rfl⟩ := List.mem_map.1 ha
  exact engineRead_clean (h i (List.mem_range.1 hi))

/-! ### Fault bits stay raised -/

/-- A raised fault bit of a tile stays raised while another is raised. -/
theorem rflag_raise_of_raised {a j : Nat} {c : Chip} (i : Nat) (hi : i < 32) (h : rflag c a j = true) : rflag (raise a i c) a j = true := by
  by_cases hj : j = i
  · rw [hj]; exact rflag_raise a i c hi
  · exact (rflag_setBit_bit a hi hj true c).trans h

section
variable {t i : Nat} {c : Chip} (h : rflag c (Reg.TILE_FAULT t) i = true)
include h

theorem fault_noteError (p : Nat × Nat) : rflag (noteError t p c) (Reg.TILE_FAULT t) i = true := by
  have hcount : ∀ (b : Bool) (x y n : Nat) (d : Chip), Reg.TILE_FAULT t ≠ x → Reg.TILE_FAULT t ≠ y →
      reg (count (if b then x else y) n d) (Reg.TILE_FAULT t) = reg d (Reg.TILE_FAULT t) := by
    intro b x y n d hx hy
    cases b
    · exact reg_count_ne hy n d
    · exact reg_count_ne hx n d
  have hraise : ∀ b : Bool, rflag (raise (Reg.TILE_FAULT t) (if b then 3 else 2) c) (Reg.TILE_FAULT t) i = true := by
    intro b
    refine rflag_raise_of_raised _ ?_ h
    split <;> decide
  unfold noteError
  split
  · refine (rflag_congr ?_).trans (hraise (inStore (8 * p.1)))
    rw [reg_putNum_ne (by simp [Reg.TILE_FAULT, Reg.TILE_ECC_LAST])]
    exact hcount _ _ _ _ _ (by simp [Reg.TILE_FAULT, Reg.TILE_STORE_UE]) (by simp [Reg.TILE_FAULT, Reg.TILE_SRAM_UE])
  · refine (rflag_congr ?_).trans h
    exact hcount _ _ _ _ _ (by simp [Reg.TILE_FAULT, Reg.TILE_STORE_CE]) (by simp [Reg.TILE_FAULT, Reg.TILE_SRAM_CE])

theorem fault_reportTile (cause : Nat) : rflag (reportTile t cause c) (Reg.TILE_FAULT t) i = true :=
  (rflag_congr (reg_of_frameButReports (frameButReports_reportTile [] [] t cause c) (by simp))).trans h

theorem fault_engineRead (a n : Nat) : rflag (engineRead t a n c) (Reg.TILE_FAULT t) i = true := by
  cases he : eccIn c a n with
  | nil => rwa [engineRead_clean he]
  | cons e es =>
    have hnote := forAll_keeps (P := fun d => rflag d (Reg.TILE_FAULT t) i = true) (e :: es) (fun p _ _ hd => fault_noteError hd p) c h
    simp only [engineRead, he]
    cases (e :: es).any (fun p => p.2 == 2) with
    | false => exact hnote
    | true => exact fault_reportTile hnote 3

theorem fault_readSpill : rflag (readSpill t c) (Reg.TILE_FAULT t) i = true :=
  forAll_keeps (P := fun d => rflag d (Reg.TILE_FAULT t) i = true) _ (fun a _ _ hd => fault_engineRead hd a 8) c h

end

/-! ### The spill of a tile -/

theorem spillAddr_congr {t : Nat} {c c' : Chip} (ht : tile c' t = tile c t)
    (hr : reg c' (Reg.TILE_REGION t 7) = reg c (Reg.TILE_REGION t 7)) (i : Nat) : spillAddr c' t i = spillAddr c t i := by
  simp only [spillAddr, spillCap, regionBase, regionSize, rfld, ht, hr]

/-- A spill without errors stays so while the tile, its spill region and the error marks stay. -/
theorem spillClean_congr {t : Nat} {c c' : Chip} (ht : tile c' t = tile c t)
    (hr : reg c' (Reg.TILE_REGION t 7) = reg c (Reg.TILE_REGION t 7)) (he : c'.ecc = c.ecc) (h : SpillClean t c) : SpillClean t c' := by
  intro i hi
  rw [ht] at hi
  rw [spillAddr_congr ht hr, eccIn, he]
  exact h i hi

/-! ### Fences (R102, R115) -/

/-- What a fence leaves of a tile's units: the sequencer in `mode`, no work in progress, nothing held. -/
def fencedUnits (mode : SeqMode) (T : Tile) : Tile :=
  { T with
    seq := { T.seq with mode := mode, integrate := false }
    evq := { T.evq with queue := [], spillHead := 0, spillLen := 0 }
    nrn := { T.nrn with updLeft := none }
    lrn := { T.lrn with mowLeft := none } }

/-- FENCE set and the spill read: what a fence does before it drops the events held. -/
def fenceRead (t : Nat) (c : Chip) : Chip := readSpill t (setBit (Reg.TILE_CTRL t) 31 true c)

theorem fenceTile_open {t : Nat} {c : Chip} (mode : SeqMode) (h : fenced c t = false) :
    fenceTile t mode c = forAll (dropFenced t) (heldEvents c t) (modTile t (fencedUnits mode) (fenceRead t c)) := by
  unfold fenceTile
  rw [h]
  rfl

theorem errorsNoted_fenceRead (t : Nat) (c : Chip) : ErrorsNoted t (setBit (Reg.TILE_CTRL t) 31 true c) (fenceRead t c) :=
  errorsNoted_readSpill ..

theorem fenceRead_clean {t : Nat} {c : Chip} (h : SpillClean t c) : fenceRead t c = setBit (Reg.TILE_CTRL t) 31 true c :=
  readSpill_clean (spillClean_congr (c := c) rfl (reg_setBit_ne (by simp [Reg.TILE_REGION, Reg.TILE_CTRL]; omega) ..) rfl h)

/-- Dropping held events moves nothing but TILE_DROP_FENCED and the tile's census. -/
theorem frame_dropHeld (t : Nat) (es : List DWord) (c : Chip) : Frame [Reg.TILE_DROP_FENCED t] [t] c (forAll (dropFenced t) es c) :=
  frame_forAll es (fun _ _ _ hd => frame_modTile _ _ (by simp) (frame_count _ _ (by simp) hd)) (frame_refl ..)

theorem seq_evq_dropHeld (t : Nat) (es : List DWord) (c : Chip) :
    ((tile (forAll (dropFenced t) es c) t).seq, (tile (forAll (dropFenced t) es c) t).evq) = ((tile c t).seq, (tile c t).evq) :=
  forAll_leaves (fun d => ((tile d t).seq, (tile d t).evq)) es (fun f d => by simp [dropFenced, undeliver]) c

/-- Each event dropped as fenced is counted (R102). -/
theorem advanced_dropHeld (t : Nat) (es : List DWord) (c : Chip) :
    Advanced (Reg.TILE_DROP_FENCED t) es.length c (forAll (dropFenced t) es c) := by
  induction es generalizing c with
  | nil =>
    have hlt := (reg c (Reg.TILE_DROP_FENCED t)).isLt
    simp only [Advanced, forAll_nil, List.length_nil]
    omega
  | cons f fs ih =>
    have hone : (reg (dropFenced t f c) (Reg.TILE_DROP_FENCED t)).toNat = min ((reg c (Reg.TILE_DROP_FENCED t)).toNat + 1) 4294967295 :=
      advanced_count _ 1 c
    have hrest := ih (dropFenced t f c)
    rw [Advanced, hone] at hrest
    rw [Advanced, forAll_cons, hrest, List.length_cons]
    omega

section
variable {t : Nat} {c : Chip} (mode : SeqMode) (h : fenced c t = false)
include h

/-- A fence stays within the tile, its control and count registers and what its reads of the spill note. -/
theorem frame_fenceTile :
    FrameButReports ([Reg.TILE_CTRL t, Reg.TILE_DROP_FENCED t] ++ eccRegs t) [t] c (fenceTile t mode c) := by
  rw [fenceTile_open mode h]
  have hset : FrameButReports ([Reg.TILE_CTRL t, Reg.TILE_DROP_FENCED t] ++ eccRegs t) [t] c (setBit (Reg.TILE_CTRL t) 31 true c) :=
    frameButReports_of_frame (frame_setBit _ _ _ (by simp) (frame_refl ..))
  have hread : FrameButReports ([Reg.TILE_CTRL t, Reg.TILE_DROP_FENCED t] ++ eccRegs t) [t] _ (fenceRead t c) :=
    frameButReports_mono (fun a ha => List.mem_append_right _ ha) (by simp) (errorsNoted_fenceRead t c).1
  refine frameButReports_trans (frameButReports_trans hset hread) (frameButReports_of_frame ?_)
  exact frame_trans (frame_modTile _ _ (by simp) (frame_refl ..)) (frame_mono (by simp) (by simp) (frame_dropHeld ..))

/-- A fence whose spill holds no error stays within the tile and its control and count registers. -/
theorem frame_fenceTile_clean (hs : SpillClean t c) : Frame [Reg.TILE_CTRL t, Reg.TILE_DROP_FENCED t] [t] c (fenceTile t mode c) := by
  rw [fenceTile_open mode h, fenceRead_clean hs]
  exact frame_trans (frame_modTile _ _ (by simp) (frame_setBit _ _ _ (by simp) (frame_refl ..))) (frame_mono (by simp) (by simp) (frame_dropHeld ..))

theorem units_fenceTile :
    (tile (fenceTile t mode c) t).seq.mode = mode ∧ (tile (fenceTile t mode c) t).evq.queue = [] ∧
      (tile (fenceTile t mode c) t).evq.spillLen = 0 := by
  rw [fenceTile_open mode h]
  have hkept := seq_evq_dropHeld t (heldEvents c t) (modTile t (fencedUnits mode) (fenceRead t c))
  rw [tile_modTile_same] at hkept
  obtain ⟨hseq, hevq⟩ := Prod.mk.inj hkept
  rw [hseq, hevq]
  exact ⟨rfl, rfl, rfl⟩

/-- The registers that neither the drops nor the reads write, after a fence. -/
theorem reg_fenceTile {a : Nat} (hd : a ≠ Reg.TILE_DROP_FENCED t) (he : a ∉ eccRegs t) :
    reg (fenceTile t mode c) a = reg (setBit (Reg.TILE_CTRL t) 31 true c) a := by
  rw [fenceTile_open mode h, (frame_dropHeld t _ _).1 a (by simpa using hd)]
  exact reg_of_frameButReports (c' := fenceRead t c) (errorsNoted_fenceRead t c).1 he

theorem ctrl_fenceTile : reg (fenceTile t mode c) (Reg.TILE_CTRL t) = putBit (reg c (Reg.TILE_CTRL t)) 31 true := by
  rw [reg_fenceTile mode h (by simp [Reg.TILE_CTRL, Reg.TILE_DROP_FENCED]) (by rw [mem_eccRegs]; unfold Reg.TILE_CTRL; omega), reg_setBit_same]

theorem fenced_fenceTile : fenced (fenceTile t mode c) t = true := by
  rw [fenced, rflag, ctrl_fenceTile mode h, flag_putBit_same _ _ _ (by decide)]

theorem advanced_fenceTile : Advanced (Reg.TILE_DROP_FENCED t) (heldEvents c t).length c (fenceTile t mode c) := by
  have hbefore : reg (fenceRead t c) (Reg.TILE_DROP_FENCED t) = reg c (Reg.TILE_DROP_FENCED t) := by
    refine (reg_of_frameButReports (errorsNoted_fenceRead t c).1 ?_).trans (reg_setBit_ne ?_ ..)
    · rw [mem_eccRegs]; unfold Reg.TILE_DROP_FENCED; omega
    · unfold Reg.TILE_CTRL Reg.TILE_DROP_FENCED; omega
  rw [fenceTile_open mode h, Advanced, ← hbefore]
  exact advanced_dropHeld ..

/-- The reports that a fence makes are those of the errors in its spill. -/
theorem reports_fenceTile : ∃ l, (fenceTile t mode c).reports = c.reports ++ l ∧ (SpillClean t c → l = []) ∧
    ∀ r, r ∈ l → r.cause = 3 ∧ r.tile = t := by
  obtain ⟨-, l, hl, hcause⟩ := errorsNoted_fenceRead t c
  have hdrop : (fenceTile t mode c).reports = (fenceRead t c).reports := by
    rw [fenceTile_open mode h]
    exact (congrArg Chip.reports (frame_dropHeld t (heldEvents c t) (modTile t (fencedUnits mode) (fenceRead t c))).2.2 :)
  refine ⟨l, hdrop.trans hl, fun hs => ?_, hcause⟩
  rw [fenceRead_clean hs] at hl
  exact List.self_eq_append_right.1 hl

theorem fault_fenceTile {i : Nat} (hi : rflag c (Reg.TILE_FAULT t) i = true) : rflag (fenceTile t mode c) (Reg.TILE_FAULT t) i = true := by
  have hset : rflag (setBit (Reg.TILE_CTRL t) 31 true c) (Reg.TILE_FAULT t) i = true :=
    (rflag_congr (reg_setBit_ne (by simp [Reg.TILE_FAULT, Reg.TILE_CTRL]) ..)).trans hi
  rw [fenceTile_open mode h]
  refine (rflag_congr ?_).trans (fault_readSpill hset)
  exact (frame_dropHeld t _ _).1 _ (by simp [Reg.TILE_FAULT, Reg.TILE_DROP_FENCED])

end

/-! ### Steps and jobs seen past tile registers -/

theorem jobOfTile_of_frameButReports {as ts : List Nat} {c c' : Chip} (h : FrameButReports as ts c c') (t : Nat) :
    jobOfTile c' t = jobOfTile c t := by
  rw [jobOfTile, jobOfTile, part_of_frameButReports Chip.fieldJob (fun _ _ _ _ => rfl) h]

/-- The step of a job stays while only registers below the control space change. -/
theorem jobStep_of_frameButReports {as ts : List Nat} {c c' : Chip} (h : FrameButReports as ts c c') (ha : ∀ a ∈ as, a < 0x200000000000)
    (j : Nat) : jobStep c' j = jobStep c j := by
  have hnow : ∀ a, 0x200000000000 ≤ a → reg c' a = reg c a :=
    fun a hge => reg_of_frameButReports h (fun hmem => absurd (ha a hmem) (by omega))
  have htick : ∀ k, tickNow c' k = tickNow c k := fun k => by
    rw [tickNow, tickNow, reg2, reg2, hnow (Reg.TICK_TB_NOW_LO k) (by unfold Reg.TICK_TB_NOW_LO; omega),
      hnow (Reg.TICK_TB_NOW_HI k) (by unfold Reg.TICK_TB_NOW_HI; omega)]
  have hjob : jobAt c' j = jobAt c j := by
    rw [jobAt, jobAt, part_of_frameButReports Chip.jobs (fun _ _ _ _ => rfl) h]
  rw [jobStep, jobStep, hjob, htick]

/-! ### Illegal words (R108) -/

/-- What an illegal word leaves before the fence: the fault, the pointer and the report. -/
def illegalNoted (t : Nat) (c : Chip) : Chip :=
  c |> fetchCe t |> raise (Reg.TILE_FAULT t) (if fetchUe c t then 1 else 0) |> putNum (Reg.TILE_FAULT_PC t) (tile c t).seq.pc
    |> reportTile t 10

theorem illegalWordAt_fences {t : Nat} {c : Chip} (hb : seqBusy c t = true) (hw : (fetchUe c t || wIllegal (wordAt c t)) = true) :
    illegalWordAt t c = fenceTile t .fault (illegalNoted t c) := by
  unfold illegalWordAt
  rw [hb, hw]
  rfl

/-- The fault and the pointer noted, before the report. -/
def faultNoted (t : Nat) (c : Chip) : Chip :=
  c |> fetchCe t |> raise (Reg.TILE_FAULT t) (if fetchUe c t then 1 else 0) |> putNum (Reg.TILE_FAULT_PC t) (tile c t).seq.pc

theorem illegalNoted_eq (t : Nat) (c : Chip) : illegalNoted t c = reportTile t 10 (faultNoted t c) := rfl

theorem frame_faultNoted (t : Nat) (ts : List Nat) (c : Chip) : Frame (Reg.TILE_FAULT_PC t :: eccRegs t) ts c (faultNoted t c) :=
  frame_putNum _ _ (by simp) (frame_raise _ _ (by simp [eccRegs]) (frame_fetchCe _ _ (by simp [eccRegs])))

theorem frame_illegalNoted (t : Nat) (ts : List Nat) (c : Chip) : FrameButReports (Reg.TILE_FAULT_PC t :: eccRegs t) ts c (illegalNoted t c) :=
  frameButReports_trans (frameButReports_of_frame (frame_faultNoted t ts c)) (frameButReports_reportTile ..)

theorem tileRegs_below {t a : Nat} (ht : t < 8192) (h : a ∈ Reg.TILE_FAULT_PC t :: eccRegs t) : a < 0x200000000000 := by
  rw [List.mem_cons, mem_eccRegs] at h
  unfold Reg.TILE_FAULT_PC at h
  omega

theorem reports_illegalNoted {t j : Nat} {c : Chip} (ht : t < 8192) (hj : jobOfTile c t = some j) :
    (illegalNoted t c).reports = c.reports ++ [{ job := j, step := jobStep c j, cause := 10, tile := t, checker := t }] := by
  have hf := frame_faultNoted t [] c
  have hb := frameButReports_of_frame hf
  have hr : (faultNoted t c).reports = c.reports := (congrArg Chip.reports hf.2.2 :)
  rw [illegalNoted_eq, reports_reportTile ((jobOfTile_of_frameButReports hb t).trans hj),
    jobStep_of_frameButReports hb (fun a ha => tileRegs_below ht ha), hr]

theorem fault_illegalNoted (t : Nat) (c : Chip) :
    rflag (illegalNoted t c) (Reg.TILE_FAULT t) (if fetchUe c t then 1 else 0) = true := by
  refine fault_reportTile ?_ 10
  rw [rflag_congr (reg_putNum_ne (by simp [Reg.TILE_FAULT, Reg.TILE_FAULT_PC]) ..)]
  exact rflag_raise _ _ _ (by split <;> decide)

theorem faultPc_illegalNoted (t : Nat) (c : Chip) : reg (illegalNoted t c) (Reg.TILE_FAULT_PC t) = BitVec.ofNat 32 (tile c t).seq.pc := by
  rw [illegalNoted, reg_of_frameButReports (frameButReports_reportTile [] [] ..) (by simp)]
  exact reg_putNum_same ..

/-! ### END (R103, R114) -/

theorem reg_peak_ne {a b : Nat} (h : b ≠ a) (n : Nat) (c : Chip) : reg (peak a n c) b = reg c b := by
  unfold peak
  split
  · exact reg_putNum_ne h n c
  · rfl

/-- A largest value takes a value of 32 bits that is larger. -/
theorem reg_peak_same (a : Nat) {n : Nat} (hn : n < 2 ^ 32) (c : Chip) : (reg (peak a n c) a).toNat = max (reg c a).toNat n := by
  unfold peak
  split
  · rw [reg_putNum_same, BitVec.toNat_ofNat, Nat.mod_eq_of_lt hn]; omega
  · omega

/-- The sequencer at the end of its schedule (R103, R109). -/
def endUnits (on : Bool) (T : Tile) : Tile := { T with seq := { T.seq with mode := if on then .ended else .stopped } }

theorem endSchedule_at {t clk : Nat} {c : Chip} (h : atWord c t 0x3F = true) :
    endSchedule t clk c = peak (Reg.TILE_END_MAX t) (min clk 0x1FFFFFF)
      (setFld (Reg.TILE_END_CLK t) 24 0 (min clk 0x1FFFFFF) (modTile t (endUnits (seqEn c t)) (fetchCe t c))) := if_pos h

theorem frame_endSchedule {t clk : Nat} {c : Chip} (h : atWord c t 0x3F = true) :
    Frame [Reg.TILE_SRAM_CE t, Reg.TILE_END_CLK t, Reg.TILE_END_MAX t] [t] c (endSchedule t clk c) := by
  rw [endSchedule_at h]
  exact frame_peak _ _ (by simp) (frame_setFld _ _ _ _ (by simp) (frame_modTile _ _ (by simp) (frame_fetchCe _ _ (by simp))))

theorem mode_endSchedule {t clk : Nat} {c : Chip} (h : atWord c t 0x3F = true) :
    (tile (endSchedule t clk c) t).seq.mode = if seqEn c t then .ended else .stopped := by
  rw [endSchedule_at h, tile_peak, show ∀ (a hi lo x : Nat) (d : Chip), tile (setFld a hi lo x d) t = tile d t from fun _ _ _ _ _ => rfl,
    tile_modTile_same]
  rfl

theorem endClk_endSchedule {t clk : Nat} {c : Chip} (h : atWord c t 0x3F = true) :
    rfld (endSchedule t clk c) (Reg.TILE_END_CLK t) 24 0 = min clk 0x1FFFFFF := by
  rw [endSchedule_at h, rfld_congr (reg_peak_ne (by simp [Reg.TILE_END_CLK, Reg.TILE_END_MAX]) ..), rfld_setFld _ _ _ _ _ (by decide) (by decide)]
  exact Nat.mod_eq_of_lt (by omega)

theorem endMax_endSchedule {t clk : Nat} {c : Chip} (h : atWord c t 0x3F = true) :
    (reg (endSchedule t clk c) (Reg.TILE_END_MAX t)).toNat = max (reg c (Reg.TILE_END_MAX t)).toNat (min clk 0x1FFFFFF) := by
  have hbefore : reg (setFld (Reg.TILE_END_CLK t) 24 0 (min clk 0x1FFFFFF) (modTile t (endUnits (seqEn c t)) (fetchCe t c))) (Reg.TILE_END_MAX t) =
      reg c (Reg.TILE_END_MAX t) :=
    (reg_setFld_ne (by simp [Reg.TILE_END_CLK, Reg.TILE_END_MAX]) ..).trans (reg_fetchCe_ne (by simp [Reg.TILE_END_MAX, Reg.TILE_SRAM_CE]) c)
  rw [endSchedule_at h, reg_peak_same _ (by omega), hbefore]

/-! ### The obligation -/

/-- Settles O11: END by its four parts; an illegal word by what it notes, then by the fence. -/
theorem endAndIllegalWords : Obligations.EndAndIllegalWords := by
  intro t clk s hd
  refine ⟨fun hw => ?ends, fun hb hf hw => ?illegal⟩
  case ends =>
    exact ⟨_, completes_tile rfl hd rfl, mode_endSchedule hw, endClk_endSchedule hw, endMax_endSchedule hw, frame_endSchedule hw⟩
  case illegal =>
    have hnoted := frame_illegalNoted t [] s.chip
    have hkept : ∀ a, a ≠ Reg.TILE_FAULT_PC t → a ∉ eccRegs t → reg (illegalNoted t s.chip) a = reg s.chip a :=
      fun a hpc hecc => reg_of_frameButReports hnoted (by simp [hpc, hecc])
    have hopen : fenced (illegalNoted t s.chip) t = false := by
      refine (rflag_congr (hkept _ (by simp [Reg.TILE_CTRL, Reg.TILE_FAULT_PC]) ?_)).trans hf
      rw [mem_eccRegs]; unfold Reg.TILE_CTRL; omega
    refine ⟨_, completes_tile rfl hd (illegalWordAt_fences hb hw), fault_fenceTile _ hopen (fault_illegalNoted ..), ?_,
      fenced_fenceTile _ hopen, (units_fenceTile _ hopen).1, fun j hj => ?_, ?_⟩
    · rw [reg_fenceTile _ hopen (by simp [Reg.TILE_FAULT_PC, Reg.TILE_DROP_FENCED]) (by rw [mem_eccRegs]; unfold Reg.TILE_FAULT_PC; omega),
        reg_setBit_ne (by simp [Reg.TILE_FAULT_PC, Reg.TILE_CTRL]), faultPc_illegalNoted]
    · obtain ⟨l, hl, hclean, hcause⟩ := reports_fenceTile .fault hopen
      refine ⟨l, by rw [hl, reports_illegalNoted t.isLt hj, List.append_assoc]; rfl, fun hs => hclean (spillClean_congr ?_ ?_ ?_ hs), hcause⟩
      · exact tile_of_frameButReports hnoted (by simp)
      · refine hkept _ (by simp [Reg.TILE_REGION, Reg.TILE_FAULT_PC]; omega) ?_
        rw [mem_eccRegs]; unfold Reg.TILE_REGION; omega
      · exact part_of_frameButReports Chip.ecc (fun _ _ _ _ => rfl) hnoted
    · refine frameButReports_trans (frameButReports_mono ?_ (by simp) hnoted) (frameButReports_mono ?_ (by simp) (frame_fenceTile _ hopen))
      · simp only [List.mem_append, List.mem_cons]
        tauto
      · simp only [List.mem_append, List.mem_cons]
        tauto

end Sys2Proof.Machine
end

section
/-!
PROOFS. The control bits of a tile (R102, R109, R111, R115, R126; Tables 3.11, 4.9).
-/

namespace Sys2Proof.Machine

open Sys2Proof.Safety

/-! ### SEQ_EN (R109) -/

/-- The units of a tile whose SEQ_EN becomes 1. -/
def enabledUnits (T : Tile) : Tile :=
  { T with
    seq := { T.seq with mode := match T.seq.mode with | .stopped | .ended => .waitTick | m => m }
    lrn := { T.lrn with epochFresh := true } }

/-- The units of a tile whose SEQ_EN becomes 0. -/
def disabledUnits (T : Tile) : Tile :=
  { T with seq := { T.seq with mode := match T.seq.mode with | .waitTick | .ended => .stopped | m => m } }

section
variable {t : Nat} {c : Chip}

theorem setSeqEn_off (h : seqEn c t = false) : setSeqEn t c = modTile t enabledUnits (setBit (Reg.TILE_CTRL t) 0 true c) := by
  unfold setSeqEn
  rw [h]
  rfl

theorem setSeqEn_on (h : seqEn c t = true) : setSeqEn t c = c := if_pos h

theorem clearSeqEn_eq : clearSeqEn t c = modTile t disabledUnits (setBit (Reg.TILE_CTRL t) 0 false c) := rfl

/-! ### PRIME (R126) -/

/-- Every neuron marked in every slot. -/
def primedUnits (T : Tile) : Tile :=
  { T with nrn := { T.nrn with
      upd := [(0, allNeurons), (1, allNeurons), (2, allNeurons)]
      pst := [(0, allNeurons), (1, allNeurons), (2, allNeurons)]
      unionLeft := 0 } }

theorem primeTile_off (h : seqEn c t = false) : primeTile t c = modTile t primedUnits c := by
  unfold primeTile
  rw [h]
  rfl

end

/-- A control bit of the tile written and its units changed: nothing else. -/
theorem frame_control (t i : Nat) (b : Bool) (f : Tile → Tile) (c : Chip) :
    Frame [Reg.TILE_CTRL t] [t] c (modTile t f (setBit (Reg.TILE_CTRL t) i b c)) :=
  frame_modTile _ _ (by simp) (frame_setBit _ _ _ (by simp) (frame_refl ..))

/-- Each of the three slots of a primed bitmap has every neuron. -/
theorem primed_slot {k : Nat} (h : k < 3) :
    mapGet (fun _ => 0) [(0, allNeurons), (1, allNeurons), (2, allNeurons)] k = allNeurons := by
  obtain rfl | rfl | rfl : k = 0 ∨ k = 1 ∨ k = 2 := by omega
  all_goals rfl

/-! ### The obligation -/

/-- Settles O12: each control bit by what its write leaves; FENCE_SET by what a fence leaves. -/
theorem tileControlBits : Obligations.TileControlBits := by
  intro t s hd
  refine ⟨fun h => ?enable, fun h => ?enabled, ?disable, fun h => ?fence, ?pepper, fun h => ?prime⟩
  case enable =>
    refine ⟨_, completes_tile rfl hd (setSeqEn_off h), reg_setBit_same .., ?_, frame_control ..⟩
    rw [tile_modTile_same]
    rfl
  case enabled => exact ⟨_, completes_tile rfl hd (setSeqEn_on h), rfl⟩
  case disable =>
    refine ⟨_, completes_tile rfl hd clearSeqEn_eq, reg_setBit_same .., ?_, frame_control ..⟩
    rw [tile_modTile_same]
    rfl
  case fence =>
    obtain ⟨hmode, hqueue, hspill⟩ := units_fenceTile .fenced h
    exact ⟨_, completes_tile rfl hd rfl, ctrl_fenceTile _ h, hmode, hqueue, hspill, advanced_fenceTile _ h, frame_fenceTile _ h,
      frame_fenceTile_clean _ h⟩
  case pepper => exact ⟨_, completes_tile rfl hd rfl, tile_modTile_same .., frame_modTile _ _ (by simp) (frame_refl ..)⟩
  case prime =>
    refine ⟨_, completes_tile rfl hd (primeTile_off h), fun k hk => ?_, frame_modTile _ _ (by simp) (frame_refl ..)⟩
    rw [tile_modTile_same]
    exact ⟨primed_slot hk, primed_slot hk⟩

end Sys2Proof.Machine
end

section
/-!
PROOFS. Retention of a tile's banks (R92 to R94): each bank by itself.
-/

namespace Sys2Proof.Machine

open Sys2Proof.Safety

/-! ### A fold in which one element acts -/

/-- What the step of one element turns `P` into `Q`, where every other step keeps both. -/
theorem forAll_through {α : Type} {P Q : Chip → Prop} {f : α → Chip → Chip} {b : α} (l : List α) (hb : b ∈ l) (hn : l.Nodup)
    (hP : ∀ k ∈ l, k ≠ b → ∀ c, P c → P (f k c)) (hstep : ∀ c, P c → Q (f b c)) (hQ : ∀ k ∈ l, k ≠ b → ∀ c, Q c → Q (f k c))
    (c : Chip) (hc : P c) : Q (forAll f l c) := by
  induction l generalizing c with
  | nil => simp at hb
  | cons x xs ih =>
    obtain ⟨hx, hxs⟩ := List.nodup_cons.1 hn
    by_cases hxb : x = b
    · subst hxb
      exact forAll_keeps xs (fun k hk d => hQ k (List.mem_cons_of_mem _ hk) (fun e => hx (e ▸ hk)) d) _ (hstep c hc)
    · have hbx : b ∈ xs := (List.mem_cons.1 hb).resolve_left (Ne.symm hxb)
      exact ih hbx hxs (fun k hk => hP k (List.mem_cons_of_mem _ hk)) (fun k hk => hQ k (List.mem_cons_of_mem _ hk)) _
        (hP x List.mem_cons_self hxb c hc)

/-! ### One bank -/

/-- Bank `b` of tile `t` taken into retention (`on`), or taken out of it: then it wakes. -/
def bankMoved (t b : Nat) (on : Bool) (c : Chip) : Chip :=
  c |> setBit (Reg.TILE_SRAM_RET t) b on |> setBit (Reg.TILE_SRAM_RET_STATUS t) b on |> setBit (Reg.TILE_SRAM_RET_STATUS t) (8 + b) (!on)

/-- Everything that one bank of a request can do. -/
theorem retainBank_cases (t want b : Nat) (c : Chip) :
    (bit want b = rflag c (Reg.TILE_SRAM_RET t) b ∧ retainBank t want b c = c) ∨
    (bit want b = true ∧ rflag c (Reg.TILE_SRAM_RET t) b = false ∧ rflag c (Reg.TILE_SRAM_USE t) b = true ∧
      retainBank t want b c = raise (Reg.TILE_FAULT t) 4 c) ∨
    (bit want b = true ∧ rflag c (Reg.TILE_SRAM_RET t) b = false ∧ rflag c (Reg.TILE_SRAM_USE t) b = false ∧
      retainBank t want b c = bankMoved t b true c) ∨
    (bit want b = false ∧ rflag c (Reg.TILE_SRAM_RET t) b = true ∧ retainBank t want b c = bankMoved t b false c) := by
  unfold retainBank bankMoved
  cases bit want b with
  | false => cases rflag c (Reg.TILE_SRAM_RET t) b <;> simp
  | true =>
    cases rflag c (Reg.TILE_SRAM_RET t) b with
    | false => cases rflag c (Reg.TILE_SRAM_USE t) b <;> simp
    | true => simp

/-- Retained, shown as retained, shown as waking, used: the bits of bank `b` of tile `t`. -/
def bankBits (t b : Nat) (c : Chip) : Bool × Bool × Bool × Bool :=
  (rflag c (Reg.TILE_SRAM_RET t) b, rflag c (Reg.TILE_SRAM_RET_STATUS t) b, rflag c (Reg.TILE_SRAM_RET_STATUS t) (8 + b),
    rflag c (Reg.TILE_SRAM_USE t) b)

theorem flags_of_bankBits {t b : Nat} {c : Chip} {ret shown waking use : Bool} (h : bankBits t b c = (ret, shown, waking, use)) :
    rflag c (Reg.TILE_SRAM_RET t) b = ret ∧ rflag c (Reg.TILE_SRAM_RET_STATUS t) b = shown ∧
      rflag c (Reg.TILE_SRAM_RET_STATUS t) (8 + b) = waking := by
  simp only [bankBits, Prod.mk.injEq] at h
  obtain ⟨hret, hshown, hwaking, -⟩ := h
  exact ⟨hret, hshown, hwaking⟩

/-- What a request that asks `want` of a bank makes of its bits (R92, R93). -/
def bankRule (want : Bool) : Bool × Bool × Bool × Bool → Bool × Bool × Bool × Bool
  | (ret, shown, waking, use) => if want = ret ∨ (want && use) = true then (ret, shown, waking, use) else (want, want, !want, use)

section
variable {t b k : Nat} (c : Chip)

theorem bankBits_raise_fault : bankBits t b (raise (Reg.TILE_FAULT t) 4 c) = bankBits t b c := by
  have h : ∀ a, a ≠ Reg.TILE_FAULT t → ∀ i, rflag (raise (Reg.TILE_FAULT t) 4 c) a i = rflag c a i :=
    fun a ha i => rflag_congr (reg_raise_ne ha ..)
  have hret : Reg.TILE_SRAM_RET t ≠ Reg.TILE_FAULT t := by simp [Reg.TILE_SRAM_RET, Reg.TILE_FAULT]
  have hstatus : Reg.TILE_SRAM_RET_STATUS t ≠ Reg.TILE_FAULT t := by simp [Reg.TILE_SRAM_RET_STATUS, Reg.TILE_FAULT]
  have huse : Reg.TILE_SRAM_USE t ≠ Reg.TILE_FAULT t := by simp [Reg.TILE_SRAM_USE, Reg.TILE_FAULT]
  rw [bankBits, bankBits, h _ hret, h _ hstatus, h _ hstatus, h _ huse]

/-- The three registers after a bank has moved, bit by bit. -/
theorem rflags_bankMoved (hk : k < 8) (on : Bool) (i : Nat) :
    rflag (bankMoved t k on c) (Reg.TILE_SRAM_RET t) i = (if i = k then on else rflag c (Reg.TILE_SRAM_RET t) i) ∧
    rflag (bankMoved t k on c) (Reg.TILE_SRAM_RET_STATUS t) i =
      (if i = 8 + k then !on else if i = k then on else rflag c (Reg.TILE_SRAM_RET_STATUS t) i) ∧
    rflag (bankMoved t k on c) (Reg.TILE_SRAM_USE t) i = rflag c (Reg.TILE_SRAM_USE t) i := by
  have hbit : ∀ (a j : Nat) (x : Bool) (d : Chip), j < 32 → rflag (setBit a j x d) a i = if i = j then x else rflag d a i := by
    intro a j x d hj
    split
    · next h => rw [h, rflag_setBit_same a hj]
    · next h => exact rflag_setBit_bit a hj h x d
  have hother : ∀ (a a' j : Nat) (x : Bool) (d : Chip), a ≠ a' → rflag (setBit a' j x d) a i = rflag d a i :=
    fun _ _ j x d h => rflag_congr (reg_setBit_ne h j x d)
  have hrs : Reg.TILE_SRAM_RET t ≠ Reg.TILE_SRAM_RET_STATUS t := by simp [Reg.TILE_SRAM_RET, Reg.TILE_SRAM_RET_STATUS]
  have hus : Reg.TILE_SRAM_USE t ≠ Reg.TILE_SRAM_RET_STATUS t := by simp [Reg.TILE_SRAM_USE, Reg.TILE_SRAM_RET_STATUS]
  have hur : Reg.TILE_SRAM_USE t ≠ Reg.TILE_SRAM_RET t := by simp [Reg.TILE_SRAM_USE, Reg.TILE_SRAM_RET]
  refine ⟨?_, ?_, ?_⟩
  · rw [bankMoved, hother _ _ _ _ _ hrs, hother _ _ _ _ _ hrs, hbit _ _ _ _ (by omega)]
  · rw [bankMoved, hbit _ _ _ _ (by omega), hbit _ _ _ _ (by omega), hother _ _ _ _ _ hrs.symm]
  · rw [bankMoved, hother _ _ _ _ _ hus, hother _ _ _ _ _ hus, hother _ _ _ _ _ hur]

theorem bankBits_bankMoved_same (hb : b < 8) (on : Bool) :
    bankBits t b (bankMoved t b on c) = (on, on, !on, rflag c (Reg.TILE_SRAM_USE t) b) := by
  simp [bankBits, rflags_bankMoved c hb on]

theorem bankBits_bankMoved_ne (hb : b < 8) (hk : k < 8) (h : b ≠ k) (on : Bool) : bankBits t b (bankMoved t k on c) = bankBits t b c := by
  have h1 : b ≠ 8 + k := by omega
  have h2 : 8 + b ≠ k := by omega
  simp [bankBits, rflags_bankMoved c hk on, h, h1, h2]

/-- A bank's own part of a request. -/
theorem bankBits_retainBank_same (hb : b < 8) (want : Nat) :
    bankBits t b (retainBank t want b c) = bankRule (bit want b) (bankBits t b c) := by
  obtain ⟨hw, he⟩ | ⟨hw, hr, hu, he⟩ | ⟨hw, hr, hu, he⟩ | ⟨hw, hr, he⟩ := retainBank_cases t want b c
  · simp [he, bankBits, bankRule, hw]
  · rw [he, bankBits_raise_fault]; simp [bankBits, bankRule, hw, hu]
  · rw [he, bankBits_bankMoved_same c hb]; simp [bankBits, bankRule, hw, hr, hu]
  · rw [he, bankBits_bankMoved_same c hb]; simp [bankBits, bankRule, hw, hr]

/-- Another bank's part of a request leaves a bank's bits. -/
theorem bankBits_retainBank_ne (hb : b < 8) (hk : k < 8) (h : b ≠ k) (want : Nat) : bankBits t b (retainBank t want k c) = bankBits t b c := by
  obtain ⟨-, he⟩ | ⟨-, -, -, he⟩ | ⟨-, -, -, he⟩ | ⟨-, -, he⟩ := retainBank_cases t want k c
  · rw [he]
  · rw [he, bankBits_raise_fault]
  · rw [he, bankBits_bankMoved_ne c hb hk h]
  · rw [he, bankBits_bankMoved_ne c hb hk h]

theorem frame_bankMoved (t b : Nat) (on : Bool) :
    Frame [Reg.TILE_SRAM_RET t, Reg.TILE_SRAM_RET_STATUS t] [] c (bankMoved t b on c) :=
  frame_setBit _ _ _ (by simp) (frame_setBit _ _ _ (by simp) (frame_setBit _ _ _ (by simp) (frame_refl ..)))

theorem frame_retainBank (t want b : Nat) :
    Frame [Reg.TILE_SRAM_RET t, Reg.TILE_SRAM_RET_STATUS t, Reg.TILE_FAULT t] [] c (retainBank t want b c) := by
  have hmoved : ∀ on, Frame [Reg.TILE_SRAM_RET t, Reg.TILE_SRAM_RET_STATUS t, Reg.TILE_FAULT t] [] c (bankMoved t b on c) :=
    fun on => frame_mono (by simp) (by simp) (frame_bankMoved c t b on)
  obtain ⟨-, he⟩ | ⟨-, -, -, he⟩ | ⟨-, -, -, he⟩ | ⟨-, -, he⟩ := retainBank_cases t want b c
  · rw [he]; exact frame_refl ..
  · rw [he]; exact frame_raise _ _ (by simp) (frame_refl ..)
  · rw [he]; exact hmoved true
  · rw [he]; exact hmoved false

/-- No bank's part of a request clears the fault bit. -/
theorem fault_retainBank (want : Nat) (h : rflag c (Reg.TILE_FAULT t) 4 = true) : rflag (retainBank t want k c) (Reg.TILE_FAULT t) 4 = true := by
  have hmoved : ∀ on, rflag (bankMoved t k on c) (Reg.TILE_FAULT t) 4 = true := fun on =>
    (rflag_congr ((frame_bankMoved c t k on).1 _ (by simp [Reg.TILE_FAULT, Reg.TILE_SRAM_RET, Reg.TILE_SRAM_RET_STATUS]))).trans h
  obtain ⟨-, he⟩ | ⟨-, -, -, he⟩ | ⟨-, -, -, he⟩ | ⟨-, -, he⟩ := retainBank_cases t want k c
  · rw [he]; exact h
  · rw [he]; exact rflag_raise _ _ _ (by decide)
  · rw [he]; exact hmoved true
  · rw [he]; exact hmoved false

/-! ### All eight banks -/

/-- A request acts on each bank by itself. -/
theorem bankBits_writeRetention (hb : b < 8) (want : Nat) :
    bankBits t b (writeRetention t want c) = bankRule (bit want b) (bankBits t b c) := by
  refine forAll_through (b := b) (P := fun d => bankBits t b d = bankBits t b c)
    (Q := fun d => bankBits t b d = bankRule (bit want b) (bankBits t b c)) _ (List.mem_range.2 hb) List.nodup_range ?_ ?_ ?_ c rfl
  · exact fun k hk hne d hd => (bankBits_retainBank_ne d hb (List.mem_range.1 hk) hne.symm want).trans hd
  · exact fun d hd => (bankBits_retainBank_same d hb want).trans (by rw [hd])
  · exact fun k hk hne d hd => (bankBits_retainBank_ne d hb (List.mem_range.1 hk) hne.symm want).trans hd

/-- A bank that is as it was asked to be, or that the image uses and is asked into retention, keeps its bits. -/
theorem bankBits_kept (hb : b < 8) {want : Nat}
    (h : bit want b = rflag c (Reg.TILE_SRAM_RET t) b ∨ (bit want b && rflag c (Reg.TILE_SRAM_USE t) b) = true) :
    bankBits t b (writeRetention t want c) = bankBits t b c := (bankBits_writeRetention c hb want).trans (if_pos h)

/-- Any other bank moves as asked. -/
theorem bankBits_moved (hb : b < 8) {want : Nat}
    (h : ¬ (bit want b = rflag c (Reg.TILE_SRAM_RET t) b ∨ (bit want b && rflag c (Reg.TILE_SRAM_USE t) b) = true)) :
    bankBits t b (writeRetention t want c) = (bit want b, bit want b, !bit want b, rflag c (Reg.TILE_SRAM_USE t) b) :=
  (bankBits_writeRetention c hb want).trans (if_neg h)

/-- A used bank that is asked into retention raises the fault (R93). -/
theorem fault_writeRetention (hb : b < 8) {want : Nat} (hw : bit want b = true) (hr : rflag c (Reg.TILE_SRAM_RET t) b = false)
    (hu : rflag c (Reg.TILE_SRAM_USE t) b = true) : rflag (writeRetention t want c) (Reg.TILE_FAULT t) 4 = true := by
  refine forAll_through (b := b) (P := fun d => rflag d (Reg.TILE_SRAM_RET t) b = false ∧ rflag d (Reg.TILE_SRAM_USE t) b = true)
    (Q := fun d => rflag d (Reg.TILE_FAULT t) 4 = true) _ (List.mem_range.2 hb) List.nodup_range ?_ ?_
    (fun _ _ _ d hd => fault_retainBank d want hd) c ⟨hr, hu⟩
  · intro k hk hne d hd
    have hbits := bankBits_retainBank_ne (t := t) d hb (List.mem_range.1 hk) hne.symm want
    simp only [bankBits, Prod.mk.injEq] at hbits
    obtain ⟨hret, -, -, huse⟩ := hbits
    exact ⟨hret.trans hd.1, huse.trans hd.2⟩
  · intro d hd
    simp only [retainBank, hw, hd.1, hd.2, if_true, Bool.false_eq_true, if_false]
    exact rflag_raise _ _ _ (by decide)

theorem frame_writeRetention (t want : Nat) :
    Frame [Reg.TILE_SRAM_RET t, Reg.TILE_SRAM_RET_STATUS t, Reg.TILE_FAULT t] [] c (writeRetention t want c) :=
  frame_forAll _ (fun b _ d hd => frame_trans hd (frame_retainBank d t want b)) (frame_refl ..)

end

/-! ### The obligation -/

/-- Settles O13: the bits of the bank named are what its own part of the request makes of them. -/
theorem bankRetention : Obligations.BankRetention := by
  intro t banks b s hd
  refine ⟨⟨_, completes_tile rfl hd rfl, fun hw hr hu => ?enters, fun hw hr hu => ⟨?stays, fault_writeRetention _ b.isLt hw hr hu⟩,
    fun hw hr => ?wakes, fun hw => ?kept, frame_writeRetention ..⟩, ?wake⟩
  case enters => simpa [hw] using flags_of_bankBits (bankBits_moved (t := t) s.chip b.isLt (want := banks.toNat) (by simp [hw, hr, hu]))
  case stays => exact (flags_of_bankBits (bankBits_kept s.chip b.isLt (.inr (by simp [hw, hu])))).1.trans hr
  case wakes => simpa [hw] using flags_of_bankBits (bankBits_moved (t := t) s.chip b.isLt (want := banks.toNat) (by simp [hw, hr]))
  case kept => exact (flags_of_bankBits (bankBits_kept s.chip b.isLt (.inl hw))).1
  case wake => exact ⟨_, completes_tile rfl hd rfl, reg_setBit_same .., frame_setBit _ _ _ (by simp) (frame_refl ..)⟩

end Sys2Proof.Machine
end

section
/-!
PROOFS. Management replies (R249, R251): where a reply at a tile does not show its STATUS, TAG and data.
-/

namespace Sys2Proof.Machine

open Sys2Proof.Safety

/-! ### A poisoned reply at a tile

A packet with POISON on a body flit is discarded whole (R251), at a tile's DMA port as at a tap: nothing of it is shown. The
statement asks of a tile that every reply be shown, poisoned or not; of a tap it asks so only of a reply without POISON. -/

/-- The head of a reply to tile 5 with one body flit, STATUS 0 and TAG 7. -/
def replyHead : Flit := { oneFlit 4 (mkHead 5 0 0 0 5 0 1 9 7) with tail := false }

/-- Its body flit, forwarded with POISON set after a bad CHECK. -/
def poisonedBody : Flit := { oneFlit 4 (mkBody 0x0201) with head := false, poison := true }

/-- Tile 5 with that reply at its Local port, by input port 0. -/
def poisonedReply : State :=
  { State.reset with chip := { tiles := [(5, { chn := { dma := [(4, [replyHead, poisonedBody])] } })] } }

theorem poisonedReply_found : dmaFind poisonedReply.chip 5 4 (fun _ => true) = some (0, replyHead, [poisonedBody]) := by decide +kernel

theorem replyHead_tag : fSub replyHead.data % 8192 = 7 := by decide +kernel

/-- The reply is taken off the port and nothing is shown. -/
theorem replyOut_after_poisonedReply : (chipAfter (.mgmtReply (.tile 5)) poisonedReply).replyOut = (0, 0, []) := by decide +kernel

/-- Refutes O59: the statement asks of every reply at a tile that it be shown, and in `poisonedReply` the reply carries POISON, is
discarded and leaves what was shown before, with TAG 0 where the reply's is 7. -/
theorem not_managementAndBar2 : ¬ Obligations.ManagementAndBar2 := by
  unfold Obligations.ManagementAndBar2
  intro h
  obtain ⟨-, -, hreply, -⟩ := h poisonedReply
  obtain ⟨-, hshown⟩ := hreply 5
  obtain ⟨c', hc, hout, -⟩ := hshown 0 replyHead [poisonedBody] poisonedReply_found
  rw [← chipAfter_of_completes hc, replyOut_after_poisonedReply, replyHead_tag] at hout
  obtain ⟨-, htag⟩ := Prod.mk.inj hout
  exact absurd (congrArg Prod.fst htag) (by decide)

end Sys2Proof.Machine
end

section
/-!
PROOFS. UPDATE (R104, R120, R122, R127 to R131, R138): the word at its gate, and one active neuron that does not fire.
-/

namespace Sys2Proof.Machine

open Sys2Proof.Safety

/-! ### What the engine sees past the errors of its reads -/

section
variable {t : Nat} {ts : List Nat} {c c' : Chip} (h : FrameButReports (eccRegs t) ts c c')
include h

theorem regions_past_errors (n : Nat) : regionBase c' t n = regionBase c t n ∧ regionSize c' t n = regionSize c t n := by
  have hr : reg c' (Reg.TILE_REGION t n) = reg c (Reg.TILE_REGION t n) := by
    refine reg_of_frameButReports h ?_
    rw [mem_eccRegs]; unfold Reg.TILE_REGION; omega
  simp only [regionBase, regionSize, rfld, hr, and_self]

theorem byteAt_past_errors (a : Nat) : byteAt c' a = byteAt c a :=
  part_of_frameButReports (fun d => byteAt d a) (fun _ _ _ _ => rfl) h

theorem bytesAt_past_errors (a n : Nat) : bytesAt c' a n = bytesAt c a n := by
  simp only [bytesAt, byteAt_past_errors h]

theorem numAt_past_errors (a n : Nat) : numAt c' a n = numAt c a n := by rw [numAt, numAt, bytesAt_past_errors h]

theorem popAt_past_errors (j : Nat) : popAt c' t j = popAt c t j := by
  rw [popAt, popAt, bytesAt_past_errors h, (regions_past_errors h 4).1]

theorem accAddr_past_errors (b i : Nat) : accAddr c' t b i = accAddr c t b i := by
  rw [accAddr, accAddr, (regions_past_errors h 1).1, (regions_past_errors h 1).2]

theorem ringHead_past_errors : ringHead c' t = ringHead c t := by
  refine rfld_congr (reg_of_frameButReports h ?_)
  rw [mem_eccRegs]; unfold Reg.TILE_RING; omega

theorem nrnAddr_past_errors (s i : Nat) : nrnAddr c' t s i = nrnAddr c t s i := by
  simp only [nrnAddr, neuronsOf, (regions_past_errors h 0).1, (regions_past_errors h 0).2]

theorem workAddr_past_errors (i : Nat) : nrnAddr c' t (workSlot c' t) i = nrnAddr c t (workSlot c t) i := by
  rw [nrnAddr_past_errors h, workSlot, workSlot, ringHead_past_errors h]

theorem popHolding_past_errors (first last i : Nat) : popHolding c' t first last i = popHolding c t first last i := by
  simp only [popHolding, popAt_past_errors h]

theorem traceCfg_past_errors (hi lo : Nat) : rfld c' (Reg.LRN_TRACE_CFG t) hi lo = rfld c (Reg.LRN_TRACE_CFG t) hi lo := by
  refine rfld_congr (reg_of_frameButReports h ?_)
  rw [mem_eccRegs]; unfold Reg.LRN_TRACE_CFG; omega

theorem tileStep_past_errors (ht : t < 8192) : tileStep c' t = tileStep c t := by
  rw [tileStep, tileStep, jobOfTile_of_frameButReports h]
  cases jobOfTile c t with
  | none => rfl
  | some j => exact jobStep_of_frameButReports h (fun a ha => tileRegs_below ht (List.mem_cons_of_mem _ ha)) j

end

/-! ### One neuron (R121, R130, R131) -/

/-- The state of neuron `i` in the start slot. -/
def startState (c : Chip) (t i : Nat) : NState := nstateOf (bytesAt c (nrnAddr c t (ringHead c t) i) 16)

/-- The accumulator bank that the step's update reads. -/
def stepBank (c : Chip) (t : Nat) : Nat := readBank (tileStep c t)

/-- Whether neuron `i` has input in this step. -/
def accHot (c : Chip) (t i : Nat) : Bool := (bmp (tile c t).nrn.acc (stepBank c t)).getLsbD i

/-- What update_neuron of R131 gives for neuron `i` under the parameters of population `j`. -/
def neuronOut (c : Chip) (t j i : Nat) : UpdateOut :=
  updateNeuron (popAt c t j) (startState c t i) (if accHot c t i then signed 32 (numAt c (accAddr c t (stepBank c t) i) 4) else 0)
    (tileStep16 c t) (accHot c t i) (rfld c (Reg.LRN_TRACE_CFG t) 7 0) (rfld c (Reg.LRN_TRACE_CFG t) 15 8)

theorem startState_past_errors {t : Nat} {ts : List Nat} {c c' : Chip} (h : FrameButReports (eccRegs t) ts c c') (i : Nat) :
    startState c' t i = startState c t i := by
  rw [startState, startState, ringHead_past_errors h, nrnAddr_past_errors h, bytesAt_past_errors h]

theorem stepBank_past_errors {t : Nat} {ts : List Nat} {c c' : Chip} (h : FrameButReports (eccRegs t) ts c c') (ht : t < 8192) :
    stepBank c' t = stepBank c t := by
  rw [stepBank, stepBank, tileStep_past_errors h ht]

/-- What a neuron's update gives is not changed by errors, nor by a change of the tile that keeps its ACC bits. -/
theorem neuronOut_past_errors {t : Nat} {ts : List Nat} {c c' : Chip} (h : FrameButReports (eccRegs t) ts c c') (ht : t < 8192)
    (hacc : (tile c' t).nrn.acc = (tile c t).nrn.acc) (j i : Nat) : neuronOut c' t j i = neuronOut c t j i := by
  have hhot : accHot c' t i = accHot c t i := by rw [accHot, accHot, hacc, stepBank_past_errors h ht]
  rw [neuronOut, neuronOut, hhot, popAt_past_errors h, startState_past_errors h, numAt_past_errors h, accAddr_past_errors h,
    stepBank_past_errors h ht, tileStep16, tileStep16, tileStep_past_errors h ht, traceCfg_past_errors h, traceCfg_past_errors h]

/-- The reads of neuron `i`'s update: its state, and its accumulator where it has input. -/
def neuronRead (t i : Nat) (c : Chip) : Chip :=
  c |> engineRead t (nrnAddr c t (ringHead c t) i) 16 |> when_ (accHot c t i) (engineRead t (accAddr c t (stepBank c t) i) 4)

theorem errorsNoted_neuronRead (t i : Nat) (c : Chip) : ErrorsNoted t c (neuronRead t i c) := by
  unfold neuronRead
  refine errorsNoted_trans (errorsNoted_engineRead t (nrnAddr c t (ringHead c t) i) 16 c) ?_
  cases accHot c t i with
  | false => exact errorsNoted_refl ..
  | true => exact errorsNoted_engineRead ..

/-- A neuron whose POP names the population that holds it is updated. -/
theorem updateOne_held {t first last i j : Nat} {c : Chip} (ht : t < 8192) (hj : popHolding c t first last i = j)
    (hpop : (startState c t i).pop = j) :
    updateOne t first last i c = afterUpdate t i j (stepBank c t) (popAt c t j) (neuronOut c t j i) (neuronRead t i c) := by
  have h1 := (errorsNoted_engineRead t (nrnAddr c t (ringHead c t) i) 16 c).1
  have h2 := (errorsNoted_neuronRead t i c).1
  subst hj
  unfold updateOne
  refine (if_neg (not_not.2 hpop)).trans ?_
  rw [popAt_past_errors h1, accAddr_past_errors h1, numAt_past_errors h1, tile_of_frameButReports h1 (by simp)]
  show afterUpdate t i _ (stepBank c t) _ (updateNeuron _ (startState c t i) _ (tileStep (neuronRead t i c) t % 65536) (accHot c t i)
    (rfld (neuronRead t i c) (Reg.LRN_TRACE_CFG t) 7 0) (rfld (neuronRead t i c) (Reg.LRN_TRACE_CFG t) 15 8)) (neuronRead t i c) = _
  rw [tileStep_past_errors h2 ht, traceCfg_past_errors h2, traceCfg_past_errors h2]
  rfl

/-! ### The engine's writes (R90) -/

@[simp] theorem byteAt_engineWrite (a : Nat) (bs : List Byte) (c : Chip) (x : Nat) : byteAt (engineWrite a bs c) x = byteAt (putBytes a bs c) x := rfl

theorem bytesAt_engineWrite (a : Nat) (bs : List Byte) (c : Chip) (x n : Nat) :
    bytesAt (engineWrite a bs c) x n = bytesAt (putBytes a bs c) x n := rfl

@[simp] theorem reg_engineWrite (a : Nat) (bs : List Byte) (c : Chip) (x : Nat) : reg (engineWrite a bs c) x = reg c x := by
  show mapGet regReset (putBytes a bs c).regs x = _
  rw [putBytes_regs]
  rfl

@[simp] theorem tile_engineWrite (a : Nat) (bs : List Byte) (c : Chip) (x : Nat) : tile (engineWrite a bs c) x = tile c x := by
  show mapGet (fun _ => {}) (putBytes a bs c).tiles x = _
  rw [putBytes_tiles]
  rfl

@[simp] theorem length_toBytes (n x : Nat) : (toBytes n x).length = n := by
  induction n generalizing x with
  | zero => rfl
  | succ n ih => simp [toBytes, ih]

theorem ofBytes_toBytes_zero : ofBytes (toBytes 4 0) = 0 := by decide

theorem length_nstateBytes (st : NState) : (nstateBytes st).length = 16 := by simp [nstateBytes]

/-- The bytes of a write apart from `n` bytes at `x` leave them. -/
theorem bytesAt_putBytes_apart {a x n : Nat} {bs : List Byte} (h : a + bs.length ≤ x ∨ x + n ≤ a) (c : Chip) :
    bytesAt (putBytes a bs c) x n = bytesAt c x n := by
  refine List.map_congr_left (fun k hk => byteAt_putBytes_outside bs a (x + k) c ?_)
  have hk := List.mem_range.1 hk
  omega

/-! ### What a neuron that does not fire leaves -/

/-- The bitmaps of a tile after neuron `i` is updated from accumulator bank `bank` into slot `work`. -/
def updatedUnits (work bank i : Nat) (marked : Bool) (T : Tile) : Tile :=
  { T with nrn := { T.nrn with
      upd := setBmp work (bmpPut (bmp T.nrn.upd work) i true) T.nrn.upd
      pst := setBmp work (bmpPut (bmp T.nrn.pst work) i marked) T.nrn.pst
      acc := setBmp bank (bmpPut (bmp T.nrn.acc bank) i false) T.nrn.acc } }

/-- The two writes of neuron `i`'s update: its state into the working slot, and zero into its accumulator. -/
def neuronWritten (t i bank : Nat) (st : NState) (c : Chip) : Chip :=
  c |> engineWrite (nrnAddr c t (workSlot c t) i) (nstateBytes st) |> engineWrite (accAddr c t bank i) (toBytes 4 0)

section
variable {t i bank : Nat} {st : NState} {c : Chip}

/-- The working slot takes the state where the accumulator lies apart from it. -/
theorem state_neuronWritten
    (h : accAddr c t bank i + 4 ≤ nrnAddr c t (workSlot c t) i ∨ nrnAddr c t (workSlot c t) i + 16 ≤ accAddr c t bank i) :
    bytesAt (neuronWritten t i bank st c) (nrnAddr c t (workSlot c t) i) 16 = nstateBytes st := by
  have hsame := bytesAt_putBytes (nstateBytes st) (nrnAddr c t (workSlot c t) i) c
  rw [length_nstateBytes] at hsame
  rw [neuronWritten, bytesAt_engineWrite, bytesAt_putBytes_apart (by rwa [length_toBytes]), bytesAt_engineWrite, hsame]

theorem input_neuronWritten : numAt (neuronWritten t i bank st c) (accAddr c t bank i) 4 = 0 := by
  have hzero := bytesAt_putBytes (toBytes 4 0) (accAddr c t bank i) (engineWrite (nrnAddr c t (workSlot c t) i) (nstateBytes st) c)
  rw [length_toBytes] at hzero
  rw [neuronWritten, numAt, bytesAt_engineWrite, hzero, ofBytes_toBytes_zero]

theorem byteAt_neuronWritten {a : Nat} (ho : a < nrnAddr c t (workSlot c t) i ∨ nrnAddr c t (workSlot c t) i + 16 ≤ a)
    (ha : a < accAddr c t bank i ∨ accAddr c t bank i + 4 ≤ a) : byteAt (neuronWritten t i bank st c) a = byteAt c a := by
  rw [neuronWritten, byteAt_engineWrite, byteAt_putBytes_outside _ _ _ _ (by rwa [length_toBytes]), byteAt_engineWrite,
    byteAt_putBytes_outside _ _ _ _ (by rwa [length_nstateBytes])]

end

theorem afterUpdate_quiet {t i j bank : Nat} {p : Pop} {o : UpdateOut} {c : Chip} (h : o.fired = false) :
    afterUpdate t i j bank p o c = count (Reg.NRN_SUPPRESSED t) o.supp
      (modTile t (updatedUnits (workSlot c t) bank i o.marked) (neuronWritten t i bank o.state c)) := by
  unfold afterUpdate
  rw [h]
  rfl

/-- Neuron `i` of tile `t` is updated to `st` and leaves its accumulator, in bank `bank`, at zero; nothing else of memory changes, and
no event. -/
structure QuietlyUpdated (t i bank : Nat) (st : NState) (c c' : Chip) : Prop where
  state : bytesAt c' (nrnAddr c t (workSlot c t) i) 16 = nstateBytes st
  input : numAt c' (accAddr c t bank i) 4 = 0
  rest : ∀ a, (a < nrnAddr c t (workSlot c t) i ∨ nrnAddr c t (workSlot c t) i + 16 ≤ a) →
    (a < accAddr c t bank i ∨ accAddr c t bank i + 4 ≤ a) → byteAt c' a = byteAt c a
  seq : (tile c' t).seq = (tile c t).seq
  pending : (tile c' t).nrn.emitPend = (tile c t).nrn.emitPend
  fired : (tile c' t).nrn.firedNow = (tile c t).nrn.firedNow
  decoder : decEn c' t = decEn c t

theorem quietlyUpdated_afterUpdate {t i j bank : Nat} {p : Pop} {o : UpdateOut} {c : Chip} (h : o.fired = false)
    (hapart : accAddr c t bank i + 4 ≤ nrnAddr c t (workSlot c t) i ∨ nrnAddr c t (workSlot c t) i + 16 ≤ accAddr c t bank i) :
    QuietlyUpdated t i bank o.state c (afterUpdate t i j bank p o c) := by
  have hne : Reg.DEC_CTRL t ≠ Reg.NRN_SUPPRESSED t := by unfold Reg.DEC_CTRL Reg.NRN_SUPPRESSED; omega
  have htile : tile (afterUpdate t i j bank p o c) t = updatedUnits (workSlot c t) bank i o.marked (tile c t) := by
    rw [afterUpdate_quiet h, tile_count, tile_modTile_same, neuronWritten, tile_engineWrite, tile_engineWrite]
  have hreg : reg (afterUpdate t i j bank p o c) (Reg.DEC_CTRL t) = reg c (Reg.DEC_CTRL t) := by
    rw [afterUpdate_quiet h, reg_count_ne hne, reg_modTile, neuronWritten, reg_engineWrite, reg_engineWrite]
  have hbyte : ∀ x, byteAt (afterUpdate t i j bank p o c) x = byteAt (neuronWritten t i bank o.state c) x := fun x => by
    rw [afterUpdate_quiet h]
    rfl
  have hbytes : ∀ x n, bytesAt (afterUpdate t i j bank p o c) x n = bytesAt (neuronWritten t i bank o.state c) x n :=
    fun x n => List.map_congr_left (fun k _ => hbyte (x + k))
  exact {
    state := (hbytes _ _).trans (state_neuronWritten hapart)
    input := (congrArg ofBytes (hbytes _ _)).trans input_neuronWritten
    rest := fun a ho ha => (hbyte a).trans (byteAt_neuronWritten ho ha)
    seq := by rw [htile]; rfl
    pending := by rw [htile]; rfl
    fired := by rw [htile]; rfl
    decoder := rflag_congr hreg }

/-- One neuron that does not fire, past the errors of its reads (R131). -/
theorem quietlyUpdated_updateOne {t first last i j : Nat} {c : Chip} (ht : t < 8192) (hj : popHolding c t first last i = j)
    (hpop : (startState c t i).pop = j) (hfired : (neuronOut c t j i).fired = false)
    (hapart : accAddr c t (stepBank c t) i + 4 ≤ nrnAddr c t (workSlot c t) i ∨
      nrnAddr c t (workSlot c t) i + 16 ≤ accAddr c t (stepBank c t) i) :
    QuietlyUpdated t i (stepBank c t) (neuronOut c t j i).state c (updateOne t first last i c) := by
  have hread := (errorsNoted_neuronRead t i c).1
  have hacc := accAddr_past_errors hread (stepBank c t) i
  have hwork := workAddr_past_errors hread i
  have htile := tile_of_frameButReports hread (t := t) (by simp)
  have hdec : decEn (neuronRead t i c) t = decEn c t := by
    refine rflag_congr (reg_of_frameButReports hread ?_)
    rw [mem_eccRegs]; unfold Reg.DEC_CTRL; omega
  rw [updateOne_held ht hj hpop]
  obtain ⟨hstate, hinput, hrest, hseq, hpend, hnow, hd⟩ :=
    quietlyUpdated_afterUpdate (j := j) (p := popAt c t j) (c := neuronRead t i c) hfired (by rwa [hacc, hwork])
  rw [hwork] at hstate
  rw [hacc] at hinput
  refine ⟨hstate, hinput, fun a ho ha => ?_, hseq.trans (by rw [htile]), hpend.trans (by rw [htile]), hnow.trans (by rw [htile]), hd.trans hdec⟩
  exact (hrest a (by rwa [hwork]) (by rwa [hacc])).trans (byteAt_past_errors hread a)

/-! ### The word at its gate (R104, R135, R138) -/

/-- The units of a tile whose pending flits have been taken. -/
def unpendedUnits (T : Tile) : Tile := { T with nrn := { T.nrn with emitPend := [] } }

/-- The units of a tile at the beginning of an update of the neurons `todo`: their lines counted. -/
def begunUnits (todo : List Nat) (T : Tile) : Tile :=
  { T with nrn := { T.nrn with
      activeNow := T.nrn.activeNow + ((todo.map (fun i => i / 4)).dedup).length
      activeLines := T.nrn.activeNow + ((todo.map (fun i => i / 4)).dedup).length } }

/-- The chip at the beginning of an update of the neurons `todo`, with nothing left from a pause. -/
def updateBegun (t : Nat) (todo : List Nat) (c : Chip) : Chip := modTile t (begunUnits todo) (modTile t unpendedUnits c)

theorem tile_updateBegun (t : Nat) (todo : List Nat) (c : Chip) :
    tile (updateBegun t todo c) t = begunUnits todo (unpendedUnits (tile c t)) := by
  rw [updateBegun, tile_modTile_same, tile_modTile_same]

theorem frame_updateBegun (as : List Nat) (t : Nat) (todo : List Nat) (c : Chip) : FrameButReports as [t] c (updateBegun t todo c) :=
  frameButReports_of_frame (frame_modTile _ _ (by simp) (frame_modTile _ _ (by simp) (frame_refl ..)))

theorem emitPending_none {t : Nat} {c : Chip} (h : (tile c t).nrn.emitPend = []) : emitPending t c = modTile t unpendedUnits c := by
  unfold emitPending
  rw [h]
  rfl

theorem activeNeurons_unpended (t first last : Nat) (c : Chip) :
    activeNeurons (modTile t unpendedUnits c) t first last = activeNeurons c t first last := by
  have hmarked : markedSet (modTile t unpendedUnits c) t = markedSet c t := by
    unfold markedSet
    rw [tile_modTile_same]
    rfl
  unfold activeNeurons
  rw [hmarked]
  rfl

section
variable {t clk i : Nat} {c : Chip}

theorem updateWord_waits (hw : atWord c t 0x03 = true) (hgo : goReached c t = false) : updateWord t clk c = holdWord t c := by
  simp [updateWord, hw, hgo]

theorem updateRun_single {first last : Nat} (h : (tile c t).nrn.emitPend = []) :
    updateRun t first last [i] c = (updateOne t first last i c, []) := by simp [updateRun, h]

/-- One active neuron, nothing queued: the word ends with the neuron's update. -/
theorem updateWord_single (hw : atWord c t 0x03 = true) (hgo : goReached c t = true) (hleft : (tile c t).nrn.updLeft = none)
    (hpend : (tile c t).nrn.emitPend = [])
    (hactive : activeNeurons c t (bits (wordAt c t) 7 4) (bits (wordAt c t) 3 0) = [i])
    (hdone : (tile (updateOne t (bits (wordAt c t) 7 4) (bits (wordAt c t) 3 0) i (updateBegun t [i] c)) t).nrn.emitPend = []) :
    updateWord t clk c = updateDone t (bits (wordAt c t) 7 4) (bits (wordAt c t) 3 0) clk
      (updateOne t (bits (wordAt c t) 7 4) (bits (wordAt c t) 3 0) i (updateBegun t [i] c)) := by
  have hfresh : (tile (modTile t unpendedUnits c) t).nrn.updLeft = none := by
    rw [tile_modTile_same]
    exact hleft
  have hrun := updateRun_single (first := bits (wordAt c t) 7 4) (last := bits (wordAt c t) 3 0) (i := i) (c := updateBegun t [i] c)
    (show (tile (updateBegun t [i] c) t).nrn.emitPend = [] by rw [tile_updateBegun]; rfl)
  have hbegun : when_ (!false) (modTile t (fun T => { T with nrn := { T.nrn with
      activeNow := T.nrn.activeNow + (([i].map (fun i => i / 4)).dedup).length
      activeLines := T.nrn.activeNow + (([i].map (fun i => i / 4)).dedup).length } })) (modTile t unpendedUnits c) =
      updateBegun t [i] c := rfl
  unfold updateWord
  simp only [if_pos hw, if_pos hgo, emitPending_none hpend, hfresh, activeNeurons_unpended, hactive, Option.isSome_none, hbegun, hrun, hdone]
  rfl

end

/-! ### The end of the word (R138) -/

/-- The units of a tile whose UPDATE of the populations in `pops` is complete. -/
def doneUnits (pops : Nat) (T : Tile) : Tile :=
  { T with
    nrn := { T.nrn with updLeft := none }
    dec := { T.dec with seen := T.dec.seen.lor pops } }

/-- The populations `first` to `last` as a mask. -/
def popsMask (first last : Nat) : Nat := (List.range (last + 1 - first)).foldl (fun m k => m.lor (2 ^ (first + k))) 0

theorem decoderOutput_off {t : Nat} {c : Chip} (step : Nat) (h : decEn c t = false) : decoderOutput t step c = c := by
  simp [decoderOutput, h]

theorem updateDone_noDecoder {t first last clk : Nat} {c : Chip} (h : decEn c t = false) :
    updateDone t first last clk c = nextWord t (setFld (Reg.NRN_UPDATE_CLK t) 24 0 clk
      (putNum (Reg.NRN_FIRED_LAST t) (tile c t).nrn.firedNow (modTile t (doneUnits (popsMask first last)) c))) := by
  have hdec : decEn (setFld (Reg.NRN_UPDATE_CLK t) 24 0 clk (putNum (Reg.NRN_FIRED_LAST t)
      (tile (modTile t (doneUnits (popsMask first last)) c) t).nrn.firedNow (modTile t (doneUnits (popsMask first last)) c))) t = false := by
    refine (rflag_congr ?_).trans h
    rw [reg_setFld_ne (by simp [Reg.DEC_CTRL, Reg.NRN_UPDATE_CLK]), reg_putNum_ne (by simp [Reg.DEC_CTRL, Reg.NRN_FIRED_LAST]), reg_modTile]
  unfold updateDone
  refine (congrArg (nextWord t) (decoderOutput_off _ hdec)).trans ?_
  rw [tile_modTile_same]
  rfl

section
variable {t first last clk : Nat} {c : Chip} (h : decEn c t = false)
include h

theorem byteAt_updateDone (x : Nat) : byteAt (updateDone t first last clk c) x = byteAt c x := by
  rw [updateDone_noDecoder h]
  unfold nextWord fetchCe when_
  split <;> rfl

theorem bytesAt_updateDone (x n : Nat) : bytesAt (updateDone t first last clk c) x n = bytesAt c x n :=
  List.map_congr_left (fun k _ => byteAt_updateDone h (x + k))

theorem pastWord_updateDone : PastWord t c (updateDone t first last clk c) := by
  rw [updateDone_noDecoder h]
  refine pastWord_of_pc ?_ (nextWord_moves (as := [Reg.TILE_SRAM_CE t]) (ts := [t]) t _ (by simp) (by simp)).1
  show (tile (modTile t (doneUnits (popsMask first last)) c) t).seq.pc = _
  rw [tile_modTile_same]
  rfl

theorem firedLast_updateDone : reg (updateDone t first last clk c) (Reg.NRN_FIRED_LAST t) = BitVec.ofNat 32 (tile c t).nrn.firedNow := by
  rw [updateDone_noDecoder h, reg_nextWord_ne (by simp [Reg.NRN_FIRED_LAST, Reg.TILE_SRAM_CE]),
    reg_setFld_ne (by simp [Reg.NRN_FIRED_LAST, Reg.NRN_UPDATE_CLK]), reg_putNum_same]

theorem updateClk_updateDone : rfld (updateDone t first last clk c) (Reg.NRN_UPDATE_CLK t) 24 0 = clk % 2 ^ 25 := by
  rw [updateDone_noDecoder h, rfld_congr (reg_nextWord_ne (by simp [Reg.NRN_UPDATE_CLK, Reg.TILE_SRAM_CE]) _),
    rfld_setFld _ _ _ _ _ (by decide) (by decide)]

end

/-! ### The obligation -/

/-- The one active neuron of a word, from the word's beginning. -/
theorem quietlyUpdated_begun {t first last i j : Nat} {c : Chip} (ht : t < 8192) (hpend : (tile c t).nrn.emitPend = [])
    (hj : popHolding c t first last i = j) (hpop : (startState c t i).pop = j) (hfired : (neuronOut c t j i).fired = false)
    (hapart : accAddr c t (stepBank c t) i + 4 ≤ nrnAddr c t (workSlot c t) i ∨
      nrnAddr c t (workSlot c t) i + 16 ≤ accAddr c t (stepBank c t) i) :
    QuietlyUpdated t i (stepBank c t) (neuronOut c t j i).state c (updateOne t first last i (updateBegun t [i] c)) := by
  have hframe := frame_updateBegun (eccRegs t) t [i] c
  have htile := tile_updateBegun t [i] c
  have hbank := stepBank_past_errors hframe ht
  have hacc := accAddr_past_errors hframe (stepBank c t) i
  have hwork := workAddr_past_errors hframe i
  have hout := neuronOut_past_errors hframe ht (by rw [htile]; rfl) j i
  obtain ⟨hstate, hinput, hrest, hseq, hpending, hnow, hdec⟩ :=
    quietlyUpdated_updateOne (c := updateBegun t [i] c) (first := first) (last := last) (j := j) ht
      (by rw [popHolding_past_errors hframe, hj]) (by rw [startState_past_errors hframe, hpop]) (by rw [hout, hfired])
      (by rwa [hbank, hacc, hwork])
  rw [hwork] at hstate hrest
  rw [hbank, hacc] at hinput hrest
  rw [hout] at hstate
  rw [htile] at hseq hpending hnow
  exact ⟨hstate, hinput, fun a ho ha => (hrest a ho ha).trans (byteAt_past_errors hframe a), hseq, hpending.trans hpend.symm, hnow, hdec⟩

/-- Settles O15: at the gate the word waits; after it the one neuron is updated past the errors of its reads, and the word ends. -/
theorem updateWordUpdatesANeuron : Obligations.UpdateWordUpdatesANeuron := by
  intro t clk i s hd hw
  refine ⟨fun hgo => ?waits, fun hgo hleft hpend hdec => ?updates⟩
  case waits =>
    obtain ⟨hwait, -⟩ := holdWord_waits (as := [Reg.TILE_SRAM_CE t]) (ts := [t.val]) t s.chip (by simp) (by simp)
    exact ⟨_, completes_tile rfl hd (updateWord_waits hw hgo), hwait⟩
  case updates =>
    intro first last st j bank hot acc out o hactive hpop hfired hapart
    obtain ⟨hstate, hinput, hrest, hseq, hpending, hnow, hdecoder⟩ :=
      quietlyUpdated_begun (first := first) (last := last) t.isLt hpend rfl hpop hfired hapart
    have hoff := hdecoder.trans hdec
    refine ⟨_, completes_tile rfl hd (updateWord_single hw hgo hleft hpend hactive (hpending.trans hpend)), ?_, ?_, ?_, fun a ho ha => ?_, ?_,
      updateClk_updateDone hoff⟩
    · exact pastWord_of_pc (congrArg Seq.pc hseq) (pastWord_updateDone hoff)
    · exact (bytesAt_updateDone hoff out 16).trans hstate
    · exact (congrArg ofBytes (bytesAt_updateDone hoff acc 4)).trans hinput
    · exact (byteAt_updateDone hoff a).trans (hrest a ho ha)
    · rw [firedLast_updateDone hoff, hnow]

end Sys2Proof.Machine
end

section
/-!
PROOFS. EMIT_FLIT (R135): the oldest flit of the emission queue on the wire into the Local input. DEC_CLEAR (R212, R213, R215):
the count ring zeroed byte by byte, and the window begun anew.
-/

namespace Sys2Proof.Machine

open Sys2Proof.Safety

/-! ### A flit put on a wire (R245) -/

section
variable (t p : Nat) (f : Flit) (c : Chip)

@[simp] theorem wire_putWire_same : wire (putWire t p f c) t p f.vc = wire c t p f.vc ++ [f] := by simp [wire, putWire]

@[simp] theorem reg_putWire (a : Nat) : reg (putWire t p f c) a = reg c a := rfl
@[simp] theorem tile_putWire (u : Nat) : tile (putWire t p f c) u = tile c u := rfl

end

/-! ### The hand-off of a flit (R135) -/

/-- The units of a tile whose emission queue holds `fs`. -/
def queuedUnits (fs : List DWord) (T : Tile) : Tile := { T with nrn := { T.nrn with emitq := fs } }

/-- The chip in which tile `t` has handed `f` to its router at `clk` and keeps `fs` in its emission queue, with nothing pending. -/
def flitSent (t clk : Nat) (f : DWord) (fs : List DWord) (c : Chip) : Chip :=
  c |> modTile t (queuedUnits fs) |> putWire t 4 (oneFlit 0 f) |> setFld (Reg.NRN_UPDATE_CLK t) 24 0 clk |> modTile t unpendedUnits

theorem emitFlitStep_sends {t clk : Nat} {c : Chip} {f : DWord} {fs : List DWord} (hq : (tile c t).nrn.emitq = f :: fs)
    (hpend : (tile c t).nrn.emitPend = []) (hroom : inRoom c t 4 0 = true) (hrun : rflag c (Reg.RTR_CTRL t) 0 = false) :
    emitFlitStep t clk c = flitSent t clk f fs c := by
  have hnone : (tile (setFld (Reg.NRN_UPDATE_CLK t) 24 0 clk
      (putWire t 4 (oneFlit 0 f) (modTile t (queuedUnits fs) c))) t).nrn.emitPend = [] := by
    rw [setFld_eq, tile_setReg, tile_putWire, tile_modTile_same]
    exact hpend
  unfold emitFlitStep
  simp only [hq, hroom, hrun, Bool.not_false, and_self, if_true]
  exact emitPending_none hnone

section
variable (t clk : Nat) (f : DWord) (fs : List DWord) (c : Chip)

theorem emitq_flitSent : (tile (flitSent t clk f fs c) t).nrn.emitq = fs := by
  rw [flitSent, tile_modTile_same, setFld_eq, tile_setReg, tile_putWire, tile_modTile_same]
  rfl

theorem wire_flitSent : wire (flitSent t clk f fs c) t 4 0 = wire c t 4 0 ++ [oneFlit 0 f] :=
  wire_putWire_same t 4 (oneFlit 0 f) (modTile t (queuedUnits fs) c)

theorem updateClk_flitSent : rfld (flitSent t clk f fs c) (Reg.NRN_UPDATE_CLK t) 24 0 = clk % 2 ^ 25 :=
  rfld_setFld _ 24 0 clk _ (by decide) (by decide)

/-- Apart from the wires, the hand-off is an update of the tile and of NRN_UPDATE_CLK. -/
theorem frame_flitSent : Frame [Reg.NRN_UPDATE_CLK t] [t] c { flitSent t clk f fs c with wires := c.wires } := by
  refine ⟨fun a ha => ?_, fun u hu => ?_, rfl⟩
  · show reg (flitSent t clk f fs c) a = _
    rw [flitSent, reg_modTile, reg_setFld_ne (by simpa using ha), reg_putWire, reg_modTile]
  · have hut : u ≠ t := by simpa using hu
    show tile (flitSent t clk f fs c) u = _
    rw [flitSent, tile_modTile_ne _ _ hut, setFld_eq, tile_setReg, tile_putWire, tile_modTile_ne _ _ hut]

end

/-! ### The count ring (R212, R214) -/

theorem ringByte_congr {c c' : Chip} {t : Nat} (h : reg c' (Reg.DEC_RING t) = reg c (Reg.DEC_RING t)) (slot k : Nat) :
    ringByte c' t slot k = ringByte c t slot k := by
  rw [ringByte, ringByte, rfld_congr h]

theorem slotCount_congr {c c' : Chip} {t : Nat} (hreg : reg c' (Reg.DEC_RING t) = reg c (Reg.DEC_RING t))
    (hmem : ∀ a, byteAt c' a = byteAt c a) (slot k : Nat) : slotCount c' t slot k = slotCount c t slot k := by
  rw [slotCount, slotCount, ringByte_congr hreg, hmem]

theorem slotCount_zeroByte_same (t slot k : Nat) (c : Chip) : slotCount (engineWrite (ringByte c t slot k) [0#8] c) t slot k = 0 := by
  rw [slotCount, ringByte_congr (reg_engineWrite ..), byteAt_engineWrite, putBytes, putBytes, byteAt_putByte_same]
  rfl

/-- A zero written anywhere leaves a count that is zero, whether it falls on the count or beside it. -/
theorem slotCount_zeroByte_keeps {t slot k : Nat} {c : Chip} (a : Nat) (h : slotCount c t slot k = 0) :
    slotCount (engineWrite a [0#8] c) t slot k = 0 := by
  rw [slotCount, ringByte_congr (reg_engineWrite ..), byteAt_engineWrite, putBytes, putBytes]
  by_cases ha : ringByte c t slot k = a
  · rw [ha, byteAt_putByte_same]
    rfl
  · rw [byteAt_putByte_ne _ _ ha]
    exact h

theorem slotCount_zeroSlot_same (t slot : Nat) {k : Nat} (hk : k < 32) (c : Chip) : slotCount (zeroSlot t slot c) t slot k = 0 :=
  forAll_reaches (I := fun _ => True) (P := fun k d => slotCount d t slot k = 0) (fun _ _ _ => trivial)
    (fun k d _ => slotCount_zeroByte_same t slot k d) (fun _ _ _ h => slotCount_zeroByte_keeps _ h) _ c trivial k (List.mem_range.2 hk)

theorem slotCount_zeroSlot_keeps {t slot k : Nat} {c : Chip} (other : Nat) (h : slotCount c t slot k = 0) :
    slotCount (zeroSlot t other c) t slot k = 0 :=
  forAll_keeps (P := fun d => slotCount d t slot k = 0) _ (fun _ _ _ => slotCount_zeroByte_keeps _) c h

/-- All 256 slots of the count ring zeroed. -/
def zeroRing (t : Nat) (c : Chip) : Chip := forAll (fun slot c => zeroSlot t slot c) (List.range 256) c

theorem slotCount_zeroRing (t : Nat) {slot k : Nat} (hs : slot < 256) (hk : k < 32) (c : Chip) : slotCount (zeroRing t c) t slot k = 0 :=
  forAll_reaches (I := fun _ => True) (P := fun slot d => slotCount d t slot k = 0) (fun _ _ _ => trivial)
    (fun slot d _ => slotCount_zeroSlot_same t slot hk d) (fun other _ _ h => slotCount_zeroSlot_keeps other h) _ c trivial slot
    (List.mem_range.2 hs)

/-! ### The decoder cleared (R213, R215) -/

section
variable {t : Nat} {c : Chip}

theorem decoderClear_stopped (h : seqEn c t = false) : decoderClear t c = decoderRestart t (zeroRing t c) := by
  simp [decoderClear, zeroRing, h]

theorem decoderClear_running (h : seqEn c t = true) : decoderClear t c = c := if_pos h

end

section
variable (t : Nat) (c : Chip)

theorem slotCount_decoderRestart (slot k : Nat) : slotCount (decoderRestart t c) t slot k = slotCount c t slot k := by
  refine slotCount_congr (c := c) (c' := decoderRestart t c) ?_ (fun _ => rfl) slot k
  rw [decoderRestart, reg_modTile, reg_setBit_ne (by simp [Reg.DEC_RING, Reg.DEC_STATUS])]

theorem ageFull_decoderRestart : rflag (decoderRestart t c) (Reg.DEC_STATUS t) 31 = false := by
  rw [decoderRestart, rflag_congr (reg_modTile ..), rflag_setBit_same _ (by decide)]

theorem fresh_decoderRestart : (tile (decoderRestart t c) t).dec.fresh = true := by rw [decoderRestart, tile_modTile_same]

end

/-! ### The obligation -/

/-- Settles O16: the flit goes by its hand-off; the ring by its slots and their bytes, the window by its restart. -/
theorem emissionAndDecoderClear : Obligations.EmissionAndDecoderClear := by
  intro t clk s hd
  refine ⟨fun f fs hq hpend hroom hrun => ?emits, fun hstopped => ?clears, fun hrunning => ?ignored⟩
  case emits =>
    exact ⟨_, completes_tile rfl hd (emitFlitStep_sends hq hpend hroom hrun), emitq_flitSent .., wire_flitSent .., updateClk_flitSent ..,
      frame_flitSent ..⟩
  case clears =>
    refine ⟨_, completes_tile rfl hd (decoderClear_stopped hstopped), fun slot k hslot hk => ?_, ageFull_decoderRestart ..,
      fresh_decoderRestart ..⟩
    rw [slotCount_decoderRestart, slotCount_zeroRing t hslot (by omega)]
  case ignored => exact completes_tile rfl hd (decoderClear_running hrunning)

end Sys2Proof.Machine
end

section
/-!
PROOFS. The synapse engine's accumulations (R150): what its reads for a parity leave (R91), and what an accumulator and the rest of
memory hold after a term is added.
-/

namespace Sys2Proof.Machine

open Sys2Proof.Safety

/-! ### Reads for a parity (R91, R340) -/

theorem frameButReports_reportFor (as ts : List Nat) (t p cause : Nat) (c : Chip) : FrameButReports as ts c (reportFor t p cause c) := by
  unfold reportFor
  split <;> exact frame_refl as ts c

/-- A read whose words carry no error leaves nothing. -/
theorem engineReadFor_clean {t p a n : Nat} {c : Chip} (h : eccIn c a n = []) : engineReadFor t p a n c = c := by simp [engineReadFor, h]

/-- An engine's read leaves its errors in the tile's error registers and the reports. -/
theorem frame_engineReadFor (t p a n : Nat) (c : Chip) : FrameButReports (eccRegs t) [] c (engineReadFor t p a n c) := by
  cases h : eccIn c a n with
  | nil => rw [engineReadFor_clean h]; exact frame_refl ..
  | cons e es =>
    have hnote : FrameButReports (eccRegs t) [] c (forAll (noteError t) (e :: es) c) :=
      frameButReports_of_frame (frame_forAll _ (fun p _ d hd => frame_trans hd (frame_noteError (fun _ h => h) p d)) (frame_refl ..))
    simp only [engineReadFor, h]
    cases (e :: es).any (fun p => p.2 == 2) with
    | false => exact hnote
    | true => exact frameButReports_trans hnote (frameButReports_reportFor ..)

/-! ### Numbers in memory (R13, R14) -/

theorem ofBytes_toBytes (n x : Nat) : ofBytes (toBytes n x) = x % 256 ^ n := by
  induction n generalizing x with
  | zero => simp [toBytes, ofBytes, Nat.mod_one]
  | succ n ih =>
    rw [Nat.pow_succ', Nat.mod_mul, toBytes, ofBytes, ih, BitVec.toNat_ofNat]

theorem unsign_lt (w : Nat) (x : Int) : unsign w x < 2 ^ w := by
  have hpos : (0 : Int) < 2 ^ w := by positivity
  have hlt := Int.emod_lt_of_pos x hpos
  have hcast : ((2 ^ w : Nat) : Int) = 2 ^ w := by push_cast; rfl
  unfold unsign
  omega

/-- A number written at an address reads back in its bytes. -/
theorem numAt_engineWrite (a n x : Nat) (c : Chip) : numAt (engineWrite a (toBytes n x) c) a n = x % 256 ^ n := by
  have hbytes := bytesAt_putBytes (toBytes n x) a c
  rw [length_toBytes] at hbytes
  rw [numAt, bytesAt_engineWrite, hbytes, ofBytes_toBytes]

theorem numAt_congr {c c' : Chip} (h : ∀ x, byteAt c' x = byteAt c x) (a n : Nat) : numAt c' a n = numAt c a n :=
  congrArg ofBytes (List.map_congr_left (fun k _ => h (a + k)))

/-! ### The synapse engine's own state -/

@[simp] theorem tile_modSyn_same (t : Nat) (f : Syn → Syn) (c : Chip) : tile (modSyn t f c) t = { tile c t with syn := f (tile c t).syn } :=
  tile_modTile_same ..

@[simp] theorem byteAt_modSyn (t : Nat) (f : Syn → Syn) (c : Chip) (a : Nat) : byteAt (modSyn t f c) a = byteAt c a := rfl

theorem frame_modSyn {as ts : List Nat} {c c' : Chip} (t : Nat) (f : Syn → Syn) (h : t ∈ ts) (hf : Frame as ts c c') :
    Frame as ts c (modSyn t f c') := frame_modTile _ _ h hf

/-! ### An accumulation (R150, R175) -/

/-- What accumulator `tgt` of bank `b` holds after `term` is added. -/
def accSum (c : Chip) (t b tgt : Nat) (term : Int) : Nat := unsign 32 (satInt 32 (signed 32 (numAt c (accAddr c t b tgt) 4) + term))

/-- The units of a tile whose accumulator `tgt` of bank `b` holds input (R127). -/
def accMarked (b tgt : Nat) (T : Tile) : Tile :=
  { T with nrn := { T.nrn with acc := setBmp b (bmpPut (bmp T.nrn.acc b) tgt true) T.nrn.acc } }

/-- The accumulator read, the sum written and marked. -/
def accWritten (t b tgt : Nat) (term : Int) (c : Chip) : Chip :=
  c |> engineReadFor t b (accAddr c t b tgt) 4 |> engineWrite (accAddr c t b tgt) (toBytes 4 (accSum c t b tgt term))
    |> modTile t (accMarked b tgt)

section
variable (t b tgt : Nat) (term : Int) (sat : Bool) (c : Chip)

/-- An accumulation writes its sum, and counts a sum that saturates. -/
theorem accAdd_cases : accAdd t b tgt term sat c = accWritten t b tgt term c ∨
    accAdd t b tgt term sat c = count (Reg.SYN_ACC_SAT t) 1 (accWritten t b tgt term c) :=
  (ite_eq_or_eq _ (count (Reg.SYN_ACC_SAT t) 1 (accWritten t b tgt term c)) (accWritten t b tgt term c)).symm

theorem byteAt_accAdd (x : Nat) : byteAt (accAdd t b tgt term sat c) x =
    byteAt (engineWrite (accAddr c t b tgt) (toBytes 4 (accSum c t b tgt term)) (engineReadFor t b (accAddr c t b tgt) 4 c)) x := by
  obtain h | h := accAdd_cases t b tgt term sat c
  · rw [h]; rfl
  · rw [h]; rfl

theorem numAt_accAdd : numAt (accAdd t b tgt term sat c) (accAddr c t b tgt) 4 = accSum c t b tgt term := by
  rw [numAt_congr (byteAt_accAdd t b tgt term sat c), numAt_engineWrite]
  exact Nat.mod_eq_of_lt (unsign_lt 32 _)

theorem byteAt_accAdd_outside {x : Nat} (h : x < accAddr c t b tgt ∨ accAddr c t b tgt + 4 ≤ x) :
    byteAt (accAdd t b tgt term sat c) x = byteAt c x := by
  rw [byteAt_accAdd, byteAt_engineWrite, byteAt_putBytes_outside _ _ _ _ (by rwa [length_toBytes]),
    byteAt_past_errors (frame_engineReadFor ..)]

theorem syn_accAdd : (tile (accAdd t b tgt term sat c) t).syn = (tile c t).syn := by
  have hwritten : (tile (accWritten t b tgt term c) t).syn = (tile c t).syn := by
    rw [accWritten, tile_modTile_same, tile_engineWrite, tile_of_frameButReports (frame_engineReadFor ..) (by simp)]
    rfl
  obtain h | h := accAdd_cases t b tgt term sat c
  · rw [h]; exact hwritten
  · rw [h]; exact hwritten

end

/-- An exact term, saturated and added past the errors of reads. -/
theorem numAt_accAddExact_past_errors {t b tgt : Nat} {x : Int} {ts : List Nat} {c d : Chip} (h : FrameButReports (eccRegs t) ts c d) :
    numAt (accAddExact t b tgt x d) (accAddr c t b tgt) 4 = accSum c t b tgt (satInt 32 x) := by
  have hsum := numAt_accAdd t b tgt (satInt 32 x) (decide (satInt 32 x ≠ x)) d
  rwa [accSum, accAddr_past_errors h, numAt_past_errors h] at hsum

theorem syn_accAddExact (t b tgt : Nat) (x : Int) (c : Chip) : (tile (accAddExact t b tgt x c) t).syn = (tile c t).syn := syn_accAdd ..

/-! ### Streams at rest (R164) -/

theorem pairing_of_notRunning {t : Nat} {c : Chip} (h : (tile c t).syn.run = none) (n : Nat) : pairing t n c = c := by
  cases n with
  | zero => rfl
  | succ n => simp [pairing, h]

theorem pairing_of_noScales {t : Nat} {c : Chip} (h : (tile c t).syn.sq = []) (n : Nat) : pairing t n c = c := by
  cases n with
  | zero => rfl
  | succ n => simp [pairing, h]

end Sys2Proof.Machine
end

section
/-!
PROOFS. SCATTER_EVENT and GATHER_INPUT (R142, R149, R150, R156): a target of the row in progress, an event without a key, and a
position of the gather input buffer.
-/

namespace Sys2Proof.Machine

open Sys2Proof.Safety

/-! ### The row in progress (R149, R151) -/

section
variable {t n j : Nat} {f : DWord} {r : Row} {c : Chip}

/-- The scatter event in progress after its target `j`. -/
def fetchedTo (f : DWord) (r : Row) (j : Nat) : Option (DWord × Row × Nat) := if j + 1 < hLen r.header then some (f, r, j + 1) else none

theorem scatterOn_one (hf : (tile c t).syn.fetching = some (f, r, j)) (hj : j < hLen r.header) :
    scatterOn t 1 c = modSyn t (fun S => { S with fetching := fetchedTo f r j }) (applyTarget t f r j c) := by
  have hstop : min (hLen r.header) (j + 1) = j + 1 := by omega
  simp only [scatterOn, hf, hstop, Nat.add_sub_cancel_left, List.range_one, forAll_cons, forAll_nil, Nat.add_zero]
  rfl

theorem scatterEvent_fetching (hfence : fenced c t = false) (hf : (tile c t).syn.fetching.isSome = true)
    (hrun : (tile (scatterOn t n c) t).syn.run = none) : scatterEvent t n c = scatterOn t n c := by
  simp only [scatterEvent, hfence, hf, Bool.false_eq_true, if_false, if_true, pairing_of_notRunning hrun, ite_self]

end

/-! ### An event without a key (R99, R142) -/

/-- The units of a tile whose event `f` has been taken from the queue, with nothing spilled behind it. -/
def takenUnits (f : DWord) (T : Tile) : Tile :=
  { T with evq := { T.evq with queue := T.evq.queue.erase f, lastKey := some (fAxon f) } }

section
variable {t n : Nat} {f : DWord} {c : Chip}

theorem refillOne_unspilled (h : (tile c t).evq.spillLen = 0) : refillOne t c = c := by simp [refillOne, h]

theorem dequeue_unspilled (h : (tile c t).evq.spillLen = 0) :
    dequeue t f c = modTile t (fun T => { T with evq := { T.evq with queue := T.evq.queue.erase f } }) c :=
  refillOne_unspilled (by rw [tile_modTile_same]; exact h)

/-- The chip after the event `f`, taken with nothing spilled, has been dropped for want of a key. -/
def keylessDropped (t : Nat) (f : DWord) (c : Chip) : Chip :=
  c |> dequeue t f |> modTile t (fun T => { T with evq := { T.evq with lastKey := some (fAxon f) } }) |> count (Reg.SYN_DROP_NOKEY t) 1

theorem takeScatter_keyless (hg : isGatherInput c t f = false) (hk : keyCount c t ≤ keyIndex c t (fAxon f)) :
    takeScatter t n f c = keylessDropped t f c := by
  simp only [takeScatter, hg, hk, Bool.false_eq_true, if_false, if_true]
  rfl

theorem tile_keylessDropped (h : (tile c t).evq.spillLen = 0) : tile (keylessDropped t f c) t = takenUnits f (tile c t) := by
  simp only [keylessDropped, dequeue_unspilled h, tile_count, tile_modTile_same]
  rfl

theorem frame_keylessDropped (h : (tile c t).evq.spillLen = 0) : Frame [Reg.SYN_DROP_NOKEY t] [t] c (keylessDropped t f c) := by
  rw [keylessDropped, dequeue_unspilled h]
  exact frame_count _ _ (by simp) (frame_modTile _ _ (by simp) (frame_modTile _ _ (by simp) (frame_refl ..)))

theorem advanced_keylessDropped (h : (tile c t).evq.spillLen = 0) : Advanced (Reg.SYN_DROP_NOKEY t) 1 c (keylessDropped t f c) := by
  rw [keylessDropped, dequeue_unspilled h]
  exact advanced_of_count rfl rfl

/-- An event taken by an engine that runs no gather, before and after. -/
theorem scatterEvent_takes (hfence : fenced c t = false) (hint : (tile c t).seq.integrate = true) (hf : (tile c t).syn.fetching = none)
    (hrun : (tile c t).syn.run = none) (hnext : nextEntry c t = some f) (hkind : fKind f ≠ 6)
    (hrest : (tile (takeScatter t n f c) t).syn.run = none) : scatterEvent t n c = takeScatter t n f c := by
  simp [scatterEvent, pairReady, hfence, hint, hf, hrun, hnext, hkind, pairing_of_notRunning hrest]

end

/-! ### Gather inputs (R156) -/

/-- The gather input buffer with `v` written at `k` and the position marked. -/
def ginFilled (k v : Nat) (S : Syn) : Syn :=
  { S with gin := mapPut (fun _ => 0#8) S.gin k (BitVec.ofNat 8 v), ginWritten := mapPut (fun _ => false) S.ginWritten k true }

section
variable {t b pos v : Nat} {c : Chip}

theorem ginWrite_used (h : mapGet (fun _ => false) (tile c t).syn.ginUsed (4096 * b + pos) = true) :
    ginWrite t b pos v c = count (Reg.SYN_GIN_LATE t) 1 c := if_pos h

theorem ginWrite_free (hu : mapGet (fun _ => false) (tile c t).syn.ginUsed (4096 * b + pos) = false)
    (hw : mapGet (fun _ => false) (tile c t).syn.ginWritten (4096 * b + pos) = false) :
    ginWrite t b pos v c = modSyn t (ginFilled (4096 * b + pos) v) c := by
  simp only [ginWrite, hu, hw, Bool.false_eq_true, if_false, when_]
  rfl

end

/-- The oldest arrived event, of parity `p`, taken off the Local port and counted as delivered (R278). -/
def deliverArrived (t p : Nat) (c : Chip) : Chip := tally t p 1 1 (popArrived t c)

section
variable {t : Nat} {f : Flit} {fs : List Flit} {c : Chip}

theorem gatherInput_taken (ha : (tile c t).evq.arrived = f :: fs) (hfence : fenced c t = false) (hl : isLate c t f.data = false)
    (hg : isGatherInput c t f.data = true) : gatherInput t c =
      ginWrite t (fParity f.data) (ginPos c t (fAxon f.data)) (fValue f.data) (deliverArrived t (fParity f.data) c) := by
  simp [gatherInput, ha, hfence, hl, hg, deliverArrived]

theorem arrived_deliverArrived (ha : (tile c t).evq.arrived = f :: fs) (p : Nat) : (tile (deliverArrived t p c) t).evq.arrived = fs := by
  simp [deliverArrived, ha]

theorem syn_deliverArrived (t p : Nat) (c : Chip) : (tile (deliverArrived t p c) t).syn = (tile c t).syn := by
  simp [deliverArrived, tally, popArrived]

theorem frame_deliverArrived (as : List Nat) (t p : Nat) (c : Chip) : Frame as [t] c (deliverArrived t p c) :=
  frame_tally _ _ _ _ (by simp) (frame_popArrived _ (by simp) (frame_refl ..))

end

/-! ### The obligation -/

/-- Settles O17: the target by its accumulation, the keyless event by its drop, the position by its write. -/
theorem scatterAndGatherInputs : Obligations.ScatterAndGatherInputs := by
  intro t s hd hfence
  refine ⟨fun f r j _ hf hj hrun => ?target, fun f hint hf hrun hspill hnext hkind hg hkey => ?keyless, fun f fs ha hl hg => ?gin⟩
  case target =>
    intro a g sc code term
    have hon : scatterOn t 1 s.chip = _ := scatterOn_one hf hj
    have hrest : (tile (scatterOn t 1 s.chip) t).syn.run = none := by
      rw [hon, tile_modSyn_same]
      exact (congrArg Syn.run (syn_accAddExact ..)).trans hrun
    refine ⟨_, completes_tile rfl hd ((scatterEvent_fetching hfence (by rw [hf]; rfl) hrest).trans hon), ?_, fun x hx => ?_, ?_⟩
    · exact numAt_accAddExact_past_errors (x := term) (frame_refl (eccRegs t) [] s.chip)
    · exact byteAt_accAdd_outside _ _ _ _ _ _ hx
    · rw [tile_modSyn_same]
      rfl
  case keyless =>
    have htake := takeScatter_keyless (n := 1) hg hkey
    have hunits := tile_keylessDropped (f := f) hspill
    have hrest : (tile (takeScatter t 1 f s.chip) t).syn.run = none := by
      rw [htake, hunits]
      exact hrun
    refine ⟨_, completes_tile rfl hd ((scatterEvent_takes hfence hint hf hrun hnext hkind hrest).trans htake), ?_,
      advanced_keylessDropped hspill, frame_keylessDropped hspill⟩
    rw [hunits]
    rfl
  case gin =>
    intro k
    have htaken := gatherInput_taken ha hfence hl hg
    have hsyn := syn_deliverArrived t (fParity f.data) s.chip
    refine ⟨fun hu hw => ?free, fun hu => ?used⟩
    case free =>
      refine ⟨_, completes_tile rfl hd (htaken.trans (ginWrite_free (by rwa [hsyn]) (by rwa [hsyn]))), ?_, ?_, ?_,
        frame_modSyn _ _ (by simp) (frame_deliverArrived ..)⟩
      · rw [tile_modSyn_same]
        exact arrived_deliverArrived ha _
      · rw [tile_modSyn_same]
        exact mapGet_mapPut_same ..
      · rw [tile_modSyn_same]
        exact mapGet_mapPut_same (fun _ => false) (tile (deliverArrived t (fParity f.data) s.chip) t).syn.ginWritten k true
    case used =>
      refine ⟨_, completes_tile rfl hd (htaken.trans (ginWrite_used (by rwa [hsyn]))), ?_, advanced_of_count rfl rfl,
        frame_count _ _ (by simp) (frame_deliverArrived ..)⟩
      rw [tile_count]
      exact arrived_deliverArrived ha _

end Sys2Proof.Machine
end

section
/-!
PROOFS. GATHER_BEGIN, GATHER_END and GATHER_DONE (R146, R157 to R159): a gather refused, a resident gather begun, and the sums of one
group of one target.
-/

namespace Sys2Proof.Machine

open Sys2Proof.Safety

/-! ### The next word leaves memory and the synapse engine -/

theorem byteAt_nextWord (t : Nat) (c : Chip) (x : Nat) : byteAt (nextWord t c) x = byteAt c x := by
  unfold nextWord fetchCe when_
  split <;> rfl

theorem syn_nextWord (t : Nat) (c : Chip) : (tile (nextWord t c) t).syn = (tile c t).syn := by simp [nextWord, tile_fetchCe]

theorem pastWord_nextWord {t : Nat} {c d : Chip} (h : (tile d t).seq.pc = (tile c t).seq.pc) : PastWord t c (nextWord t d) :=
  pastWord_of_pc h (nextWord_moves (as := [Reg.TILE_SRAM_CE t]) (ts := [t]) t d (by simp) (by simp)).1

/-! ### A gather refused (R146) -/

/-- The entry that the word at the pointer names. -/
def wordEntry (c : Chip) (t : Nat) : Nat := bits (wordAt c t) 10 0

/-- That entry's word. -/
def entryWord (c : Chip) (t : Nat) : Nat := gatherEntry c t (wordEntry c t)

theorem keyCount_past_errors {t : Nat} {ts : List Nat} {c c' : Chip} (h : FrameButReports (eccRegs t) ts c c') :
    keyCount c' t = keyCount c t := by
  refine congrArg (min · 2048) (rfld_congr (reg_of_frameButReports h ?_))
  rw [mem_eccRegs]; unfold Reg.SYN_KEY_CFG; omega

theorem unitAt_past_errors {t : Nat} {ts : List Nat} {c c' : Chip} (h : FrameButReports (eccRegs t) ts c c') (u : Nat) :
    unitAt c' t u = unitAt c t u := numAt_past_errors h _ 8

/-- The entry of the word read, as GATHER_BEGIN does first. -/
def entryRead (t : Nat) (c : Chip) : Chip := engineReadFor t (openParity c t) (axonAddr c t (wordEntry c t)) 8 c

theorem frame_entryRead (t : Nat) (c : Chip) : FrameButReports (eccRegs t) [] c (entryRead t c) := frame_engineReadFor ..

/-- The header mismatch counted, flagged and reported. -/
def gatherRefused (t : Nat) (c : Chip) : Chip := c |> entryRead t |> hdrMismatch t |> reportTile t 4

theorem frame_hdrMismatch (t : Nat) (c : Chip) : Frame [Reg.SYN_HDR_MISMATCH t, Reg.SYN_FAULT t] [] c (hdrMismatch t c) :=
  frame_raise _ _ (by simp) (frame_count _ _ (by simp) (frame_refl ..))

theorem tile_gatherRefused (t : Nat) (c : Chip) : tile (gatherRefused t c) t = tile c t := by
  rw [gatherRefused, tile_of_frameButReports (frameButReports_reportTile [] [] ..) (by simp),
    tile_of_frameButReports (frameButReports_of_frame (frame_hdrMismatch ..)) (by simp), tile_of_frameButReports (frame_entryRead ..) (by simp)]

/-- What a refused gather shows in a register, past the report and the next word. -/
theorem reg_refusedWord {t a : Nat} (ha : a ≠ Reg.TILE_SRAM_CE t) (c : Chip) :
    reg (nextWord t (gatherRefused t c)) a = reg (hdrMismatch t (entryRead t c)) a :=
  (reg_nextWord_ne ha _).trans (reg_of_frameButReports (frameButReports_reportTile [] [] ..) (by simp))

theorem advanced_refusedWord (t : Nat) (c : Chip) : Advanced (Reg.SYN_HDR_MISMATCH t) 1 c (nextWord t (gatherRefused t c)) := by
  have hread : reg (entryRead t c) (Reg.SYN_HDR_MISMATCH t) = reg c (Reg.SYN_HDR_MISMATCH t) := by
    refine reg_of_frameButReports (frame_entryRead t c) ?_
    rw [mem_eccRegs]; unfold Reg.SYN_HDR_MISMATCH; omega
  refine advanced_of_count hread ((reg_refusedWord (by simp [Reg.SYN_HDR_MISMATCH, Reg.TILE_SRAM_CE]) c).trans ?_)
  exact reg_raise_ne (by simp [Reg.SYN_HDR_MISMATCH, Reg.SYN_FAULT]) ..

theorem fault_refusedWord (t : Nat) (c : Chip) : rflag (nextWord t (gatherRefused t c)) (Reg.SYN_FAULT t) 0 = true :=
  (rflag_congr (reg_refusedWord (by simp [Reg.SYN_FAULT, Reg.TILE_SRAM_CE]) c)).trans (rflag_raise _ _ _ (by decide))

theorem gatherBegin_refused {t : Nat} {c : Chip} (hw : atWord c t 0x05 = true) (hrun : (tile c t).syn.run = none)
    (h : keyCount c t ≤ wordEntry c t ∨ aMode (entryWord c t) = 0 ∨ aMode (entryWord c t) = 3) :
    gatherBegin t c = nextWord t (gatherRefused t c) := by
  rw [← keyCount_past_errors (frame_entryRead t c)] at h
  unfold gatherBegin
  simp only [if_pos hw, hrun, Option.isSome_none, Bool.false_and, Bool.false_eq_true, if_false]
  exact if_pos h

/-! ### A resident gather begun (R157, R159) -/

/-- The header of the row that the entry names. -/
def entryHeader (c : Chip) (t : Nat) : Nat := unitAt c t (aRow (entryWord c t))

/-- The gather of the word's entry under the header `h`, for the open parity's bank. -/
def entryGather (c : Chip) (t h : Nat) (streamed : Bool) : Gather :=
  { entry := wordEntry c t, word := entryWord c t, header := h, wAddr := 0, sAddr := 0, bank := openParity c t
    streamed := streamed, pairs := 0, requested := 0, consumed := 0 }

/-- The entry and its header `h` read, and the positions that the gather consumes marked. -/
def gatherMarked (t h : Nat) (c : Chip) : Chip :=
  c |> entryRead t |> engineReadFor t (openParity c t) (unitAddr t (aRow (entryWord c t))) 8
    |> markConsumed t (openParity c t) (entryWord c t) h

theorem seq_markConsumed (t b a h : Nat) (c : Chip) : (tile (markConsumed t b a h c) t).seq = (tile c t).seq :=
  forAll_leaves (fun d => (tile d t).seq) _ (fun _ _ => by rw [tile_modSyn_same]) c

theorem byteAt_markConsumed (t b a h : Nat) (c : Chip) (x : Nat) : byteAt (markConsumed t b a h c) x = byteAt c x :=
  forAll_leaves (fun d => byteAt d x) _ (fun _ _ => byteAt_modSyn ..) c

theorem seq_gatherMarked (t h : Nat) (c : Chip) : (tile (gatherMarked t h c) t).seq = (tile c t).seq := by
  rw [gatherMarked, seq_markConsumed, tile_of_frameButReports (frame_engineReadFor ..) (by simp),
    tile_of_frameButReports (frame_entryRead ..) (by simp)]

theorem byteAt_gatherMarked (t h : Nat) (c : Chip) (x : Nat) : byteAt (gatherMarked t h c) x = byteAt c x := by
  rw [gatherMarked, byteAt_markConsumed, byteAt_past_errors (frame_engineReadFor ..), byteAt_past_errors (frame_entryRead ..)]

theorem runGather_none {t : Nat} {c : Chip} (h : (tile c t).syn.run = none) (n : Nat) : runGather t n c = c := by
  cases n with
  | zero => rfl
  | succ n => simp [runGather, h]

/-- A resident gather whose header agrees begins to run. -/
theorem runGather_resident {t n : Nat} {g : Gather} {c : Chip} (hrun : (tile c t).syn.run = some g)
    (hh : headerOk g.word g.header = true) (hs : g.streamed = false) :
    runGather t (n + 1) c = modSyn t (fun S => { S with entry := g.entry }) c := by
  simp [runGather, hrun, hh, hs]

/-- The word's entry, of kind `streamed`, taken as the running gather. -/
def gatherTaken (t : Nat) (streamed : Bool) (c : Chip) : Chip :=
  gatherMarked t (entryHeader c t) c |> modSyn t (fun S => { S with run := some (entryGather c t (entryHeader c t) streamed) })

section
variable {t : Nat} {c : Chip} (hw : atWord c t 0x05 = true) (hrun : (tile c t).syn.run = none)
include hw hrun

theorem gatherBegin_accepted (hok : ¬ (keyCount c t ≤ wordEntry c t ∨ aMode (entryWord c t) = 0 ∨ aMode (entryWord c t) = 3)) :
    gatherBegin t c = nextWord t (runGather t 2 (gatherTaken t (decide (aMode (entryWord c t) = 2)) c)) := by
  have hread := frame_entryRead t c
  rw [← keyCount_past_errors hread] at hok
  rw [gatherTaken, entryHeader, ← unitAt_past_errors hread]
  unfold gatherBegin
  simp only [if_pos hw, hrun, Option.isSome_none, Bool.false_and, Bool.false_eq_true, if_false]
  exact if_neg hok

theorem gatherBegin_resident (hkey : wordEntry c t < keyCount c t) (hmode : aMode (entryWord c t) = 1)
    (hh : headerOk (entryWord c t) (entryHeader c t) = true) :
    gatherBegin t c = nextWord t (modSyn t (fun S => { S with entry := wordEntry c t }) (gatherTaken t false c)) := by
  have hresident : decide (aMode (entryWord c t) = 2) = false := by simp [hmode]
  rw [gatherBegin_accepted hw hrun (by omega), hresident,
    runGather_resident (g := entryGather c t (entryHeader c t) false) (by rw [gatherTaken, tile_modSyn_same]) hh rfl]
  rfl

end

/-! ### A gather that waits or is done (R159) -/

section
variable {t : Nat} {c : Chip} (hw : atWord c t 0x06 = true)
include hw

theorem gatherEnd_waits (hg : gathering c t (wordEntry c t) = true) : gatherEnd t c = holdWord t c := (if_pos hw).trans (if_pos hg)

theorem gatherEnd_goes (hg : ¬ gathering c t (wordEntry c t) = true) : gatherEnd t c = nextWord t c := (if_pos hw).trans (if_neg hg)

end

/-! ### One group of one target (R157) -/

/-- The code of input `i` of the first target of the row that `a` names. -/
def firstTargetCode (c : Chip) (t a h i : Nat) : Nat := codeIn (hWidth h) i (unitAt c t (aRow a + 1 + i / codesPerUnit (hWidth h)))

/-- What the first group of the first target adds (R175). -/
def firstGroupTerm (c : Chip) (t : Nat) (g : Gather) (a h : Nat) : Int :=
  scaleExact (groupSum c t g a h 0 (firstTargetCode c t a h)) (bits (unitAt c t (hScale h)) 15 0)

theorem residentAll_single {t a h : Nat} {g : Gather} {c : Chip} (ha : aLen a = 1) (hl : hLen h = groupSize (hGsize h))
    (hpos : 0 < groupSize (hGsize h)) : residentAll t g a h c = residentGroup t g a h 0 0 c := by
  rw [residentAll, ha, hl, Nat.div_self hpos]
  rfl

/-- The reads of the first group's scale and codes. -/
def firstGroupRead (t : Nat) (g : Gather) (a h : Nat) (c : Chip) : Chip :=
  c |> engineReadFor t g.bank (unitAddr t (hScale h)) 8
    |> engineReadFor t g.bank (unitAddr t (aRow a + 1)) (8 * ((groupSize (hGsize h) - 1) / codesPerUnit (hWidth h) + 1))

theorem frame_firstGroupRead (t : Nat) (g : Gather) (a h : Nat) (c : Chip) : FrameButReports (eccRegs t) [] c (firstGroupRead t g a h c) :=
  frameButReports_trans (frame_engineReadFor ..) (frame_engineReadFor ..)

theorem residentGroup_first (t : Nat) (g : Gather) (a h : Nat) (c : Chip) :
    residentGroup t g a h 0 0 c = accAddExact t g.bank (aTgt a) (firstGroupTerm c t g a h) (firstGroupRead t g a h c) := by
  simp only [residentGroup, Nat.zero_mul, Nat.zero_add, Nat.add_zero, Nat.zero_div, Nat.zero_mod, Nat.mul_zero, Nat.sub_zero]
  rfl

theorem syn_residentGroup_first (t : Nat) (g : Gather) (a h : Nat) (c : Chip) :
    (tile (residentGroup t g a h 0 0 c) t).syn = (tile c t).syn := by
  rw [residentGroup_first, syn_accAddExact, tile_of_frameButReports (frame_firstGroupRead ..) (by simp)]

section
variable {t clk : Nat} {g : Gather} {c : Chip}

theorem gatherDone_resident (hrun : (tile c t).syn.run = some g) (hf : (tile c t).syn.fetching = none) (hs : g.streamed = false) :
    gatherDone t clk c = endGather t (setFld (Reg.SYN_GATHER_CLK t) 24 0 clk (residentAll t g g.word g.header c)) := by
  simp [gatherDone, hrun, hf, hs]

/-- The gather at the front ends with none behind it. -/
theorem endGather_alone (h : (tile c t).syn.wait = none) : endGather t c = promote t c :=
  runGather_none (by rw [promote, tile_modSyn_same]; exact h) 2

theorem gatherDone_single (hrun : (tile c t).syn.run = some g) (hwait : (tile c t).syn.wait = none) (hf : (tile c t).syn.fetching = none)
    (hs : g.streamed = false) (ha : aLen g.word = 1) (hl : hLen g.header = groupSize (hGsize g.header))
    (hpos : 0 < groupSize (hGsize g.header)) :
    gatherDone t clk c = promote t (setFld (Reg.SYN_GATHER_CLK t) 24 0 clk (residentGroup t g g.word g.header 0 0 c)) := by
  rw [gatherDone_resident hrun hf hs, residentAll_single ha hl hpos, endGather_alone]
  exact (congrArg Syn.wait (syn_residentGroup_first ..)).trans hwait

end

/-! ### The obligation -/

/-- Settles O18: the refused and the begun gather by what each leaves, the waiting word, and the one group's accumulation. -/
theorem gatherWords : Obligations.GatherWords := by
  intro t clk s hd
  refine ⟨fun hw hrun => ⟨fun h => ?refused, fun hkey hmode hh => ?begun⟩, fun hw => ?ends, fun g hrun hwait hf hs => ?done⟩
  case refused =>
    exact ⟨_, completes_tile rfl hd (gatherBegin_refused hw hrun h), pastWord_nextWord (by rw [tile_gatherRefused]),
      advanced_refusedWord .., fault_refusedWord ..⟩
  case begun =>
    refine ⟨_, completes_tile rfl hd (gatherBegin_resident hw hrun hkey hmode hh), pastWord_nextWord ?_, ?_, fun x => ?_⟩
    · rw [tile_modSyn_same, gatherTaken, tile_modSyn_same]
      exact congrArg Seq.pc (seq_gatherMarked ..)
    · rw [syn_nextWord, tile_modSyn_same, gatherTaken, tile_modSyn_same]
      rfl
    · rw [byteAt_nextWord, byteAt_modSyn, gatherTaken, byteAt_modSyn, byteAt_gatherMarked]
  case ends =>
    by_cases hg : gathering s.chip t (bits (wordAt s.chip t) 10 0) = true
    · obtain ⟨hwaits, hframe⟩ := holdWord_waits t s.chip List.mem_cons_self List.mem_cons_self
      exact ⟨_, completes_tile rfl hd (gatherEnd_waits hw hg), by rwa [if_pos hg], hframe⟩
    · obtain ⟨hpast, hframe⟩ := nextWord_moves t s.chip List.mem_cons_self List.mem_cons_self
      exact ⟨_, completes_tile rfl hd (gatherEnd_goes hw hg), by rwa [if_neg hg], hframe⟩
  case done =>
    intro a h x code ha hl hpos
    refine ⟨_, completes_tile rfl hd (gatherDone_single hrun hwait hf hs ha hl hpos), ?_, rfld_setFld _ 24 0 clk _ (by decide) (by decide), ?_⟩
    · rw [residentGroup_first]
      exact numAt_accAddExact_past_errors (frame_firstGroupRead ..)
    · rw [promote, tile_modSyn_same]
      exact (congrArg Syn.wait (syn_residentGroup_first ..)).trans hwait

end Sys2Proof.Machine
end

section
/-!
PROOFS. STREAM_REPLY, PARTNER_WAIT_EXPIRE, CB_LOAD and CB_LOAD_DONE (R147, R148, R163 to R165, Table 5.5): a weight block completed, a
scale slip, and the codebook file copied entry by entry.
-/

namespace Sys2Proof.Machine

open Sys2Proof.Safety

/-! ### A packet taken off the Local port -/

theorem frame_dmaDrop (t p v : Nat) (c : Chip) : Frame [] [t] c (dmaDrop t p v c) := by
  unfold dmaDrop
  split
  · exact frame_modTile _ _ (by simp) (frame_refl ..)
  · exact frame_refl ..

theorem syn_dmaDrop (t p v : Nat) (c : Chip) : (tile (dmaDrop t p v c) t).syn = (tile c t).syn := by
  unfold dmaDrop
  split
  · rw [tile_modTile_same]
  · rfl

theorem streamReply_found {t p : Nat} {h : Flit} {body : List Flit} {c : Chip}
    (hfind : dmaFind c t 4 (fun _ => true) = some (p, h, body)) : streamReply t c = streamPacket t h body (dmaDrop t p 4 c) := by
  simp [streamReply, hfind]

/-! ### A weight block completed (R163) -/

theorem frame_reportBlock (as ts : List Nat) (t : Nat) (c : Chip) : FrameButReports as ts c (reportBlock t c) := by
  unfold reportBlock
  split
  · exact frameButReports_reportFor ..
  · exact frameButReports_reportTile ..

/-- The block that a packet with `body` completes for the request `r`. -/
def completedBlock (r : Req) (body : List Flit) : Block :=
  { seq := r.tag % 256, data := (r.data ++ bodyBytes (body.map (fun f => f.data))).take r.len }

/-- The engine with the request `r` closed. -/
def closedSyn (r : Req) (S : Syn) : Syn := { S with reqs := S.reqs.erase r }

/-- The request `r` closed, with its report where one of its packets carried STATUS 1. -/
def requestClosed (t : Nat) (r : Req) (c : Chip) : Chip :=
  c |> modSyn t (closedSyn r) |> when_ r.ue (reportBlock t)

/-- A block last in the weight queue, which ends a partner wait at that queue. -/
def weightsQueued (b : Block) (S : Syn) : Syn := { S with wq := S.wq ++ [b], pwait := if S.pwait = 1 then 0 else S.pwait }

section
variable {t : Nat} {r : Req} {c : Chip}

theorem frame_requestClosed : FrameButReports [] [t] c (requestClosed t r c) := by
  have hclosed : FrameButReports [] [t] c (modSyn t (closedSyn r) c) :=
    frameButReports_of_frame (frame_modSyn _ _ (by simp) (frame_refl ..))
  unfold requestClosed
  cases r.ue with
  | false => exact hclosed
  | true => exact frameButReports_trans hclosed (frame_reportBlock ..)

theorem syn_requestClosed : (tile (requestClosed t r c) t).syn = closedSyn r (tile c t).syn := by
  have hclosed : (tile (modSyn t (closedSyn r) c) t).syn = closedSyn r (tile c t).syn := by rw [tile_modSyn_same]
  unfold requestClosed
  cases r.ue with
  | false => exact hclosed
  | true => exact (congrArg Tile.syn (tile_of_frameButReports (frame_reportBlock [] [] ..) (by simp))).trans hclosed

theorem reports_requestClosed (h : r.ue = false) : (requestClosed t r c).reports = c.reports := by
  rw [requestClosed, h]
  rfl

/-- A weight block that finds no scale block waits in its queue (R164). -/
theorem blockArrived_weights {b : Block} (h : (tile c t).syn.sq = []) : blockArrived t 0 b c = modSyn t (weightsQueued b) c :=
  pairing_of_noScales (by rw [tile_modSyn_same]; exact h) 600

theorem streamPacket_last {h : Flit} {body : List Flit} (hreq : (tile c t).syn.reqs = [r]) (htag : r.tag = fSub h.data % 8192)
    (hstatus : fSub h.data / 8192 = 0) (hlen : r.len ≤ (r.got + 1) * 217) (hspoiled : r.spoiled = false)
    (hpoison : (h.poison || body.any (fun f => f.poison)) = false) :
    streamPacket t h body c = blockArrived t (r.tag / 256 % 2) (completedBlock r body) (requestClosed t r c) := by
  have hlast : ¬ (r.got + 1) * 217 < r.len := by omega
  have hfind : (tile c t).syn.reqs.find? (fun x => x.tag == fSub h.data % 8192) = some r := by simp [hreq, htag]
  unfold streamPacket
  simp only [hfind, hstatus, hpoison, hspoiled, hlast, Option.isNone_some, Option.some_or, Nat.reduceBEq, Bool.or_false,
    Bool.false_eq_true, OfNat.zero_ne_ofNat, or_self, if_false]
  rw [completedBlock, htag]
  rfl

end

/-! ### A scale slip (R165) -/

theorem reg_headSeq (q : List Block) (c : Chip) (a : Nat) : reg (headSeq q c).2 a = reg c a := by cases q <;> rfl

theorem reg_markTile (t b : Nat) (c : Chip) (a : Nat) : reg (markTile t b c) a = reg c a := by
  unfold markTile
  split <;> rfl

theorem tile_markTile (t b : Nat) (c : Chip) (u : Nat) : tile (markTile t b c) u = tile c u := by
  unfold markTile
  split <;> rfl

/-- SYN_SLIP_LAST of a slip of `cause` at the expected number `e`, with `w` and `q` at the queues' heads (R165). -/
def slipWord (e w q cause : Nat) : Nat := mk 31 24 e + mk 23 16 w + mk 15 8 q + mk 7 6 cause

theorem cause_slipWord (e w q cause : Nat) : fld (BitVec.ofNat 32 (slipWord e w q cause)) 7 6 = cause % 4 := by
  simp only [fld, bits, slipWord, mk, BitVec.toNat_ofNat]
  omega

theorem expected_slipWord (e w q cause : Nat) : fld (BitVec.ofNat 32 (slipWord e w q cause)) 31 24 = e % 256 := by
  simp only [fld, bits, slipWord, mk, BitVec.toNat_ofNat]
  omega

/-- The registers of a slip of the gather `g`. -/
def slipNoted (t cause : Nat) (g : Gather) (w q : Nat) (c : Chip) : Chip :=
  c |> count (Reg.SYN_SLIP_COUNT t) 1 |> putNum (Reg.SYN_SLIP_LAST t) (slipWord g.consumed w q cause)
    |> putNum (Reg.SYN_SLIP_ENTRY t) g.entry |> raise (Reg.SYN_FAULT t) 1

/-- The engine with its gathers, blocks and requests discarded. -/
def slippedSyn (S : Syn) : Syn := { S with run := none, wait := none, wq := [], sq := [], reqs := [], pwait := 0, pass := S.pass + 1 }

/-- The slip noted, reported and marked. -/
def slipped (t cause : Nat) (g : Gather) (w q : Nat) (c : Chip) : Chip :=
  c |> modSyn t slippedSyn |> slipNoted t cause g w q |> reportTile t 5 |> markTile t 1

/-- A slip of a running gather, past the free values that stand for the heads of empty queues. -/
theorem scaleSlip_running {t : Nat} {g : Gather} {c : Chip} (cause : Nat) (h : (tile c t).syn.run = some g) :
    ∃ w q d, (∀ a, reg d a = reg c a) ∧ scaleSlip t cause c = slipped t cause g w q d := by
  let x := headSeq (tile c t).syn.wq c
  let y := headSeq (tile x.2 t).syn.sq x.2
  refine ⟨x.1, y.1, y.2, fun a => (reg_headSeq ..).trans (reg_headSeq ..), ?_⟩
  simp only [scaleSlip, h]
  rfl

section
variable (t cause : Nat) (g : Gather) (w q : Nat) (c : Chip)

theorem reg_slipped (a : Nat) : reg (slipped t cause g w q c) a = reg (slipNoted t cause g w q c) a := by
  rw [slipped, reg_markTile, reg_of_frameButReports (frameButReports_reportTile [] [] ..) (by simp)]
  rfl

theorem run_slipped : (tile (slipped t cause g w q c) t).syn.run = none := by
  rw [slipped, tile_markTile, tile_of_frameButReports (frameButReports_reportTile [] [] ..) (by simp)]
  show (tile (modSyn t slippedSyn c) t).syn.run = none
  rw [tile_modSyn_same]
  rfl

theorem slipLast_slipped : reg (slipped t cause g w q c) (Reg.SYN_SLIP_LAST t) = BitVec.ofNat 32 (slipWord g.consumed w q cause) := by
  rw [reg_slipped, slipNoted, reg_raise_ne (by simp [Reg.SYN_SLIP_LAST, Reg.SYN_FAULT]),
    reg_putNum_ne (by simp [Reg.SYN_SLIP_LAST, Reg.SYN_SLIP_ENTRY]), reg_putNum_same]

theorem slipEntry_slipped : reg (slipped t cause g w q c) (Reg.SYN_SLIP_ENTRY t) = BitVec.ofNat 32 g.entry := by
  rw [reg_slipped, slipNoted, reg_raise_ne (by simp [Reg.SYN_SLIP_ENTRY, Reg.SYN_FAULT]), reg_putNum_same]

theorem slipCount_slipped : reg (slipped t cause g w q c) (Reg.SYN_SLIP_COUNT t) = reg (count (Reg.SYN_SLIP_COUNT t) 1 c) (Reg.SYN_SLIP_COUNT t) := by
  rw [reg_slipped, slipNoted, reg_raise_ne (by simp [Reg.SYN_SLIP_COUNT, Reg.SYN_FAULT]),
    reg_putNum_ne (by simp [Reg.SYN_SLIP_COUNT, Reg.SYN_SLIP_ENTRY]), reg_putNum_ne (by simp [Reg.SYN_SLIP_COUNT, Reg.SYN_SLIP_LAST])]

theorem fault_slipped : rflag (slipped t cause g w q c) (Reg.SYN_FAULT t) 1 = true :=
  (rflag_congr (reg_slipped ..)).trans (rflag_raise _ _ _ (by decide))

end

/-! ### The codebook file (R147, R148) -/

/-- Entry `i` of the codebooks in the store that SYN_CB_CFG names. -/
def storedEntry (c : Chip) (t i : Nat) : BitVec 16 :=
  BitVec.ofNat 16 (bits (unitAt c t (rfld c (Reg.SYN_CB_CFG t) 14 0 + i / 4)) (16 * (i % 4) + 15) (16 * (i % 4)))

/-- Entry `i` of the codebook file. -/
def fileEntry (c : Chip) (t i : Nat) : BitVec 16 := mapGet (fun _ => (0 : BitVec 16)) (tile c t).syn.cb i

theorem storedEntry_past_errors {t : Nat} {ts : List Nat} {c c' : Chip} (h : FrameButReports (eccRegs t) ts c c') (i : Nat) :
    storedEntry c' t i = storedEntry c t i := by
  have hcfg : rfld c' (Reg.SYN_CB_CFG t) 14 0 = rfld c (Reg.SYN_CB_CFG t) 14 0 := by
    refine rfld_congr (reg_of_frameButReports h ?_)
    rw [mem_eccRegs]; unfold Reg.SYN_CB_CFG; omega
  rw [storedEntry, storedEntry, hcfg, unitAt_past_errors h]

theorem fileEntry_copyCodebook (t i k : Nat) (c : Chip) :
    fileEntry (copyCodebook t k c) t i = if i = k then storedEntry c t k else fileEntry c t i := by
  rw [fileEntry, copyCodebook, tile_modSyn_same]
  exact mapGet_mapPut ..

theorem frame_copyCodebook (t k : Nat) (c : Chip) : FrameButReports (eccRegs t) [t] c (copyCodebook t k c) :=
  frameButReports_of_frame (frame_modSyn _ _ (by simp) (frame_refl ..))

/-- Every entry of a copy is that of the store as it stood before the copy, past the errors of the reads. -/
theorem fileEntry_copied {t n i : Nat} {c d : Chip} (h : FrameButReports (eccRegs t) [t] c d) (hi : i < n) :
    fileEntry (forAll (copyCodebook t) (List.range n) d) t i = storedEntry c t i := by
  refine (forAll_through (b := i) (P := FrameButReports (eccRegs t) [t] c)
    (Q := fun d => fileEntry d t i = storedEntry c t i) _ (List.mem_range.2 hi) List.nodup_range ?_ ?_ ?_ d h)
  · exact fun k _ _ e he => frameButReports_trans he (frame_copyCodebook t k e)
  · intro e he
    rw [fileEntry_copyCodebook, if_pos rfl, storedEntry_past_errors he]
  · intro k _ hk e he
    rw [fileEntry_copyCodebook, if_neg (Ne.symm hk), he]

section
variable {t : Nat} {c : Chip}

theorem cbLoad_stopped (h : seqEn c t = false) : cbLoad t c = modSyn t (fun S => { S with cbLoading := true }) c := by simp [cbLoad, h]

/-- The units of `n` codebooks read. -/
def codebooksRead (t n : Nat) (c : Chip) : Chip :=
  forAll (fun i c => engineRead t (unitAddr t (rfld c (Reg.SYN_CB_CFG t) 14 0 + i)) 8 c) (List.range (64 * n)) c

theorem frame_codebooksRead (n : Nat) : FrameButReports (eccRegs t) [t] c (codebooksRead t n c) :=
  frameButReports_mono (fun _ h => h) (by simp) (errorsNoted_forAll _ (fun _ _ => errorsNoted_engineRead ..) c).1

theorem cbLoadDone_loading (h : (tile c t).syn.cbLoading = true) :
    cbLoadDone t c = modSyn t (fun S => { S with cbLoading := false, cbValid := true })
      (forAll (copyCodebook t) (List.range (256 * (rfld c (Reg.SYN_CB_CFG t) 18 16 + 1)))
        (codebooksRead t (rfld c (Reg.SYN_CB_CFG t) 18 16 + 1) c)) := if_pos h

end

/-! ### The obligation -/

/-- Settles O19: the block by its queue, the slip by its registers, the codebooks entry by entry. -/
theorem streamedBlocksAndCodebooks : Obligations.StreamedBlocksAndCodebooks := by
  intro t s hd
  refine ⟨fun p h body r hfind hreq htag hweights hstatus hlen hspoiled hhead hbody hsq => ?block, fun g hrun hwait => ?slip,
    fun hstopped => ?load, fun hloading => ?loaded⟩
  case block =>
    have hsyn := syn_dmaDrop t p 4 s.chip
    have hdrop := frame_dmaDrop t p 4 s.chip
    have hclosed := syn_requestClosed (t := t) (r := r) (c := dmaDrop t p 4 s.chip)
    rw [hsyn] at hclosed
    have hpoison : (h.poison || body.any (fun f => f.poison)) = false := by simpa [hhead] using hbody
    have hpacket := streamPacket_last (t := t) (c := dmaDrop t p 4 s.chip) (by rw [hsyn, hreq]) htag hstatus hlen hspoiled hpoison
    rw [hweights, blockArrived_weights (by rw [hclosed]; exact hsq)] at hpacket
    refine ⟨_, completes_tile rfl hd ((streamReply_found hfind).trans hpacket), ?_, ?_, fun hue => ?_, ?_⟩
    · rw [tile_modSyn_same, hclosed]
      show (tile s.chip t).syn.reqs.erase r = []
      rw [hreq, List.erase_cons_head]
    · rw [tile_modSyn_same, hclosed]
      rfl
    · exact (reports_requestClosed hue).trans (congrArg Chip.reports hdrop.2.2 :)
    · exact frameButReports_trans (frameButReports_trans (frameButReports_of_frame hdrop) frame_requestClosed)
        (frameButReports_of_frame (frame_modSyn _ _ (by simp) (frame_refl ..)))
  case slip =>
    obtain ⟨w, q, d, hreg, hslip⟩ := scaleSlip_running 2 hrun
    refine ⟨_, completes_tile rfl hd ((if_neg hwait).trans hslip), run_slipped .., advanced_of_count (hreg _) (slipCount_slipped ..), ?_, ?_,
      slipEntry_slipped .., fault_slipped ..⟩
    · rw [rfld, slipLast_slipped, cause_slipWord]
    · rw [rfld, slipLast_slipped, expected_slipWord]
  case load =>
    refine ⟨_, completes_tile rfl hd (cbLoad_stopped hstopped), ?_, frame_modSyn _ _ (by simp) (frame_refl ..)⟩
    rw [tile_modSyn_same]
  case loaded =>
    refine ⟨_, completes_tile rfl hd (cbLoadDone_loading hloading), ?_, ?_, fun i hi => ?_⟩
    · rw [tile_modSyn_same]
    · rw [tile_modSyn_same]
    · rw [tile_modSyn_same]
      exact fileEntry_copied (frame_codebooksRead _) hi

end Sys2Proof.Machine
end

section
/-!
PROOFS. ENC_RUN_SET, ENC_RUN_CLEAR, QNT_FREEZE and ENC_ROUTE_WRITE (R187, R197, R199, R207): an encoder is armed, stopped and given
its settings.
-/

namespace Sys2Proof.Machine

open Sys2Proof.Safety

/-! ### What a start reads (R196, R197, R203, R204) -/

/-- The configuration registers of port `p` that its pipeline latency and the checks of a start read, ENC_CTRL.SRC aside. -/
def startRegs (p : Nat) : List Nat :=
  [Reg.ENC_LINK_CFG p, Reg.ENC_CHAN_CFG p, Reg.ENC_FEAT_CFG p, Reg.ENC_SEG p, Reg.QNT_CFG p, Reg.ENC_SPT p, Reg.ENC_GEN_CFG p,
    Reg.ENC_CAPTURE_LEAD p]

theorem ne_of_mem_startRegs {p a : Nat} (h : a ∈ startRegs p) : a ≠ Reg.ENC_CTRL p ∧ a ≠ Reg.ENC_PIPE_LAT p := by
  simp only [startRegs, List.mem_cons, List.not_mem_nil, or_false, Reg.ENC_LINK_CFG, Reg.ENC_CHAN_CFG, Reg.ENC_FEAT_CFG, Reg.ENC_SEG,
    Reg.QNT_CFG, Reg.ENC_SPT, Reg.ENC_GEN_CFG, Reg.ENC_CAPTURE_LEAD] at h
  unfold Reg.ENC_CTRL Reg.ENC_PIPE_LAT
  omega

section
variable {p : Nat} {c c' : Chip} (h : ∀ a ∈ startRegs p, reg c' a = reg c a)
include h

theorem pipeLatOf_congr : pipeLatOf c' p = pipeLatOf c p := by
  simp only [startRegs, List.forall_mem_cons] at h
  obtain ⟨hlink, hchan, hfeat, hseg, hqnt, -⟩ := h
  simp only [pipeLatOf, hlink, hchan, hfeat, hseg, hqnt]

theorem encLegal_congr (hsrc : encReplays c' p = encReplays c p) : encLegal c' p = encLegal c p := by
  have hlat := pipeLatOf_congr h
  simp only [startRegs, List.forall_mem_cons] at h
  obtain ⟨hlink, hchan, hfeat, hseg, hqnt, hspt, hgen, hlead, -⟩ := h
  simp only [encLegal, featLegal, chanLegal, linkLegal, groupsOf, rotSize, featCount, chanOn, binsOf, complexIn, packed12,
    samplesPerInterval, rfld, rflag, hlat, hsrc, hlink, hchan, hfeat, hseg, hqnt, hspt, hgen, hlead]
  rfl

end

/-! ### An encoder's state, and its other bits -/

@[simp] theorem reg_modEnc (p : Nat) (f : Enc → Enc) (c : Chip) (a : Nat) : reg (modEnc p f c) a = reg c a := rfl

theorem ENC_CTRL_ne_ENC_STATUS (p : Nat) : Reg.ENC_CTRL p ≠ Reg.ENC_STATUS p := by unfold Reg.ENC_CTRL Reg.ENC_STATUS; omega
theorem ENC_CTRL_ne_ENC_PIPE_LAT (p : Nat) : Reg.ENC_CTRL p ≠ Reg.ENC_PIPE_LAT p := by unfold Reg.ENC_CTRL Reg.ENC_PIPE_LAT; omega
theorem ENC_STATUS_ne_ENC_PIPE_LAT (p : Nat) : Reg.ENC_STATUS p ≠ Reg.ENC_PIPE_LAT p := by unfold Reg.ENC_STATUS Reg.ENC_PIPE_LAT; omega

section
variable (p : Nat) (c : Chip)

theorem encState_setEncState {n : Nat} (h : n < 8) : encState (setEncState p n c) p = n :=
  (rfld_setFld _ _ _ _ _ (by decide) (by decide)).trans (Nat.mod_eq_of_lt h)

theorem ctrl_setEncState (n : Nat) : reg (setEncState p n c) (Reg.ENC_CTRL p) = reg c (Reg.ENC_CTRL p) :=
  reg_setFld_ne (ENC_CTRL_ne_ENC_STATUS p) ..

theorem encState_setBit_ctrl (i : Nat) (b : Bool) : encState (setBit (Reg.ENC_CTRL p) i b c) p = encState c p :=
  rfld_congr (reg_setBit_ne (ENC_CTRL_ne_ENC_STATUS p).symm ..)

theorem encState_setBit_refused (b : Bool) : encState (setBit (Reg.ENC_STATUS p) 27 b c) p = encState c p :=
  rfld_setBit_apart _ (by decide) (by decide) ..

end

/-- A frame with the encoders' units set aside. -/
theorem frame_encs_aside {as ts : List Nat} {c d d' : Chip} (h : Frame as ts c d) (he : d' = { d with encs := d'.encs }) :
    Frame as ts c { d' with encs := c.encs } := by
  have hd : { d' with encs := c.encs } = d := by rw [he, h.2.2]
  rwa [hd]

/-! ### Setting RUN (R197, R199) -/

/-- Port `p` with RUN set and its pipeline latency published. -/
def runAsked (p : Nat) (c : Chip) : Chip := putNum (Reg.ENC_PIPE_LAT p) (pipeLatOf c p) (setBit (Reg.ENC_CTRL p) 0 true c)

/-- Port `p` whose start is taken. -/
def runTaken (p : Nat) (c : Chip) : Chip :=
  runAsked p c |> setEncState p 1 |> setBit (Reg.ENC_STATUS p) 27 false |> modEnc p (fun E => { E with cap := [] })

/-- Port `p` whose start is refused. -/
def runRefused (p : Nat) (c : Chip) : Chip := runAsked p c |> setBit (Reg.ENC_STATUS p) 27 true |> setBit (Reg.ENC_CTRL p) 0 false

/-- The registers that a write of RUN may change. -/
def runRegs (p : Nat) : List Nat := [Reg.ENC_CTRL p, Reg.ENC_STATUS p, Reg.ENC_PIPE_LAT p]

section
variable {p : Nat} {c : Chip}

theorem encLegal_runAsked : encLegal (runAsked p c) p = encLegal c p := by
  refine encLegal_congr (fun a ha => ?_) ?_
  · obtain ⟨hctrl, hlat⟩ := ne_of_mem_startRegs ha
    exact (reg_putNum_ne hlat ..).trans (reg_setBit_ne hctrl ..)
  · exact (rflag_congr (reg_putNum_ne (ENC_CTRL_ne_ENC_PIPE_LAT p) ..)).trans (rflag_setBit_bit _ (by decide) (by decide) ..)

/-- A stopped encoder checks its configuration past the write of RUN. -/
theorem encRunSet_stopped (hon : portOn c p = true) (h : encState c p = 0) :
    encRunSet p c = if encLegal c p = true then runTaken p c else runRefused p c := by
  have hlat : pipeLatOf (setBit (Reg.ENC_CTRL p) 0 true c) p = pipeLatOf c p :=
    pipeLatOf_congr (fun a ha => reg_setBit_ne (ne_of_mem_startRegs ha).1 ..)
  have harm : encRunSet p c = encArm p (setBit (Reg.ENC_CTRL p) 0 true c) := by
    simp only [encRunSet, hon, encState_setBit_ctrl, h, if_true]
  rw [harm, encArm, hlat, ← encLegal_runAsked (c := c)]
  rfl

theorem encRunSet_notStopped (hon : portOn c p = true) (h : encState c p ≠ 0) : encRunSet p c = setBit (Reg.ENC_CTRL p) 0 true c := by
  simp only [encRunSet, hon, encState_setBit_ctrl, h, if_true, if_false]

end

section
variable (p : Nat) (c : Chip)

theorem pipeLat_runAsked : reg (runAsked p c) (Reg.ENC_PIPE_LAT p) = BitVec.ofNat 32 (pipeLatOf c p) := reg_putNum_same ..

theorem encState_runAsked : encState (runAsked p c) p = encState c p :=
  (rfld_congr (reg_putNum_ne (ENC_STATUS_ne_ENC_PIPE_LAT p) ..)).trans (encState_setBit_ctrl ..)

theorem run_runAsked : rflag (runAsked p c) (Reg.ENC_CTRL p) 0 = true :=
  (rflag_congr (reg_putNum_ne (ENC_CTRL_ne_ENC_PIPE_LAT p) ..)).trans (rflag_setBit_same _ (by decide) ..)

theorem frame_runAsked : Frame (runRegs p) [] c (runAsked p c) :=
  frame_putNum _ _ (by simp [runRegs]) (frame_setBit _ _ _ (by simp [runRegs]) (frame_refl ..))

theorem pipeLat_runTaken : reg (runTaken p c) (Reg.ENC_PIPE_LAT p) = BitVec.ofNat 32 (pipeLatOf c p) := by
  rw [runTaken, reg_modEnc, reg_setBit_ne (ENC_STATUS_ne_ENC_PIPE_LAT p).symm, setEncState, reg_setFld_ne (ENC_STATUS_ne_ENC_PIPE_LAT p).symm,
    pipeLat_runAsked]

theorem encState_runTaken : encState (runTaken p c) p = 1 :=
  (encState_setBit_refused ..).trans (encState_setEncState _ _ (by decide))

theorem refused_runTaken : rflag (runTaken p c) (Reg.ENC_STATUS p) 27 = false := rflag_setBit_same _ (by decide) ..

theorem run_runTaken : rflag (runTaken p c) (Reg.ENC_CTRL p) 0 = true :=
  (rflag_congr ((reg_setBit_ne (ENC_CTRL_ne_ENC_STATUS p) ..).trans (ctrl_setEncState ..))).trans (run_runAsked ..)

theorem frame_runTaken : Frame (runRegs p) [] c { runTaken p c with encs := c.encs } :=
  frame_encs_aside (frame_setBit _ _ _ (by simp [runRegs]) (frame_setFld _ _ _ _ (by simp [runRegs]) (frame_runAsked p c))) rfl

theorem pipeLat_runRefused : reg (runRefused p c) (Reg.ENC_PIPE_LAT p) = BitVec.ofNat 32 (pipeLatOf c p) := by
  rw [runRefused, reg_setBit_ne (ENC_CTRL_ne_ENC_PIPE_LAT p).symm, reg_setBit_ne (ENC_STATUS_ne_ENC_PIPE_LAT p).symm, pipeLat_runAsked]

theorem encState_runRefused : encState (runRefused p c) p = encState c p :=
  (encState_setBit_ctrl ..).trans ((encState_setBit_refused ..).trans (encState_runAsked ..))

theorem refused_runRefused : rflag (runRefused p c) (Reg.ENC_STATUS p) 27 = true :=
  (rflag_congr (reg_setBit_ne (ENC_CTRL_ne_ENC_STATUS p).symm ..)).trans (rflag_setBit_same _ (by decide) ..)

theorem run_runRefused : rflag (runRefused p c) (Reg.ENC_CTRL p) 0 = false := rflag_setBit_same _ (by decide) ..

theorem frame_runRefused : Frame (runRegs p) [] c { runRefused p c with encs := c.encs } :=
  frame_encs_aside (frame_setBit _ _ _ (by simp [runRegs]) (frame_setBit _ _ _ (by simp [runRegs]) (frame_runAsked p c))) rfl

end

/-! ### Clearing RUN (R199) -/

section
variable {p : Nat} {c : Chip} (hon : portOn c p = true)
include hon

theorem encRunClear_armed (h : encState c p = 1) :
    encRunClear p c = modEnc p (fun E => { E with cap := [] }) (setEncState p 0 (setBit (Reg.ENC_CTRL p) 0 false c)) := by
  simp only [encRunClear, hon, encState_setBit_ctrl, h, if_true]

theorem encRunClear_stops (h : encState c p = 2 ∨ encState c p = 4) :
    encRunClear p c = setEncState p 3 (setBit (Reg.ENC_CTRL p) 0 false c) := by
  rcases h with h | h <;> simp only [encRunClear, hon, encState_setBit_ctrl, h, if_true]

theorem encRunClear_idle (harmed : encState c p ≠ 1) (hrun : ¬ (encState c p = 2 ∨ encState c p = 4)) :
    encRunClear p c = setBit (Reg.ENC_CTRL p) 0 false c := by
  obtain ⟨h2, h4⟩ := not_or.1 hrun
  simp only [encRunClear, hon, encState_setBit_ctrl, if_true]

end

theorem run_setEncState_cleared (p n : Nat) (c : Chip) :
    rflag (setEncState p n (setBit (Reg.ENC_CTRL p) 0 false c)) (Reg.ENC_CTRL p) 0 = false :=
  (rflag_congr (ctrl_setEncState ..)).trans (rflag_setBit_same _ (by decide) ..)

theorem frame_setEncState_cleared (p n : Nat) (c : Chip) :
    Frame [Reg.ENC_CTRL p, Reg.ENC_STATUS p] [] c (setEncState p n (setBit (Reg.ENC_CTRL p) 0 false c)) :=
  frame_setFld _ _ _ _ (by simp) (frame_setBit _ _ _ (by simp) (frame_refl ..))

/-! ### FREEZE and the route entries (R187, R207) -/

section
variable {p : Nat} {c : Chip}

theorem qntFreeze_on (hon : portOn c p = true) (hold : Bool) : qntFreeze p hold c = setBit (Reg.QNT_CFG p) 9 hold c := if_pos hon

theorem encRouteWrite_inForce {set : Nat} (h : rfld c (Reg.ENC_EPOCH p) 0 0 = set) (n w : Nat) (v : Word) :
    encRouteWrite p set n w v c = c := by simp [encRouteWrite, h]

theorem encRouteWrite_other (hon : portOn c p = true) {set : Nat} (h : rfld c (Reg.ENC_EPOCH p) 0 0 ≠ set) (n w : Nat) (v : Word) :
    encRouteWrite p set n w v c = setReg (Reg.ENC_ROUTE p set n w) (v &&& encRouteMask w) c := by simp [encRouteWrite, hon, h]

end

/-! ### The obligation -/

/-- Settles O32: RUN by the encoder's state and the checks of its configuration, the settings by the one register each writes. -/
theorem encoderRunAndSettings : Obligations.EncoderRunAndSettings := by
  intro p s hon
  refine ⟨fun h0 => ?start, fun h0 => ?set, ?clear, fun hold => ?freeze, fun set n w v => ⟨fun hset => ?inForce, fun hset => ?other⟩⟩
  case start =>
    refine ⟨encRunSet p s.chip, done_eq .., ?_⟩
    rw [encRunSet_stopped hon h0]
    by_cases hl : encLegal s.chip p = true
    · rw [if_pos hl]
      exact ⟨pipeLat_runTaken .., fun _ => ⟨encState_runTaken .., refused_runTaken .., run_runTaken ..⟩,
        fun hn => absurd hl (by simp [hn]), frame_runTaken ..⟩
    · rw [if_neg hl]
      exact ⟨pipeLat_runRefused .., fun hn => absurd hn hl,
        fun _ => ⟨(encState_runRefused ..).trans h0, refused_runRefused .., run_runRefused ..⟩, frame_runRefused ..⟩
  case set =>
    refine ⟨encRunSet p s.chip, done_eq .., ?_⟩
    rw [encRunSet_notStopped hon h0]
    exact ⟨rflag_setBit_same _ (by decide) .., frame_setBit _ _ _ (by simp) (frame_refl ..)⟩
  case clear =>
    refine ⟨encRunClear p s.chip, done_eq .., ?_⟩
    have hframe (n : Nat) := frame_setEncState_cleared p n s.chip
    by_cases harmed : encState s.chip p = 1
    · rw [encRunClear_armed hon harmed, harmed]
      exact ⟨run_setEncState_cleared .., encState_setEncState _ _ (by decide), frame_encs_aside (hframe 0) rfl⟩
    by_cases hrun : encState s.chip p = 2 ∨ encState s.chip p = 4
    · rw [encRunClear_stops hon hrun]
      refine ⟨run_setEncState_cleared .., (encState_setEncState _ _ (by decide)).trans ?_, frame_encs_aside (hframe 3) rfl⟩
      obtain h | h := hrun
      · rw [h]; rfl
      · rw [h]; rfl
    · rw [encRunClear_idle hon harmed hrun]
      refine ⟨rflag_setBit_same _ (by decide) .., (encState_setBit_ctrl ..).trans ?_,
        frame_encs_aside (frame_setBit _ _ _ (by simp) (frame_refl ..)) rfl⟩
      split
      · exact absurd ‹_› harmed
      · exact absurd (.inl ‹_›) hrun
      · exact absurd (.inr ‹_›) hrun
      · rfl
  case freeze =>
    refine ⟨qntFreeze p hold s.chip, done_eq .., ?_⟩
    rw [qntFreeze_on hon]
    exact ⟨rflag_setBit_same _ (by decide) .., frame_setBit _ _ _ (by simp) (frame_refl ..)⟩
  case inForce => exact (done_eq ..).trans (by rw [encRouteWrite_inForce hset])
  case other =>
    refine ⟨encRouteWrite p set n w v s.chip, done_eq .., ?_⟩
    rw [encRouteWrite_other hon hset]
    refine ⟨(reg_setReg_same ..).trans ?_, frame_setReg _ _ (by simp) (frame_refl ..)⟩
    match w with
    | 0 => rfl
    | 1 | 2 => exact BitVec.and_allOnes
    | 3 => rfl

end Sys2Proof.Machine
end

section
/-!
PROOFS. LINK_EN_SET, DATA_PHASE, MULTIBLOCK_RX, LANE_LOCK_LOSS and PORT_SYSREF_EDGE (R194, R195, R424): a stream port's link comes
up, delivers samples and is lost.
-/

namespace Sys2Proof.Machine

open Sys2Proof.Safety

/-! ### What a port captures -/

@[simp] theorem enc_modEnc_same (p : Nat) (f : Enc → Enc) (c : Chip) : enc (modEnc p f c) p = f (enc c p) := by simp [enc, modEnc]

/-- What port `p` has captured with `x` last, where its encoder is not stopped. -/
def capWith (p : Nat) (x : Capture) (c : Chip) : List Capture :=
  if encState c p = 0 then (enc c p).cap else (enc c p).cap ++ [x]

section
variable (p : Nat) (x : Capture) (c : Chip)

@[simp] theorem reg_capture (a : Nat) : reg (capture p x c) a = reg c a := by
  unfold capture
  split <;> rfl

theorem cap_capture : (enc (capture p x c) p).cap = capWith p x c := by
  unfold capture capWith
  split
  · rfl
  · rw [enc_modEnc_same]

/-- A capture changes its encoder alone. -/
theorem capture_eq : capture p x c = { c with encs := (capture p x c).encs } := by
  unfold capture
  split <;> rfl

end

/-- A capture past an update that leaves the encoders and their states. -/
theorem capWith_congr {p : Nat} {c d : Chip} (hs : encState d p = encState c p) (he : d.encs = c.encs) (x : Capture) :
    capWith p x d = capWith p x c := by
  rw [capWith, capWith, hs, enc, enc, he]

/-! ### The registers of a link -/

theorem ENC_LINK_STATUS_ne_ENC_STATUS (p : Nat) : Reg.ENC_LINK_STATUS p ≠ Reg.ENC_STATUS p := by
  unfold Reg.ENC_LINK_STATUS Reg.ENC_STATUS; omega
theorem ENC_LINK_STATUS_ne_ENC_FAULT (p : Nat) : Reg.ENC_LINK_STATUS p ≠ Reg.ENC_FAULT p := by
  unfold Reg.ENC_LINK_STATUS Reg.ENC_FAULT; omega
theorem ENC_LINK_STATUS_ne_ENC_LINK_DROPS (p : Nat) : Reg.ENC_LINK_STATUS p ≠ Reg.ENC_LINK_DROPS p := by
  unfold Reg.ENC_LINK_STATUS Reg.ENC_LINK_DROPS; omega
theorem ENC_STATUS_ne_ENC_FAULT (p : Nat) : Reg.ENC_STATUS p ≠ Reg.ENC_FAULT p := by
  unfold Reg.ENC_STATUS Reg.ENC_FAULT; omega
theorem ENC_STATUS_ne_ENC_LINK_DROPS (p : Nat) : Reg.ENC_STATUS p ≠ Reg.ENC_LINK_DROPS p := by
  unfold Reg.ENC_STATUS Reg.ENC_LINK_DROPS; omega
theorem ENC_STATUS_ne_ENC_CRC_ERR (p : Nat) : Reg.ENC_STATUS p ≠ Reg.ENC_CRC_ERR p := by
  unfold Reg.ENC_STATUS Reg.ENC_CRC_ERR; omega
theorem ENC_CRC_ERR_ne_ENC_FAULT (p : Nat) : Reg.ENC_CRC_ERR p ≠ Reg.ENC_FAULT p := by
  unfold Reg.ENC_CRC_ERR Reg.ENC_FAULT; omega
theorem ENC_LINK_DROPS_ne_ENC_FAULT (p : Nat) : Reg.ENC_LINK_DROPS p ≠ Reg.ENC_FAULT p := by
  unfold Reg.ENC_LINK_DROPS Reg.ENC_FAULT; omega

/-- Bits cleared by a mask read 0. -/
theorem flag_and_not (v : Word) {n i : Nat} (hi : i < 32) (h : n.testBit i = true) : flag (v &&& ~~~ BitVec.ofNat 32 n) i = false := by
  rw [flag, bit_eq_testBit, BitVec.testBit_toNat, BitVec.getLsbD_and, BitVec.getLsbD_not, BitVec.getLsbD_ofNat, h]
  simp [hi]

/-! ### Data phase (R194) -/

/-- ENC_LINK_STATUS with both locks of port `p`'s lanes. -/
def locksHeld (p : Nat) (c : Chip) : Nat := (2 ^ (rfld c (Reg.ENC_LINK_CFG p) 9 8 + 1) - 1) * 0x110

/-- Port `p` as it enters data phase, before its capture. -/
def phaseEntered (p : Nat) (c : Chip) : Chip :=
  setBit (Reg.ENC_STATUS p) 28 true (putNum (Reg.ENC_LINK_STATUS p) (locksHeld p c + 3) c)

section
variable {p : Nat} {c : Chip} (hon : portOn c p = true) (hen : rflag c (Reg.ENC_CTRL p) 2 = true) (hup : linkUp c p = false)
  (hpad : padHeld c p = false)
include hon hen hup hpad

theorem dataPhase_skewed (now : Nat) :
    dataPhase p true now c = raise (Reg.ENC_FAULT p) 2 (putNum (Reg.ENC_LINK_STATUS p) (locksHeld p c + 2) c) := by
  simp [dataPhase, hon, hen, hup, hpad, locksHeld]

theorem dataPhase_aligned (now : Nat) :
    dataPhase p false now c = capture p { time := now, kind := 2, data := [] } (phaseEntered p c) := by
  simp [dataPhase, hon, hen, hup, hpad, locksHeld, phaseEntered]

end

section
variable (p : Nat) (c : Chip)

theorem linkStatus_phaseEntered : reg (phaseEntered p c) (Reg.ENC_LINK_STATUS p) = BitVec.ofNat 32 (locksHeld p c + 3) :=
  (reg_setBit_ne (ENC_LINK_STATUS_ne_ENC_STATUS p) ..).trans (reg_putNum_same ..)

theorem encState_phaseEntered : encState (phaseEntered p c) p = encState c p :=
  (rfld_setBit_apart _ (by decide) (by decide) ..).trans (rfld_congr (reg_putNum_ne (ENC_LINK_STATUS_ne_ENC_STATUS p).symm ..))

theorem frame_phaseEntered : Frame [Reg.ENC_LINK_STATUS p, Reg.ENC_STATUS p] [] c (phaseEntered p c) :=
  frame_setBit _ _ _ (by simp) (frame_putNum _ _ (by simp) (frame_refl ..))

end

/-! ### A multiblock (R195) -/

/-- Port `p` with a CRC error noted where there is one. -/
def crcNoted (p : Nat) (bad : Bool) (c : Chip) : Chip :=
  when_ bad (fun c => c |> count (Reg.ENC_CRC_ERR p) 1 |> raise (Reg.ENC_FAULT p) 1) c

theorem multiblock_up {p : Nat} {c : Chip} (h : linkUp c p = true) (now : Nat) (xs : List (BitVec 16)) (bad : Bool) :
    multiblock p now xs bad c = capture p { time := now, kind := 0, data := xs } (crcNoted p bad c) := if_pos h

theorem multiblock_down {p : Nat} {c : Chip} (h : linkUp c p = false) (now : Nat) (xs : List (BitVec 16)) (bad : Bool) :
    multiblock p now xs bad c = c := by simp [multiblock, h]

section
variable (p : Nat) (bad : Bool) (c : Chip)

theorem encs_crcNoted : (crcNoted p bad c).encs = c.encs := by cases bad <;> rfl

theorem encState_crcNoted : encState (crcNoted p bad c) p = encState c p := by
  cases bad with
  | false => rfl
  | true => exact rfld_congr ((reg_raise_ne (ENC_STATUS_ne_ENC_FAULT p) ..).trans (reg_count_ne (ENC_STATUS_ne_ENC_CRC_ERR p) ..))

theorem crcNoted_counts : Advanced (Reg.ENC_CRC_ERR p) 1 c (crcNoted p true c) ∧ rflag (crcNoted p true c) (Reg.ENC_FAULT p) 1 = true :=
  ⟨advanced_of_count rfl (reg_raise_ne (ENC_CRC_ERR_ne_ENC_FAULT p) ..), rflag_raise _ _ _ (by decide)⟩

theorem frame_crcNoted : Frame (if bad then [Reg.ENC_CRC_ERR p, Reg.ENC_FAULT p] else []) [] c (crcNoted p bad c) := by
  cases bad with
  | false => exact frame_refl ..
  | true => exact frame_raise _ _ (by simp) (frame_count _ _ (by simp) (frame_refl ..))

end

/-! ### A lane that loses lock (R195) -/

/-- Port `p` out of data phase and without the locks of the lanes in `lanes`, before its capture. -/
def phaseLeft (p lanes : Nat) (c : Chip) : Chip :=
  c |> setReg (Reg.ENC_LINK_STATUS p) (reg c (Reg.ENC_LINK_STATUS p) &&& ~~~ BitVec.ofNat 32 (lanes * 0x110 + 3))
    |> setBit (Reg.ENC_STATUS p) 28 false

/-- The registers that the loss of a lane's lock may change. -/
def lossRegs (p : Nat) : List Nat := [Reg.ENC_LINK_STATUS p, Reg.ENC_STATUS p, Reg.ENC_LINK_DROPS p, Reg.ENC_FAULT p]

/-- A loss of the link counted and raised. -/
def dropNoted (p : Nat) (c : Chip) : Chip := raise (Reg.ENC_FAULT p) 0 (count (Reg.ENC_LINK_DROPS p) 1 c)

theorem laneLoss_up {p : Nat} {c : Chip} (h : linkUp c p = true) (lane now : Nat) :
    laneLoss p lane now c = dropNoted p (capture p { time := now, kind := 1, data := [] } (phaseLeft p (2 ^ lane) c)) := if_pos h

section
variable (p lanes : Nat) (c : Chip)

theorem reg_dropNoted {a : Nat} (hd : a ≠ Reg.ENC_LINK_DROPS p) (hf : a ≠ Reg.ENC_FAULT p) : reg (dropNoted p c) a = reg c a :=
  (reg_raise_ne hf ..).trans (reg_count_ne hd ..)

theorem linkStatus_phaseLeft :
    reg (phaseLeft p lanes c) (Reg.ENC_LINK_STATUS p) = reg c (Reg.ENC_LINK_STATUS p) &&& ~~~ BitVec.ofNat 32 (lanes * 0x110 + 3) :=
  (reg_setBit_ne (ENC_LINK_STATUS_ne_ENC_STATUS p) ..).trans (reg_setReg_same ..)

theorem encState_phaseLeft : encState (phaseLeft p lanes c) p = encState c p :=
  (rfld_setBit_apart _ (by decide) (by decide) ..).trans (rfld_congr (reg_setReg_ne _ _ (ENC_LINK_STATUS_ne_ENC_STATUS p).symm))

theorem drops_phaseLeft : reg (phaseLeft p lanes c) (Reg.ENC_LINK_DROPS p) = reg c (Reg.ENC_LINK_DROPS p) :=
  (reg_setBit_ne (ENC_STATUS_ne_ENC_LINK_DROPS p).symm ..).trans (reg_setReg_ne _ _ (ENC_LINK_STATUS_ne_ENC_LINK_DROPS p).symm)

theorem frame_dropNoted_phaseLeft : Frame (lossRegs p) [] c (dropNoted p (phaseLeft p lanes c)) :=
  frame_raise _ _ (by simp [lossRegs]) (frame_count _ _ (by simp [lossRegs])
    (frame_setBit _ _ _ (by simp [lossRegs]) (frame_setReg _ _ (by simp [lossRegs]) (frame_refl ..))))

/-- Port `p` with its loss noted, set aside what it captured. -/
theorem dropNoted_capture (x : Capture) : dropNoted p (capture p x c) =
    { dropNoted p c with encs := (dropNoted p (capture p x c)).encs } := by
  unfold capture
  split <;> rfl

end

/-- The bits of ENC_LINK_STATUS that go with the lock of a lane: data phase and the lane's two locks. -/
theorem testBit_lane (lane : Fin 4) : ∀ i ∈ [0, 4 + lane.val, 8 + lane.val], i < 32 ∧ (2 ^ lane.val * 0x110 + 3).testBit i = true := by
  revert lane; decide

section
variable {p : Nat} {c : Chip} (lane : Fin 4) (now : Nat) (h : linkUp c p = true)
include h

theorem linkStatus_laneLoss {i : Nat} (hi : i ∈ [0, 4 + lane.val, 8 + lane.val]) :
    rflag (laneLoss p lane now c) (Reg.ENC_LINK_STATUS p) i = false := by
  obtain ⟨hlt, hbit⟩ := testBit_lane lane i hi
  rw [laneLoss_up h, rflag, reg_dropNoted _ _ (ENC_LINK_STATUS_ne_ENC_LINK_DROPS p) (ENC_LINK_STATUS_ne_ENC_FAULT p), reg_capture,
    linkStatus_phaseLeft, flag_and_not _ hlt hbit]

theorem status_laneLoss : rflag (laneLoss p lane now c) (Reg.ENC_STATUS p) 28 = false := by
  rw [laneLoss_up h, rflag, reg_dropNoted _ _ (ENC_STATUS_ne_ENC_LINK_DROPS p) (ENC_STATUS_ne_ENC_FAULT p), reg_capture]
  exact rflag_setBit_same _ (by decide) ..

theorem laneLoss_counts : Advanced (Reg.ENC_LINK_DROPS p) 1 c (laneLoss p lane now c) ∧
    rflag (laneLoss p lane now c) (Reg.ENC_FAULT p) 0 = true := by
  rw [laneLoss_up h]
  exact ⟨advanced_of_count ((reg_capture ..).trans (drops_phaseLeft ..)) (reg_raise_ne (ENC_LINK_DROPS_ne_ENC_FAULT p) ..),
    rflag_raise _ _ _ (by decide)⟩

theorem cap_laneLoss : (enc (laneLoss p lane now c) p).cap = capWith p { time := now, kind := 1, data := [] } c := by
  rw [laneLoss_up h]
  exact (cap_capture ..).trans (capWith_congr (encState_phaseLeft ..) rfl _)

theorem frame_laneLoss : Frame (lossRegs p) [] c { laneLoss p lane now c with encs := c.encs } := by
  rw [laneLoss_up h]
  exact frame_encs_aside (frame_dropNoted_phaseLeft ..) (dropNoted_capture ..)

end

/-! ### A SYSREF edge at the port (R195) -/

theorem portSysref_misaligned {p : Nat} {c : Chip} (h : linkUp c p = true) : portSysref p false c = raise (Reg.ENC_FAULT p) 3 c := by
  simp [portSysref, h]

theorem portSysref_silent {p : Nat} {aligned : Bool} {c : Chip} (h : linkUp c p = false ∨ aligned = true) : portSysref p aligned c = c := by
  rcases h with h | h <;> simp [portSysref, h]

/-! ### The obligation -/

/-- Settles O31: each command by the registers it writes and by what the port captures. -/
theorem streamPortLink : Obligations.StreamPortLink := by
  intro p s
  refine ⟨fun hon => ?enable, fun skew now hon hen hup hpad => ?phase, fun now xs bad => ⟨fun hup => ?received, fun hup => ?ignored⟩,
    fun lane now hup => ?lost, fun aligned => ?edge⟩
  case enable =>
    refine ⟨linkEnable p s.chip, done_eq .., ?_⟩
    rw [linkEnable, if_pos hon]
    exact ⟨rflag_setBit_same _ (by decide) .., frame_setBit _ _ _ (by simp) (frame_refl ..)⟩
  case phase =>
    refine ⟨dataPhase p skew now s.chip, done_eq .., ?_⟩
    cases skew with
    | true =>
      rw [dataPhase_skewed hon hen hup hpad]
      exact ⟨(reg_raise_ne (ENC_LINK_STATUS_ne_ENC_FAULT p) ..).trans (reg_putNum_same ..),
        fun _ => ⟨rflag_raise _ _ _ (by decide), frame_raise _ _ (by simp) (frame_putNum _ _ (by simp) (frame_refl ..))⟩, nofun⟩
    | false =>
      rw [dataPhase_aligned hon hen hup hpad]
      exact ⟨(reg_capture ..).trans (linkStatus_phaseEntered ..), nofun,
        fun _ => ⟨(rflag_congr (reg_capture ..)).trans (rflag_setBit_same _ (by decide) ..),
          (cap_capture ..).trans (capWith_congr (encState_phaseEntered ..) rfl _),
          frame_encs_aside (frame_phaseEntered ..) (capture_eq ..)⟩⟩
  case received =>
    refine ⟨multiblock p now xs bad s.chip, done_eq .., ?_⟩
    rw [multiblock_up hup]
    refine ⟨(cap_capture ..).trans (capWith_congr (encState_crcNoted ..) (encs_crcNoted ..) _), fun hbad => ?_,
      frame_encs_aside (frame_crcNoted ..) (capture_eq ..)⟩
    rw [hbad]
    obtain ⟨hcount, hraised⟩ := crcNoted_counts p s.chip
    exact ⟨advanced_congr hcount (reg_capture ..), (rflag_congr (reg_capture ..)).trans hraised⟩
  case ignored => exact (done_eq ..).trans (by rw [multiblock_down hup])
  case lost =>
    obtain ⟨hcount, hraised⟩ := laneLoss_counts lane now hup
    exact ⟨laneLoss p lane now s.chip, done_eq .., linkStatus_laneLoss lane now hup (by simp), linkStatus_laneLoss lane now hup (by simp),
      linkStatus_laneLoss lane now hup (by simp), status_laneLoss lane now hup, hcount, hraised, cap_laneLoss lane now hup,
      frame_laneLoss lane now hup⟩
  case edge =>
    refine ⟨portSysref p aligned s.chip, done_eq .., fun hup hal => ?_, portSysref_silent⟩
    rw [hal, portSysref_misaligned hup]
    exact ⟨rflag_raise _ _ _ (by decide), frame_raise _ _ (by simp) (frame_refl ..)⟩

end Sys2Proof.Machine
end

section
/-!
PROOFS. ENCODER_INJECT, INJ_DEADLINE and ENCODER_REPLAY (R209, R210, R211, R354): an encoder's flits enter the mesh.
-/

namespace Sys2Proof.Machine

open Sys2Proof.Safety

/-! ### Frames with the encoders set aside -/

section
variable {as ts : List Nat} {c d : Chip} (h : Frame as ts c { d with encs := c.encs })
include h

theorem frame_encs_modEnc (p : Nat) (f : Enc → Enc) : Frame as ts c { modEnc p f d with encs := c.encs } := h

theorem frame_encs_setReg (a : Nat) (v : Word) (ha : a ∈ as) : Frame as ts c { setReg a v d with encs := c.encs } := frame_setReg a v ha h

end

/-- The same with the wires set aside too. -/
theorem frame_encs_wires_setReg {as ts : List Nat} {c d : Chip} (h : Frame as ts c { d with encs := c.encs, wires := c.wires }) (a : Nat)
    (v : Word) (ha : a ∈ as) : Frame as ts c { setReg a v d with encs := c.encs, wires := c.wires } := frame_setReg a v ha h

/-! ### Injection (R209) -/

theorem takeFirst_head {α : Type} {f : α → Bool} {x : α} (h : f x = true) (xs : List α) : takeFirst f (x :: xs) = some (x, xs) :=
  if_pos h

/-- The tile of tap `k` of port `p`. -/
def injectTile (p k : Nat) : Nat := tapTile ((portTaps p).getD k 0)

/-- Port `p` with `d` handed to the router at its tap `k`, its encoder then at `E'`. -/
def flitHanded (p k : Nat) (d : DWord) (E' : Enc) (c : Chip) : Chip :=
  putWire (injectTile p k) 5 (oneFlit 0 (atParity d (tbAt c (encTb c p)).parity)) (modEnc p (fun _ => E') c)

/-- The same, counted and timed. -/
def flitInjected (p k now : Nat) (d : DWord) (E' : Enc) (c : Chip) : Chip :=
  flitHanded p k d E' c
    |> count (Reg.ENC_EVENTS p) 1
    |> setFld (Reg.ENC_INJ_LAST p) 22 0 (min (now - (tbAt c (encTb c p)).tickAt) 0x7FFFFF)

section
variable {p k n : Nat} {c : Chip} {d : DWord} {rest : List (Nat × DWord)} (hgood : tapGood c ((portTaps p).getD k 0) = true)
  (hon : domOn c (fieldOf (injectTile p k)) = true) (hroom : inRoom c (injectTile p k) 5 0 = true) (htap : injectTap c p n = k)
include hgood hon hroom htap

theorem encoderInject_resends (h : (enc c p).resend = (n, d) :: rest) (now : Nat) :
    encoderInject p k now c = flitInjected p k now d { enc c p with resend := rest } c := by
  have hpick := takeFirst_head (f := fun f : Nat × DWord => injectTap c p f.1 == k) (x := (n, d)) (beq_iff_eq.2 htap) rest
  rw [injectTile] at hon hroom
  simp only [encoderInject, h, hpick, hgood, hon, hroom, Bool.and_self, if_true]
  rfl

theorem encoderInject_sendsLive (hr : (enc c p).resend = []) (h : (enc c p).live = (n, d) :: rest) (hasked : (enc c p).asked = [])
    (hreplay : (jobAt c (encJob c p)).replay = none) (now : Nat) :
    encoderInject p k now c = flitInjected p k now d { enc c p with live := rest } c := by
  have hpick := takeFirst_head (f := fun f : Nat × DWord => injectTap c p f.1 == k) (x := (n, d)) (beq_iff_eq.2 htap) rest
  rw [injectTile] at hon hroom
  simp only [encoderInject, hr, h, hasked, hreplay, takeFirst, hpick, hgood, hon, hroom, List.isEmpty_nil, Bool.not_true,
    Option.isSome_none, Bool.or_self, Bool.false_eq_true, if_false, Option.map_some, Bool.and_self, if_true]
  rfl

end

section
variable (p k now : Nat) (d : DWord) (E' : Enc) (c : Chip)

@[simp] theorem enc_flitInjected : enc (flitInjected p k now d E' c) p = E' := enc_modEnc_same p (fun _ => E') c

theorem events_flitInjected : Advanced (Reg.ENC_EVENTS p) 1 c (flitInjected p k now d E' c) :=
  advanced_of_count rfl (reg_setFld_ne (by unfold Reg.ENC_EVENTS Reg.ENC_INJ_LAST; omega) ..)

theorem wire_flitInjected : wire (flitInjected p k now d E' c) (injectTile p k) 5 0 =
    wire c (injectTile p k) 5 0 ++ [oneFlit 0 (atParity d (tbAt c (encTb c p)).parity)] :=
  wire_putWire_same (injectTile p k) 5 (oneFlit 0 (atParity d (tbAt c (encTb c p)).parity)) (modEnc p (fun _ => E') c)

/-- Apart from the encoder and the wires, an injection writes its two registers. -/
theorem frame_flitInjected :
    Frame [Reg.ENC_EVENTS p, Reg.ENC_INJ_LAST p] [] c { flitInjected p k now d E' c with encs := c.encs, wires := c.wires } := by
  have hsent : Frame [Reg.ENC_EVENTS p, Reg.ENC_INJ_LAST p] [] c { flitHanded p k d E' c with encs := c.encs, wires := c.wires } :=
    frame_refl ..
  exact frame_encs_wires_setReg (frame_encs_wires_setReg hsent _ _ (by simp)) _ _ (by simp)

end

/-! ### The deadline (R210) -/

theorem injLate_clean {p : Nat} {c : Chip} (h : encClean c p = true) : injLate p c = c := if_pos h

theorem injLate_left {p : Nat} {c : Chip} (h : encClean c p = false) : injLate p c = raise (Reg.ENC_FAULT p) 5 c := by
  simp [injLate, h]

/-! ### Replay of an interval (R211, R354) -/

/-- Port `p` with its oldest replay request acted on, those of `rest` left. -/
def requestTaken (p : Nat) (rest : List Nat) (c : Chip) : Chip := modEnc p (fun E => { E with asked := rest }) c

/-- Port `p` with the held interval `h` queued to be sent again. -/
def intervalQueued (p : Nat) (rest : List Nat) (h : HeldInterval) (c : Chip) : Chip :=
  requestTaken p rest c |> modEnc p (fun E => { E with resend := E.resend ++ h.flits })
    |> encTally p (tbAt c (encTb c p)).parity 0 (copiesOf h.flits)

/-- Port `p` without the interval of step `f`: the gap is raised and reported. -/
def intervalMissed (p f : Nat) (rest : List Nat) (c : Chip) : Chip :=
  requestTaken p rest c |> raise (Reg.ENC_FAULT p) 9 |> reportJob (encJob c p) f 8 0 0

section
variable {p f : Nat} {c : Chip} {rest : List Nat} (hasked : (enc c p).asked = f :: rest) (hstep : f = jobStep c (encJob c p))
  (hdue : (jobAt c (encJob c p)).resendDue = false)
include hasked hstep hdue

/-- A request for the step in progress is taken, then acted on by what is held. -/
theorem encoderReplay_ready : encoderReplay p c =
    match (enc c p).held.find? (fun h => h.step == f) with
    | some h => count (Reg.ENC_REPLAYS p) 1 (intervalQueued p rest h c)
    | none => intervalMissed p f rest c := by
  have hready : (f == jobStep c (encJob c p) && !(jobAt c (encJob c p)).resendDue) = true := by simp [← hstep, hdue]
  have hheld : (enc (requestTaken p rest c) p).held = (enc c p).held := by rw [requestTaken, enc_modEnc_same]
  rw [← hheld]
  simp only [encoderReplay, hasked, hready, when_, if_true, Bool.not_true, Bool.false_eq_true, if_false]
  rfl

theorem encoderReplay_held {h : HeldInterval} (hfind : (enc c p).held.find? (fun h => h.step == f) = some h) :
    encoderReplay p c = count (Reg.ENC_REPLAYS p) 1 (intervalQueued p rest h c) := by rw [encoderReplay_ready hasked hstep hdue, hfind]

theorem encoderReplay_gone (hfind : (enc c p).held.find? (fun h => h.step == f) = none) :
    encoderReplay p c = intervalMissed p f rest c := by rw [encoderReplay_ready hasked hstep hdue, hfind]

end

@[simp] theorem enc_count (a n : Nat) (c : Chip) (p : Nat) : enc (count a n c) p = enc c p := rfl

section
variable (p : Nat) (rest : List Nat) (h : HeldInterval) (c : Chip)

theorem enc_intervalQueued :
    (enc (intervalQueued p rest h c) p).asked = rest ∧ (enc (intervalQueued p rest h c) p).resend = (enc c p).resend ++ h.flits := by
  simp [intervalQueued, requestTaken, encTally]

theorem reg_intervalQueued (a : Nat) : reg (intervalQueued p rest h c) a = reg c a := by
  rw [intervalQueued, encTally, requestTaken, reg_modEnc, reg_modEnc, reg_modEnc]

/-- Apart from the encoder, an interval that is queued again is counted in ENC_REPLAYS. -/
theorem frame_count_intervalQueued :
    Frame [Reg.ENC_REPLAYS p] [] c { count (Reg.ENC_REPLAYS p) 1 (intervalQueued p rest h c) with encs := c.encs } :=
  frame_encs_setReg (frame_encs_modEnc (frame_encs_modEnc (frame_encs_modEnc (frame_refl ..) _ _) _ _) _ _) _ _ (by simp)

end

theorem asked_intervalMissed (p f : Nat) (rest : List Nat) (c : Chip) : (enc (intervalMissed p f rest c) p).asked = rest := by
  have h := enc_modEnc_same p (fun E => { E with asked := rest }) c
  exact congrArg Enc.asked h

theorem frame_intervalMissed (p f : Nat) (rest : List Nat) (c : Chip) :
    Frame [Reg.ENC_FAULT p] [] c { intervalMissed p f rest c with encs := c.encs, reports := c.reports } :=
  frameButReports_of_frame (frame_encs_setReg (frame_encs_modEnc (frame_refl ..) _ _) _ _ (by simp))

/-! ### The obligation -/

/-- Settles O33: an injection by the queue that its flit heads, the deadline by what is left, a replay by what is held. -/
theorem encoderInjection : Obligations.EncoderInjection := by
  intro p s
  refine ⟨fun k now n d rest hgood hon hroom htap hqueue => ?inject, ?deadline, fun f rest hasked hstep hdue => ?replay⟩
  case inject =>
    obtain hr | ⟨hr, hlive, hasked, hreplay⟩ := hqueue
    · refine ⟨_, (done_eq ..).trans (by rw [encoderInject_resends hgood hon hroom htap hr]), events_flitInjected .., wire_flitInjected ..,
        fun _ => ?_, fun h => ?_, frame_flitInjected ..⟩
      · rw [enc_flitInjected]
        exact ⟨rfl, rfl⟩
      · rw [hr] at h
        nomatch h
    · refine ⟨_, (done_eq ..).trans (by rw [encoderInject_sendsLive hgood hon hroom htap hr hlive hasked hreplay]),
        events_flitInjected .., wire_flitInjected .., fun h => absurd hr h, fun _ => ?_, frame_flitInjected ..⟩
      rw [enc_flitInjected]
      exact ⟨hr, rfl⟩
  case deadline =>
    refine ⟨injLate p s.chip, done_eq .., injLate_clean, fun hleft => ?_⟩
    rw [injLate_left hleft]
    exact ⟨rflag_raise _ _ _ (by decide), frame_raise _ _ (by simp) (frame_refl ..)⟩
  case replay =>
    refine ⟨encoderReplay p s.chip, done_eq .., ?_⟩
    cases hfind : (enc s.chip p).held.find? (fun h => h.step == f) with
    | some h =>
      rw [encoderReplay_held hasked hstep hdue hfind]
      obtain ⟨hleft, hsent⟩ := enc_intervalQueued p rest h s.chip
      refine ⟨hleft, fun h' hh => ?_, nofun⟩
      cases hh
      exact ⟨hsent, advanced_of_count (reg_intervalQueued ..) rfl, frame_count_intervalQueued ..⟩
    | none =>
      rw [encoderReplay_gone hasked hstep hdue hfind]
      exact ⟨asked_intervalMissed .., nofun, fun _ => ⟨rflag_raise _ _ _ (by decide), rfl, frame_intervalMissed ..⟩⟩

end Sys2Proof.Machine
end

section
/-!
PROOFS. RESULT_MESSAGE and RESULT_RELEASE (R216 to R218, R287, R349, R361): a decoder's output becomes a waiting record, and a record
that may go is handed to its ring.
-/

namespace Sys2Proof.Machine

open Sys2Proof.Safety

@[simp] theorem streamAt_modStream_same (p : Nat) (f : Stream → Stream) (c : Chip) : streamAt (modStream p f c) p = f (streamAt c p) := by
  simp [streamAt, modStream]

@[simp] theorem reg_modStream (p : Nat) (f : Stream → Stream) (c : Chip) (a : Nat) : reg (modStream p f c) a = reg c a := rfl

/-! ### Frames with the streams set aside -/

section
variable {as ts : List Nat} {c d : Chip}

theorem frame_streams_modStream (p : Nat) (f : Stream → Stream) (h : Frame as ts c { d with streams := c.streams }) :
    Frame as ts c { modStream p f d with streams := c.streams } := h

theorem frame_streams_setReg (a : Nat) (v : Word) (ha : a ∈ as) (h : Frame as ts c { d with streams := c.streams }) :
    Frame as ts c { setReg a v d with streams := c.streams } := frame_setReg a v ha h

end

/-! ### Taking a message from a control tap -/

/-- `c'` is `c` but for what waits at the taps and the credits on their way. -/
def OnlyTaps (c c' : Chip) : Prop := c' = { c with tapIn := c'.tapIn, creditWires := c'.creditWires }

theorem onlyTaps_of_tapTake {k v : Nat} {c c1 : Chip} {h : Flit} {body : List Flit} (ht : tapTake k v c = some (h, body, c1)) :
    OnlyTaps c c1 := by
  unfold tapTake at ht
  split at ht
  · cases ht
    exact forAll_keeps (P := OnlyTaps c) _ (fun f _ d hd => by rw [OnlyTaps] at *; rw [hd]; rfl) _ rfl
  · cases ht

/-- Any other part of the chip reads the same after it. -/
theorem part_of_onlyTaps {β : Type} {c c' : Chip} (h : OnlyTaps c c') (g : Chip → β)
    (hg : ∀ xs ys, g { c with tapIn := xs, creditWires := ys } = g c) : g c' = g c := (congrArg g h).trans (hg ..)

section
variable {c c' : Chip} (h : OnlyTaps c c')
include h

theorem reg_of_onlyTaps (a : Nat) : reg c' a = reg c a := part_of_onlyTaps h (reg · a) (fun _ _ => rfl)

theorem portOn_of_onlyTaps (p : Nat) : portOn c' p = portOn c p := part_of_onlyTaps h (portOn · p) (fun _ _ => rfl)

theorem streamAt_of_onlyTaps (p : Nat) : streamAt c' p = streamAt c p := part_of_onlyTaps h (streamAt · p) (fun _ _ => rfl)

theorem tickNow_of_onlyTaps (k : Nat) : tickNow c' k = tickNow c k := part_of_onlyTaps h (tickNow · k) (fun _ _ => rfl)

theorem jobOfStream_of_onlyTaps (p : Nat) : jobAt c' (streamJob c' p) = jobAt c (streamJob c p) :=
  part_of_onlyTaps h (fun d => jobAt d (streamJob d p)) (fun _ _ => rfl)

end

/-! ### A result message (R217, R287, R361) -/

theorem ofBytes_take_one (bs : List Byte) (n : Nat) : ofBytes ((bs.drop n).take 1) = (bs.getD n 0#8).toNat := by
  induction bs generalizing n with
  | nil => simp [ofBytes]
  | cons b bs ih =>
    cases n with
    | zero => simp [ofBytes]
    | succ n => simpa using ih n

/-- The payload of a message. -/
def payloadOf (h : Flit) (body : List Flit) : List Byte := mPayload h.data (body.map (fun f => f.data))

theorem resultMessage_takes {k : Nat} {c c1 : Chip} {h : Flit} {body : List Flit} (ht : tapTake (48 + k) 2 c = some (h, body, c1))
    (hr : mResult h.data = true) : resultMessage k c = takeResult h body c1 := by simp [resultMessage, ht, hr]

section
variable {c : Chip} {h : Flit} {body : List Flit} {p : Nat} (hp : mChannel h.data = p) (hlt : p < 16)
  (hpoison : anyPoison h body = false) (hwf : wellFormed h.data = true) (hon : portOn c p = true)
include hp hlt hpoison hwf hon

theorem takeResult_discards (hoff : flag (reg c (Reg.DEC_S_CFG p)) 31 = false) :
    takeResult h body c = count (Reg.DEC_S_DISCARD p) 1 c := by
  subst hp
  simp [takeResult, Nat.not_le.2 hlt, hpoison, hwf, hon, hoff]

theorem takeResult_accepts (hcfg : flag (reg c (Reg.DEC_S_CFG p)) 31 = true) (hsrc : fSrc h.data = fld (reg c (Reg.DEC_S_CFG p)) 12 0)
    (hlen : 16 ≤ mLen h.data) (hstream : ((payloadOf h body).getD 3 0#8).toNat % 16 = p) :
    takeResult h body c = if (jobAt c (streamJob c p)).restarting then c else modStream p (fun S => { S with
      waiting := S.waiting ++ [recordOf (tickNow c (jobAt c (streamJob c p)).tb) (payloadOf h body)] }) c := by
  subst hp
  rw [payloadOf, ← ofBytes_take_one] at hstream
  simp only [takeResult, Nat.not_le.2 hlt, hpoison, hwf, hon, hcfg, hsrc, Nat.not_lt.2 hlen, hstream, payloadOf, decide_false, Bool.or_self,
    Bool.not_true, bne_self_eq_false, Bool.false_eq_true, if_false]

end

/-- What waits after an accepted output, and that no register moves. -/
theorem acceptedOutput_waits (p : Nat) (restarting : Bool) (r : Record) (c : Chip) :
    let c' := if restarting then c else modStream p (fun S => { S with waiting := S.waiting ++ [r] }) c
    (∀ a, reg c' a = reg c a) ∧ (streamAt c' p).waiting = (streamAt c p).waiting ++ if restarting then [] else [r] := by
  cases restarting with
  | true => simp
  | false => simp

/-! ### A record released (R217, R349) -/

/-- The flags with which stream `p` releases `r`. -/
def releaseFlags (p : Nat) (r : Record) (c : Chip) : Nat :=
  recordFlags c p r + if earlyMode c (streamJob c p) then 2 else b2n (chkOn c (streamJob c p) && allConfirmed c (streamJob c p) r)

/-- Stream `p` whose oldest waiting record `r` has been taken, with `rest` left. -/
def recordTaken (p : Nat) (r : Record) (rest : List Record) (c : Chip) : Chip :=
  modStream p (fun S => { S with
    waiting := rest, gapNext := false
    early := if earlyMode c (streamJob c p) then S.early ++ [(r.step, r.wlen)] else S.early }) c

theorem streamAt_recordTaken (p : Nat) (r : Record) (rest : List Record) (c : Chip) : streamAt (recordTaken p r rest c) p =
    { streamAt c p with
      waiting := rest, gapNext := false
      early := if earlyMode c (streamJob c p) then (streamAt c p).early ++ [(r.step, r.wlen)] else (streamAt c p).early } :=
  streamAt_modStream_same ..

/-- Stream `p` that has given its next sequence number to `r` and handed the record to its ring. -/
def recordHanded (p fl : Nat) (r : Record) (c : Chip) : Chip :=
  let seq := rfld c (Reg.DEC_S_STATUS p) 7 0
  c |> setFld (Reg.DEC_S_STATUS p) 7 0 (if seq = 255 then 1 else seq + 1)
    |> modStream p (fun S => { S with out := S.out ++ [recordBytes p (streamJob c p) seq fl r] })

section
variable {p : Nat} {c : Chip} {r : Record}

theorem resultRelease_releases {rest : List Record} (hw : (streamAt c p).waiting = r :: rest)
    (hgo : (earlyMode c (streamJob c p) || releasable c (streamJob c p) r) = true) :
    resultRelease p c = emitRecord p (releaseFlags p r c) r (recordTaken p r rest c) := by
  simp only [resultRelease, hw, hgo, if_true]
  rfl

theorem emitRecord_hands (fl : Nat) (hdrop : (streamAt c p).dropping = false) (hroom : (streamAt c p).out.length < 64) :
    emitRecord p fl r c = recordHanded p fl r c := by
  have hstream (n : Nat) : streamAt (setFld (Reg.DEC_S_STATUS p) 7 0 n c) p = streamAt c p := rfl
  simp only [emitRecord, hstream, hdrop, hroom, Bool.false_eq_true, if_false, if_true]
  rfl

theorem releaseFlags_early (h : earlyMode c (streamJob c p) = true) : bits (releaseFlags p r c) 2 0 = 2 := by
  rw [releaseFlags, if_pos h, recordFlags, bits]
  omega

end

section
variable (p fl : Nat) (r : Record) (c : Chip)

theorem streamAt_recordHanded : streamAt (recordHanded p fl r c) p = { streamAt c p with
    out := (streamAt c p).out ++ [recordBytes p (streamJob c p) (rfld c (Reg.DEC_S_STATUS p) 7 0) fl r] } :=
  streamAt_modStream_same ..

/-- 255 is followed by 1 (R217). -/
theorem seq_recordHanded : rfld (recordHanded p fl r c) (Reg.DEC_S_STATUS p) 7 0 =
    if rfld c (Reg.DEC_S_STATUS p) 7 0 = 255 then 1 else rfld c (Reg.DEC_S_STATUS p) 7 0 + 1 := by
  have hseq : rfld c (Reg.DEC_S_STATUS p) 7 0 < 256 := Nat.mod_lt _ (by decide)
  rw [recordHanded, rfld_congr (reg_modStream ..), rfld_setFld _ _ _ _ _ (by decide) (by decide)]
  split <;> omega

/-- Apart from the stream, a release writes DEC_S_p_STATUS. -/
theorem frame_recordReleased (rest : List Record) :
    Frame [Reg.DEC_S_STATUS p] [] c { recordHanded p fl r (recordTaken p r rest c) with streams := c.streams } :=
  frame_streams_modStream _ _ (frame_streams_setReg _ _ (by simp) (frame_streams_modStream _ _ (frame_refl ..)))

end

end Sys2Proof.Machine
end

section
/-!
PROOFS. RESULT_RING_WRITE, RR_RPTR_WRITE and RESULT_RING_ENABLE (R489 to R491): released records enter their ring; and what of the
results reaches the host.
-/

namespace Sys2Proof.Machine

open Sys2Proof.Safety

/-! ### A record noted (Table 7.14) -/

/-- The registers that a record written to the ring may change, DEC_S_RECORDS aside. -/
def noteRegs (p : Nat) : List Nat := Reg.DEC_S_RETRACTS p :: Reg.DEC_S_GAP p :: (List.range 8).map (Reg.DEC_S_LAST p)

theorem records_lt_of_mem_noteRegs {p a : Nat} (h : a ∈ noteRegs p) : Reg.DEC_S_RECORDS p < a := by
  simp only [noteRegs, List.mem_cons, List.mem_map, List.mem_range] at h
  obtain rfl | rfl | ⟨w, -, rfl⟩ := h
  · unfold Reg.DEC_S_RECORDS Reg.DEC_S_RETRACTS; omega
  · unfold Reg.DEC_S_RECORDS Reg.DEC_S_GAP; omega
  · unfold Reg.DEC_S_RECORDS Reg.DEC_S_LAST; omega

section
variable (p : Nat) (bs : List Byte) (c : Chip)

theorem frame_noteRecord : Frame (noteRegs p) [] (count (Reg.DEC_S_RECORDS p) 1 c) (noteRecord p bs c) := by
  have hlast (w : Nat) (hw : w ∈ List.range 8) : Reg.DEC_S_LAST p w ∈ noteRegs p := by
    simp only [noteRegs, List.mem_cons]
    exact .inr (.inr (List.mem_map_of_mem hw))
  have hretracts := frame_when (bit (ofBytes ((bs.drop 24).take 4)) 2) (count (Reg.DEC_S_RETRACTS p) 1)
    (frame_refl (noteRegs p) [] (count (Reg.DEC_S_RECORDS p) 1 c)) (frame_count _ _ (by simp [noteRegs]) (frame_refl ..))
  have hgap := frame_when (bit (ofBytes ((bs.drop 24).take 4)) 5) (count (Reg.DEC_S_GAP p) 1) hretracts
    (frame_count _ _ (by simp [noteRegs]) hretracts)
  exact frame_forAll _ (fun w hw _ => frame_putNum _ _ (hlast w hw)) hgap

theorem records_noteRecord : Advanced (Reg.DEC_S_RECORDS p) 1 c (noteRecord p bs c) :=
  advanced_of_count rfl ((frame_noteRecord p bs c).1 _ (fun h => Nat.lt_irrefl _ (records_lt_of_mem_noteRegs h)))

theorem reg_noteRecord {a : Nat} (h : a < Reg.DEC_S_RECORDS p) : reg (noteRecord p bs c) a = reg c a :=
  ((frame_noteRecord p bs c).1 a (fun ha => Nat.lt_asymm h (records_lt_of_mem_noteRegs ha))).trans (reg_count_ne (Nat.ne_of_lt h) ..)

theorem noteRecord_streams : (noteRecord p bs c).streams = c.streams := (congrArg Chip.streams (frame_noteRecord p bs c).2.2 :)

theorem noteRecord_host : (noteRecord p bs c).host = c.host := (congrArg Chip.host (frame_noteRecord p bs c).2.2 :)

end

/-- The registers of a ring lie below those of the decoder streams. -/
theorem ringRegs_lt (p : Nat) : Reg.HIF_RR_CFG p < Reg.DEC_S_RECORDS p ∧ Reg.HIF_RR_WPTR p < Reg.DEC_S_RECORDS p ∧
    Reg.HIF_RR_DROP p < Reg.DEC_S_RECORDS p ∧ Reg.HIF_RR_WB_HI p < Reg.DEC_S_RECORDS p ∧ Reg.HIF_RR_WB_LO p < Reg.DEC_S_RECORDS p := by
  unfold Reg.HIF_RR_CFG Reg.HIF_RR_WPTR Reg.HIF_RR_DROP Reg.HIF_RR_WB_HI Reg.HIF_RR_WB_LO Reg.DEC_S_RECORDS
  omega

theorem HIF_RR_CFG_ne_HIF_RR_WPTR (p : Nat) : Reg.HIF_RR_CFG p ≠ Reg.HIF_RR_WPTR p := by unfold Reg.HIF_RR_CFG Reg.HIF_RR_WPTR; omega
theorem HIF_RR_CFG_ne_HIF_RR_RPTR (p : Nat) : Reg.HIF_RR_CFG p ≠ Reg.HIF_RR_RPTR p := by unfold Reg.HIF_RR_CFG Reg.HIF_RR_RPTR; omega
theorem HIF_RR_WPTR_ne_HIF_RR_RPTR (p : Nat) : Reg.HIF_RR_WPTR p ≠ Reg.HIF_RR_RPTR p := by unfold Reg.HIF_RR_WPTR Reg.HIF_RR_RPTR; omega

/-! ### The write-back (R490) -/

/-- Where the write-back of ring `p` goes. -/
def writeBackAddr (p : Nat) (c : Chip) : Nat := (reg c (Reg.HIF_RR_WB_HI p)).toNat * 2 ^ 32 + rfld c (Reg.HIF_RR_WB_LO p) 31 3 * 8

/-- What the write-back of ring `p` says. -/
def writeBackBytes (p : Nat) (c : Chip) : List Byte :=
  toBytes 4 (reg c (Reg.HIF_RR_WPTR p)).toNat ++ toBytes 4 (reg c (Reg.HIF_RR_DROP p)).toNat

section
variable (p : Nat) (c : Chip)

@[simp] theorem reg_hostWrite (a : Nat) (bs : List Byte) (k : Nat) : reg (hostWrite a bs c) k = reg c k := rfl

/-- The write-back, and its message where one is due. -/
theorem writeBack_cases : writeBack p c = hostWrite (writeBackAddr p c) (writeBackBytes p c) c ∨
    rfld c (Reg.HIF_RR_CFG p) 15 0 ≠ 0 ∧ ∃ v, writeBack p c =
      msixRequest v (modStream p (fun S => { S with notified := true }) (hostWrite (writeBackAddr p c) (writeBackBytes p c) c)) := by
  unfold writeBack
  dsimp only
  split
  · next h => exact .inr ⟨h.1, _, rfl⟩
  · exact .inl rfl

theorem reg_writeBack (a : Nat) : reg (writeBack p c) a = reg c a := by
  obtain h | ⟨-, v, h⟩ := writeBack_cases p c
  · rw [h, reg_hostWrite]
  · rw [h, reg_of_onlyHost (onlyHost_msixRequest ..), reg_modStream, reg_hostWrite]

theorem out_writeBack : (streamAt (writeBack p c) p).out = (streamAt c p).out := by
  obtain h | ⟨-, v, h⟩ := writeBack_cases p c
  · rw [h]; rfl
  · have hstreams (d : Chip) : streamAt (msixRequest v d) p = streamAt d p := by rw [onlyHost_msixRequest v d]; rfl
    rw [h, hstreams, streamAt_modStream_same]
    rfl

/-- With no threshold set, the write-back brings no message. -/
theorem mem_writeBack (hth : rfld c (Reg.HIF_RR_CFG p) 15 0 = 0) :
    (writeBack p c).host.mem = hostPut (writeBackAddr p c) (writeBackBytes p c) c.host.mem := by
  obtain h | ⟨hne, -⟩ := writeBack_cases p c
  · rw [h]; rfl
  · exact absurd hth hne

end

/-! ### A record enters its ring (R489) -/

/-- The slot of ring `p` that WPTR names. -/
def ringSlot (p : Nat) (c : Chip) : Nat :=
  (reg c (Reg.HIF_RR_BASE_HI p)).toNat * 2 ^ 32 + rfld c (Reg.HIF_RR_BASE_LO p) 31 6 * 64 +
    32 * ((reg c (Reg.HIF_RR_WPTR p)).toNat % rrSize c p)

/-- WPTR of ring `p` past one more record. -/
def nextWptr (p : Nat) (c : Chip) : Nat := ((reg c (Reg.HIF_RR_WPTR p)).toNat + 1) % (2 * rrSize c p)

/-- Ring `p` with `bs` in its slot and the pointer moved on; `rest` is left to be written. -/
def slotFilled (p : Nat) (bs : List Byte) (rest : List (List Byte)) (c : Chip) : Chip :=
  c |> modStream p (fun S => { S with out := rest }) |> hostWrite (ringSlot p c) bs |> putNum (Reg.HIF_RR_WPTR p) (nextWptr p c)

/-- Ring `p` with that record counted too, before the write-back. -/
def recordNoted (p : Nat) (bs : List Byte) (rest : List (List Byte)) (c : Chip) : Chip := noteRecord p bs (slotFilled p bs rest c)

theorem nextWptr_lt (p : Nat) (c : Chip) : nextWptr p c < 2 ^ 32 := by
  have hsize : rrSize c p ≤ 2 ^ 16 := Nat.pow_le_pow_right (by decide) (Nat.min_le_left ..)
  have hpos : 0 < rrSize c p := Nat.two_pow_pos _
  have hmod : nextWptr p c < 2 * rrSize c p := Nat.mod_lt _ (by omega)
  omega

section
variable {p : Nat} {bs : List Byte} {rest : List (List Byte)} {c : Chip}

theorem ringWrite_enters (hout : (streamAt c p).out = bs :: rest) (hen : rflag c (Reg.HIF_RR_CFG p) 31 = true)
    (hhost : hostReached c = true) (hroom : rrUsed c p < rrSize c p) :
    ringWrite p c = writeBack p (recordNoted p bs rest c) := by
  simp only [ringWrite, hout, hen, hhost, hroom, decide_true, Bool.and_self, if_true]
  rfl

end

section
variable (p : Nat) (bs : List Byte) (rest : List (List Byte)) (c : Chip)

theorem reg_slotFilled_ne {a : Nat} (h : a ≠ Reg.HIF_RR_WPTR p) : reg (slotFilled p bs rest c) a = reg c a := reg_putNum_ne h ..

theorem wptr_recordNoted : reg (recordNoted p bs rest c) (Reg.HIF_RR_WPTR p) = BitVec.ofNat 32 (nextWptr p c) := by
  obtain ⟨-, hwptr, -⟩ := ringRegs_lt p
  exact (reg_noteRecord _ _ _ hwptr).trans (reg_putNum_same ..)

theorem reg_recordNoted {a : Nat} (h : a < Reg.DEC_S_RECORDS p) (hw : a ≠ Reg.HIF_RR_WPTR p) :
    reg (recordNoted p bs rest c) a = reg c a := (reg_noteRecord _ _ _ h).trans (reg_slotFilled_ne _ _ _ _ hw)

theorem records_recordNoted : Advanced (Reg.DEC_S_RECORDS p) 1 c (recordNoted p bs rest c) := by
  obtain ⟨-, hwptr, -⟩ := ringRegs_lt p
  have h := records_noteRecord p bs (slotFilled p bs rest c)
  rwa [Advanced, reg_slotFilled_ne _ _ _ _ (Nat.ne_of_gt hwptr)] at h

theorem out_recordNoted : (streamAt (recordNoted p bs rest c) p).out = rest := by
  rw [streamAt, recordNoted, noteRecord_streams]
  exact congrArg Stream.out (streamAt_modStream_same p (fun S => { S with out := rest }) c)

theorem writeBackAddr_recordNoted : writeBackAddr p (recordNoted p bs rest c) = writeBackAddr p c := by
  obtain ⟨-, -, -, hhi, hlo⟩ := ringRegs_lt p
  rw [writeBackAddr, writeBackAddr, reg_recordNoted _ _ _ _ hhi (by unfold Reg.HIF_RR_WB_HI Reg.HIF_RR_WPTR; omega),
    rfld_congr (reg_recordNoted _ _ _ _ hlo (by unfold Reg.HIF_RR_WB_LO Reg.HIF_RR_WPTR; omega))]

theorem writeBackBytes_recordNoted : writeBackBytes p (recordNoted p bs rest c) =
    toBytes 4 (nextWptr p c) ++ toBytes 4 (reg c (Reg.HIF_RR_DROP p)).toNat := by
  obtain ⟨-, -, hdrop, -⟩ := ringRegs_lt p
  rw [writeBackBytes, wptr_recordNoted, BitVec.toNat_ofNat, Nat.mod_eq_of_lt (nextWptr_lt p c),
    reg_recordNoted _ _ _ _ hdrop (by unfold Reg.HIF_RR_DROP Reg.HIF_RR_WPTR; omega)]

/-- With no threshold set, host memory holds the record and the write-back, and is otherwise as it was. -/
theorem mem_writeBack_recordNoted (hth : rfld c (Reg.HIF_RR_CFG p) 15 0 = 0) :
    (writeBack p (recordNoted p bs rest c)).host.mem = hostPut (writeBackAddr p c)
      (toBytes 4 (nextWptr p c) ++ toBytes 4 (reg c (Reg.HIF_RR_DROP p)).toNat) (hostPut (ringSlot p c) bs c.host.mem) := by
  obtain ⟨hlt, -⟩ := ringRegs_lt p
  have hcfg : rfld (recordNoted p bs rest c) (Reg.HIF_RR_CFG p) 15 0 = rfld c (Reg.HIF_RR_CFG p) 15 0 :=
    rfld_congr (reg_recordNoted _ _ _ _ hlt (HIF_RR_CFG_ne_HIF_RR_WPTR p))
  rw [mem_writeBack _ _ (hcfg.trans hth), writeBackAddr_recordNoted, writeBackBytes_recordNoted, recordNoted, noteRecord_host]
  rfl

end

/-! ### The host's pointer (R489, R490) -/

/-- The records that ring `p` would hold with RPTR at `r`. -/
def heldFrom (p r : Nat) (c : Chip) : Nat := ((reg c (Reg.HIF_RR_WPTR p)).toNat + 2 * rrSize c p - r) % (2 * rrSize c p)

section
variable {p : Nat} {v : Word} {c : Chip}

theorem rptrHost_legal (h : heldFrom p (fld v 16 0 % (2 * rrSize c p)) c ≤ rrUsed c p) :
    rptrHost p v c = modStream p (fun S => { S with notified := false })
      (putNum (Reg.HIF_RR_RPTR p) (fld v 16 0 % (2 * rrSize c p)) c) := if_neg (Nat.not_lt.2 h)

theorem rptrHost_refused (h : rrUsed c p < heldFrom p (fld v 16 0 % (2 * rrSize c p)) c) :
    rptrHost p v c = raise Reg.HIF_FAULT 2 c := if_pos h

end

/-! ### The ring's configuration (R489, Table 18.9) -/

/-- Ring `p` empty, with nothing dropped and no message out. -/
def ringCleared (p : Nat) (c : Chip) : Chip :=
  c |> putNum (Reg.HIF_RR_WPTR p) 0 |> putNum (Reg.HIF_RR_RPTR p) 0
    |> modStream p (fun S => { S with dropping := false, notified := false })

section
variable {p : Nat} {v : Word} {c : Chip}

theorem rrEnable_disabled (h : rflag c (Reg.HIF_RR_CFG p) 31 = false) :
    rrEnable p v c = when_ (flag v 31) (ringCleared p) (setReg (Reg.HIF_RR_CFG p) (v &&& 0xBF1FFFFF#32) c) := by
  rw [rflag] at h
  simp only [rrEnable, h, Bool.not_false, Bool.and_true, Bool.false_eq_true, if_false]
  rfl

theorem rrEnable_enabled (h : rflag c (Reg.HIF_RR_CFG p) 31 = true) : rrEnable p v c =
    setReg (Reg.HIF_RR_CFG p) (putFld v 20 16 (rfld c (Reg.HIF_RR_CFG p) 20 16) &&& 0xBF1FFFFF#32) c := by
  rw [rflag] at h
  simp only [rrEnable, h, Bool.not_true, Bool.and_false, if_true]
  rfl

end

section
variable (p : Nat) (b : Bool) (c : Chip)

theorem cfg_ringCleared : reg (when_ b (ringCleared p) c) (Reg.HIF_RR_CFG p) = reg c (Reg.HIF_RR_CFG p) := by
  cases b with
  | false => rfl
  | true =>
    rw [when_, if_pos rfl, ringCleared, reg_modStream, reg_putNum_ne (HIF_RR_CFG_ne_HIF_RR_RPTR p),
      reg_putNum_ne (HIF_RR_CFG_ne_HIF_RR_WPTR p)]

theorem pointers_ringCleared : reg (ringCleared p c) (Reg.HIF_RR_WPTR p) = 0#32 ∧ reg (ringCleared p c) (Reg.HIF_RR_RPTR p) = 0#32 := by
  rw [ringCleared, reg_modStream, reg_modStream, reg_putNum_ne (HIF_RR_WPTR_ne_HIF_RR_RPTR p)]
  exact ⟨reg_putNum_same .., reg_putNum_same ..⟩

end

section
variable {as ts : List Nat} {c d : Chip}

theorem frame_ringCleared (p : Nat) (b : Bool) (hw : Reg.HIF_RR_WPTR p ∈ as) (hr : Reg.HIF_RR_RPTR p ∈ as)
    (h : Frame as ts c { d with streams := c.streams }) : Frame as ts c { when_ b (ringCleared p) d with streams := c.streams } := by
  cases b with
  | false => exact h
  | true => exact frame_streams_setReg _ _ hr (frame_streams_setReg _ _ hw h)

end

/-- A mask that holds a bit keeps the bit. -/
theorem flag_and_of_one {m : Word} {i : Nat} (h : m.toNat.testBit i = true) (v : Word) : flag (v &&& m) i = flag v i := by
  rw [flag, flag, bit_eq_testBit, bit_eq_testBit, BitVec.toNat_and, Nat.testBit_land, h, Bool.and_true]

/-- At an enabled ring the size stays, and ENABLE is written. -/
theorem cfg_rewritten (v old : Word) : fld (putFld v 20 16 (fld old 20 16) &&& 0xBF1FFFFF#32) 20 16 = fld old 20 16 ∧
    flag (putFld v 20 16 (fld old 20 16) &&& 0xBF1FFFFF#32) 31 = flag v 31 := by
  constructor
  · rw [fld_and_of_ones (by decide), fld_putFld_same _ _ _ _ (by decide) (by decide)]
    exact Nat.mod_mod ..
  · rw [flag_and_of_one (by decide), flag_putFld_apart _ _ _ _ _ (by decide) (by decide) (by decide)]

/-! ### The obligation -/

/-- Settles O34: a message by what its stream accepts, a release by the record it takes, the ring by its slot and pointers. -/
theorem resultsReachTheHost : Obligations.ResultsReachTheHost := by
  refine ⟨fun k s h body c1 htake hres hlt hpoison hwf hon => ⟨fun hcfg hsrc hlen hstream => ?accepted, fun hoff => ?discarded⟩,
    fun p s r rest hw hgo hdrop hroom => ?released, fun p s bs rest hout hen hhost hroom => ?entered,
    fun p v s => ⟨fun hheld => ?pointer, fun hheld => ?refused, fun hoff => ?configured, fun hen => ?reconfigured⟩⟩
  case accepted =>
    have htaps := onlyTaps_of_tapTake htake
    rw [← reg_of_onlyTaps htaps] at hcfg hsrc
    refine ⟨resultMessage k s.chip, done_eq .., ?_⟩
    rw [resultMessage_takes htake hres,
      takeResult_accepts rfl hlt hpoison hwf ((portOn_of_onlyTaps htaps _).trans hon) hcfg hsrc hlen hstream]
    obtain ⟨hregs, hwaiting⟩ := acceptedOutput_waits (mChannel h.data) (jobAt c1 (streamJob c1 (mChannel h.data))).restarting
      (recordOf (tickNow c1 (jobAt c1 (streamJob c1 (mChannel h.data))).tb) (payloadOf h body)) c1
    refine ⟨fun a => (hregs a).trans (reg_of_onlyTaps htaps a), hwaiting.trans ?_⟩
    rw [streamAt_of_onlyTaps htaps, jobOfStream_of_onlyTaps htaps, tickNow_of_onlyTaps htaps]
    rfl
  case discarded =>
    have htaps := onlyTaps_of_tapTake htake
    rw [← reg_of_onlyTaps htaps] at hoff
    refine ⟨resultMessage k s.chip, done_eq .., ?_⟩
    rw [resultMessage_takes htake hres, takeResult_discards rfl hlt hpoison hwf ((portOn_of_onlyTaps htaps _).trans hon) hoff]
    exact ⟨congrArg Stream.waiting (streamAt_of_onlyTaps htaps _), advanced_of_count (reg_of_onlyTaps htaps _) rfl⟩
  case released =>
    have htaken := streamAt_recordTaken p r rest s.chip
    refine ⟨resultRelease p s.chip, releaseFlags p r s.chip, done_eq .., ?_⟩
    rw [resultRelease_releases hw hgo, emitRecord_hands _ (by rw [htaken]; exact hdrop) (by rw [htaken]; exact hroom)]
    refine ⟨?_, ?_, releaseFlags_early, seq_recordHanded .., frame_recordReleased ..⟩
    · rw [streamAt_recordHanded, htaken]
    · rw [streamAt_recordHanded, htaken]
      rfl
  case entered =>
    refine ⟨ringWrite p s.chip, done_eq .., ?_⟩
    rw [ringWrite_enters hout hen hhost hroom]
    exact ⟨(out_writeBack ..).trans (out_recordNoted ..), (reg_writeBack ..).trans (wptr_recordNoted ..),
      advanced_congr (records_recordNoted ..) (reg_writeBack ..), mem_writeBack_recordNoted _ _ _ _⟩
  case pointer =>
    refine ⟨rptrHost p v s.chip, done_eq .., ?_⟩
    rw [rptrHost_legal hheld]
    refine ⟨reg_putNum_same .., ?_, frame_putNum _ _ (by simp) (frame_refl ..)⟩
    rw [streamAt_modStream_same]
  case refused =>
    refine ⟨rptrHost p v s.chip, done_eq .., ?_⟩
    rw [rptrHost_refused hheld]
    exact ⟨rflag_raise _ _ _ (by decide), frame_raise _ _ (by simp) (frame_refl ..)⟩
  case configured =>
    refine ⟨rrEnable p v s.chip, done_eq .., ?_⟩
    rw [rrEnable_disabled hoff]
    refine ⟨(cfg_ringCleared ..).trans (reg_setReg_same ..), fun hv => ?_,
      frame_ringCleared _ _ (by simp) (by simp) (frame_setReg _ _ (by simp) (frame_refl ..))⟩
    rw [hv]
    exact pointers_ringCleared ..
  case reconfigured =>
    obtain ⟨hsize, henable⟩ := cfg_rewritten v (reg s.chip (Reg.HIF_RR_CFG p))
    refine ⟨rrEnable p v s.chip, done_eq .., ?_⟩
    rw [rrEnable_enabled hen, rfld, rflag, reg_setReg_same]
    exact ⟨hsize, henable, frame_setReg _ _ (by simp) (frame_refl ..)⟩

end Sys2Proof.Machine
end

section
/-!
PROOFS. LEARN_INCREMENT, FEEDBACK_EVENT and LABEL_PUSH (R223, R224, R227, R228, R230, R238), and what the learning unit sees past the
errors of a tile's reads (R91).
-/

namespace Sys2Proof.Machine

open Sys2Proof.Safety

/-! ### What the learning unit works from -/

/-- The registers of tile `t` that learning reads: its regions, LRN_CTRL, the configuration and the block descriptors. -/
def LearningReads (t a : Nat) : Prop :=
  (0x100000080070 + 0x100000 * t ≤ a ∧ a < 0x100000080090 + 0x100000 * t) ∨ a = Reg.LRN_CTRL t ∨
    (Reg.LRN_CFG t ≤ a ∧ a < Reg.LRN_LABEL_PUSH t) ∨ Reg.LRN_BLK_A t 0 ≤ a

/-- Memory and the registers that tile `t`'s learning reads are the same in `c'` as in `c`. -/
structure SameSources (t : Nat) (c c' : Chip) : Prop where
  regs : ∀ a, LearningReads t a → reg c' a = reg c a
  bytes : ∀ x, byteAt c' x = byteAt c x

theorem sameSources_trans {t : Nat} {c c' c'' : Chip} (h : SameSources t c c') (h' : SameSources t c' c'') : SameSources t c c'' :=
  ⟨fun a ha => (h'.regs a ha).trans (h.regs a ha), fun x => (h'.bytes x).trans (h.bytes x)⟩

theorem sameSources_of_frame {t : Nat} {ts : List Nat} {c c' : Chip} (h : FrameButReports (eccRegs t) ts c c') : SameSources t c c' := by
  refine ⟨fun a ha => reg_of_frameButReports h ?_, byteAt_past_errors h⟩
  unfold LearningReads Reg.LRN_CTRL Reg.LRN_CFG Reg.LRN_LABEL_PUSH Reg.LRN_BLK_A at ha
  rw [mem_eccRegs]; omega

theorem sameSources_count {t a : Nat} (ha : ¬ LearningReads t a) (n : Nat) (c : Chip) : SameSources t c (count a n c) :=
  ⟨fun b hb => reg_count_ne (by rintro rfl; exact ha hb) n c, fun x => by rw [count_eq, byteAt_setReg]⟩

section
variable {t : Nat} {c c' : Chip} (h : SameSources t c c')
include h

theorem regionBase_of_sameSources {n : Nat} (hn : n < 8) : regionBase c' t n = regionBase c t n := by
  rw [regionBase, regionBase, rfld_congr (h.regs _ (.inl (by unfold Reg.TILE_REGION; omega)))]

theorem lrnCfg_of_sameSources (hi lo : Nat) : rfld c' (Reg.LRN_CFG t) hi lo = rfld c (Reg.LRN_CFG t) hi lo :=
  rfld_congr (h.regs _ (.inr (.inr (.inl (by unfold Reg.LRN_CFG Reg.LRN_LABEL_PUSH; omega)))))

theorem lrnBlock_of_sameSources (n : Nat) : lrnBlock c' t n = lrnBlock c t n := by
  have hA := h.regs (Reg.LRN_BLK_A t n) (.inr (.inr (.inr (by unfold Reg.LRN_BLK_A; omega))))
  have hB := h.regs (Reg.LRN_BLK_B t n) (.inr (.inr (.inr (by unfold Reg.LRN_BLK_A Reg.LRN_BLK_B; omega))))
  have hC := h.regs (Reg.LRN_BLK_C t n) (.inr (.inr (.inr (by unfold Reg.LRN_BLK_A Reg.LRN_BLK_C; omega))))
  simp only [lrnBlock, rfld, hA, hB, hC]

theorem lrnBlocks_of_sameSources : lrnBlocks c' t = lrnBlocks c t := by
  simp only [lrnBlocks, funext (lrnBlock_of_sameSources h)]

theorem blockOf_of_sameSources (a : Nat) : blockOf c' t a = blockOf c t a := by rw [blockOf, blockOf, lrnBlocks_of_sameSources h]

theorem traceAddr_of_sameSources (a : Nat) : traceAddr c' t a = traceAddr c t a := by
  rw [traceAddr, traceAddr, regionBase_of_sameSources h (by decide)]

theorem deltaAddr_of_sameSources (i : Nat) : deltaAddr c' t i = deltaAddr c t i := by
  rw [deltaAddr, deltaAddr, regionBase_of_sameSources h (by decide)]

theorem deltaAt_of_sameSources (i : Nat) : deltaAt c' t i = deltaAt c t i := by
  rw [deltaAt, deltaAt, deltaAddr_of_sameSources h, numAt_congr h.bytes]

theorem feedbackTarget_of_sameSources (f : DWord) : feedbackTarget c' t f = feedbackTarget c t f := by
  have hpos := h.regs (Reg.LRN_FB_POS t) (.inr (.inr (.inl (by unfold Reg.LRN_CFG Reg.LRN_FB_POS Reg.LRN_LABEL_PUSH; omega))))
  have hneg := h.regs (Reg.LRN_FB_NEG t) (.inr (.inr (.inl (by unfold Reg.LRN_CFG Reg.LRN_FB_NEG Reg.LRN_LABEL_PUSH; omega))))
  unfold feedbackTarget rfld
  rw [hpos, hneg]

theorem learns_of_sameSources (hf : (tile c' t).lrn.frozen = (tile c t).lrn.frozen) : learns c' t = learns c t := by
  rw [learns, learns, hf, rflag_congr (h.regs _ (.inr (.inl rfl)))]

end

theorem skipping_past_errors {t : Nat} {ts : List Nat} {c c' : Chip} (h : FrameButReports (eccRegs t) ts c c') (ht : t < 8192)
    (hs : (tile c' t).lrn.skipTo = (tile c t).lrn.skipTo) : skipping c' t = skipping c t := by
  rw [skipping, skipping, hs, tileStep16, tileStep16, tileStep_past_errors h ht]

/-- The counters of the learning unit stand above the tile's error registers. -/
theorem lrnReg_past_errors {t a : Nat} {ts : List Nat} {c c' : Chip} (h : FrameButReports (eccRegs t) ts c c')
    (ha : Reg.LRN_CTRL t ≤ a) : reg c' a = reg c a := by
  unfold Reg.LRN_CTRL at ha
  refine reg_of_frameButReports h ?_
  rw [mem_eccRegs]; omega

/-! ### The learning unit's own state -/

@[simp] theorem tile_modLrn_same (t : Nat) (f : Lrn → Lrn) (c : Chip) :
    tile (modLrn t f c) t = { tile c t with lrn := f (tile c t).lrn } := tile_modTile_same ..

@[simp] theorem reg_noteWork (t : Nat) (c : Chip) (a : Nat) : reg (noteWork t c) a = reg c a := by rw [noteWork, modLrn, reg_modTile]

@[simp] theorem byteAt_noteWork (t : Nat) (c : Chip) (x : Nat) : byteAt (noteWork t c) x = byteAt c x := by
  rw [noteWork, modLrn, byteAt_modTile]

theorem frame_modLrn {as ts : List Nat} {c c' : Chip} (t : Nat) (f : Lrn → Lrn) (h : t ∈ ts) (hf : Frame as ts c c') :
    Frame as ts c (modLrn t f c') := frame_modTile _ _ h hf

theorem frame_noteWork {as ts : List Nat} {c c' : Chip} (t : Nat) (h : t ∈ ts) (hf : Frame as ts c c') : Frame as ts c (noteWork t c') :=
  frame_modLrn _ _ h hf

/-! ### Increments (R223, R224) -/

/-- The oldest increment taken off the queue, which leaves `rest`. -/
def incTaken (t : Nat) (rest : List (Nat × Nat × Nat)) (c : Chip) : Chip := modLrn t (fun L => { L with incs := rest }) c

theorem frame_incTaken (as : List Nat) (t : Nat) (rest : List (Nat × Nat × Nat)) (c : Chip) : Frame as [t] c (incTaken t rest c) :=
  frame_modLrn _ _ (by simp) (frame_refl ..)

theorem incs_incTaken (t : Nat) (rest : List (Nat × Nat × Nat)) (c : Chip) : (tile (incTaken t rest c) t).lrn.incs = rest := by
  rw [incTaken, tile_modLrn_same]

/-- The axon trace of entry `a` raised by an increment of value `x`. -/
def raisedTrace (c : Chip) (t a x : Nat) : Nat := min 255 ((byteAt c (traceAddr c t a)).toNat + x * rfld c (Reg.LRN_CFG t) 15 8)

/-- An increment of value `x` written into the axon trace of entry `a`. -/
def traceRaised (t a x : Nat) (c : Chip) : Chip :=
  c |> engineRead t (traceAddr c t a) 1 |> engineWrite (traceAddr c t a) [BitVec.ofNat 8 (raisedTrace c t a x)]

/-- An increment applied: written, counted and noted as work of the step. -/
def incApplied (t a x : Nat) (c : Chip) : Chip := c |> traceRaised t a x |> count (Reg.LRN_INCS t) 1 |> noteWork t

section
variable {t a x par : Nat} {rest : List (Nat × Nat × Nat)} {c : Chip} (hq : (tile c t).lrn.incs = (a, x, par) :: rest)
  (hm : (tile c t).lrn.mowLeft = none)
include hq hm

/-- What LEARN_INCREMENT does with the oldest increment while no mow is in progress. -/
theorem learnIncrement_takes : learnIncrement t c =
    if !learns (incTaken t rest c) t then incTaken t rest c
    else if skipping (incTaken t rest c) t then count (Reg.LRN_REPLAY_SKIP t) 1 (incTaken t rest c)
    else (blockOf (incTaken t rest c) t a).elim (incTaken t rest c) (fun _ => incApplied t a x (incTaken t rest c)) := by
  simp only [learnIncrement, hq, hm]
  cases hb : blockOf (incTaken t rest c) t a <;> (rw [incTaken] at hb; simp only [hb]; rfl)

theorem learnIncrement_off (hl : learns c t = false) : learnIncrement t c = incTaken t rest c := by
  have hsame := sameSources_of_frame (frameButReports_of_frame (frame_incTaken (eccRegs t) t rest c))
  rw [learnIncrement_takes hq hm, (learns_of_sameSources hsame (by simp [incTaken])).trans hl]
  rfl

theorem learnIncrement_applies {b : LrnBlock} (ht : t < 8192) (hl : learns c t = true) (hs : skipping c t = false)
    (hb : blockOf c t a = some b) : learnIncrement t c = incApplied t a x (incTaken t rest c) := by
  have hframe := frameButReports_of_frame (frame_incTaken (eccRegs t) t rest c)
  have hsame := sameSources_of_frame hframe
  rw [learnIncrement_takes hq hm, (learns_of_sameSources hsame (by simp [incTaken])).trans hl,
    (skipping_past_errors hframe ht (by simp [incTaken])).trans hs, (blockOf_of_sameSources hsame a).trans hb]
  rfl

end

section
variable (t a x : Nat) (c : Chip)

theorem byteAt_incApplied (p : Nat) : byteAt (incApplied t a x c) p = byteAt (traceRaised t a x c) p := by
  rw [incApplied, byteAt_noteWork, count_eq, byteAt_setReg]

theorem incs_incApplied : (tile (incApplied t a x c) t).lrn.incs = (tile c t).lrn.incs := by
  rw [incApplied, noteWork, tile_modLrn_same, tile_count, traceRaised, tile_engineWrite,
    tile_of_frameButReports (errorsNoted_engineRead t _ 1 c).1 (by simp)]

theorem reg_incApplied (k : Nat) : reg (incApplied t a x c) k = reg (count (Reg.LRN_INCS t) 1 (traceRaised t a x c)) k := by
  rw [incApplied, reg_noteWork]

end

/-- Between `c` and `c'` an increment of value `x` has raised the axon trace of entry `a` and nothing else of memory, and counts. -/
structure TraceRaised (t a x : Nat) (c c' : Chip) : Prop where
  trace : byteAt c' (traceAddr c t a) = BitVec.ofNat 8 (raisedTrace c t a x)
  rest : ∀ p, p ≠ traceAddr c t a → byteAt c' p = byteAt c p
  counted : Advanced (Reg.LRN_INCS t) 1 c c'

/-- An increment applied once its entry has left the queue, past the errors of its read. -/
theorem traceRaised_incApplied {t a x : Nat} {c d : Chip} (h : FrameButReports (eccRegs t) [t] c d) :
    TraceRaised t a x c (incApplied t a x d) := by
  have hread := (errorsNoted_engineRead t (traceAddr d t a) 1 d).1
  have hsame := sameSources_of_frame h
  have haddr := traceAddr_of_sameSources hsame a
  have hinc : Reg.LRN_CTRL t ≤ Reg.LRN_INCS t := by simp [Reg.LRN_CTRL, Reg.LRN_INCS]
  refine ⟨?_, fun p hp => ?_, advanced_of_count (d := traceRaised t a x d) ?_ (reg_incApplied ..)⟩
  · rw [byteAt_incApplied, traceRaised, byteAt_engineWrite, putBytes, putBytes, haddr, byteAt_putByte_same, raisedTrace, raisedTrace,
      haddr, hsame.bytes, lrnCfg_of_sameSources hsame]
  · rw [byteAt_incApplied, traceRaised, byteAt_engineWrite, putBytes, putBytes, byteAt_putByte_ne _ _ (by rwa [haddr]),
      byteAt_past_errors hread, hsame.bytes]
  · rw [traceRaised, reg_engineWrite, lrnReg_past_errors hread hinc, lrnReg_past_errors h hinc]

/-! ### Feedback events (R99, R227, R228) -/

/-- The event `f` taken off the queue by the synapse engine. -/
def eventTaken (t : Nat) (f : DWord) (c : Chip) : Chip :=
  c |> dequeue t f |> modTile t (fun T => { T with evq := { T.evq with lastKey := some (fAxon f) } })

/-- What a feedback event without a target neuron leaves. -/
def feedbackKeyless (t : Nat) (c : Chip) : Chip := c |> count (Reg.LRN_FB_NOKEY t) 1 |> raise (Reg.LRN_FAULT t) 1

/-- A feedback event of error `e` for target neuron `j` applied. -/
def feedbackApplied (t j : Nat) (e : Int) (c : Chip) : Chip := c |> count (Reg.LRN_FB_EVENTS t) 1 |> feedback t j e |> noteWork t

section
variable {t : Nat} {f : DWord} {c : Chip} (hspill : (tile c t).evq.spillLen = 0)
include hspill

theorem tile_eventTaken : tile (eventTaken t f c) t = takenUnits f (tile c t) := by
  simp only [eventTaken, dequeue_unspilled hspill, tile_modTile_same]
  rfl

theorem frame_eventTaken (as : List Nat) : Frame as [t] c (eventTaken t f c) := by
  rw [eventTaken, dequeue_unspilled hspill]
  exact frame_modTile _ _ (by simp) (frame_modTile _ _ (by simp) (frame_refl ..))

theorem sameSources_eventTaken : SameSources t c (eventTaken t f c) :=
  sameSources_of_frame (frameButReports_of_frame (frame_eventTaken hspill _))

theorem learns_eventTaken : learns (eventTaken t f c) t = learns c t :=
  learns_of_sameSources (sameSources_eventTaken hspill) (by rw [tile_eventTaken hspill]; rfl)

theorem skipping_eventTaken (ht : t < 8192) : skipping (eventTaken t f c) t = skipping c t :=
  skipping_past_errors (frameButReports_of_frame (frame_eventTaken hspill _)) ht (by rw [tile_eventTaken hspill]; rfl)

end

section
variable {t : Nat} {f : DWord} {c : Chip} (hfence : fenced c t = false) (hint : (tile c t).seq.integrate = true)
  (hf : (tile c t).syn.fetching = none) (hrun : (tile c t).syn.run = none) (hnext : nextEntry c t = some f) (hkind : fKind f = 6)
include hfence hint hf hrun hnext hkind

/-- What FEEDBACK_EVENT does with the event that the queue gives next. -/
theorem feedbackEvent_takes : feedbackEvent t c =
    if !learns (eventTaken t f c) t then eventTaken t f c
    else if skipping (eventTaken t f c) t then count (Reg.LRN_REPLAY_SKIP t) 1 (eventTaken t f c)
    else (feedbackTarget (eventTaken t f c) t f).elim (feedbackKeyless t (eventTaken t f c))
      (fun x => feedbackApplied t x.1 x.2 (eventTaken t f c)) := by
  simp only [feedbackEvent, hfence, hint, hf, hrun, hnext, hkind]
  cases hx : feedbackTarget (eventTaken t f c) t f <;> (rw [eventTaken] at hx; simp only [hx]; rfl)

variable (hspill : (tile c t).evq.spillLen = 0)
include hspill

theorem feedbackEvent_off (hl : learns c t = false) : feedbackEvent t c = eventTaken t f c := by
  rw [feedbackEvent_takes hfence hint hf hrun hnext hkind, learns_eventTaken hspill, hl]
  rfl

variable (ht : t < 8192) (hl : learns c t = true) (hs : skipping c t = false)
include ht hl hs

theorem feedbackEvent_keyless (htgt : feedbackTarget c t f = none) : feedbackEvent t c = feedbackKeyless t (eventTaken t f c) := by
  rw [feedbackEvent_takes hfence hint hf hrun hnext hkind, learns_eventTaken hspill, hl, skipping_eventTaken hspill ht, hs,
    feedbackTarget_of_sameSources (sameSources_eventTaken hspill), htgt]
  rfl

theorem feedbackEvent_reaches {j : Nat} {e : Int} (htgt : feedbackTarget c t f = some (j, e)) :
    feedbackEvent t c = feedbackApplied t j e (eventTaken t f c) := by
  rw [feedbackEvent_takes hfence hint hf hrun hnext hkind, learns_eventTaken hspill, hl, skipping_eventTaken hspill ht, hs,
    feedbackTarget_of_sameSources (sameSources_eventTaken hspill), htgt]
  rfl

end

/-! ### One row's delta (R228) -/

/-- R228's product under rule 0 for the row at entry `a` and the error `e`, before its shift. -/
def deltaProduct (c : Chip) (t a : Nat) (e : Int) : Int :=
  (rfld c (Reg.LRN_CFG t) 31 16 : Nat) * ((byteAt c (traceAddr c t a)).toNat : Int) * e * 256

/-- Delta `i` after the product `p` is added. -/
def deltaSum (c : Chip) (t i : Nat) (p : Int) : Nat := unsign 16 (satDelta (deltaAt c t i + shiftRound p (-28)))

/-- The sum read and written in delta `i`. -/
def deltaWritten (t i : Nat) (p : Int) (c : Chip) : Chip :=
  c |> engineRead t (deltaAddr c t i) 2 |> engineWrite (deltaAddr c t i) (toBytes 2 (deltaSum c t i p))

section
variable (t i : Nat) (p : Int) (c : Chip)

theorem addDelta_eq : addDelta t i p c = count (Reg.LRN_DELTA_ADDS t) 1 (deltaWritten t i p c) := rfl

theorem byteAt_addDelta (x : Nat) : byteAt (addDelta t i p c) x = byteAt (deltaWritten t i p c) x := by
  rw [addDelta_eq, count_eq, byteAt_setReg]

theorem numAt_addDelta : numAt (addDelta t i p c) (deltaAddr c t i) 2 = deltaSum c t i p := by
  rw [numAt_congr (byteAt_addDelta t i p c), deltaWritten, numAt_engineWrite]
  exact Nat.mod_eq_of_lt (unsign_lt 16 _)

theorem byteAt_addDelta_outside {x : Nat} (h : x < deltaAddr c t i ∨ deltaAddr c t i + 2 ≤ x) :
    byteAt (addDelta t i p c) x = byteAt c x := by
  rw [byteAt_addDelta, deltaWritten, byteAt_engineWrite, byteAt_putBytes_outside _ _ _ _ (by rwa [length_toBytes]),
    byteAt_past_errors (errorsNoted_engineRead t _ 2 c).1]

theorem reg_addDelta {a : Nat} (ha : Reg.LRN_CTRL t ≤ a) (hne : a ≠ Reg.LRN_DELTA_ADDS t) : reg (addDelta t i p c) a = reg c a := by
  rw [addDelta_eq, reg_count_ne hne, deltaWritten, reg_engineWrite, lrnReg_past_errors (errorsNoted_engineRead t _ 2 c).1 ha]

end

/-- A block of one row whose first target is `j`. -/
theorem feedbackBlock_single {t j : Nat} {e : Int} {b : LrnBlock} {c : Chip} (hrows : b.rows = 1) (htgt : b.tgt = j) (hlen : 0 < b.len) :
    feedbackBlock t j e 256 b c = addDelta t b.dbase (deltaProduct c t b.first e) (engineRead t (traceAddr c t b.first) 1 c) := by
  simp [feedbackBlock, htgt, hrows, Nat.ne_of_gt hlen, deltaProduct]

/-- Under rule 0 the factor of the target neuron is 256, so one block of one row takes one product. -/
theorem feedback_single {t j : Nat} {e : Int} {b : LrnBlock} {c : Chip} (hrule : rfld c (Reg.LRN_CFG t) 1 0 = 0)
    (hblocks : lrnBlocks c t = [b]) (hrows : b.rows = 1) (htgt : b.tgt = j) (hlen : 0 < b.len) :
    feedback t j e c = addDelta t b.dbase (deltaProduct c t b.first e) (engineRead t (traceAddr c t b.first) 1 c) := by
  rw [← feedbackBlock_single hrows htgt hlen]
  simp [feedback, hrule, hblocks, when_]

theorem byteAt_feedbackApplied (t j : Nat) (e : Int) (c : Chip) (x : Nat) :
    byteAt (feedbackApplied t j e c) x = byteAt (feedback t j e (count (Reg.LRN_FB_EVENTS t) 1 c)) x := by
  rw [feedbackApplied, byteAt_noteWork]

theorem reg_feedbackApplied (t j : Nat) (e : Int) (c : Chip) (a : Nat) :
    reg (feedbackApplied t j e c) a = reg (feedback t j e (count (Reg.LRN_FB_EVENTS t) 1 c)) a := by
  rw [feedbackApplied, reg_noteWork]

theorem not_learningReads_FB_EVENTS (t : Nat) : ¬ LearningReads t (Reg.LRN_FB_EVENTS t) := by
  unfold LearningReads Reg.LRN_FB_EVENTS Reg.LRN_CTRL Reg.LRN_CFG Reg.LRN_LABEL_PUSH Reg.LRN_BLK_A; omega

/-- Between `c` and `c'` the product `p` has been added to delta `i` of tile `t` and to nothing else of memory, for one feedback event. -/
structure DeltaAdded (t i : Nat) (p : Int) (c c' : Chip) : Prop where
  sum : numAt c' (deltaAddr c t i) 2 = deltaSum c t i p
  rest : ∀ x, (x < deltaAddr c t i ∨ deltaAddr c t i + 2 ≤ x) → byteAt c' x = byteAt c x
  counted : Advanced (Reg.LRN_FB_EVENTS t) 1 c c'

/-- A feedback event that reaches one row once it has left the queue, past its count and the errors of its reads. -/
theorem deltaAdded_feedbackApplied {t j : Nat} {e : Int} {b : LrnBlock} {c d : Chip} (h : FrameButReports (eccRegs t) [t] c d)
    (hrule : rfld c (Reg.LRN_CFG t) 1 0 = 0) (hblocks : lrnBlocks c t = [b]) (hrows : b.rows = 1) (htgt : b.tgt = j) (hlen : 0 < b.len) :
    DeltaAdded t b.dbase (deltaProduct c t b.first e) c (feedbackApplied t j e d) := by
  have hcounted := sameSources_trans (sameSources_of_frame h) (sameSources_count (not_learningReads_FB_EVENTS t) 1 d)
  have hprod : deltaProduct (count (Reg.LRN_FB_EVENTS t) 1 d) t b.first e = deltaProduct c t b.first e := by
    rw [deltaProduct, deltaProduct, lrnCfg_of_sameSources hcounted, traceAddr_of_sameSources hcounted, hcounted.bytes]
  have hadd := feedback_single (e := e) ((lrnCfg_of_sameSources hcounted 1 0).trans hrule)
    ((lrnBlocks_of_sameSources hcounted).trans hblocks) hrows htgt hlen
  rw [hprod] at hadd
  have hread := (errorsNoted_engineRead t (traceAddr (count (Reg.LRN_FB_EVENTS t) 1 d) t b.first) 1 (count (Reg.LRN_FB_EVENTS t) 1 d)).1
  have hsame := sameSources_trans hcounted (sameSources_of_frame hread)
  have haddr := deltaAddr_of_sameSources hsame b.dbase
  have hev : Reg.LRN_CTRL t ≤ Reg.LRN_FB_EVENTS t := by simp [Reg.LRN_CTRL, Reg.LRN_FB_EVENTS]
  refine ⟨?_, fun x hx => ?_, advanced_of_count (d := d) (lrnReg_past_errors h hev) ?_⟩
  · rw [numAt_congr (byteAt_feedbackApplied t j e d), hadd, ← haddr, numAt_addDelta, deltaSum, deltaSum, deltaAt_of_sameSources hsame]
  · rw [byteAt_feedbackApplied, hadd, byteAt_addDelta_outside _ _ _ _ (by rwa [haddr]), hsame.bytes]
  · rw [reg_feedbackApplied, hadd, reg_addDelta _ _ _ _ hev (by simp [Reg.LRN_FB_EVENTS, Reg.LRN_DELTA_ADDS]),
      lrnReg_past_errors hread hev]

theorem frame_feedbackKeyless {t : Nat} {ts : List Nat} {c d : Chip} (h : Frame [Reg.LRN_FB_NOKEY t, Reg.LRN_FAULT t] ts c d) :
    Frame [Reg.LRN_FB_NOKEY t, Reg.LRN_FAULT t] ts c (feedbackKeyless t d) :=
  frame_raise _ _ (by simp) (frame_count _ _ (by simp) h)

theorem advanced_feedbackKeyless {t : Nat} {c d : Chip} (h : reg d (Reg.LRN_FB_NOKEY t) = reg c (Reg.LRN_FB_NOKEY t)) :
    Advanced (Reg.LRN_FB_NOKEY t) 1 c (feedbackKeyless t d) :=
  advanced_of_count h (reg_raise_ne (by simp [Reg.LRN_FB_NOKEY, Reg.LRN_FAULT]) ..)

/-! ### Labels (R230) -/

section
variable {t : Nat} {v : Word} {c : Chip}

/-- A label dropped for its class or for want of room. -/
def labelDropped (t : Nat) (c : Chip) : Chip := c |> count (Reg.LRN_LABEL_DROP t) 1 |> raise (Reg.LRN_FAULT t) 5

theorem labelPush_queues (hk : fld v 4 0 ≤ rfld c (Reg.LRN_LABEL_NRN t) 30 26) (hn : (tile c t).lrn.labels.length < 8) :
    labelPush t v c = modLrn t (fun L => { L with labels := L.labels ++ [(fld v 31 16, fld v 4 0)] }) c := by
  rw [labelPush, if_neg (by omega)]

theorem labelPush_drops (h : rfld c (Reg.LRN_LABEL_NRN t) 30 26 < fld v 4 0 ∨ 8 ≤ (tile c t).lrn.labels.length) :
    labelPush t v c = labelDropped t c := if_pos h

theorem advanced_labelDropped (t : Nat) (c : Chip) : Advanced (Reg.LRN_LABEL_DROP t) 1 c (labelDropped t c) :=
  advanced_of_count rfl (reg_raise_ne (by simp [Reg.LRN_LABEL_DROP, Reg.LRN_FAULT]) ..)

end

/-! ### The obligation -/

/-- Settles O20: the increment by its write, the feedback event by its target, the label by its class and the room in the queue. -/
theorem incrementsFeedbackAndLabels : Obligations.IncrementsFeedbackAndLabels := by
  intro t s hd
  refine ⟨fun a x par rest hq hm => ⟨fun hl => ?incOff, fun b hl hs hb => ?incOn⟩,
    fun f hfence hint hf hrun hspill hnext hkind => ⟨fun hl => ?fbOff, fun hl hs htgt => ?fbKeyless,
      fun j e b hl hs htgt hblocks hrows hfirst hlen _ hrule => ?fbRow⟩,
    fun v => ⟨fun hk hn => ?queued, fun h => ?dropped⟩⟩
  case incOff => exact ⟨_, completes_tile rfl hd (learnIncrement_off hq hm hl), incs_incTaken .., frame_incTaken ..⟩
  case incOn =>
    obtain ⟨htrace, hrest, hcount⟩ :=
      traceRaised_incApplied (a := a) (x := x) (frameButReports_of_frame (frame_incTaken _ t rest s.chip))
    exact ⟨_, completes_tile rfl hd (learnIncrement_applies hq hm t.isLt hl hs hb), (incs_incApplied ..).trans (incs_incTaken ..), htrace,
      hrest, hcount⟩
  case fbOff =>
    refine ⟨_, completes_tile rfl hd (feedbackEvent_off hfence hint hf hrun hnext hkind hspill hl), ?_, frame_eventTaken hspill _⟩
    rw [tile_eventTaken hspill]
    rfl
  case fbKeyless =>
    refine ⟨_, completes_tile rfl hd (feedbackEvent_keyless hfence hint hf hrun hnext hkind hspill t.isLt hl hs htgt), ?_,
      advanced_feedbackKeyless ((frame_eventTaken hspill []).1 _ (by simp)), rflag_raise _ _ _ (by decide),
      frame_feedbackKeyless (frame_eventTaken hspill _)⟩
    rw [(frame_feedbackKeyless (frame_refl _ [] _)).2.1 t (by simp), tile_eventTaken hspill]
    rfl
  case fbRow =>
    obtain ⟨hsum, hrest, hcount⟩ := deltaAdded_feedbackApplied (e := e)
      (frameButReports_of_frame (frame_eventTaken (f := f) hspill _)) hrule hblocks hrows hfirst hlen
    exact ⟨_, completes_tile rfl hd (feedbackEvent_reaches hfence hint hf hrun hnext hkind hspill t.isLt hl hs htgt), hsum, hrest,
      hcount⟩
  case queued =>
    refine ⟨_, completes_tile rfl hd (labelPush_queues hk hn), ?_, frame_modLrn _ _ (by simp) (frame_refl ..)⟩
    rw [tile_modLrn_same]
  case dropped =>
    exact ⟨_, completes_tile rfl hd (labelPush_drops h), advanced_labelDropped .., rflag_raise _ _ _ (by decide),
      frame_raise _ _ (by simp) (frame_count _ _ (by simp) (frame_refl ..))⟩

end Sys2Proof.Machine
end

section
/-!
PROOFS. TRACE_STEP, MOW, CKPT_ACK and MOW_COUNT_SET (R223, R225, R232 to R234, R240, R242): a neuron's traces decayed, a row
mowed into its alternate slot, and the count of mows.
-/

namespace Sys2Proof.Machine

open Sys2Proof.Safety

/-! ### A neuron's state in memory (Table 4.4) -/

theorem bytesAt_congr {c c' : Chip} (h : ∀ x, byteAt c' x = byteAt c x) (a n : Nat) : bytesAt c' a n = bytesAt c a n :=
  List.map_congr_left (fun k _ => h (a + k))

theorem signed_mod (w n : Nat) : signed w (n % 2 ^ w) = signed w n := by
  rw [signed, signed, Nat.mod_mod]

/-- The low bits of a number read as signed are the number's own. -/
theorem unsign_signed (w n : Nat) : unsign w (signed w n) = n % 2 ^ w := by
  have hlt : n % 2 ^ w < 2 ^ w := Nat.mod_lt _ (Nat.two_pow_pos w)
  have hcast : ((2 ^ w : Nat) : Int) = 2 ^ w := by push_cast; rfl
  have hmod : ((n % 2 ^ w : Nat) : Int) % 2 ^ w = (n % 2 ^ w : Nat) := by
    rw [← hcast, ← Int.natCast_mod, Nat.mod_mod]
  have hres : signed w n % 2 ^ w = (n % 2 ^ w : Nat) := by
    unfold signed
    extract_lets x
    split
    · rw [Int.sub_emod_right, hmod]
    · exact hmod
  rw [unsign, hres, Int.toNat_natCast]

theorem ofBytes_take_lt (bs : List Byte) (n : Nat) : ofBytes (bs.take n) < 256 ^ n :=
  Nat.lt_of_lt_of_le (ofBytes_lt _) (Nat.pow_le_pow_right (by decide) (by simp))

/-- The fields of a stored state, each of its own bytes. -/
theorem nstateOf_nstateBytes (st : NState) : nstateOf (nstateBytes st) =
    { v := signed 24 (unsign 24 st.v % 256 ^ 3), pop := bits ((16 * (st.pop % 16) + st.refLeft % 16) % 256 ^ 1) 7 4
      refLeft := bits ((16 * (st.pop % 16) + st.refLeft % 16) % 256 ^ 1) 3 0, flags := st.flags % 256 ^ 1
      burst := st.burst % 256 ^ 1, last := st.last % 256 ^ 2, pre := st.pre % 256 ^ 1, post := st.post % 256 ^ 1
      biasOvr := signed 16 (unsign 16 st.biasOvr % 256 ^ 2), events := st.events % 256 ^ 2
      lastValue := st.lastValue % 256 ^ 1, spare := st.spare % 256 ^ 1 } := by
  simp only [← ofBytes_toBytes, nstateOf, nstateBytes, toBytes, List.cons_append, List.nil_append, List.drop_succ_cons, List.drop_zero,
    List.take_succ_cons, List.take_zero]

/-- The two halves of the byte that holds POP and REF_LEFT. -/
theorem bits_halves {p r : Nat} (hp : p < 16) (hr : r < 16) :
    bits ((16 * (p % 16) + r % 16) % 256 ^ 1) 7 4 = p ∧ bits ((16 * (p % 16) + r % 16) % 256 ^ 1) 3 0 = r := by
  simp only [bits]; omega

/-- A state read from memory, with other traces of 8 bits, is read back as it is written. -/
theorem nstateOf_nstateBytes_traced (bs : List Byte) {pre post : Nat} (hpre : pre < 256) (hpost : post < 256) :
    nstateOf (nstateBytes { nstateOf bs with pre := pre, post := post }) = { nstateOf bs with pre := pre, post := post } := by
  have hone (o : Nat) : ofBytes ((bs.drop o).take 1) % 256 ^ 1 = ofBytes ((bs.drop o).take 1) := Nat.mod_eq_of_lt (ofBytes_take_lt _ 1)
  have htwo (o : Nat) : ofBytes ((bs.drop o).take 2) % 256 ^ 2 = ofBytes ((bs.drop o).take 2) := Nat.mod_eq_of_lt (ofBytes_take_lt _ 2)
  have hv : signed 24 (unsign 24 (nstateOf bs).v % 256 ^ 3) = (nstateOf bs).v := by
    rw [nstateOf, unsign_signed]; exact (signed_mod 24 _).trans (signed_mod 24 _)
  have hbias : signed 16 (unsign 16 (nstateOf bs).biasOvr % 256 ^ 2) = (nstateOf bs).biasOvr := by
    rw [nstateOf, unsign_signed]; exact (signed_mod 16 _).trans (signed_mod 16 _)
  obtain ⟨hpop, href⟩ := bits_halves (p := (nstateOf bs).pop) (r := (nstateOf bs).refLeft)
    (Nat.mod_lt _ (by decide)) (Nat.mod_lt _ (by decide))
  rw [nstateOf_nstateBytes]
  simp only [hv, hbias, hpop, href, NState.mk.injEq, true_and]
  exact ⟨hone 4, hone 5, htwo 6, Nat.mod_eq_of_lt hpre, Nat.mod_eq_of_lt hpost, htwo 12, hone 14, hone 15⟩

theorem decayTrace_le (x k : Nat) : decayTrace x k ≤ x := by
  unfold decayTrace
  split
  · exact Nat.le_refl x
  · exact Nat.sub_le ..

/-! ### Trace decay (R225) -/

/-- The state of neuron `i` in the working slot. -/
def workState (c : Chip) (t i : Nat) : NState := nstateOf (bytesAt c (nrnAddr c t (workSlot c t) i) 16)

/-- That state with its traces decayed by population `j`'s shift. -/
def decayedState (c : Chip) (t j i : Nat) : NState :=
  { workState c t i with
    pre := decayTrace (workState c t i).pre (popAt c t j).decay, post := decayTrace (workState c t i).post (popAt c t j).decay }

/-- The lines of the four neurons about `i` marked as updated in slot `work`. -/
def lineMarked (work i : Nat) (T : Tile) : Tile :=
  { T with nrn := { T.nrn with
      upd := setBmp work
        (((List.range 4).map (fun x => i / 4 * 4 + x)).foldl (fun m x => bmpPut m x true) (bmp T.nrn.upd work)) T.nrn.upd } }

/-- Neuron `i`'s decayed state written into the working slot. -/
def decayWritten (t j i : Nat) (c : Chip) : Chip :=
  c |> engineRead t (nrnAddr c t (workSlot c t) i) 16 |> engineWrite (nrnAddr c t (workSlot c t) i) (nstateBytes (decayedState c t j i))

/-- A neuron whose traces decay to themselves is only read. -/
theorem decayNeuron_still {t j i : Nat} {c : Chip} (h : decayedState c t j i = workState c t i) :
    decayNeuron t j i c = engineRead t (nrnAddr c t (workSlot c t) i) 16 c := if_pos h

theorem decayNeuron_writes {t j i : Nat} {c : Chip} (h : decayedState c t j i ≠ workState c t i) : decayNeuron t j i c =
    modTile t (lineMarked (workSlot (engineRead t (nrnAddr c t (workSlot c t) i) 16 c) t) i) (decayWritten t j i c) := if_neg h

/-- Between `c` and `c'` the traces of neuron `i` have decayed in the working slot by population `j`'s shift, and nothing else of
memory has changed. -/
structure TracesDecayed (t j i : Nat) (c c' : Chip) : Prop where
  state : nstateOf (bytesAt c' (nrnAddr c t (workSlot c t) i) 16) = decayedState c t j i
  rest : ∀ x, (x < nrnAddr c t (workSlot c t) i ∨ nrnAddr c t (workSlot c t) i + 16 ≤ x) → byteAt c' x = byteAt c x
  seq : (tile c' t).seq = (tile c t).seq

theorem nstateOf_decayedState (c : Chip) (t j i : Nat) : nstateOf (nstateBytes (decayedState c t j i)) = decayedState c t j i :=
  nstateOf_nstateBytes_traced _ (Nat.lt_of_le_of_lt (decayTrace_le ..) (ofBytes_take_lt _ 1))
    (Nat.lt_of_le_of_lt (decayTrace_le ..) (ofBytes_take_lt _ 1))

theorem tracesDecayed_decayNeuron (t j i : Nat) (c : Chip) : TracesDecayed t j i c (decayNeuron t j i c) := by
  have hread := (errorsNoted_engineRead t (nrnAddr c t (workSlot c t) i) 16 c).1
  by_cases h : decayedState c t j i = workState c t i
  · rw [decayNeuron_still h]
    exact ⟨by rw [bytesAt_past_errors hread, h, workState], fun x _ => byteAt_past_errors hread x,
      by rw [tile_of_frameButReports hread (by simp)]⟩
  · have hbytes := bytesAt_putBytes (nstateBytes (decayedState c t j i)) (nrnAddr c t (workSlot c t) i)
      (engineRead t (nrnAddr c t (workSlot c t) i) 16 c)
    rw [length_nstateBytes] at hbytes
    rw [decayNeuron_writes h]
    refine ⟨?_, fun x hx => ?_, ?_⟩
    · rw [bytesAt_congr (byteAt_modTile _ _ _), decayWritten, bytesAt_engineWrite, hbytes, nstateOf_decayedState]
    · rw [byteAt_modTile, decayWritten, byteAt_engineWrite, byteAt_putBytes_outside _ _ _ _ (by rwa [length_nstateBytes]),
        byteAt_past_errors hread]
    · rw [tile_modTile_same, decayWritten, tile_engineWrite, tile_of_frameButReports hread (by simp)]
      rfl

/-- Tile `t`'s trace step noted as done in this step. -/
def tracesStepped (t : Nat) (c : Chip) : Chip := modTile t (fun T => { T with seq := { T.seq with traced := true } }) c

/-- A TRACE_STEP word over one population of one neuron, with learning off. -/
theorem traceStep_single {t j i : Nat} {c : Chip} (hw : atWord c t 0x08 = true) (he : endReached c t = true)
    (hfirst : bits (wordAt c t) 7 4 = j) (hlast : bits (wordAt c t) 3 0 = j) (hpop : popNeurons c t j = [i]) (hl : learns c t = false) :
    traceStep t c = nextWord t (tracesStepped t (decayNeuron t j i c)) := by
  simp [traceStep, settleWord, hw, he, hfirst, hlast, hpop, hl, when_, tracesStepped]

/-! ### What the mow of a row leaves but for memory (R234) -/

/-- The registers that a row's mow writes before the row is flipped. -/
def mowRegs (t : Nat) : List Nat := [Reg.LRN_MOW_CHANGED t, Reg.LRN_MOW_CLAMP t, Reg.LRN_FAULT t] ++ eccRegs t

/-- What the mow of a row of tile `t` leaves: the sequencer and the registers but `mowRegs`. -/
structure MowView (t : Nat) where
  seq : Seq
  regs : (a : Nat) → a ∉ mowRegs t → Word

/-- That part of the chip `c`. -/
def mowView (t : Nat) (c : Chip) : MowView t := { seq := (tile c t).seq, regs := fun a _ => reg c a }

section
variable {t : Nat} {c c' : Chip}

theorem mowView_eq (hs : (tile c' t).seq = (tile c t).seq) (hr : ∀ a, a ∉ mowRegs t → reg c' a = reg c a) :
    mowView t c' = mowView t c := by
  have hregs : (fun a (_ : a ∉ mowRegs t) => reg c' a) = fun a _ => reg c a := funext fun a => funext fun ha => hr a ha
  rw [mowView, mowView, hs, hregs]

theorem seq_of_mowView (h : mowView t c' = mowView t c) : (tile c' t).seq = (tile c t).seq := congrArg MowView.seq h

theorem reg_of_mowView {a : Nat} (h : mowView t c' = mowView t c) (ha : a ∉ mowRegs t) : reg c' a = reg c a :=
  congrFun (congrFun (congrArg MowView.regs h) a) ha

end

section
variable (t : Nat) (c : Chip)

theorem mowView_engineRead (a n : Nat) : mowView t (engineRead t a n c) = mowView t c := by
  have h := (errorsNoted_engineRead t a n c).1
  exact mowView_eq (by rw [tile_of_frameButReports h (by simp)])
    (fun a ha => reg_of_frameButReports h (fun he => ha (List.mem_append_right _ he)))

theorem mowView_engineWrite (a : Nat) (bs : List Byte) : mowView t (engineWrite a bs c) = mowView t c :=
  mowView_eq (by rw [tile_engineWrite]) (fun _ _ => reg_engineWrite ..)

theorem mowView_count {a : Nat} (ha : a ∈ mowRegs t) (n : Nat) : mowView t (count a n c) = mowView t c :=
  mowView_eq (by rw [tile_count]) (fun _ hb => reg_count_ne (by rintro rfl; exact hb ha) n c)

theorem mowView_raise {a : Nat} (ha : a ∈ mowRegs t) (i : Nat) : mowView t (raise a i c) = mowView t c :=
  mowView_eq rfl (fun _ hb => reg_raise_ne (by rintro rfl; exact hb ha) i c)

theorem mowView_when {f : Chip → Chip} (b : Bool) (h : mowView t (f c) = mowView t c) : mowView t (when_ b f c) = mowView t c := by
  cases b
  · rfl
  · exact h

theorem mowView_drawPepper : mowView t (drawPepper t c).2 = mowView t c :=
  mowView_eq (by rw [drawPepper, tile_modTile_same]) (fun _ _ => rfl)

/-- A code's rounding draws a pepper word or a free value at most. -/
theorem mowView_mowCode (b top k : Nat) (d : Int) : mowView t (mowCode t b top k d c).2.2 = mowView t c := by
  unfold mowCode
  split
  · rfl
  · split
    · rfl
    · extract_lets w lo hi
      split
      · rfl
      · exact mowView_drawPepper t c

theorem mowView_mowOne (r : Nat) (b : LrnBlock) (h row j : Nat) : mowView t (mowOne t r b h row j c) = mowView t c := by
  unfold mowOne
  extract_lets w u alt k
  have hcode := mowView_mowCode t c (hCb h) (if w = 1 then 255 else 15) k (deltaAt c t (b.dbase + r * b.len + j))
  generalize mowCode t (hCb h) (if w = 1 then 255 else 15) k (deltaAt c t (b.dbase + r * b.len + j)) c = x at hcode ⊢
  obtain ⟨v, clamped, d⟩ := x
  refine (mowView_when t _ _ ?_).trans ((mowView_when t _ _ ?_).trans ((mowView_engineWrite ..).trans hcode))
  · exact (mowView_raise t _ (by simp [mowRegs]) 4).trans (mowView_count t _ (by simp [mowRegs]) 1)
  · exact mowView_count t _ (by simp [mowRegs]) 1

end

/-! ### The mow of one row (R234) -/

theorem axonAddr_past_errors {t : Nat} {ts : List Nat} {c c' : Chip} (h : FrameButReports (eccRegs t) ts c c') (a : Nat) :
    axonAddr c' t a = axonAddr c t a := by
  rw [axonAddr, axonAddr, (regions_past_errors h 2).1]

/-- The row of entry `a`, of block `b`, read, copied into its alternate slot and mowed there, before ROW_PTR is flipped. -/
def rowRounded (t a : Nat) (b : LrnBlock) (c : Chip) : Chip :=
  let e := numAt c (axonAddr c t a) 8
  let h := unitAt c t (aRow e)
  let su := scaleUnits (hLen h) (groupSize (hGsize h))
  let cu := codeUnits (hWidth h) (hLen h)
  let d := deltaAddr c t (b.dbase + (a - b.first) * b.len)
  c |> engineRead t (axonAddr c t a) 8
    |> engineRead t (unitAddr t (aRow e)) (8 * (1 + cu))
    |> engineRead t (unitAddr t (hScale h)) (8 * su)
    |> engineRead t d (2 * b.len)
    |> forAll (fun k x => engineWrite (unitAddr t (hAlt h + k)) (toBytes 8 (unitAt x t (aRow e + k))) x) (List.range (1 + cu))
    |> engineWrite (unitAddr t (hAlt h + 1 + cu)) (bytesAt c (unitAddr t (hScale h)) (8 * su))
    |> engineWrite (unitAddr t (hAlt h)) (toBytes 8 (h - hAlt h * 2 ^ 49 + aRow e * 2 ^ 49))
    |> forAll (mowOne t (a - b.first) b h (aRow e)) (List.range b.len)

/-- The word `e` of an axon entry with ROW_PTR `q`. -/
def entryFlipped (e q : Nat) : Nat := e - aRow e * 2 ^ 43 + q * 2 ^ 43

/-- Entry `a` written with ROW_PTR `q`, and the `n` bytes of its deltas at `d` cleared. -/
def rowFlipped (x e q d n : Nat) (c : Chip) : Chip :=
  c |> engineWrite x (toBytes 8 (entryFlipped e q)) |> engineWrite d (List.replicate n 0#8)

/-- The mow of a row noted: the row buffer emptied, the row counted, the step's work noted. -/
def rowNoted (t : Nat) (c : Chip) : Chip :=
  c |> modSyn t (fun S => { S with row := none }) |> count (Reg.LRN_MOW_ROWS t) 1 |> noteWork t

theorem mowRow_eq (t a : Nat) (b : LrnBlock) (c : Chip) : mowRow t a b c =
    rowNoted t (rowFlipped (axonAddr c t a) (numAt c (axonAddr c t a) 8) (hAlt (unitAt c t (aRow (numAt c (axonAddr c t a) 8))))
      (deltaAddr c t (b.dbase + (a - b.first) * b.len)) (2 * b.len) (rowRounded t a b c)) := rfl

theorem mowView_rowRounded (t a : Nat) (b : LrnBlock) (c : Chip) : mowView t (rowRounded t a b c) = mowView t c := by
  unfold rowRounded
  extract_lets e h su cu d
  rw [forAll_leaves (mowView t) _ (fun j x => mowView_mowOne t x _ b h (aRow e) j), mowView_engineWrite, mowView_engineWrite,
    forAll_leaves (mowView t) _ (fun k x => mowView_engineWrite t x ..), mowView_engineRead, mowView_engineRead, mowView_engineRead,
    mowView_engineRead]

theorem aRow_entryFlipped {e q : Nat} (he : e < 256 ^ 8) (hq : q < 2 ^ 15) : aRow (entryFlipped e q % 256 ^ 8) = q := by
  simp only [entryFlipped, aRow, bits]
  omega

theorem byteAt_rowNoted (t : Nat) (c : Chip) (x : Nat) : byteAt (rowNoted t c) x = byteAt c x := by
  rw [rowNoted, byteAt_noteWork, count_eq, byteAt_setReg, byteAt_modSyn]

theorem reg_rowNoted (t : Nat) (c : Chip) (a : Nat) : reg (rowNoted t c) a = reg (count (Reg.LRN_MOW_ROWS t) 1 c) a := by
  rw [rowNoted, reg_noteWork]
  rfl

section
variable {x e q d n : Nat} (c : Chip)

theorem row_rowFlipped (he : e < 256 ^ 8) (hq : q < 2 ^ 15) (hapart : d + n ≤ x ∨ x + 8 ≤ d) :
    aRow (numAt (rowFlipped x e q d n c) x 8) = q := by
  rw [rowFlipped, numAt, bytesAt_engineWrite, bytesAt_putBytes_apart (by rwa [List.length_replicate]), ← numAt, numAt_engineWrite,
    aRow_entryFlipped he hq]

theorem byteAt_rowFlipped {k : Nat} (hk : k < n) : byteAt (rowFlipped x e q d n c) (d + k) = 0#8 := by
  rw [rowFlipped, byteAt_engineWrite, byteAt_putBytes_inside _ _ _ _ (by rwa [List.length_replicate])]
  simp

end

/-- Between `c` and `c'` the row of entry `a`, in block `b`, has been mowed: its entry points at its alternate slot, its deltas are
zero, it is counted, and the sequencer and the count of mows are as they were. -/
structure RowMowed (t a : Nat) (b : LrnBlock) (c c' : Chip) : Prop where
  row : aRow (numAt c' (axonAddr c t a) 8) = hAlt (unitAt c t (aRow (numAt c (axonAddr c t a) 8)))
  deltas : ∀ k, k < 2 * b.len → byteAt c' (deltaAddr c t (b.dbase + (a - b.first) * b.len) + k) = 0#8
  rows : Advanced (Reg.LRN_MOW_ROWS t) 1 c c'
  mows : reg c' (Reg.LRN_MOW_COUNT t) = reg c (Reg.LRN_MOW_COUNT t)
  seq : (tile c' t).seq = (tile c t).seq

theorem mem_mowRegs {t a : Nat} : a ∈ mowRegs t ↔ a = Reg.LRN_MOW_CHANGED t ∨ a = Reg.LRN_MOW_CLAMP t ∨ a = Reg.LRN_FAULT t ∨
    a ∈ eccRegs t := by simp [mowRegs]

/-- The row's rounding goes through the alternate slot alone as far as the sequencer and the counts see; its last two writes, of the
entry and of the deltas apart from it, stand. -/
theorem rowMowed_mowRow {t a : Nat} {b : LrnBlock} {c : Chip}
    (hapart : deltaAddr c t (b.dbase + (a - b.first) * b.len) + 2 * b.len ≤ axonAddr c t a ∨
      axonAddr c t a + 8 ≤ deltaAddr c t (b.dbase + (a - b.first) * b.len)) : RowMowed t a b c (mowRow t a b c) := by
  have hview : mowView t (rowFlipped (axonAddr c t a) (numAt c (axonAddr c t a) 8) (hAlt (unitAt c t (aRow (numAt c (axonAddr c t a) 8))))
      (deltaAddr c t (b.dbase + (a - b.first) * b.len)) (2 * b.len) (rowRounded t a b c)) = mowView t c := by
    rw [rowFlipped, mowView_engineWrite, mowView_engineWrite, mowView_rowRounded]
  rw [mowRow_eq]
  refine ⟨?_, fun k hk => ?_, ?_, ?_, ?_⟩
  · rw [numAt_congr (byteAt_rowNoted t _)]
    exact row_rowFlipped _ (Nat.lt_of_lt_of_eq (ofBytes_lt _) (by simp [bytesAt])) (Nat.mod_lt _ (by decide)) hapart
  · rw [byteAt_rowNoted, byteAt_rowFlipped _ hk]
  · refine advanced_of_count (reg_of_mowView hview ?_) (reg_rowNoted ..)
    rw [mem_mowRegs, mem_eccRegs]
    unfold Reg.LRN_MOW_ROWS Reg.LRN_MOW_CHANGED Reg.LRN_MOW_CLAMP Reg.LRN_FAULT
    omega
  · rw [reg_rowNoted, reg_count_ne (by simp [Reg.LRN_MOW_COUNT, Reg.LRN_MOW_ROWS])]
    refine reg_of_mowView hview ?_
    rw [mem_mowRegs, mem_eccRegs]
    unfold Reg.LRN_MOW_COUNT Reg.LRN_MOW_CHANGED Reg.LRN_MOW_CLAMP Reg.LRN_FAULT
    omega
  · rw [rowNoted, noteWork, tile_modLrn_same, tile_count, tile_modSyn_same]
    exact seq_of_mowView hview

/-- What a row's mow leaves, seen from before what the tile's reads and its own units changed. -/
theorem rowMowed_past_errors {t a : Nat} {b : LrnBlock} {c d c' : Chip} (h : FrameButReports (eccRegs t) [t] c d)
    (hseq : (tile d t).seq = (tile c t).seq) (hm : RowMowed t a b d c') : RowMowed t a b c c' := by
  obtain ⟨hrow, hdeltas, hrows, hmows, hs⟩ := hm
  rw [axonAddr_past_errors h, numAt_past_errors h, unitAt_past_errors h] at hrow
  rw [deltaAddr_of_sameSources (sameSources_of_frame h)] at hdeltas
  rw [Advanced, lrnReg_past_errors h (by simp [Reg.LRN_CTRL, Reg.LRN_MOW_ROWS])] at hrows
  exact ⟨hrow, hdeltas, hrows, hmows.trans (lrnReg_past_errors h (by simp [Reg.LRN_CTRL, Reg.LRN_MOW_COUNT])), hs.trans hseq⟩

/-! ### The requantisation table loaded (R234) -/

theorem frame_loadTable (t : Nat) (c : Chip) : FrameButReports (eccRegs t) [t] c (loadTable t c) :=
  frameButReports_trans
    (frameButReports_mono (fun _ h => h) (by simp) (errorsNoted_forAll _ (fun _ _ => errorsNoted_engineRead ..) c).1)
    (frameButReports_of_frame (frame_modLrn _ _ (by simp) (frame_refl ..)))

theorem seq_loadTable (t : Nat) (c : Chip) : (tile (loadTable t c) t).seq = (tile c t).seq := by
  rw [loadTable, tile_modLrn_same]
  exact forAll_leaves (fun d => (tile d t).seq) _
    (fun k d => by rw [tile_of_frameButReports (errorsNoted_engineRead ..).1 (by simp)]) c

/-! ### MOW (R232 to R234, R240) -/

theorem mowWord_passes {t n clk : Nat} {c : Chip} (hw : atWord c t 0x09 = true) (he : endReached c t = true)
    (hm : mowActs c t = false) : mowWord t n clk c = nextWord t c := by
  simp [mowWord, settleWord, hw, he, hm]

theorem mowEntry_learnable {t a : Nat} {b : LrnBlock} {c : Chip} (hb : blockOf c t a = some b)
    (hl : aLearn (numAt c (axonAddr c t a) 8) = 1) : mowEntry t a c = mowRow t a b c := by
  simp [mowEntry, hb, hl]

/-- A MOW word of one entry completes with the entry. -/
theorem mowWord_single {t a clk : Nat} {c : Chip} (hw : atWord c t 0x09 = true) (he : endReached c t = true) (hm : mowActs c t = true)
    (hleft : (tile c t).lrn.mowLeft = none) (hfirst : bits (wordAt c t) 21 11 = a) (hlast : bits (wordAt c t) 10 0 = a) :
    mowWord t 1 clk c = mowDone t clk (mowEntry t a (loadTable t c)) := by
  simp [mowWord, settleWord, hw, he, hm, hleft, hfirst, hlast, when_]

/-- The mow of a word's one learnable entry, with the table loaded first. -/
theorem rowMowed_mowEntry {t a : Nat} {b : LrnBlock} {c : Chip} (hb : blockOf c t a = some b)
    (hl : aLearn (numAt c (axonAddr c t a) 8) = 1)
    (hapart : deltaAddr c t (b.dbase + (a - b.first) * b.len) + 2 * b.len ≤ axonAddr c t a ∨
      axonAddr c t a + 8 ≤ deltaAddr c t (b.dbase + (a - b.first) * b.len)) : RowMowed t a b c (mowEntry t a (loadTable t c)) := by
  have hload := frame_loadTable t c
  have hsame := sameSources_of_frame hload
  rw [mowEntry_learnable ((blockOf_of_sameSources hsame a).trans hb) (by rwa [axonAddr_past_errors hload, numAt_past_errors hload])]
  refine rowMowed_past_errors hload (seq_loadTable t c) (rowMowed_mowRow ?_)
  rwa [axonAddr_past_errors hload, deltaAddr_of_sameSources hsame]

/-- The end of a MOW word touches, beside its count, only these registers and the tile's own units. -/
theorem frame_mowDone (t clk : Nat) (c : Chip) :
    Frame [Reg.LRN_STATUS t, Reg.LRN_FAULT t, Reg.LRN_MOW_CLK t, Reg.TILE_SRAM_CE t] [t]
      (putNum (Reg.LRN_MOW_COUNT t) (((reg c (Reg.LRN_MOW_COUNT t)).toNat + 1) % 2 ^ 32) c) (mowDone t clk c) := by
  unfold mowDone
  extract_lets n K more
  have hflags := frame_when (decide (K ≠ 0) && n % K == 0) (fun c => c |> raise (Reg.LRN_STATUS t) 28 |> raise (Reg.LRN_FAULT t) 3)
    (frame_refl [Reg.LRN_STATUS t, Reg.LRN_FAULT t, Reg.LRN_MOW_CLK t, Reg.TILE_SRAM_CE t] [t] (putNum (Reg.LRN_MOW_COUNT t) n c))
    (frame_raise _ _ (by simp) (frame_raise _ _ (by simp) (frame_refl ..)))
  have hleft := frame_modLrn t (fun L => { L with mowLeft := none, heldFb := more }) (by simp) hflags
  have hclk := frame_when (!more) (setFld (Reg.LRN_MOW_CLK t) 24 0 clk) hleft (frame_setFld _ _ _ _ (by simp) hleft)
  exact frame_trans (frame_noteWork t (by simp) hclk) (nextWord_moves t _ (by simp) (by simp)).2

theorem tile_when {f : Chip → Chip} {c : Chip} {u : Nat} (b : Bool) (h : tile (f c) u = tile c u) : tile (when_ b f c) u = tile c u := by
  cases b
  · rfl
  · exact h

theorem pastWord_mowDone (t clk : Nat) (c : Chip) : PastWord t c (mowDone t clk c) := by
  refine pastWord_nextWord ?_
  rw [noteWork, tile_modLrn_same, tile_when _ rfl, tile_modLrn_same, tile_when _ rfl]
  rfl

theorem byteAt_mowDone (t clk : Nat) (c : Chip) (x : Nat) : byteAt (mowDone t clk c) x = byteAt c x :=
  (part_of_frameButReports (fun d => byteAt d x) (fun _ _ _ _ => rfl) (frameButReports_of_frame (frame_mowDone t clk c))).trans
    (by rw [putNum_eq, byteAt_setReg])

theorem count_mowDone (t clk : Nat) (c : Chip) :
    (reg (mowDone t clk c) (Reg.LRN_MOW_COUNT t)).toNat = ((reg c (Reg.LRN_MOW_COUNT t)).toNat + 1) % 2 ^ 32 := by
  rw [(frame_mowDone t clk c).1 _ (by simp [Reg.LRN_MOW_COUNT, Reg.LRN_STATUS, Reg.LRN_FAULT, Reg.LRN_MOW_CLK, Reg.TILE_SRAM_CE]),
    reg_putNum_same, BitVec.toNat_ofNat, Nat.mod_mod]

theorem rows_mowDone (t clk : Nat) (c : Chip) : reg (mowDone t clk c) (Reg.LRN_MOW_ROWS t) = reg c (Reg.LRN_MOW_ROWS t) := by
  rw [(frame_mowDone t clk c).1 _ (by simp [Reg.LRN_MOW_ROWS, Reg.LRN_STATUS, Reg.LRN_FAULT, Reg.LRN_MOW_CLK, Reg.TILE_SRAM_CE]),
    reg_putNum_ne (by simp [Reg.LRN_MOW_ROWS, Reg.LRN_MOW_COUNT])]

/-! ### The obligation -/

/-- Settles O21: the word of one neuron by its decay, the MOW word by what it mows, the two commands by their one register. -/
theorem traceStepMowAndCheckpoints : Obligations.TraceStepMowAndCheckpoints := by
  intro t clk s hd
  refine ⟨fun j i hw he hfirst hlast hpop hl => ?trace, fun hw he hm => ?passes,
    fun a b hw he hm hleft hfirst hlast hb hl => ?mows, ?ack, fun v hoff => ?count⟩
  case trace =>
    intro a st k
    obtain ⟨hstate, hrest, hseq⟩ := tracesDecayed_decayNeuron t j i s.chip
    have hbytes (x : Nat) : byteAt (nextWord t (tracesStepped t (decayNeuron t j i s.chip))) x = byteAt (decayNeuron t j i s.chip) x := by
      rw [byteAt_nextWord, tracesStepped, byteAt_modTile]
    refine ⟨_, completes_tile rfl hd (traceStep_single hw he hfirst hlast hpop hl), pastWord_nextWord ?_, ?_, ?_, fun x hx => ?_⟩
    · rw [tracesStepped, tile_modTile_same, hseq]
    · rw [seq_nextWord, tracesStepped, tile_modTile_same]
    · rw [bytesAt_congr hbytes]
      exact hstate
    · exact (hbytes x).trans (hrest x hx)
  case passes => exact ⟨_, completes_tile rfl hd (mowWord_passes hw he hm), nextWord_moves _ _ (by simp) (by simp)⟩
  case mows =>
    intro x d hapart
    obtain ⟨hrow, hdeltas, hrows, hmows, hseq⟩ := rowMowed_mowEntry hb hl hapart
    refine ⟨_, completes_tile rfl hd (mowWord_single hw he hm hleft hfirst hlast),
      pastWord_of_pc (congrArg Seq.pc hseq) (pastWord_mowDone ..), ?_, fun k hk => (byteAt_mowDone ..).trans (hdeltas k hk),
      advanced_congr hrows (rows_mowDone ..), ?_⟩
    · rw [numAt_congr (byteAt_mowDone t clk _)]
      exact hrow
    · rw [count_mowDone, hmows]
  case ack =>
    exact ⟨_, completes_tile rfl hd rfl, reg_setBit_same .., frame_setBit _ _ _ (by simp) (frame_refl ..)⟩
  case count =>
    have hset : mowCountSet t v s.chip = setReg (Reg.LRN_MOW_COUNT t) v s.chip := by simp [mowCountSet, hoff]
    exact ⟨_, completes_tile rfl hd hset, reg_setReg_same .., frame_setReg _ _ (by simp) (frame_refl ..)⟩

end Sys2Proof.Machine
end

section
/-!
PROOFS. Drains and the end of a replay (R270, R354): where a router's stray path lets a flit be counted in a register that the
statements speak of.
-/

namespace Sys2Proof.Machine

open Sys2Proof.Safety

/-! ### Routers that hold one flit on a path past their ports

As for `strayState`, a router's state bounds no path, and routing makes no such path; the obligations speak of every state. -/

/-- A router that forwards the flit it holds to output `q`. -/
def strayRouter (q : Nat) : Router := { buf := [(0, [strayHeld])], path := [(0, 8 + q)] }

def drainTile : Nat := 0x100000C

def drainPort : Nat := 126960

/-- A stray router, and no drain in progress. -/
def strayDrain : State := { State.reset with chip := { routers := [(drainTile, strayRouter drainPort)] } }

theorem drainPort_counts_result : Reg.RTR_FLITS drainTile drainPort = Reg.SEAM_DRAIN_RESULT := rfl

/-- The strobe has the router give its number, and with it the flit it holds moves on. -/
theorem result_after_drainGo : reg (chipAfter (.drainGo 0x80000000#32) strayDrain) Reg.SEAM_DRAIN_RESULT = 1#32 := by decide +kernel

/-- Refutes O24: the statement speaks of every state, and in `strayDrain` the flit that DRAIN_GO makes a router forward is counted
in SEAM_DRAIN_RESULT, which then reads 1. -/
theorem not_epochsDrainsAndCollectives : ¬ Obligations.EpochsDrainsAndCollectives := by
  unfold Obligations.EpochsDrainsAndCollectives
  intro h
  obtain ⟨-, -, hgo, -⟩ := h
  obtain ⟨c', hc, -, -, -, hresult⟩ := hgo strayDrain 0x80000000#32 (by decide) rfl
  rw [← chipAfter_of_completes hc, result_after_drainGo] at hresult
  exact absurd hresult (by decide)

def replayTile : Nat := 0x1000005

def replayPort : Nat := 127073

/-- Job 0, which has no tiles, at the end of its replay of step 0, with the tick of step 1 come at time 0; the bits of CHK_JOB_STATE
below STATE are set, and there is a stray router. -/
def strayReplay : State :=
  { State.reset with chip :=
    { setReg (Reg.CHK_JOB_STATE 0) 0x1FFFFFFF#32 {} with
      jobs := [(0, { replay := some 0, tickInReplay := true })], tbs := [(0, { phase := .settle })]
      routers := [(replayTile, strayRouter replayPort)] } }

theorem replayPort_counts_state : Reg.RTR_FLITS replayTile replayPort = Reg.CHK_JOB_STATE 0 := rfl

theorem strayReplay_has_ended : allEnded strayReplay.chip 0 = true := by decide +kernel

/-- The replay ends with STATE 1; the update go of step 1, forced at once (R354), has the router forward its flit. -/
theorem state_after_replayEndStep :
    rfld (chipAfter (.replayEndStep 0 1) strayReplay) (Reg.CHK_JOB_STATE 0) 31 29 = 2 := by decide +kernel

theorem runs_after_replayEndStep : (jobAt (chipAfter (.replayEndStep 0 1) strayReplay) 0).restarting = false := by decide +kernel

/-- Refutes O40: the statement speaks of every state, and in `strayReplay` the flit that the forced update go makes a router forward
is counted in CHK_JOB_STATE, whose STATE then is 2. -/
theorem not_replayAndRestart : ¬ Obligations.ReplayAndRestart := by
  unfold Obligations.ReplayAndRestart
  intro h
  obtain ⟨-, -, hjob⟩ := h
  obtain ⟨-, hend, -⟩ := hjob 0 1 strayReplay
  obtain ⟨c', hc, -, hstate, -⟩ := hend 0 rfl rfl rfl strayReplay_has_ended
  rw [← chipAfter_of_completes hc] at hstate
  obtain ⟨hone, -⟩ := hstate runs_after_replayEndStep
  exact absurd (state_after_replayEndStep.symm.trans hone) (by decide)

end Sys2Proof.Machine
end

section
/-!
SUPPORT. A router that holds no flit moves nothing, and one that holds a single flit makes that flit's move (R254, Table 9.11).
-/

namespace Sys2Proof.Machine

open Sys2Proof.Safety

/-! ### A router without flits -/

/-- The order of arrival at the head of an input buffer, with its input and VC. -/
def arrivalOf (p v : Nat) : List Held → Option (Nat × Nat × Nat)
  | h :: _ => some (h.stamp, (p, v))
  | [] => none

theorem waiting_eq (c : Chip) (t : Nat) : waiting c t =
    (sortBy (fun e => e.1) ((List.range 6).flatMap fun p => (List.range 6).filterMap fun v => arrivalOf p v (bufAt c t p v))).map
      (fun e => e.2) := rfl

section
variable {t : Nat} {c : Chip}

theorem bufAt_of_empty (h : (router c t).buf = []) (p v : Nat) : bufAt c t p v = [] := by
  rw [bufAt, h]
  rfl

theorem waiting_of_empty (h : (router c t).buf = []) : waiting c t = [] := by
  rw [waiting_eq]
  simp only [bufAt_of_empty h, arrivalOf]
  rfl

theorem nextMove_of_quiet (h : QuietRouter t c) : nextMove c t = none := by
  obtain ⟨hbuf, hcoll⟩ := h
  simp [nextMove, waiting_of_empty hbuf, moveColl, hcoll]

theorem serve_of_quiet (h : QuietRouter t c) (n : Nat) : serve t n c = c := by
  cases n with
  | zero => rfl
  | succ n => rw [serve, nextMove_of_quiet h]

theorem serveAll_of_quiet (h : QuietRouter t c) : serveAll t c = c := serve_of_quiet h 400

/-- A router whose first move leaves it without flits makes that move alone. -/
theorem serveAll_of_one_move {c' : Chip} (h : nextMove c t = some c') (hq : QuietRouter t c') : serveAll t c = c' := by
  rw [serveAll, serve, h]
  exact serve_of_quiet hq 399

end

/-! ### A router with a single flit -/

/-- Router `t` holds the flit of `h` alone, in input `p` on VC `v`. -/
def HoldsOne (t p v : Nat) (h : Held) (c : Chip) : Prop :=
  (router c t).buf = [(8 * p + v, [h])] ∧ (router c t).collOut = []

/-- The inputs and VCs below 6 are told apart by the keys of their buffers. -/
theorem buffers_with_key : ∀ p, p < 6 → ∀ v, v < 6 →
    ((List.range 6).flatMap fun p' => (List.range 6).filterMap fun v' => if 8 * p + v = 8 * p' + v' then some (p', v') else none) =
      [(p, v)] := by decide

section
variable {t p v : Nat} {h : Held} {c : Chip} (ho : HoldsOne t p v h c)
include ho

theorem bufAt_holdsOne (p' v' : Nat) : bufAt c t p' v' = if 8 * p + v = 8 * p' + v' then [h] else [] := by
  rw [bufAt, ho.1]
  rfl

theorem bufAt_holdsOne_same : bufAt c t p v = [h] := by rw [bufAt_holdsOne ho, if_pos rfl]

theorem waiting_holdsOne (hp : p < 6) (hv : v < 6) : waiting c t = [(p, v)] := by
  have harrival (p' v' : Nat) : arrivalOf p' v' (bufAt c t p' v') =
      (if 8 * p + v = 8 * p' + v' then some (p', v') else none).map (fun b => (h.stamp, b)) := by
    rw [bufAt_holdsOne ho]
    split <;> rfl
  have hall : ((List.range 6).flatMap fun p' => (List.range 6).filterMap fun v' => arrivalOf p' v' (bufAt c t p' v')) =
      [(h.stamp, (p, v))] := by
    simp only [harrival, ← List.map_filterMap, ← List.map_flatMap, buffers_with_key p hp v hv]
    rfl
  rw [waiting_eq, hall]
  rfl

theorem nextMove_holdsOne (hp : p < 6) (hv : v < 6) : nextMove c t = moveOne c t p v := by
  simp [nextMove, moveColl, ho.2, waiting_holdsOne ho hp hv]

/-- A single flit that its move takes out of the router makes that move alone. -/
theorem serveAll_holdsOne {c' : Chip} (hp : p < 6) (hv : v < 6) (hm : moveOne c t p v = some c') (hq : QuietRouter t c') :
    serveAll t c = c' :=
  serveAll_of_one_move ((nextMove_holdsOne ho hp hv).trans hm) hq

/-- A head that no dropped packet precedes goes where its output lets it. -/
theorem moveOne_holdsOne {q : Nat} (hd : droppingOf c t p v = false) (hh : h.flit.head = true)
    (hq : hopOf c t p h.flit.data none = some (.out q)) :
    moveOne c t p v = if q = 4 then moveLocal c t p v h else moveTo c t p v q (1 + q) h := by
  simp [moveOne, bufAt_holdsOne_same ho, hd, hh, hq]

theorem popBuf_holdsOne : popBuf t p v c = creditBack t p v h.flit (setBuf t p v [] c) := by
  rw [popBuf, bufAt_holdsOne_same ho]

theorem buf_setBuf_holdsOne : (router (setBuf t p v [] c) t).buf = [] := by
  rw [setBuf, router_modRouter_same, ho.1]
  simp [setList, mapPut, mapErase]

end

/-! ### What the parts of a move leave -/

section
variable {t p v : Nat} {f : Flit} {c : Chip}

@[simp] theorem reg_creditBack (a : Nat) : reg (creditBack t p v f c) a = reg c a := by
  unfold creditBack; split <;> rfl

@[simp] theorem tile_creditBack (u : Nat) : tile (creditBack t p v f c) u = tile c u := by
  unfold creditBack; split <;> rfl

@[simp] theorem router_creditBack (u : Nat) : router (creditBack t p v f c) u = router c u := by
  unfold creditBack; split <;> rfl

@[simp] theorem wire_creditBack (u q w : Nat) : wire (creditBack t p v f c) u q w = wire c u q w := by
  unfold creditBack; split <;> rfl

/-- Crossings of the seam are counted beside everything else (R273). -/
theorem countSeam_eq (t q : Nat) (c : Chip) : ∃ m, countSeam t q c = { c with seamCnt := m } := by
  unfold countSeam
  split
  · exact ⟨_, rfl⟩
  · split
    · exact ⟨_, rfl⟩
    · exact ⟨c.seamCnt, rfl⟩

@[simp] theorem reg_countSeam (q a : Nat) : reg (countSeam t q c) a = reg c a := by
  obtain ⟨m, h⟩ := countSeam_eq t q c
  rw [h]; rfl

@[simp] theorem tile_countSeam (q u : Nat) : tile (countSeam t q c) u = tile c u := by
  obtain ⟨m, h⟩ := countSeam_eq t q c
  rw [h]; rfl

@[simp] theorem router_countSeam (q u : Nat) : router (countSeam t q c) u = router c u := by
  obtain ⟨m, h⟩ := countSeam_eq t q c
  rw [h]; rfl

@[simp] theorem wire_countSeam (q u p v : Nat) : wire (countSeam t q c) u p v = wire c u p v := by
  obtain ⟨m, h⟩ := countSeam_eq t q c
  rw [h]; rfl

/-- A dropped flit is counted in registers and in the tile's census (R257, R264, R278); its router stays. -/
@[simp] theorem router_countDrop (why : Drop) (d : DWord) (n u : Nat) : router (countDrop t why d n c) u = router c u := by
  unfold countDrop
  cases why <;> by_cases h : isEvent d = true <;> simp only [h, if_true] <;> rfl

@[simp] theorem wire_countDrop (why : Drop) (d : DWord) (n u p v : Nat) : wire (countDrop t why d n c) u p v = wire c u p v := by
  unfold countDrop
  cases why <;> by_cases h : isEvent d = true <;> simp only [h, if_true] <;> rfl

@[simp] theorem arrived_countDrop (why : Drop) (d : DWord) (n : Nat) :
    (tile (countDrop t why d n c) t).evq.arrived = (tile c t).evq.arrived := by
  unfold countDrop
  cases why <;> by_cases h : isEvent d = true <;> simp only [h, if_true] <;> simp [tally, count_eq, raise_eq]

/-- Delivery changes the tile and counts a flit (R245). -/
@[simp] theorem router_deliver (u : Nat) : router (deliver t p f c) u = router c u := by
  unfold deliver; split <;> rfl

@[simp] theorem wire_deliver (u q w : Nat) : wire (deliver t p f c) u q w = wire c u q w := by
  unfold deliver; split <;> rfl

theorem arrived_deliver (h : f.vc < 2) : (tile (deliver t p f c) t).evq.arrived = (tile c t).evq.arrived ++ [f] := by
  simp [deliver, h, tile_count]

/-- A flit sent takes its output's credit; nothing else of the router changes (R254). -/
theorem router_sendOut (q : Nat) : router (sendOut t q f c) t = router (setCredit t q f.vc (creditOf c t q f.vc - 1) c) t := by
  unfold sendOut
  split
  · exact router_countSeam ..
  · exact router_countSeam ..

theorem creditOf_congr {c' : Chip} (h : (router c' t).credit = (router c t).credit) (q w : Nat) : creditOf c' t q w = creditOf c t q w := by
  rw [creditOf, creditOf, h]

@[simp] theorem creditOf_setPath (n q w : Nat) : creditOf (setPath t p v n c) t q w = creditOf c t q w :=
  creditOf_congr (by simp [setPath]) q w

@[simp] theorem creditOf_setAlloc (n q w : Nat) : creditOf (setAlloc t p v n c) t q w = creditOf c t q w :=
  creditOf_congr (by simp [setAlloc]) q w

theorem creditOf_setCredit (q w q' w' n : Nat) :
    creditOf (setCredit t q w n c) t q' w' = if 8 * q' + w' = 8 * q + w then n else creditOf c t q' w' := by
  rw [creditOf, setCredit, router_modRouter_same, mapGet_mapPut]
  rfl

theorem creditOf_sendOut_same (q : Nat) : creditOf (sendOut t q f c) t q f.vc = creditOf c t q f.vc - 1 := by
  rw [creditOf_congr (congrArg Router.credit (router_sendOut q)), creditOf_setCredit, if_pos rfl]

@[simp] theorem tile_sendOut (q u : Nat) : tile (sendOut t q f c) u = tile c u := by
  unfold sendOut
  split
  · exact tile_countSeam ..
  · exact tile_countSeam ..

end

/-! ### What leaves a router quiet -/

section
variable {t p v : Nat} {c : Chip}

theorem quietRouter_congr {c' : Chip} (h : router c' t = router c t) : QuietRouter t c' ↔ QuietRouter t c := by
  rw [QuietRouter, QuietRouter, h]

/-- An update of a router that keeps its buffers and its combined collectives leaves it as quiet as it was. -/
theorem quietRouter_modRouter {f : Router → Router} (hb : ∀ R, (f R).buf = R.buf) (hc : ∀ R, (f R).collOut = R.collOut) :
    QuietRouter t (modRouter t f c) ↔ QuietRouter t c := by
  simp [QuietRouter, hb, hc]

@[simp] theorem quietRouter_setPath (n : Nat) : QuietRouter t (setPath t p v n c) ↔ QuietRouter t c :=
  quietRouter_modRouter (fun _ => rfl) (fun _ => rfl)

@[simp] theorem quietRouter_setAlloc (n : Nat) : QuietRouter t (setAlloc t p v n c) ↔ QuietRouter t c :=
  quietRouter_modRouter (fun _ => rfl) (fun _ => rfl)

@[simp] theorem quietRouter_setDropping (b : Bool) : QuietRouter t (setDropping t p v b c) ↔ QuietRouter t c :=
  quietRouter_modRouter (fun _ => rfl) (fun _ => rfl)

@[simp] theorem quietRouter_setCredit (n : Nat) : QuietRouter t (setCredit t p v n c) ↔ QuietRouter t c :=
  quietRouter_modRouter (fun _ => rfl) (fun _ => rfl)

@[simp] theorem quietRouter_setReg (a : Nat) (x : Word) : QuietRouter t (setReg a x c) ↔ QuietRouter t c := Iff.rfl

@[simp] theorem quietRouter_deliver (f : Flit) : QuietRouter t (deliver t p f c) ↔ QuietRouter t c :=
  quietRouter_congr (router_deliver t)

@[simp] theorem quietRouter_countDrop (why : Drop) (d : DWord) (n : Nat) : QuietRouter t (countDrop t why d n c) ↔ QuietRouter t c :=
  quietRouter_congr (router_countDrop why d n t)

@[simp] theorem quietRouter_sendOut (q : Nat) (f : Flit) : QuietRouter t (sendOut t q f c) ↔ QuietRouter t c :=
  (quietRouter_congr (router_sendOut q)).trans (quietRouter_setCredit ..)

end

end Sys2Proof.Machine
end

section
/-!
PROOFS. FLIT_RX (R245, R246, R250 to R252, R255 to R260): a frozen port, a bad CHECK, delivery at the Local port and the way east.
-/

namespace Sys2Proof.Machine

open Sys2Proof.Safety

/-! ### The flit taken off its wire -/

/-- The wire into port `p` of router `t` on VC `v` once only `rest` is on it. -/
def offWire (t p v : Nat) (rest : List Flit) (c : Chip) : Chip := { c with wires := setList (wireKey t p v) rest c.wires }

theorem wire_offWire (t p v : Nat) (rest : List Flit) (c : Chip) : wire (offWire t p v rest c) t p v = rest :=
  listOf_setList_same ..

section
variable {t p v : Nat} {f : Flit} {rest : List Flit} {c : Chip}

theorem flitRx_receives (hw : wire c t p v = f :: rest) (hr : router c t = {}) (hp : portPresent c t p = true)
    (hs : seamPasses c t p = true) (hi : rflag c (Reg.RTR_CTRL t) 0 = false) :
    flitRx t p v c = receive t p f (offWire t p v rest c) := by
  have hb : bufAt c t p v = [] := bufAt_of_empty (by rw [hr]) p v
  simp [flitRx, hw, hp, hs, hb, hi, offWire]

/-! ### What a reception comes to -/

variable (hz : rflag c (Reg.RTR_STATUS t) (8 + p) = false)
include hz

theorem receive_bad (hb : f.bad = true) :
    receive t p f c = keepCredit t p f (raise (Reg.RTR_FAULT t) 2 (raise (Reg.RTR_STATUS t) (8 + p) c)) := by
  simp [receive, hz, hb]

theorem receive_badCheck (hb : f.bad = false) (hh : f.head = true) (hk : checkOk f.data = false) :
    receive t p f c = setRxDropping t p f.vc (!f.tail) (creditBack t p f.vc f (noteCheck t c)) := by
  simp [receive, hz, hb, hh, hk]

theorem receive_event (hb : f.bad = false) (hh : f.head = true) (hk : checkOk f.data = true) (he : isEvent f.data = true)
    (hl : lateFlit c f.data = false) : receive t p f c = acceptFlit t p f c := by
  have hkind : (fKind f.data == 3) = false := by
    rw [beq_eq_false_iff_ne]
    intro h
    simp [isEvent, h] at he
  have hf : { f with poison := f.poison || !checkOk f.data } = f := by simp [hk]
  simp only [receive, hf]
  simp [hz, hb, hh, hk, hkind, hl, when_]

end

/-! ### The flit in its input buffer -/

/-- A flit as it comes to stand in the buffer of a router that has moved none. -/
def fresh (f : Flit) : Held := { flit := f, stamp := 0, copied := false }

/-- Router `t`, which held no flit, with `f` in input `p`. -/
def entered (t p : Nat) (f : Flit) (c : Chip) : Chip :=
  c |> setBuf t p f.vc [fresh f] |> modRouter t (fun R => { R with stamp := R.stamp + 1 })

section
variable {t p : Nat} {f : Flit} {c : Chip} (hr : router c t = {})
include hr

theorem acceptFlit_fresh : acceptFlit t p f c = serveAll t (entered t p f c) := by
  rw [acceptFlit, bufAt_of_empty (by rw [hr])]
  simp only [hr, List.nil_append]
  rfl

theorem router_entered : router (entered t p f c) t = { buf := [(8 * p + f.vc, [fresh f])], stamp := 1 } := by
  rw [entered, router_modRouter_same, setBuf, router_modRouter_same, hr]
  simp [setList, mapPut, mapErase, mapInsert]

theorem holdsOne_entered : HoldsOne t p f.vc (fresh f) (entered t p f c) := by
  rw [HoldsOne, router_entered hr]
  exact ⟨rfl, rfl⟩

theorem droppingOf_entered (q v : Nat) : droppingOf (entered t p f c) t q v = false := by
  rw [droppingOf, router_entered hr]
  rfl

theorem canSend_entered (v q : Nat) : canSend (entered t p f c) t p v q = true := by
  rw [canSend, creditOf, allocOf, router_entered hr]
  rfl

theorem creditOf_entered (q v : Nat) : creditOf (entered t p f c) t q v = 4 := by
  rw [creditOf, router_entered hr]
  rfl

end

/-! ### Where a unicast event goes (R255, R259) -/

section
variable {t p : Nat} {f : DWord} {c : Chip} (hc : fCast f = 0)
include hc

theorem eventSpan_unicast : eventSpan t p f = none := by simp [eventSpan, hc]

theorem copiesLeft_unicast : copiesLeft t p f false = 1 := by simp [copiesLeft, eventSpan_unicast hc, copies, hc]

variable (he : isEvent f = true)
include he

omit hc in
theorem not_columnSpan_of_event : columnSpan t p f = false := by
  have : (fKind f == 7) = false := by
    rw [beq_eq_false_iff_ne]
    intro h
    simp [isEvent, h] at he
  simp [columnSpan, this]

theorem hopOf_here (hx : fDx f = tileX t) (hy : fDy f = tileY t) (ht : leavesAtTap c t f = false) :
    hopOf c t p f none = some (.out 4) := by
  simp [hopOf, he, hc, not_columnSpan_of_event he, eventSpan_unicast hc, hx, hy, ht]

theorem hopOf_east (hx : tileX t < fDx f) (hs : rflag c (Reg.RTR_EPOCH t) (slotOf c t f) = false) :
    hopOf c t p f none = some (.out 2) := by
  have hne : fDx f ≠ tileX t := by omega
  simp [hopOf, he, hc, not_columnSpan_of_event he, eventSpan_unicast hc, hne, tableRoute, hs, hx]

end

/-! ### The flit's one move -/

/-- Router `t` once `f` has been in input `p` and has left it. -/
def emptied (t p : Nat) (f : Flit) (c : Chip) : Chip := creditBack t p f.vc f (setBuf t p f.vc [] (entered t p f c))

section
variable {t p : Nat} {f : Flit} {c : Chip}

@[simp] theorem reg_emptied (a : Nat) : reg (emptied t p f c) a = reg c a := reg_creditBack a

@[simp] theorem tile_emptied (u : Nat) : tile (emptied t p f c) u = tile c u := tile_creditBack u

@[simp] theorem wire_emptied (u q v : Nat) : wire (emptied t p f c) u q v = wire c u q v := wire_creditBack u q v

variable (hr : router c t = {})
include hr

theorem router_emptied : router (emptied t p f c) t = { stamp := 1 } := by
  rw [emptied, router_creditBack, setBuf, router_modRouter_same, router_entered hr]
  simp [setList, mapPut, mapErase]

theorem popBuf_entered : popBuf t p f.vc (entered t p f c) = emptied t p f c := popBuf_holdsOne (holdsOne_entered hr)

theorem quietRouter_emptied : QuietRouter t (emptied t p f c) := by
  rw [QuietRouter, router_emptied hr]
  exact ⟨rfl, rfl⟩

variable (hp : p < 6) (hv : f.vc < 6) (hh : f.head = true) (ht : f.tail = true)
include hp hv hh

/-- What the move of the only flit toward output `q` leaves is what the router leaves. -/
theorem acceptFlit_moves {q : Nat} {c' : Chip} (hq : hopOf (entered t p f c) t p f.data none = some (.out q))
    (hm : (if q = 4 then moveLocal (entered t p f c) t p f.vc (fresh f) else moveTo (entered t p f c) t p f.vc q (1 + q) (fresh f)) =
      some c') (hquiet : QuietRouter t c') : acceptFlit t p f c = c' := by
  have ho := holdsOne_entered (p := p) (f := f) hr
  rw [acceptFlit_fresh hr]
  exact serveAll_holdsOne ho hp hv ((moveOne_holdsOne ho (droppingOf_entered hr p f.vc) hh hq).trans hm) hquiet

include ht

theorem acceptFlit_local (hq : hopOf (entered t p f c) t p f.data none = some (.out 4)) (ho : outFenced c t 4 = false) (h2 : f.vc < 2) :
    acceptFlit t p f c = setPath t p f.vc 0 (deliver t p f (emptied t p f c)) := by
  have ho' : outFenced (entered t p f c) t 4 = false := ho
  refine acceptFlit_moves hr hp hv hh hq ?_ ?_
  · have hne : f.vc ≠ 2 := by omega
    simp [moveLocal, ho', hne, fresh, popBuf_entered hr, ht]
  · simp [quietRouter_emptied hr]

theorem acceptFlit_localFenced (hc : fCast f.data = 0) (hq : hopOf (entered t p f c) t p f.data none = some (.out 4))
    (ho : outFenced c t 4 = true) : acceptFlit t p f c = setDropping t p f.vc false (countDrop t .noRoute f.data 1 (emptied t p f c)) := by
  have ho' : outFenced (entered t p f c) t 4 = true := ho
  refine acceptFlit_moves hr hp hv hh hq ?_ ?_
  · simp [moveLocal, ho', dropHead, fresh, popBuf_entered hr, copiesLeft_unicast hc, ht]
  · simp [quietRouter_emptied hr]

theorem acceptFlit_east (hq : hopOf (entered t p f c) t p f.data none = some (.out 2)) (hpr : portPresent c t 2 = true)
    (ho : outFenced c t 2 = false) (hw : wdogFenced c t 2 = false) :
    acceptFlit t p f c = setPath t p f.vc 0 (setAlloc t 2 f.vc 0 (sendOut t 2 f (emptied t p f c))) := by
  have ho' : outFenced (entered t p f c) t 2 = false := ho
  have hw' : wdogFenced (entered t p f c) t 2 = false := hw
  have hpr' : portPresent (entered t p f c) t 2 = true := hpr
  refine acceptFlit_moves hr hp hv hh hq ?_ ?_
  · simp [moveTo, ho', hw', hpr', canSend_entered hr, forward, fresh, popBuf_entered hr, ht]
  · simp [quietRouter_emptied hr]

end

/-! ### The clauses of the statement -/

theorem RTR_STATUS_ne_FAULT (t : Nat) : Reg.RTR_STATUS t ≠ Reg.RTR_FAULT t := by simp [Reg.RTR_STATUS, Reg.RTR_FAULT]

theorem RTR_CRC_ERR_ne_FAULT (t : Nat) : Reg.RTR_CRC_ERR t ≠ Reg.RTR_FAULT t := by simp [Reg.RTR_CRC_ERR, Reg.RTR_FAULT]

theorem RTR_DROP_NOROUTE_ne_FAULT (t : Nat) : Reg.RTR_DROP_NOROUTE t ≠ Reg.RTR_FAULT t := by
  simp [Reg.RTR_DROP_NOROUTE, Reg.RTR_FAULT]

section
variable {t p v : Nat} {f : Flit} {rest : List Flit} {c : Chip} (hv : f.vc = v) (hp : p < 6)
  (hz : rflag c (Reg.RTR_STATUS t) (8 + p) = false)
include hz

include hv hp in
/-- A sideband parity error (R252): the port freezes, and the flit's credit is kept back. -/
theorem receive_bad_leaves (hr : router c t = {}) (hb : f.bad = true) :
    ∃ c', receive t p f (offWire t p v rest c) = c' ∧ wire c' t p v = rest ∧ rflag c' (Reg.RTR_STATUS t) (8 + p) = true ∧
      rflag c' (Reg.RTR_FAULT t) 2 = true ∧ (router c' t).buf = [] ∧ keptAt c' t p v = [f] ∧ c'.creditWires = c.creditWires ∧
      Frame [Reg.RTR_STATUS t, Reg.RTR_FAULT t] [] c { c' with wires := c.wires, routers := c.routers } := by
  have hr' : router (offWire t p v rest c) t = {} := hr
  have hfrozen : rflag (raise (Reg.RTR_FAULT t) 2 (raise (Reg.RTR_STATUS t) (8 + p) (offWire t p v rest c))) (Reg.RTR_STATUS t) (8 + p) =
      true := (rflag_congr (reg_raise_ne (RTR_STATUS_ne_FAULT t) ..)).trans (rflag_raise _ _ _ (by omega))
  refine ⟨_, receive_bad (c := offWire t p v rest c) hz hb, wire_offWire .., hfrozen, rflag_raise _ _ _ (by decide), ?_, ?_, rfl, ?_⟩
  · simp [keepCredit, hr', raise_eq]
  · have hnone : listOf (router (raise (Reg.RTR_FAULT t) 2 (raise (Reg.RTR_STATUS t) (8 + p) (offWire t p v rest c))) t).kept (8 * p + v) = [] := by
      rw [raise_eq, raise_eq, router_setReg, router_setReg, hr']
      rfl
    rw [keptAt, keepCredit, router_modRouter_same, hv, listOf_setList_same, hnone, List.nil_append]
  · exact frame_raise (c' := raise (Reg.RTR_STATUS t) (8 + p) c) _ _ (by simp) (frame_raise _ _ (by simp) (frame_refl ..))

variable (hb : f.bad = false) (hh : f.head = true) (ht : f.tail = true)
include hb hh

/-- A bad CHECK (R251): counted, and discarded. -/
theorem receive_badCheck_leaves (hk : checkOk f.data = false) :
    ∃ c', receive t p f (offWire t p v rest c) = c' ∧ wire c' t p v = rest ∧ Advanced (Reg.RTR_CRC_ERR t) 1 c c' ∧
      rflag c' (Reg.RTR_FAULT t) 1 = true ∧ (tile c' t).evq.arrived = (tile c t).evq.arrived := by
  refine ⟨_, receive_badCheck (c := offWire t p v rest c) hz hb hh hk, ?_, ?_, ?_, ?_⟩
  · exact (wire_creditBack ..).trans (wire_offWire ..)
  · refine advanced_congr (advanced_count (Reg.RTR_CRC_ERR t) 1 c) ((reg_creditBack _).trans ?_)
    exact reg_raise_ne (RTR_CRC_ERR_ne_FAULT t) ..
  · exact (rflag_congr (reg_creditBack _)).trans (rflag_raise _ _ _ (by decide))
  · exact congrArg (fun T => T.evq.arrived) (tile_creditBack t)

include ht
variable (hr : router c t = {}) (hk : checkOk f.data = true) (he : isEvent f.data = true) (hc : fCast f.data = 0)
  (hl : lateFlit c f.data = false) (h2 : v < 2)
include hv hp hr hk he hc hl h2

theorem receive_here_leaves (hx : fDx f.data = tileX t) (hy : fDy f.data = tileY t) (hta : leavesAtTap c t f.data = false)
    (ho : outFenced c t 4 = false) :
    ∃ c', receive t p f (offWire t p v rest c) = c' ∧ wire c' t p v = rest ∧
      (tile c' t).evq.arrived = (tile c t).evq.arrived ++ [f] := by
  have hvc : f.vc < 2 := hv.trans_lt h2
  refine ⟨_, (receive_event (c := offWire t p v rest c) hz hb hh hk he hl).trans
    (acceptFlit_local hr hp (by omega) hh ht (hopOf_here hc he hx hy hta) ho hvc), ?_, ?_⟩
  · exact (wire_deliver ..).trans ((wire_emptied ..).trans (wire_offWire ..))
  · exact (arrived_deliver hvc).trans (congrArg (fun T => T.evq.arrived ++ [f]) (tile_emptied t))

theorem receive_hereFenced_leaves (hx : fDx f.data = tileX t) (hy : fDy f.data = tileY t) (hta : leavesAtTap c t f.data = false)
    (ho : outFenced c t 4 = true) :
    ∃ c', receive t p f (offWire t p v rest c) = c' ∧ wire c' t p v = rest ∧ Advanced (Reg.RTR_DROP_NOROUTE t) 1 c c' ∧
      rflag c' (Reg.RTR_FAULT t) 3 = true ∧ (tile c' t).evq.arrived = (tile c t).evq.arrived := by
  refine ⟨_, (receive_event (c := offWire t p v rest c) hz hb hh hk he hl).trans
    (acceptFlit_localFenced hr hp (by omega) hh ht hc (hopOf_here hc he hx hy hta) ho), ?_, ?_, ?_, ?_⟩
  · exact (wire_countDrop ..).trans ((wire_emptied ..).trans (wire_offWire ..))
  · refine advanced_of_count (d := emptied t p f (offWire t p v rest c)) (reg_emptied _) ?_
    simp only [countDrop, he, if_true]
    exact reg_raise_ne (RTR_DROP_NOROUTE_ne_FAULT t) ..
  · simp only [countDrop, he, if_true]
    exact rflag_raise _ _ _ (by decide)
  · exact (arrived_countDrop ..).trans (congrArg (fun T => T.evq.arrived) (tile_emptied t))

theorem receive_east_leaves (hx : tileX t < fDx f.data) (hs : rflag c (Reg.RTR_EPOCH t) (slotOf c t f.data) = false)
    (hpr : portPresent c t 2 = true) (ho : outFenced c t 2 = false) (hw : wdogFenced c t 2 = false) :
    ∃ c', receive t p f (offWire t p v rest c) = c' ∧
      wire c' (neighbour t 2).1 (neighbour t 2).2 v =
        wire (offWire t p v rest c) (neighbour t 2).1 (neighbour t 2).2 v ++ [f] ∧
      creditOf c' t 2 v = 3 ∧ (tile c' t).evq.arrived = (tile c t).evq.arrived := by
  refine ⟨_, (receive_event (c := offWire t p v rest c) hz hb hh hk he hl).trans
    (acceptFlit_east hr hp (by omega) hh ht (hopOf_east hc he hx hs) hpr ho hw), ?_, ?_, ?_⟩
  · subst hv
    exact (wire_putWire_same ..).trans (congrArg (· ++ [f]) ((wire_countSeam ..).trans (wire_emptied ..)))
  · subst hv
    rw [creditOf_setPath, creditOf_setAlloc, creditOf_sendOut_same, creditOf, router_emptied (c := offWire t p f.vc rest c) hr]
    rfl
  · exact congrArg (fun T => T.evq.arrived) ((tile_sendOut ..).trans (tile_emptied t))

end

/-- FLIT_RX of router `t` at the flit `f` on its wire is the reception of `f`. -/
theorem completes_flitRx {t : Fin 8192} {p v : Fin 6} {s : State} {f : Flit} {rest : List Flit} {c' : Chip}
    (hd : domOn s.chip (fieldOf t) = true) (hw : wire s.chip t p v = f :: rest) (hr : router s.chip t = {})
    (hp : portPresent s.chip t p = true) (hs : seamPasses s.chip t p = true) (hi : rflag s.chip (Reg.RTR_CTRL t) 0 = false)
    (h : receive t p f (offWire t p v rest s.chip) = c') : Completes (.flitRx t p v) s c' :=
  completes_tile rfl hd ((flitRx_receives hw hr hp hs hi).trans h)

/-- Settles O22: a flit is received by a router that holds none, so what it does there is the one move of that flit. -/
theorem flitReception : Obligations.FlitReception := by
  unfold Obligations.FlitReception
  intro t p v s f rest hd hw hv hr hp hs hi hz
  have hrun {c' : Chip} := completes_flitRx (c' := c') hd hw hr hp hs hi
  refine ⟨fun hb => ?_, fun hb hh ht hk => ?_, fun hb hh ht hk he hc hl h2 => ⟨fun hx hy hta => ⟨fun ho => ?_, fun ho => ?_⟩,
    fun hx hslot hpr ho hwd => ?_⟩⟩
  · obtain ⟨c', h, hfacts⟩ := receive_bad_leaves (rest := rest) hv p.isLt hz hr hb
    exact ⟨c', hrun h, hfacts⟩
  · obtain ⟨c', h, hfacts⟩ := receive_badCheck_leaves (v := v) (rest := rest) hz hb hh hk
    exact ⟨c', hrun h, hfacts⟩
  · obtain ⟨c', h, hfacts⟩ := receive_here_leaves (rest := rest) hv p.isLt hz hb hh ht hr hk he hc hl h2 hx hy hta ho
    exact ⟨c', hrun h, hfacts⟩
  · obtain ⟨c', h, hfacts⟩ := receive_hereFenced_leaves (rest := rest) hv p.isLt hz hb hh ht hr hk he hc hl h2 hx hy hta ho
    exact ⟨c', hrun h, hfacts⟩
  · obtain ⟨c', h, hfacts⟩ := receive_east_leaves (rest := rest) hv p.isLt hz hb hh ht hr hk he hc hl h2 hx hslot hpr ho hwd
    exact ⟨c', hrun h, hfacts⟩

end Sys2Proof.Machine
end

section
/-!
SUPPORT. What the moves of a router's flits leave alone (R254, R257, R264): they change registers only in the router's fault bits, which
they raise, its counts of drops and its counts of flits, and they report nothing.
-/

namespace Sys2Proof.Machine

open Sys2Proof.Safety

/-- The registers of router `t` that the moves of its flits count in. -/
def MoveCounts (t a : Nat) : Prop :=
  a = Reg.RTR_DROP_LATE t ∨ a = Reg.RTR_DROP_PRUNE t ∨ a = Reg.RTR_DROP_NOROUTE t ∨ Reg.RTR_FLITS t 0 ≤ a

/-- What every move of a flit of router `t` leaves alone. -/
structure MoveKeeps (t : Nat) (c c' : Chip) : Prop where
  regs : ∀ a, a ≠ Reg.RTR_FAULT t → ¬ MoveCounts t a → reg c' a = reg c a
  fault : ∀ i, rflag c (Reg.RTR_FAULT t) i = true → rflag c' (Reg.RTR_FAULT t) i = true
  reports : c'.reports = c.reports
  seq : ∀ u, (tile c' u).seq = (tile c u).seq

theorem moveKeeps_refl (t : Nat) (c : Chip) : MoveKeeps t c c := ⟨fun _ _ _ => rfl, fun _ h => h, rfl, fun _ => rfl⟩

theorem not_moveCounts_fault (t : Nat) : ¬ MoveCounts t (Reg.RTR_FAULT t) := by
  simp only [MoveCounts, Reg.RTR_FAULT, Reg.RTR_DROP_LATE, Reg.RTR_DROP_PRUNE, Reg.RTR_DROP_NOROUTE, Reg.RTR_FLITS]
  omega

theorem moveCounts_flits (t q : Nat) : MoveCounts t (Reg.RTR_FLITS t q) := by
  simp only [MoveCounts, Reg.RTR_FLITS]
  omega

namespace MoveKeeps

variable {t : Nat} {c d : Chip} (h : MoveKeeps t c d)
include h

/-! ### The parts of a move -/

/-- An update that keeps registers, reports and sequencers. -/
theorem of_congr {e : Chip} (hr : ∀ a, reg e a = reg d a) (hp : e.reports = d.reports) (hs : ∀ u, (tile e u).seq = (tile d u).seq) :
    MoveKeeps t c e where
  regs a hf ha := (hr a).trans (h.regs a hf ha)
  fault i hi := (rflag_congr (hr _)).trans (h.fault i hi)
  reports := hp.trans h.reports
  seq u := (hs u).trans (h.seq u)

theorem modRouter (u : Nat) (f : Router → Router) : MoveKeeps t c (modRouter u f d) := h.of_congr (fun _ => rfl) rfl (fun _ => rfl)

theorem setBuf (p v : Nat) (l : List Held) : MoveKeeps t c (setBuf t p v l d) := h.modRouter ..

theorem setPath (p v n : Nat) : MoveKeeps t c (setPath t p v n d) := h.modRouter ..

theorem setAlloc (q v n : Nat) : MoveKeeps t c (setAlloc t q v n d) := h.modRouter ..

theorem setDropping (p v : Nat) (b : Bool) : MoveKeeps t c (setDropping t p v b d) := h.modRouter ..

theorem count {a : Nat} (ha : MoveCounts t a) (n : Nat) : MoveKeeps t c (count a n d) where
  regs b hf hb := (reg_count_ne (by rintro rfl; exact hb ha) n d).trans (h.regs b hf hb)
  fault i hi := (rflag_congr (reg_count_ne (by rintro rfl; exact not_moveCounts_fault t ha) n d)).trans (h.fault i hi)
  reports := h.reports
  seq := h.seq

theorem raise (i : Nat) (hi : i < 32) : MoveKeeps t c (raise (Reg.RTR_FAULT t) i d) where
  regs b hf hb := (reg_raise_ne hf i d).trans (h.regs b hf hb)
  fault j hj := rflag_raise_of_raised i hi (h.fault j hj)
  reports := h.reports
  seq := h.seq

theorem modTile (u : Nat) (f : Tile → Tile) (hf : ∀ T, (f T).seq = T.seq) : MoveKeeps t c (modTile u f d) := by
  refine h.of_congr (fun _ => rfl) rfl (fun x => ?_)
  by_cases hx : x = u
  · rw [hx, tile_modTile_same, hf]
  · rw [tile_modTile_ne _ _ hx]

theorem when {f : Chip → Chip} (b : Bool) (hf : MoveKeeps t c (f d)) : MoveKeeps t c (when_ b f d) := by
  cases b
  · exact h
  · exact hf

theorem creditBack (u p v : Nat) (f : Flit) : MoveKeeps t c (creditBack u p v f d) :=
  h.of_congr (fun _ => reg_creditBack _) (by unfold Machine.creditBack; split <;> rfl)
    (fun x => congrArg Tile.seq (tile_creditBack x))

theorem countSeam (q : Nat) : MoveKeeps t c (countSeam t q d) := by
  obtain ⟨m, hm⟩ := countSeam_eq t q d
  rw [hm]
  exact h.of_congr (fun _ => rfl) rfl (fun _ => rfl)

theorem popBuf (p v : Nat) : MoveKeeps t c (popBuf t p v d) := by
  unfold Machine.popBuf
  split
  · exact h
  · exact (h.modRouter ..).creditBack ..

theorem tally (p item n : Nat) : MoveKeeps t c (tally t p item n d) := h.modTile t _ (fun _ => rfl)

theorem countDrop (why : Drop) (f : DWord) (n : Nat) : MoveKeeps t c (countDrop t why f n d) := by
  have htally : MoveKeeps t c (if isEvent f then Machine.tally t (fParity f) 2 (if isEvent f then n else 0) d else d) := by
    split
    · exact h.tally ..
    · exact h
  cases why with
  | late => exact ((htally.count (.inl rfl) _).raise 5 (by decide)).tally ..
  | noRoute => exact (htally.count (.inr (.inr (.inl rfl))) _).raise 3 (by decide)
  | prune => exact htally.count (.inr (.inl rfl)) _

theorem dropHead (p v : Nat) (why : Drop) (x : Held) : MoveKeeps t c (dropHead t p v why x d) :=
  ((h.popBuf p v).countDrop why _ _).setDropping ..

theorem sendOut (q : Nat) (f : Flit) : MoveKeeps t c (sendOut t q f d) := by
  have hc : MoveKeeps t c (Machine.countSeam t q (Machine.count (Reg.RTR_FLITS t q) 1 (setCredit t q f.vc (creditOf d t q f.vc - 1) d))) :=
    ((h.modRouter ..).count (moveCounts_flits t q) 1).countSeam q
  unfold Machine.sendOut
  split <;> exact hc.of_congr (fun _ => rfl) rfl (fun _ => rfl)

theorem deliver (p : Nat) (f : Flit) : MoveKeeps t c (deliver t p f d) := by
  have hc := h.count (moveCounts_flits t 4) 1
  unfold Machine.deliver
  split <;> exact hc.modTile t _ (fun _ => rfl)

theorem stageFlit (p : Nat) (f : Flit) : MoveKeeps t c (stageFlit t p f d) :=
  (h.count (moveCounts_flits t 4) 1).modTile t _ (fun _ => rfl)

theorem forward (p v q path : Nat) (x : Held) : MoveKeeps t c (forward t p v q path x d) :=
  (((h.popBuf p v).sendOut q x.flit).setAlloc ..).setPath ..

end MoveKeeps

/-! ### The moves -/

section
variable {t p v : Nat} {c c' : Chip}

theorem moveKeeps_of_moveTo {q path : Nat} {x : Held} (h : moveTo c t p v q path x = some c') : MoveKeeps t c c' := by
  have hr := moveKeeps_refl t c
  unfold moveTo at h
  split at h
  · cases h; exact hr.dropHead ..
  · split at h
    · cases h; exact hr.dropHead ..
    · split at h
      · cases h; exact hr.forward ..
      · cases h

theorem moveKeeps_of_moveLocal {x : Held} (h : moveLocal c t p v x = some c') : MoveKeeps t c c' := by
  have hr := moveKeeps_refl t c
  unfold moveLocal at h
  split at h
  · cases h; exact hr.dropHead ..
  · split at h
    · cases h
    · cases h; exact ((hr.popBuf p v).deliver p x.flit).setPath ..

theorem moveKeeps_of_moveSpan {fwd : Option Nat} {x : Held} (h : moveSpan c t p v fwd x = some c') : MoveKeeps t c c' := by
  have hr := moveKeeps_refl t c
  unfold moveSpan at h
  split at h
  · have hd := hr.deliver p x.flit
    dsimp only at h
    split at h
    · cases h; exact hd.setBuf ..
    · cases h; exact hd
  · split at h
    · cases h; exact (hr.popBuf p v).setPath ..
    · split at h
      · cases h; exact ((hr.popBuf p v).countDrop _ _ _).setPath ..
      · split at h
        · cases h; exact hr.forward ..
        · cases h

/-- Every move of a head-of-line flit. -/
theorem moveKeeps_of_moveOne (h : moveOne c t p v = some c') : MoveKeeps t c c' := by
  have hr := moveKeeps_refl t c
  have hpop := hr.popBuf p v
  unfold moveOne at h
  split at h
  · cases h
  next x rest _ =>
    split at h
    · cases h; exact hpop.setDropping ..
    · split at h
      · split at h
        · cases h
        · cases h; exact hr.dropHead ..
        · split at h
          · exact moveKeeps_of_moveLocal h
          · exact moveKeeps_of_moveTo h
        · exact moveKeeps_of_moveSpan h
      · dsimp only at h
        split at h
        · cases h; exact hpop
        · split at h
          · cases h
            split
            · exact ((hpop.stageFlit p x.flit).setPath ..).when _ (((hpop.stageFlit p x.flit).setPath ..).setAlloc ..)
            · exact (hpop.deliver p x.flit).setPath ..
          · split at h
            · exact moveKeeps_of_moveSpan h
            · split at h
              · exact moveKeeps_of_moveSpan h
              · generalize (if 8 ≤ pathOf c t p v then pathOf c t p v - 8 else pathOf c t p v - 1) = q at h
                split at h
                · cases h
                  exact (hpop.setPath ..).when _ ((hpop.setPath ..).setAlloc ..)
                · split at h
                  · cases h; exact hr.forward ..
                  · cases h

/-- A combined collective that leaves (R275). -/
theorem moveKeeps_of_moveColl (h : moveColl c t = some c') : MoveKeeps t c c' := by
  have hr := moveKeeps_refl t c
  unfold moveColl at h
  split at h
  · cases h
  · dsimp only at h
    split at h
    · cases h; exact hr.modRouter ..
    · split at h
      · cases h; exact (hr.modRouter ..).sendOut ..
      · cases h

theorem moveKeeps_of_findSome {l : List (Nat × Nat)} (h : l.findSome? (fun b => moveOne c t b.1 b.2) = some c') : MoveKeeps t c c' := by
  obtain ⟨b, -, hb⟩ := List.exists_of_findSome?_eq_some h
  exact moveKeeps_of_moveOne hb

theorem moveKeeps_of_nextMove (h : nextMove c t = some c') : MoveKeeps t c c' := by
  unfold nextMove at h
  dsimp only at h
  split at h
  · next d hd => cases h; exact moveKeeps_of_findSome hd
  · split at h
    · next d hd => cases h; exact moveKeeps_of_moveColl hd
    · exact moveKeeps_of_findSome h

end

theorem moveKeeps_trans {t : Nat} {c d e : Chip} (h : MoveKeeps t c d) (h' : MoveKeeps t d e) : MoveKeeps t c e where
  regs a hf ha := (h'.regs a hf ha).trans (h.regs a hf ha)
  fault i hi := h'.fault i (h.fault i hi)
  reports := h'.reports.trans h.reports
  seq u := (h'.seq u).trans (h.seq u)

theorem moveKeeps_serve (t n : Nat) (c : Chip) : MoveKeeps t c (serve t n c) := by
  induction n generalizing c with
  | zero => exact moveKeeps_refl t c
  | succ n ih =>
    rw [serve]
    split
    · next d hd => exact moveKeeps_trans (moveKeeps_of_nextMove hd) (ih d)
    · exact moveKeeps_refl t c

/-- Whatever a router's flits do when they are served. -/
theorem moveKeeps_serveAll (t : Nat) (c : Chip) : MoveKeeps t c (serveAll t c) := moveKeeps_serve t 400 c

end Sys2Proof.Machine
end

section
/-!
PROOFS. Credits, the watchdog, output fences and route tables (R254, R264, R265, R269, R271).
-/

namespace Sys2Proof.Machine

open Sys2Proof.Safety

/-! ### Credits (R254) -/

theorem creditReturn_leaves {t q v : Nat} {c : Chip} {f : Flit} {rest : List Flit} (hq : QuietRouter t c)
    (hw : listOf c.creditWires (wireKey t q v) = f :: rest) :
    ∃ c', creditReturn t q v c = c' ∧
      creditOf c' t q v = (if wdogFenced c t q then creditOf c t q v else min 4 (creditOf c t q v + 1)) ∧
      listOf c'.creditWires (wireKey t q v) = rest ∧
      Frame [] [] c { c' with creditWires := c.creditWires, routers := c.routers } := by
  let taken : Chip := { c with creditWires := setList (wireKey t q v) rest c.creditWires }
  have hcase : creditReturn t q v c =
      if wdogFenced c t q then taken else serveAll t (setCredit t q v (min 4 (creditOf c t q v + 1)) taken) := by
    simp only [creditReturn, hw]
    rfl
  have hquiet : QuietRouter t (setCredit t q v (min 4 (creditOf c t q v + 1)) taken) := (quietRouter_setCredit _).2 hq
  rw [serveAll_of_quiet hquiet] at hcase
  refine ⟨_, hcase, ?_, ?_, ?_⟩ <;> split
  · rfl
  · rw [creditOf_setCredit, if_pos rfl]
  · exact listOf_setList_same ..
  · exact listOf_setList_same ..
  · exact frame_refl ..
  · exact frame_refl ..

/-! ### What a head flit waits for does not turn on RTR_WAIT_MAX -/

section
variable {t : Nat} {w : Word} {c : Chip}

theorem tableRoute_setReg_waitMax (f : DWord) : tableRoute (setReg (Reg.RTR_WAIT_MAX t) w c) t f = tableRoute c t f := by
  have hepoch : Reg.RTR_EPOCH t ≠ Reg.RTR_WAIT_MAX t := by simp [Reg.RTR_EPOCH, Reg.RTR_WAIT_MAX]
  have hxt (s k : Nat) : Reg.RTR_XT t s k ≠ Reg.RTR_WAIT_MAX t := by simp only [Reg.RTR_XT, Reg.RTR_WAIT_MAX]; omega
  have hyt (s k : Nat) : Reg.RTR_YT t s k ≠ Reg.RTR_WAIT_MAX t := by simp only [Reg.RTR_YT, Reg.RTR_WAIT_MAX]; omega
  simp only [tableRoute, slotOf, xtAt, ytAt, rflag_setReg, rfld_setReg, hepoch, hxt, hyt, if_false]
  rfl

theorem leavesAtTap_setReg_waitMax (f : DWord) : leavesAtTap (setReg (Reg.RTR_WAIT_MAX t) w c) t f = leavesAtTap c t f := by
  have hcfg : Reg.RTR_TAP_CFG t ≠ Reg.RTR_WAIT_MAX t := by simp [Reg.RTR_TAP_CFG, Reg.RTR_WAIT_MAX]
  simp only [leavesAtTap, rfld_setReg, hcfg, if_false]
  rfl

theorem hopOf_setReg_waitMax (p : Nat) (f : DWord) (next : Option DWord) :
    hopOf (setReg (Reg.RTR_WAIT_MAX t) w c) t p f next = hopOf c t p f next := by
  simp only [hopOf, tableRoute_setReg_waitMax, leavesAtTap_setReg_waitMax]
  rfl

theorem wantsOutput_setReg_waitMax (p v : Nat) : wantsOutput (setReg (Reg.RTR_WAIT_MAX t) w c) t p v = wantsOutput c t p v := by
  simp only [wantsOutput, hopOf_setReg_waitMax]
  rfl

theorem waitingFor_peak (n q : Nat) : waitingFor (peak (Reg.RTR_WAIT_MAX t) n c) t q = waitingFor c t q := by
  unfold peak
  split
  · simp only [waitingFor, putNum_eq, wantsOutput_setReg_waitMax]
    rfl
  · rfl

theorem jobStep_peak_waitMax (n j : Nat) : jobStep (peak (Reg.RTR_WAIT_MAX t) n c) j = jobStep c j := by
  have hlo (k : Nat) : Reg.TICK_TB_NOW_LO k ≠ Reg.RTR_WAIT_MAX t := by simp only [Reg.TICK_TB_NOW_LO, Reg.RTR_WAIT_MAX]; omega
  have hhi (k : Nat) : Reg.TICK_TB_NOW_HI k ≠ Reg.RTR_WAIT_MAX t := by simp only [Reg.TICK_TB_NOW_HI, Reg.RTR_WAIT_MAX]; omega
  unfold peak
  split
  · simp only [jobStep, putNum_eq, tickNow_setReg (hlo _) (hhi _)]
    rfl
  · rfl

theorem jobOfTile_peak (a n : Nat) : jobOfTile (peak a n c) t = jobOfTile c t := by
  unfold peak; split <;> rfl

theorem reports_peak (a n : Nat) : (peak a n c).reports = c.reports := by
  unfold peak; split <;> rfl

theorem consumer_peak_waitMax (n p : Nat) : consumer (peak (Reg.RTR_WAIT_MAX t) n c) t p = consumer c t p := by
  have hstep : tileStep (peak (Reg.RTR_WAIT_MAX t) n c) t = tileStep c t := by
    rw [tileStep, tileStep, jobOfTile_peak]
    cases jobOfTile c t with
    | none => rfl
    | some j => exact jobStep_peak_waitMax n j
  rw [consumer, consumer, hstep]

theorem wdogLimit_peak_waitMax (n : Nat) : wdogLimit (peak (Reg.RTR_WAIT_MAX t) n c) t = wdogLimit c t := by
  have hne : Reg.RTR_WDOG_CFG t ≠ Reg.RTR_WAIT_MAX t := by simp [Reg.RTR_WDOG_CFG, Reg.RTR_WAIT_MAX]
  rw [wdogLimit, wdogLimit, rfld_congr (reg_peak_ne hne n c)]

end

/-! ### The report of a fence (R264, R346) -/

theorem reports_reportsFor {t j cause : Nat} (ps : List Nat) (c : Chip) (hj : jobOfTile c t = some j) :
    (forAll (fun p => reportFor t p cause) ps c).reports =
      c.reports ++ ps.map (fun p => { job := j, step := consumer c t p, cause := cause, tile := t, checker := t }) := by
  induction ps generalizing c with
  | nil => simp
  | cons p ps ih =>
    have hone : reportFor t p cause c = reportJob j (consumer c t p) cause t t c := by simp only [reportFor, hj]
    rw [forAll_cons, hone, ih (reportJob j (consumer c t p) cause t t c) hj, List.map_cons, reportJob]
    simp only [List.append_assoc, List.cons_append, List.nil_append]
    rfl

/-- The steps that a fence of output `q` fails: those that consume the events it prunes, else the step in progress. -/
theorem reports_reportPrune {t q j : Nat} {c : Chip} (hj : jobOfTile c t = some j) :
    ∃ l, (reportPrune t q c).reports = c.reports ++ l ∧ (∀ r, r ∈ l → r.job = j ∧ r.cause = 6 ∧ r.tile = t) ∧
      ((waitingFor c t q).filter isEvent = [] → l.map (fun r => r.step) = [jobStep c j]) ∧
      ((waitingFor c t q).filter isEvent ≠ [] → ∀ n, n ∈ l.map (fun r => r.step) ↔
        ∃ f, f ∈ (waitingFor c t q).filter isEvent ∧ n = consumer c t (fParity f)) := by
  unfold reportPrune
  generalize (waitingFor c t q).filter isEvent = events
  split
  · next hnone =>
    have hempty : events = [] := by simpa using hnone
    refine ⟨_, reports_reportTile hj, ?_, fun _ => rfl, fun h => absurd hempty h⟩
    simp
  · next hsome =>
    have hne : events ≠ [] := by
      rintro rfl
      exact hsome rfl
    refine ⟨_, reports_reportsFor _ c hj, ?_, fun h => absurd h hne, fun _ n => ?_⟩
    · simp
    · simp [eq_comm]

/-! ### The watchdog (R264) -/

/-- A head flit or a combined collective of router `t` waits for VC `v` of output `q`, which has no credit. -/
def WaitsForCredit (t q v : Nat) (c : Chip) : Prop :=
  creditOf c t q v = 0 ∧ ((List.range 6).any (fun p => wantsOutput c t p v == some q) = true ∨
    (v = 5 ∧ (router c t).collOut.any (fun o => o.2.1 == q) = true))

/-- The output fenced, with its bits, before the router moves on. -/
def outputFenced (t q : Nat) (c : Chip) : Chip :=
  c |> setBit (Reg.RTR_CTRL t) (8 + q) true |> setBit (Reg.RTR_STATUS t) q true |> raise (Reg.RTR_FAULT t) 0

section
variable {t q v waited : Nat} {c : Chip} (hw : WaitsForCredit t q v c)
include hw

theorem routerWatchdog_below (h : waited < wdogLimit c t) : routerWatchdog t q v waited c = peak (Reg.RTR_WAIT_MAX t) (min 65535 waited) c := by
  have hbelow : ¬ wdogLimit (peak (Reg.RTR_WAIT_MAX t) (min 65535 waited) c) t ≤ waited := by
    rw [wdogLimit_peak_waitMax]; omega
  exact (if_pos hw).trans (if_neg hbelow)

theorem routerWatchdog_fences (h : wdogLimit c t ≤ waited) :
    routerWatchdog t q v waited c =
      serveAll t (outputFenced t q (reportPrune t q (peak (Reg.RTR_WAIT_MAX t) (min 65535 waited) c))) := by
  have hlimit : wdogLimit (peak (Reg.RTR_WAIT_MAX t) (min 65535 waited) c) t ≤ waited := by rwa [wdogLimit_peak_waitMax]
  exact (if_pos hw).trans (if_pos hlimit)

end

theorem outputFenced_fences {t q : Nat} (hq : q < 6) (c : Chip) :
    outFenced (outputFenced t q c) t q = true ∧ wdogFenced (outputFenced t q c) t q = true ∧
      rflag (outputFenced t q c) (Reg.RTR_FAULT t) 0 = true ∧ (outputFenced t q c).reports = c.reports := by
  have hcs : Reg.RTR_CTRL t ≠ Reg.RTR_STATUS t := by simp [Reg.RTR_CTRL, Reg.RTR_STATUS]
  have hcf : Reg.RTR_CTRL t ≠ Reg.RTR_FAULT t := by simp [Reg.RTR_CTRL, Reg.RTR_FAULT]
  refine ⟨?_, ?_, rflag_raise _ _ _ (by decide), rfl⟩
  · rw [outFenced, outputFenced, rflag_congr (reg_raise_ne hcf ..), rflag_congr (reg_setBit_ne hcs ..),
      rflag_setBit_same _ (by omega)]
  · rw [wdogFenced, outputFenced, rflag_congr (reg_raise_ne (RTR_STATUS_ne_FAULT t) ..), rflag_setBit_same _ (by omega)]

/-- What a served router keeps of its fences. -/
theorem fences_serveAll (t q : Nat) (c : Chip) :
    outFenced (serveAll t c) t q = outFenced c t q ∧ wdogFenced (serveAll t c) t q = wdogFenced c t q := by
  have hk := moveKeeps_serveAll t c
  have hctrl : Reg.RTR_CTRL t ≠ Reg.RTR_FAULT t := by simp [Reg.RTR_CTRL, Reg.RTR_FAULT]
  have hctrl' : ¬ MoveCounts t (Reg.RTR_CTRL t) := by
    simp only [MoveCounts, Reg.RTR_CTRL, Reg.RTR_DROP_LATE, Reg.RTR_DROP_PRUNE, Reg.RTR_DROP_NOROUTE, Reg.RTR_FLITS]
    omega
  have hstat : ¬ MoveCounts t (Reg.RTR_STATUS t) := by
    simp only [MoveCounts, Reg.RTR_STATUS, Reg.RTR_DROP_LATE, Reg.RTR_DROP_PRUNE, Reg.RTR_DROP_NOROUTE, Reg.RTR_FLITS]
    omega
  exact ⟨rflag_congr (hk.regs _ hctrl hctrl'), rflag_congr (hk.regs _ (RTR_STATUS_ne_FAULT t) hstat)⟩

theorem watchdog_waits {t q v waited : Nat} {c : Chip} (hw : WaitsForCredit t q v c) (h : waited < wdogLimit c t) :
    ∃ c', routerWatchdog t q v waited c = c' ∧
      (reg c' (Reg.RTR_WAIT_MAX t)).toNat = max (reg c (Reg.RTR_WAIT_MAX t)).toNat (min 65535 waited) ∧
      Frame [Reg.RTR_WAIT_MAX t] [] c c' :=
  ⟨_, routerWatchdog_below hw h, reg_peak_same _ (by omega) c, frame_peak _ _ (by simp) (frame_refl ..)⟩

theorem watchdog_fences {t q v waited : Nat} {c : Chip} (hq : q < 6) (hw : WaitsForCredit t q v c) (h : wdogLimit c t ≤ waited) :
    ∃ c', routerWatchdog t q v waited c = c' ∧ outFenced c' t q = true ∧ wdogFenced c' t q = true ∧
      rflag c' (Reg.RTR_FAULT t) 0 = true ∧
      let events := (waitingFor c t q).filter isEvent
      ∀ j, jobOfTile c t = some j → ∃ l, c'.reports = c.reports ++ l ∧
        (∀ r, r ∈ l → r.job = j ∧ r.cause = 6 ∧ r.tile = t) ∧
        (events = [] → l.map (fun r => r.step) = [jobStep c j]) ∧
        (events ≠ [] → ∀ n, n ∈ l.map (fun r => r.step) ↔ ∃ f, f ∈ events ∧ n = consumer c t (fParity f)) := by
  obtain ⟨hout, hwdog, hfault, hreports⟩ :=
    outputFenced_fences (t := t) hq (reportPrune t q (peak (Reg.RTR_WAIT_MAX t) (min 65535 waited) c))
  obtain ⟨hout', hwdog'⟩ := fences_serveAll t q (outputFenced t q (reportPrune t q (peak (Reg.RTR_WAIT_MAX t) (min 65535 waited) c)))
  have hk := moveKeeps_serveAll t (outputFenced t q (reportPrune t q (peak (Reg.RTR_WAIT_MAX t) (min 65535 waited) c)))
  refine ⟨_, routerWatchdog_fences hw h, hout'.trans hout, hwdog'.trans hwdog, hk.fault 0 hfault, fun j hj => ?_⟩
  obtain ⟨l, hl, hall, hnone, hsome⟩ := reports_reportPrune (q := q) ((jobOfTile_peak (Reg.RTR_WAIT_MAX t) (min 65535 waited)).trans hj)
  rw [waitingFor_peak] at hnone hsome
  rw [jobStep_peak_waitMax] at hnone
  simp only [consumer_peak_waitMax] at hsome
  exact ⟨l, by rw [hk.reports, hreports, hl, reports_peak], hall, hnone, hsome⟩

/-! ### A fence cleared (R265) -/

theorem outFenceClear_leaves {t q : Nat} {c : Chip} (hq : q < 6) (hr : QuietRouter t c) (ho : outFenced c t q = true) :
    ∃ c', outFenceClear t q c = c' ∧ outFenced c' t q = false ∧ wdogFenced c' t q = false ∧ ∀ w, w < 6 → creditOf c' t q w = 4 := by
  let cleared : Chip := setBit (Reg.RTR_STATUS t) q false (setBit (Reg.RTR_CTRL t) (8 + q) false c)
  have hquiet : QuietRouter t (forAll (fun v c => setCredit t q v 4 c) (List.range 6) cleared) :=
    forAll_keeps (P := QuietRouter t) _ (fun _ _ _ h => (quietRouter_setCredit _).2 h) _ hr
  have hregs (a : Nat) : reg (forAll (fun v c => setCredit t q v 4 c) (List.range 6) cleared) a = reg cleared a :=
    reg_forAll (f := fun v c => setCredit t q v 4 c) _ (fun _ _ _ => rfl) _
  have hcs : Reg.RTR_CTRL t ≠ Reg.RTR_STATUS t := by simp [Reg.RTR_CTRL, Reg.RTR_STATUS]
  have hclear : outFenceClear t q c = forAll (fun v c => setCredit t q v 4 c) (List.range 6) cleared := by
    rw [outFenceClear, if_pos ho]
    exact serveAll_of_quiet hquiet
  refine ⟨_, hclear, (rflag_congr (hregs _)).trans ?_, (rflag_congr (hregs _)).trans ?_, fun w hw => ?_⟩
  · rw [rflag_congr (reg_setBit_ne hcs ..), rflag_setBit_same _ (by omega)]
  · exact rflag_setBit_same _ (by omega) ..
  · refine forAll_reaches (I := fun _ => True) (P := fun v c => creditOf c t q v = 4) (fun _ _ h => h) (fun v c _ => ?_) (fun v w c h => ?_)
      (List.range 6) cleared trivial w (List.mem_range.2 hw)
    · rw [creditOf_setCredit, if_pos rfl]
    · rw [creditOf_setCredit, h, ite_self]

/-! ### Route tables (R269) -/

section
variable {t o : Nat} {w : Word} {c : Chip} (ho : isTableWord o = true)
include ho

theorem routeTableWrite_free (h : slotBusy c t (if o < 0x180 then 0 else 1) = false) :
    routeTableWrite t o w c = setReg (win t + 0x84000 + o) w c := by simp [routeTableWrite, ho, h]

theorem routeTableWrite_busy (h : slotBusy c t (if o < 0x180 then 0 else 1) = true) :
    routeTableWrite t o w c = raise (Reg.RTR_FAULT t) 4 c := by simp [routeTableWrite, ho, h]

end

/-- Settles O23: router by router, with a fence kept by whatever the served router then moves (`moveKeeps_serveAll`). -/
theorem creditsFencesAndTables : Obligations.CreditsFencesAndTables := by
  unfold Obligations.CreditsFencesAndTables
  intro t q v s hd
  refine ⟨fun f rest hb hc hw => ?_, fun waited hz hwait => ⟨fun h => ?_, fun h => ?_⟩, fun hb hc ho => ?_, fun o w ho => ⟨fun h => ?_, fun h => ?_⟩, ?_⟩
  · obtain ⟨c', h, hfacts⟩ := creditReturn_leaves ⟨hb, hc⟩ hw
    exact ⟨c', completes_tile rfl hd h, hfacts⟩
  · obtain ⟨c', h', hfacts⟩ := watchdog_waits ⟨hz, hwait⟩ h
    exact ⟨c', completes_tile rfl hd h', hfacts⟩
  · obtain ⟨c', h', hfacts⟩ := watchdog_fences q.isLt ⟨hz, hwait⟩ h
    exact ⟨c', completes_tile rfl hd h', hfacts⟩
  · obtain ⟨c', h, hfacts⟩ := outFenceClear_leaves q.isLt ⟨hb, hc⟩ ho
    exact ⟨c', completes_tile rfl hd h, hfacts⟩
  · exact ⟨_, completes_tile rfl hd (routeTableWrite_free ho h), reg_setReg_same .., frame_setReg _ _ (by simp) (frame_refl ..)⟩
  · exact ⟨_, completes_tile rfl hd (routeTableWrite_busy ho h), rflag_raise _ _ _ (by decide), frame_raise _ _ (by simp) (frame_refl ..)⟩
  · exact ⟨_, completes_tile rfl hd rfl, reg_setBit_same .., frame_setBit _ _ _ (by simp) (frame_refl ..)⟩

end Sys2Proof.Machine
end

section
/-!
PROOFS. Settles O39: the words of the integrity block that a tile's schedule ends with: the operand stream's digests (R343), their
comparison (R344) and the tile's counts for the step census (R275 to R278).
-/

namespace Sys2Proof.Machine

open Sys2Proof.Safety

/-! ### A settle word whose gate is open -/

theorem settleWord_open {t op : Nat} {f : Chip → Chip} {c : Chip} (hw : atWord c t op = true) (he : endReached c t = true) :
    settleWord t op f c = f c := (if_pos hw).trans (if_pos he)

/-! ### SAMPLE_CHECK -/

/-- The chip with `n` free values taken. -/
def withFree (n : Nat) (c : Chip) : Chip := { c with free := n }

theorem withFree_fetchCe (t n : Nat) (c : Chip) : withFree n (fetchCe t c) = fetchCe t (withFree n c) := by
  unfold fetchCe when_
  split
  · rw [if_pos ‹_›]; rfl
  · rw [if_neg ‹_›]

theorem withFree_nextWord (t n : Nat) (c : Chip) : withFree n (nextWord t c) = nextWord t (withFree n c) := by
  rw [nextWord, nextWord, ← withFree_fetchCe]
  rfl

/-- The pair of digests that SAMPLE_CHECK forms from the free values `a` and `b` (R343). -/
def peerDigest (agree : Bool) (a b : Word) : Word := if agree then a else if b = a then b + 1#32 else b

theorem eq_peerDigest_iff (agree : Bool) (a b : Word) : a = peerDigest agree a b ↔ agree = true := by
  have hnext : a ≠ a + 1#32 := by bv_omega
  unfold peerDigest
  cases agree with
  | true => simp
  | false =>
    by_cases h : b = a
    · simp [h, hnext]
    · simp [h, Ne.symm h]

/-- The chip with tile `t`'s stream closed on the digests formed of its next two free values. -/
def streamClosed (t : Nat) (agree : Bool) (c : Chip) : Chip :=
  c |> modTile t (fun T => { T with chk := { T.chk with
          digest := Config.freeWord c.free, peer := peerDigest agree (Config.freeWord c.free) (Config.freeWord (c.free + 1)) } })
    |> modTile t (fun T => { T with seq := { T.seq with sampleClosed := true } })

section
variable (t : Nat) (agree : Bool) (c : Chip)

theorem tile_streamClosed : tile (streamClosed t agree c) t = { tile c t with
    chk := { (tile c t).chk with
      digest := Config.freeWord c.free, peer := peerDigest agree (Config.freeWord c.free) (Config.freeWord (c.free + 1)) }
    seq := { (tile c t).seq with sampleClosed := true } } := by
  simp [streamClosed]

theorem chk_nextWord : (tile (nextWord t c) t).chk = (tile c t).chk := by simp [nextWord, tile_fetchCe]

theorem frame_streamClosed (as : List Nat) : Frame as [t] c (streamClosed t agree c) :=
  frame_modTile _ _ (by simp) (frame_modTile _ _ (by simp) (frame_refl ..))

end

theorem sampleCheckWord_closes {t : Nat} {agree : Bool} {c : Chip} (hw : atWord c t 0x0B = true) (he : endReached c t = true)
    (hs : (tile c t).chk.sampled = true) (hc : (tile c t).chk.checked = true) (ho : (tile c t).seq.sampleClosed = false) :
    sampleCheckWord t agree c = nextWord t (withFree (c.free + 2) (streamClosed t agree c)) := by
  rw [sampleCheckWord, settleWord_open hw he]
  simp only [hs, hc, ho, Bool.not_false, Bool.and_self, when_, if_true]
  rfl

/-- The free values aside, SAMPLE_CHECK changes the tile and its count of corrected fetches. -/
theorem frame_sampleCheckWord (t n : Nat) (agree : Bool) (c : Chip) :
    Frame [Reg.TILE_SRAM_CE t] [t] c (withFree c.free (nextWord t (withFree n (streamClosed t agree c)))) := by
  rw [withFree_nextWord]
  exact frame_trans (frame_streamClosed t agree c _) (nextWord_moves t _ (by simp) (by simp)).2

/-! ### DIGEST -/

/-- Whether the digests of a sampled tile differ. -/
def digestsDiffer (c : Chip) (t : Nat) : Bool := (tile c t).chk.digest != (tile c t).chk.peer

/-- The chip after the digests are shown and the comparison is counted (R344). -/
def comparisonCounted (t : Nat) (c : Chip) : Chip :=
  c |> setReg (Reg.CHK_T_DIGEST t) (tile c t).chk.digest |> setReg (Reg.CHK_T_PEER t) (tile c t).chk.peer
    |> count (Reg.CHK_T_COMPARES t) 1

/-- The chip after the comparison's result is shown. -/
def comparisonResult (t : Nat) (c : Chip) : Chip :=
  setBit (Reg.CHK_T_STATUS t) 28 (digestsDiffer c t) (chkCount 0 (comparisonCounted t c))

/-- The chip after the comparison is shown with its step. -/
def comparisonShown (t : Nat) (c : Chip) : Chip :=
  setFld (Reg.CHK_T_STATUS t) 15 0 (tileStep c t % 65536) (comparisonResult t c)

/-- The count and the report of a mismatch (R344). -/
def mismatchReported (t : Nat) (c : Chip) : Chip :=
  let c := count (Reg.CHK_T_MISMATCH t) 1 c
  match jobOfTile c t with
  | some j => reportJob j (jobStep c j) 0 t (checkerTile c t) c
  | none => c

theorem compareDigests_eq (t : Nat) (c : Chip) :
    compareDigests t c = when_ (digestsDiffer c t) (mismatchReported t) (comparisonShown t c) := rfl

theorem frame_chkCount {as ts : List Nat} {n : Nat} {c c' : Chip} (hn : Reg.CHK_CNT n ∈ as) (hi : Reg.CHK_IRQ_STATUS ∈ as)
    (h : Frame as ts c c') : Frame as ts c (chkCount n c') := by
  unfold chkCount
  dsimp only
  split
  · exact frame_raise _ _ hi (frame_count _ _ hn h)
  · exact frame_count _ _ hn h

/-- The registers that show a comparison's digests and count. -/
def digestRegs (t : Nat) : List Nat := [Reg.CHK_T_DIGEST t, Reg.CHK_T_PEER t, Reg.CHK_T_COMPARES t]

/-- The registers that a counted comparison changes besides. -/
def resultRegs (t : Nat) : List Nat := [Reg.CHK_CNT 0, Reg.CHK_IRQ_STATUS, Reg.CHK_T_STATUS t]

section
variable (t : Nat) (c : Chip)

theorem frame_comparisonCounted : Frame (digestRegs t) [] c (comparisonCounted t c) := by
  refine frame_count _ _ ?_ (frame_setReg _ _ ?_ (frame_setReg _ _ ?_ (frame_refl ..))) <;> simp [digestRegs]

theorem frame_comparisonShown : Frame (resultRegs t) [] (comparisonCounted t c) (comparisonShown t c) := by
  refine frame_setFld _ _ _ _ ?_ (frame_setBit _ _ _ ?_ (frame_chkCount ?_ ?_ (frame_refl ..))) <;> simp [resultRegs]

theorem frameButReports_mismatchReported : FrameButReports [Reg.CHK_T_MISMATCH t] [] c (mismatchReported t c) := by
  have hcount : Frame [Reg.CHK_T_MISMATCH t] [] c (count (Reg.CHK_T_MISMATCH t) 1 c) := frame_count _ _ (by simp) (frame_refl ..)
  unfold mismatchReported
  dsimp only
  split <;> exact hcount

theorem reg_mismatchReported (a : Nat) : reg (mismatchReported t c) a = reg (count (Reg.CHK_T_MISMATCH t) 1 c) a := by
  unfold mismatchReported
  dsimp only
  split <;> rfl

theorem frame_toComparisonShown : Frame (digestRegs t ++ resultRegs t) [] c (comparisonShown t c) :=
  frame_trans (frame_mono (by simp +contextual) (by simp) (frame_comparisonCounted t c))
    (frame_mono (by simp +contextual) (by simp) (frame_comparisonShown t c))

theorem frameButReports_compareDigests :
    FrameButReports (Reg.CHK_T_MISMATCH t :: (digestRegs t ++ resultRegs t)) [] c (compareDigests t c) := by
  have hshown : FrameButReports (Reg.CHK_T_MISMATCH t :: (digestRegs t ++ resultRegs t)) [] c (comparisonShown t c) :=
    frameButReports_of_frame (frame_mono (by simp +contextual) (by simp) (frame_toComparisonShown t c))
  rw [compareDigests_eq]
  unfold when_
  split
  · exact frameButReports_trans hshown
      (frameButReports_mono (by simp +contextual) (by simp) (frameButReports_mismatchReported t _))
  · exact hshown

end

section
variable {t : Nat} {c : Chip} (ht : t < 8192)

/-! ### What a comparison shows -/

theorem differs_comparisonShown : rflag (comparisonShown t c) (Reg.CHK_T_STATUS t) 28 = digestsDiffer c t := by
  rw [comparisonShown, rflag, setFld, reg_setReg_same, flag_putFld_apart _ _ _ _ _ (by decide) (by decide) (by decide)]
  exact rflag_setBit_same _ (by decide) _ _

include ht

/-- The digests and counts stay under the words that follow. -/
theorem digestRegs_stay : ∀ a ∈ digestRegs t, a ∉ resultRegs t ∧ a ≠ Reg.CHK_T_MISMATCH t ∧ a ≠ Reg.TILE_SRAM_CE t := by
  simp [digestRegs, resultRegs, Reg.CHK_T_DIGEST, Reg.CHK_T_PEER, Reg.CHK_T_COMPARES, Reg.CHK_T_MISMATCH, Reg.CHK_T_STATUS,
    Reg.CHK_CNT, Reg.CHK_IRQ_STATUS, Reg.TILE_SRAM_CE]
  omega

/-- What a counted comparison shows stands until the next word. -/
theorem reg_compareDigests {a : Nat} (ha : a ∈ digestRegs t) :
    reg (nextWord t (compareDigests t c)) a = reg (comparisonCounted t c) a := by
  obtain ⟨hresult, hmis, hce⟩ := digestRegs_stay ht a ha
  rw [reg_nextWord_ne hce, compareDigests_eq, ← (frame_comparisonShown t c).1 a hresult]
  unfold when_
  split
  · exact reg_of_frameButReports (frameButReports_mismatchReported t _) (by simpa using hmis)
  · rfl

theorem mismatch_ne : Reg.CHK_T_MISMATCH t ∉ digestRegs t ++ resultRegs t ∧ Reg.CHK_T_MISMATCH t ≠ Reg.TILE_SRAM_CE t ∧
    Reg.CHK_T_STATUS t ≠ Reg.CHK_T_MISMATCH t ∧ Reg.CHK_T_STATUS t ≠ Reg.TILE_SRAM_CE t := by
  simp [digestRegs, resultRegs, Reg.CHK_T_DIGEST, Reg.CHK_T_PEER, Reg.CHK_T_COMPARES, Reg.CHK_T_MISMATCH, Reg.CHK_T_STATUS,
    Reg.CHK_CNT, Reg.CHK_IRQ_STATUS, Reg.TILE_SRAM_CE]
  omega

end

/-- No register of a comparison is TICK_NOW. -/
theorem tickNow_comparison (t : Nat) {k : Nat} (hk : k < 16) :
    Reg.TICK_TB_NOW_LO k ∉ Reg.CHK_T_MISMATCH t :: (digestRegs t ++ resultRegs t) ∧
      Reg.TICK_TB_NOW_HI k ∉ Reg.CHK_T_MISMATCH t :: (digestRegs t ++ resultRegs t) := by
  simp [digestRegs, resultRegs, Reg.TICK_TB_NOW_LO, Reg.TICK_TB_NOW_HI, Reg.CHK_T_DIGEST, Reg.CHK_T_PEER,
    Reg.CHK_T_COMPARES, Reg.CHK_T_MISMATCH, Reg.CHK_T_STATUS, Reg.CHK_CNT, Reg.CHK_IRQ_STATUS]
  omega

/-- A job's step stays within a frame that holds no TICK_NOW. -/
theorem jobStep_of_frame {as ts : List Nat} {c c' : Chip} (h : Frame as ts c c')
    (ha : ∀ k, k < 16 → Reg.TICK_TB_NOW_LO k ∉ as ∧ Reg.TICK_TB_NOW_HI k ∉ as) (j : Nat) : jobStep c' j = jobStep c j := by
  have hjob : jobAt c' j = jobAt c j := by rw [h.2.2]; rfl
  obtain ⟨hlo, hhi⟩ := ha (jobAt c j).tb (jobAt c j).tb.isLt
  rw [jobStep, jobStep, hjob, tickNow, tickNow, reg2, reg2, h.1 _ hlo, h.1 _ hhi]

theorem reports_nextWord (t : Nat) (c : Chip) : (nextWord t c).reports = c.reports :=
  (congrArg Chip.reports (nextWord_moves (as := [Reg.TILE_SRAM_CE t]) (ts := [t]) t c (by simp) (by simp)).2.2.2 :)

/-- The report of a mismatch names the step that the tile works on and its checker (R344, R346). -/
theorem reports_mismatchReported {t j : Nat} {c : Chip} (hj : jobOfTile c t = some j) :
    (mismatchReported t (comparisonShown t c)).reports =
      c.reports ++ [{ job := j, step := jobStep c j, cause := 0, tile := t, checker := checkerTile c t }] := by
  have hall : Frame (Reg.CHK_T_MISMATCH t :: (digestRegs t ++ resultRegs t)) [] c
      (count (Reg.CHK_T_MISMATCH t) 1 (comparisonShown t c)) :=
    frame_count _ _ (by simp) (frame_mono (by simp +contextual) (by simp) (frame_toComparisonShown t c))
  have hjob : jobOfTile (count (Reg.CHK_T_MISMATCH t) 1 (comparisonShown t c)) t = some j := by
    rw [jobOfTile_of_frameButReports (frameButReports_of_frame hall), hj]
  have htile : tile (count (Reg.CHK_T_MISMATCH t) 1 (comparisonShown t c)) t = tile c t := hall.2.1 t (by simp)
  have hreports : (count (Reg.CHK_T_MISMATCH t) 1 (comparisonShown t c)).reports = c.reports := (congrArg Chip.reports hall.2.2 :)
  rw [mismatchReported]
  simp only [hjob]
  rw [reportJob, jobStep_of_frame hall (fun k hk => tickNow_comparison t hk), checkerTile, htile, hreports, checkerTile]

/-! ### CENSUS -/

theorem reg_holdWord_ne {t a : Nat} (h : a ≠ Reg.TILE_SRAM_CE t) (c : Chip) : reg (holdWord t c) a = reg c a := reg_fetchCe_ne h c

theorem moveKeeps_addColl {t p key v : Nat} {c d : Chip} (h : MoveKeeps t c d) : MoveKeeps t c (addColl t p key v d) := by
  unfold addColl
  exact h.modRouter ..

theorem moveKeeps_finishColl {t key : Nat} {c d : Chip} (h : MoveKeeps t c d) : MoveKeeps t c (finishColl t key d) := by
  unfold finishColl
  dsimp only
  split
  · exact h
  · split
    · exact moveKeeps_trans (h.modRouter ..) (moveKeeps_serveAll t _)
    · exact h

/-- The chip with the tile's counts shown and given, before their collectives are joined. -/
def countsShown (t par : Nat) (c : Chip) : Chip :=
  c |> putNum (Reg.RTR_CNS_SENT t) (numOf (tile c t).census (4 * par + 0))
    |> putNum (Reg.RTR_CNS_DELIV t) (numOf (tile c t).census (4 * par + 1))
    |> putNum (Reg.RTR_CNS_DROP t) (numOf (tile c t).census (4 * par + 2))
    |> modTile t (fun T => { T with seq := { T.seq with censused := true } })

theorem giveCounts_eq (t kind k par : Nat) (c : Chip) : giveCounts t kind k par c = forAll (fun i c =>
    finishColl t (censusKey kind k i par) (addColl t 4 (censusKey kind k i par) (numOf (tile c t).census (4 * par + i)) c))
      (List.range 4) (countsShown t par c) := rfl

theorem moveKeeps_giveCounts (t kind k par : Nat) (c : Chip) : MoveKeeps t (countsShown t par c) (giveCounts t kind k par c) := by
  rw [giveCounts_eq]
  exact forAll_keeps (P := MoveKeeps t (countsShown t par c)) (List.range 4)
    (fun _ _ _ h => moveKeeps_finishColl (moveKeeps_addColl h)) _ (moveKeeps_refl ..)

theorem censused_giveCounts (t kind k par : Nat) (c : Chip) : (tile (giveCounts t kind k par c) t).seq.censused = true := by
  rw [(moveKeeps_giveCounts t kind k par c).seq t]
  simp [countsShown]

/-- The registers of the counts of RTR_CNS_ are no others of their tile that CENSUS changes. -/
theorem countRegs_apart (t : Nat) : ∀ a ∈ [Reg.RTR_CNS_SENT t, Reg.RTR_CNS_DELIV t, Reg.RTR_CNS_DROP t],
    a ≠ Reg.RTR_FAULT t ∧ ¬ MoveCounts t a ∧ a ≠ Reg.TILE_SRAM_CE t := by
  simp [MoveCounts, Reg.RTR_CNS_SENT, Reg.RTR_CNS_DELIV, Reg.RTR_CNS_DROP, Reg.RTR_FAULT, Reg.RTR_DROP_LATE, Reg.RTR_DROP_PRUNE,
    Reg.RTR_DROP_NOROUTE, Reg.RTR_FLITS, Reg.TILE_SRAM_CE]

theorem censusWord_fresh {t b : Nat} {c : Chip} (hw : atWord c t 0x0C = true) (he : endReached c t = true) (hb : tbOfTile c t = some b)
    (hc : (tile c t).seq.censused = false) : ∃ d, MoveKeeps t (countsShown t (censusParity (tileStep c t)) c) d ∧
      (tile d t).seq.censused = true ∧ (censusWord t c = nextWord t d ∨ censusWord t c = holdWord t d) := by
  refine ⟨_, moveKeeps_giveCounts t (bits (wordAt c t) 3 0) b _ c, censused_giveCounts .., ?_⟩
  rw [censusWord, settleWord_open hw he]
  simp only [hb, hc, Bool.not_false, when_, if_true]
  split
  · exact .inl rfl
  · exact .inr rfl

theorem censusWord_given {t b : Nat} {c : Chip} (hw : atWord c t 0x0C = true) (he : endReached c t = true) (hb : tbOfTile c t = some b)
    (hc : (tile c t).seq.censused = true) : censusWord t c =
      if contributionLeft c t (bits (wordAt c t) 3 0) b (censusParity (tileStep c t)) then nextWord t c else holdWord t c := by
  rw [censusWord, settleWord_open hw he]
  simp [hb, hc, when_]

theorem digestWord_open {t : Nat} {c : Chip} (hw : atWord c t 0x07 = true) (he : endReached c t = true) : digestWord t c =
    nextWord t (when_ ((tile c t).chk.sampled && (tile c t).chk.checked && (tile c t).seq.sampleClosed) (compareDigests t) c) :=
  settleWord_open hw he

/-! ### O39 -/

/-- SAMPLE_CHECK on a checked tile whose stream is open (R343). -/
theorem sampleCheck_closes {t : Fin 8192} {s : State} {agree : Bool} (hd : domOn s.chip (fieldOf t) = true)
    (he : endReached s.chip t = true) (hw : atWord s.chip t 0x0B = true) (hs : (tile s.chip t).chk.sampled = true)
    (hc : (tile s.chip t).chk.checked = true) (ho : (tile s.chip t).seq.sampleClosed = false) :
    ∃ c', Completes (.sampleCheck t agree) s c' ∧ PastWord t s.chip c' ∧ (tile c' t).seq.sampleClosed = true ∧
      ((tile c' t).chk.digest = (tile c' t).chk.peer ↔ agree = true) ∧ c'.free = s.chip.free + 2 ∧
      Frame [Reg.TILE_SRAM_CE t] [t.val] s.chip { c' with free := s.chip.free } := by
  refine ⟨_, completes_tile rfl hd (sampleCheckWord_closes hw he hs hc ho), pastWord_nextWord ?_, ?_, ?_, ?_,
    frame_sampleCheckWord t.val (s.chip.free + 2) agree s.chip⟩
  · exact congrArg (fun T => T.seq.pc) (tile_streamClosed t.val agree s.chip)
  · rw [seq_nextWord]
    exact congrArg (fun T => T.seq.sampleClosed) (tile_streamClosed t.val agree s.chip)
  · rw [chk_nextWord]
    exact (iff_of_eq (congrArg (fun T : Tile => T.chk.digest = T.chk.peer) (tile_streamClosed t.val agree s.chip))).trans
      (eq_peerDigest_iff agree ..)
  · exact congrArg Chip.free (nextWord_moves (as := [Reg.TILE_SRAM_CE t]) (ts := [t.val]) t.val _ (by simp) (by simp)).2.2.2

/-- DIGEST on a checked tile whose stream is closed (R344). -/
theorem digest_compares {t : Fin 8192} {s : State} (hd : domOn s.chip (fieldOf t) = true)
    (he : endReached s.chip t = true) (hw : atWord s.chip t 0x07 = true) (hs : (tile s.chip t).chk.sampled = true)
    (hc : (tile s.chip t).chk.checked = true) (ho : (tile s.chip t).seq.sampleClosed = true) :
    Completes (.digest t) s (nextWord t (compareDigests t s.chip)) := by
  refine completes_tile rfl hd ((digestWord_open hw he).trans ?_)
  simp [hs, hc, ho, when_]

theorem pastWord_compareDigests (t : Nat) (c : Chip) : PastWord t c (nextWord t (compareDigests t c)) :=
  pastWord_nextWord (congrArg (fun T => T.seq.pc) (tile_of_frameButReports (frameButReports_compareDigests t c) (by simp)))

/-- What DIGEST shows of a comparison (R344). -/
theorem compareDigests_shows {t : Nat} (ht : t < 8192) (c : Chip) :
    let c' := nextWord t (compareDigests t c)
    reg c' (Reg.CHK_T_DIGEST t) = (tile c t).chk.digest ∧ reg c' (Reg.CHK_T_PEER t) = (tile c t).chk.peer ∧
      Advanced (Reg.CHK_T_COMPARES t) 1 c c' := by
  dsimp only
  have hdp : Reg.CHK_T_DIGEST t ≠ Reg.CHK_T_PEER t := by simp [Reg.CHK_T_DIGEST, Reg.CHK_T_PEER]
  have hdc : Reg.CHK_T_DIGEST t ≠ Reg.CHK_T_COMPARES t := by simp [Reg.CHK_T_DIGEST, Reg.CHK_T_COMPARES]
  have hpc : Reg.CHK_T_PEER t ≠ Reg.CHK_T_COMPARES t := by simp [Reg.CHK_T_PEER, Reg.CHK_T_COMPARES]
  refine ⟨?_, ?_, advanced_of_count ?_ (reg_compareDigests ht (by simp [digestRegs]))⟩
  · rw [reg_compareDigests ht (by simp [digestRegs]), comparisonCounted, reg_count_ne hdc, reg_setReg_ne _ _ hdp, reg_setReg_same]
  · rw [reg_compareDigests ht (by simp [digestRegs]), comparisonCounted, reg_count_ne hpc, reg_setReg_same]
  · rw [reg_setReg_ne _ _ hpc.symm, reg_setReg_ne _ _ hdc.symm]

/-- A comparison of equal digests reports nothing (R344). -/
theorem compareDigests_equal {t : Nat} (ht : t < 8192) {c : Chip} (h : (tile c t).chk.digest = (tile c t).chk.peer) :
    let c' := nextWord t (compareDigests t c)
    rflag c' (Reg.CHK_T_STATUS t) 28 = false ∧ c'.reports = c.reports := by
  have hdiff : digestsDiffer c t = false := by simp [digestsDiffer, h]
  have heq : compareDigests t c = comparisonShown t c := by rw [compareDigests_eq, hdiff]; rfl
  dsimp only
  rw [heq, reports_nextWord, rflag_congr (reg_nextWord_ne (mismatch_ne ht).2.2.2 _), differs_comparisonShown, hdiff]
  exact ⟨rfl, (congrArg Chip.reports (frame_toComparisonShown t c).2.2 :)⟩

/-- A mismatch is counted, shown and reported (R344). -/
theorem compareDigests_differ {t : Nat} (ht : t < 8192) {c : Chip} (h : (tile c t).chk.digest ≠ (tile c t).chk.peer) :
    let c' := nextWord t (compareDigests t c)
    Advanced (Reg.CHK_T_MISMATCH t) 1 c c' ∧ rflag c' (Reg.CHK_T_STATUS t) 28 = true ∧ ∀ j, jobOfTile c t = some j →
      c'.reports = c.reports ++ [{ job := j, step := jobStep c j, cause := 0, tile := t, checker := checkerTile c t }] := by
  have hdiff : digestsDiffer c t = true := by simp [digestsDiffer, h]
  have heq : compareDigests t c = mismatchReported t (comparisonShown t c) := by rw [compareDigests_eq, hdiff]; rfl
  obtain ⟨hmis, hmisCe, hstMis, hstCe⟩ := mismatch_ne ht
  dsimp only
  rw [heq, reports_nextWord, rflag_congr (reg_nextWord_ne hstCe _),
    rflag_congr (reg_of_frameButReports (frameButReports_mismatchReported t _) (by simpa using hstMis)), differs_comparisonShown, hdiff]
  exact ⟨advanced_of_count ((frame_toComparisonShown t c).1 _ hmis) ((reg_nextWord_ne hmisCe _).trans (reg_mismatchReported ..)), rfl,
    fun j hj => reports_mismatchReported hj⟩

/-- CENSUS of a tile that has still to give its counts shows them (R275, R276). -/
theorem census_gives {t : Fin 8192} {s : State} {b : Nat} (hd : domOn s.chip (fieldOf t) = true) (he : endReached s.chip t = true)
    (hw : atWord s.chip t 0x0C = true) (hb : tbOfTile s.chip t = some b) (hc : (tile s.chip t).seq.censused = false) :
    let par := censusParity (tileStep s.chip t)
    ∃ c', Completes (.census t) s c' ∧ (tile c' t).seq.censused = true ∧
      reg c' (Reg.RTR_CNS_SENT t) = BitVec.ofNat 32 (numOf (tile s.chip t).census (4 * par)) ∧
      reg c' (Reg.RTR_CNS_DELIV t) = BitVec.ofNat 32 (numOf (tile s.chip t).census (4 * par + 1)) ∧
      reg c' (Reg.RTR_CNS_DROP t) = BitVec.ofNat 32 (numOf (tile s.chip t).census (4 * par + 2)) := by
  dsimp only
  obtain ⟨d, hkeep, hcens, hword⟩ := censusWord_fresh hw he hb hc
  have hreg : ∀ a ∈ [Reg.RTR_CNS_SENT t, Reg.RTR_CNS_DELIV t, Reg.RTR_CNS_DROP t],
      reg (censusWord t s.chip) a = reg (countsShown t (censusParity (tileStep s.chip t)) s.chip) a := by
    intro a ha
    obtain ⟨hf, hm, hce⟩ := countRegs_apart t a ha
    rcases hword with h | h
    · rw [h, reg_nextWord_ne hce, hkeep.regs a hf hm]
    · rw [h, reg_holdWord_ne hce, hkeep.regs a hf hm]
  refine ⟨_, completes_tile rfl hd rfl, ?_, ?_, ?_, ?_⟩
  · rcases hword with h | h
    · rw [h, seq_nextWord]; exact hcens
    · rw [h, holdWord, tile_modTile_same, tile_fetchCe]; exact hcens
  all_goals
    rw [hreg _ (by simp)]
    simp [countsShown, putNum, reg_setReg, Reg.RTR_CNS_SENT, Reg.RTR_CNS_DELIV, Reg.RTR_CNS_DROP]

/-- Settles O39: each word is one lemma above; a tile that is not sampled, or that has given its counts, only moves on or waits. -/
theorem integrityWords : Obligations.IntegrityWords := by
  unfold Obligations.IntegrityWords
  intro t s hd he
  have hce : Reg.TILE_SRAM_CE t ∈ [Reg.TILE_SRAM_CE t] := by simp
  have ht : t.val ∈ [t.val] := by simp
  refine ⟨fun agree hw hs hc ho => sampleCheck_closes hd he hw hs hc ho, fun hw hs hc ho => ?_, fun hw hs => ?_,
    fun b hw hb => ⟨fun hc _ => census_gives hd he hw hb hc, fun hc => ?_⟩⟩
  · obtain ⟨hdig, hpeer, hcmp⟩ := compareDigests_shows t.isLt s.chip
    exact ⟨_, digest_compares hd he hw hs hc ho, pastWord_compareDigests t s.chip, hdig, hpeer, hcmp, compareDigests_equal t.isLt,
      compareDigests_differ t.isLt⟩
  · refine ⟨_, completes_tile rfl hd ((digestWord_open hw he).trans ?_), nextWord_moves t.val s.chip hce ht⟩
    simp [hs, when_]
  · refine ⟨_, completes_tile rfl hd (censusWord_given hw he hb hc), ?_⟩
    split
    · next hleft => exact ⟨(nextWord_moves t.val s.chip hce ht).2, fun _ => (nextWord_moves t.val s.chip hce ht).1, by simp [hleft]⟩
    · next hleft => exact ⟨(holdWord_waits t.val s.chip hce ht).2, by simp [hleft], fun _ => (holdWord_waits t.val s.chip hce ht).1⟩

end Sys2Proof.Machine
end

section
/-!
PROOFS. Settles O28: echo requests (R251, R405), the load census with its repair rounds (R303, R304) and the end of a load, with the
tiles left incomplete fenced (R403).
-/

namespace Sys2Proof.Machine

open Sys2Proof.Safety

/-! ### Echo (R405) -/

/-- A packet put on a wire stands behind what lies there, when all of it is on the wire's VC. -/
theorem wire_sendPacket {t p v : Nat} {fs : List Flit} (h : ∀ f ∈ fs, f.vc = v) (c : Chip) :
    wire (sendPacket t p fs c) t p v = wire c t p v ++ fs := by
  induction fs generalizing c with
  | nil => simp [sendPacket]
  | cons f fs ih =>
    obtain ⟨hf, hfs⟩ := List.forall_mem_cons.1 h
    subst hf
    calc wire (sendPacket t p (f :: fs) c) t p f.vc = wire (sendPacket t p fs (putWire t p f c)) t p f.vc := rfl
      _ = wire c t p f.vc ++ f :: fs := by rw [ih hfs, wire_putWire_same, List.append_assoc, List.singleton_append]

theorem vc_packet (v : Nat) (h : DWord) (body : List DWord) : ∀ f ∈ packet v h body, f.vc = v := by
  unfold packet
  dsimp only
  split
  · simp [oneFlit]
  · simp +contextual [or_imp]

theorem data_packet (v : Nat) (h : DWord) (body : List DWord) : (packet v h body).map (fun f => f.data) = h :: body := by
  unfold packet
  dsimp only
  split
  · next hnil => rw [List.reverse_eq_nil_iff.1 hnil]; rfl
  · next l rest hcons => simp [List.reverse_eq_cons_iff.1 hcons, Function.comp_def]

section
variable {t mop p : Nat} {h : Flit} {body : List Flit} {f : Flit → List Flit → Chip → Chip} {c : Chip}
  (hfind : dmaFind c t 5 (fun h => fMop h.data == mop || decide (4 ≤ fMop h.data)) = some (p, h, body))
include hfind

theorem maintenance_found : maintenance t mop f c = if fMop h.data = mop then f h body (dmaDrop t p 5 c) else dmaDrop t p 5 c := by
  rw [maintenance, hfind]

end

/-- An echo request is answered with its body (R405). -/
theorem echo_answered {t p : Nat} {h : Flit} {body : List Flit} {c : Chip}
    (hfind : dmaFind c t 5 (fun h => fMop h.data == 2 || decide (4 ≤ fMop h.data)) = some (p, h, body))
    (hm : fMop h.data = 2) (hp : anyPoison h body = false) :
    (wire (echo t c) t 4 5).map (fun f => f.data) = (wire c t 4 5).map (fun f => f.data) ++
      (headBack 7 (fEpoch h.data) (fSrc h.data) body.length (3 * 4096) t :: body.map (fun f => f.data)) := by
  have hdrop : wire (dmaDrop t p 5 c) t 4 5 = wire c t 4 5 := by rw [wire, (frame_dmaDrop t p 5 c).2.2]; rfl
  rw [echo, maintenance_found hfind, if_pos hm, if_neg (by simp [hp]), wire_sendPacket (vc_packet 5 _ _), List.map_append, data_packet, hdrop]

/-- A poisoned packet and one of a reserved operation are discarded (R251, R405). -/
theorem echo_discards {t p : Nat} {h : Flit} {body : List Flit} {c : Chip}
    (hfind : dmaFind c t 5 (fun h => fMop h.data == 2 || decide (4 ≤ fMop h.data)) = some (p, h, body))
    (hbad : anyPoison h body = true ∨ fMop h.data ≠ 2) : echo t c = dmaDrop t p 5 c := by
  rw [echo, maintenance_found hfind]
  split
  · next hm => exact if_pos (hbad.resolve_right (fun h => h hm))
  · rfl

/-! ### The census (R303) -/

/-- Four counts of a census word stand in its bytes. -/
theorem bits_censusWord {g : Nat → Nat} (hg : ∀ k, g k < 256) {k : Nat} (hk : k < 4) :
    bits (((List.range 4).map (fun k => g k * 2 ^ (8 * k))).foldl (· + ·) 0) (8 * k + 7) (8 * k) = g k := by
  have h0 := hg 0
  have h1 := hg 1
  have h2 := hg 2
  have h3 := hg 3
  have hword : ((List.range 4).map (fun k => g k * 2 ^ (8 * k))).foldl (· + ·) 0 =
      0 + g 0 * 2 ^ (8 * 0) + g 1 * 2 ^ (8 * 1) + g 2 * 2 ^ (8 * 2) + g 3 * 2 ^ (8 * 3) := by
    rw [show List.range 4 = [0, 1, 2, 3] from rfl, List.map_cons, List.map_cons, List.map_cons, List.map_cons, List.map_nil,
      List.foldl_cons, List.foldl_cons, List.foldl_cons, List.foldl_cons, List.foldl_nil]
  rw [hword]
  obtain rfl | rfl | rfl | rfl : k = 0 ∨ k = 1 ∨ k = 2 ∨ k = 3 := by omega
  all_goals
    simp only [bits]
    omega

/-- A field has 128 tiles (R30). -/
theorem loadCount_lt (c : Chip) (f : Nat) : loadCount c f < 256 := by
  have hle : loadCount c f ≤ (fieldTiles f).length := List.length_filter_le ..
  have hlen : (fieldTiles f).length = 128 := by simp [fieldTiles]
  omega

/-- The census word of item `i` (R303). -/
def censusItem (c : Chip) (i : Nat) : Nat := ((List.range 4).map (fun k => loadCount c (4 * i + k) * 2 ^ (8 * k))).foldl (· + ·) 0

theorem loadCensus_items (c : Chip) : (loadCensus c).loadCensus = (List.range 16).map (censusItem c) := rfl

theorem getD_loadCensus (c : Chip) {i : Nat} (h : i < 16) : (loadCensus c).loadCensus.getD i 0 = censusItem c i := by
  rw [loadCensus_items, List.getD_eq_getElem?_getD, List.getElem?_map, List.getElem?_range h, Option.map_some, Option.getD_some]

theorem bits_censusItem (c : Chip) (i : Nat) {k : Nat} (hk : k < 4) :
    bits (censusItem c i) (8 * k + 7) (8 * k) = loadCount c (4 * i + k) :=
  bits_censusWord (g := fun k => loadCount c (4 * i + k)) (fun _ => loadCount_lt c _) hk

/-- The census of `c` shown in `c'`: each field's complete tiles in its byte. -/
def CensusOf (c c' : Chip) : Prop :=
  c'.loadCensus.length = 16 ∧ ∀ f, f < 64 → bits (c'.loadCensus.getD (f / 4) 0) (8 * (f % 4) + 7) (8 * (f % 4)) = loadCount c f

theorem censusOf_loadCensus (c : Chip) : CensusOf c (loadCensus c) := by
  refine ⟨by rw [loadCensus_items, List.length_map, List.length_range], fun f hf => ?_⟩
  rw [getD_loadCensus c (by omega), bits_censusItem c _ (by omega), Nat.div_add_mod]

theorem censusOf_congr {c d d' : Chip} (h : CensusOf c d) (hd : d'.loadCensus = d.loadCensus) : CensusOf c d' := by
  rwa [CensusOf, hd]

/-! ### A repair round (R304) -/

theorem loadCensus_sendPacket (t p : Nat) (fs : List Flit) (c : Chip) : (sendPacket t p fs c).loadCensus = c.loadCensus :=
  forAll_leaves Chip.loadCensus (f := putWire t p) fs (fun _ _ => rfl) c

theorem loadCensus_sendTileLoads (t : Nat) (ld : Broadcast) (qs : List Nat) (c : Chip) :
    (sendTileLoads t ld qs c).loadCensus = c.loadCensus := by
  unfold sendTileLoads
  refine forAll_leaves Chip.loadCensus qs (fun q d => ?_) c
  unfold sendHalf
  split
  · exact loadCensus_sendPacket ..
  · rfl

theorem loadCensus_repairTile (ld : Broadcast) (t : Nat) (c : Chip) : (repairTile ld t c).loadCensus = c.loadCensus := by
  unfold repairTile
  dsimp only
  split
  · rfl
  · split <;> exact loadCensus_sendTileLoads ..

theorem loadCensus_repairRound (ld : Broadcast) (c : Chip) : (repairRound ld c).loadCensus = c.loadCensus :=
  forAll_leaves Chip.loadCensus _ (fun t d => loadCensus_repairTile ld t d) c

/-! ### The end of a load (R304, R403) -/

/-- The registers that show a floor plan. -/
def planRegs : List Nat :=
  [Reg.BOOT_FP_REV, Reg.BOOT_FP_GOOD, Reg.BOOT_FAULT, Reg.SEAM_ROW_GOOD_LO, Reg.SEAM_ROW_GOOD_HI, Reg.SEAM_ROW_EN_LO, Reg.SEAM_ROW_EN_HI]

/-- What no step of the end of a load changes: the census, the start, and every register but those of `p`. -/
structure EndKeeps (p : Nat → Prop) (c c' : Chip) : Prop where
  census : c'.loadCensus = c.loadCensus
  boot : c'.boot = c.boot
  regs : ∀ a, ¬ p a → reg c' a = reg c a

/-- The registers that the end of a load may change: those of the tiles and those of the floor plan. -/
def EndRegs (a : Nat) : Prop := a < 0x200000000000 ∨ a ∈ planRegs

/-- FENCE of every tile that has it stays set. -/
def FencesStay (c c' : Chip) : Prop := ∀ u, u < 8192 → fenced c u = true → fenced c' u = true

namespace EndKeeps

variable {p q : Nat → Prop} {c d : Chip}

theorem refl (p : Nat → Prop) (c : Chip) : EndKeeps p c c := ⟨rfl, rfl, fun _ _ => rfl⟩

variable (h : EndKeeps p c d)
include h

theorem trans {e : Chip} (h' : EndKeeps p d e) : EndKeeps p c e :=
  ⟨h'.census.trans h.census, h'.boot.trans h.boot, fun a ha => (h'.regs a ha).trans (h.regs a ha)⟩

theorem mono (hpq : ∀ a, p a → q a) : EndKeeps q c d := ⟨h.census, h.boot, fun a ha => h.regs a (fun hp => ha (hpq a hp))⟩

theorem setReg {a : Nat} (v : Word) (ha : p a) : EndKeeps p c (setReg a v d) :=
  h.trans ⟨rfl, rfl, fun b hb => reg_setReg_ne v d (by rintro rfl; exact hb ha)⟩

/-- The floor plan's changes leave every fence. -/
theorem fencesStay (hp : ∀ a, p a → 0x200000000000 ≤ a) : FencesStay c d := by
  refine fun u hu hf => (rflag_congr (h.regs _ (fun ha => ?_))).trans hf
  have hle := hp _ ha
  simp only [Reg.TILE_CTRL] at hle
  omega

end EndKeeps

theorem endKeeps_fenceTile {t : Nat} (ht : t < 8192) (c : Chip) : EndKeeps EndRegs c (fenceTile t .fenced c) := by
  cases hf : fenced c t with
  | true => rw [fenceTile, if_pos hf]; exact .refl ..
  | false =>
    have hframe := frame_fenceTile .fenced hf
    refine ⟨part_of_frameButReports Chip.loadCensus (fun _ _ _ _ => rfl) hframe,
      part_of_frameButReports Chip.boot (fun _ _ _ _ => rfl) hframe, fun a ha => reg_of_frameButReports hframe ?_⟩
    have hge : 0x200000000000 ≤ a := Nat.not_lt.1 (fun hlt => ha (.inl hlt))
    simp only [List.mem_append, mem_eccRegs, List.mem_cons, List.not_mem_nil, Reg.TILE_CTRL, Reg.TILE_DROP_FENCED, or_false]
    omega

/-- A fence of one tile leaves the fences of the others. -/
theorem fencesStay_fenceTile (t : Nat) (mode : SeqMode) (c : Chip) : FencesStay c (fenceTile t mode c) := by
  intro u hu hfu
  cases hf : fenced c t with
  | true => rw [fenceTile, if_pos hf]; exact hfu
  | false =>
    have hne : u ≠ t := by rintro rfl; simp [hf] at hfu
    refine (rflag_congr (reg_of_frameButReports (frame_fenceTile mode hf) ?_)).trans hfu
    simp only [List.mem_append, mem_eccRegs, List.mem_cons, List.not_mem_nil, Reg.TILE_CTRL, Reg.TILE_DROP_FENCED, or_false]
    omega

theorem fenced_fenceTile_self (t : Nat) (mode : SeqMode) (c : Chip) : fenced (fenceTile t mode c) t = true := by
  cases hf : fenced c t with
  | true => rw [fenceTile, if_pos hf]; exact hf
  | false => exact fenced_fenceTile mode hf

/-- Every tile of a list fenced is fenced. -/
theorem fenced_forAll_fenceTile {ts : List Nat} (hts : ∀ t ∈ ts, t < 8192) (c : Chip) :
    FencesStay c (forAll (fun t => fenceTile t .fenced) ts c) ∧ ∀ t ∈ ts, fenced (forAll (fun t => fenceTile t .fenced) ts c) t = true := by
  induction ts generalizing c with
  | nil => exact ⟨fun _ _ h => h, by simp⟩
  | cons t ts ih =>
    obtain ⟨ht, hrest⟩ := List.forall_mem_cons.1 hts
    obtain ⟨hstay, hall⟩ := ih hrest (fenceTile t .fenced c)
    exact ⟨fun u hu hfu => hstay u hu (fencesStay_fenceTile t _ c u hu hfu),
      List.forall_mem_cons.2 ⟨hstay t ht (fenced_fenceTile_self t _ c), hall⟩⟩

theorem endKeeps_forAll_fenceTile {ts : List Nat} (hts : ∀ t ∈ ts, t < 8192) (c : Chip) :
    EndKeeps EndRegs c (forAll (fun t => fenceTile t .fenced) ts c) :=
  forAll_keeps (P := EndKeeps EndRegs c) ts (fun t ht d h => h.trans (endKeeps_fenceTile (hts t ht) d)) c (.refl ..)

/-- The registers that show a floor plan stand in the control space. -/
theorem planRegs_above : ∀ a, a ∈ planRegs → 0x200000000000 ≤ a := by
  simp [planRegs, Reg.BOOT_FP_REV, Reg.BOOT_FP_GOOD, Reg.BOOT_FAULT, Reg.SEAM_ROW_GOOD_LO, Reg.SEAM_ROW_GOOD_HI, Reg.SEAM_ROW_EN_LO,
    Reg.SEAM_ROW_EN_HI]

theorem endKeeps_appendField (e : Word) (c : Chip) : EndKeeps (· ∈ planRegs) c (appendField e c) := by
  unfold appendField
  split
  · exact .refl ..
  · split
    · exact ⟨rfl, rfl, fun _ _ => rfl⟩
    · exact (EndKeeps.refl _ c).setReg _ (by simp [planRegs])

theorem endKeeps_putBytes (p : Nat → Prop) (bs : List Byte) (a : Nat) (c : Chip) : EndKeeps p c (putBytes a bs c) := by
  induction bs generalizing a c with
  | nil => exact .refl ..
  | cons b bs ih =>
    have hbyte : EndKeeps p c (putByte a b c) := ⟨rfl, rfl, fun _ _ => rfl⟩
    exact hbyte.trans (ih (a + 1) (putByte a b c))

theorem endKeeps_publishPlan (r : List Byte) (c : Chip) : EndKeeps (· ∈ planRegs) c (publishPlan r c) := by
  have hflash : EndKeeps (· ∈ planRegs) c { c with flash := { c.flash with fpRev := nAt r 4 4, fpLast := r } } :=
    ⟨rfl, rfl, fun _ _ => rfl⟩
  have hshown := ((hflash.trans (endKeeps_putBytes _ r fpBase _)).setReg (a := Reg.BOOT_FP_REV) (BitVec.ofNat 32 (nAt r 4 4))
    (by simp [planRegs])).setReg (a := Reg.BOOT_FP_GOOD) (BitVec.ofNat 32 (nAt r 0x0E 2)) (by simp [planRegs])
  unfold publishPlan
  refine EndKeeps.setReg (EndKeeps.setReg (EndKeeps.setReg (EndKeeps.setReg ?_ _ ?_) _ ?_) _ ?_) _ ?_
  · unfold when_
    split
    · exact hshown.setReg _ (by simp [planRegs])
    · exact hshown
  all_goals simp [planRegs]

theorem endKeeps_changePlan (new : List Byte) (c : Chip) : EndKeeps (· ∈ planRegs) c (changePlan new c) :=
  (forAll_keeps (P := EndKeeps (· ∈ planRegs) c) _ (fun e _ d h => h.trans (endKeeps_appendField e d)) c (.refl ..)).trans
    (endKeeps_publishPlan ..)

/-- Tiles left out of the floor plan are fenced (R359, R403). -/
theorem dropTiles_fences {ts : List Nat} (hts : ∀ t ∈ ts, t < 8192) (c : Chip) :
    EndKeeps EndRegs c (dropTiles ts c) ∧ ∀ t ∈ ts, fenced (dropTiles ts c) t = true := by
  have hkeep := endKeeps_forAll_fenceTile hts c
  have hall := (fenced_forAll_fenceTile hts c).2
  unfold dropTiles
  dsimp only
  split
  · exact ⟨hkeep, hall⟩
  · exact ⟨hkeep.trans ((endKeeps_changePlan ..).mono fun _ => .inr),
      fun t ht => (endKeeps_changePlan ..).fencesStay planRegs_above t (hts t ht) (hall t ht)⟩

/-! ### A start that fails (R403, R406) -/

theorem bootState_setBoot (n : Nat) (c : Chip) : bootState (setBoot n c) = n % 16 := rfld_setFld _ _ _ _ _ (by decide) (by decide)

theorem bootState_congr {c d : Chip} (h : reg d Reg.BOOT_STATUS = reg c Reg.BOOT_STATUS) : bootState d = bootState c := rfld_congr h

theorem reg_withRecord (r : Recorder) (n a : Nat) (c : Chip) : reg { c with recd := r, free := n } a = reg c a := rfl

theorem bootStatus_ring (slot : Nat) (w : Nat → Nat) (c : Chip) :
    reg (forAll (fun i c => putNum (Reg.REC_RING (16 * slot + i)) (w i) c) (List.range 16) c) Reg.BOOT_STATUS = reg c Reg.BOOT_STATUS :=
  reg_forAll _ (fun i _ d => reg_putNum_ne (by unfold Reg.REC_RING Reg.BOOT_STATUS; omega) ..) _

theorem bootStatus_hit (b : Bool) (c : Chip) : reg (when_ b (raise Reg.REC_FAULT 2) c) Reg.BOOT_STATUS = reg c Reg.BOOT_STATUS := by
  unfold when_
  split
  · exact reg_raise_ne (by decide) ..
  · rfl

/-- A record changes registers of the recorder alone. -/
theorem bootStatus_recordWrite (typ subject : Nat) (body : List Byte) (c : Chip) :
    reg (recordWrite typ subject body c) Reg.BOOT_STATUS = reg c Reg.BOOT_STATUS := by
  unfold recordWrite
  split
  · simp only [takeFree]
    rw [reg_count_ne (by decide), reg_setFld_ne (by decide), reg_putNum_ne (by decide), bootStatus_ring, bootStatus_hit,
      reg_withRecord]
  · rfl

theorem bootState_enterFallow (cause : Nat) (s : State) : bootState (enterFallow cause s).chip = 11 := by
  unfold enterFallow onChip
  refine (bootState_congr ((bootStatus_recordWrite ..).trans (reg_putNum_ne (by decide) ..))).trans ?_
  exact (rfld_setBit_apart _ (by decide) (by decide) ..).trans (bootState_setBoot ..)

theorem pending_onChip (f : Chip → Chip) (s : State) : (onChip f s).pending = s.pending := rfl

theorem pending_mk (c : Chip) (v : List Service) (x : Sec) (q : List Instr) :
    ({ chip := c, irq := v, sec := x, pending := q } : State).pending = q := rfl

theorem pending_thistleRestart (s : State) : (thistleRestart s).pending = s.pending := by rw [thistleRestart, pending_mk]

theorem pending_thistleUp (s : State) : (thistleUp s).pending = s.pending := by rw [thistleUp, pending_mk]

theorem pending_switchedReset (s : State) : (switchedReset s).pending = s.pending := by
  rw [switchedReset, pending_onChip, pending_mk, pending_thistleRestart, pending_mk]

theorem pending_enterFallow (cause : Nat) (s : State) : (enterFallow cause s).pending = s.pending := by
  rw [enterFallow, pending_onChip, pending_mk, pending_thistleUp, pending_switchedReset]

/-- A start that fails stands in state 12, or in fallow mode, with the queue as it was. -/
theorem startFail_ends (cause : Nat) (s : State) : (startFail cause s).pending = s.pending ∧
    (bootState (startFail cause s).chip = 12 ∨ bootState (startFail cause s).chip = 11) := by
  unfold startFail
  dsimp only
  split
  · exact ⟨by rw [pending_enterFallow, pending_onChip], .inr (bootState_enterFallow ..)⟩
  · exact ⟨by rw [pending_onChip, pending_onChip], .inl (bootState_setBoot ..)⟩

theorem failNow_starting {cause : Nat} {c : Chip} (s : State) (hb : bootState c < 10) (hr : c.boot.inReset = false)
    (h1 : 1 ≤ cause) (h2 : cause ≤ 0x0B) : failNow cause { s with chip := c } = startFail cause { s with chip := c } := by
  simp [failNow, hb, hr, h1, h2]

/-! ### The round of a census (R303, R304, R403) -/

/-- The chip at the end of a load whose census has just been shown. -/
def loadClosed (c : Chip) : Chip := endBroadcast (unloaded c) (loadCensus c)

theorem unloaded_lt (c : Chip) : ∀ t ∈ unloaded c, t < 8192 := fun _ ht => List.mem_range.1 (List.mem_filter.1 ht).1

theorem loadClosed_fences (c : Chip) : (loadClosed c).loadCensus = (loadCensus c).loadCensus ∧
    (loadClosed c).boot = { c.boot with load := none } ∧ (∀ a, ¬ EndRegs a → reg (loadClosed c) a = reg c a) ∧
    ∀ t ∈ unloaded c, fenced (loadClosed c) t = true := by
  obtain ⟨hkeep, hfenced⟩ := dropTiles_fences (unloaded_lt c)
    { loadCensus c with boot := { (loadCensus c).boot with load := none } }
  exact ⟨hkeep.census, hkeep.boot, hkeep.regs, hfenced⟩

section
variable {s : State}

theorem censusRound_idle (h : s.chip.boot.load = none) : censusRound s = { s with chip := loadCensus s.chip } := by
  have hload : (onChip loadCensus s).chip.boot.load = none := h
  rw [censusRound]
  simp only [hload]
  rfl

variable {ld : Broadcast} (h : s.chip.boot.load = some ld)
include h

theorem censusRound_repairs (he : loadEnded s.chip ld = false) :
    censusRound s = { s with chip := repairRound ld (loadCensus s.chip) } := by
  have hload : (onChip loadCensus s).chip.boot.load = some ld := h
  have hend : loadEnded (onChip loadCensus s).chip ld = false := he
  rw [censusRound]
  simp only [hload, hend]
  rfl

theorem censusRound_ends (he : loadEnded s.chip ld = true) : censusRound s =
    if rfld (loadClosed s.chip) Reg.BOOT_CFG 15 8 < (unloaded s.chip).length then failNow 9 { s with chip := loadClosed s.chip }
    else { s with chip := loadClosed s.chip } := by
  have hload : (onChip loadCensus s).chip.boot.load = some ld := h
  have hend : loadEnded (onChip loadCensus s).chip ld = true := he
  have hleft : unloaded (onChip loadCensus s).chip = unloaded s.chip := rfl
  have hclosed : onChip (endBroadcast (unloaded s.chip)) (onChip loadCensus s) = { s with chip := loadClosed s.chip } := rfl
  rw [censusRound]
  simp only [hload, hend, hleft, if_true, hclosed]

end

theorem not_endRegs_bootCfg : ¬ EndRegs Reg.BOOT_CFG := by
  simp [EndRegs, planRegs, Reg.BOOT_CFG, Reg.BOOT_FP_REV, Reg.BOOT_FP_GOOD, Reg.BOOT_FAULT, Reg.SEAM_ROW_GOOD_LO, Reg.SEAM_ROW_GOOD_HI,
    Reg.SEAM_ROW_EN_LO, Reg.SEAM_ROW_EN_HI]

theorem not_endRegs_bootStatus : ¬ EndRegs Reg.BOOT_STATUS := by
  simp [EndRegs, planRegs, Reg.BOOT_STATUS, Reg.BOOT_FP_REV, Reg.BOOT_FP_GOOD, Reg.BOOT_FAULT, Reg.SEAM_ROW_GOOD_LO,
    Reg.SEAM_ROW_GOOD_HI, Reg.SEAM_ROW_EN_LO, Reg.SEAM_ROW_EN_HI]

theorem bcFenceMax_loadClosed (c : Chip) : rfld (loadClosed c) Reg.BOOT_CFG 15 8 = rfld c Reg.BOOT_CFG 15 8 :=
  rfld_congr ((loadClosed_fences c).2.2.1 _ not_endRegs_bootCfg)

theorem inReset_loadClosed (c : Chip) : (loadClosed c).boot.inReset = c.boot.inReset := by
  rw [(loadClosed_fences c).2.1]

theorem bootState_loadClosed (c : Chip) : bootState (loadClosed c) = bootState c :=
  bootState_congr ((loadClosed_fences c).2.2.1 _ not_endRegs_bootStatus)

/-- A load that leaves more tiles than BC_FENCE_MAX fails the start (R403). -/
theorem censusRound_fails {s : State} {ld : Broadcast} (h : s.chip.boot.load = some ld) (he : loadEnded s.chip ld = true)
    (hmax : rfld s.chip Reg.BOOT_CFG 15 8 < (unloaded s.chip).length) (hb : bootState s.chip < 10)
    (hr : s.chip.boot.inReset = false) : censusRound s = startFail 9 { s with chip := loadClosed s.chip } := by
  rw [censusRound_ends h he, bcFenceMax_loadClosed, if_pos hmax]
  have hb' : bootState (loadClosed s.chip) < 10 := by rwa [bootState_loadClosed]
  have hr' : (loadClosed s.chip).boot.inReset = false := by rwa [inReset_loadClosed]
  exact failNow_starting s hb' hr' (by decide) (by decide)

/-! ### O28 -/

/-- Settles O28: echo by the packet found, the census by what the broadcast still misses. -/
theorem loadCensusAndEcho : Obligations.LoadCensusAndEcho := by
  unfold Obligations.LoadCensusAndEcho
  refine ⟨fun t s hd => ⟨fun p h body hfind hm hp => ⟨_, completes_tile rfl hd rfl, echo_answered hfind hm hp⟩,
    fun p h body hfind => completes_tile (t := t.val) rfl hd ((maintenance_found hfind).trans (ite_self _))⟩,
    fun t s p h body hd hfind hbad => completes_tile rfl hd (echo_discards hfind hbad),
    fun s => ⟨fun hload => ?_, fun ld hload => ⟨fun he => ?_, fun he hmax => ?_, fun he hmax hb hr => ?_⟩⟩⟩
  · exact ⟨_, congrArg Host.Outcome.next (censusRound_idle hload), censusOf_loadCensus s.chip, frame_refl ..⟩
  · exact ⟨_, congrArg Host.Outcome.next (censusRound_repairs hload he),
      censusOf_congr (censusOf_loadCensus s.chip) (loadCensus_repairRound ..), rfl⟩
  · obtain ⟨hcensus, hboot, -, hfenced⟩ := loadClosed_fences s.chip
    refine ⟨loadClosed s.chip, congrArg Host.Outcome.next ?_, censusOf_congr (censusOf_loadCensus s.chip) hcensus,
      congrArg Boot.load hboot, hfenced⟩
    rw [censusRound_ends hload he, bcFenceMax_loadClosed, if_neg (by omega)]
  · obtain ⟨hpending, hstate⟩ := startFail_ends 9 { s with chip := loadClosed s.chip }
    exact ⟨_, ⟨congrArg Host.Outcome.next (censusRound_fails hload he hmax hb hr), hpending⟩, hstate⟩

end Sys2Proof.Machine
end

section
/-!
PROOFS. Settles O26: receive rings opened, closed and drained (R285, R296, R297, Table 10.11).
-/

namespace Sys2Proof.Machine

open Sys2Proof.Safety

/-! ### The configuration of a ring (R285, Table 10.11) -/

/-- CHN_RX_n_CFG as a write of `v` leaves it: SIZE and BASE stay while the tile runs or the ring is open, and reserved bits read 0. -/
def cfgWritten (t n : Nat) (v : Word) (c : Chip) : Word :=
  let old := reg c (Reg.CHN_RX_CFG t n)
  let kept := if seqEn c t || flag old 31 then putFld (putFld v 27 24 (fld old 27 24)) 10 0 (fld old 10 0) else v
  putFld (putFld kept 30 28 0) 15 11 0

section
variable (t n : Nat) (v : Word) (c : Chip)

theorem flag_cfgWritten : flag (cfgWritten t n v c) 31 = flag v 31 := by
  rw [cfgWritten, flag_putFld_apart _ _ _ _ _ (by decide) (by decide) (by decide),
    flag_putFld_apart _ _ _ _ _ (by decide) (by decide) (by decide)]
  split
  · rw [flag_putFld_apart _ _ _ _ _ (by decide) (by decide) (by decide),
      flag_putFld_apart _ _ _ _ _ (by decide) (by decide) (by decide)]
  · rfl

theorem fld_cfgWritten : fld (cfgWritten t n v c) 23 16 = fld v 23 16 := by
  rw [cfgWritten, fld_putFld_apart _ _ _ _ _ _ (by decide) (by decide) (by decide),
    fld_putFld_apart _ _ _ _ _ _ (by decide) (by decide) (by decide)]
  split
  · rw [fld_putFld_apart _ _ _ _ _ _ (by decide) (by decide) (by decide),
      fld_putFld_apart _ _ _ _ _ _ (by decide) (by decide) (by decide)]
  · rfl

/-! ### A ring opened (R297) -/

/-- Both pointers of ring `n` at zero, and its sequence number 1. -/
def ringBegun (t n : Nat) (c : Chip) : Chip :=
  c |> putNum (Reg.CHN_RX_WPTR t n) 0 |> putNum (Reg.CHN_RX_RPTR t n) 0 |> setFld (Reg.CHN_RX_STAT t n) 23 16 1

theorem pointers_ringBegun : reg (ringBegun t n c) (Reg.CHN_RX_WPTR t n) = 0#32 ∧ reg (ringBegun t n c) (Reg.CHN_RX_RPTR t n) = 0#32 := by
  constructor
  · rw [ringBegun, reg_setFld_ne (by simp [Reg.CHN_RX_WPTR, Reg.CHN_RX_STAT]), reg_putNum_ne (by simp [Reg.CHN_RX_WPTR, Reg.CHN_RX_RPTR]),
      reg_putNum_same]
  · rw [ringBegun, reg_setFld_ne (by simp [Reg.CHN_RX_RPTR, Reg.CHN_RX_STAT]), reg_putNum_same]

theorem seq_ringBegun : rfld (ringBegun t n c) (Reg.CHN_RX_STAT t n) 23 16 = 1 := rfld_setFld _ 23 16 1 _ (by decide) (by decide)

theorem cfg_ringBegun : reg (ringBegun t n c) (Reg.CHN_RX_CFG t n) = reg c (Reg.CHN_RX_CFG t n) := by
  rw [ringBegun, reg_setFld_ne (by simp [Reg.CHN_RX_CFG, Reg.CHN_RX_STAT]), reg_putNum_ne (by simp [Reg.CHN_RX_CFG, Reg.CHN_RX_RPTR]),
    reg_putNum_ne (by simp [Reg.CHN_RX_CFG, Reg.CHN_RX_WPTR])]

/-- Ring `n` as RING_OPEN with `v` leaves it when it was closed. -/
def ringOpened (t n : Nat) (v : Word) (c : Chip) : Chip :=
  ringBegun t n (setReg (Reg.CHN_RX_CFG t n) (cfgWritten t n (putBit v 31 true) c) c)

theorem cfg_ringOpened : reg (ringOpened t n v c) (Reg.CHN_RX_CFG t n) = cfgWritten t n (putBit v 31 true) c := by
  rw [ringOpened, cfg_ringBegun, reg_setReg_same]

theorem rxOpen_ringOpened : rxOpen (ringOpened t n v c) t n = true := by
  rw [rxOpen, rflag, cfg_ringOpened, flag_cfgWritten, flag_putBit_same _ _ _ (by decide)]

theorem threshold_ringOpened : rfld (ringOpened t n v c) (Reg.CHN_RX_CFG t n) 23 16 = fld v 23 16 := by
  rw [rfld, cfg_ringOpened, fld_cfgWritten, fld_putBit_apart _ _ _ _ _ (by decide) (by decide)]

theorem frame_ringOpened :
    Frame [Reg.CHN_RX_CFG t n, Reg.CHN_RX_WPTR t n, Reg.CHN_RX_RPTR t n, Reg.CHN_RX_STAT t n] [] c (ringOpened t n v c) :=
  frame_setFld _ _ _ _ (by simp) (frame_putNum _ _ (by simp) (frame_putNum _ _ (by simp) (frame_setReg _ _ (by simp) (frame_refl ..))))

end

section
variable {t n : Nat} {v : Word} {c : Chip}

theorem ringOpen_closed (h : rxOpen c t n = false) : ringOpen t n v c = ringOpened t n v c := by
  have hold : flag (reg c (Reg.CHN_RX_CFG t n)) 31 = false := h
  have hnew : flag (putBit v 31 true) 31 = true := flag_putBit_same _ _ _ (by decide)
  simp only [ringOpen, writeRxCfg, ringOpened, cfgWritten, hold, hnew]
  rfl

/-! ### The read pointer (R296) -/

theorem rptrWrite_closed (h : rxOpen c t n = false) : rptrWrite t n v c = c := by simp [rptrWrite, h]

variable (h : rxOpen c t n = true)
include h

theorem rptrWrite_takes
    (hu : ringUsed (rxSize c t n) (rfld c (Reg.CHN_RX_WPTR t n) 14 0) (fld v 14 0 % (2 * rxSize c t n)) ≤ rxSize c t n) :
    rptrWrite t n v c = putNum (Reg.CHN_RX_RPTR t n) (fld v 14 0 % (2 * rxSize c t n)) c := by
  simp [rptrWrite, h, Nat.not_lt.2 hu]

theorem rptrWrite_refuses
    (hu : rxSize c t n < ringUsed (rxSize c t n) (rfld c (Reg.CHN_RX_WPTR t n) 14 0) (fld v 14 0 % (2 * rxSize c t n))) :
    rptrWrite t n v c = raise (Reg.CHN_FAULT t) 4 c := by
  simp [rptrWrite, h, hu]

end

/-! ### The obligation -/

/-- Settles O26: the open by the registers it begins, the close by OPEN, the pointer by what the ring would then hold. -/
theorem ringsOpenAndClose : Obligations.RingsOpenAndClose := by
  intro t n v s hd
  refine ⟨fun hclosed => ?opens, fun hclosed => ?ignored, ?closes, fun hopen => ⟨fun hu => ?takes, fun hu => ?refuses⟩⟩
  case opens =>
    obtain ⟨hw, hr⟩ := pointers_ringBegun t n (setReg (Reg.CHN_RX_CFG t n) (cfgWritten t n (putBit v 31 true) s.chip) s.chip)
    exact ⟨_, completes_tile rfl hd (ringOpen_closed hclosed), rxOpen_ringOpened .., hw, hr, seq_ringBegun .., threshold_ringOpened ..,
      frame_ringOpened ..⟩
  case ignored => exact completes_tile rfl hd (rptrWrite_closed hclosed)
  case closes =>
    exact ⟨_, completes_tile (c' := setBit (Reg.CHN_RX_CFG t n) 31 false s.chip) rfl hd rfl, rflag_setBit_same _ (by decide) _ _,
      frame_setBit _ _ _ (by simp) (frame_refl ..)⟩
  case takes =>
    exact ⟨_, completes_tile rfl hd (rptrWrite_takes hopen hu), reg_putNum_same .., frame_putNum _ _ (by simp) (frame_refl ..)⟩
  case refuses =>
    exact ⟨_, completes_tile rfl hd (rptrWrite_refuses hopen hu), rflag_raise _ _ _ (by decide),
      frame_raise _ _ (by simp) (frame_refl ..)⟩

end Sys2Proof.Machine
end

section
/-!
SUPPORT. What a DMA write of a tile leaves alone (R90, R94, R97, R110, R152): the registers that note no errors, the tile's channel
units and the routers.
-/

namespace Sys2Proof.Machine

open Sys2Proof.Safety

/-- What no DMA write of tile `t` changes. -/
structure DmaKeeps (t : Nat) (c c' : Chip) : Prop where
  regs : ∀ a, a ∉ eccRegs t → reg c' a = reg c a
  chn : (tile c' t).chn = (tile c t).chn
  routers : c'.routers = c.routers

namespace DmaKeeps

variable {t : Nat} {c d e : Chip}

theorem refl (t : Nat) (c : Chip) : DmaKeeps t c c := ⟨fun _ _ => rfl, rfl, rfl⟩

theorem of_frame (h : Frame (eccRegs t) [] c d) : DmaKeeps t c d where
  regs := h.1
  chn := congrArg Tile.chn (h.2.1 t List.not_mem_nil)
  routers := (congrArg Chip.routers h.2.2 :)

theorem trans (h : DmaKeeps t c d) (h' : DmaKeeps t d e) : DmaKeeps t c e where
  regs a ha := (h'.regs a ha).trans (h.regs a ha)
  chn := h'.chn.trans h.chn
  routers := h'.routers.trans h.routers

theorem forAll {α : Type} {f : α → Chip → Chip} (l : List α) (hf : ∀ x c, DmaKeeps t c (f x c)) (c : Chip) :
    DmaKeeps t c (forAll f l c) :=
  forAll_keeps (P := DmaKeeps t c) l (fun x _ d hd => hd.trans (hf x d)) c (refl t c)

theorem when {f : Chip → Chip} (b : Bool) (hf : ∀ c, DmaKeeps t c (f c)) (c : Chip) : DmaKeeps t c (when_ b f c) := by
  cases b
  · exact refl t c
  · exact hf c

end DmaKeeps

section
variable (t : Nat)

theorem dmaKeeps_noteError (p : Nat × Nat) (c : Chip) : DmaKeeps t c (noteError t p c) := .of_frame (frame_noteError (fun _ h => h) p c)

theorem dmaKeeps_raiseFault (i : Nat) (c : Chip) : DmaKeeps t c (raise (Reg.TILE_FAULT t) i c) :=
  .of_frame (frame_raise _ _ (by simp [eccRegs]) (frame_refl ..))

theorem dmaKeeps_modSyn (f : Syn → Syn) (c : Chip) : DmaKeeps t c (modSyn t f c) := ⟨fun _ _ => rfl, by rw [tile_modSyn_same], rfl⟩

theorem dmaKeeps_dmaWord (w : Nat) (part : List (Nat × Byte)) (c : Chip) : DmaKeeps t c (dmaWord t w part c) := by
  have hput (p : Nat × Byte) (d : Chip) : DmaKeeps t d (putByte (win t + p.1) p.2 d) := ⟨fun _ _ => rfl, rfl, rfl⟩
  have hclear (d : Chip) : DmaKeeps t d (clearEcc (win t + 8 * w) 8 d) := ⟨fun _ _ => rfl, rfl, rfl⟩
  unfold dmaWord
  split
  · exact dmaKeeps_noteError t _ c
  · exact ((DmaKeeps.when _ (fun d => .forAll _ (dmaKeeps_noteError t) d) c).trans (.forAll part hput _)).trans (hclear _)

theorem dmaKeeps_dmaWrite (o : Nat) (bs : List Byte) (c : Chip) : DmaKeeps t c (dmaWrite t o bs c) := by
  refine (((DmaKeeps.when _ (dmaKeeps_raiseFault t 5) c).trans (.when _ (dmaKeeps_raiseFault t 6) _)).trans
    (.when _ (dmaKeeps_modSyn t _) _)).trans (.forAll _ (fun w d => ?_) _)
  dsimp only
  split
  · exact .refl t d
  · exact dmaKeeps_dmaWord t w _ d

end

/-- A channel register notes no errors. -/
theorem not_mem_eccRegs_of_le {t a : Nat} (h : 0x100000085000 + 0x100000 * t ≤ a) (h' : a < 0x100000086000 + 0x100000 * t) :
    a ∉ eccRegs t := by
  rw [mem_eccRegs]
  omega

/-- An update within a frame leaves memory. -/
theorem byteAt_of_frame {as ts : List Nat} {c c' : Chip} (h : Frame as ts c c') (a : Nat) : byteAt c' a = byteAt c a :=
  part_of_frameButReports (fun d => byteAt d a) (fun _ _ _ _ => rfl) (frameButReports_of_frame h)

end Sys2Proof.Machine
end

section
/-!
PROOFS. Settles O27: the broadcast receiver (R301, R302, R304, Table 10.12), whose half-blocks come by COLUMN_LOAD and TILE_LOAD.
-/

namespace Sys2Proof.Machine

open Sys2Proof.Safety

/-! ### A 64-bit quantity in two registers (R16) -/

theorem reg2_lt (c : Chip) (lo hi : Nat) : reg2 c lo hi < 2 ^ 64 := by
  have hlo := (reg c lo).isLt
  have hhi := (reg c hi).isLt
  unfold reg2
  omega

theorem reg2_congr {c c' : Chip} {lo hi : Nat} (hlo : reg c' lo = reg c lo) (hhi : reg c' hi = reg c hi) :
    reg2 c' lo hi = reg2 c lo hi := by
  rw [reg2, reg2, hlo, hhi]

theorem reg2_setReg2 {lo hi n : Nat} (h : lo ≠ hi) (hn : n < 2 ^ 64) (c : Chip) : reg2 (setReg2 lo hi n c) lo hi = n := by
  rw [setReg2, reg2, reg_putNum_same, reg_putNum_ne h, reg_putNum_same, BitVec.toNat_ofNat, BitVec.toNat_ofNat]
  omega

/-! ### A half dropped or ignored (R301) -/

section
variable {t : Nat} {busy poison : Bool} {body : List Flit} {c : Chip}

theorem takeHalf_ignored (h : rflag c (Reg.CHN_BC_CTRL t) 0 = false ∨ ¬ RowNamed t body) :
    takeHalf t busy poison (body.map (fun f => f.data)) c = c := by
  unfold takeHalf
  dsimp only
  split
  · rfl
  · next hen =>
    have hrow : ¬ RowNamed t body := h.resolve_left (by simpa using hen)
    rw [RowNamed, not_and_or, Nat.not_le, Nat.not_le] at hrow
    exact if_pos hrow

variable (he : rflag c (Reg.CHN_BC_CTRL t) 0 = true) (hr : RowNamed t body)
include he hr

theorem takeHalf_dropped (hb : busy = true ∨ poison = true) : takeHalf t busy poison (body.map (fun f => f.data)) c = bcDrop t c := by
  obtain ⟨hlo, hhi⟩ := hr
  have hbad : (poison || busy) = true := by simpa [or_comm] using hb
  rw [takeHalf, if_neg (by simp [he]), if_neg (not_or.2 ⟨Nat.not_lt.2 hlo, Nat.not_lt.2 hhi⟩), if_pos hbad]

end

/-- A half that is dropped is counted and raises fault bit 5. -/
theorem bcDrop_counts {t : Nat} {c d : Chip} (h : Frame [] [t] c d) :
    Advanced (Reg.CHN_BC_DROP t) 1 c (bcDrop t d) ∧ rflag (bcDrop t d) (Reg.CHN_FAULT t) 5 = true ∧
      Frame [Reg.CHN_BC_DROP t, Reg.CHN_FAULT t] [t] c (bcDrop t d) :=
  ⟨advanced_of_count (h.1 _ List.not_mem_nil) (reg_raise_ne (by simp [Reg.CHN_BC_DROP, Reg.CHN_FAULT]) ..), rflag_raise _ _ _ (by decide),
    frame_raise _ _ (by simp) (frame_count _ _ (by simp) (frame_mono (by simp) (fun _ hu => hu) h))⟩

/-! ### A half taken (R301, R302) -/

/-- LOAD_COMPLETE, or fault bit 6 of an accumulator that does not match: nothing else changes. -/
theorem frame_loadComplete (t : Nat) (c : Chip) : Frame [Reg.CHN_BC_STATUS t, Reg.CHN_FAULT t] [] c (loadComplete t c) := by
  unfold loadComplete
  dsimp only
  split
  · split
    · exact frame_raise _ _ (by simp) (frame_refl ..)
    · exact frame_raise _ _ (by simp) (frame_refl ..)
  · exact frame_refl ..

/-- Half `q` noted in the bitmap, and `crc` in the accumulator. -/
def halfNoted (t q crc : Nat) (c : Chip) : Chip :=
  c |> setReg2 (Reg.CHN_BC_MAP_LO t) (Reg.CHN_BC_MAP_HI t) ((bcMap c t).lor (2 ^ q))
    |> setReg (Reg.CHN_BC_CRC t) (reg c (Reg.CHN_BC_CRC t) ^^^ BitVec.ofNat 32 crc)

section
variable (t : Nat) {q : Nat} (crc : Nat) (c : Chip)

theorem bcMap_halfNoted (hq : q < 64) : bcMap (halfNoted t q crc c) t = (bcMap c t).lor (2 ^ q) := by
  have hlt : (bcMap c t).lor (2 ^ q) < 2 ^ 64 := Nat.or_lt_two_pow (reg2_lt ..) (Nat.pow_lt_pow_right (by decide) hq)
  have hset := reg2_setReg2 (lo := Reg.CHN_BC_MAP_LO t) (hi := Reg.CHN_BC_MAP_HI t) (by simp [Reg.CHN_BC_MAP_LO, Reg.CHN_BC_MAP_HI]) hlt c
  refine (reg2_congr ?_ ?_).trans hset
  · exact reg_setReg_ne _ _ (by simp [Reg.CHN_BC_MAP_LO, Reg.CHN_BC_CRC])
  · exact reg_setReg_ne _ _ (by simp [Reg.CHN_BC_MAP_HI, Reg.CHN_BC_CRC])

theorem crc_halfNoted : reg (halfNoted t q crc c) (Reg.CHN_BC_CRC t) = reg c (Reg.CHN_BC_CRC t) ^^^ BitVec.ofNat 32 crc :=
  reg_setReg_same ..

theorem byteAt_halfNoted (a : Nat) : byteAt (halfNoted t q crc c) a = byteAt c a := by
  rw [halfNoted, byteAt_setReg, setReg2, putNum_eq, byteAt_setReg, putNum_eq, byteAt_setReg]

end

/-- What the receiver keeps of a half once its bytes are written is what it held before, with the half noted. -/
theorem halfNoted_shows {t q : Nat} {c d : Chip} (crc : Nat) (hq : q < 64) (h : DmaKeeps t c d) :
    bcMap (loadComplete t (halfNoted t q crc d)) t = (bcMap c t).lor (2 ^ q) ∧
      reg (loadComplete t (halfNoted t q crc d)) (Reg.CHN_BC_CRC t) = reg c (Reg.CHN_BC_CRC t) ^^^ BitVec.ofNat 32 crc ∧
      ∀ a, byteAt (loadComplete t (halfNoted t q crc d)) a = byteAt d a := by
  have hkeep := frame_loadComplete t (halfNoted t q crc d)
  have hmap : bcMap d t = bcMap c t :=
    reg2_congr (h.regs _ (not_mem_eccRegs_of_le (by unfold Reg.CHN_BC_MAP_LO; omega) (by unfold Reg.CHN_BC_MAP_LO; omega)))
      (h.regs _ (not_mem_eccRegs_of_le (by unfold Reg.CHN_BC_MAP_HI; omega) (by unfold Reg.CHN_BC_MAP_HI; omega)))
  have hcrc : reg d (Reg.CHN_BC_CRC t) = reg c (Reg.CHN_BC_CRC t) :=
    h.regs _ (not_mem_eccRegs_of_le (by unfold Reg.CHN_BC_CRC; omega) (by unfold Reg.CHN_BC_CRC; omega))
  refine ⟨?_, ?_, fun a => (byteAt_of_frame hkeep a).trans (byteAt_halfNoted ..)⟩
  · rw [← hmap, ← bcMap_halfNoted t crc d hq]
    exact reg2_congr (hkeep.1 _ (by simp [Reg.CHN_BC_MAP_LO, Reg.CHN_BC_STATUS, Reg.CHN_FAULT]))
      (hkeep.1 _ (by simp [Reg.CHN_BC_MAP_HI, Reg.CHN_BC_STATUS, Reg.CHN_FAULT]))
  · rw [← hcrc, ← crc_halfNoted t crc d]
    exact hkeep.1 _ (by simp [Reg.CHN_BC_CRC, Reg.CHN_BC_STATUS, Reg.CHN_FAULT])

/-! ### The parts of a half-block (Table 10.7) -/

/-- The block of a half. -/
def bcBlock (body : List DWord) : Nat := bits (fData (body.getD 0 0#64)) 12 8

/-- Which half of its block it is. -/
def bcHalf (body : List DWord) : Nat := bits (fData (body.getD 0 0#64)) 13 13

/-- Its bytes. -/
def bcBytes (body : List DWord) : List Byte := (bodyBytes (body.drop 2)).take 128

/-- What it adds to the accumulator. -/
def bcCrc (body : List DWord) : Nat := crc32 ([BitVec.ofNat 8 (bcBlock body), BitVec.ofNat 8 (bcHalf body)] ++ bcBytes body)

/-- Where it goes in the window of tile `t`. -/
def bcOffset (t : Nat) (body : List DWord) (c : Chip) : Nat :=
  regionBase c t 3 - win t + 256 * bcBlock body + 128 * bcHalf body

theorem half_lt (body : List DWord) : 2 * bcBlock body + bcHalf body < 64 := by
  unfold bcBlock bcHalf bits
  omega

section
variable {t : Nat} {h : Flit} {body : List Flit} {c : Chip} (ha : HalfAcceptable t h body c)
include ha

/-- The receiver has adopted the load of an acceptable half, and its bytes fall on no running schedule. -/
theorem takeHalf_acceptable : takeHalf t false (anyPoison h body) (body.map (fun f => f.data)) c =
    loadComplete t (halfNoted t (2 * bcBlock (body.map (fun f => f.data)) + bcHalf (body.map (fun f => f.data)))
      (bcCrc (body.map (fun f => f.data)))
      (dmaWrite t (bcOffset t (body.map (fun f => f.data)) c) (bcBytes (body.map (fun f => f.data))) c)) := by
  obtain ⟨hen, hpoison, hlo, hhi, hload, hnew, hclear⟩ := ha
  have hcut : ((List.range 128).map (fun i => bcOffset t (body.map (fun f => f.data)) c + i)).any (inSchedule c t) = false := by
    refine List.any_eq_false.2 (fun x hx => ?_)
    obtain ⟨i, hi, rfl⟩ := List.mem_map.1 hx
    exact Bool.eq_false_iff.1 (hclear i (List.mem_range.1 hi))
  have hrow := not_or.2 ⟨Nat.not_lt.2 hlo, Nat.not_lt.2 hhi⟩
  unfold takeHalf
  simp only [hen, hpoison, hload, hnew, hrow, when_, bne_self_eq_false, Bool.or_self, Bool.not_true, Bool.false_eq_true, if_false]
  exact if_neg (Bool.eq_false_iff.1 hcut)

theorem takeHalf_taken :
    HalfTaken t (body.map (fun f => f.data)) c (takeHalf t false (anyPoison h body) (body.map (fun f => f.data)) c) := by
  rw [takeHalf_acceptable ha]
  exact halfNoted_shows _ (half_lt _) (dmaKeeps_dmaWrite ..)

end

/-! ### COLUMN_LOAD and TILE_LOAD (R301, R304) -/

section
variable {t p : Nat} {h : Flit} {body : List Flit} {c : Chip}

theorem columnLoad_found (hfind : dmaFind c t 5 (fun h => fMop h.data == 0 || decide (4 ≤ fMop h.data)) = some (p, h, body))
    (hm : fMop h.data = 0) (busy : Bool) :
    columnLoad t busy c = takeHalf t busy (anyPoison h body) (body.map (fun f => f.data)) (dmaDrop t p 5 c) :=
  (maintenance_found hfind).trans (if_pos hm)

theorem tileLoad_found (hfind : dmaFind c t 5 (fun h => fMop h.data == 1 || decide (4 ≤ fMop h.data)) = some (p, h, body))
    (hm : fMop h.data = 1) (busy : Bool) :
    tileLoad t busy c = takeHalf t busy (anyPoison h body) (body.map (fun f => f.data)) (dmaDrop t p 5 c) :=
  (maintenance_found hfind).trans (if_pos hm)

end

/-- What a command `i busy` does that gives the receiver of tile `t` the half found at its Local port. -/
theorem half_received {i : Bool → Instr} {f : Bool → Chip → Chip} {t : Fin 8192} {p : Nat} {h : Flit} {body : List Flit} {s : State}
    (hi : ∀ busy, exec (i busy) s = done s (atTile t (f busy) s.chip)) (hd : domOn s.chip (fieldOf t) = true)
    (hf : ∀ busy, f busy s.chip = takeHalf t busy (anyPoison h body) (body.map (fun f => f.data)) (dmaDrop t p 5 s.chip)) :
    (∀ busy, rflag s.chip (Reg.CHN_BC_CTRL t) 0 = true → RowNamed t body → (busy = true ∨ anyPoison h body = true) →
      ∃ c', Completes (i busy) s c' ∧ Advanced (Reg.CHN_BC_DROP t) 1 s.chip c' ∧ rflag c' (Reg.CHN_FAULT t) 5 = true ∧
        Frame [Reg.CHN_BC_DROP t, Reg.CHN_FAULT t] [t.val] s.chip c') ∧
    (∀ busy, (rflag s.chip (Reg.CHN_BC_CTRL t) 0 = false ∨ ¬ RowNamed t body) → Completes (i busy) s (dmaDrop t p 5 s.chip)) ∧
    (HalfAcceptable t h body (dmaDrop t p 5 s.chip) → ∃ c', Completes (i false) s c' ∧
      HalfTaken t (body.map (fun f => f.data)) (dmaDrop t p 5 s.chip) c') := by
  have hdrop := frame_dmaDrop t p 5 s.chip
  have hen : rflag (dmaDrop t p 5 s.chip) (Reg.CHN_BC_CTRL t) 0 = rflag s.chip (Reg.CHN_BC_CTRL t) 0 :=
    rflag_congr (hdrop.1 _ List.not_mem_nil)
  refine ⟨fun busy he hr hb => ?dropped, fun busy h => ?ignored, fun ha => ?taken⟩
  case dropped =>
    exact ⟨_, completes_tile (hi busy) hd ((hf busy).trans (takeHalf_dropped (hen.trans he) hr hb)), bcDrop_counts hdrop⟩
  case ignored => exact completes_tile (hi busy) hd ((hf busy).trans (takeHalf_ignored (h.imp_left hen.trans)))
  case taken => exact ⟨_, completes_tile (hi false) hd (hf false), takeHalf_taken ha⟩

/-! ### BC_CLEAR (Table 10.12) -/

section
variable (t : Nat) (c : Chip)

theorem bcMap_bcClear : bcMap (bcClear t c) t = 0 := by
  have hlo : reg (bcClear t c) (Reg.CHN_BC_MAP_LO t) = 0#32 := by
    rw [bcClear, reg_setBit_ne (by simp [Reg.CHN_BC_MAP_LO, Reg.CHN_BC_STATUS]),
      reg_putNum_ne (by simp [Reg.CHN_BC_MAP_LO, Reg.CHN_BC_CRC]), reg_putNum_ne (by simp [Reg.CHN_BC_MAP_LO, Reg.CHN_BC_MAP_HI]), reg_putNum_same]
  have hhi : reg (bcClear t c) (Reg.CHN_BC_MAP_HI t) = 0#32 := by
    rw [bcClear, reg_setBit_ne (by simp [Reg.CHN_BC_MAP_HI, Reg.CHN_BC_STATUS]),
      reg_putNum_ne (by simp [Reg.CHN_BC_MAP_HI, Reg.CHN_BC_CRC]), reg_putNum_same]
  rw [bcMap, reg2, hlo, hhi]
  rfl

theorem crc_bcClear : reg (bcClear t c) (Reg.CHN_BC_CRC t) = 0#32 := by
  rw [bcClear, reg_setBit_ne (by simp [Reg.CHN_BC_CRC, Reg.CHN_BC_STATUS]), reg_putNum_same]

theorem loadComplete_bcClear : rflag (bcClear t c) (Reg.CHN_BC_STATUS t) 31 = false := rflag_setBit_same _ (by decide) _ _

theorem frame_bcClear :
    Frame [Reg.CHN_BC_MAP_LO t, Reg.CHN_BC_MAP_HI t, Reg.CHN_BC_CRC t, Reg.CHN_BC_STATUS t] [] c (bcClear t c) :=
  frame_setBit _ _ _ (by simp) (frame_putNum _ _ (by simp) (frame_putNum _ _ (by simp) (frame_putNum _ _ (by simp) (frame_refl ..))))

end

/-! ### The obligation -/

/-- Settles O27: both commands by what the receiver does with the half, BC_CLEAR by its four registers. -/
theorem broadcastHalvesLoad : Obligations.BroadcastHalvesLoad := by
  intro t s hd
  exact ⟨fun p h body hfind hm => half_received (fun _ => rfl) hd (columnLoad_found hfind hm),
    fun p h body hfind hm => half_received (fun _ => rfl) hd (tileLoad_found hfind hm),
    _, completes_tile rfl hd rfl, bcMap_bcClear .., crc_bcClear .., loadComplete_bcClear .., frame_bcClear ..⟩

end Sys2Proof.Machine
end

section
/-!
PROOFS. Settles O25: messages sent (R286), staged (R289), and acted on once their TAIL has come (R288, R290 to R294).
-/

namespace Sys2Proof.Machine

open Sys2Proof.Safety

/-! ### A message on its way to the router (R286) -/

/-- The flits of a message with head `h`, whose body flits carry POISON as `body` marks them. -/
def messageFlits (h : DWord) (body : List (DWord × Bool)) : List Flit :=
  ((packet 2 h (body.map (fun p => p.1))).zip (false :: body.map (fun p => p.2))).map (fun p => { p.1 with poison := p.2 })

theorem vc_messageFlits (h : DWord) (body : List (DWord × Bool)) : ∀ f ∈ messageFlits h body, f.vc = 2 := by
  intro f hf
  obtain ⟨⟨g, b⟩, hg, rfl⟩ := List.mem_map.1 hf
  exact vc_packet 2 h _ g (List.of_mem_zip hg).1

theorem data_messageFlits (h : DWord) (body : List (DWord × Bool)) :
    (messageFlits h body).map (fun f => f.data) = h :: body.map (fun p => p.1) := by
  have hdata := data_packet 2 h (body.map (fun p => p.1))
  have hlen : (packet 2 h (body.map (fun p => p.1))).length ≤ (false :: body.map (fun p => p.2)).length := by
    simpa using (congrArg List.length hdata).le
  calc (messageFlits h body).map (fun f => f.data)
      = (((packet 2 h (body.map (fun p => p.1))).zip (false :: body.map (fun p => p.2))).map Prod.fst).map (fun f => f.data) := by
        rw [messageFlits, List.map_map, List.map_map]; rfl
    _ = h :: body.map (fun p => p.1) := by rw [List.map_fst_zip hlen, hdata]

theorem reg_sendPacket (t p : Nat) (fs : List Flit) (c : Chip) (a : Nat) : reg (sendPacket t p fs c) a = reg c a :=
  reg_forAll fs (fun f _ d => reg_putWire t p f d a) c

theorem tile_sendPacket (t p : Nat) (fs : List Flit) (c : Chip) (u : Nat) : tile (sendPacket t p fs c) u = tile c u :=
  forAll_keeps (P := fun d => tile d u = tile c u) fs (fun f _ d h => (tile_putWire t p f d u).trans h) c rfl

theorem wire_nextWord (t : Nat) (c : Chip) (u p v : Nat) : wire (nextWord t c) u p v = wire c u p v := by
  unfold nextWord fetchCe when_
  split <;> rfl

/-! ### EMIT_MESSAGE (R286) -/

/-- The transmit entry that the word at the pointer of tile `t` names. -/
def txOf (c : Chip) (t : Nat) : Word := reg c (Reg.CHN_TX t (bits (wordAt c t) 25 20))

/-- The head of the message that EMIT_MESSAGE sends. -/
def sentHead (c : Chip) (t : Nat) : DWord :=
  mkHead 2 (tileEpoch c t) 0 (fld (txOf c t) 30 30) (fld (txOf c t) 22 16) (fld (txOf c t) 13 8) (bits (wordAt c t) 4 0) t
    (messageSub (fld (txOf c t) 29 24) (7 * bits (wordAt c t) 4 0) (fld (txOf c t) 0 0))

/-- Its body flits. -/
def sentBody (c : Chip) (t : Nat) : List (DWord × Bool) := messageBody c t (32 * bits (wordAt c t) 19 8) (bits (wordAt c t) 4 0)

/-- The payload read and the message handed over, before the sequencer moves on. -/
def messageSent (t : Nat) (c : Chip) : Chip :=
  c |> engineRead t (win t + 32 * bits (wordAt c t) 19 8) (7 * bits (wordAt c t) 4 0)
    |> sendPacket t 4 (messageFlits (sentHead c t) (sentBody c t)) |> count (Reg.CHN_SENT t) 1

/-- An invalid transmit entry counted, with its fault bit. -/
def entryRefused (t : Nat) (c : Chip) : Chip := raise (Reg.CHN_FAULT t) 2 (count (Reg.CHN_TX_INVALID t) 1 c)

section
variable {t : Nat} {c : Chip}

section
variable (hw : atWord c t 0x04 = true)
include hw

theorem emitMessage_waits (hb : 2 ≤ sendBusy c t) : emitMessage t c = holdWord t c := by simp [emitMessage, hw, hb]

theorem emitMessage_invalid (hb : sendBusy c t < 2) (hv : flag (txOf c t) 31 = false) :
    emitMessage t c = nextWord t (entryRefused t c) := by
  unfold txOf at hv
  simp [emitMessage, hw, Nat.not_le.2 hb, hv, entryRefused]

theorem emitMessage_sends (hb : sendBusy c t < 2) (hv : flag (txOf c t) 31 = true) : emitMessage t c = nextWord t (messageSent t c) := by
  unfold txOf at hv
  simp only [emitMessage, hw, Nat.not_le.2 hb, hv, Bool.not_true, Bool.false_eq_true, if_false, if_true]
  rfl

end

theorem wire_messageSent : (wire (messageSent t c) t 4 2).map (fun f => f.data) =
    (wire c t 4 2).map (fun f => f.data) ++ (sentHead c t :: (sentBody c t).map (fun x => x.1)) := by
  have hread (a n : Nat) : wire (engineRead t a n c) t 4 2 = wire c t 4 2 :=
    part_of_frameButReports (fun d => wire d t 4 2) (fun _ _ _ _ => rfl) (errorsNoted_engineRead t a n c).1
  have hcount (d : Chip) : wire (count (Reg.CHN_SENT t) 1 d) t 4 2 = wire d t 4 2 := rfl
  rw [messageSent, hcount, wire_sendPacket (vc_messageFlits _ _), hread, List.map_append, data_messageFlits]

theorem advanced_messageSent : Advanced (Reg.CHN_SENT t) 1 c (messageSent t c) := by
  refine advanced_of_count ((reg_sendPacket ..).trans ?_) rfl
  refine reg_of_frameButReports (errorsNoted_engineRead t _ _ c).1 (not_mem_eccRegs_of_le ?_ ?_) <;> unfold Reg.CHN_SENT <;> omega

theorem tile_messageSent (u : Nat) : tile (messageSent t c) u = tile c u := by
  rw [messageSent, tile_count, tile_sendPacket]
  exact tile_of_frameButReports (errorsNoted_engineRead t _ _ c).1 List.not_mem_nil

theorem advanced_entryRefused : Advanced (Reg.CHN_TX_INVALID t) 1 c (nextWord t (entryRefused t c)) := by
  refine advanced_of_count (d := c) rfl ?_
  rw [reg_nextWord_ne (by simp [Reg.CHN_TX_INVALID, Reg.TILE_SRAM_CE]), entryRefused,
    reg_raise_ne (by simp [Reg.CHN_TX_INVALID, Reg.CHN_FAULT])]

theorem fault_entryRefused : rflag (nextWord t (entryRefused t c)) (Reg.CHN_FAULT t) 2 = true :=
  (rflag_congr (reg_nextWord_ne (by simp [Reg.CHN_FAULT, Reg.TILE_SRAM_CE]) _)).trans (rflag_raise _ _ _ (by decide))

theorem frame_entryRefused :
    Frame [Reg.CHN_TX_INVALID t, Reg.CHN_FAULT t, Reg.TILE_SRAM_CE t] [t] c (nextWord t (entryRefused t c)) :=
  frame_trans (frame_raise _ _ (by simp) (frame_count _ _ (by simp) (frame_refl ..))) (nextWord_moves t _ (by simp) (by simp)).2

end

/-! ### A router without flits, however its buffers are listed -/

/-- Router `t` holds no flit and no combined collective. -/
def NoFlits (t : Nat) (c : Chip) : Prop := (∀ p v, bufAt c t p v = []) ∧ (router c t).collOut = []

theorem serveAll_of_noFlits {t : Nat} {c : Chip} (h : NoFlits t c) : serveAll t c = c := by
  obtain ⟨hbuf, hcoll⟩ := h
  have hwait : waiting c t = [] := by
    rw [waiting_eq]
    simp only [hbuf, arrivalOf]
    rfl
  have hmove : nextMove c t = none := by simp [nextMove, hwait, moveColl, hcoll]
  rw [serveAll, serve, hmove]

/-! ### MESSAGE_HEAD (R289) -/

/-- The staging buffer that the head flit of `h`, at input `p`, opens. -/
def stagedHead (p : Nat) (h : Held) : Staged :=
  { head := h.flit.data, port := p, body := [], done := h.flit.tail, poison := h.flit.poison }

/-- The units of a tile with one more message in its staging buffers. -/
def stagedUnits (m : Staged) (T : Tile) : Tile := { T with chn := { T.chn with staging := T.chn.staging ++ [m] } }

/-- The head flit gone from its input buffer, in a staging buffer. -/
def headTaken (t p : Nat) (h : Held) (c : Chip) : Chip :=
  c |> setBuf t p 2 [] |> creditBack t p 2 h.flit |> modTile t (stagedUnits (stagedHead p h))
    |> setPath t p 2 (if h.flit.tail then 0 else 5) |> setAlloc t 4 2 (if h.flit.tail then 0 else p + 1)

/-- That head counted. -/
def headStaged (t p : Nat) (h : Held) (c : Chip) : Chip :=
  headTaken t p h c |> count (Reg.CHN_ACCEPTED t) 1 |> count (Reg.RTR_FLITS t 4) 1

theorem creditBack_eq (t p v : Nat) (f : Flit) (c : Chip) : ∃ w, creditBack t p v f c = { c with creditWires := w } := by
  unfold creditBack
  split
  · exact ⟨_, rfl⟩
  · exact ⟨c.creditWires, rfl⟩

theorem tile_modRouter (k : Nat) (f : Router → Router) (c : Chip) (u : Nat) : tile (modRouter k f c) u = tile c u := rfl

/-- `c'` is within a frame of `c` but for the routers and the credits on their way. -/
def FrameButMesh (as ts : List Nat) (c c' : Chip) : Prop := Frame as ts c { c' with routers := c.routers, creditWires := c.creditWires }

section
variable {as ts : List Nat} {c d : Chip} (h : FrameButMesh as ts c d)
include h

theorem frameButMesh_modRouter (t : Nat) (f : Router → Router) : FrameButMesh as ts c (modRouter t f d) := h

theorem frameButMesh_creditBack (t p v : Nat) (f : Flit) : FrameButMesh as ts c (creditBack t p v f d) := by
  obtain ⟨w, hw⟩ := creditBack_eq t p v f d
  rw [hw]
  exact h

theorem frameButMesh_modTile (t : Nat) (f : Tile → Tile) (ht : t ∈ ts) : FrameButMesh as ts c (modTile t f d) := frame_modTile t f ht h

theorem frameButMesh_count (a n : Nat) (ha : a ∈ as) : FrameButMesh as ts c (count a n d) := frame_count a n ha h

end

section
variable {t p : Nat} {h : Held} {c : Chip}

theorem tile_headStaged : tile (headStaged t p h c) t = stagedUnits (stagedHead p h) (tile c t) := by
  rw [headStaged, tile_count, tile_count, headTaken, setAlloc, setPath, tile_modRouter, tile_modRouter, tile_modTile_same, tile_creditBack,
    setBuf, tile_modRouter]

theorem router_headStaged : (router (headStaged t p h c) t).buf = setList (8 * p + 2) [] (router c t).buf ∧
    (router (headStaged t p h c) t).collOut = (router c t).collOut := by
  have hrouter : router (modTile t (stagedUnits (stagedHead p h)) (creditBack t p 2 h.flit (setBuf t p 2 [] c))) t =
      router (setBuf t p 2 [] c) t := router_creditBack t
  rw [headStaged, count_eq, router_setReg, count_eq, router_setReg, headTaken, setAlloc, router_modRouter_same, setPath,
    router_modRouter_same, hrouter, setBuf, router_modRouter_same]
  exact ⟨rfl, rfl⟩

/-- With its only flit gone, the router holds none. -/
theorem noFlits_headStaged (ho : ∀ p' v', (p', v') ≠ (p, 2) → bufAt c t p' v' = []) (hc : (router c t).collOut = []) :
    NoFlits t (headStaged t p h c) := by
  obtain ⟨hbuf, hcoll⟩ := router_headStaged (t := t) (p := p) (h := h) (c := c)
  refine ⟨fun p' v' => ?_, by rw [hcoll, hc]⟩
  rw [bufAt, hbuf]
  by_cases hkey : 8 * p' + v' = 8 * p + 2
  · rw [hkey, listOf_setList_same]
  · rw [listOf_setList_ne _ _ hkey]
    exact ho p' v' (by rintro ⟨⟩; exact hkey rfl)

theorem messageHead_stages (hb : bufAt c t p 2 = [h]) (ho : ∀ p' v', (p', v') ≠ (p, 2) → bufAt c t p' v' = [])
    (hc : (router c t).collOut = []) (hh : h.flit.head = true) (hd : droppingOf c t p 2 = false)
    (hq : hopOf c t p h.flit.data none = some (.out 4)) (hs : (tile c t).chn.staging.length < 4) (ha : allocOf c t 4 2 = 0) :
    messageHead t p c = headStaged t p h c := by
  have hpop : popBuf t p 2 c = creditBack t p 2 h.flit (setBuf t p 2 [] c) := by rw [popBuf, hb]
  rw [messageHead, hb]
  simp only [hh, hd, hq, hs, ha, hpop, Bool.not_false, beq_self_eq_true, Bool.and_self, decide_true, if_true]
  exact serveAll_of_noFlits (noFlits_headStaged ho hc)

theorem advanced_headStaged : Advanced (Reg.CHN_ACCEPTED t) 1 c (headStaged t p h c) := by
  refine advanced_of_count (d := headTaken t p h c) ?_ (reg_count_ne (by simp [Reg.CHN_ACCEPTED, Reg.RTR_FLITS]; omega) ..)
  rw [headTaken, setAlloc, setPath, reg_modRouter, reg_modRouter, reg_modTile, reg_creditBack, setBuf, reg_modRouter]

theorem frame_headStaged : FrameButMesh [Reg.CHN_ACCEPTED t, Reg.RTR_FLITS t 4] [t] c (headStaged t p h c) := by
  have hpopped := frameButMesh_creditBack (frameButMesh_modRouter (frame_refl [Reg.CHN_ACCEPTED t, Reg.RTR_FLITS t 4] [t] c) t
    (fun R => { R with buf := setList (8 * p + 2) [] R.buf })) t p 2 h.flit
  have hstaged := frameButMesh_modTile hpopped t (stagedUnits (stagedHead p h)) (by simp)
  exact frameButMesh_count (frameButMesh_count (frameButMesh_modRouter (frameButMesh_modRouter hstaged t _) t _) _ _ (by simp)) _ _ (by simp)

end

/-! ### A complete message acted on (R288, R290, R292 to R294) -/

/-- The units of a tile whose staging buffer `slot` is free again. -/
def unstagedUnits (slot : Nat) (T : Tile) : Tile := { T with chn := { T.chn with staging := T.chn.staging.eraseIdx slot } }

/-- The step that a data record of tile `t` carries. -/
def stepShown (c : Chip) (t : Nat) : Nat := match tbOfTile c t with | some j => tickNow c j | none => 0

/-- What the commit of message `m` to ring `n` writes, `none` when the ring has no room. -/
def commitOf (t n : Nat) (m : Staged) (c : Chip) : Option (List (Nat × List Byte) × Nat × Nat) :=
  ringCommit (rxSize c t n) (rfld c (Reg.CHN_RX_WPTR t n) 14 0) (rfld c (Reg.CHN_RX_RPTR t n) 14 0)
    (rfld c (Reg.CHN_RX_STAT t n) 23 16) n (fSrc m.head) (stepShown c t) (mPayload m.head m.body)

/-- Records written at window offset `base` of tile `t`. -/
def recordsWritten (t base : Nat) (ws : List (Nat × List Byte)) (c : Chip) : Chip :=
  forAll (fun x c => dmaWrite t (base + x.1) x.2 c) ws c

theorem dmaKeeps_recordsWritten (t base : Nat) (ws : List (Nat × List Byte)) (c : Chip) : DmaKeeps t c (recordsWritten t base ws c) :=
  .forAll ws (fun x d => dmaKeeps_dmaWrite t (base + x.1) x.2 d) c

/-- Records in ring `n`, with its pointer and its sequence number moved past them. -/
def ringCommitted (t n : Nat) (ws : List (Nat × List Byte)) (w' seq : Nat) (c : Chip) : Chip :=
  recordsWritten t (64 * rfld c (Reg.CHN_RX_CFG t n) 10 0) ws c |> setFld (Reg.CHN_RX_STAT t n) 23 16 seq
    |> putNum (Reg.CHN_RX_WPTR t n) w' |> count (Reg.CHN_COMMITTED t) 1

/-- The fault bit of a ring filled to its threshold. -/
def thresholdWarned (t : Nat) (b : Bool) (c : Chip) : Chip := when_ b (raise (Reg.CHN_FAULT t) 3) c

section
variable {t n : Nat} {m : Staged} {c : Chip}

theorem commitTile_full (h : commitOf t n m c = none) :
    commitTile t n m c = raise (Reg.CHN_FAULT t) 0 (count (Reg.CHN_OVERFLOW t) 1 c) := by
  unfold commitTile
  dsimp only
  split
  · rfl
  · next hsome => exact absurd (h.symm.trans hsome) (by simp)

theorem commitTile_fits {ws : List (Nat × List Byte)} {w' seq : Nat} (h : commitOf t n m c = some (ws, w', seq)) :
    ∃ b, commitTile t n m c = thresholdWarned t b (ringCommitted t n ws w' seq c) := by
  unfold commitTile
  dsimp only
  split
  · next hnone => exact absurd (h.symm.trans hnone) (by simp)
  · next hsome =>
    obtain ⟨rfl, rfl, rfl⟩ : _ ∧ _ ∧ _ := by simpa using h.symm.trans hsome
    exact ⟨_, rfl⟩

theorem finishMessage_bad (h : (m.poison || !wellFormed m.head || mResult m.head) = true) :
    finishMessage t m c = raise (Reg.CHN_FAULT t) 1 (count (Reg.CHN_POISON t) 1 c) := if_pos h

variable (h : (m.poison || !wellFormed m.head || mResult m.head) = false)
include h

theorem finishMessage_closed (ho : rxOpen c t (mChannel m.head) = false) : finishMessage t m c = count (Reg.CHN_DISCARD t) 1 c := by
  simp [finishMessage, h, ho]

theorem finishMessage_open (ho : rxOpen c t (mChannel m.head) = true) : finishMessage t m c = commitTile t (mChannel m.head) m c := by
  simp [finishMessage, h, ho]

end

section
variable (t n : Nat) (b : Bool) (ws : List (Nat × List Byte)) (w' seq : Nat) (c : Chip)

theorem reg_thresholdWarned {a : Nat} (h : a ≠ Reg.CHN_FAULT t) : reg (thresholdWarned t b c) a = reg c a := by
  cases b
  · rfl
  · exact reg_raise_ne h ..

theorem frame_thresholdWarned : Frame [Reg.CHN_FAULT t] [] c (thresholdWarned t b c) :=
  frame_when _ _ (frame_refl ..) (frame_raise _ _ (by simp) (frame_refl ..))

/-- The units of the chip that a commit leaves beside its registers are those that writing the records leaves. -/
theorem frame_commit : Frame [Reg.CHN_RX_STAT t n, Reg.CHN_RX_WPTR t n, Reg.CHN_COMMITTED t, Reg.CHN_FAULT t] []
    (recordsWritten t (64 * rfld c (Reg.CHN_RX_CFG t n) 10 0) ws c) (thresholdWarned t b (ringCommitted t n ws w' seq c)) :=
  frame_trans (frame_count _ _ (by simp) (frame_putNum _ _ (by simp) (frame_setFld _ _ _ _ (by simp) (frame_refl ..))))
    (frame_mono (by simp) (by simp) (frame_thresholdWarned t b _))

theorem pointer_commit : reg (thresholdWarned t b (ringCommitted t n ws w' seq c)) (Reg.CHN_RX_WPTR t n) = BitVec.ofNat 32 w' := by
  rw [reg_thresholdWarned _ _ _ (by simp [Reg.CHN_RX_WPTR, Reg.CHN_FAULT]; omega), ringCommitted,
    reg_count_ne (by simp [Reg.CHN_RX_WPTR, Reg.CHN_COMMITTED]; omega), reg_putNum_same]

theorem seq_commit : rfld (thresholdWarned t b (ringCommitted t n ws w' seq c)) (Reg.CHN_RX_STAT t n) 23 16 = seq % 256 := by
  have hset := rfld_setFld (Reg.CHN_RX_STAT t n) 23 16 seq (recordsWritten t (64 * rfld c (Reg.CHN_RX_CFG t n) 10 0) ws c)
    (by decide) (by decide)
  refine (rfld_congr ?_).trans hset
  rw [reg_thresholdWarned _ _ _ (by simp [Reg.CHN_RX_STAT, Reg.CHN_FAULT]; omega), ringCommitted,
    reg_count_ne (by simp [Reg.CHN_RX_STAT, Reg.CHN_COMMITTED]; omega), reg_putNum_ne (by simp [Reg.CHN_RX_STAT, Reg.CHN_RX_WPTR])]

theorem advanced_commit : Advanced (Reg.CHN_COMMITTED t) 1 c (thresholdWarned t b (ringCommitted t n ws w' seq c)) := by
  refine advanced_of_count ?_ (reg_thresholdWarned _ _ _ (by simp [Reg.CHN_COMMITTED, Reg.CHN_FAULT]))
  rw [reg_putNum_ne (by simp [Reg.CHN_RX_WPTR, Reg.CHN_COMMITTED]; omega),
    reg_setFld_ne (by simp [Reg.CHN_RX_STAT, Reg.CHN_COMMITTED]; omega)]
  refine (dmaKeeps_recordsWritten ..).regs _ (not_mem_eccRegs_of_le ?_ ?_) <;> unfold Reg.CHN_COMMITTED <;> omega

theorem chn_commit : (tile (thresholdWarned t b (ringCommitted t n ws w' seq c)) t).chn = (tile c t).chn :=
  (congrArg Tile.chn ((frame_commit ..).2.1 t List.not_mem_nil)).trans (dmaKeeps_recordsWritten ..).chn

theorem byteAt_commit (a : Nat) : byteAt (thresholdWarned t b (ringCommitted t n ws w' seq c)) a =
    byteAt (recordsWritten t (64 * rfld c (Reg.CHN_RX_CFG t n) 10 0) ws c) a := byteAt_of_frame (frame_commit ..) a

theorem routers_commit : (thresholdWarned t b (ringCommitted t n ws w' seq c)).routers = c.routers :=
  (congrArg Chip.routers (frame_commit t n b ws w' seq c).2.2).trans (dmaKeeps_recordsWritten ..).routers

end

/-- A message that is acted on leaves the routers. -/
theorem routers_finishMessage (t : Nat) (m : Staged) (c : Chip) : (finishMessage t m c).routers = c.routers := by
  unfold finishMessage
  dsimp only
  split
  · rfl
  · split
    · rfl
    · cases h : commitOf t (mChannel m.head) m c with
      | none => rw [commitTile_full h]; rfl
      | some x =>
        obtain ⟨ws, w', seq⟩ := x
        obtain ⟨b, hb⟩ := commitTile_fits h
        rw [hb, routers_commit]

/-! ### MESSAGE_TAIL (R290, R291) -/

section
variable {t slot : Nat} {c : Chip}

theorem messageTail_waits (h : nextCommit (tile c t).chn.staging ≠ some slot) : messageTail t slot c = c := by
  unfold messageTail
  dsimp only
  split
  · rfl
  · exact if_pos h

theorem messageTail_acts {m : Staged} (hm : (tile c t).chn.staging[slot]? = some m) (hn : nextCommit (tile c t).chn.staging = some slot)
    (hq : QuietRouter t c) : messageTail t slot c = finishMessage t m (modTile t (unstagedUnits slot) c) := by
  have hrouter : router (finishMessage t m (modTile t (unstagedUnits slot) c)) t = router c t := by
    rw [router, routers_finishMessage]
    rfl
  simp only [messageTail, hm, hn, ne_eq, not_true_eq_false, if_false]
  exact serveAll_of_quiet ((quietRouter_congr hrouter).2 hq)

/-- A message taken off its staging buffer and refused, for the cause that counter `a` and fault bit `i` tell. -/
def messageRefused (t slot a i : Nat) (c : Chip) : Chip := raise (Reg.CHN_FAULT t) i (count a 1 (modTile t (unstagedUnits slot) c))

theorem messageRefused_leaves {a i : Nat} (slot : Nat) (c : Chip) (ha : a ≠ Reg.CHN_FAULT t) (hi : i < 32) :
    Advanced a 1 c (messageRefused t slot a i c) ∧ rflag (messageRefused t slot a i c) (Reg.CHN_FAULT t) i = true ∧
      Frame [a, Reg.CHN_FAULT t] [t] c (messageRefused t slot a i c) :=
  ⟨advanced_of_count (d := modTile t (unstagedUnits slot) c) rfl (reg_raise_ne ha ..), rflag_raise _ _ _ hi,
    frame_raise _ _ (by simp) (frame_count _ _ (by simp) (frame_modTile _ _ (by simp) (frame_refl ..)))⟩

end

/-! ### The obligation -/

/-- Settles O25: a word by its transmit entry, a head by its staging buffer, a complete message by what its ring can take. -/
theorem messageChannels : Obligations.MessageChannels := by
  intro t s hd
  refine ⟨fun hw => ⟨fun hb => ?waits, fun hb hv => ?invalid, fun hb hv => ?sends⟩,
    fun p h hb ho hc hh hdrop hq hs ha => ?head,
    fun slot hn => completes_tile rfl hd (messageTail_waits hn), fun slot m hm hn hquiet => ?tail⟩
  case waits =>
    obtain ⟨hwaits, -⟩ := holdWord_waits t s.chip (List.mem_singleton_self (Reg.TILE_SRAM_CE t)) (List.mem_singleton_self t.val)
    exact ⟨_, completes_tile rfl hd (emitMessage_waits hw hb), hwaits⟩
  case invalid =>
    exact ⟨_, completes_tile rfl hd (emitMessage_invalid hw hb hv), pastWord_nextWord rfl, advanced_entryRefused, fault_entryRefused,
      frame_entryRefused⟩
  case sends =>
    refine ⟨_, completes_tile rfl hd (emitMessage_sends hw hb hv), pastWord_nextWord (by rw [tile_messageSent]), ?_, ?_⟩
    · exact advanced_congr advanced_messageSent (reg_nextWord_ne (by simp [Reg.CHN_SENT, Reg.TILE_SRAM_CE]) _)
    · exact (congrArg _ (wire_nextWord ..)).trans wire_messageSent
  case head =>
    exact ⟨_, completes_tile rfl hd (messageHead_stages hb ho hc hh hdrop hq hs ha), congrArg (fun T => T.chn.staging) tile_headStaged,
      advanced_headStaged, frame_headStaged⟩
  case tail =>
    have hacts := messageTail_acts hm hn hquiet
    have hopen (hgood : (m.poison || !wellFormed m.head || mResult m.head) = false) (ho : rxOpen s.chip t (mChannel m.head) = true) :
        messageTail t slot s.chip = commitTile t (mChannel m.head) m (modTile t (unstagedUnits slot) s.chip) :=
      hacts.trans (finishMessage_open hgood ho)
    refine ⟨fun hbad => ?bad, fun hgood ho => ?closed, fun hgood ho hfull => ?full, fun ws w' seq hgood ho hfits _ => ?commits⟩
    case bad =>
      exact ⟨_, completes_tile rfl hd (hacts.trans (finishMessage_bad hbad)),
        messageRefused_leaves slot s.chip (by simp [Reg.CHN_POISON, Reg.CHN_FAULT]) (by decide)⟩
    case closed =>
      exact ⟨_, completes_tile rfl hd (hacts.trans (finishMessage_closed hgood ho)),
        advanced_of_count (d := modTile t (unstagedUnits slot) s.chip) rfl rfl, frame_count _ _ (by simp) (frame_modTile _ _ (by simp) (frame_refl ..))⟩
    case full =>
      exact ⟨_, completes_tile rfl hd ((hopen hgood ho).trans (commitTile_full hfull)),
        messageRefused_leaves slot s.chip (by simp [Reg.CHN_OVERFLOW, Reg.CHN_FAULT]) (by decide)⟩
    case commits =>
      obtain ⟨b, hb⟩ := commitTile_fits (c := modTile t (unstagedUnits slot) s.chip) hfits
      refine ⟨_, completes_tile rfl hd ((hopen hgood ho).trans hb), ?_, pointer_commit .., seq_commit ..,
        advanced_commit (c := modTile t (unstagedUnits slot) s.chip) .., fun a => byteAt_commit (c := modTile t (unstagedUnits slot) s.chip) ..⟩
      rw [chn_commit, tile_modTile_same]
      rfl

end Sys2Proof.Machine
end

section
/-!
SUPPORT. What every command keeps: the queue of waiting commands, the fuses of the Thistle core (R461, R465, R467, R476) and the
order of the sources in service (R442, R444, R448). One lemma per operation on the state as a whole; a command that acts on the
chip alone keeps all three.
-/

namespace Sys2Proof.Machine

open Sys2Proof.Safety

/-! ### Fuses (R461, R465, R467, R476) -/

/-- The fuses of `y` are those of `x` moved one way at most, and a root slot that `x` has left is left. -/
def SecKept (x y : Sec) : Prop := FusesOneWay x y ∧ (SlotLeft x → SlotLeft y)

theorem secKept_trans {x y z : Sec} (h : SecKept x y) (k : SecKept y z) : SecKept x z := by
  obtain ⟨⟨h1, h2, h3, h4, h5, h6⟩, hs⟩ := h
  obtain ⟨⟨k1, k2, k3, k4, k5, k6⟩, ks⟩ := k
  exact ⟨⟨k1.trans h1, k2.trans h2, k3.trans h3, fun j hj => k4 j (h4 j hj), fun hk => k5 (h5 hk),
    fun typ => (h6 typ).trans (k6 typ)⟩, fun hx => ks (hs hx)⟩

/-- An update that leaves root hashes, revocations, DEBUG_LOCK and seed, and lowers no minimum SVN, keeps the fuses. -/
theorem secKept_of_parts {x y : Sec} (hroot : y.rootHash = x.rootHash) (hlock : y.debugLock = x.debugLock) (hseed : y.seed = x.seed)
    (hrev : y.revoked = x.revoked) (hkill : x.seedKill = true → y.seedKill = true)
    (hsvn : ∀ typ, numOf x.svnMin typ ≤ numOf y.svnMin typ) : SecKept x y := by
  have hslot (k : Nat) : slotRevoked y k = slotRevoked x k := by rw [slotRevoked, hrev, slotRevoked]
  exact ⟨⟨hroot, hlock, hseed, fun k hk => (hslot k).trans hk, hkill, hsvn⟩, fun ⟨k, hk, hl⟩ => ⟨k, hk, (hslot k).trans hl⟩⟩

/-- An update outside the fuses keeps them. -/
theorem secKept_of_same {x y : Sec} (hroot : y.rootHash = x.rootHash) (hlock : y.debugLock = x.debugLock) (hseed : y.seed = x.seed)
    (hrev : y.revoked = x.revoked) (hkill : y.seedKill = x.seedKill) (hsvn : y.svnMin = x.svnMin) : SecKept x y :=
  secKept_of_parts hroot hlock hseed hrev (fun h => hkill.trans h) (fun _ => by rw [hsvn])

theorem secKept_refl (x : Sec) : SecKept x x := secKept_of_same rfl rfl rfl rfl rfl rfl

/-- Firmware that takes effect raises its minimum SVN at most (R467). -/
theorem secKept_takeFirmware (typ : Nat) (x : Sec) : SecKept x (takeFirmware typ x) := by
  unfold takeFirmware
  split
  · refine secKept_of_parts rfl rfl rfl rfl id (fun t => ?_)
    dsimp only
    split
    · by_cases ht : t = typ
      · rw [ht, numOf_setNum_same]
        exact Nat.le_max_left ..
      · rw [numOf_setNum_ne _ _ ht]
    · exact Nat.le_refl _
  · exact secKept_refl x

theorem slotRevoked_lor (x : Sec) (k j : Nat) :
    slotRevoked { x with revoked := x.revoked.lor (2 ^ k) } j = (slotRevoked x j || decide (k = j)) := by
  simp only [slotRevoked, bit_eq_testBit]
  exact (Nat.testBit_or ..).trans (by rw [Nat.testBit_two_pow])

/-- A revocation of a slot beside which another is left keeps the fuses (R465). -/
theorem secKept_revoke {x : Sec} {k : Nat} (h : (List.range 4).all (fun i => i == k || slotRevoked x i) = false) :
    SecKept x { x with revoked := x.revoked.lor (2 ^ k) } := by
  refine ⟨⟨rfl, rfl, rfl, fun j hj => by rw [slotRevoked_lor, hj, Bool.true_or], id, fun _ => Nat.le_refl _⟩, fun _ => ?_⟩
  obtain ⟨i, hi, hne⟩ := List.all_eq_false.1 h
  obtain ⟨hik, hleft⟩ : i ≠ k ∧ slotRevoked x i = false := by simpa using hne
  exact ⟨i, List.mem_range.1 hi, by rw [slotRevoked_lor, hleft, Bool.false_or, decide_eq_false (Ne.symm hik)]⟩

/-! ### Sources in service (R444) -/

/-- Services taken out of a falling list leave it falling. -/
theorem fallingFrom_sublist {l l' : List Service} (h : l'.Sublist l) : ∀ p, fallingFrom p l → fallingFrom p l' := by
  have lower : ∀ (l : List Service) (p q : Nat), p ≤ q → fallingFrom p l → fallingFrom q l := by
    intro l p q hpq hl
    cases l with
    | nil => trivial
    | cons x xs => exact ⟨Nat.lt_of_lt_of_le hl.1 hpq, hl.2⟩
  induction h with
  | slnil => exact fun _ h => h
  | cons x _ ih => exact fun p hl => lower _ _ _ (Nat.le_of_lt hl.1) (ih _ hl.2)
  | cons_cons x _ ih => exact fun p hl => ⟨hl.1, ih _ hl.2⟩

/-- The end of services keeps the order of the others. -/
theorem serviceOrder_filter {v : List Service} (p : Service → Bool) (h : ServiceOrder v) : ServiceOrder (v.filter p) :=
  fun k => ⟨fallingFrom_sublist ((List.filter_sublist (p := p) (l := v)).filter _) _ (h k).1,
    fun x hx => (h k).2 x (List.mem_filter.1 hx).1⟩

theorem serviceOrder_nil : ServiceOrder [] := fun _ => ⟨trivial, fun _ hx => absurd hx List.not_mem_nil⟩

theorem prio_le_foldl (l : List Nat) (m : Nat) : m ≤ l.foldl max m ∧ ∀ p ∈ l, p ≤ l.foldl max m := by
  induction l generalizing m with
  | nil => simp
  | cons q l ih =>
    obtain ⟨hle, hall⟩ := ih (max m q)
    simp only [List.foldl_cons, List.mem_cons, forall_eq_or_imp]
    exact ⟨(Nat.le_max_left m q).trans hle, (Nat.le_max_right m q).trans hle, hall⟩

/-- The running level of a target is at least the PRIO of every source in service with it. -/
theorem prio_le_runLevel {v : List Service} {k : Nat} {x : Service} (hx : x ∈ servedBy v k) : x.prio ≤ runLevel v k :=
  (prio_le_foldl _ _).2 _ (List.mem_map_of_mem hx)

/-- A source claimed above the running level keeps the order (R444). -/
theorem serviceOrder_claim {v : List Service} {k n p : Nat} (h : ServiceOrder v) (hlevel : runLevel v k < p) (hp : p < 16) :
    ServiceOrder ({ target := k, source := n, prio := p } :: v) := by
  intro j
  obtain ⟨hfall, hone⟩ := h j
  refine ⟨?_, fun x hx => ?_⟩
  · by_cases hj : k = j
    · subst hj
      rw [List.filter_cons_of_pos (by simp)]
      refine ⟨hp, ?_⟩
      cases hserved : v.filter (fun x => x.target == k) with
      | nil => trivial
      | cons x xs =>
        rw [hserved] at hfall
        have hx : x ∈ servedBy v k := by rw [servedBy, hserved]; exact List.mem_cons_self
        exact ⟨Nat.lt_of_le_of_lt (prio_le_runLevel hx) hlevel, hfall.2⟩
    · rw [List.filter_cons_of_neg (by simpa using hj)]
      exact hfall
  · rcases List.mem_cons.1 hx with rfl | hx
    · exact Nat.lt_of_le_of_lt (Nat.zero_le _) hlevel
    · exact hone x hx

theorem srcPrio_lt (c : Chip) (n : Nat) : srcPrio c n < 16 := Nat.mod_lt _ (by decide)

/-- The fold that looks for the best source ends with one of its sources. -/
theorem mem_of_foldl_betterSource {c : Chip} (l : List Nat) {best : Option Nat} {n : Nat} (h : l.foldl (betterSource c) best = some n) :
    n ∈ l ∨ best = some n := by
  induction l generalizing best with
  | nil => exact .inr h
  | cons m l ih =>
    rcases ih h with hl | hb
    · exact .inl (List.mem_cons_of_mem _ hl)
    · cases best with
      | none => exact .inl (by simp [betterSource] at hb; simp [hb])
      | some b =>
        unfold betterSource at hb
        dsimp only at hb
        split at hb
        · exact .inl (by simp at hb; simp [hb])
        · exact .inr hb

/-- The source that a claim returns is deliverable (R444). -/
theorem deliverable_of_candidate {v : List Service} {c : Chip} {k n : Nat} (h : candidate v c k = some n) :
    n < 512 ∧ deliverable v c k n = true := by
  rcases mem_of_foldl_betterSource _ h with hn | hn
  · exact ⟨List.mem_range.1 (List.mem_filter.1 hn).1, (List.mem_filter.1 hn).2⟩
  · cases hn

theorem runLevel_lt_of_deliverable {v : List Service} {c : Chip} {k n : Nat} (h : deliverable v c k n = true) :
    runLevel v k < srcPrio c n := by
  simp only [deliverable, Bool.and_eq_true, decide_eq_true_eq] at h
  exact h.2

/-! ### One step -/

/-- `t` has the queue of `s`, and keeps its fuses and the order of its sources in service. -/
structure StepKept (s t : State) : Prop where
  pending : t.pending = s.pending
  sec : SecKept s.sec t.sec
  irq : ServiceOrder s.irq → ServiceOrder t.irq

theorem stepKept_refl (s : State) : StepKept s s := ⟨rfl, secKept_refl _, id⟩

theorem stepKept_trans {s t u : State} (h : StepKept s t) (k : StepKept t u) : StepKept s u :=
  ⟨k.pending.trans h.pending, secKept_trans h.sec k.sec, fun hs => k.irq (h.irq hs)⟩

theorem stepKept_onChip (f : Chip → Chip) (s : State) : StepKept s (onChip f s) := ⟨rfl, secKept_refl _, id⟩

/-- An update of the chip after what is kept keeps it. -/
theorem stepKept_then_onChip {s t : State} (h : StepKept s t) (f : Chip → Chip) : StepKept s (onChip f t) :=
  stepKept_trans h (stepKept_onChip f t)

theorem stepKept_chip (s : State) (c : Chip) : StepKept s { s with chip := c } := ⟨rfl, secKept_refl _, id⟩

theorem stepKept_then_chip {s t : State} (h : StepKept s t) (c : Chip) : StepKept s { t with chip := c } :=
  stepKept_trans h (stepKept_chip t c)

/-- An update of the Thistle core's state that keeps the fuses. -/
theorem stepKept_sec {s : State} {x : Sec} (c : Chip) (h : SecKept s.sec x) : StepKept s { s with sec := x, chip := c } := ⟨rfl, h, id⟩

theorem stepKept_then_sec {s t : State} {x : Sec} (h : StepKept s t) (k : SecKept t.sec x) : StepKept s { t with sec := x } :=
  stepKept_trans h ⟨rfl, k, id⟩

theorem stepKept_ite {p : Prop} [Decidable p] {s t u : State} (ht : StepKept s t) (hu : StepKept s u) :
    StepKept s (if p then t else u) := by
  split
  · exact ht
  · exact hu

/-! ### The interrupt controller -/

theorem stepKept_claim (k : Nat) (s : State) : StepKept s (claim k s) := by
  unfold claim
  split
  · exact stepKept_chip ..
  · next n hn =>
    exact ⟨rfl, secKept_refl _, fun h =>
      serviceOrder_claim h (runLevel_lt_of_deliverable (deliverable_of_candidate hn).2) (srcPrio_lt ..)⟩

theorem stepKept_endService (k n : Nat) (s : State) : StepKept s (endService k n s) := by
  unfold endService
  split
  · exact ⟨rfl, secKept_refl _, serviceOrder_filter _⟩
  · exact stepKept_chip ..

theorem stepKept_clusterIrqReset (s : State) : StepKept s (clusterIrqReset s) := ⟨rfl, secKept_refl _, serviceOrder_filter _⟩

/-! ### Services of the Thistle core -/

theorem stepKept_errorState (cause : Nat) (s : State) : StepKept s (errorState cause s) :=
  stepKept_sec _ (secKept_of_same rfl rfl rfl rfl rfl rfl)

/-- A service keeps what its own part keeps. -/
theorem stepKept_runService {ok : SecJob → Bool} {f : SecJob → State → State} (h : ∀ j s, StepKept s (f j s)) (s : State) :
    StepKept s (runService ok f s) := by
  unfold runService
  split
  · split
    · exact stepKept_ite (stepKept_chip ..) (stepKept_trans (stepKept_chip ..) (h ..))
    · exact stepKept_refl s
  · exact stepKept_refl s

theorem stepKept_plainService (f : SecJob → Sec → Chip → Chip) (j : SecJob) (s : State) : StepKept s (plainService f j s) :=
  stepKept_chip ..

theorem stepKept_svcSelftest (failed : Word) (j : SecJob) (s : State) : StepKept s (svcSelftest failed j s) := by
  unfold svcSelftest
  split
  · exact stepKept_chip ..
  · exact stepKept_trans (stepKept_chip ..) (stepKept_errorState ..)

theorem stepKept_acceptPackage (o : List Byte) (len : Nat) (s : State) : StepKept s (acceptPackage o len s).2 := by
  unfold acceptPackage
  split
  · exact stepKept_then_sec (stepKept_refl s) (secKept_of_same rfl rfl rfl rfl rfl rfl)
  · exact stepKept_trans (stepKept_chip ..) (stepKept_errorState ..)

theorem stepKept_updateFirmware (o : List Byte) (len : Nat) (s : State) : StepKept s (updateFirmware o len s).2 := by
  unfold updateFirmware
  split
  · split
    · exact stepKept_sec _ (secKept_of_same rfl rfl rfl rfl rfl rfl)
    · exact stepKept_refl s
  · dsimp only
    split
    · exact stepKept_then_chip (stepKept_acceptPackage ..) _
    · exact stepKept_acceptPackage ..

theorem stepKept_svcFwUpdate (j : SecJob) (s : State) : StepKept s (svcFwUpdate j s) :=
  stepKept_then_chip (stepKept_updateFirmware ..) _

theorem stepKept_svcKeyLoad (j : SecJob) (s : State) : StepKept s (svcKeyLoad j s) := by
  unfold svcKeyLoad
  dsimp only
  refine stepKept_ite (stepKept_chip ..) (stepKept_ite (stepKept_chip ..) (stepKept_ite (stepKept_chip ..)
    (stepKept_ite (stepKept_chip ..) ?_)))
  split
  · exact stepKept_chip ..
  · exact stepKept_sec _ (secKept_of_same rfl rfl rfl rfl rfl rfl)

theorem stepKept_svcKeyClear (j : SecJob) (s : State) : StepKept s (svcKeyClear j s) :=
  stepKept_ite (stepKept_chip ..) (stepKept_sec _ (secKept_of_same rfl rfl rfl rfl rfl rfl))

theorem stepKept_svcRevoke (j : SecJob) (s : State) : StepKept s (svcRevoke j s) := by
  unfold svcRevoke
  dsimp only
  refine stepKept_ite (stepKept_chip ..) (stepKept_ite (stepKept_chip ..) ?_)
  split
  · exact stepKept_chip ..
  · next h => exact stepKept_sec _ (secKept_revoke (Bool.eq_false_iff.2 h))

theorem stepKept_svcDebugUnlock (j : SecJob) (s : State) : StepKept s (svcDebugUnlock j s) := by
  change StepKept s (match objectCode s.sec s.chip (· == 0x13) (bufBytes s.chip j.src) (bufLen s.chip j.src) with
    | 0 => _
    | n => _)
  split
  · exact stepKept_sec _ (secKept_of_same rfl rfl rfl rfl rfl rfl)
  · exact stepKept_chip ..

theorem stepKept_svcZeroize (j : SecJob) (s : State) : StepKept s (svcZeroize j s) :=
  stepKept_ite (stepKept_chip ..) (stepKept_sec _ (secKept_of_parts rfl rfl rfl rfl (fun h => by
    change (s.sec.seedKill || _) = true
    rw [h, Bool.true_or]) (fun _ => Nat.le_refl _)))

theorem stepKept_verifyDone (s : State) : StepKept s (verifyDone s) := by
  unfold verifyDone
  split
  · dsimp only
    refine stepKept_ite (stepKept_ite (stepKept_chip ..) (stepKept_ite ?_ (stepKept_chip ..))) (stepKept_refl s)
    exact stepKept_sec _ (secKept_of_same rfl rfl rfl rfl rfl rfl)
  · exact stepKept_refl s

theorem stepKept_licDone (s : State) : StepKept s (licDone s) := by
  unfold licDone
  split
  · dsimp only
    refine stepKept_ite (stepKept_ite ?_ (stepKept_chip ..)) (stepKept_refl s)
    exact stepKept_sec _ (secKept_of_same rfl rfl rfl rfl rfl rfl)
  · exact stepKept_refl s

/-! ### Resets and starts -/

theorem stepKept_thistleRestart (s : State) : StepKept s (thistleRestart s) :=
  stepKept_sec _ (secKept_of_same rfl rfl rfl rfl rfl rfl)

theorem stepKept_thistleUp (s : State) : StepKept s (thistleUp s) := stepKept_sec _ (secKept_of_same rfl rfl rfl rfl rfl rfl)

/-- A state whose services have all ended. -/
theorem stepKept_unserved (s : State) (c : Chip) : StepKept s { s with chip := c, irq := [] } :=
  ⟨rfl, secKept_refl _, fun _ => serviceOrder_nil⟩

theorem stepKept_switchedReset (s : State) : StepKept s (switchedReset s) := by
  unfold switchedReset
  refine stepKept_then_onChip (stepKept_then_sec (stepKept_trans (stepKept_unserved ..) (stepKept_thistleRestart ..)) ?_) _
  exact secKept_trans (secKept_trans (secKept_takeFirmware ..) (secKept_takeFirmware ..)) (secKept_takeFirmware ..)

theorem stepKept_coldReset (s : State) : StepKept s (coldReset s) := by
  have hempty : SecKept s.sec { s.sec with keys := [], scope := 0, derived := false, drbg := false } :=
    secKept_of_same rfl rfl rfl rfl rfl rfl
  unfold coldReset
  exact ⟨rfl, secKept_trans (secKept_trans (secKept_trans (secKept_trans hempty (secKept_takeFirmware 4 _))
    (secKept_takeFirmware 3 _)) (secKept_takeFirmware 2 _)) (secKept_takeFirmware 1 _), fun _ => serviceOrder_nil⟩

theorem stepKept_enterFallow (cause : Nat) (s : State) : StepKept s (enterFallow cause s) := by
  unfold enterFallow
  exact stepKept_then_onChip (stepKept_then_sec (stepKept_trans (stepKept_switchedReset s) (stepKept_thistleUp _))
    (secKept_takeFirmware 4 _)) _

theorem stepKept_startFail (cause : Nat) (s : State) : StepKept s (startFail cause s) :=
  stepKept_ite (stepKept_trans (stepKept_onChip ..) (stepKept_enterFallow ..)) (stepKept_then_onChip (stepKept_onChip ..) _)

theorem stepKept_failNow (cause : Nat) (s : State) : StepKept s (failNow cause s) :=
  stepKept_ite (stepKept_startFail ..) (stepKept_refl s)

theorem stepKept_stageEight (s : State) : StepKept s (stageEight s) := stepKept_onChip ..

theorem stepKept_censusRound (s : State) : StepKept s (censusRound s) := by
  unfold censusRound
  dsimp only
  split
  · exact stepKept_onChip ..
  · split
    · exact stepKept_ite (stepKept_trans (stepKept_then_onChip (stepKept_onChip ..) _) (stepKept_failNow ..))
        (stepKept_then_onChip (stepKept_onChip ..) _)
    · exact stepKept_then_onChip (stepKept_onChip ..) _

theorem stepKept_stageNine (s : State) : StepKept s (stageNine s) := by
  unfold stageNine
  dsimp only
  split
  · split
    · split
      · exact stepKept_then_onChip (stepKept_onChip ..) _
      · exact stepKept_trans (stepKept_then_onChip (stepKept_onChip ..) _) (stepKept_startFail ..)
    · exact stepKept_trans (stepKept_then_onChip (stepKept_onChip ..) _) (stepKept_startFail ..)
  · exact stepKept_onChip ..

theorem stepKept_stageEnd (n : Nat) (ds : List Word) (s : State) : StepKept s (stageEnd n ds s) := by
  unfold stageEnd
  dsimp only
  split
  case h_1 => exact stepKept_then_onChip (stepKept_thistleUp s) _
  case h_2 => exact stepKept_onChip ..
  case h_3 => exact stepKept_ite (stepKept_refl s) (stepKept_onChip ..)
  case h_4 => exact stepKept_ite (stepKept_refl s) (stepKept_onChip ..)
  case h_5 => exact stepKept_ite (stepKept_then_onChip (stepKept_onChip ..) _) (stepKept_onChip ..)
  case h_6 => exact stepKept_onChip ..
  case h_7 => exact stepKept_stageNine s
  case h_8 => exact stepKept_refl s

theorem stepKept_stageDone (ms cause : Nat) (ds : List Word) (s : State) : StepKept s (stageDone ms cause ds s) := by
  unfold stageDone
  dsimp only
  refine stepKept_ite (stepKept_refl s) (stepKept_ite (stepKept_refl s) (stepKept_ite (stepKept_ite ?fails (stepKept_refl s)) ?ends))
  case fails => exact stepKept_trans (stepKept_onChip ..) (stepKept_startFail ..)
  case ends =>
    have hend := stepKept_trans (stepKept_onChip (stageTime (bootState s.chip) ms) s) (stepKept_stageEnd (bootState s.chip) ds _)
    refine stepKept_ite (stepKept_ite (stepKept_trans hend (stepKept_startFail ..))
      (stepKept_ite (stepKept_trans hend (stepKept_startFail ..)) (stepKept_ite ?_ ?_))) hend
    · exact stepKept_trans (stepKept_then_onChip hend _) (stepKept_stageEight ..)
    · exact stepKept_then_onChip hend _

theorem stepKept_powerOn (strap : Bool) (s : State) : StepKept s (powerOn strap s) := by
  have hcold := stepKept_then_onChip (stepKept_coldReset s) (fun c => c |> beginStart false false |> setBit Reg.BOOT_STATUS 26 strap)
  exact stepKept_ite (stepKept_ite (stepKept_trans hcold (stepKept_enterFallow ..)) hcold) (stepKept_refl s)

theorem stepKept_holdExpire (s : State) : StepKept s (holdExpire s) :=
  stepKept_ite (stepKept_then_onChip (stepKept_switchedReset s) _) (stepKept_refl s)

theorem stepKept_warmStart (s : State) : StepKept s (warmStart s) := stepKept_then_onChip (stepKept_switchedReset s) _

theorem stepKept_bootWarm (s : State) : StepKept s (bootWarm s) := stepKept_ite (stepKept_refl s) (stepKept_warmStart s)

theorem stepKept_bootCold (s : State) : StepKept s (bootCold s) :=
  stepKept_ite (stepKept_refl s) (stepKept_then_onChip (stepKept_trans (stepKept_onChip ..) (stepKept_coldReset ..)) _)

theorem stepKept_pwrGoodFall (s : State) : StepKept s (pwrGoodFall s) := stepKept_then_onChip (stepKept_coldReset s) _

theorem stepKept_sysClkLoss (s : State) : StepKept s (sysClkLoss s) :=
  stepKept_ite (stepKept_refl s) (stepKept_trans (stepKept_onChip ..) (stepKept_failNow ..))

theorem stepKept_sysClkRestored (s : State) : StepKept s (sysClkRestored s) :=
  stepKept_ite (stepKept_ite (stepKept_trans (stepKept_onChip ..) (stepKept_warmStart ..)) (stepKept_onChip ..)) (stepKept_refl s)

theorem stepKept_thermalNow (w e io : Int) (s : State) : StepKept s (thermalNow w e io s) :=
  stepKept_ite (stepKept_trans (stepKept_onChip ..) (stepKept_failNow ..)) (stepKept_onChip ..)

theorem stepKept_clusterReset (s : State) : StepKept s (clusterReset s) := by
  unfold clusterReset
  exact stepKept_then_onChip (stepKept_then_sec (stepKept_trans (stepKept_clusterIrqReset s) (stepKept_thistleRestart _))
    (secKept_trans (secKept_takeFirmware 3 _) (secKept_takeFirmware 1 _))) _

theorem stepKept_rstCc (v : Word) (s : State) : StepKept s (rstCc v s) :=
  stepKept_ite (stepKept_refl s) (stepKept_ite (stepKept_onChip ..) (stepKept_clusterReset s))

theorem stepKept_runtimeExpire (s : State) : StepKept s (runtimeExpire s) := stepKept_ite (stepKept_clusterReset s) (stepKept_refl s)

theorem stepKept_resetDone (s : State) : StepKept s (resetDone s) := by
  unfold resetDone
  dsimp only
  split
  · split
    · exact stepKept_then_onChip (stepKept_onChip ..) _
    · exact stepKept_then_onChip (stepKept_onChip ..) _
    · exact stepKept_then_onChip (stepKept_onChip ..) _
    · exact stepKept_trans (stepKept_onChip ..) (stepKept_thistleUp _)
  · split
    · exact stepKept_onChip ..
    · exact stepKept_refl s

theorem stepKept_recoveryPiece (v : Word) (s : State) : StepKept s (recoveryPiece v s) := by
  unfold recoveryPiece
  dsimp only
  refine stepKept_ite (stepKept_ite ?_ (stepKept_chip ..)) (stepKept_refl s)
  refine stepKept_then_onChip ?_ _
  split
  · exact stepKept_chip ..
  · exact stepKept_trans (stepKept_chip ..) (stepKept_updateFirmware ..)

/-! ### Register accesses -/

theorem stepKept_writeBoot (a : Nat) (v : Word) (s : State) : StepKept s (writeBoot a v s) := by
  unfold writeBoot
  refine stepKept_ite ?cmd (stepKept_ite (stepKept_onChip ..) (stepKept_ite (stepKept_onChip ..) (stepKept_ite (stepKept_onChip ..)
    (stepKept_ite (stepKept_onChip ..) (stepKept_ite (stepKept_onChip ..) (stepKept_ite (stepKept_rstCc ..)
    (stepKept_ite (stepKept_ite (stepKept_onChip ..) (stepKept_refl s)) (stepKept_ite (stepKept_onChip ..) (stepKept_onChip ..)))))))))
  case cmd =>
    split
    · exact stepKept_onChip ..
    · exact stepKept_bootWarm s
    · exact stepKept_bootCold s
    · exact stepKept_refl s

theorem stepKept_writeTarget (who : Option Initiator) (k a : Nat) (v : Word) (s : State) : StepKept s (writeTarget who k a v s) :=
  stepKept_ite (stepKept_onChip ..) (stepKept_ite (stepKept_endService ..) (stepKept_onChip ..))

theorem stepKept_writeIrq (who : Option Initiator) (a : Nat) (v : Word) (s : State) : StepKept s (writeIrq who a v s) := by
  unfold writeIrq
  dsimp only
  refine stepKept_ite (stepKept_onChip ..) (stepKept_ite (stepKept_onChip ..) (stepKept_ite (stepKept_onChip ..)
    (stepKept_ite (stepKept_onChip ..) (stepKept_ite (stepKept_onChip ..) (stepKept_ite (stepKept_onChip ..)
    (stepKept_ite (stepKept_writeTarget ..) ?_))))))
  split
  · exact stepKept_onChip ..
  · split
    · exact stepKept_onChip ..
    · exact stepKept_onChip ..

theorem stepKept_writeHif (who : Option Initiator) (a : Nat) (v : Word) (s : State) : StepKept s (writeHif who a v s) := by
  unfold writeHif
  dsimp only
  refine stepKept_ite (stepKept_onChip ..) (stepKept_ite (stepKept_onChip ..) (stepKept_ite (stepKept_recoveryPiece ..)
    (stepKept_ite ?ring (stepKept_ite ?queue (stepKept_onChip ..)))))
  case ring =>
    exact stepKept_ite (stepKept_onChip ..) (stepKept_ite (stepKept_onChip ..) (stepKept_ite (stepKept_onChip ..) (stepKept_onChip ..)))
  case queue =>
    exact stepKept_ite (stepKept_onChip ..) (stepKept_ite (stepKept_onChip ..) (stepKept_ite (stepKept_onChip ..)
      (stepKept_ite (stepKept_ite (stepKept_refl s) (stepKept_onChip ..)) (stepKept_onChip ..))))

theorem stepKept_writeReg (who : Option Initiator) (a : Nat) (v : Word) (s : State) : StepKept s (writeReg who a v s) := by
  unfold writeReg
  refine stepKept_ite (stepKept_refl s) (stepKept_ite (stepKept_onChip ..) ?_)
  split
  case h_1 => exact stepKept_writeBoot ..
  case h_3 => exact stepKept_writeIrq ..
  case h_9 => exact stepKept_writeHif ..
  all_goals exact stepKept_onChip ..

theorem stepKept_initiatorWord (who : Initiator) (a : Nat) (v : Word) (s : State) : StepKept s (initiatorWord who a v s) :=
  stepKept_ite (stepKept_ite (stepKept_refl s) (stepKept_writeReg ..))
    (stepKept_ite (stepKept_ite (stepKept_writeReg ..) (stepKept_onChip ..)) (stepKept_writeReg ..))

theorem stepKept_registerWrite (who : Initiator) (a : Nat) (v : DWord) (wide : Bool) (s : State) :
    StepKept s (registerWrite who a v wide s) :=
  stepKept_ite (stepKept_refl s) (stepKept_ite (stepKept_trans (stepKept_initiatorWord ..) (stepKept_initiatorWord ..))
    (stepKept_initiatorWord ..))

theorem stepKept_readEffect (who : Option Initiator) (a : Nat) (s : State) : StepKept s (readEffect who a s) := by
  unfold readEffect
  refine stepKept_ite (stepKept_refl s) ?_
  split
  · exact stepKept_ite (stepKept_refl s) (stepKept_claim ..)
  · exact stepKept_onChip ..
  · split
    · exact stepKept_onChip ..
    · exact stepKept_refl s

theorem stepKept_readWords (who : Option Initiator) (a n : Nat) (s : State) : StepKept s (readWords who a n s).2 := by
  induction n generalizing a s with
  | zero => exact stepKept_refl s
  | succ n ih => exact stepKept_trans (stepKept_readEffect who a s) (ih ..)

theorem stepKept_askRegister (owned write : Bool) (q : Ask) (s : State) : StepKept s (askRegister owned write q s).2 := by
  unfold askRegister
  dsimp only
  split
  · exact stepKept_refl s
  · split
    · exact stepKept_refl s
    · split
      · exact stepKept_ite (stepKept_trans (stepKept_writeReg ..) (stepKept_writeReg ..)) (stepKept_writeReg ..)
      · exact stepKept_readWords ..

theorem stepKept_askTarget (target : Target) (write : Bool) (q : Ask) (s : State) : StepKept s (askTarget target write q s).2 := by
  unfold askTarget
  split
  · exact stepKept_askRegister ..
  · dsimp only
    split
    · exact stepKept_chip ..
    · exact stepKept_askRegister ..

theorem stepKept_management (target : Target) (op : Nat) (s : State) : StepKept s (management target op s) := by
  unfold management
  split
  · exact stepKept_refl s
  · dsimp only
    refine stepKept_ite (stepKept_chip ..) (stepKept_ite (stepKept_then_onChip (stepKept_chip ..) _) ?_)
    exact stepKept_then_onChip (stepKept_trans (stepKept_chip ..) (stepKept_askTarget ..)) _

theorem stepKept_bar0Write (o : Nat) (v : DWord) (wide : Bool) (s : State) : StepKept s (bar0Write o v wide s) :=
  stepKept_ite (stepKept_registerWrite ..) (stepKept_refl s)

theorem stepKept_hostControl (a n : Nat) (write : Bool) (bs : List Byte) (s : State) : StepKept s (hostControl a n write bs s) := by
  unfold hostControl
  dsimp only
  refine stepKept_ite (stepKept_onChip ..) (stepKept_ite (stepKept_onChip ..) (stepKept_ite
    (stepKept_ite (stepKept_registerWrite ..) (stepKept_refl s)) ?_))
  exact stepKept_then_onChip (stepKept_readWords ..) _

theorem stepKept_bar2Access (o : Nat) (write : Bool) (bs : List Byte) (len : Nat) (s : State) :
    StepKept s (bar2Access o write bs len s) := by
  unfold bar2Access
  dsimp only
  exact stepKept_ite (stepKept_refl s) (stepKept_ite (stepKept_ite (stepKept_onChip ..) (stepKept_onChip ..))
    (stepKept_ite (stepKept_onChip ..) (stepKept_ite (stepKept_hostControl ..) (stepKept_onChip ..))))

/-! ### Every command -/

/-- Command `i` answers a next state that keeps what `StepKept` names. -/
def Keeps (i : Instr) (s : State) : Prop := ∃ t, exec i s = .next t ∧ StepKept s t

/-- A command that acts on the chip alone keeps it. -/
theorem keeps_of_done {i : Instr} {s : State} {c : Chip} (h : exec i s = done s c) : Keeps i s :=
  ⟨_, h, stepKept_chip s c⟩

theorem keeps_of_next {i : Instr} {s t : State} (h : exec i s = .next t) (k : StepKept s t) : Keeps i s := ⟨t, h, k⟩

theorem keeps_registerAccessBad (who : Initiator) (a : BitVec 48) (n : Nat) (w : Bool) (s : State) :
    Keeps (.registerAccessBad who a n w) s := by
  unfold Keeps
  change ∃ t, execRegisterAccessBad who a n w s = .next t ∧ StepKept s t
  unfold execRegisterAccessBad
  dsimp only
  split
  · exact ⟨s, rfl, stepKept_refl s⟩
  · split
    · exact ⟨_, rfl, stepKept_chip ..⟩
    · exact ⟨_, rfl, stepKept_chip ..⟩

/-- Every command answers a next state, with the queue as it was, the fuses moved one way at most and the sources in service in
order. -/
theorem keeps_exec (i : Instr) (s : State) : Keeps i s := by
  cases i
  case registerWrite => exact keeps_of_next rfl (stepKept_registerWrite ..)
  case registerAccessBad => exact keeps_registerAccessBad ..
  case irqClaim => exact keeps_of_next rfl (stepKept_claim ..)
  case irqDone => exact keeps_of_next rfl (stepKept_endService ..)
  case secStatus => exact keeps_of_next rfl (stepKept_runService (stepKept_plainService _) s)
  case secSelftest => exact keeps_of_next rfl (stepKept_runService (stepKept_svcSelftest _) s)
  case secAttest => exact keeps_of_next rfl (stepKept_runService (stepKept_plainService _) s)
  case secFwUpdate => exact keeps_of_next rfl (stepKept_runService stepKept_svcFwUpdate s)
  case secKeyLoad => exact keeps_of_next rfl (stepKept_runService stepKept_svcKeyLoad s)
  case secKeyClear => exact keeps_of_next rfl (stepKept_runService stepKept_svcKeyClear s)
  case secRevoke => exact keeps_of_next rfl (stepKept_runService stepKept_svcRevoke s)
  case secDebugUnlock => exact keeps_of_next rfl (stepKept_runService stepKept_svcDebugUnlock s)
  case secZeroize => exact keeps_of_next rfl (stepKept_runService stepKept_svcZeroize s)
  case secCoreStart => exact keeps_of_next rfl (stepKept_runService (stepKept_plainService _) s)
  case secRandom => exact keeps_of_next rfl (stepKept_runService (stepKept_plainService _) s)
  case secUnknownOp => exact keeps_of_next rfl (stepKept_runService (stepKept_plainService _) s)
  case verifyDone => exact keeps_of_next rfl (stepKept_verifyDone s)
  case licDone => exact keeps_of_next rfl (stepKept_licDone s)
  case powerOn => exact keeps_of_next rfl (stepKept_powerOn ..)
  case startStageDone => exact keeps_of_next rfl (stepKept_stageDone ..)
  case startFail => exact keeps_of_next rfl (stepKept_failNow ..)
  case startHoldExpire => exact keeps_of_next rfl (stepKept_holdExpire s)
  case startTimeLimit => exact keeps_of_next rfl (stepKept_failNow ..)
  case bootWdogExpire => exact keeps_of_next rfl (stepKept_ite (stepKept_failNow ..) (stepKept_refl s))
  case loadCensus => exact keeps_of_next rfl (stepKept_censusRound s)
  case bootWarm => exact keeps_of_next rfl (stepKept_bootWarm s)
  case bootCold => exact keeps_of_next rfl (stepKept_bootCold s)
  case resetNLow => exact keeps_of_next rfl (stepKept_ite (stepKept_refl s) (stepKept_warmStart s))
  case pwrGoodFall => exact keeps_of_next rfl (stepKept_pwrGoodFall s)
  case rstCc => exact keeps_of_next rfl (stepKept_rstCc ..)
  case resetDone => exact keeps_of_next rfl (stepKept_resetDone s)
  case thermalSample => exact keeps_of_next rfl (stepKept_thermalNow ..)
  case sysClkLoss => exact keeps_of_next rfl (stepKept_sysClkLoss s)
  case sysClkRestored => exact keeps_of_next rfl (stepKept_sysClkRestored s)
  case runtimeWdogExpire => exact keeps_of_next rfl (stepKept_runtimeExpire s)
  case recoveryPiece => exact keeps_of_next rfl (stepKept_recoveryPiece ..)
  case mgmtRead => exact keeps_of_next rfl (stepKept_management ..)
  case mgmtWrite => exact keeps_of_next rfl (stepKept_management ..)
  case bar0Write => exact keeps_of_next rfl (stepKept_bar0Write ..)
  case bar2Access => exact keeps_of_next rfl (stepKept_bar2Access ..)
  all_goals exact keeps_of_done rfl

/-- What a step answers keeps it. -/
theorem stepKept_step {s t : State} (h : step s = .next t) : SecKept s.sec t.sec ∧ (ServiceOrder s.irq → ServiceOrder t.irq) := by
  unfold step at h
  split at h
  · obtain rfl : s = t := by simpa using h
    exact ⟨secKept_refl _, id⟩
  · next i rest _ =>
    obtain ⟨u, hu, hk⟩ := keeps_exec i { s with pending := rest }
    obtain rfl : u = t := by simpa using hu.symm.trans h
    exact ⟨hk.sec, hk.irq⟩

/-- Settles O6: each operation on the sources in service either ends some or claims one above the running level. -/
theorem stepKeepsServiceOrder : Obligations.StepKeepsServiceOrder := fun _ _ hs h => (stepKept_step h).2 hs

/-- Settles O8: each operation on the Thistle core's state keeps the fuses, a revocation by the slot it leaves. -/
theorem noStepTurnsAFuseBack : Obligations.NoStepTurnsAFuseBack := fun _ _ h => (stepKept_step h).1

/-- Settles O5: each command by the operation that it runs. -/
theorem everyCommandCompletes : Obligations.EveryCommandCompletes := by
  intro i s
  obtain ⟨t, ht, hk⟩ := keeps_exec i s
  exact ⟨t, ht, hk.pending⟩

/-! ### The Thistle core's own state (R44, R461) -/

theorem sec_runService_plain {ok : SecJob → Bool} (f : SecJob → Sec → Chip → Chip) (s : State) :
    (runService ok (plainService f) s).sec = s.sec := by
  unfold runService
  split
  · split
    · dsimp only
      split
      · rfl
      · rfl
    · rfl
  · rfl

theorem sec_claim (k : Nat) (s : State) : (claim k s).sec = s.sec := by
  unfold claim
  split <;> rfl

theorem sec_endService (k n : Nat) (s : State) : (endService k n s).sec = s.sec := by
  unfold endService
  split <;> rfl

theorem sec_of_next {s t u : State} (h : (Host.Outcome.next u : Host.Outcome State Fault Refusal) = .next t) (hu : u.sec = s.sec) :
    t.sec = s.sec := by
  obtain rfl : u = t := by simpa using h
  exact hu

/-- A command that acts on the chip alone leaves the Thistle core's state. -/
theorem sec_of_done {s t : State} {c : Chip} (h : done s c = .next t) : t.sec = s.sec := sec_of_next h rfl

theorem sec_registerAccessBad {who : Initiator} {a : BitVec 48} {n : Nat} {w : Bool} {s t : State}
    (h : exec (.registerAccessBad who a n w) s = .next t) : t.sec = s.sec := by
  change execRegisterAccessBad who a n w s = .next t at h
  unfold execRegisterAccessBad at h
  dsimp only at h
  split at h
  · exact sec_of_next h rfl
  · split at h
    · exact sec_of_done h
    · exact sec_of_done h

/-- Settles O9: the commands outside the list act on the chip alone, but for claims, ends of service and services that only answer. -/
theorem onlyThistlePathsChangeSec : Obligations.OnlyThistlePathsChangeSec := by
  intro i s t hi h
  cases i
  case registerAccessBad => exact sec_registerAccessBad h
  case irqClaim => exact sec_of_next h (sec_claim ..)
  case irqDone => exact sec_of_next h (sec_endService ..)
  case secStatus => exact sec_of_next h (sec_runService_plain ..)
  case secAttest => exact sec_of_next h (sec_runService_plain ..)
  case secCoreStart => exact sec_of_next h (sec_runService_plain ..)
  case secRandom => exact sec_of_next h (sec_runService_plain ..)
  case secUnknownOp => exact sec_of_next h (sec_runService_plain ..)
  case secSelftest | secFwUpdate | secKeyLoad | secKeyClear | secRevoke | secDebugUnlock | secZeroize | verifyDone | licDone | powerOn
      | startStageDone | startFail | startHoldExpire | startTimeLimit | bootWdogExpire | loadCensus | bootWarm | bootCold | resetNLow
      | pwrGoodFall | rstCc | resetDone | runtimeWdogExpire | thermalSample | sysClkLoss | sysClkRestored | recoveryPiece | registerWrite
      | mgmtRead | mgmtWrite | bar0Write | bar2Access =>
    exact Bool.noConfusion (show true = false from hi)
  all_goals exact sec_of_done h

end Sys2Proof.Machine
end

section
/-!
PROOFS. The machine as a whole: a step takes the front command, the state after reset, tiles whose field is not ON.
-/

namespace Sys2Proof.Machine

open Sys2Proof.Safety

/-- Settles O1: by the definition of a step. -/
theorem stepRunsFrontCommand : Obligations.StepRunsFrontCommand := fun _ _ _ => rfl

/-- Settles O2: every store of the reset state is empty, so each reading falls on its default. -/
theorem emptyQueueIdlesAndResetIsBare : Obligations.EmptyQueueIdlesAndResetIsBare := by
  refine ⟨fun s hs => ?_, rfl, fun _ => rfl, rfl, rfl, fun _ => rfl, fun _ => rfl, fun _ => rfl, rfl⟩
  unfold step
  rw [hs]

/-- Settles O4: each address is looked up in its block of the register map. -/
theorem resetRegistersReadTheirValues : Obligations.ResetRegistersReadTheirValues := by
  refine ⟨?_, ?_, ?_, ?_, ?_, ?_, ?_, ?_⟩ <;> decide

/-- Settles O7: with nothing in service the order is empty, and slot 0 is not revoked. -/
theorem resetHasServiceOrderAndSlot : Obligations.ResetHasServiceOrderAndSlot :=
  ⟨serviceOrder_nil, 0, by decide, by decide⟩

/-- Settles O60: a tile's own command is its meaning under `atTile`, which does nothing while the field is not ON. -/
theorem tileNeedsItsField : Obligations.TileNeedsItsField := by
  intro i t s ht hd
  have hoff (f : Chip → Chip) : done s (atTile t f s.chip) = .next { s with chip := s.chip } := by rw [atTile_off f hd, done_eq]
  unfold Completes
  cases i
  all_goals cases ht
  all_goals exact hoff _

end Sys2Proof.Machine
end

section
/-!
PROOFS. MSI-X messages (R484) and the interrupt controller (R441 to R446).
-/

namespace Sys2Proof.Machine

open Sys2Proof.Safety

/-! ### Bits of the pending vectors -/

/-- Bit `u` of a value with bit `v` set. -/
theorem bit_or_two_pow (p : BitVec 64) {v : Nat} (hv : v < 64) (u : Nat) :
    bit (p ||| BitVec.ofNat 64 (2 ^ v)).toNat u = (bit p.toNat u || decide (v = u)) := by
  have hlt : 2 ^ v < 2 ^ 64 := Nat.pow_lt_pow_right (by decide) hv
  rw [bit_eq_testBit, bit_eq_testBit, BitVec.toNat_or, Nat.testBit_or, BitVec.toNat_ofNat, Nat.mod_eq_of_lt hlt, Nat.testBit_two_pow]

/-- Bit `u` of a value with bit `v` cleared. -/
theorem bit_and_not_two_pow (p : BitVec 64) {v : Nat} (hv : v < 64) {u : Nat} (hu : u < 64) :
    bit (p &&& ~~~ BitVec.ofNat 64 (2 ^ v)).toNat u = (bit p.toNat u && !decide (v = u)) := by
  have hlt : 2 ^ v < 2 ^ 64 := Nat.pow_lt_pow_right (by decide) hv
  have hnot : (~~~ BitVec.ofNat 64 (2 ^ v)).toNat.testBit u = !decide (v = u) := by
    rw [BitVec.testBit_toNat, BitVec.getLsbD_not, decide_eq_true hu, Bool.true_and, ← BitVec.testBit_toNat, BitVec.toNat_ofNat,
      Nat.mod_eq_of_lt hlt, Nat.testBit_two_pow]
  rw [bit_eq_testBit, bit_eq_testBit, BitVec.toNat_and, Nat.testBit_and, hnot]

/-! ### MSI-X messages (R484) -/

theorem msixRequest_sends {v : Nat} {c : Chip} (hm : msixMasked c v = false) (hr : hostReached c = true) :
    msixRequest v c = msixSend v c := by simp [msixRequest, hm, hr]

theorem msixRequest_holds {v : Nat} {c : Chip} (hm : msixMasked c v = true) :
    msixRequest v c = { c with host := { c.host with pend := c.host.pend ||| BitVec.ofNat 64 (2 ^ (v % 64)) } } := by
  simp [msixRequest, hm]

/-- One vector of a flush: its pending message is sent once it is no longer masked. -/
def msixFlushOne (v : Nat) (c : Chip) : Chip :=
  if bit c.host.pend.toNat v && !msixMasked c v && hostReached c then
    msixSend v { c with host := { c.host with pend := c.host.pend &&& ~~~ BitVec.ofNat 64 (2 ^ v) } }
  else c

theorem msixFlush_eq (c : Chip) : msixFlush c = forAll msixFlushOne (List.range 64) c := rfl

/-- `c'` is `c` but for pending messages and host memory. -/
def Flushed (c c' : Chip) : Prop := c' = { c with host := { c.host with pend := c'.host.pend, mem := c'.host.mem } }

theorem flushed_msixFlushOne {c c' : Chip} (v : Nat) (h : Flushed c c') : Flushed c (msixFlushOne v c') := by
  unfold msixFlushOne
  split
  · rw [h]
    rfl
  · exact h

theorem flushed_forAll (l : List Nat) (c : Chip) : Flushed c (forAll msixFlushOne l c) :=
  forAll_keeps (P := Flushed c) l (fun v _ _ => flushed_msixFlushOne v) c rfl

theorem msixMasked_of_flushed {c c' : Chip} (h : Flushed c c') (v : Nat) : msixMasked c' v = msixMasked c v := by rw [h]; rfl

theorem hostReached_of_flushed {c c' : Chip} (h : Flushed c c') : hostReached c' = hostReached c := by rw [h]; rfl

theorem msixFlushOne_unreached (v : Nat) {c : Chip} (h : hostReached c = false) : msixFlushOne v c = c := by
  simp [msixFlushOne, h]

/-- While the host is reached, one vector's flush clears its pending bit unless it is masked. -/
theorem pend_msixFlushOne {v u : Nat} (hv : v < 64) (hu : u < 64) {c : Chip} (hr : hostReached c = true) :
    bit (msixFlushOne v c).host.pend.toNat u = (bit c.host.pend.toNat u && (!decide (v = u) || msixMasked c u)) := by
  unfold msixFlushOne
  split
  · next h =>
    simp only [Bool.and_eq_true, Bool.not_eq_true'] at h
    obtain ⟨⟨-, hmask⟩, -⟩ := h
    change bit (c.host.pend &&& ~~~ BitVec.ofNat 64 (2 ^ v)).toNat u = _
    rw [bit_and_not_two_pow _ hv hu]
    by_cases e : v = u
    · subst e; simp [hmask]
    · simp [e]
  · next h =>
    by_cases e : v = u
    · subst e
      simp only [hr, Bool.and_true, Bool.and_eq_true, Bool.not_eq_true', not_and, Bool.not_eq_false] at h
      cases hb : bit c.host.pend.toNat v
      · simp
      · simp [h hb]
    · simp [e]

/-- While the host is reached, a flush of the vectors `l` leaves pending those outside `l` and the masked ones. -/
theorem pend_forAll_msixFlushOne (l : List Nat) (hl : ∀ v ∈ l, v < 64) {u : Nat} (hu : u < 64) {c : Chip} (hr : hostReached c = true) :
    bit (forAll msixFlushOne l c).host.pend.toNat u = (bit c.host.pend.toNat u && (!decide (u ∈ l) || msixMasked c u)) := by
  induction l generalizing c with
  | nil => simp
  | cons v l ih =>
    have hone : Flushed c (msixFlushOne v c) := flushed_msixFlushOne v rfl
    rw [forAll_cons, ih (fun w hw => hl w (List.mem_cons_of_mem _ hw)) ((hostReached_of_flushed hone).trans hr),
      pend_msixFlushOne (hl v List.mem_cons_self) hu hr, msixMasked_of_flushed hone]
    by_cases e : v = u
    · subst e
      cases hm : msixMasked c v <;> simp
    · have e' : ¬ u = v := fun h => e h.symm
      simp [e, e', List.mem_cons]

/-- While the host is reached, exactly the pending bits of masked vectors outlast a flush. -/
theorem pend_msixFlush {u : Nat} (hu : u < 64) {c : Chip} (hr : hostReached c = true) :
    bit (msixFlush c).host.pend.toNat u = (bit c.host.pend.toNat u && msixMasked c u) := by
  have hin : u ∈ List.range 64 := List.mem_range.2 hu
  rw [msixFlush_eq, pend_forAll_msixFlushOne _ (fun _ => List.mem_range.1) hu hr]
  simp [hin]

theorem forAll_msixFlushOne_unreached (l : List Nat) {c : Chip} (h : hostReached c = false) : forAll msixFlushOne l c = c := by
  induction l with
  | nil => rfl
  | cons v l ih => rw [forAll_cons, msixFlushOne_unreached v h, ih]

/-- Settles O35: a request is sent or held by its vector's mask; a flush keeps table and mask, so it goes vector by vector. -/
theorem msixMessages : Obligations.MsixMessages := by
  refine ⟨fun v s => ⟨fun hm hr => ?_, fun hm => ⟨_, rfl, ?_, fun u hu => ?_, ?_⟩⟩, fun v w x fn s => ?_⟩
  · exact congrArg (done s) (msixRequest_sends hm hr)
  · rw [msixRequest_holds hm, Nat.mod_eq_of_lt v.isLt]
    exact (bit_or_two_pow _ v.isLt _).trans (by simp)
  · have hne : v.val ≠ u.val := fun e => hu (Fin.ext e.symm)
    rw [msixRequest_holds hm, Nat.mod_eq_of_lt v.isLt]
    exact (bit_or_two_pow _ v.isLt _).trans (by simp [hne])
  · rw [msixRequest_holds hm]
  · let t := mapPut (fun k => if k % 4 = 3 then 1#32 else 0#32) s.chip.host.table (4 * v.val + w.val) x
    let c : Chip := { s.chip with host := { s.chip.host with table := t, fnMask := fn } }
    have hf : Flushed c (msixFlush c) := flushed_forAll _ c
    refine ⟨msixFlush c, rfl, ?_, by rw [hf], fun hr u => ?_, fun hr => ?_, ?_⟩
    · rw [hf]
      exact mapGet_mapPut_same ..
    · rw [msixMasked_of_flushed hf]
      exact pend_msixFlush u.isLt hr
    · rw [msixFlush_eq, forAll_msixFlushOne_unreached _ (show hostReached c = false from hr)]
      exact ⟨rfl, rfl⟩
    · rw [hf]
      exact frame_refl ..

/-! ### Announcements to target 5 (R446) -/

/-- `c'` is `c` but for the host interface's own state and the sources announced to target 5. -/
def OnlyAnnounced (c c' : Chip) : Prop := c' = { c with host := c'.host, asked5 := c'.asked5 }

theorem onlyAnnounced_trans {c c' c'' : Chip} (h : OnlyAnnounced c c') (h' : OnlyAnnounced c' c'') : OnlyAnnounced c c'' := by
  rw [OnlyAnnounced] at *
  rw [h', h]

theorem onlyAnnounced_of_onlyHost {c c' : Chip} (h : OnlyHost c c') : OnlyAnnounced c c' := by
  rw [OnlyHost] at h
  rw [OnlyAnnounced, h]

theorem reg_of_onlyAnnounced {c c' : Chip} (h : OnlyAnnounced c c') (a : Nat) : reg c' a = reg c a := by rw [h]; rfl

theorem onlyAnnounced_announce {c c' : Chip} (n : Nat) (h : OnlyAnnounced c c') : OnlyAnnounced c (announce n c') :=
  onlyAnnounced_trans h (onlyAnnounced_trans (c' := { c' with asked5 := c'.asked5 ++ [n] }) rfl
    (onlyAnnounced_of_onlyHost (onlyHost_msixRequest ..)))

theorem onlyAnnounced_notifyHost (v : List Service) (c : Chip) : OnlyAnnounced c (notifyHost v c) :=
  forAll_keeps (P := OnlyAnnounced c) _ (fun n _ _ => onlyAnnounced_announce n) c rfl

@[simp] theorem reg_notifyHost (v : List Service) (c : Chip) (a : Nat) : reg (notifyHost v c) a = reg c a :=
  reg_of_onlyAnnounced (onlyAnnounced_notifyHost v c) a

@[simp] theorem lineWas_notifyHost (v : List Service) (c : Chip) : (notifyHost v c).lineWas = c.lineWas := by
  rw [onlyAnnounced_notifyHost v c]

/-! ### Pending bits (R442) -/

theorem isPending_congr {c c' : Chip} (h : ∀ a, reg c' a = reg c a) (n : Nat) : isPending c' n = isPending c n :=
  rflag_congr (h _)

@[simp] theorem isPending_notifyHost (v : List Service) (c : Chip) (n : Nat) : isPending (notifyHost v c) n = isPending c n :=
  isPending_congr (reg_notifyHost v c) n

theorem isPending_setPending_same (n : Nat) (b : Bool) (c : Chip) : isPending (setPending n b c) n = b :=
  rflag_setBit_same _ (Nat.mod_lt _ (by decide)) b c

theorem isPending_setPending_ne {n m : Nat} (h : m ≠ n) (b : Bool) (c : Chip) : isPending (setPending n b c) m = isPending c m := by
  by_cases hw : m / 32 = n / 32
  · have hi : m % 32 ≠ n % 32 := by omega
    unfold isPending setPending
    rw [hw]
    exact rflag_setBit_bit _ (Nat.mod_lt _ (by decide)) hi b c
  · refine rflag_congr (reg_setBit_ne ?_ _ _ c)
    unfold Reg.IRQ_PEND
    omega

theorem frame_setPending {as ts : List Nat} {c c' : Chip} (n : Nat) (b : Bool) (h : Reg.IRQ_PEND (n / 32) ∈ as) (f : Frame as ts c c') :
    Frame as ts c (setPending n b c') := frame_setBit _ _ _ h f

/-! ### The candidate of a target (R444) -/

/-- Source `n` is at least as good as `m`: the higher PRIO, or the lower number at the same PRIO. -/
def NoWorse (c : Chip) (n m : Nat) : Prop := srcPrio c m < srcPrio c n ∨ (srcPrio c m = srcPrio c n ∧ n ≤ m)

theorem noWorse_trans {c : Chip} {n m l : Nat} (h : NoWorse c n m) (k : NoWorse c m l) : NoWorse c n l := by
  unfold NoWorse at *; omega

/-- The best source of rising numbers above a first candidate is no worse than each of them. -/
theorem noWorse_of_foldl_betterSource {c : Chip} (l : List Nat) {b n : Nat} (hb : ∀ m ∈ l, b < m) (hl : l.Pairwise (· < ·))
    (h : l.foldl (betterSource c) (some b) = some n) : NoWorse c n b ∧ ∀ m ∈ l, NoWorse c n m := by
  induction l generalizing b with
  | nil =>
    cases h
    exact ⟨.inr ⟨rfl, Nat.le_refl _⟩, fun _ hm => absurd hm List.not_mem_nil⟩
  | cons m l ih =>
    obtain ⟨hm, hl⟩ := List.pairwise_cons.1 hl
    have hbm := hb m List.mem_cons_self
    rw [List.foldl_cons] at h
    by_cases hp : srcPrio c b < srcPrio c m
    · rw [show betterSource c (some b) m = some m by simp [betterSource, hp]] at h
      obtain ⟨hn, hall⟩ := ih hm hl h
      exact ⟨noWorse_trans hn (.inl hp), List.forall_mem_cons.2 ⟨hn, hall⟩⟩
    · rw [show betterSource c (some b) m = some b by simp [betterSource, hp]] at h
      obtain ⟨hn, hall⟩ := ih (fun x hx => hb x (List.mem_cons_of_mem _ hx)) hl h
      have hbm' : NoWorse c b m := by unfold NoWorse; omega
      exact ⟨hn, List.forall_mem_cons.2 ⟨noWorse_trans hn hbm', hall⟩⟩

theorem isSome_foldl_betterSource (c : Chip) (l : List Nat) (b : Nat) : ∃ n, l.foldl (betterSource c) (some b) = some n := by
  induction l generalizing b with
  | nil => exact ⟨b, rfl⟩
  | cons m l ih =>
    rw [List.foldl_cons]
    by_cases hp : srcPrio c b < srcPrio c m
    · rw [show betterSource c (some b) m = some m by simp [betterSource, hp]]
      exact ih m
    · rw [show betterSource c (some b) m = some b by simp [betterSource, hp]]
      exact ih b

/-- The deliverable sources in rising order. -/
theorem deliverables_rising (v : List Service) (c : Chip) (k : Nat) :
    ((List.range 512).filter (deliverable v c k)).Pairwise (· < ·) := List.pairwise_lt_range.filter _

theorem mem_deliverables {v : List Service} {c : Chip} {k m : Nat} (hm : m < 512) (hd : deliverable v c k m = true) :
    m ∈ (List.range 512).filter (deliverable v c k) := List.mem_filter.2 ⟨List.mem_range.2 hm, hd⟩

/-- No deliverable source is better than the candidate. -/
theorem noWorse_of_candidate {v : List Service} {c : Chip} {k n : Nat} (h : candidate v c k = some n) {m : Nat} (hm : m < 512)
    (hd : deliverable v c k m = true) : NoWorse c n m := by
  have hin := mem_deliverables hm hd
  have hrise := deliverables_rising v c k
  unfold candidate at h
  generalize (List.range 512).filter (deliverable v c k) = l at h hin hrise
  cases l with
  | nil => exact absurd hin List.not_mem_nil
  | cons b l =>
    obtain ⟨hb, hl⟩ := List.pairwise_cons.1 hrise
    obtain ⟨hn, hall⟩ := noWorse_of_foldl_betterSource l hb hl h
    rcases List.mem_cons.1 hin with rfl | hml
    · exact hn
    · exact hall m hml

/-- Without a candidate nothing is deliverable. -/
theorem not_deliverable_of_candidate_none {v : List Service} {c : Chip} {k : Nat} (h : candidate v c k = none) {m : Nat} (hm : m < 512) :
    deliverable v c k m = false := by
  by_contra hd
  have hin := mem_deliverables hm (Bool.not_eq_false _ ▸ hd)
  unfold candidate at h
  generalize (List.range 512).filter (deliverable v c k) = l at h hin
  cases l with
  | nil => exact absurd hin List.not_mem_nil
  | cons b l =>
    obtain ⟨n, hn⟩ := isSome_foldl_betterSource c l b
    exact Option.some_ne_none n (hn.symm.trans h)

/-- The reset state with source 0 unmasked. -/
def unmaskedReset : State := { State.reset with chip := setReg (Reg.IRQ_MASK 0) 0#32 State.reset.chip }

/-- Word 48 of the pending bits would stand where word 0 of the masks stands: the statement's last clause speaks of every number,
not of the 512 sources alone. -/
theorem isPending_past_sources (c : Chip) (i : Nat) (h : i < 32) : isPending c (1536 + i) = rflag c (Reg.IRQ_MASK 0) i := by
  have hw : (1536 + i) / 32 = 48 := by omega
  have hi : (1536 + i) % 32 = i := by omega
  rw [isPending, hw, hi]
  rfl

/-- Refutes O3: no source is deliverable while masked and a mask is written to its word alone, but the last clause ranges over all
numbers `n`. The pending bit of "source" 1536 lies, by its address, in IRQ_MASK word 0, which masking source 0 changes. -/
theorem not_maskedSourceIsNeverSelected : ¬ Obligations.MaskedSourceIsNeverSelected := by
  intro h
  obtain ⟨c', hrun, hmask, hpend, -⟩ := h.2.2 0 1#32 unmaskedReset
  have hzero : reg unmaskedReset.chip (Reg.IRQ_MASK 0) = 0#32 := reg_setReg_same ..
  have hone : reg c' (Reg.IRQ_MASK 0) = 1#32 := hmask.trans (by rw [show ((0 : Fin 16) : Nat) = 0 from rfl, hzero]; rfl)
  have hsame := hpend 1536
  rw [isPending_past_sources c' 0 (by decide), isPending_past_sources unmaskedReset.chip 0 (by decide), rflag, rflag, hone, hzero] at hsame
  exact absurd hsame (by decide)

end Sys2Proof.Machine
end

section
/-!
PROOFS. Interrupt sources become pending, are claimed and end their service (R441 to R446).
-/

namespace Sys2Proof.Machine

open Sys2Proof.Safety

/-- A meaning that answers a state which is `s` with another chip completes there. -/
theorem completes_next {i : Instr} {s t : State} {c : Chip} (hi : exec i s = .next t) (ht : t = { s with chip := c }) : Completes i s c := by
  rw [Completes, hi, ht]

theorem completesAt_next {i : Instr} {s t u : State} (hi : exec i s = .next t) (ht : t = u) (hp : u.pending = s.pending) :
    CompletesAt i s u := ⟨hi.trans (congrArg _ ht), hp⟩

/-- Set aside the host interface and the announcements, a notification stays within every frame. -/
theorem frame_notifyHost {as ts : List Nat} {c d : Chip} (v : List Service) {H : HostSide} {l : List Nat}
    (f : Frame as ts c { d with host := H, asked5 := l }) : Frame as ts c { notifyHost v d with host := H, asked5 := l } := by
  have hq := onlyAnnounced_notifyHost v d
  generalize notifyHost v d = d' at hq
  rw [hq]
  exact f

/-- Whether the controller, seeing the line of source `n`, makes it pending (R442). -/
def lineSets (v : List Service) (n : Nat) (c : Chip) : Bool :=
  let was := mapGet (fun _ => false) c.lineWas n
  if srcEdge c n then lineOf c n && !was else lineOf c n && !inService v n

/-- The line of source `n` noted, with its pending bit set where `sets`. -/
def lineNoted (sets : Bool) (n : Nat) (c : Chip) : Chip :=
  when_ sets (setPending n true) { c with lineWas := mapPut (fun _ => false) c.lineWas n (lineOf c n) }

theorem irqLine_eq (v : List Service) (n : Nat) (c : Chip) : irqLine v n c = notifyHost v (lineNoted (lineSets v n c) n c) := rfl

theorem lineWas_lineNoted (sets : Bool) (n : Nat) (c : Chip) :
    mapGet (fun _ => false) (lineNoted sets n c).lineWas n = lineOf c n := by
  cases sets with
  | false => exact mapGet_mapPut_same ..
  | true => exact mapGet_mapPut_same ..

theorem isPending_lineNoted_same (sets : Bool) (n : Nat) (c : Chip) : isPending (lineNoted sets n c) n = (isPending c n || sets) := by
  cases sets with
  | false => exact (Bool.or_false _).symm
  | true => exact (isPending_setPending_same ..).trans (Bool.or_true _).symm

theorem isPending_lineNoted_ne (sets : Bool) {n m : Nat} (h : m ≠ n) (c : Chip) : isPending (lineNoted sets n c) m = isPending c m := by
  cases sets with
  | false => rfl
  | true => exact isPending_setPending_ne h ..

theorem frame_lineNoted (sets : Bool) (n : Nat) (c : Chip) :
    Frame [Reg.IRQ_PEND (n / 32)] [] c { lineNoted sets n c with host := c.host, asked5 := c.asked5, lineWas := c.lineWas } := by
  cases sets with
  | false => exact frame_refl ..
  | true => exact frame_setPending n true List.mem_cons_self (frame_refl ..)

/-! ### Claims and ends of service (R444) -/

theorem claimWord_lt {c : Chip} {n : Nat} (h : n < 512) : claimWord c n < 2 ^ 64 := by
  have hp : srcPrio c n < 16 := Nat.mod_lt _ (by decide)
  unfold claimWord
  omega

/-- The chip of a claim that returns source `n`. -/
def claimed (k n : Nat) (c : Chip) : Chip :=
  let c' := { c with readOut := BitVec.ofNat 64 (claimWord c n) }
  setPending n false (if k = 5 then { c' with asked5 := c'.asked5.filter (· != n) } else c')

theorem claim_of_candidate {s : State} {k n : Nat} (h : candidate s.irq s.chip k = some n) :
    claim k s = { s with chip := claimed k n s.chip, irq := { target := k, source := n, prio := srcPrio s.chip n } :: s.irq } := by
  unfold claim
  rw [h]
  rfl

theorem claim_of_none {s : State} {k : Nat} (h : candidate s.irq s.chip k = none) :
    claim k s = { s with chip := { s.chip with readOut := 0#64 } } := by
  unfold claim
  rw [h]

/-- What is left of the chip before the pending bit is cleared. -/
theorem claimed_eq (k n : Nat) (c : Chip) : ∃ l, claimed k n c =
    setPending n false { c with readOut := BitVec.ofNat 64 (claimWord c n), asked5 := l } := by
  unfold claimed
  dsimp only
  split
  · exact ⟨_, rfl⟩
  · exact ⟨c.asked5, rfl⟩

/-- The services left when that of source `n` with target `k` has ended. -/
def servedElse (v : List Service) (k n : Nat) : List Service := v.filter (fun x => !(x.target == k && x.source == n))

theorem endService_of_served {k n : Nat} {s : State} (h : s.irq.any (fun x => x.target == k && x.source == n) = true) :
    endService k n s = { s with irq := servedElse s.irq k n, chip := notifyHost (servedElse s.irq k n) s.chip } := by
  unfold endService
  rw [if_pos h]
  rfl

theorem endService_of_unserved {k n : Nat} {s : State} (h : s.irq.any (fun x => x.target == k && x.source == n) = false) :
    endService k n s = { s with chip := raise Reg.IRQ_FAULT 0 s.chip } := by
  unfold endService
  rw [if_neg (by rw [h]; decide)]

/-! ### Source registers (R441) -/

theorem srcWrite_refused {v : List Service} {who : Initiator} {n : Nat} {x : Word} {c : Chip} (hw : who ≠ .power)
    (h : srcTarget c n = 4 ∨ fld x 6 4 = 4) : srcWrite v who n x c = raise Reg.IRQ_FAULT 1 c := by
  have hcond : (who != .power && (srcTarget c n == 4 || fld x 6 4 == 4)) = true := by simp [hw, h]
  unfold srcWrite
  rw [if_pos hcond]

theorem srcWrite_writes {v : List Service} {who : Initiator} {n : Nat} {x : Word} {c : Chip}
    (h : who = .power ∨ (srcTarget c n ≠ 4 ∧ fld x 6 4 ≠ 4)) :
    srcWrite v who n x c = notifyHost v (setReg (Reg.IRQ_SRC n) (x &&& 0x003F017F#32) c) := by
  have hcond : ¬ (who != .power && (srcTarget c n == 4 || fld x 6 4 == 4)) = true := by
    rcases h with h | ⟨h1, h2⟩
    · simp [h]
    · simp [h1, h2]
  unfold srcWrite
  rw [if_neg hcond]

/-- A word written with a notification after it. -/
theorem notified_setReg (v : List Service) (a : Nat) (x : Word) (c : Chip) :
    reg (notifyHost v (setReg a x c)) a = x ∧
      Frame [a] [] c { notifyHost v (setReg a x c) with host := c.host, asked5 := c.asked5 } :=
  ⟨(reg_notifyHost ..).trans (reg_setReg_same ..), frame_notifyHost v (frame_setReg _ _ List.mem_cons_self (frame_refl ..))⟩

theorem frame_notified (v : List Service) (c : Chip) :
    Frame [] [] c { notifyHost v c with host := c.host, asked5 := c.asked5 } := frame_notifyHost v (frame_refl [] [] c)

/-! ### The clauses -/

theorem irqLine_outcome (n : Fin 512) (s : State) :
    let c := s.chip
    let was := mapGet (fun _ => false) c.lineWas n
    let sets := if srcEdge c n then lineOf c n && !was else lineOf c n && !inService s.irq n
    ∃ c', Completes (.irqLine n) s c' ∧ isPending c' n = (isPending c n || sets) ∧
      mapGet (fun _ => false) c'.lineWas n = lineOf c n ∧ (∀ m, m < 512 → m ≠ n.val → isPending c' m = isPending c m) ∧
      Frame [Reg.IRQ_PEND (n / 32)] [] c { c' with host := c.host, asked5 := c.asked5, lineWas := c.lineWas } := by
  refine ⟨_, completes_done rfl, ?_, ?_, fun m _ hm => ?_, ?_⟩
  · rw [irqLine_eq, isPending_notifyHost, isPending_lineNoted_same]
    rfl
  · rw [irqLine_eq, lineWas_notifyHost, lineWas_lineNoted]
  · rw [irqLine_eq, isPending_notifyHost, isPending_lineNoted_ne _ hm]
  · have hq := onlyAnnounced_notifyHost s.irq (lineNoted (lineSets s.irq n s.chip) n s.chip)
    rw [irqLine_eq]
    generalize notifyHost s.irq (lineNoted (lineSets s.irq n s.chip) n s.chip) = d at hq
    rw [hq]
    exact frame_lineNoted ..

theorem irqClaim_returns {k : Fin 6} {n : Nat} {s : State} (h : candidate s.irq s.chip k = some n) :
    ∃ t, CompletesAt (.irqClaim k) s t ∧ t.irq = { target := k.val, source := n, prio := srcPrio s.chip n } :: s.irq ∧
      t.chip.readOut.toNat = claimWord s.chip n ∧ isPending t.chip n = false ∧ t.sec = s.sec ∧
      (∀ m, m < 512 → m ≠ n → isPending t.chip m = isPending s.chip m) ∧
      Frame [Reg.IRQ_PEND (n / 32)] [] s.chip { t.chip with readOut := s.chip.readOut, asked5 := s.chip.asked5 } := by
  obtain ⟨l, hl⟩ := claimed_eq k n s.chip
  refine ⟨_, completesAt_next rfl (claim_of_candidate h) rfl, rfl, ?_, ?_, rfl, fun m _ hm => ?_, ?_⟩
  · dsimp only
    rw [hl]
    exact (BitVec.toNat_ofNat ..).trans (Nat.mod_eq_of_lt (claimWord_lt (deliverable_of_candidate h).1))
  · dsimp only
    rw [hl]
    exact isPending_setPending_same ..
  · dsimp only
    rw [hl, isPending_setPending_ne hm]
    rfl
  · dsimp only
    rw [hl]
    exact frame_setPending n false List.mem_cons_self (frame_refl ..)

theorem irqDone_ends {k : Fin 6} {v : Word} {s : State} (h : s.irq.any (fun x => x.target == k.val && x.source == fld v 8 0) = true) :
    ∃ t, CompletesAt (.irqDone k v) s t ∧ t.irq = servedElse s.irq k (fld v 8 0) ∧ t.sec = s.sec ∧
      Frame [] [] s.chip { t.chip with host := s.chip.host, asked5 := s.chip.asked5 } := by
  refine ⟨_, completesAt_next rfl (endService_of_served h) rfl, rfl, rfl, ?_⟩
  exact frame_notified (servedElse s.irq k (fld v 8 0)) s.chip

/-- Settles O46: each command by its own lemma; the candidate's rank by induction over the deliverable sources in rising order. -/
theorem interrupts : Obligations.Interrupts := by
  intro s c quiet
  refine ⟨fun n => irqLine_outcome n s, fun k => ⟨fun n h => ?_, fun h => ⟨fun m => not_deliverable_of_candidate_none h, ?_⟩⟩,
    fun k v => ⟨fun h => ?_, fun h => ?_⟩, fun w v => ⟨?_, ?_, ?_⟩, fun who n v => ⟨fun hw h => ?_, fun h => ?_⟩⟩
  · obtain ⟨hlt, hd⟩ := deliverable_of_candidate h
    exact ⟨hlt, hd, fun m hm hdm => noWorse_of_candidate h hm hdm, irqClaim_returns h⟩
  · exact completes_next rfl (claim_of_none h)
  · exact irqDone_ends h
  · exact ⟨_, completes_next rfl (endService_of_unserved h), rflag_raise _ _ _ (by decide), frame_raise _ _ List.mem_cons_self (frame_refl ..)⟩
  · exact ⟨_, completes_done rfl, notified_setReg ..⟩
  · exact ⟨_, completes_done rfl, reg_setReg_same .., frame_setReg _ _ List.mem_cons_self (frame_refl ..)⟩
  · exact ⟨_, completes_done rfl, notified_setReg ..⟩
  · exact ⟨_, congrArg (done s) (srcWrite_refused hw h), rflag_raise _ _ _ (by decide), frame_raise _ _ List.mem_cons_self (frame_refl ..)⟩
  · exact ⟨_, congrArg (done s) (srcWrite_writes h), notified_setReg ..⟩

end Sys2Proof.Machine
end

section
/-!
PROOFS. Timers (R450 to R454), the event recorder (R455 to R459, R538), the runtime watchdog (R438) and cluster rings (R449).
-/

namespace Sys2Proof.Machine

open Sys2Proof.Safety

/-! ### A raised bit stays -/

/-- A bit that is 1 stays 1 when bits are raised. -/
theorem rflag_raise_of_set {a i : Nat} (b : Nat) {j : Nat} (hj : j < 32) {c : Chip} (h : rflag c a i = true) :
    rflag (raise b j c) a i = true := by
  by_cases hab : a = b
  · subst hab
    by_cases hij : i = j
    · subst hij
      exact rflag_raise _ _ _ hj
    · exact (rflag_setBit_bit _ hj hij _ c).trans h
  · exact (rflag_congr (reg_raise_ne hab _ c)).trans h

theorem rflag_when_of_set {a i : Nat} {f : Chip → Chip} (b : Bool) {c : Chip} (h : rflag c a i = true)
    (hf : rflag c a i = true → rflag (f c) a i = true) : rflag (when_ b f c) a i = true := by
  cases b with
  | false => exact h
  | true => exact hf h

/-! ### Timers (R450 to R453) -/

theorem reg_timerPulse (c : Chip) (a : Nat) : reg (timerPulse c) a = reg c a :=
  reg_forAll (f := fun k c => modTb k (fun T => { T with pulse := T.pulse || T.armed }) c) _ (fun _ _ _ => rfl) c

/-- The actions of a timer clear no bit of a register. -/
theorem rflag_timerAct_of_set {a i : Nat} (v : List Service) (n x : Nat) {c : Chip} (h : rflag c a i = true) :
    rflag (timerAct v n x c) a i = true := by
  unfold timerAct
  have hen := rflag_when_of_set (f := setBit (Reg.TMR_CFG (rfld c (Reg.TMR_CFG n) 27 24)) 31 true) (bit x 1) h
    (rflag_raise_of_set _ (by decide))
  have hpulse := rflag_when_of_set (f := pulseSource v n) (bit x 2) hen
    (fun h => rflag_when_of_set _ h (rflag_raise_of_set _ (Nat.mod_lt _ (by decide))))
  exact rflag_when_of_set _ hpulse (fun h => (rflag_congr (reg_timerPulse ..)).trans h)

/-- COUNT of timer `n` after one more event (R451). -/
def nextCount (c : Chip) (n : Nat) : Nat := ((reg c (Reg.TMR_COUNT n)).toNat + 1) % 2 ^ 32

/-- Whether the next COUNT of timer `n` reaches its compare value (R452). -/
def countHits (c : Chip) (n : Nat) : Bool := decide ((reg c (Reg.TMR_CMP n)).toNat ≤ nextCount c n)

/-- An overflow of timer `n`: its bit, its actions, and the timer that it feeds. -/
def overflowed (v : List Service) (left n : Nat) (c : Chip) : Chip :=
  c |> raise (Reg.TMR_STATUS n) 1 |> timerAct v n (fld (reg c (Reg.TMR_CFG n)) 15 12)
    |> when_ (decide (n < 15) && rfld c (Reg.TMR_CFG (n + 1)) 29 28 == 2) (countEvent v left (n + 1))

/-- Timer `n` at its compare value, with the actions `x`. -/
def compared (v : List Service) (n x : Nat) (c : Chip) : Chip := c |> raise (Reg.TMR_STATUS n) 0 |> timerAct v n x

/-- One event of an enabled timer before COUNT is written. -/
def eventNoted (v : List Service) (left n : Nat) (c : Chip) : Chip :=
  when_ (countHits c n) (compared v n (fld (reg c (Reg.TMR_CFG n)) 11 8)) (if nextCount c n = 0 then overflowed v left n c else c)

theorem countEvent_enabled (v : List Service) (left : Nat) {n : Nat} {c : Chip} (h : rflag c (Reg.TMR_CFG n) 31 = true) :
    countEvent v (left + 1) n c =
      putNum (Reg.TMR_COUNT n) (if countHits c n && flag (reg c (Reg.TMR_CFG n)) 8 then 0 else nextCount c n)
        (eventNoted v left n c) := by
  rw [countEvent, if_neg (by rw [h]; decide)]
  rfl

theorem countEvent_disabled (v : List Service) (left : Nat) {n : Nat} {c : Chip} (h : rflag c (Reg.TMR_CFG n) 31 = false) :
    countEvent v left n c = c := by
  cases left with
  | zero => rfl
  | succ left => rw [countEvent, if_pos (by rw [h]; rfl)]

/-- A count event clears no bit of a register other than COUNT. -/
theorem rflag_countEvent_of_set {a i : Nat} (v : List Service) (left n : Nat) {c : Chip} (ha : ∀ m, a ≠ Reg.TMR_COUNT m)
    (h : rflag c a i = true) : rflag (countEvent v left n c) a i = true := by
  induction left generalizing n c with
  | zero => exact h
  | succ left ih =>
    cases hen : rflag c (Reg.TMR_CFG n) 31 with
    | false => rwa [countEvent_disabled v _ hen]
    | true =>
      rw [countEvent_enabled v left hen, rflag_congr (reg_putNum_ne (ha n) ..)]
      have hover : rflag (if nextCount c n = 0 then overflowed v left n c else c) a i = true := by
        split
        · exact rflag_when_of_set _ (rflag_timerAct_of_set v _ _ (rflag_raise_of_set _ (by decide) h)) (ih _)
        · exact h
      exact rflag_when_of_set _ hover (fun h => rflag_timerAct_of_set v _ _ (rflag_raise_of_set _ (by decide) h))

theorem TMR_STATUS_ne_COUNT (n m : Nat) : Reg.TMR_STATUS n ≠ Reg.TMR_COUNT m := by
  unfold Reg.TMR_STATUS Reg.TMR_COUNT; omega

/-- The bits of STATUS that an event sets: overflow, and the compare value. -/
theorem status_eventNoted (v : List Service) (left n : Nat) (c : Chip) :
    (countHits c n = true → rflag (eventNoted v left n c) (Reg.TMR_STATUS n) 0 = true) ∧
      (nextCount c n = 0 → rflag (eventNoted v left n c) (Reg.TMR_STATUS n) 1 = true) := by
  unfold eventNoted
  refine ⟨fun hh => ?_, fun hn => ?_⟩
  · rw [hh]
    exact rflag_timerAct_of_set v _ _ (rflag_raise _ _ _ (by decide))
  · rw [if_pos hn]
    have hraised := rflag_timerAct_of_set v n (fld (reg c (Reg.TMR_CFG n)) 15 12) (rflag_raise (Reg.TMR_STATUS n) 1 c (by decide))
    have hover := rflag_when_of_set (f := countEvent v left (n + 1))
      (decide (n < 15) && rfld c (Reg.TMR_CFG (n + 1)) 29 28 == 2) hraised (rflag_countEvent_of_set v _ _ (TMR_STATUS_ne_COUNT n))
    exact rflag_when_of_set _ hover (fun h => rflag_timerAct_of_set v _ _ (rflag_raise_of_set _ (by decide) h))

theorem eventNoted_plain (v : List Service) (left : Nat) {n : Nat} {c : Chip} (hh : countHits c n = false) (hn : nextCount c n ≠ 0) :
    eventNoted v left n c = c := by
  unfold eventNoted
  rw [hh, if_neg hn]
  rfl

theorem nextCount_lt (c : Chip) (n : Nat) : nextCount c n < 2 ^ 32 := Nat.mod_lt _ (by decide)

theorem timerCount_outcome (n : Fin 16) (s : State) (hfed : timerFed s.chip n = true)
    (hen : flag (reg s.chip (Reg.TMR_CFG n)) 31 = true) : ∃ c', Completes (.timerCount n) s c' ∧
      (reg c' (Reg.TMR_COUNT n)).toNat = (if countHits s.chip n && flag (reg s.chip (Reg.TMR_CFG n)) 8 then 0 else nextCount s.chip n) ∧
      (countHits s.chip n = true → rflag c' (Reg.TMR_STATUS n) 0 = true) ∧
      (nextCount s.chip n = 0 → rflag c' (Reg.TMR_STATUS n) 1 = true) ∧
      (countHits s.chip n = false → nextCount s.chip n ≠ 0 →
        Frame [Reg.TMR_COUNT n] [] s.chip { c' with host := s.chip.host, asked5 := s.chip.asked5 }) := by
  have hrun : timerCount s.irq n s.chip = notifyHost s.irq (countEvent s.irq 16 n s.chip) := by rw [timerCount, if_pos hfed]
  refine ⟨_, congrArg (done s) hrun, ?_⟩
  rw [countEvent_enabled _ 15 hen, reg_notifyHost, reg_putNum_same, rflag_congr (reg_notifyHost ..), rflag_congr (reg_notifyHost ..),
    rflag_congr (reg_putNum_ne (TMR_STATUS_ne_COUNT n n) ..), rflag_congr (reg_putNum_ne (TMR_STATUS_ne_COUNT n n) ..)]
  obtain ⟨h0, h1⟩ := status_eventNoted s.irq 15 n s.chip
  refine ⟨?_, h0, h1, fun hh hn => ?_⟩
  · rw [BitVec.toNat_ofNat, Nat.mod_eq_of_lt]
    have hlt := nextCount_lt s.chip n
    split <;> omega
  · rw [eventNoted_plain _ _ hh hn]
    exact frame_notifyHost _ (frame_putNum _ _ List.mem_cons_self (frame_refl ..))

/-- A read of COUNT returns it, latches the timer that counts its overflows, and changes nothing else (R454). -/
theorem timerCountRead_outcome (who : Initiator) (n : Nat) (c : Chip) :
    (timerCountRead who n c).readOut.toNat = (reg c (Reg.TMR_COUNT n)).toNat ∧
      (n < 15 → rfld c (Reg.TMR_CFG (n + 1)) 29 28 = 2 →
        mapGet (fun _ => 0#32) (timerCountRead who n c).snaps (snapBank who) = reg c (Reg.TMR_COUNT (n + 1))) ∧
      (rfld c (Reg.TMR_CFG (n + 1)) 29 28 ≠ 2 → (timerCountRead who n c).snaps = c.snaps) ∧
      Frame [] [] c { timerCountRead who n c with readOut := c.readOut, snaps := c.snaps } := by
  have hread : (BitVec.ofNat 64 (reg c (Reg.TMR_COUNT n)).toNat).toNat = (reg c (Reg.TMR_COUNT n)).toNat := by
    have hlt := (reg c (Reg.TMR_COUNT n)).isLt
    rw [BitVec.toNat_ofNat, Nat.mod_eq_of_lt (by omega)]
  by_cases h : n < 15 ∧ rfld c (Reg.TMR_CFG (n + 1)) 29 28 = 2
  · have hlatch : timerCountRead who n c = { c with
        readOut := BitVec.ofNat 64 (reg c (Reg.TMR_COUNT n)).toNat
        snaps := mapPut (fun _ => 0#32) c.snaps (snapBank who) (reg c (Reg.TMR_COUNT (n + 1))) } := if_pos h
    rw [hlatch]
    exact ⟨hread, fun _ _ => mapGet_mapPut_same .., fun hne => absurd h.2 hne, frame_refl ..⟩
  · have hplain : timerCountRead who n c = { c with readOut := BitVec.ofNat 64 (reg c (Reg.TMR_COUNT n)).toNat } := if_neg h
    rw [hplain]
    exact ⟨hread, fun h1 h2 => absurd ⟨h1, h2⟩ h, fun _ => rfl, frame_refl ..⟩

theorem flag_or (v w : Word) (i : Nat) : flag (v ||| w) i = (flag v i || flag w i) := by
  simp only [flag, bit_eq_testBit, BitVec.toNat_or, Nat.testBit_or]

/-- A write of TMR_n_CFG never clears EN (R453). -/
theorem timerEnable_outcome (n : Nat) (v : Word) (c : Chip) :
    rflag (timerEnable n v c) (Reg.TMR_CFG n) 31 = (flag v 31 || flag (reg c (Reg.TMR_CFG n)) 31) ∧
      reg (timerEnable n v c) (Reg.TMR_CFG n) &&& 0x7FFFFFFF#32 = v &&& 0x3F00FF00#32 ∧
      Frame [Reg.TMR_CFG n] [] c (timerEnable n v c) := by
  have hreg : reg (timerEnable n v c) (Reg.TMR_CFG n) = (v &&& 0xBF00FF00#32) ||| (reg c (Reg.TMR_CFG n) &&& 0x80000000#32) :=
    reg_setReg_same ..
  refine ⟨?_, ?_, frame_setReg _ _ List.mem_cons_self (frame_refl ..)⟩
  · rw [rflag, hreg, flag_or, flag_and_of_one (by decide), flag_and_of_one (by decide)]
  · have hv : 0xBF00FF00#32 &&& 0x7FFFFFFF#32 = 0x3F00FF00#32 := by decide
    have hc : 0x80000000#32 &&& 0x7FFFFFFF#32 = 0#32 := by decide
    rw [hreg, BitVec.and_comm, BitVec.and_or_distrib_left, BitVec.and_comm, BitVec.and_assoc, hv, BitVec.and_comm 0x7FFFFFFF#32,
      BitVec.and_assoc, hc, BitVec.and_zero, BitVec.or_zero]

/-! ### The recorder (R455 to R459) -/

/-- The SEQ of the next record. -/
def recorderSeq (c : Chip) : Nat := nextRecord c.recd.last

/-- Word `i` of slot `slot` of the ring. -/
def ringPut (slot : Nat) (bs : List Byte) (i : Nat) (c : Chip) : Chip :=
  putNum (Reg.REC_RING (16 * slot + i)) (ofBytes ((bs.drop (4 * i)).take 4)) c

/-- The 16 words of a record in slot `slot`. -/
def slotPut (slot : Nat) (bs : List Byte) (c : Chip) : Chip := forAll (ringPut slot bs) (List.range 16) c

theorem reg_slotPut_ne {slot a : Nat} (h : ∀ i, i < 16 → a ≠ Reg.REC_RING (16 * slot + i)) (bs : List Byte) (c : Chip) :
    reg (slotPut slot bs c) a = reg c a :=
  reg_forAll _ (fun i hi d => reg_putNum_ne (h i (List.mem_range.1 hi)) _ d) c

theorem reg_slotPut_word (slot : Nat) (bs : List Byte) {i : Nat} (h : i < 16) (c : Chip) :
    reg (slotPut slot bs c) (Reg.REC_RING (16 * slot + i)) = BitVec.ofNat 32 (ofBytes ((bs.drop (4 * i)).take 4)) := by
  refine forAll_through (P := fun _ => True)
    (Q := fun d => reg d (Reg.REC_RING (16 * slot + i)) = BitVec.ofNat 32 (ofBytes ((bs.drop (4 * i)).take 4)))
    (List.range 16) (List.mem_range.2 h) List.nodup_range (fun _ _ _ _ _ => trivial) (fun d _ => reg_putNum_same ..)
    (fun k _ hk d hd => ?_) c trivial
  rw [ringPut, reg_putNum_ne ?_]
  · exact hd
  · unfold Reg.REC_RING
    omega

/-- The bytes of a record of the chip `c`. -/
def ringRecord (typ subject : Nat) (body : List Byte) (c : Chip) : List Byte :=
  recorderBytes (recorderSeq c) typ subject ((Config.freeWord (c.free + 1)).toNat * 2 ^ 32 + (Config.freeWord c.free).toNat) body

/-- The chip before a record's words are written: its SEQ, its TIME and the watched slot (R458). -/
def recordBegun (c : Chip) : Chip :=
  when_ (decide ((reg c Reg.REC_WATCH).toNat ≠ 0) && slotSeq c ((recorderSeq c - 1) % 4096) == (reg c Reg.REC_WATCH).toNat)
    (raise Reg.REC_FAULT 2) { c with free := c.free + 2, recd := { c.recd with last := recorderSeq c } }

/-- The slot that the next record takes. -/
def nextSlot (c : Chip) : Nat := (recorderSeq c - 1) % 4096

theorem recordWrite_on {typ : Nat} (subject : Nat) (body : List Byte) {c : Chip} (hon : rflag c Reg.REC_CTRL 31 = true)
    (htyp : rflag c Reg.REC_CTRL typ = true) : recordWrite typ subject body c =
      (recordBegun c |> slotPut (nextSlot c) (ringRecord typ subject body c) |> putNum Reg.REC_LAST (recorderSeq c)
        |> setFld Reg.REC_STATUS 11 0 (nextSlot c) |> count Reg.REC_WRITTEN 1) := by
  unfold recordWrite
  rw [if_pos (by rw [hon, htyp]; rfl)]
  rfl

theorem recordWrite_off {typ : Nat} (subject : Nat) (body : List Byte) {c : Chip}
    (h : (rflag c Reg.REC_CTRL 31 && rflag c Reg.REC_CTRL typ) = false) : recordWrite typ subject body c = c := by
  unfold recordWrite
  rw [if_neg (by rw [h]; decide)]

theorem reg_recordBegun_ne {a : Nat} (h : a ≠ Reg.REC_FAULT) (c : Chip) : reg (recordBegun c) a = reg c a := by
  unfold recordBegun when_
  split
  · exact reg_raise_ne h _ _
  · rfl

theorem nextSlot_lt (c : Chip) : nextSlot c < 4096 := Nat.mod_lt _ (by decide)

theorem ne_ring_of_outside {a : Nat} (h : a < Reg.REC_RING 0 ∨ Reg.REC_RING 65536 ≤ a) (c : Chip) (i : Nat) (hi : i < 16) :
    a ≠ Reg.REC_RING (16 * nextSlot c + i) := by
  have hs := nextSlot_lt c
  unfold Reg.REC_RING at *
  omega

/-- A record changes the registers of the recorder that it names and its slot of the ring alone. -/
theorem reg_recordWrite_ne {a : Nat} (hring : a < Reg.REC_RING 0 ∨ Reg.REC_RING 65536 ≤ a) (hfault : a ≠ Reg.REC_FAULT)
    (hlast : a ≠ Reg.REC_LAST) (hstatus : a ≠ Reg.REC_STATUS) (hwritten : a ≠ Reg.REC_WRITTEN) (typ subject : Nat) (body : List Byte)
    (c : Chip) : reg (recordWrite typ subject body c) a = reg c a := by
  cases hon : rflag c Reg.REC_CTRL 31 && rflag c Reg.REC_CTRL typ with
  | false => rw [recordWrite_off subject body hon]
  | true =>
    obtain ⟨h31, htyp⟩ := (Bool.and_eq_true _ _).mp hon
    rw [recordWrite_on subject body h31 htyp, reg_count_ne hwritten, reg_setFld_ne hstatus, reg_putNum_ne hlast,
      reg_slotPut_ne (ne_ring_of_outside hring c), reg_recordBegun_ne hfault]

/-- A record leaves the bits of REC_STATUS above its slot number. -/
theorem status_recordWrite {i : Nat} (hi : 11 < i) (typ subject : Nat) (body : List Byte) (c : Chip) :
    rflag (recordWrite typ subject body c) Reg.REC_STATUS i = rflag c Reg.REC_STATUS i := by
  cases hon : rflag c Reg.REC_CTRL 31 && rflag c Reg.REC_CTRL typ with
  | false => rw [recordWrite_off subject body hon]
  | true =>
    obtain ⟨h31, htyp⟩ := (Bool.and_eq_true _ _).mp hon
    have hring : Reg.REC_STATUS < Reg.REC_RING 0 ∨ Reg.REC_RING 65536 ≤ Reg.REC_STATUS := by decide
    rw [recordWrite_on subject body h31 htyp, rflag_congr (reg_count_ne (by decide) ..), rflag, setFld, reg_setReg_same,
      flag_putFld_apart _ _ _ _ _ (by decide) (by decide) (.inr hi), reg_putNum_ne (by decide),
      reg_slotPut_ne (ne_ring_of_outside hring c), reg_recordBegun_ne (by decide)]
    rfl

/-- What a written record leaves: its words in its slot, REC_LAST and REC_WRITTEN. -/
theorem recordWrite_writes {typ : Nat} (subject : Nat) (body : List Byte) {c : Chip} (hon : rflag c Reg.REC_CTRL 31 = true)
    (htyp : rflag c Reg.REC_CTRL typ = true) :
    (∀ i, i < 16 → reg (recordWrite typ subject body c) (Reg.REC_RING (16 * nextSlot c + i)) =
      BitVec.ofNat 32 (ofBytes (((ringRecord typ subject body c).drop (4 * i)).take 4))) ∧
    reg (recordWrite typ subject body c) Reg.REC_LAST = BitVec.ofNat 32 (recorderSeq c) ∧
    Advanced Reg.REC_WRITTEN 1 c (recordWrite typ subject body c) := by
  rw [recordWrite_on subject body hon htyp]
  refine ⟨fun i hi => ?_, ?_, ?_⟩
  · have hne (a : Nat) (h : a < Reg.REC_RING 0) : Reg.REC_RING (16 * nextSlot c + i) ≠ a := by
      unfold Reg.REC_RING at *
      omega
    rw [reg_count_ne (hne _ (by decide)), reg_setFld_ne (hne _ (by decide)), reg_putNum_ne (hne _ (by decide)), reg_slotPut_word _ _ hi]
  · rw [reg_count_ne (by decide), reg_setFld_ne (by decide), reg_putNum_same]
  · refine advanced_of_count ?_ rfl
    rw [reg_setFld_ne (by decide), reg_putNum_ne (by decide), reg_slotPut_ne (ne_ring_of_outside (by decide) c),
      reg_recordBegun_ne (by decide)]

/-- Words of a record whose body is one word (REC_NOTE): SEQ, the head, the body, SEQ again. -/
theorem noteWords (seq subject time : Nat) (x : Word) (hsub : subject < 256) :
    let bs := recorderBytes seq 8 subject time (toBytes 4 x.toNat)
    BitVec.ofNat 32 (ofBytes ((bs.drop (4 * 0)).take 4)) = BitVec.ofNat 32 seq ∧
      BitVec.ofNat 32 (ofBytes ((bs.drop (4 * 1)).take 4)) = BitVec.ofNat 32 (8 + 4 * 256 + subject * 65536) ∧
      BitVec.ofNat 32 (ofBytes ((bs.drop (4 * 4)).take 4)) = x ∧
      BitVec.ofNat 32 (ofBytes ((bs.drop (4 * 15)).take 4)) = BitVec.ofNat 32 seq := by
  have hword (n : Nat) : BitVec.ofNat 32 (ofBytes (toBytes 4 n)) = BitVec.ofNat 32 n := by
    rw [ofBytes_toBytes]
    exact BitVec.eq_of_toNat_eq (by simp)
  have hx : BitVec.ofNat 32 (ofBytes (toBytes 4 x.toNat)) = x := (hword _).trans (BitVec.ofNat_toNat ..)
  have hhead : ofBytes [BitVec.ofNat 8 8, BitVec.ofNat 8 4, BitVec.ofNat 8 subject, BitVec.ofNat 8 (subject / 256)] =
      8 + 4 * 256 + subject * 65536 := by
    have hdiv : subject / 256 = 0 := Nat.div_eq_of_lt hsub
    simp only [ofBytes, hdiv, BitVec.toNat_ofNat, Nat.mod_eq_of_lt hsub]
    omega
  exact ⟨hword seq, congrArg _ hhead, hx, hword seq⟩

theorem recNote_outcome (who : Initiator) (v : Word) {c : Chip} (hon : rflag c Reg.REC_CTRL 31 = true)
    (htyp : rflag c Reg.REC_CTRL 8 = true) :
    let seq := nextRecord c.recd.last
    let slot := 16 * ((seq - 1) % 4096)
    let c' := recNote who v c
    reg c' (Reg.REC_RING slot) = BitVec.ofNat 32 seq ∧
      reg c' (Reg.REC_RING (slot + 1)) = BitVec.ofNat 32 (8 + 4 * 256 + snapBank who * 65536) ∧
      reg c' (Reg.REC_RING (slot + 4)) = v ∧ reg c' (Reg.REC_RING (slot + 15)) = BitVec.ofNat 32 seq ∧
      reg c' Reg.REC_LAST = BitVec.ofNat 32 seq ∧ Advanced Reg.REC_WRITTEN 1 c c' ∧
      ∀ a, (a < Reg.REC_CTRL ∨ Reg.REC_RING 65536 ≤ a) → reg c' a = reg c a := by
  have hbank : snapBank who < 256 := by
    cases who with
    | core k => exact Nat.lt_trans k.isLt (by decide)
    | power => decide
    | host => decide
    | thistle => decide
  obtain ⟨hword, hlast, hwritten⟩ := recordWrite_writes (snapBank who) (toBytes 4 v.toNat) hon htyp
  obtain ⟨h0, h1, h4, h15⟩ := noteWords (recorderSeq c) (snapBank who)
    ((Config.freeWord (c.free + 1)).toNat * 2 ^ 32 + (Config.freeWord c.free).toNat) v hbank
  refine ⟨(hword 0 (by decide)).trans h0, (hword 1 (by decide)).trans h1, (hword 4 (by decide)).trans h4,
    (hword 15 (by decide)).trans h15, hlast, hwritten, fun a ha => ?_⟩
  have hout : a < Reg.REC_RING 0 ∨ Reg.REC_RING 65536 ≤ a := by
    unfold Reg.REC_CTRL Reg.REC_RING at *
    omega
  refine reg_recordWrite_ne hout ?_ ?_ ?_ ?_ ..
  all_goals
    rintro rfl
    revert ha
    decide

/-! ### Registers that are reset -/

/-- A store from which the keys outside `keep` are removed reads their defaults there. -/
theorem mapGet_filter_keys {β : Type} (d : Nat → β) (keep : Nat → Bool) (m : Sparse β) (k : Nat) :
    mapGet d (m.filter (fun p => keep p.1)) k = if keep k then mapGet d m k else d k := by
  induction m with
  | nil => exact (ite_self _).symm
  | cons p m ih =>
    obtain ⟨j, v⟩ := p
    by_cases hjk : j = k
    · subst hjk
      cases hj : keep j <;> simp [hj, ih, mapGet]
    · cases hj : keep j <;> simp [hj, ih, mapGet, hjk]

theorem reg_resetRegs (lo hi a : Nat) (c : Chip) :
    reg (resetRegs lo hi c) a = if decide (a < lo) || decide (hi ≤ a) then reg c a else regReset a :=
  mapGet_filter_keys regReset (fun a => decide (a < lo) || decide (hi ≤ a)) c.regs a

theorem reg_resetRegs_inside {lo hi a : Nat} (hl : lo ≤ a) (hh : a < hi) (c : Chip) : reg (resetRegs lo hi c) a = regReset a := by
  rw [reg_resetRegs, if_neg]
  simp only [Bool.or_eq_true, decide_eq_true_eq]
  omega

theorem reg_resetRegs_outside {lo hi a : Nat} (h : a < lo ∨ hi ≤ a) (c : Chip) : reg (resetRegs lo hi c) a = reg c a := by
  rw [reg_resetRegs, if_pos]
  simpa only [Bool.or_eq_true, decide_eq_true_eq] using h

/-- A register at its reset value stays there when registers are reset. -/
theorem reg_resetRegs_of_reset (lo hi : Nat) {a : Nat} {c : Chip} (h : reg c a = regReset a) :
    reg (resetRegs lo hi c) a = regReset a := by
  rw [reg_resetRegs, h, ite_self]

/-! ### Interval and mirror (R457, R459, R538) -/

/-- The statistics of every field are cleared (R538). -/
theorem reg_clearFields {f a : Nat} (hf : f < 64) (hl : Reg.REC_FLD_HIST f 0 ≤ a) (hh : a < Reg.REC_FLD_STEPS f + 4) (c : Chip) :
    reg (clearFields c) a = regReset a :=
  forAll_through (P := fun _ => True) (Q := fun d => reg d a = regReset a) (List.range 64) (List.mem_range.2 hf) List.nodup_range
    (fun _ _ _ _ _ => trivial) (fun d _ => reg_resetRegs_inside hl hh d) (fun _ _ _ _ => reg_resetRegs_of_reset _ _) c trivial

/-- The chip after an interval's records. -/
def intervalRecords (c : Chip) : Chip :=
  let tbs := (List.range 16).filter (tbRuns c)
  c |> forAll (fun k c => recordWrite 2 k (eventHist c k) c) tbs
    |> forAll (fun k c => recordWrite 3 k (tickUtil c k) c) tbs
    |> forAll (fun g c => recordWrite 4 g (creditWait c g) c) (List.range 4)
    |> recordEnv
    |> fun c => recordWrite 6 0 ((List.range 11).flatMap (fun n => toBytes 4 (reg c (Reg.CHK_CNT n)).toNat)) c
    |> recordDrops

theorem recorderInterval_on {c : Chip} (h : rflag c Reg.REC_CTRL 31 = true) : recorderInterval c =
    { clearFields (intervalRecords c) with recd := { (clearFields (intervalRecords c)).recd with temps := [], util := [] } } :=
  if_pos h

theorem reg_withRecd (c : Chip) (r : Recorder) (a : Nat) : reg { c with recd := r } a = reg c a := rfl

theorem recorderInterval_outcome {c : Chip} (h : rflag c Reg.REC_CTRL 31 = true) :
    (recorderInterval c).recd.util = [] ∧ (recorderInterval c).recd.temps = [] ∧
      ∀ f a, f < 64 → Reg.REC_FLD_HIST f 0 ≤ a → a < Reg.REC_FLD_STEPS f + 4 → reg (recorderInterval c) a = regReset a := by
  rw [recorderInterval_on h]
  refine ⟨rfl, rfl, fun f a hf hl hh => ?_⟩
  rw [reg_withRecd]
  exact reg_clearFields hf hl hh _

theorem recorderInterval_off {c : Chip} (h : rflag c Reg.REC_CTRL 31 = false) : recorderInterval c = c :=
  if_neg (by rw [h]; decide)

/-- A mirror that is in progress ends: the ring copied, its newest SEQ noted, one MIRROR record. -/
def mirrorCopied (c : Chip) : Chip :=
  let c := setBit Reg.REC_STATUS 31 false c
  putNum Reg.REC_MIRROR_SEQ c.recd.last
    { c with flash := { c.flash with mirror := c.regs.filter (fun x => inRing x.1), mirrorSeq := c.recd.last } }

theorem mirrorDone_copied {c : Chip} (h : rflag c Reg.REC_STATUS 31 = true) :
    ∃ body, mirrorDone true c = raise Reg.REC_FAULT 0 (recordWrite 9 0 body (mirrorCopied c)) := by
  unfold mirrorDone
  rw [if_neg (by rw [h]; decide)]
  exact ⟨_, rfl⟩

theorem mirrorDone_failed {c : Chip} (h : rflag c Reg.REC_STATUS 31 = true) :
    mirrorDone false c = raise Reg.REC_FAULT 1 (setBit Reg.REC_STATUS 31 false c) := by
  simp [mirrorDone, h]

theorem flash_recordWrite (typ subject : Nat) (body : List Byte) (c : Chip) : (recordWrite typ subject body c).flash = c.flash := by
  cases hon : rflag c Reg.REC_CTRL 31 && rflag c Reg.REC_CTRL typ with
  | false => rw [recordWrite_off subject body hon]
  | true =>
    obtain ⟨h31, htyp⟩ := (Bool.and_eq_true _ _).mp hon
    have hbegun : (recordBegun c).flash = c.flash := by
      unfold recordBegun when_
      split <;> rfl
    have hslot : (slotPut (nextSlot c) (ringRecord typ subject body c) (recordBegun c)).flash = (recordBegun c).flash := by
      unfold slotPut
      exact forAll_leaves (·.flash) (f := ringPut (nextSlot c) (ringRecord typ subject body c)) _ (fun _ _ => rfl) _
    rw [recordWrite_on subject body h31 htyp, count, setReg_flash, setFld, setReg_flash, putNum, setReg_flash, hslot, hbegun]

theorem mirrorDone_ok_outcome {c : Chip} (h : rflag c Reg.REC_STATUS 31 = true) :
    let c' := mirrorDone true c
    rflag c' Reg.REC_STATUS 31 = false ∧ c'.flash.mirrorSeq = c.recd.last ∧
      reg c' Reg.REC_MIRROR_SEQ = BitVec.ofNat 32 c.recd.last ∧ rflag c' Reg.REC_FAULT 0 = true := by
  obtain ⟨body, hdone⟩ := mirrorDone_copied h
  intro c'
  change c' = _ at hdone
  rw [hdone]
  refine ⟨?_, ?_, ?_, rflag_raise _ _ _ (by decide)⟩
  · rw [rflag_congr (reg_raise_ne (by decide) ..), status_recordWrite (by decide)]
    exact (rflag_congr (reg_putNum_ne (by decide) ..)).trans (rflag_setBit_same _ (by decide) _ c)
  · exact congrArg (·.mirrorSeq) (flash_recordWrite 9 0 body (mirrorCopied c))
  · rw [reg_raise_ne (by decide), reg_recordWrite_ne (by decide) (by decide) (by decide) (by decide) (by decide)]
    exact reg_putNum_same ..

theorem mirrorDone_failed_outcome {c : Chip} (h : rflag c Reg.REC_STATUS 31 = true) :
    let c' := mirrorDone false c
    rflag c' Reg.REC_STATUS 31 = false ∧ rflag c' Reg.REC_FAULT 1 = true ∧ Frame [Reg.REC_STATUS, Reg.REC_FAULT] [] c c' := by
  intro c'
  rw [show c' = _ from mirrorDone_failed h]
  refine ⟨?_, rflag_raise _ _ _ (by decide), frame_raise _ _ (by simp) (frame_setBit _ _ _ (by simp) (frame_refl ..))⟩
  rw [rflag_congr (reg_raise_ne (by decide) ..)]
  exact rflag_setBit_same _ (by decide) _ _

/-- A kick restarts the period of an armed watchdog and touches nothing else (R438). -/
theorem runtimeKick_outcome (c : Chip) : Frame [Reg.TMR_WDOG_LEFT] [] c (runtimeKick c) ∧
    (rflag c Reg.TMR_WDOG_CFG 31 = true → reg (runtimeKick c) Reg.TMR_WDOG_LEFT = BitVec.ofNat 32 (wdogPeriod c)) ∧
    (rflag c Reg.TMR_WDOG_CFG 31 = false → runtimeKick c = c) := by
  unfold runtimeKick
  refine ⟨frame_when _ _ (frame_refl ..) (frame_putNum _ _ List.mem_cons_self (frame_refl ..)), fun h => ?_, fun h => ?_⟩
  · rw [h]
    exact reg_putNum_same ..
  · rw [h]
    rfl

/-! ### Messages to cluster rings (R449) -/

theorem clusterMessage_taken {k : Nat} {c c1 : Chip} {h : Flit} {body : List Flit} (ht : tapTake (48 + k) 2 c = some (h, body, c1))
    (hr : mResult h.data = false) : clusterMessage k c =
      if anyPoison h body || !wellFormed h.data then count Reg.CHN_CC_POISON 1 c1
      else if !rflag c (Reg.CHN_CC_CFG (mChannel h.data)) 31 then count Reg.CHN_CC_DISCARD 1 c1
      else commitCluster (mChannel h.data) h.data (mPayload h.data (body.map (fun f => f.data))) c1 := by
  unfold clusterMessage
  rw [ht]
  dsimp only
  rw [if_neg (by rw [hr]; decide)]

/-- What a ring's commit would write: none when the message does not fit. -/
def clusterFits (n : Nat) (h : DWord) (payload : List Byte) (c : Chip) : Option (List (Nat × List Byte) × Nat × Nat) :=
  ringCommit (ccSize c n) (rfld c (Reg.CHN_CC_WPTR n) 14 0) (rfld c (Reg.CHN_CC_RPTR n) 14 0)
    (rfld c (Reg.CHN_CC_STAT n) 23 16) n (fSrc h) 0 payload

theorem clusterFits_congr {c c' : Chip} (hreg : ∀ a, reg c' a = reg c a) (n : Nat) (h : DWord) (payload : List Byte) :
    clusterFits n h payload c' = clusterFits n h payload c := by
  simp only [clusterFits, ccSize, rfld, hreg]

theorem commitCluster_overflows {n : Nat} {h : DWord} {payload : List Byte} {c : Chip} (hn : clusterFits n h payload c = none) :
    commitCluster n h payload c = count Reg.CHN_CC_OVERFLOW 1 c := by
  unfold commitCluster
  unfold clusterFits at hn
  dsimp only
  rw [hn]

theorem commitCluster_commits {n : Nat} {h : DWord} {payload : List Byte} {c : Chip} {ws : List (Nat × List Byte)} {w' seq : Nat}
    (hn : clusterFits n h payload c = some (ws, w', seq)) : commitCluster n h payload c =
      ({ c with shared := ws.foldl (fun m x => sharedPut (64 * rfld c (Reg.CHN_CC_CFG n) 15 0 + x.1) x.2 m) c.shared }
        |> setFld (Reg.CHN_CC_STAT n) 23 16 seq |> putNum (Reg.CHN_CC_WPTR n) w' |> count Reg.CHN_CC_COMMITTED 1) := by
  unfold commitCluster
  unfold clusterFits at hn
  dsimp only
  rw [hn]

theorem mChannel_lt (h : DWord) : mChannel h < 64 := by
  have hsub : fSub h < 2 ^ 17 := Nat.mod_lt _ (by decide)
  unfold mChannel
  omega

theorem commitCluster_outcome {n : Nat} (_hlt : n < 64) {h : DWord} {payload : List Byte} {c : Chip} {ws : List (Nat × List Byte)} {w' seq : Nat}
    (hn : clusterFits n h payload c = some (ws, w', seq)) :
    let c' := commitCluster n h payload c
    Advanced Reg.CHN_CC_COMMITTED 1 c c' ∧ reg c' (Reg.CHN_CC_WPTR n) = BitVec.ofNat 32 w' ∧
      rfld c' (Reg.CHN_CC_STAT n) 23 16 = seq % 256 ∧
      c'.shared = ws.foldl (fun m x => sharedPut (64 * rfld c (Reg.CHN_CC_CFG n) 15 0 + x.1) x.2 m) c.shared := by
  have hw : Reg.CHN_CC_WPTR n ≠ Reg.CHN_CC_COMMITTED := by unfold Reg.CHN_CC_WPTR Reg.CHN_CC_COMMITTED; omega
  have hs : Reg.CHN_CC_STAT n ≠ Reg.CHN_CC_COMMITTED := by unfold Reg.CHN_CC_STAT Reg.CHN_CC_COMMITTED; omega
  have hsw : Reg.CHN_CC_STAT n ≠ Reg.CHN_CC_WPTR n := by unfold Reg.CHN_CC_STAT Reg.CHN_CC_WPTR; omega
  rw [commitCluster_commits hn]
  refine ⟨advanced_of_count ?_ rfl, ?_, ?_, rfl⟩
  · rw [reg_putNum_ne hw.symm, reg_setFld_ne hs.symm]
    rfl
  · rw [reg_count_ne hw, reg_putNum_same]
  · rw [rfld_congr (reg_count_ne hs ..), rfld_congr (reg_putNum_ne hsw ..)]
    exact rfld_setFld _ _ _ _ _ (by decide) (by decide)

/-! ### The statement -/

/-- Settles O47: each command by its own lemma; what a count event raises stays raised through the timers that it feeds. -/
theorem timersRecorderAndRings : Obligations.TimersRecorderAndRings := by
  intro s c
  refine ⟨?_, fun who v hon htyp => ⟨_, completes_done rfl, recNote_outcome who v hon htyp⟩, fun h => ?_, fun h => ?_,
    ⟨_, completes_done rfl, rflag_raise _ _ _ (by decide), frame_raise _ _ List.mem_cons_self (frame_refl ..)⟩,
    fun h => ⟨⟨_, completes_done rfl, mirrorDone_ok_outcome h⟩, _, completes_done rfl, mirrorDone_failed_outcome h⟩,
    ⟨_, completes_done rfl, runtimeKick_outcome c⟩, ?_⟩
  case _ =>
    intro n
    refine ⟨fun h => congrArg (done s) (if_neg ?_), timerCount_outcome n s,
      fun who => ⟨_, completes_done rfl, timerCountRead_outcome who n c⟩, fun v => ⟨_, completes_done rfl, timerEnable_outcome n v c⟩⟩
    rw [h]
    decide
  case _ => exact congrArg (done s) (recorderInterval_off h)
  case _ => exact ⟨_, completes_done rfl, recorderInterval_outcome h⟩
  case _ =>
    intro k h body c1 ht hr n bad fits
    have htaps := onlyTaps_of_tapTake ht
    have hreg (a : Nat) : reg c1 a = reg c a := reg_of_onlyTaps htaps a
    have hrun := clusterMessage_taken ht hr
    refine ⟨fun hb => ?_, fun hb hoff => ?_, fun hb hon hn => ?_, fun ws w' seq hb hon hn => ?_⟩
    · rw [if_pos hb] at hrun
      exact ⟨_, congrArg (done s) hrun, advanced_of_count (hreg _) rfl⟩
    · rw [if_neg (Bool.eq_false_iff.1 hb), if_pos (by rw [show rflag c (Reg.CHN_CC_CFG (mChannel h.data)) 31 = false from hoff]; rfl)] at hrun
      exact ⟨_, congrArg (done s) hrun, advanced_of_count (hreg _) rfl⟩
    · rw [if_neg (Bool.eq_false_iff.1 hb), if_neg (by rw [show rflag c (Reg.CHN_CC_CFG (mChannel h.data)) 31 = true from hon]; decide),
        commitCluster_overflows ((clusterFits_congr hreg ..).trans hn)] at hrun
      exact ⟨_, congrArg (done s) hrun, advanced_of_count (hreg _) rfl⟩
    · rw [if_neg (Bool.eq_false_iff.1 hb), if_neg (by rw [show rflag c (Reg.CHN_CC_CFG (mChannel h.data)) 31 = true from hon]; decide)] at hrun
      obtain ⟨hadv, hw, hs, hsh⟩ := commitCluster_outcome (mChannel_lt _) ((clusterFits_congr hreg ..).trans hn)
      rw [Advanced, hreg] at hadv
      refine ⟨_, congrArg (done s) hrun, hadv, hw, hs, ?_⟩
      rw [hsh, rfld_congr (hreg _), htaps]

end Sys2Proof.Machine
end

section
/-!
PROOFS. The services of the Thistle core's mailboxes (R437, R461, R465 to R477).
-/

namespace Sys2Proof.Machine

open Sys2Proof.Safety

theorem forAll_append {α : Type} (f : α → Chip → Chip) (xs ys : List α) (c : Chip) :
    forAll f (xs ++ ys) c = forAll f ys (forAll f xs c) := by
  induction xs generalizing c with
  | nil => rfl
  | cons x xs ih => exact ih (f x c)

/-! ### The queue (R475, R477) -/

/-- The state with the front command off the queue. -/
def served (s : State) (rest : List SecJob) : State := { s with chip := { s.chip with secQ := rest } }

section
variable {ok : SecJob → Bool} {f : SecJob → State → State} {s : State} {j : SecJob} {rest : List SecJob}
  (hq : s.chip.secQ = j :: rest) (hsrc : j.src < 2) (hok : ok j = true)
include hq hsrc hok

theorem runService_runs (h : secState s.chip ≠ 2 ∨ j.op = 1) : runService ok f s = f j (served s rest) := by
  have herr : ¬ (secState (served s rest).chip = 2 ∧ j.op ≠ 1) := fun ⟨h2, hop⟩ => h.elim (· h2) hop
  unfold runService
  rw [hq]
  dsimp only
  rw [if_pos (by rw [hok, decide_eq_true hsrc]; rfl)]
  exact if_neg herr

theorem runService_in_error (h : secState s.chip = 2) (hop : j.op ≠ 1) :
    runService ok f s = { s with chip := endCommand j 5 (served s rest).chip } := by
  have herr : secState (served s rest).chip = 2 ∧ j.op ≠ 1 := ⟨h, hop⟩
  unfold runService
  rw [hq]
  dsimp only
  rw [if_pos (by rw [hok, decide_eq_true hsrc]; rfl)]
  exact if_pos herr

end

/-- A service whose command is not at the front of the queue does nothing. -/
theorem runService_skips {ok : SecJob → Bool} {f : SecJob → State → State} {s : State}
    (h : ∀ j, s.chip.secQ.head? = some j → (decide (j.src < 2) && ok j) = false) : runService ok f s = s := by
  unfold runService
  cases hq : s.chip.secQ with
  | nil => rfl
  | cons j rest => exact if_neg (Bool.eq_false_iff.1 (h j (by rw [hq]; rfl)))

/-! ### Ends of a command (R477) -/

/-- The end of a command writes the SEC_STATUS of its mailbox alone. -/
theorem frame_endCommand {as ts : List Nat} {c c' : Chip} (j : SecJob) (code : Nat) (h : Reg.SEC_STATUS j.src ∈ as) (f : Frame as ts c c') :
    Frame as ts c (endCommand j code c') := frame_putNum _ _ h f

theorem reg_endCommand_same (j : SecJob) (code : Nat) (c : Chip) : reg (endCommand j code c) (Reg.SEC_STATUS j.src) =
    BitVec.ofNat 32 ((if code = 0 then 3 else 4) * 2 ^ 29 + j.seq * 2 ^ 16 + code) := by
  unfold endCommand
  rw [reg_putNum_same]

theorem reg_endCommand_ne {a : Nat} {j : SecJob} (h : a ≠ Reg.SEC_STATUS j.src) (code : Nat) (c : Chip) :
    reg (endCommand j code c) a = reg c a := reg_putNum_ne h ..

theorem SEC_RES_ne_STATUS {m i n : Nat} (_ : m < 2) (hi : i < 8) (_ : n < 2) : Reg.SEC_RES m i ≠ Reg.SEC_STATUS n := by
  unfold Reg.SEC_RES Reg.SEC_STATUS; omega

theorem SEC_INFO_ne_STATUS {m : Nat} (_ : m < 2) : Reg.SEC_INFO ≠ Reg.SEC_STATUS m := by
  unfold Reg.SEC_INFO Reg.SEC_STATUS; omega

theorem SEC_INFO_ne_RES {m i : Nat} (_ : m < 2) (hi : i < 8) : Reg.SEC_INFO ≠ Reg.SEC_RES m i := by
  unfold Reg.SEC_INFO Reg.SEC_RES; omega

section
variable {i : Instr} {s : State} {j : SecJob} {rest : List SecJob} {code : Nat}

theorem serviceEnds_of {c c' : Chip} {x : Sec} (hc : c' = endCommand j code c) (hq : c.secQ = rest)
    (hrun : exec i s = .next { s with sec := x, chip := c' }) : ServiceEnds i s j rest code { s with sec := x, chip := c' } := by
  have hqueue : c'.secQ = rest := by rw [hc, endCommand, putNum, setReg_secQ, hq]
  have hstatus : reg c' (Reg.SEC_STATUS j.src) = BitVec.ofNat 32 ((if code = 0 then 3 else 4) * 2 ^ 29 + j.seq * 2 ^ 16 + code) := by
    rw [hc, reg_endCommand_same]
  exact ⟨⟨hrun, rfl⟩, hqueue, rfl, hstatus⟩

/-- A service that ends and then changes SEC_INFO. -/
theorem serviceEnds_then_info {c c' : Chip} {x : Sec} {w : Nat} (hsrc : j.src < 2)
    (hc : c' = putNum Reg.SEC_INFO w (endCommand j code c)) (hq : c.secQ = rest)
    (hrun : exec i s = .next { s with sec := x, chip := c' }) : ServiceEnds i s j rest code { s with sec := x, chip := c' } := by
  have hqueue : c'.secQ = rest := by rw [hc, putNum, setReg_secQ, endCommand, putNum, setReg_secQ, hq]
  have hstatus : reg c' (Reg.SEC_STATUS j.src) = BitVec.ofNat 32 ((if code = 0 then 3 else 4) * 2 ^ 29 + j.seq * 2 ^ 16 + code) := by
    rw [hc, reg_putNum_ne (SEC_INFO_ne_STATUS hsrc).symm, reg_endCommand_same]
  exact ⟨⟨hrun, rfl⟩, hqueue, rfl, hstatus⟩

theorem frame_putNum_served (a n : Nat) (s : State) (rest : List SecJob) :
    Frame [a] [] s.chip { putNum a n (served s rest).chip with secQ := s.chip.secQ } :=
  frame_putNum a n List.mem_cons_self (frame_refl ..)

theorem serviceRefused_of {c' : Chip} (hc : c' = endCommand j code (served s rest).chip) (hrun : exec i s = .next { s with chip := c' }) :
    ServiceRefused i s j rest code := by
  have hframe : Frame [Reg.SEC_STATUS j.src] [] s.chip { c' with secQ := s.chip.secQ } := by
    rw [hc, endCommand]
    exact frame_putNum_served ..
  exact ⟨_, serviceEnds_of (x := s.sec) hc rfl hrun, rfl, hframe⟩

end

theorem SEC_SELFTEST_ne_STATUS {m : Nat} (_ : m < 2) : Reg.SEC_SELFTEST ≠ Reg.SEC_STATUS m := by
  unfold Reg.SEC_SELFTEST Reg.SEC_STATUS; omega

theorem SEC_SELFTEST_ne_RES {m : Nat} (_ : m < 2) : Reg.SEC_SELFTEST ≠ Reg.SEC_RES m 0 := by
  unfold Reg.SEC_SELFTEST Reg.SEC_RES; omega

/-! ### SEC_INFO (Table 17.11) -/

theorem vendorSlot_lt (x : Sec) : vendorSlot x < 4 := by
  unfold vendorSlot
  cases h : (List.range 4).find? (fun k => !slotRevoked x k) with
  | none => decide
  | some k => exact List.mem_range.1 (List.mem_of_find?_eq_some h)

theorem b2n_le (b : Bool) : b2n b ≤ 1 := by cases b <;> decide

/-- The module state stands in bits 31:29. -/
theorem fld_infoWord (x : Sec) {st : Nat} (hst : st < 8) (cause : Nat) : fld (BitVec.ofNat 32 (infoWord x st cause)) 31 29 = st := by
  have hslot := vendorSlot_lt x
  have hlock := b2n_le x.debugLock
  have hscope := b2n_le (x.scope != 0)
  have hkill := b2n_le x.seedKill
  unfold fld bits infoWord
  rw [BitVec.toNat_ofNat]
  omega

theorem secState_putInfo (x : Sec) (cause : Nat) (c : Chip) : secState (putNum Reg.SEC_INFO (infoWord x 2 cause) c) = 2 := by
  unfold secState rfld
  rw [reg_putNum_same]
  exact fld_infoWord _ (by decide) _

/-! ### The services (Table 17.7) -/

/-- The code with which KEY_LOAD ends (R469). -/
def keyLoadCode (x : Sec) (c : Chip) (j : SecJob) : Nat :=
  let o := bufBytes c j.src
  let code := objectCode x c (· == 0x11) o (bufLen c j.src)
  if code ≠ 0 then code else if x.seedKill || !x.derived then 7 else if nAt o 0x1C 4 < 1 ∨ 15 < nAt o 0x1C 4 then 8
  else if nAt o 0x18 4 ≠ 64 then 4 else if (Config.gcmOpen (wrapKey x) (cut o 64 12) (o.take 64) (cut o 80 48)).isNone then 2 else 0

theorem svcKeyLoad_refuses {j : SecJob} {s : State} (h : keyLoadCode s.sec s.chip j ≠ 0) :
    svcKeyLoad j s = { s with chip := endCommand j (keyLoadCode s.sec s.chip j) s.chip } := by
  unfold svcKeyLoad keyLoadCode at *
  dsimp only at *
  split_ifs at h ⊢
  case _ => rfl
  case _ => rfl
  case _ => rfl
  case _ => rfl
  case _ hnone =>
    rw [Option.isNone_iff_eq_none.1 hnone]
  case _ => exact absurd rfl h

/-- The key that KEY_LOAD opens from the object in its buffer (R469). -/
def openedKey (x : Sec) (c : Chip) (j : SecJob) : Option (List Byte) :=
  let o := bufBytes c j.src
  Config.gcmOpen (wrapKey x) (cut o 64 12) (o.take 64) (cut o 80 48)

theorem svcKeyLoad_stores {j : SecJob} {s : State} (h : keyLoadCode s.sec s.chip j = 0) : ∃ k, openedKey s.sec s.chip j = some k ∧
    svcKeyLoad j s = { s with
      sec := { s.sec with keys := setList (nAt (bufBytes s.chip j.src) 0x1C 4) (fitTo 32 k) s.sec.keys }
      chip := endCommand j 0 s.chip } := by
  unfold svcKeyLoad keyLoadCode openedKey at *
  dsimp only at *
  split_ifs at h ⊢
  case _ => exact absurd h ‹_›
  case _ hsome =>
    cases hk : Config.gcmOpen (wrapKey s.sec) (cut (bufBytes s.chip j.src) 64 12) ((bufBytes s.chip j.src).take 64)
      (cut (bufBytes s.chip j.src) 80 48) with
    | none => exact absurd (by rw [hk]; rfl) hsome
    | some k => exact ⟨k, rfl, rfl⟩

/-- The code with which REVOKE ends (R465). -/
def revokeCode (x : Sec) (c : Chip) (j : SecJob) : Nat :=
  let o := bufBytes c j.src
  let code := objectCode x c (· == 0x12) o (bufLen c j.src)
  if code ≠ 0 then code else if 3 < nAt o 0x1C 4 then 4
  else if (List.range 4).all (fun i => i == nAt o 0x1C 4 || slotRevoked x i) then 7 else 0

/-- The Thistle core's state with slot `k` revoked. -/
def withRevoked (x : Sec) (k : Nat) : Sec := { x with revoked := x.revoked.lor (2 ^ k) }

theorem svcRevoke_refuses {j : SecJob} {s : State} (h : revokeCode s.sec s.chip j ≠ 0) :
    svcRevoke j s = { s with chip := endCommand j (revokeCode s.sec s.chip j) s.chip } := by
  unfold svcRevoke revokeCode at *
  dsimp only at *
  split_ifs at h ⊢
  case _ => rfl
  case _ => rfl
  case _ => rfl
  case _ => exact absurd rfl h

theorem svcRevoke_revokes {j : SecJob} {s : State} (h : revokeCode s.sec s.chip j = 0) : svcRevoke j s =
    let x := withRevoked s.sec (nAt (bufBytes s.chip j.src) 0x1C 4)
    { s with sec := x, chip := endCommand j 0 (putRes j 0 x.revoked (noteInfo x s.chip)) } := by
  unfold svcRevoke revokeCode at *
  dsimp only at *
  split_ifs at h ⊢
  case _ => exact absurd h ‹_›
  case _ => rfl

theorem svcDebugUnlock_refuses {j : SecJob} {s : State} {n : Nat}
    (h : objectCode s.sec s.chip (· == 0x13) (bufBytes s.chip j.src) (bufLen s.chip j.src) = n + 1) :
    svcDebugUnlock j s = { s with chip := endCommand j (n + 1) s.chip } := by
  change (match objectCode s.sec s.chip (· == 0x13) (bufBytes s.chip j.src) (bufLen s.chip j.src) with
    | 0 => _
    | n => _) = _
  rw [h]
  rfl

/-- The Thistle core's state with a token's scope opened (R472). -/
def withScope (x : Sec) (name : Nat) : Sec := { x with scope := x.scope.lor (name % 4) }

theorem svcDebugUnlock_opens {j : SecJob} {s : State}
    (h : objectCode s.sec s.chip (· == 0x13) (bufBytes s.chip j.src) (bufLen s.chip j.src) = 0) : svcDebugUnlock j s =
      let x := withScope s.sec (nAt (bufBytes s.chip j.src) 0x1C 4)
      { s with sec := x, chip := endCommand j 0 (noteInfo x s.chip) } := by
  change (match objectCode s.sec s.chip (· == 0x13) (bufBytes s.chip j.src) (bufLen s.chip j.src) with
    | 0 => _
    | n => _) = _
  rw [h]
  rfl

/-- The code with which ZEROIZE ends (R476): FINAL needs a signed object. -/
def zeroizeCode (x : Sec) (c : Chip) (j : SecJob) : Nat :=
  if bit (argOf c j 0) 0 then objectCode x c (fun t => t == 0x12 || t == 0x13) (bufBytes c j.src) (bufLen c j.src) else 0

theorem svcZeroize_refuses {j : SecJob} {s : State} (h : zeroizeCode s.sec s.chip j ≠ 0) :
    svcZeroize j s = { s with chip := endCommand j (zeroizeCode s.sec s.chip j) s.chip } := by
  unfold svcZeroize
  exact if_pos h

theorem svcZeroize_clears {j : SecJob} {s : State} (h : zeroizeCode s.sec s.chip j = 0) : svcZeroize j s =
    let x := { s.sec with keys := [], derived := false, drbg := true, seedKill := s.sec.seedKill || bit (argOf s.chip j 0) 0 }
    { s with sec := x, chip := endCommand j 0 (noteInfo x s.chip) } := by
  unfold svcZeroize
  exact if_neg (not_not.2 h)

/-- The result of SELFTEST noted (R473). -/
def selftested (j : SecJob) (failed : Word) (c : Chip) : Chip := c |> setReg Reg.SEC_SELFTEST failed |> putRes j 0 failed.toNat

theorem reg_selftested {j : SecJob} (h : j.src < 2) (failed : Word) (c : Chip) : reg (selftested j failed c) Reg.SEC_SELFTEST = failed :=
  (reg_putNum_ne (SEC_SELFTEST_ne_RES h) ..).trans (reg_setReg_same ..)

theorem svcSelftest_passes {failed : Word} {j : SecJob} {s : State} (h : failed = 0#32) :
    svcSelftest failed j s = { s with chip := endCommand j 0 (selftested j failed s.chip) } := if_pos h

theorem svcSelftest_fails {failed : Word} {j : SecJob} {s : State} (h : failed ≠ 0#32) : svcSelftest failed j s =
    let x := { s.sec with keys := [], drbg := false }
    { s with
      sec := x
      chip := putNum Reg.SEC_INFO (infoWord x 2 (((List.range 32).find? (flag failed)).getD 0))
        (endCommand j 5 (selftested j failed s.chip)) } := if_neg h

/-- One word of RANDOM (R470). -/
def randomWord (j : SecJob) (i : Nat) (c : Chip) : Chip :=
  let (w, c) := takeFree c
  putRes j i w.toNat c

/-- The first `n` words of RANDOM: so many free values taken, each in its result register. -/
theorem randomWords_facts (j : SecJob) (n : Nat) (c : Chip) :
    let c' := forAll (randomWord j) (List.range n) c
    c'.free = c.free + n ∧ (∀ i, i < n → reg c' (Reg.SEC_RES j.src i) = Config.freeWord (c.free + i)) ∧ c'.secQ = c.secQ := by
  induction n with
  | zero => exact ⟨rfl, fun i hi => absurd hi (Nat.not_lt_zero i), rfl⟩
  | succ n ih =>
    obtain ⟨hfree, hword, hqueue⟩ := ih
    have hstep : forAll (randomWord j) (List.range (n + 1)) c = randomWord j n (forAll (randomWord j) (List.range n) c) := by
      rw [List.range_succ, forAll_append]
      rfl
    dsimp only
    rw [hstep]
    generalize forAll (randomWord j) (List.range n) c = d at hfree hword hqueue
    refine ⟨congrArg (· + 1) hfree, fun i hi => ?_, hqueue⟩
    by_cases hin : i = n
    · subst hin
      refine (reg_putNum_same ..).trans ?_
      rw [BitVec.ofNat_toNat, ← hfree]
      exact BitVec.setWidth_eq _
    · refine (reg_putNum_ne ?_ ..).trans (hword i (by omega))
      unfold Reg.SEC_RES
      omega

/-! ### ATTEST (R471, Table 17.8) -/

theorem length_fitTo (n : Nat) (bs : List Byte) : (fitTo n bs).length = n := by
  simp only [fitTo, List.length_take, List.length_append, List.length_replicate]
  omega

/-- The quote, its signature and the certificate that ATTEST writes, with its free values taken. -/
def attested (j : SecJob) (x : Sec) (c : Chip) : List Byte :=
  let nonce := (List.range 8).flatMap (fun i => toBytes 4 (argOf c j i))
  let q := quoteBytes x c nonce ((Config.freeWord (c.free + 1)).toNat * 2 ^ 32 + (Config.freeWord c.free).toNat)
  q ++ fitTo 17088 (Config.slhSign (identitySeed x) q (c.free + 2)) ++ fitTo 16368 x.cert

theorem svcAttest_writes {j : SecJob} {x : Sec} {c : Chip}
    (h : (x.seedKill || !x.derived || !x.drbg || decide (bufLen c j.src < 33712)) = false) : svcAttest j x c =
      endCommand j 0 (putRes j 0 33712 (clearEcc (bufAddr c j.src) (attested j x c).length
        (putBytes (bufAddr c j.src) (attested j x c) { c with free := c.free + 3 }))) :=
  (if_neg (Bool.eq_false_iff.1 h)).trans rfl

theorem fitTo_of_length {n : Nat} {bs : List Byte} (h : bs.length = n) : fitTo n bs = bs := by
  rw [fitTo, h, Nat.sub_self, List.replicate_zero, List.append_nil, ← h, List.take_length]

/-- The nonce of ATTEST: the mailbox's arguments. -/
def nonceOf (j : SecJob) (c : Chip) : List Byte := (List.range 8).flatMap (fun i => toBytes 4 (argOf c j i))

theorem length_nonceOf (j : SecJob) (c : Chip) : (nonceOf j c).length = 32 := by
  simp [nonceOf, List.length_flatMap]

/-- FLAGS of the quote: an open scope, fallow mode, the floor plan's mark. -/
def quoteFlags (x : Sec) (c : Chip) : Nat :=
  b2n (x.scope != 0) + 2 * b2n (rfld c Reg.BOOT_STATUS 31 28 == 11) + 4 * b2n (bit (byteAt c (fpBase + 0x0D)).toNat 0)

/-- What ATTEST writes begins with the magic number and has the nonce from byte 16 on. -/
theorem attested_layout (j : SecJob) (x : Sec) (c : Chip) : ∃ mid rest : List Byte, mid.length = 12 ∧
    attested j x c = [0x59#8, 0x41#8, 0x54#8, 0x51#8] ++ (mid ++ (nonceOf j c ++ rest)) := by
  refine ⟨toBytes 2 1 ++ (toBytes 2 (quoteFlags x c) ++ toBytes 8 (serialOf c)), ?rest, by simp, ?layout⟩
  case layout =>
    unfold attested quoteBytes
    dsimp only
    rw [show (List.range 8).flatMap (fun i => toBytes 4 (argOf c j i)) = nonceOf j c from rfl, fitTo_of_length (length_nonceOf j c),
      show toBytes 4 0x51544159 = [0x59#8, 0x41#8, 0x54#8, 0x51#8] by decide]
    simp only [List.append_assoc]
    rfl

theorem bytesAt_of_mem {c c' : Chip} (hm : c'.mem = c.mem) (hl : c'.lost = c.lost) (a n : Nat) : bytesAt c' a n = bytesAt c a n := by
  simp only [bytesAt, byteAt, hm, hl]

theorem putBytes_secQ (a : Nat) (bs : List Byte) (c : Chip) : (putBytes a bs c).secQ = c.secQ := by
  induction bs generalizing a c with
  | nil => rfl
  | cons b bs ih => exact (ih (a + 1) (putByte a b c)).trans rfl

/-- A part of the bytes just written. -/
theorem bytesAt_putBytes_part {k n : Nat} {bs : List Byte} (h : k + n ≤ bs.length) (a : Nat) (c : Chip) :
    bytesAt (putBytes a bs c) (a + k) n = (bs.drop k).take n := by
  refine List.ext_getElem (by simp [bytesAt]; omega) fun i hi _ => ?_
  have hin : k + i < bs.length := by
    simp [bytesAt] at hi
    omega
  simp only [bytesAt, List.getElem_map, List.getElem_range, List.getElem_take, List.getElem_drop]
  rw [Nat.add_assoc, byteAt_putBytes_inside bs a (k + i) c hin, List.getD_eq_getElem _ _ hin]

/-- The magic number and the nonce, read back where ATTEST wrote them. -/
theorem bytesAt_attested (j : SecJob) (x : Sec) (c d : Chip) (a : Nat) :
    bytesAt (putBytes a (attested j x c) d) a 4 = [0x59#8, 0x41#8, 0x54#8, 0x51#8] ∧
      bytesAt (putBytes a (attested j x c) d) (a + 16) 32 = nonceOf j c := by
  obtain ⟨mid, rest, hmid, hlayout⟩ := attested_layout j x c
  have hnonce := length_nonceOf j c
  have hlen : 48 ≤ (attested j x c).length := by
    rw [hlayout]
    simp only [List.length_append, List.length_cons, List.length_nil, hmid, hnonce]
    omega
  refine ⟨(bytesAt_putBytes_part (k := 0) (by omega) a d).trans ?_, (bytesAt_putBytes_part (by omega) a d).trans ?_⟩
  · rw [hlayout]
    rfl
  · rw [hlayout, ← List.append_assoc, List.drop_left' (by simp [hmid]), List.take_left' hnonce]

/-! ### Each service on the state -/

theorem service_runs {i : Instr} {ok : SecJob → Bool} {f : SecJob → State → State} {s t : State} {j : SecJob} {rest : List SecJob}
    (hi : exec i s = .next (runService ok f s)) (hq : s.chip.secQ = j :: rest) (hsrc : j.src < 2) (hok : ok j = true)
    (h : secState s.chip ≠ 2 ∨ j.op = 1) (ht : f j (served s rest) = t) : exec i s = .next t := by
  rw [hi, runService_runs hq hsrc hok h, ht]

section
variable {s : State} {j : SecJob} {rest : List SecJob} (hq : s.chip.secQ = j :: rest) (hsrc : j.src < 2)
include hq hsrc

theorem secStatus_outcome (hop : j.op = 1) : ∃ t, ServiceEnds .secStatus s j rest 0 t ∧
    reg t.chip (Reg.SEC_RES j.src 0) = reg s.chip Reg.SEC_INFO ∧ t.sec = s.sec := by
  refine ⟨_, serviceEnds_of (x := s.sec) (c := putRes j 0 (reg s.chip Reg.SEC_INFO).toNat (served s rest).chip) rfl rfl
    (service_runs rfl hq hsrc (by rw [hop]; rfl) (.inr hop) rfl), ?_, rfl⟩
  rw [reg_endCommand_ne (SEC_RES_ne_STATUS hsrc (by decide) hsrc), putRes, reg_putNum_same, BitVec.ofNat_toNat]
  rfl

section
variable (hstate : secState s.chip ≠ 2)
include hstate

theorem keyLoad_refused (hop : j.op = 5) (h : keyLoadCode s.sec s.chip j ≠ 0) :
    ServiceRefused .secKeyLoad s j rest (keyLoadCode s.sec s.chip j) :=
  serviceRefused_of rfl (service_runs rfl hq hsrc (by rw [hop]; rfl) (.inl hstate) (svcKeyLoad_refuses (s := served s rest) h))

theorem keyLoad_stores (hop : j.op = 5) (h : keyLoadCode s.sec s.chip j = 0) : ∃ t k, openedKey s.sec s.chip j = some k ∧
    ServiceEnds .secKeyLoad s j rest 0 t ∧
    t.sec = { s.sec with keys := setList (nAt (bufBytes s.chip j.src) 0x1C 4) (fitTo 32 k) s.sec.keys } := by
  obtain ⟨k, hk, hrun⟩ := svcKeyLoad_stores (s := served s rest) h
  exact ⟨_, k, hk, serviceEnds_of (c := (served s rest).chip) rfl rfl
    (service_runs rfl hq hsrc (by rw [hop]; rfl) (.inl hstate) hrun), rfl⟩

theorem keyClear_outcome (hop : j.op = 6) : ∃ t,
    ServiceEnds .secKeyClear s j rest (if 15 < argOf s.chip j 0 then 8 else 0) t ∧
    (∀ k, listOf t.sec.keys k = if argOf s.chip j 0 ≤ 15 ∧ (argOf s.chip j 0 = 0 ∨ k = argOf s.chip j 0) then []
      else listOf s.sec.keys k) ∧
    { t.sec with keys := s.sec.keys } = s.sec := by
  by_cases h : 15 < argOf s.chip j 0
  · rw [if_pos h]
    refine ⟨_, serviceEnds_of (x := s.sec) (c := (served s rest).chip) rfl rfl
      (service_runs rfl hq hsrc (by rw [hop]; rfl) (.inl hstate) (if_pos h)), fun k => ?_, rfl⟩
    rw [if_neg (by omega)]
  · let keys := if argOf s.chip j 0 = 0 then [] else setList (argOf s.chip j 0) [] s.sec.keys
    rw [if_neg h]
    refine ⟨_, serviceEnds_of (x := { s.sec with keys := keys }) (c := (served s rest).chip) rfl rfl
      (service_runs rfl hq hsrc (by rw [hop]; rfl) (.inl hstate) (if_neg h)), fun k => ?_, rfl⟩
    by_cases h0 : argOf s.chip j 0 = 0
    · rw [if_pos ⟨by omega, .inl h0⟩]
      simp [keys, h0, listOf, mapGet]
    · by_cases hk : k = argOf s.chip j 0
      · rw [if_pos ⟨by omega, .inr hk⟩, hk]
        simp [keys, h0]
      · rw [if_neg (fun ⟨_, hor⟩ => hor.elim h0 hk)]
        simp only [keys, if_neg h0]
        exact listOf_setList_ne _ _ hk

theorem revoke_refused (hop : j.op = 7) (h : revokeCode s.sec s.chip j ≠ 0) :
    ServiceRefused .secRevoke s j rest (revokeCode s.sec s.chip j) :=
  serviceRefused_of rfl (service_runs rfl hq hsrc (by rw [hop]; rfl) (.inl hstate) (svcRevoke_refuses (s := served s rest) h))

theorem revoke_revokes (hop : j.op = 7) (h : revokeCode s.sec s.chip j = 0) : ∃ t, ServiceEnds .secRevoke s j rest 0 t ∧
    { t.sec with revoked := s.sec.revoked } = s.sec ∧
    ∀ k, slotRevoked t.sec k = (slotRevoked s.sec k || k == nAt (bufBytes s.chip j.src) 0x1C 4) := by
  refine ⟨_, serviceEnds_of (x := withRevoked s.sec (nAt (bufBytes s.chip j.src) 0x1C 4)) rfl ?_
    (service_runs rfl hq hsrc (by rw [hop]; rfl) (.inl hstate) (svcRevoke_revokes (s := served s rest) h)), rfl, fun k => ?_⟩
  · rfl
  · refine (slotRevoked_lor ..).trans (congrArg _ ?_)
    rw [Bool.eq_iff_iff, decide_eq_true_iff, beq_iff_eq]
    exact eq_comm

theorem debugUnlock_refused (hop : j.op = 8)
    (h : objectCode s.sec s.chip (· == 0x13) (bufBytes s.chip j.src) (bufLen s.chip j.src) ≠ 0) :
    ServiceRefused .secDebugUnlock s j rest (objectCode s.sec s.chip (· == 0x13) (bufBytes s.chip j.src) (bufLen s.chip j.src)) := by
  obtain ⟨n, hn⟩ := Nat.exists_eq_succ_of_ne_zero h
  rw [hn]
  exact serviceRefused_of rfl
    (service_runs rfl hq hsrc (by rw [hop]; rfl) (.inl hstate) (svcDebugUnlock_refuses (s := served s rest) hn))

theorem debugUnlock_opens (hop : j.op = 8)
    (h : objectCode s.sec s.chip (· == 0x13) (bufBytes s.chip j.src) (bufLen s.chip j.src) = 0) : ∃ t,
    ServiceEnds .secDebugUnlock s j rest 0 t ∧ t.sec = withScope s.sec (nAt (bufBytes s.chip j.src) 0x1C 4) :=
  ⟨_, serviceEnds_of (c := noteInfo (withScope s.sec (nAt (bufBytes s.chip j.src) 0x1C 4)) (served s rest).chip) rfl rfl
    (service_runs rfl hq hsrc (by rw [hop]; rfl) (.inl hstate) (svcDebugUnlock_opens (s := served s rest) h)), rfl⟩

theorem zeroize_refused (hop : j.op = 9) (h : zeroizeCode s.sec s.chip j ≠ 0) :
    ServiceRefused .secZeroize s j rest (zeroizeCode s.sec s.chip j) :=
  serviceRefused_of rfl (service_runs rfl hq hsrc (by rw [hop]; rfl) (.inl hstate) (svcZeroize_refuses (s := served s rest) h))

theorem zeroize_clears (hop : j.op = 9) (h : zeroizeCode s.sec s.chip j = 0) : ∃ t, ServiceEnds .secZeroize s j rest 0 t ∧
    t.sec = { s.sec with keys := [], derived := false, drbg := true, seedKill := s.sec.seedKill || bit (argOf s.chip j 0) 0 } :=
  ⟨_, serviceEnds_of rfl rfl (service_runs rfl hq hsrc (by rw [hop]; rfl) (.inl hstate) (svcZeroize_clears (s := served s rest) h)), rfl⟩

theorem coreStart_refused (hop : j.op = 10) (hm : j.src = 0) {code : Nat}
    (h : svcCoreStart j s.sec (served s rest).chip = endCommand j code (served s rest).chip) :
    ServiceRefused .secCoreStart s j rest code :=
  serviceRefused_of h (service_runs rfl hq hsrc (by rw [hop, hm]; rfl) (.inl hstate) rfl)

theorem coreStart_starts (hop : j.op = 10) (hm : j.src = 0) (h1 : 1 ≤ argOf s.chip j 0) (h3 : argOf s.chip j 0 ≤ 3)
    (hon : domOn s.chip (93 + argOf s.chip j 0 / 2) = true) : ∃ t, ServiceEnds .secCoreStart s j rest 0 t ∧ t.sec = s.sec ∧
      numOf t.chip.cores (argOf s.chip j 0) = 2 + (argOf s.chip j 2 * 2 ^ 32 + argOf s.chip j 1) ∧
      Frame [Reg.SEC_STATUS j.src] [] s.chip { t.chip with secQ := s.chip.secQ, cores := s.chip.cores } := by
  let cores := setNum (argOf s.chip j 0) (2 + (argOf s.chip j 2 * 2 ^ 32 + argOf s.chip j 1)) s.chip.cores
  have hstart : svcCoreStart j s.sec (served s rest).chip = endCommand j 0 { (served s rest).chip with cores := cores } := by
    unfold svcCoreStart
    exact (if_neg (by change ¬ (argOf s.chip j 0 < 1 ∨ 3 < argOf s.chip j 0); omega)).trans
      (if_neg (by change ¬ (!domOn s.chip (93 + argOf s.chip j 0 / 2)) = true; rw [hon]; decide))
  refine ⟨_, serviceEnds_of (x := s.sec) hstart rfl (service_runs rfl hq hsrc (by rw [hop, hm]; rfl) (.inl hstate) rfl), rfl, ?_, ?_⟩
  · dsimp only
    rw [hstart, endCommand, putNum]
    exact numOf_setNum_same ..
  · dsimp only
    rw [hstart, endCommand]
    exact frame_putNum _ _ List.mem_cons_self (frame_refl ..)

theorem selftest_passes (hop : j.op = 2) : ∃ t, ServiceEnds (.secSelftest 0#32) s j rest 0 t ∧
    reg t.chip Reg.SEC_SELFTEST = 0#32 ∧ t.sec = s.sec := by
  refine ⟨_, serviceEnds_of (x := s.sec) (c := selftested j 0#32 (served s rest).chip) rfl rfl
    (service_runs rfl hq hsrc (by rw [hop]; rfl) (.inl hstate) (svcSelftest_passes rfl)), ?_, rfl⟩
  rw [reg_endCommand_ne (SEC_SELFTEST_ne_STATUS hsrc), reg_selftested hsrc]

/-- A failed self-test (R473, R475): the mailbox's command has ended, and the error state follows. -/
theorem selftest_fails (hop : j.op = 2) {failed : Word} (hf : failed ≠ 0#32) : ∃ t, ServiceEnds (.secSelftest failed) s j rest 5 t ∧
    reg t.chip Reg.SEC_SELFTEST = failed ∧ secState t.chip = 2 ∧ t.sec = { s.sec with keys := [], drbg := false } := by
  refine ⟨_, serviceEnds_then_info (x := { s.sec with keys := [], drbg := false }) (c := selftested j failed (served s rest).chip)
    hsrc rfl rfl (service_runs rfl hq hsrc (by rw [hop]; rfl) (.inl hstate) (svcSelftest_fails hf)), ?_, secState_putInfo .., rfl⟩
  rw [reg_putNum_ne (by decide), reg_endCommand_ne (SEC_SELFTEST_ne_STATUS hsrc), reg_selftested hsrc]

theorem random_refused (hop : j.op = 11) (h : s.sec.drbg = false) : ServiceRefused .secRandom s j rest 7 :=
  serviceRefused_of (if_neg (by rw [show (served s rest).sec.drbg = false from h]; decide)) (service_runs rfl hq hsrc (by rw [hop]; rfl) (.inl hstate) rfl)

theorem random_returns (hop : j.op = 11) (h : s.sec.drbg = true) : ∃ t, ServiceEnds .secRandom s j rest 0 t ∧ t.sec = s.sec ∧
    t.chip.free = s.chip.free + 8 ∧ ∀ i, i < 8 → reg t.chip (Reg.SEC_RES j.src i) = Config.freeWord (s.chip.free + i) := by
  have hrun : svcRandom j s.sec (served s rest).chip = endCommand j 0 (forAll (randomWord j) (List.range 8) (served s rest).chip) :=
    if_pos h
  obtain ⟨hfree, hword, hqueue⟩ := randomWords_facts j 8 (served s rest).chip
  refine ⟨_, serviceEnds_of (x := s.sec) hrun hqueue (service_runs rfl hq hsrc (by rw [hop]; rfl) (.inl hstate) rfl), rfl, ?_,
    fun i hi => ?_⟩
  · dsimp only
    rw [hrun, endCommand, putNum, setReg_free]
    exact hfree
  · dsimp only
    rw [hrun, reg_endCommand_ne (SEC_RES_ne_STATUS hsrc hi hsrc)]
    exact hword i hi

theorem unknownOp_refused (h : unknownOp j = true) : ServiceRefused .secUnknownOp s j rest 1 :=
  serviceRefused_of rfl (service_runs rfl hq hsrc h (.inl hstate) rfl)

theorem attest_refused (hop : j.op = 3)
    (h : (s.sec.seedKill || !s.sec.derived || !s.sec.drbg || decide (bufLen s.chip j.src < 33712)) = true) :
    ServiceRefused .secAttest s j rest 7 :=
  serviceRefused_of (if_pos h) (service_runs rfl hq hsrc (by rw [hop]; rfl) (.inl hstate) rfl)

theorem attest_writes (hop : j.op = 3)
    (h : (s.sec.seedKill || !s.sec.derived || !s.sec.drbg || decide (bufLen s.chip j.src < 33712)) = false) : ∃ t,
    ServiceEnds .secAttest s j rest 0 t ∧ t.sec = s.sec ∧ reg t.chip (Reg.SEC_RES j.src 0) = 33712#32 ∧
      bytesAt t.chip (bufAddr s.chip j.src) 4 = [0x59#8, 0x41#8, 0x54#8, 0x51#8] ∧
      bytesAt t.chip (bufAddr s.chip j.src + 16) 32 = nonceOf j s.chip := by
  let c := (served s rest).chip
  have hrun : svcAttest j s.sec c = _ := svcAttest_writes h
  obtain ⟨hmagic, hnonce⟩ := bytesAt_attested j s.sec c { c with free := c.free + 3 } (bufAddr c j.src)
  have hmem (a n : Nat) : bytesAt (svcAttest j s.sec c) a n =
      bytesAt (putBytes (bufAddr c j.src) (attested j s.sec c) { c with free := c.free + 3 }) a n := by
    refine bytesAt_of_mem ?_ ?_ a n
    · rw [hrun, endCommand, putNum, setReg_mem, putRes, putNum, setReg_mem, clearEcc_mem]
    · rw [hrun, endCommand, putNum, setReg_lost, putRes, putNum, setReg_lost, clearEcc_lost]
  refine ⟨_, serviceEnds_of (x := s.sec) hrun ?_ (service_runs rfl hq hsrc (by rw [hop]; rfl) (.inl hstate) rfl), rfl, ?_,
    (hmem ..).trans hmagic, (hmem ..).trans hnonce⟩
  · rw [putRes, putNum, setReg_secQ, clearEcc_secQ, putBytes_secQ]
    rfl
  · dsimp only
    rw [hrun, reg_endCommand_ne (SEC_RES_ne_STATUS hsrc (by decide) hsrc), putRes, reg_putNum_same]

end
end

/-! ### The error state and mailbox requests (R475, R477) -/

/-- Every command that serves an OP is a service of that OP's mailbox commands. -/
theorem exec_of_serviceOp {i : Instr} {op : Nat} (h : serviceOp i = some op) (s : State) : ∃ ok f,
    exec i s = .next (runService ok f s) ∧ (∀ j, ok j = true → j.op = op) ∧
      ∀ j, j.op = op → (op = 10 → j.src = 0) → ok j = true := by
  cases i
  all_goals cases h
  case secCoreStart =>
    refine ⟨_, _, rfl, fun j hj => ?_, fun j hop hm => ?_⟩
    · exact beq_iff_eq.1 ((Bool.and_eq_true _ _).mp hj).1
    · rw [hop, hm rfl]
      rfl
  all_goals exact ⟨_, _, rfl, fun j hj => beq_iff_eq.1 hj, fun j hop _ => beq_iff_eq.2 hop⟩

theorem service_in_error {i : Instr} {op : Nat} {s : State} {j : SecJob} {rest : List SecJob} (hi : serviceOp i = some op)
    (hq : s.chip.secQ = j :: rest) (hsrc : j.src < 2) (hstate : secState s.chip = 2) (hop : j.op = op) (hne : op ≠ 1)
    (hcore : op = 10 → j.src = 0) : ServiceRefused i s j rest 5 := by
  obtain ⟨ok, f, hrun, -, hok⟩ := exec_of_serviceOp hi s
  exact serviceRefused_of rfl (hrun.trans (congrArg _ (runService_in_error hq hsrc (hok j hop hcore) hstate (hop ▸ hne))))

/-- A service waits for its own command at the front of the queue. -/
theorem service_waits {i : Instr} {op : Nat} {s : State} (hi : serviceOp i = some op)
    (h : (s.chip.secQ.head?.all (fun j => decide (2 ≤ j.src) || j.op != op)) = true) : Completes i s s.chip := by
  obtain ⟨ok, f, hrun, hop, -⟩ := exec_of_serviceOp hi s
  refine hrun.trans (congrArg _ (runService_skips fun j hj => ?_))
  rw [hj] at h
  have hfront : 2 ≤ j.src ∨ j.op ≠ op := by simpa using h
  rcases hfront with hsrc | hne
  · rw [decide_eq_false (by omega), Bool.false_and]
  · rw [Bool.eq_false_iff.2 (fun hj => hne (hop j hj)), Bool.and_false]

theorem secGo_outcome (m : Fin 2) (v : Word) (c : Chip) :
    let st := rfld c (Reg.SEC_STATUS m) 31 29
    (flag v 31 = false → secGo m v c = c) ∧
      (flag v 31 = true → (st = 1 ∨ st = 2) → secGo m v c = count Reg.SEC_REFUSED 1 c) ∧
      (flag v 31 = true → st ≠ 1 → st ≠ 2 → secGo m v c = setFld (Reg.SEC_STATUS m) 31 29 1
        { c with secQ := c.secQ ++ [{ src := m.val, op := fld v 7 0, seq := fld v 23 16 }] }) := by
  unfold secGo
  refine ⟨fun h => ?_, fun h hst => ?_, fun h h1 h2 => ?_⟩
  · rw [h]
    rfl
  · rw [if_neg (by rw [h]; decide)]
    exact if_pos hst
  · rw [if_neg (by rw [h]; decide)]
    exact if_neg (not_or.2 ⟨h1, h2⟩)

theorem bit_lor (a b k : Nat) : bit (a.lor b) k = (bit a k || bit b k) := by
  simp only [bit_eq_testBit]
  exact Nat.testBit_or ..

/-- What an opened scope lets the JTAG port reach (R472). -/
theorem debugAccess_withScope (x : Sec) (name : Nat) :
    (∀ k, debugAccess (withScope x name) (.bracken k) = (debugAccess x (.bracken k) || bit name 0)) ∧
      debugAccess (withScope x name) .power = (debugAccess x .power || bit name 1) ∧
      debugAccess (withScope x name) .thistle = debugAccess x .thistle := by
  have hbit (k : Nat) (hk : k < 2) : bit (x.scope.lor (name % 4)) k = (bit x.scope k || bit name k) := by
    rw [bit_lor, bit_eq_testBit (name % 4), bit_eq_testBit name, show (4 : Nat) = 2 ^ 2 from rfl, Nat.testBit_mod_two_pow,
      decide_eq_true hk, Bool.true_and]
  refine ⟨fun k => ?_, ?_, rfl⟩
  · change (!x.debugLock || bit (x.scope.lor (name % 4)) 0) = (!x.debugLock || bit x.scope 0 || bit name 0)
    rw [hbit 0 (by decide), Bool.or_assoc]
  · change (!x.debugLock || bit (x.scope.lor (name % 4)) 1) = (!x.debugLock || bit x.scope 1 || bit name 1)
    rw [hbit 1 (by decide), Bool.or_assoc]

/-- Settles O50: every service runs, is refused or waits by the same queue; each OP has a lemma for its refusal and its effect. -/
theorem securityServices : Obligations.SecurityServices := by
  intro s c x
  refine ⟨fun m v => ?_, fun i op hi h => service_waits hi h, fun j rest hq hsrc => ?_⟩
  · obtain ⟨hidle, hrefused, hqueued⟩ := secGo_outcome m v c
    refine ⟨fun h => congrArg (done s) (hidle h), fun h hst => ?_, fun h h1 h2 => ?_⟩
    · exact ⟨_, congrArg (done s) (hrefused h hst), advanced_count .., frame_count _ _ List.mem_cons_self (frame_refl ..)⟩
    · exact ⟨_, congrArg (done s) (hqueued h h1 h2), rfld_setFld _ _ _ _ _ (by decide) (by decide), rfl,
        frame_setFld _ _ _ _ List.mem_cons_self (frame_refl ..)⟩
  · refine ⟨fun h2 i op hi hop hne hcore => service_in_error hi hq hsrc h2 hop hne hcore,
      secStatus_outcome hq hsrc, fun hstate => ⟨fun hop failed => ?_, attest_refused hq hsrc hstate, attest_writes hq hsrc hstate,
        fun hop => ⟨keyLoad_refused hq hsrc hstate hop, keyLoad_stores hq hsrc hstate hop⟩, keyClear_outcome hq hsrc hstate,
        fun hop => ⟨revoke_refused hq hsrc hstate hop, revoke_revokes hq hsrc hstate hop⟩,
        fun hop => ⟨debugUnlock_refused hq hsrc hstate hop, fun h => ?_⟩,
        fun hop => ⟨zeroize_refused hq hsrc hstate hop, zeroize_clears hq hsrc hstate hop⟩,
        fun hop hm => ⟨fun hk => ?_, fun h1 h3 hoff => ?_, coreStart_starts hq hsrc hstate hop hm⟩,
        random_refused hq hsrc hstate, random_returns hq hsrc hstate, unknownOp_refused hq hsrc hstate⟩⟩
    · by_cases hf : failed = 0#32
      · subst hf
        obtain ⟨t, hends, htest, hsec⟩ := selftest_passes hq hsrc hstate hop
        exact ⟨t, hends, htest, fun _ => hsec, fun h => absurd rfl h⟩
      · obtain ⟨t, hends, htest, herr, hsec⟩ := selftest_fails hq hsrc hstate hop hf
        rw [if_neg hf]
        exact ⟨t, hends, htest, fun h => absurd h hf, fun _ => ⟨herr, hsec⟩⟩
    · obtain ⟨t, hends, hsec⟩ := debugUnlock_opens hq hsrc hstate hop h
      refine ⟨t, hends, hsec, ?_⟩
      rw [hsec]
      exact debugAccess_withScope ..
    · exact coreStart_refused hq hsrc hstate hop hm (if_pos hk)
    · refine coreStart_refused hq hsrc hstate hop hm ((if_neg ?_).trans (if_pos ?_))
      · exact not_or.2 ⟨Nat.not_lt.2 h1, Nat.not_lt.2 h3⟩
      · change (!domOn s.chip (93 + argOf s.chip j 0 / 2)) = true
        rw [hoff]
        rfl

end Sys2Proof.Machine
end

section
/-!
PROOFS. Firmware packages, verification of images and licence records (R364, R368, R387, R390, R409, R466 to R468, R475).
-/

namespace Sys2Proof.Machine

open Sys2Proof.Safety

/-! ### FW_UPDATE (R467, R409) -/

/-- The verdict on an image depends on the fuses of the chip alone. -/
theorem verifyCode_congr {c c' : Chip} (h : c'.fuses = c.fuses) (x : Sec) (g : Sparse Word) (im : List Byte) (len : Nat) :
    verifyCode x c' g im len = verifyCode x c g im len := by
  unfold verifyCode headerCode lacksFused variantOf serialOf
  rw [h]

theorem verifyCode_served (x : Sec) (s : State) (rest : List SecJob) (g : Sparse Word) (im : List Byte) (len : Nat) :
    verifyCode x (served s rest).chip g im len = verifyCode x s.chip g im len := verifyCode_congr rfl ..

/-- The code of a signed object depends on the fuses of the chip alone. -/
theorem objectCode_congr {c c' : Chip} (h : c'.fuses = c.fuses) (x : Sec) (ok : Nat → Bool) (o : List Byte) (len : Nat) :
    objectCode x c' ok o len = objectCode x c ok o len := by
  unfold objectCode serialOf
  rw [h]

/-- Whether a TYPE is one of firmware. -/
def fwType (t : Nat) : Bool := decide (1 ≤ t) && decide (t ≤ 4)

/-- The Thistle core's state with a package in the inactive slot of its TYPE (R467). -/
def withPackage (x : Sec) (o : List Byte) : Sec :=
  { x with
    fw := setList (2 * nAt o 4 1 + (1 - numOf x.active (nAt o 4 1))) o x.fw
    fresh := mapPut (fun _ => false) x.fresh (nAt o 4 1) true }

/-- The Thistle core's state in the error state (R475). -/
def inError (x : Sec) : Sec := { x with keys := [], drbg := false }

/-- The chip after a firmware load has failed its checks (R474): SEC_INFO shows the error state. -/
def failedChip (s : State) : Chip :=
  putNum Reg.SEC_INFO (infoWord (inError s.sec) 2 ((Config.freeWord s.chip.free).toNat % 256)) { s.chip with free := s.chip.free + 1 }

theorem acceptPackage_accepts {o : List Byte} {len : Nat} {s : State} (h : objectCode s.sec s.chip fwType o len = 0) :
    acceptPackage o len s = ((0, nAt o 4 1, 1 - numOf s.sec.active (nAt o 4 1)), { s with sec := withPackage s.sec o }) := by
  change (match objectCode s.sec s.chip fwType o len with
    | 0 => _
    | n => _) = _
  rw [h]
  rfl

theorem acceptPackage_rejects {o : List Byte} {len n : Nat} {s : State} (h : objectCode s.sec s.chip fwType o len = n + 1) :
    acceptPackage o len s = ((n + 1, 0, 0), { s with sec := inError s.sec, chip := failedChip s }) := by
  change (match objectCode s.sec s.chip fwType o len with
    | 0 => _
    | n => _) = _
  rw [h]
  rfl

section
variable {o : List Byte} {len : Nat} {s : State}

theorem updateFirmware_accepts (hf : inFallow s.chip = false) (h : objectCode s.sec s.chip fwType o len = 0) : updateFirmware o len s =
    ((0, nAt o 4 1, 1 - numOf s.sec.active (nAt o 4 1)), { s with sec := withPackage s.sec o }) := by
  unfold updateFirmware
  rw [if_neg (by rw [hf, Bool.false_and]; decide), acceptPackage_accepts h]
  exact if_neg (by simp [hf])

theorem updateFirmware_rejects {n : Nat} (hf : inFallow s.chip = false) (h : objectCode s.sec s.chip fwType o len = n + 1) :
    updateFirmware o len s = ((n + 1, 0, 0), { s with sec := inError s.sec, chip := failedChip s }) := by
  unfold updateFirmware
  rw [if_neg (by rw [hf, Bool.false_and]; decide), acceptPackage_rejects h]
  rfl

theorem updateFirmware_bad_image (hf : inFallow s.chip = true) (hm : nAt o 0 4 = 0x474D4959)
    (h : (verifyCode s.sec s.chip (latchGrants s.chip) o len).1 ≠ 0) :
    updateFirmware o len s = ((2, 0, 0), { s with sec := s.sec, chip := s.chip }) := by
  unfold updateFirmware
  rw [if_pos (by rw [hf, hm]; rfl), if_neg h]

theorem updateFirmware_good_image (hf : inFallow s.chip = true) (hm : nAt o 0 4 = 0x474D4959)
    (h : (verifyCode s.sec s.chip (latchGrants s.chip) o len).1 = 0) :
    updateFirmware o len s = ((0, 0, 0), { s with sec := { s.sec with startImage := o }, chip := noteRecovery s.chip }) := by
  unfold updateFirmware
  rw [if_pos (by rw [hf, hm]; rfl), if_pos h]

end

section
variable {s : State} {j : SecJob} {x : Sec} {c : Chip} {n typ slot : Nat}
  (h : updateFirmware (bufBytes s.chip j.src) (bufLen s.chip j.src) s = ((n, typ, slot), { s with sec := x, chip := c }))
include h

theorem svcFwUpdate_fails (hn : n ≠ 0) : svcFwUpdate j s = { s with sec := x, chip := endCommand j n c } := by
  unfold svcFwUpdate
  rw [h]
  simp [hn, when_]

theorem svcFwUpdate_returns (hn : n = 0) :
    svcFwUpdate j s = { s with sec := x, chip := endCommand j 0 (putRes j 1 slot (putRes j 0 typ c)) } := by
  unfold svcFwUpdate
  rw [h]
  simp [hn, when_]

end

section
variable {s : State} {j : SecJob} {rest : List SecJob} (hq : s.chip.secQ = j :: rest) (hsrc : j.src < 2)
  (hop : j.op = 4) (hstate : secState s.chip ≠ 2)
include hq hsrc hop hstate

/-- A rejected package: the core enters its error state, and the command ends with the object's code (R466, R475). -/
theorem fwUpdate_rejects (hf : inFallow s.chip = false) {n : Nat}
    (h : objectCode s.sec s.chip fwType (bufBytes s.chip j.src) (bufLen s.chip j.src) = n + 1) : ∃ t,
    ServiceEnds .secFwUpdate s j rest (n + 1) t ∧ t.sec = inError s.sec ∧ secState t.chip = 2 := by
  have hrun := svcFwUpdate_fails (s := served s rest) (updateFirmware_rejects hf h) (Nat.succ_ne_zero n)
  refine ⟨_, serviceEnds_of (c := failedChip (served s rest)) rfl rfl
    (service_runs rfl hq hsrc (by rw [hop]; rfl) (.inl hstate) hrun), rfl, ?_⟩
  unfold secState
  rw [rfld_congr (reg_endCommand_ne (SEC_INFO_ne_STATUS hsrc) ..)]
  exact secState_putInfo ..

/-- An accepted package: its TYPE and slot are returned (R467). -/
theorem fwUpdate_accepts (hf : inFallow s.chip = false)
    (h : objectCode s.sec s.chip fwType (bufBytes s.chip j.src) (bufLen s.chip j.src) = 0) : ∃ t,
    ServiceEnds .secFwUpdate s j rest 0 t ∧ reg t.chip (Reg.SEC_RES j.src 0) = BitVec.ofNat 32 (nAt (bufBytes s.chip j.src) 4 1) ∧
      reg t.chip (Reg.SEC_RES j.src 1) = BitVec.ofNat 32 (1 - numOf s.sec.active (nAt (bufBytes s.chip j.src) 4 1)) ∧
      t.sec = withPackage s.sec (bufBytes s.chip j.src) := by
  let o := bufBytes s.chip j.src
  let c := putRes j 1 (1 - numOf s.sec.active (nAt o 4 1)) (putRes j 0 (nAt o 4 1) (served s rest).chip)
  have hrun := svcFwUpdate_returns (s := served s rest) (updateFirmware_accepts hf h) rfl
  have hres : Reg.SEC_RES j.src 0 ≠ Reg.SEC_RES j.src 1 := by unfold Reg.SEC_RES; omega
  refine ⟨_, serviceEnds_of (c := c) rfl rfl (service_runs rfl hq hsrc (by rw [hop]; rfl) (.inl hstate) hrun), ?_, ?_, rfl⟩
  · rw [reg_endCommand_ne (SEC_RES_ne_STATUS hsrc (by decide) hsrc)]
    exact (reg_putNum_ne hres ..).trans (reg_putNum_same ..)
  · rw [reg_endCommand_ne (SEC_RES_ne_STATUS hsrc (by decide) hsrc)]
    exact reg_putNum_same ..

/-- A start image that does not verify in fallow mode (R409): CODE 2, and nothing else. -/
theorem fwUpdate_refuses_image (hf : inFallow s.chip = true) (hm : nAt (bufBytes s.chip j.src) 0 4 = 0x474D4959)
    (hbad : (verifyCode s.sec s.chip (latchGrants s.chip) (bufBytes s.chip j.src) (bufLen s.chip j.src)).1 ≠ 0) : ∃ t,
    ServiceEnds .secFwUpdate s j rest 2 t ∧ t.sec = s.sec := by
  have hrun := svcFwUpdate_fails (s := served s rest) (updateFirmware_bad_image hf hm (by rwa [verifyCode_served])) (by decide)
  exact ⟨_, serviceEnds_of (x := s.sec) (c := (served s rest).chip) rfl rfl
    (service_runs rfl hq hsrc (by rw [hop]; rfl) (.inl hstate) hrun), rfl⟩

/-- A start image that verifies in fallow mode is stored, and the failure count is cleared (R409). -/
theorem fwUpdate_stores_image (hf : inFallow s.chip = true) (hm : nAt (bufBytes s.chip j.src) 0 4 = 0x474D4959)
    (hgood : (verifyCode s.sec s.chip (latchGrants s.chip) (bufBytes s.chip j.src) (bufLen s.chip j.src)).1 = 0) : ∃ t,
    ServiceEnds .secFwUpdate s j rest 0 t ∧ t.sec = { s.sec with startImage := bufBytes s.chip j.src } ∧
      t.chip.flash.failCount = 0 ∧ reg t.chip Reg.BOOT_FAIL_COUNT = 0#32 := by
  let c := putRes j 1 0 (putRes j 0 0 (noteRecovery (served s rest).chip))
  have hrun := svcFwUpdate_returns (s := served s rest) (updateFirmware_good_image hf hm (by rwa [verifyCode_served])) rfl
  refine ⟨_, serviceEnds_of (c := c) rfl rfl (service_runs rfl hq hsrc (by rw [hop]; rfl) (.inl hstate) hrun), rfl, ?_, ?_⟩
  · dsimp only
    rw [endCommand, putNum, setReg_flash]
    rfl
  · have hne (a : Nat) (h : 0x200000E00000 ≤ a) : Reg.BOOT_FAIL_COUNT ≠ a := by
      unfold Reg.BOOT_FAIL_COUNT; omega
    have hres (i : Nat) : Reg.BOOT_FAIL_COUNT ≠ Reg.SEC_RES j.src i := hne _ (by unfold Reg.SEC_RES; omega)
    rw [reg_endCommand_ne (hne _ (by unfold Reg.SEC_STATUS; omega))]
    exact (reg_putNum_ne (hres 1) ..).trans ((reg_putNum_ne (hres 0) ..).trans (reg_putNum_same ..))

end

/-! ### Verification (R364, R368, R387) -/

/-- A failed verification shows code and section and is counted (Table 13.14). -/
theorem verifyFailed_facts (code i d : Nat) (c : Chip) :
    reg (verifyFailed code i d c) Reg.IMG_STATUS = BitVec.ofNat 32 (3 * 2 ^ 29 + i % 4096 * 65536 + code) ∧
      Advanced Reg.IMG_REJECTED 1 c (verifyFailed code i d c) ∧ (verifyFailed code i d c).secQ = c.secQ := by
  have hdetail (a : Nat) (ha : a ≠ Reg.IMG_DETAIL) (c : Chip) : reg (when_ (d != 0) (putNum Reg.IMG_DETAIL d) c) a = reg c a := by
    unfold when_
    split
    · exact reg_putNum_ne ha ..
    · rfl
  refine ⟨?_, ?_, ?_⟩
  · unfold verifyFailed
    rw [reg_count_ne (by decide), hdetail _ (by decide), reg_putNum_same]
  · refine advanced_of_count (d := when_ (d != 0) (putNum Reg.IMG_DETAIL d) (putNum Reg.IMG_STATUS _ c)) ?_ rfl
    rw [hdetail _ (by decide), reg_putNum_ne (by decide)]
  · unfold verifyFailed when_
    split <;> rfl

/-- Without a detail a failed verification writes IMG_STATUS and IMG_REJECTED alone. -/
theorem verifyFailed_plain (code i : Nat) (c : Chip) :
    verifyFailed code i 0 c = count Reg.IMG_REJECTED 1 (putNum Reg.IMG_STATUS (3 * 2 ^ 29 + i % 4096 * 65536 + code) c) := rfl

/-- The plaintext of the sections goes to memory alone (R367). -/
theorem writePlain_keeps (x : Sec) (im : List Byte) (n : Nat) (c : Chip) :
    (writePlain x im n c).regs = c.regs ∧ (writePlain x im n c).secQ = c.secQ := by
  refine forAll_keeps (P := fun d => d.regs = c.regs ∧ d.secQ = c.secQ) _ (fun i _ d hd => ?_) c ⟨rfl, rfl⟩
  dsimp only
  split
  · split
    · refine ⟨?_, ?_⟩
      · rw [clearEcc_regs, putBytes_regs, hd.1]
      · rw [clearEcc_secQ, putBytes_secQ, hd.2]
    · exact hd
  · exact hd

theorem reg_writePlain (x : Sec) (im : List Byte) (n : Nat) (c : Chip) (a : Nat) : reg (writePlain x im n c) a = reg c a := by
  unfold reg
  rw [(writePlain_keeps x im n c).1]

/-- The registers that name an image are IMG_ID, IMG_HDR_INFO, IMG_FEATURES and IMG_FP_REV (Table 13.17). -/
theorem reg_noteImage {a : Nat} (h1 : a ≠ Reg.IMG_ID) (h2 : a ≠ Reg.IMG_HDR_INFO) (h3 : a ≠ Reg.IMG_FEATURES)
    (h4 : a ≠ Reg.IMG_FP_REV) (x : Sec) (im : List Byte) (c : Chip) : reg (noteImage x im c) a = reg c a := by
  unfold noteImage
  rw [reg_putNum_ne h4, reg_putNum_ne h3, reg_putNum_ne h2, reg_putNum_ne h1]

theorem secQ_putNum (a n : Nat) (c : Chip) : (putNum a n c).secQ = c.secQ := rfl

theorem secQ_noteImage (x : Sec) (im : List Byte) (c : Chip) : (noteImage x im c).secQ = c.secQ := by
  unfold noteImage
  rw [secQ_putNum, secQ_putNum, secQ_putNum, secQ_putNum]

theorem id_noteImage (x : Sec) (im : List Byte) (c : Chip) : reg (noteImage x im c) Reg.IMG_ID = BitVec.ofNat 32 (nAt im 0x1C 4) := by
  unfold noteImage
  rw [reg_putNum_ne (by decide), reg_putNum_ne (by decide), reg_putNum_ne (by decide), reg_putNum_same]

/-- The verdict on the staged image at the front of the queue (R368, R475). -/
def verdict (x : Sec) (c : Chip) : Nat × Nat × Nat :=
  if secState c = 2 then (0x20, 0, 0) else verifyCode x c c.askedGrants (staged c) (imgLen c)

theorem verdict_served (x : Sec) (s : State) (rest : List SecJob) : verdict x (served s rest).chip = verdict x s.chip := by
  unfold verdict
  rw [verifyCode_served]
  rfl

/-- The end of the verification of the image staged in `c`. -/
def judged (s : State) (c : Chip) : State :=
  let im := staged c
  if secState c = 2 then { s with chip := c |> verifyFailed 0x20 0 0 |> raise Reg.SEC_EVENT 0 }
  else
    let r := verifyCode s.sec c c.askedGrants im (imgLen c)
    if r.1 = 0 then
      { s with
        sec := { s.sec with imageHash := Config.sha256 (im.take (imgSigned im)) }
        chip := c |> writePlain s.sec im (imgCount im) |> noteImage s.sec im |> putNum Reg.IMG_STATUS (2 * 2 ^ 29)
          |> count Reg.IMG_VERIFIED 1 |> raise Reg.SEC_EVENT 0 }
    else
      { s with chip := c |> when_ (r.1 == 7) (writePlain s.sec im r.2.1) |> verifyFailed r.1 r.2.1 r.2.2 |> raise Reg.SEC_EVENT 0 }

theorem verifyDone_judges {s : State} {j : SecJob} {rest : List SecJob} (hq : s.chip.secQ = j :: rest) (hsrc : j.src = 2) :
    verifyDone s = judged s (served s rest).chip := by
  unfold verifyDone
  rw [hq]
  exact if_pos hsrc

/-- An image that does not verify: its verdict is shown, with the plaintext of its sections perhaps in memory. -/
theorem judged_rejects {s : State} {c : Chip} (h : (verdict s.sec c).1 ≠ 0) : ∃ d, (∀ a, reg d a = reg c a) ∧ d.secQ = c.secQ ∧
    judged s c = { s with
      chip := raise Reg.SEC_EVENT 0 (verifyFailed (verdict s.sec c).1 (verdict s.sec c).2.1 (verdict s.sec c).2.2 d) } := by
  by_cases herr : secState c = 2
  · rw [show verdict s.sec c = (0x20, 0, 0) from if_pos herr]
    exact ⟨c, fun _ => rfl, rfl, if_pos herr⟩
  · have hv : verdict s.sec c = verifyCode s.sec c c.askedGrants (staged c) (imgLen c) := if_neg herr
    unfold judged
    rw [if_neg herr, ← hv]
    refine ⟨_, fun a => ?_, ?_, if_neg h⟩
    · unfold when_
      split
      · exact reg_writePlain ..
      · rfl
    · unfold when_
      split
      · exact (writePlain_keeps ..).2
      · rfl

/-- The chip after the image `im` has been verified. -/
def verifiedChip (x : Sec) (im : List Byte) (c : Chip) : Chip :=
  c |> writePlain x im (imgCount im) |> noteImage x im |> putNum Reg.IMG_STATUS (2 * 2 ^ 29)
    |> count Reg.IMG_VERIFIED 1 |> raise Reg.SEC_EVENT 0

theorem verifiedChip_facts (x : Sec) (im : List Byte) (c : Chip) :
    let d := verifiedChip x im c
    d.secQ = c.secQ ∧ rflag d Reg.SEC_EVENT 0 = true ∧ imgState d = 2 ∧ Advanced Reg.IMG_VERIFIED 1 c d ∧
      reg d Reg.IMG_ID = BitVec.ofNat 32 (nAt im 0x1C 4) := by
  intro d
  rw [show d = verifiedChip x im c from rfl]
  unfold verifiedChip
  refine ⟨?_, rflag_raise _ _ _ (by decide), ?_, ?_, ?_⟩
  · rw [raise, setBit, setReg_secQ, count, setReg_secQ, secQ_putNum, secQ_noteImage, (writePlain_keeps ..).2]
  · unfold imgState
    rw [rfld_congr (reg_raise_ne (by decide) ..), rfld_congr (reg_count_ne (by decide) ..), rfld, reg_putNum_same]
    decide
  · refine advanced_congr (advanced_of_count ?_ rfl) (reg_raise_ne (by decide) ..)
    rw [reg_putNum_ne (by decide), reg_noteImage (by decide) (by decide) (by decide) (by decide), reg_writePlain]
  · rw [reg_raise_ne (by decide), reg_count_ne (by decide), reg_putNum_ne (by decide), id_noteImage]

theorem judged_accepts {s : State} {c : Chip} (h : (verdict s.sec c).1 = 0) : judged s c = { s with
    sec := { s.sec with imageHash := Config.sha256 ((staged c).take (imgSigned (staged c))) }
    chip := verifiedChip s.sec (staged c) c } := by
  have herr : secState c ≠ 2 := fun herr => by
    rw [verdict, if_pos herr] at h
    exact absurd h (by decide)
  rw [verdict, if_neg herr] at h
  unfold judged
  exact (if_neg herr).trans (if_pos h)

section
variable {s : State} {j : SecJob} {rest : List SecJob} (hq : s.chip.secQ = j :: rest)
include hq

theorem verifyDone_outcome (hsrc : j.src = 2) :
    let r := verdict s.sec s.chip
    ∃ t, CompletesAt .verifyDone s t ∧ t.chip.secQ = rest ∧ rflag t.chip Reg.SEC_EVENT 0 = true ∧ t.irq = s.irq ∧
      (r.1 ≠ 0 → t.sec = s.sec ∧ reg t.chip Reg.IMG_STATUS = BitVec.ofNat 32 (3 * 2 ^ 29 + r.2.1 % 4096 * 65536 + r.1) ∧
        Advanced Reg.IMG_REJECTED 1 s.chip t.chip) ∧
      (r.1 = 0 → imgState t.chip = 2 ∧ Advanced Reg.IMG_VERIFIED 1 s.chip t.chip ∧
        reg t.chip Reg.IMG_ID = BitVec.ofNat 32 (nAt (staged s.chip) 0x1C 4) ∧
        t.sec = { s.sec with imageHash := Config.sha256 ((staged s.chip).take (imgSigned (staged s.chip))) }) := by
  intro r
  have hr : verdict s.sec (served s rest).chip = r := verdict_served ..
  by_cases h : r.1 = 0
  · have hjudged := judged_accepts (s := s) (c := (served s rest).chip) (by rw [hr]; exact h)
    obtain ⟨hqueue, hevent, hstate, hadv, hid⟩ := verifiedChip_facts s.sec (staged (served s rest).chip) (served s rest).chip
    exact ⟨_, completesAt_next rfl ((verifyDone_judges hq hsrc).trans hjudged) rfl, hqueue, hevent, rfl, fun hn => absurd h hn,
      fun _ => ⟨hstate, hadv, hid, rfl⟩⟩
  · obtain ⟨d, hreg, hqueue, hjudged⟩ := judged_rejects (s := s) (c := (served s rest).chip) (by rw [hr]; exact h)
    rw [hr] at hjudged
    obtain ⟨hstatus, hadv, hkeep⟩ := verifyFailed_facts r.1 r.2.1 r.2.2 d
    refine ⟨_, completesAt_next rfl ((verifyDone_judges hq hsrc).trans hjudged) rfl, hkeep.trans hqueue,
      rflag_raise _ _ _ (by decide), rfl, fun _ => ⟨rfl, ?_, ?_⟩, fun h0 => absurd h0 h⟩
    · rw [reg_raise_ne (by decide), hstatus]
    · rw [Advanced, hreg] at hadv
      exact advanced_congr hadv (reg_raise_ne (by decide) ..)

end

theorem verifyDone_waits {s : State} (h : (s.chip.secQ.head?.all (fun j => j.src != 2)) = true) : verifyDone s = s := by
  unfold verifyDone
  cases hq : s.chip.secQ with
  | nil => rfl
  | cons j rest =>
    rw [hq] at h
    exact if_neg (bne_iff_ne.1 h)

/-! ### Licence records (R390, R468) -/

/-- A grant shown for every feature with a quantity (R6, Table 13.21). -/
theorem reg_showGrants {g : Sparse Nat} {n : Nat} (h1 : 1 ≤ n) (h5 : n ≤ 5) (hg : numOf g n ≠ 0) (c : Chip) :
    reg (showGrants g c) (Reg.LIC_GRANT n) = BitVec.ofNat 32 (2 ^ 31 + (if n = 3 ∧ variantOf c = 2 then 1 else numOf g n)) := by
  have hin : n ∈ [1, 2, 3, 4, 5] := by
    simp only [List.mem_cons, List.not_mem_nil, or_false]
    omega
  refine forAll_through (P := fun d => d.fuses = c.fuses)
    (Q := fun d => reg d (Reg.LIC_GRANT n) = BitVec.ofNat 32 (2 ^ 31 + (if n = 3 ∧ variantOf c = 2 then 1 else numOf g n)))
    _ hin (by decide) (fun k _ _ d hd => ?_) (fun d hd => ?_) (fun k _ hk d hd => ?_) c rfl
  · dsimp only
    split
    · exact hd
    · exact hd
  · dsimp only
    have hvariant : variantOf d = variantOf c := by rw [variantOf, hd, variantOf]
    rw [if_neg hg, reg_putNum_same, hvariant]
  · dsimp only
    split
    · exact hd
    · refine (reg_putNum_ne ?_ ..).trans hd
      unfold Reg.LIC_GRANT
      omega

/-- The reason for which the record at the front of the queue is rejected (R468, R475). -/
def licVerdict (x : Sec) (c : Chip) : Nat := if secState c = 2 then 5 else licenceReason x c (licRecord c) (rfld c Reg.LIC_LEN 15 0)

theorem licVerdict_served (x : Sec) (s : State) (rest : List SecJob) : licVerdict x (served s rest).chip = licVerdict x s.chip := by
  unfold licVerdict licenceReason
  rw [objectCode_congr (c' := (served s rest).chip) (c := s.chip) rfl]
  rfl

/-- The grants after the record at the front of the queue is accepted (R6). -/
def withGrants (x : Sec) (c : Chip) : Sec := { x with grants := mergeGrants (licenceEntries (licRecord c)) x.grants }

/-- The chip after an accepted licence record. -/
def grantedChip (x : Sec) (c : Chip) : Chip :=
  c |> putNum Reg.LIC_STATUS (2 * 2 ^ 29) |> putNum Reg.LIC_COUNT (min 255 (rfld c Reg.LIC_COUNT 7 0 + 1))
    |> showGrants x.grants |> raise Reg.SEC_EVENT 1

/-- The chip after a licence record has been rejected with reason `r`. -/
def deniedChip (r : Nat) (c : Chip) : Chip :=
  c |> putNum Reg.LIC_STATUS (3 * 2 ^ 29 + r) |> count Reg.LIC_REJECTED 1 |> raise Reg.SEC_EVENT 1

/-- The end of the verification of the licence record that `c` names. -/
def licJudged (s : State) (c : Chip) : State :=
  if licVerdict s.sec c = 0 then { s with sec := withGrants s.sec c, chip := grantedChip (withGrants s.sec c) c }
  else { s with chip := deniedChip (licVerdict s.sec c) c }

theorem licDone_judges {s : State} {j : SecJob} {rest : List SecJob} (hq : s.chip.secQ = j :: rest) (hsrc : j.src = 3) :
    licDone s = licJudged s (served s rest).chip := by
  unfold licDone
  rw [hq]
  exact if_pos hsrc

theorem showGrants_keeps {a : Nat} (ha : ∀ n, a ≠ Reg.LIC_GRANT n) (g : Sparse Nat) (c : Chip) :
    reg (showGrants g c) a = reg c a ∧ (showGrants g c).secQ = c.secQ := by
  refine forAll_keeps (P := fun d => reg d a = reg c a ∧ d.secQ = c.secQ) _ (fun n _ d hd => ?_) c ⟨rfl, rfl⟩
  dsimp only
  split
  · exact hd
  · exact ⟨(reg_putNum_ne (ha n) ..).trans hd.1, (secQ_putNum ..).trans hd.2⟩

theorem LIC_STATUS_ne_GRANT (n : Nat) : Reg.LIC_STATUS ≠ Reg.LIC_GRANT n := by unfold Reg.LIC_STATUS Reg.LIC_GRANT; omega

theorem grantedChip_facts (x : Sec) (c : Chip) :
    (grantedChip x c).secQ = c.secQ ∧ rflag (grantedChip x c) Reg.SEC_EVENT 1 = true ∧ licState (grantedChip x c) = 2 ∧
      ∀ n, 1 ≤ n → n ≤ 5 → numOf x.grants n ≠ 0 → reg (grantedChip x c) (Reg.LIC_GRANT n) =
        BitVec.ofNat 32 (2 ^ 31 + (if n = 3 ∧ variantOf c = 2 then 1 else numOf x.grants n)) := by
  unfold grantedChip
  refine ⟨?_, rflag_raise _ _ _ (by decide), ?_, fun n h1 h5 hg => ?_⟩
  · rw [raise, setBit, setReg_secQ, (showGrants_keeps LIC_STATUS_ne_GRANT ..).2, secQ_putNum, secQ_putNum]
  · unfold licState
    rw [rfld_congr (reg_raise_ne (by decide) ..), rfld_congr (showGrants_keeps LIC_STATUS_ne_GRANT ..).1,
      rfld_congr (reg_putNum_ne (by decide) ..), rfld, reg_putNum_same]
    decide
  · have hne : Reg.LIC_GRANT n ≠ Reg.SEC_EVENT := by unfold Reg.LIC_GRANT Reg.SEC_EVENT; omega
    rw [reg_raise_ne hne, reg_showGrants h1 h5 hg]
    rfl

theorem deniedChip_facts (r : Nat) (c : Chip) :
    (deniedChip r c).secQ = c.secQ ∧ rflag (deniedChip r c) Reg.SEC_EVENT 1 = true ∧
      reg (deniedChip r c) Reg.LIC_STATUS = BitVec.ofNat 32 (3 * 2 ^ 29 + r) ∧ Advanced Reg.LIC_REJECTED 1 c (deniedChip r c) := by
  unfold deniedChip
  refine ⟨?_, rflag_raise _ _ _ (by decide), ?_, ?_⟩
  · rw [raise, setBit, setReg_secQ, count, setReg_secQ, secQ_putNum]
  · rw [reg_raise_ne (by decide), reg_count_ne (by decide), reg_putNum_same]
  · exact advanced_congr (advanced_of_count (reg_putNum_ne (by decide) ..) rfl) (reg_raise_ne (by decide) ..)

theorem licDone_outcome {s : State} {j : SecJob} {rest : List SecJob} (hq : s.chip.secQ = j :: rest) (hsrc : j.src = 3) :
    let r := licVerdict s.sec s.chip
    ∃ t, CompletesAt .licDone s t ∧ t.chip.secQ = rest ∧ rflag t.chip Reg.SEC_EVENT 1 = true ∧
      (r ≠ 0 → t.sec = s.sec ∧ reg t.chip Reg.LIC_STATUS = BitVec.ofNat 32 (3 * 2 ^ 29 + r) ∧ Advanced Reg.LIC_REJECTED 1 s.chip t.chip) ∧
      (r = 0 → licState t.chip = 2 ∧ t.sec = withGrants s.sec s.chip ∧
        ∀ n, 1 ≤ n → n ≤ 5 → numOf t.sec.grants n ≠ 0 → reg t.chip (Reg.LIC_GRANT n) =
          BitVec.ofNat 32 (2 ^ 31 + (if n = 3 ∧ variantOf s.chip = 2 then 1 else numOf t.sec.grants n))) := by
  intro r
  have hr : licVerdict s.sec (served s rest).chip = r := licVerdict_served ..
  by_cases h : r = 0
  · have hjudged : licJudged s (served s rest).chip = _ := if_pos (hr.trans h)
    obtain ⟨hqueue, hevent, hstate, hshown⟩ := grantedChip_facts (withGrants s.sec (served s rest).chip) (served s rest).chip
    exact ⟨_, completesAt_next rfl ((licDone_judges hq hsrc).trans hjudged) rfl, hqueue, hevent, fun hn => absurd h hn,
      fun _ => ⟨hstate, rfl, hshown⟩⟩
  · have hjudged : licJudged s (served s rest).chip = _ := if_neg (fun h0 => h (hr.symm.trans h0))
    rw [hr] at hjudged
    obtain ⟨hqueue, hevent, hstatus, hadv⟩ := deniedChip_facts r (served s rest).chip
    exact ⟨_, completesAt_next rfl ((licDone_judges hq hsrc).trans hjudged) rfl, hqueue, hevent, fun _ => ⟨rfl, hstatus, hadv⟩,
      fun h0 => absurd h0 h⟩

theorem licDone_waits {s : State} (h : (s.chip.secQ.head?.all (fun j => j.src != 3)) = true) : licDone s = s := by
  unfold licDone
  cases hq : s.chip.secQ with
  | nil => rfl
  | cons j rest =>
    rw [hq] at h
    exact if_neg (bne_iff_ne.1 h)

/-! ### Requests of the image loader (Table 13.14) -/

theorem imgAbort_other {c : Chip} (h1 : imgState c ≠ 1) (h2 : imgState c ≠ 2) : imgAbort c = c := by
  unfold imgAbort
  split
  · exact absurd ‹_› h1
  · exact absurd ‹_› h2
  · rfl

/-- ABORT of an image in verification: code 0x21, and the image is off the queue. -/
theorem imgAbort_of_verifying {c : Chip} (h : imgState c = 1) : imgAbort c =
    raise Reg.SEC_EVENT 0 (verifyFailed 0x21 0 0 { c with secQ := c.secQ.filter (fun j => j.src != 2) }) := by
  simp [imgAbort, h]

theorem imgAbort_verifying_facts {c : Chip} (h : imgState c = 1) :
    reg (imgAbort c) Reg.IMG_STATUS = 0x60000021#32 ∧ (imgAbort c).secQ = c.secQ.filter (fun j => j.src != 2) ∧
      Advanced Reg.IMG_REJECTED 1 c (imgAbort c) ∧ rflag (imgAbort c) Reg.SEC_EVENT 0 = true ∧
      Frame [Reg.IMG_STATUS, Reg.IMG_REJECTED, Reg.SEC_EVENT] [] c { imgAbort c with secQ := c.secQ } := by
  obtain ⟨hstatus, hadv, hqueue⟩ := verifyFailed_facts 0x21 0 0 { c with secQ := c.secQ.filter (fun j => j.src != 2) }
  rw [imgAbort_of_verifying h]
  refine ⟨?_, ?_, advanced_congr hadv (reg_raise_ne (by decide) ..), rflag_raise _ _ _ (by decide), ?_⟩
  · rw [reg_raise_ne (by decide), hstatus]
    decide
  · rw [raise, setBit, setReg_secQ, hqueue]
  · rw [verifyFailed_plain]
    exact frame_raise _ _ (by simp) (frame_count _ _ (by simp) (frame_putNum _ _ (by simp) (frame_refl ..)))

theorem verify_outcome {s : State} (h1 : imgState s.chip ≠ 1) (h2 : imgState s.chip ≠ 2) : ∃ c', Completes .verify s c' ∧
    imgState c' = 1 ∧ c'.secQ = s.chip.secQ ++ [{ src := 2, op := 0, seq := 0 }] ∧ c'.askedGrants = latchGrants s.chip ∧
    Frame [Reg.IMG_STATUS] [] s.chip { c' with secQ := s.chip.secQ, askedGrants := s.chip.askedGrants } := by
  obtain ⟨hstate, hqueue, -, -⟩ := verifyBegin_begins h1 h2
  refine ⟨_, completes_done rfl, hstate, hqueue, ?_, ?_⟩
  · unfold verifyBegin
    rw [if_neg (not_or.2 ⟨h1, h2⟩)]
    rfl
  · unfold verifyBegin
    rw [if_neg (not_or.2 ⟨h1, h2⟩)]
    exact frame_putNum Reg.IMG_STATUS (2 ^ 29) List.mem_cons_self (frame_refl [Reg.IMG_STATUS] [] s.chip)

theorem released_facts (c : Chip) : imgState (setFld Reg.IMG_STATUS 31 29 0 c) = 0 ∧
    Frame [Reg.IMG_STATUS] [] c (setFld Reg.IMG_STATUS 31 29 0 c) :=
  ⟨rfld_setFld _ _ _ _ _ (by decide) (by decide), frame_setFld _ _ _ _ List.mem_cons_self (frame_refl ..)⟩

/-- Settles O51: packages through the mailbox queue; verification and licence records as judged by the front of the queue. -/
theorem firmwareImagesLicences : Obligations.FirmwareImagesLicences := by
  intro s c x
  refine ⟨fun j rest hq hsrc hop hstate => ⟨fun hf => ?_, fun hf hm => ?_⟩, fun h => ?_, verify_outcome,
    fun h => completes_next rfl (verifyDone_waits h), fun j rest hq hsrc => verifyDone_outcome hq hsrc, fun h => ?_, fun h => ?_,
    fun h1 h2 => congrArg (done s) (imgAbort_other h1 h2), fun h => ?_, fun h => ⟨_, completes_done rfl, imgAbort_verifying_facts h⟩,
    fun h => congrArg (done s) (if_pos h), fun h => ?_, fun h => completes_next rfl (licDone_waits h),
    fun j rest hq hsrc => licDone_outcome hq hsrc⟩
  case _ =>
    by_cases hcode : objectCode x c fwType (bufBytes c j.src) (bufLen c j.src) = 0
    · obtain ⟨t, hends, htyp, hslot, hsec⟩ := fwUpdate_accepts hq hsrc hop hstate hf hcode
      refine ⟨t, ?_, fun hn => absurd hcode hn, fun _ => ⟨htyp, hslot, hsec⟩⟩
      change ServiceEnds _ s j rest (objectCode x c fwType (bufBytes c j.src) (bufLen c j.src)) t
      rwa [hcode]
    · obtain ⟨n, hn⟩ := Nat.exists_eq_succ_of_ne_zero hcode
      obtain ⟨t, hends, hsec, herr⟩ := fwUpdate_rejects hq hsrc hop hstate hf hn
      refine ⟨t, ?_, fun _ => ⟨hsec, herr⟩, fun h0 => absurd h0 hcode⟩
      change ServiceEnds _ s j rest (objectCode x c fwType (bufBytes c j.src) (bufLen c j.src)) t
      rwa [hn]
  case _ =>
    intro bad
    by_cases hbad : bad
    · obtain ⟨t, hends, hsec⟩ := fwUpdate_refuses_image hq hsrc hop hstate hf hm hbad
      rw [if_pos hbad]
      exact ⟨t, hends, fun _ => hsec, fun h => absurd hbad h⟩
    · obtain ⟨t, hends, hsec, hcount, hreg⟩ := fwUpdate_stores_image hq hsrc hop hstate hf hm (not_not.1 hbad)
      rw [if_neg hbad]
      exact ⟨t, hends, fun h => absurd h hbad, fun _ => ⟨hsec, hcount, hreg⟩⟩
  case _ =>
    refine ⟨_, congrArg (done s) (verifyBegin_refused h), rflag_setBit_same _ (by decide) _ _,
      rfld_setBit_apart _ (by decide) (by decide) _ _, frame_setBit _ _ _ List.mem_cons_self (frame_refl ..)⟩
  case _ => exact congrArg (done s) (if_neg h)
  case _ => exact ⟨_, congrArg (done s) (if_pos h), released_facts c⟩
  case _ => exact ⟨_, congrArg (done s) (imgAbort_of_verified h), released_facts c⟩
  case _ =>
    obtain ⟨hstate, hqueue, -⟩ := licBegin_queues h
    refine ⟨_, completes_done rfl, hstate, hqueue, ?_⟩
    rw [licBegin_of_free h]
    exact frame_putNum Reg.LIC_STATUS (2 ^ 29) List.mem_cons_self (frame_refl [Reg.LIC_STATUS] [] c)

end Sys2Proof.Machine
end

section
/-!
PROOFS. The LPDDR5X controllers: the scrubber, region registers and training, and the requests of the taps.
-/

namespace Sys2Proof.Machine

open Sys2Proof.Safety

/-! ### What the error of a line depends on (R499) -/

theorem lineError_congr {c c' : Chip} (hs : reg c' Reg.MEM_STATUS = reg c Reg.MEM_STATUS) (he : c'.ecc = c.ecc) (l : Nat) :
    lineError c' l = lineError c l := by
  rw [lineError, lineError, eccIn, eccIn, he, memEcc, memEcc, rflag_congr hs]

theorem lineRead_good {c : Chip} {line : Nat} (h : lineError c line = 0) (m : Nat) (scrub : Bool) : lineRead m scrub line c = c := by
  unfold lineRead
  rw [h]
  rfl

theorem lineRead_corrected {c : Chip} {line : Nat} (h : lineError c line = 1) (m : Nat) (scrub : Bool) :
    lineRead m scrub line c = lineCorrected m line c := by
  unfold lineRead
  rw [h]
  rfl

theorem lineRead_uncorrectable {c : Chip} {line : Nat} (h : lineError c line = 2) (m : Nat) (scrub : Bool) :
    lineRead m scrub line c = lineUe m line scrub c := by
  unfold lineRead
  rw [h]
  rfl

/-- A line whose code is good stays good when marks are taken away. -/
theorem lineError_of_fewer {c c' : Chip} (hs : reg c' Reg.MEM_STATUS = reg c Reg.MEM_STATUS) (p : Nat × Nat → Bool)
    (he : c'.ecc = c.ecc.filter p) {l : Nat} (h : lineError c l = 0) : lineError c' l = 0 := by
  rw [lineError, memEcc, rflag_congr hs]
  rw [lineError, memEcc] at h
  split at h
  · next hm =>
    have hnil : eccIn c (64 * l) 64 = [] := by
      split at h
      · assumption
      · split at h <;> simp at h
      · simp at h
    have : eccIn c' (64 * l) 64 = [] := by
      rw [eccIn, he, List.filter_filter, ← List.filter_filter, List.filter_comm, ← eccIn, hnil, List.filter_nil]
    rw [if_pos hm, this]
  · next hm => rw [if_neg hm]

/-- A line of which every word has new check bits is good: a line holds whole words. -/
theorem lineError_clearEcc (l : Nat) (c : Chip) : lineError (clearEcc (64 * l) 64 c) l = 0 := by
  have hnil : eccIn (clearEcc (64 * l) 64 c) (64 * l) 64 = [] := by
    rw [eccIn, clearEcc, List.filter_filter, List.filter_eq_nil_iff]
    intro p _ h
    simp only [Bool.and_eq_true, decide_eq_true_eq, Bool.not_eq_true', Bool.and_eq_false_iff, decide_eq_false_iff_not] at h
    omega
  unfold lineError
  rw [hnil]
  split <;> rfl

/-! ### The scrubber (R500) -/

/-- What the reading of a line leaves of the store of scrub positions and of the word that shows the controllers. -/
structure ScrubKept (c c' : Chip) : Prop where
  at_ : c'.scrubAt = c.scrubAt
  pass : c'.scrubPass = c.scrubPass

/-- The scrubber of controller `m` moved to the next line. -/
def scrubMoved (m l : Nat) (c : Chip) : Chip := { c with scrubAt := setNum m (l + 1) c.scrubAt }

theorem scrubRead_moves {m : Nat} {c : Chip} (h1 : rflag c Reg.MEM_SCRUB_CFG 31 = true) (h2 : memPresent c m = true)
    (h3 : memServes c m = true) (h4 : memQueue c m = []) (h5 : numOf c.scrubAt m + 1 < memLines c) :
    scrubRead m c = scrubMoved m (numOf c.scrubAt m) (lineRead m true (deviceLine c m (numOf c.scrubAt m)) c) := by
  have hlast : decide (memLines c ≤ numOf c.scrubAt m + 1) = false := decide_eq_false (by omega)
  rw [scrubRead, if_pos (by rw [h1, h2, h3, h4]; rfl)]
  simp only [hlast]
  rfl

theorem reg_scrubMoved (m l : Nat) (c : Chip) (a : Nat) : reg (scrubMoved m l c) a = reg c a := rfl

theorem numOf_scrubMoved (m l : Nat) (c : Chip) : numOf (scrubMoved m l c).scrubAt m = l + 1 :=
  numOf_setNum_same m (l + 1) c.scrubAt

theorem reg_clearEcc (a n : Nat) (c : Chip) (x : Nat) : reg (clearEcc a n c) x = reg c x := rfl

/-- A corrected error: counted, and the line good. -/
theorem lineCorrected_corrects (m line : Nat) (c : Chip) :
    Advanced (Reg.MEM_M_CE m) 1 c (lineCorrected m line c) ∧ lineError (lineCorrected m line c) line = 0 := by
  have hCE : Reg.MEM_M_CE m ≠ Reg.MEM_M_FAULT m := by unfold Reg.MEM_M_CE Reg.MEM_M_FAULT; omega
  have hS1 : Reg.MEM_STATUS ≠ Reg.MEM_M_FAULT m := by unfold Reg.MEM_STATUS Reg.MEM_M_FAULT; omega
  have hS2 : Reg.MEM_STATUS ≠ Reg.MEM_M_CE m := by unfold Reg.MEM_STATUS Reg.MEM_M_CE; omega
  obtain ⟨b, hb⟩ : ∃ b, lineCorrected m line c =
      when_ b (raise (Reg.MEM_M_FAULT m) 1) (count (Reg.MEM_M_CE m) 1 (clearEcc (64 * line) 64 c)) := ⟨_, rfl⟩
  rw [hb]
  constructor
  · refine advanced_of_count (d := clearEcc (64 * line) 64 c) rfl ?_
    cases b
    · rfl
    · exact reg_raise_ne hCE 1 _
  · refine (lineError_congr (c := clearEcc (64 * line) 64 c) ?_ ?_ line).trans (lineError_clearEcc line c)
    · cases b
      · exact reg_count_ne hS2 1 _
      · exact (reg_raise_ne hS1 1 _).trans (reg_count_ne hS2 1 _)
    · cases b <;> rfl

/-- An uncorrectable error: counted, named with the bit `scrub`, and raised. -/
theorem lineUe_records (m line : Nat) (scrub : Bool) (c : Chip) :
    Advanced (Reg.MEM_M_UE m) 1 c (lineUe m line scrub c) ∧ rflag (lineUe m line scrub c) (Reg.MEM_M_FAULT m) 2 = true ∧
      reg (lineUe m line scrub c) (Reg.MEM_M_ERR_ADDR_HI m) = BitVec.ofNat 32 (64 * line / 2 ^ 32) ∧
      reg (lineUe m line scrub c) (Reg.MEM_M_ERR_ADDR_LO m) = BitVec.ofNat 32 (64 * line % 2 ^ 32 + b2n scrub) := by
  have hUF : Reg.MEM_M_UE m ≠ Reg.MEM_M_FAULT m := by unfold Reg.MEM_M_UE Reg.MEM_M_FAULT; omega
  have hUH : Reg.MEM_M_UE m ≠ Reg.MEM_M_ERR_ADDR_HI m := by unfold Reg.MEM_M_UE Reg.MEM_M_ERR_ADDR_HI; omega
  have hUL : Reg.MEM_M_UE m ≠ Reg.MEM_M_ERR_ADDR_LO m := by unfold Reg.MEM_M_UE Reg.MEM_M_ERR_ADDR_LO; omega
  have hHF : Reg.MEM_M_ERR_ADDR_HI m ≠ Reg.MEM_M_FAULT m := by unfold Reg.MEM_M_ERR_ADDR_HI Reg.MEM_M_FAULT; omega
  have hLF : Reg.MEM_M_ERR_ADDR_LO m ≠ Reg.MEM_M_FAULT m := by unfold Reg.MEM_M_ERR_ADDR_LO Reg.MEM_M_FAULT; omega
  have hLH : Reg.MEM_M_ERR_ADDR_LO m ≠ Reg.MEM_M_ERR_ADDR_HI m := by unfold Reg.MEM_M_ERR_ADDR_LO Reg.MEM_M_ERR_ADDR_HI; omega
  unfold lineUe
  generalize 64 * line % 2 ^ 32 + b2n scrub = lo
  generalize 64 * line / 2 ^ 32 = hi
  refine ⟨advanced_of_count (d := c) rfl ?_, rflag_raise _ _ _ (by omega), ?_, ?_⟩
  · exact (reg_raise_ne hUF 2 _).trans ((reg_putNum_ne hUH hi _).trans (reg_putNum_ne hUL lo _))
  · exact (reg_raise_ne hHF 2 _).trans (reg_putNum_same ..)
  · exact (reg_raise_ne hLF 2 _).trans ((reg_putNum_ne hLH hi _).trans (reg_putNum_same ..))

/-! ### Region registers (R511) -/

theorem length_memRegions (c : Chip) : (memRegions c).length = 16 := by simp [memRegions]

/-- A condition on the regions with their numbers, said of the numbers alone. -/
theorem any_zip_range {α : Type} (d : α) (f : α × Nat → Bool) (l : List α) :
    (l.zip (List.range l.length)).any f = (List.range l.length).any (fun i => f (l.getD i d, i)) := by
  rw [Bool.eq_iff_iff, List.any_eq_true, List.any_eq_true]
  constructor
  · rintro ⟨⟨x, i⟩, hm, hf⟩
    obtain ⟨k, hk, he⟩ := List.mem_iff_getElem.1 hm
    rw [List.getElem_zip, List.getElem_range] at he
    obtain ⟨rfl, rfl⟩ := Prod.mk.inj he
    have hl : k < l.length := by simpa using hk
    exact ⟨k, List.mem_range.2 hl, by rwa [List.getD_eq_getElem _ _ hl]⟩
  · rintro ⟨i, hi, hf⟩
    have hl : i < l.length := List.mem_range.1 hi
    refine ⟨(l[i], i), List.mem_iff_getElem.2 ⟨i, by simpa using hl, by rw [List.getElem_zip, List.getElem_range]⟩, ?_⟩
    rwa [List.getD_eq_getElem _ _ hl] at hf

/-- Whether region `n` is locked: a region of KIND 1 while a timebase is enabled. -/
def regionLocked (c : Chip) (n : Nat) : Bool := rfld c (Reg.MEM_REGION_ATTR n) 10 8 == 1 && anyTimebase c

/-- Whether region `n` overlaps another one in `c`. -/
def regionOverlaps (c : Chip) (n : Nat) : Bool :=
  (List.range 16).any (fun i => i != n && regionsMeet ((memRegions c).getD n (0, 0, 0#32)) ((memRegions c).getD i (0, 0, 0#32)))

/-- The register that a word of a region names. -/
def regionAddr (n w : Nat) : Nat := match w with | 0 => Reg.MEM_REGION_BASE n | 1 => Reg.MEM_REGION_SIZE n | _ => Reg.MEM_REGION_ATTR n

/-- The fields of a region's word. -/
def regionMask (w : Nat) : Word := match w with | 0 => 0x1FFFFF#32 | 1 => 0x3FFFFF#32 | _ => 0x80000703#32

theorem regionWrite_eq (n w : Nat) (v : Word) (c : Chip) : regionWrite n w v c =
    if regionLocked c n = true then c
    else if regionOverlaps (setReg (regionAddr n w) (v &&& regionMask w) c) n = true then c
    else setReg (regionAddr n w) (v &&& regionMask w) c := by
  have hz (d : Chip) : ((memRegions d).zip (List.range 16)).any
      (fun r => r.2 != n && regionsMeet ((memRegions d).getD n (0, 0, 0#32)) r.1) = regionOverlaps d n := by
    have := any_zip_range (0, 0, 0#32) (fun r => r.2 != n && regionsMeet ((memRegions d).getD n (0, 0, 0#32)) r.1) (memRegions d)
    rw [length_memRegions] at this
    exact this
  rw [← hz]
  rfl

theorem regionWrite_ignored {n w : Nat} {v : Word} {c : Chip}
    (h : (regionLocked c n || regionOverlaps (setReg (regionAddr n w) (v &&& regionMask w) c) n) = true) : regionWrite n w v c = c := by
  rw [regionWrite_eq]
  rcases Bool.or_eq_true_iff.1 h with h | h
  · rw [if_pos h]
  · rw [if_pos h, ite_self]

theorem regionWrite_writes {n w : Nat} {v : Word} {c : Chip} (hl : regionLocked c n = false)
    (ho : regionOverlaps (setReg (regionAddr n w) (v &&& regionMask w) c) n = false) :
    regionWrite n w v c = setReg (regionAddr n w) (v &&& regionMask w) c := by
  rw [regionWrite_eq, if_neg (by rw [hl]; decide), if_neg (by rw [ho]; decide)]

/-! ### Training (R502) -/

/-- The status of a controller that has been trained. -/
def trainedStatus (m : Nat) (restored : Bool) (c : Chip) : Chip :=
  setBit (Reg.MEM_M_STATUS m) 28 restored (setFld (Reg.MEM_M_STATUS m) 31 29 2 c)

theorem controllerTrained_training {m : Nat} {c : Chip} (h : memState c m = 1) (restored : Bool) :
    controllerTrained m restored c = when_ (restoring c && !restored) (raise (Reg.MEM_M_FAULT m) 3) (trainedStatus m restored c) := by
  rw [controllerTrained, if_pos h]
  rfl

theorem trainedStatus_facts (m : Nat) (restored : Bool) (c : Chip) : memState (trainedStatus m restored c) m = 2 ∧
    rflag (trainedStatus m restored c) (Reg.MEM_M_STATUS m) 28 = restored ∧
    Frame [Reg.MEM_M_STATUS m] [] c (trainedStatus m restored c) :=
  ⟨(rfld_setBit_apart _ (by omega) (.inl (by omega)) _ _).trans (rfld_setFld _ _ _ _ _ (by omega) (by omega)),
    rflag_setBit_same _ (by omega) _ _,
    frame_setBit _ _ _ List.mem_cons_self (frame_setFld _ _ _ _ List.mem_cons_self (frame_refl ..))⟩

/-- The saved values of a controller failed: fault bit 3 beside its status. -/
theorem faultRaised_facts {m : Nat} {restored : Bool} {c d : Chip} (hm : memState d m = 2)
    (hf : rflag d (Reg.MEM_M_STATUS m) 28 = restored) (h : Frame [Reg.MEM_M_STATUS m] [] c d) :
    memState (raise (Reg.MEM_M_FAULT m) 3 d) m = 2 ∧ rflag (raise (Reg.MEM_M_FAULT m) 3 d) (Reg.MEM_M_STATUS m) 28 = restored ∧
      rflag (raise (Reg.MEM_M_FAULT m) 3 d) (Reg.MEM_M_FAULT m) 3 = true ∧
      Frame [Reg.MEM_M_STATUS m, Reg.MEM_M_FAULT m] [] c (raise (Reg.MEM_M_FAULT m) 3 d) := by
  have hne : Reg.MEM_M_STATUS m ≠ Reg.MEM_M_FAULT m := by unfold Reg.MEM_M_STATUS Reg.MEM_M_FAULT; omega
  have hr := reg_raise_ne hne 3 d
  exact ⟨(rfld_congr hr).trans hm, (rflag_congr hr).trans hf, rflag_raise _ _ _ (by omega),
    frame_raise _ _ (List.mem_cons_of_mem _ List.mem_cons_self)
      (frame_mono (fun a ha => by rw [List.mem_singleton.1 ha]; exact List.mem_cons_self) (fun _ h => h) h)⟩

theorem controllerTrained_outcome (m : Fin 4) (restored : Bool) (s : State) (h : memState s.chip m = 1) :
    ∃ c', Completes (.controllerTrained m restored) s c' ∧ memState c' m = 2 ∧ rflag c' (Reg.MEM_M_STATUS m) 28 = restored ∧
    (if restoring s.chip ∧ restored = false then rflag c' (Reg.MEM_M_FAULT m) 3 = true ∧
        Frame [Reg.MEM_M_STATUS m, Reg.MEM_M_FAULT m] [] s.chip c'
      else Frame [Reg.MEM_M_STATUS m] [] s.chip c') := by
  obtain ⟨hm, hf, hfr⟩ := trainedStatus_facts m restored s.chip
  have he := controllerTrained_training h restored
  generalize trainedStatus m restored s.chip = d at hm hf hfr he
  have hdone : Completes (.controllerTrained m restored) s (when_ (restoring s.chip && !restored) (raise (Reg.MEM_M_FAULT m) 3) d) :=
    completes_done (congrArg (done s) he)
  by_cases hr : restoring s.chip = true ∧ restored = false
  · obtain ⟨h1, h2, h3, h4⟩ := faultRaised_facts hm hf hfr
    rw [show (restoring s.chip && !restored) = true by rw [hr.1, hr.2]; rfl] at hdone
    exact ⟨_, hdone, h1, h2, by rw [if_pos hr]; exact ⟨h3, h4⟩⟩
  · have hb : (restoring s.chip && !restored) = false := by
      cases hs : restoring s.chip
      · rfl
      · cases restored
        · exact absurd ⟨hs, rfl⟩ hr
        · rfl
    rw [hb] at hdone
    exact ⟨_, hdone, hm, hf, by rw [if_neg hr]; exact hfr⟩

/-- Settles O30: reading a line falls apart by its error, and a written region is compared with every other one. -/
theorem scrubbingRegionsAndTraining : Obligations.ScrubbingRegionsAndTraining := by
  refine ⟨fun m s h1 h2 h3 h4 h5 => ?_, fun n w v s => ?_, controllerTrained_outcome⟩
  · intro line
    have hdone : Completes (.scrubRead m) s (scrubMoved m (numOf s.chip.scrubAt m) (lineRead m true line s.chip)) :=
      completes_done (congrArg (done s) (scrubRead_moves h1 h2 h3 h4 h5))
    have hat (x : Chip) : numOf (scrubMoved m (numOf s.chip.scrubAt m) x).scrubAt m = numOf s.chip.scrubAt m + 1 := numOf_scrubMoved ..
    refine ⟨fun h => ⟨_, hdone, hat _, ?_⟩, fun h => ⟨_, hdone, hat _, ?_⟩, fun h => ⟨_, hdone, hat _, ?_⟩⟩
    · rw [lineRead_good h]
      exact frame_refl ..
    · rw [lineRead_corrected h]
      obtain ⟨hce, hgood⟩ := lineCorrected_corrects m line s.chip
      exact ⟨hce, (lineError_congr rfl rfl line).trans hgood⟩
    · rw [lineRead_uncorrectable h]
      exact lineUe_records m line true s.chip
  · intro a x rs meets locked
    refine ⟨fun h => completes_done (congrArg (done s) (regionWrite_ignored h)), fun hl hm => ⟨setReg a x s.chip, ?_, ?_, ?_⟩⟩
    · exact completes_done (congrArg (done s) (regionWrite_writes hl hm))
    · exact reg_setReg_same ..
    · exact frame_setReg _ _ List.mem_cons_self (frame_refl ..)

end Sys2Proof.Machine
end

section
/-!
PROOFS. The requests of the taps (R505 to R509): the oldest one is taken, its lines are read or written, and its reply goes out.
-/

namespace Sys2Proof.Machine

open Sys2Proof.Safety

/-! ### Packets on wires, whatever else the chip holds -/

/-- Where what each step of a fold makes of a part of the chip depends on that part alone, so does the fold's. -/
theorem forAll_congr_part {α β : Type} (g : Chip → β) {f : α → Chip → Chip} (l : List α)
    (h : ∀ x c c', g c' = g c → g (f x c') = g (f x c)) {c c' : Chip} (hc : g c' = g c) : g (forAll f l c') = g (forAll f l c) := by
  induction l generalizing c c' with
  | nil => exact hc
  | cons x xs ih => exact ih (h x c c' hc)

theorem wires_putWire_congr (t p : Nat) (f : Flit) {c c' : Chip} (h : c'.wires = c.wires) :
    (putWire t p f c').wires = (putWire t p f c).wires := by
  unfold putWire wire
  rw [h]

theorem wires_memReply_congr (k : Nat) (h : DWord) (st : Nat) (bs : List Byte) {c c' : Chip} (hw : c'.wires = c.wires) :
    (memReply k h st bs c').wires = (memReply k h st bs c).wires := by
  unfold memReply sendPacket
  refine forAll_congr_part Chip.wires _ (fun chunk d d' hd => ?_) hw
  exact forAll_congr_part Chip.wires _ (fun f _ _ he => wires_putWire_congr _ _ f he) hd

/-- A part of the chip that a flit on a wire leaves, a reply leaves. -/
theorem memReply_leaves {β : Type} (g : Chip → β) (h : ∀ t p f c, g (putWire t p f c) = g c) (k : Nat) (hd : DWord) (st : Nat)
    (bs : List Byte) (c : Chip) : g (memReply k hd st bs c) = g c :=
  forAll_leaves g _ (fun _ d => forAll_leaves g _ (fun f e => h _ _ f e) d) c

/-! ### The request that is taken -/

theorem memAccept_idle {m k : Nat} {c : Chip} (h : listOf c.tapIn (8 * k + 3) = []) : memAccept m k c = c := by
  unfold memAccept tapTake
  rw [h]
  exact ite_self c

theorem forAll_memAccept_idle {m : Nat} {c : Chip} (l : List Nat) (h : ∀ k ∈ l, listOf c.tapIn (8 * k + 3) = []) :
    forAll (memAccept m) l c = c :=
  forAll_keeps (P := fun d => d = c) l (fun k hk d hd => by rw [hd, memAccept_idle (h k hk)]) c rfl

/-- The chip whose controller `m` has taken its oldest request off the queue and counted it. -/
def memRequestTaken (m : Nat) (rest : List (Nat × Flit × List Flit)) (c : Chip) : Chip :=
  count (Reg.MEM_M_REQS m) 1 (setMemQueue m rest c)

/-- Registers below those of the controllers themselves, bytes, marks and wires are as they were. -/
structure MemSame (c c' : Chip) : Prop where
  regs : ∀ a, a < 0x200000901000 → reg c' a = reg c a
  bytes : ∀ x, byteAt c' x = byteAt c x
  marks : c'.ecc = c.ecc
  wires : c'.wires = c.wires

theorem memSame_setMemReg {a : Nat} (ha : 0x200000901000 ≤ a) (v : Word) {c d : Chip} (h : MemSame c d) : MemSame c (setReg a v d) where
  regs b hb := (reg_setReg_ne v d (by omega)).trans (h.regs b hb)
  bytes := h.bytes
  marks := h.marks
  wires := h.wires

theorem memSame_refl (c : Chip) : MemSame c c := ⟨fun _ _ => rfl, fun _ => rfl, rfl, rfl⟩

theorem memSame_setMemQueue (m : Nat) (q : List (Nat × Flit × List Flit)) (c : Chip) : MemSame c (setMemQueue m q c) := by
  have h : MemSame c (setFld (Reg.MEM_M_STATUS m) 6 0 (min q.length 127) c) :=
    memSame_setMemReg (by unfold Reg.MEM_M_STATUS; omega) _ (memSame_refl c)
  exact ⟨h.regs, h.bytes, h.marks, h.wires⟩

theorem memSame_memRequestTaken (m : Nat) (rest : List (Nat × Flit × List Flit)) (c : Chip) : MemSame c (memRequestTaken m rest c) :=
  memSame_setMemReg (by unfold Reg.MEM_M_REQS; omega) _ (memSame_setMemQueue m rest c)

theorem memQueue_memRequestTaken (m : Nat) (rest : List (Nat × Flit × List Flit)) (c : Chip) :
    memQueue (memRequestTaken m rest c) m = rest := listOf_setList_same m rest c.memQ

theorem advanced_memRequestTaken (m : Nat) (rest : List (Nat × Flit × List Flit)) (c : Chip) :
    Advanced (Reg.MEM_M_REQS m) 1 c (memRequestTaken m rest c) := by
  have hne : Reg.MEM_M_REQS m ≠ Reg.MEM_M_STATUS m := by unfold Reg.MEM_M_REQS Reg.MEM_M_STATUS; omega
  exact advanced_of_count (d := setMemQueue m rest c) (reg_setReg_ne _ c hne) rfl

/-- What the service of request `h` with body `body` does, once it is taken. -/
def requestServed (m k : Nat) (h : Flit) (body : List Flit) (c : Chip) : Chip :=
  let ds := body.map (fun f => f.data)
  let d := fData (ds.getD 0 0#64)
  let op := rqOp h.data
  if op = 0 ∨ op = 1 then
    if rqMalformed op body then memReply k h.data 3 [] c
    else if op = 0 then serveRead m k h.data (bits d 47 0) (bits d 55 48 + 1) c
    else serveWrite m k h.data (bits d 47 0) ((bodyBytes (ds.drop 1)).take (bits d 55 48 + 1)) c
  else if op = 2 then
    if 2048 < bits d 36 0 % 2048 + (bits d 47 37 + 1) ∨ body.length ≠ 1 then memReply k h.data 3 [] c
    else serveRead m k h.data (bits d 36 0) (bits d 47 37 + 1) c
  else memReply k h.data 3 [] c

theorem memCycle_serves {m k : Nat} {stream : Bool} {h : Flit} {body : List Flit} {rest : List (Nat × Flit × List Flit)} {c : Chip}
    (hs : memServes c m = true) (hq : memQueue c m = (k, h, body) :: rest)
    (hidle : ∀ x ∈ memoryTaps m, listOf c.tapIn (8 * x + 3) = []) (hop : (rqOp h.data == 2) = stream) :
    memCycle m stream c = requestServed m k h body (memRequestTaken m rest c) := by
  unfold memCycle
  rw [forAll_memAccept_idle _ hidle]
  simp only [hs, hq, hop, if_true, beq_self_eq_true]
  rfl

/-! ### Reading (R499) -/

theorem rflag_memSame {c c' : Chip} (h : MemSame c c') {a : Nat} (ha : a < 0x200000901000) (i : Nat) : rflag c' a i = rflag c a i :=
  rflag_congr (h.regs a ha)

theorem memEcc_memSame {c c' : Chip} (h : MemSame c c') : memEcc c' = memEcc c := rflag_memSame h (by decide) 31
theorem memLinear_memSame {c c' : Chip} (h : MemSame c c') : memLinear c' = memLinear c := rflag_memSame h (by decide) 30
theorem memPresent_memSame {c c' : Chip} (h : MemSame c c') (m : Nat) : memPresent c' m = memPresent c m :=
  rflag_memSame h (by decide) _

theorem memRegions_memSame {c c' : Chip} (h : MemSame c c') : memRegions c' = memRegions c := by
  refine List.map_congr_left (fun n hn => ?_)
  have hn : n < 16 := List.mem_range.1 hn
  rw [rfld_congr (h.regs (Reg.MEM_REGION_BASE n) (by unfold Reg.MEM_REGION_BASE; omega)),
    rfld_congr (h.regs (Reg.MEM_REGION_SIZE n) (by unfold Reg.MEM_REGION_SIZE; omega)),
    h.regs (Reg.MEM_REGION_ATTR n) (by unfold Reg.MEM_REGION_ATTR; omega)]

theorem memCheck_memSame {c c' : Chip} (h : MemSame c c') (m a n : Nat) : memCheck c' m a n = memCheck c m a n := by
  unfold memCheck memReach memUsable memController memAllowed
  simp only [memEcc_memSame h, memLinear_memSame h, memPresent_memSame h, memRegions_memSame h]

theorem lineError_memSame {c c' : Chip} (h : MemSame c c') (l : Nat) : lineError c' l = lineError c l :=
  lineError_congr (h.regs _ (by decide)) h.marks l

theorem bytesAt_memSame {c c' : Chip} (h : MemSame c c') (a n : Nat) : bytesAt c' a n = bytesAt c a n := bytesAt_congr h.bytes a n

/-- A read of good lines is counted and changes nothing else. -/
theorem memRead_good {m a n : Nat} {c : Chip} (h : ∀ l ∈ linesOf a n, lineError c l = 0) :
    memRead m a n c = count (Reg.MEM_M_RD_LINES m) (linesOf a n).length c := by
  have hall : forAll (lineRead m false) (linesOf a n) c = c :=
    forAll_keeps (P := fun d => d = c) _ (fun l hl d hd => by rw [hd, lineRead_good (h l hl)]) c rfl
  unfold memRead
  rw [hall]

theorem memReadUe_good {a n : Nat} {c : Chip} (h : ∀ l ∈ linesOf a n, lineError c l = 0) : memReadUe c a n = false := by
  refine List.any_eq_false.2 (fun l hl => ?_)
  rw [h l hl]
  decide

theorem serveRead_good {m k a n : Nat} {h : DWord} {c : Chip} (hc : memCheck c m a n = 0)
    (hl : ∀ l ∈ linesOf a n, lineError c l = 0) : serveRead m k h a n c =
      memReply k h 0 (bytesAt c a n) (count (Reg.MEM_M_RD_LINES m) (linesOf a n).length c) := by
  unfold serveRead
  rw [hc, memReadUe_good hl, memRead_good hl]
  rfl

/-- What a read that has been answered leaves of the request that was taken. -/
theorem readAnswered_facts {m k a n : Nat} {h : DWord} {rest : List (Nat × Flit × List Flit)} {c d : Chip}
    (hd : d = memRequestTaken m rest c) (hc : memCheck c m a n = 0) (hl : ∀ l ∈ linesOf a n, lineError c l = 0) :
    memQueue (serveRead m k h a n d) m = rest ∧ Advanced (Reg.MEM_M_REQS m) 1 c (serveRead m k h a n d) ∧
      wire (serveRead m k h a n d) (tapTile k) 5 4 = wire (memReply k h 0 (bytesAt c a n) c) (tapTile k) 5 4 ∧
      ∀ x, byteAt (serveRead m k h a n d) x = byteAt c x := by
  have hne : Reg.MEM_M_REQS m ≠ Reg.MEM_M_RD_LINES m := by unfold Reg.MEM_M_REQS Reg.MEM_M_RD_LINES; omega
  have hsame : MemSame c d := hd ▸ memSame_memRequestTaken m rest c
  have hq : memQueue d m = rest := by rw [hd, memQueue_memRequestTaken]
  have hadv : Advanced (Reg.MEM_M_REQS m) 1 c d := hd ▸ advanced_memRequestTaken m rest c
  rw [serveRead_good ((memCheck_memSame hsame m a n).trans hc) (fun l hx => (lineError_memSame hsame l).trans (hl l hx)),
    bytesAt_memSame hsame]
  refine ⟨?_, ?_, congrArg (listOf · _) (wires_memReply_congr _ _ _ _ hsame.wires), fun x => ?_⟩
  · exact (memReply_leaves (memQueue · m) (fun _ _ _ _ => rfl) ..).trans hq
  · exact advanced_congr hadv ((memReply_leaves (reg · (Reg.MEM_M_REQS m)) (fun _ _ _ _ => rfl) ..).trans (reg_count_ne hne _ d))
  · exact (memReply_leaves (byteAt · x) (fun _ _ _ _ => rfl) ..).trans (hsame.bytes x)

/-! ### Writing (R499) -/

/-- The part of `bs`, written at `a`, that falls into a line. -/
def linePart (a : Nat) (bs : List Byte) (line : Nat) : List Byte :=
  (bs.drop (max a (64 * line) - a)).take (min (a + bs.length) (64 * line + 64) - max a (64 * line))

/-- A good line with its part of a write stored, before the write is counted. -/
def lineStored (a : Nat) (bs : List Byte) (clears : Bool) (line : Nat) (c : Chip) : Chip :=
  when_ clears (clearEcc (64 * line) 64) (putBytes (max a (64 * line)) (linePart a bs line) c)

theorem lineWrite_good {a line : Nat} {c : Chip} (h : lineError c line = 0) (m : Nat) (bs : List Byte) :
    ∃ clears, lineWrite m a bs line c = count (Reg.MEM_M_WR_LINES m) 1 (lineStored a bs clears line c) := by
  have hread (b : Bool) : when_ b (lineRead m false line) c = c := by
    cases b
    · rfl
    · exact lineRead_good h m false
  refine ⟨decide (min (a + bs.length) (64 * line + 64) - max a (64 * line) = 64) ||
    memEcc (putBytes (max a (64 * line)) (linePart a bs line) c), ?_⟩
  have hu : (lineError c line == 2) = false := by rw [h]; rfl
  unfold lineWrite
  simp only [hu, Bool.and_false, Bool.false_eq_true, if_false, hread]
  have he : memEcc (putBytes (max a (64 * line)) (linePart a bs line) c) = memEcc c := rflag_congr (reg_putBytes ..)
  rw [he]
  rfl

theorem ecc_putBytes (bs : List Byte) (a : Nat) (c : Chip) : (putBytes a bs c).ecc = c.ecc := by
  induction bs generalizing a c with
  | nil => rfl
  | cons b bs ih => rw [putBytes, ih]; rfl

theorem wires_putBytes (bs : List Byte) (a : Nat) (c : Chip) : (putBytes a bs c).wires = c.wires := by
  induction bs generalizing a c with
  | nil => rfl
  | cons b bs ih => rw [putBytes, ih]; rfl

theorem memQ_putBytes (bs : List Byte) (a : Nat) (c : Chip) : (putBytes a bs c).memQ = c.memQ := by
  induction bs generalizing a c with
  | nil => rfl
  | cons b bs ih => rw [putBytes, ih]; rfl

theorem length_linePart (a : Nat) (bs : List Byte) (line : Nat) :
    (linePart a bs line).length = min (a + bs.length) (64 * line + 64) - max a (64 * line) := by
  rw [linePart, List.length_take, List.length_drop]
  omega

/-- Each byte of the write that falls into the line is stored, and no other byte changes. -/
theorem byteAt_lineStored (a : Nat) (bs : List Byte) (clears : Bool) (line : Nat) (c : Chip) (x : Nat) :
    byteAt (lineStored a bs clears line c) x =
      if x / 64 = line ∧ a ≤ x ∧ x < a + bs.length then bs.getD (x - a) 0#8 else byteAt c x := by
  have hb : byteAt (lineStored a bs clears line c) x = byteAt (putBytes (max a (64 * line)) (linePart a bs line) c) x := by
    cases clears <;> rfl
  have hlen := length_linePart a bs line
  rw [hb]
  by_cases hx : x / 64 = line ∧ a ≤ x ∧ x < a + bs.length
  · obtain ⟨hline, hlo, hhi⟩ := hx
    have hin : x - max a (64 * line) < (linePart a bs line).length := by omega
    have hput := byteAt_putBytes_inside (linePart a bs line) (max a (64 * line)) (x - max a (64 * line)) c hin
    rw [show max a (64 * line) + (x - max a (64 * line)) = x by omega] at hput
    rw [if_pos ⟨hline, hlo, hhi⟩, hput, List.getD_eq_getElem _ _ hin, List.getD_eq_getElem _ _ (by omega)]
    simp only [linePart, List.getElem_take, List.getElem_drop]
    congr 1
    omega
  · rw [if_neg hx, byteAt_putBytes_outside _ _ _ _ (by omega)]

/-- A write that has begun on good lines: the lines still to come are good, and wires, queues and registers other than the count of
lines written are as they were. -/
structure WriteRuns (m : Nat) (c c' : Chip) : Prop where
  good : ∀ l, lineError c l = 0 → lineError c' l = 0
  wires : c'.wires = c.wires
  queues : c'.memQ = c.memQ

theorem writeRuns_trans {m : Nat} {c c' c'' : Chip} (h : WriteRuns m c c') (k : WriteRuns m c' c'') : WriteRuns m c c'' :=
  ⟨fun l hl => k.good l (h.good l hl), k.wires.trans h.wires, k.queues.trans h.queues⟩

theorem writeRuns_lineWrite {a line : Nat} {c : Chip} (h : lineError c line = 0) (m : Nat) (bs : List Byte) :
    WriteRuns m c (lineWrite m a bs line c) := by
  obtain ⟨clears, he⟩ := lineWrite_good (a := a) h m bs
  have hne : Reg.MEM_STATUS ≠ Reg.MEM_M_WR_LINES m := by unfold Reg.MEM_STATUS Reg.MEM_M_WR_LINES; omega
  rw [he]
  refine ⟨fun l hl => ?_, ?_, ?_⟩
  · have hreg (d : Chip) (hd : reg d Reg.MEM_STATUS = reg (putBytes (max a (64 * line)) (linePart a bs line) c) Reg.MEM_STATUS) :
        reg (count (Reg.MEM_M_WR_LINES m) 1 d) Reg.MEM_STATUS = reg c Reg.MEM_STATUS :=
      (reg_count_ne hne 1 d).trans (hd.trans (reg_putBytes ..))
    cases clears
    · exact (lineError_congr (hreg _ rfl) (ecc_putBytes ..) l).trans hl
    · exact lineError_of_fewer (hreg (clearEcc (64 * line) 64 _) rfl) _ (congrArg (List.filter _) (ecc_putBytes ..)) hl
  · cases clears <;> exact wires_putBytes ..
  · cases clears <;> exact memQ_putBytes ..

/-- A write of good lines stores each byte once. -/
theorem linesWritten {m a : Nat} {bs : List Byte} (ls : List Nat) {c : Chip} (h : ∀ l ∈ ls, lineError c l = 0) :
    WriteRuns m c (forAll (lineWrite m a bs) ls c) ∧ ∀ x, byteAt (forAll (lineWrite m a bs) ls c) x =
      if x / 64 ∈ ls ∧ a ≤ x ∧ x < a + bs.length then bs.getD (x - a) 0#8 else byteAt c x := by
  induction ls generalizing c with
  | nil => exact ⟨⟨fun _ hl => hl, rfl, rfl⟩, fun x => by rw [if_neg (fun hx => List.not_mem_nil hx.1)]; rfl⟩
  | cons l ls ih =>
    have hl : lineError c l = 0 := h l List.mem_cons_self
    have hruns := writeRuns_lineWrite (a := a) hl m bs
    obtain ⟨hrest, hbytes⟩ := ih (fun k hk => hruns.good k (h k (List.mem_cons_of_mem _ hk)))
    refine ⟨writeRuns_trans hruns hrest, fun x => ?_⟩
    obtain ⟨clears, he⟩ := lineWrite_good (a := a) hl m bs
    have hone : byteAt (lineWrite m a bs l c) x = if x / 64 = l ∧ a ≤ x ∧ x < a + bs.length then bs.getD (x - a) 0#8 else byteAt c x := by
      rw [he]
      exact byteAt_lineStored a bs clears l c x
    rw [forAll_cons, hbytes x, hone]
    by_cases hin : a ≤ x ∧ x < a + bs.length
    · by_cases hm : x / 64 ∈ ls
      · rw [if_pos ⟨hm, hin⟩, if_pos ⟨List.mem_cons_of_mem _ hm, hin⟩]
      · rw [if_neg (fun hx => hm hx.1)]
        exact if_congr (and_congr_left' ⟨fun hx => List.mem_cons.2 (.inl hx), fun hx => (List.mem_cons.1 hx).resolve_right hm⟩) rfl rfl
    · rw [if_neg (fun hx => hin hx.2), if_neg (fun hx => hin hx.2), if_neg (fun hx => hin hx.2)]

theorem mem_linesOf {a n x : Nat} (h1 : a ≤ x) (h2 : x < a + n) : x / 64 ∈ linesOf a n :=
  List.mem_map.2 ⟨x / 64 - a / 64, List.mem_range.2 (by omega), by omega⟩

/-- A write of good lines: its bytes stand at its address, and every other byte stays. -/
theorem memWrite_good {m a : Nat} {bs : List Byte} {c : Chip} (h : ∀ l ∈ linesOf a bs.length, lineError c l = 0) :
    WriteRuns m c (memWrite m a bs c) ∧ (∀ i, i < bs.length → byteAt (memWrite m a bs c) (a + i) = bs.getD i 0#8) ∧
      ∀ x, (x < a ∨ a + bs.length ≤ x) → byteAt (memWrite m a bs c) x = byteAt c x := by
  obtain ⟨hruns, hbytes⟩ := linesWritten (m := m) (a := a) (bs := bs) (linesOf a bs.length) h
  refine ⟨hruns, fun i hi => ?_, fun x hx => ?_⟩
  · have := hbytes (a + i)
    rwa [if_pos ⟨mem_linesOf (by omega) (by omega), by omega, by omega⟩, Nat.add_sub_cancel_left] at this
  · have := hbytes x
    rwa [if_neg (fun hk => by omega)] at this

theorem serveWrite_good {m k a : Nat} {h : DWord} {bs : List Byte} {c : Chip} (hc : memCheck c m a bs.length = 0)
    (hl : ∀ l ∈ linesOf a bs.length, lineError c l = 0) : serveWrite m k h a bs c = memReply k h 0 [] (memWrite m a bs c) := by
  have hue : memWriteUe c a bs.length = false := by
    refine List.any_eq_false.2 (fun l hx => ?_)
    rw [hl l hx, show ((0 : Nat) == 2) = false from rfl, Bool.false_and]
    decide
  unfold serveWrite
  rw [hc, hue]
  rfl

/-- What a write that has been answered leaves of the request that was taken. -/
theorem writeAnswered_facts {m k a : Nat} {h : DWord} {bs : List Byte} {rest : List (Nat × Flit × List Flit)} {c d : Chip}
    (hd : d = memRequestTaken m rest c) (hc : memCheck c m a bs.length = 0) (hl : ∀ l ∈ linesOf a bs.length, lineError c l = 0) :
    memQueue (serveWrite m k h a bs d) m = rest ∧
      (∀ i, i < bs.length → byteAt (serveWrite m k h a bs d) (a + i) = bs.getD i 0#8) ∧
      (∀ x, (x < a ∨ a + bs.length ≤ x) → byteAt (serveWrite m k h a bs d) x = byteAt c x) ∧
      wire (serveWrite m k h a bs d) (tapTile k) 5 4 = wire (memReply k h 0 [] c) (tapTile k) 5 4 := by
  have hsame : MemSame c d := hd ▸ memSame_memRequestTaken m rest c
  have hq : memQueue d m = rest := by rw [hd, memQueue_memRequestTaken]
  have hgood : ∀ l ∈ linesOf a bs.length, lineError d l = 0 := fun l hx => (lineError_memSame hsame l).trans (hl l hx)
  obtain ⟨hruns, hin, hout⟩ := memWrite_good (m := m) hgood
  rw [serveWrite_good ((memCheck_memSame hsame m a _).trans hc) hgood]
  refine ⟨?_, fun i hi => ?_, fun x hx => ?_, congrArg (listOf · _) (wires_memReply_congr _ _ _ _ (hruns.wires.trans hsame.wires))⟩
  · exact (memReply_leaves (memQueue · m) (fun _ _ _ _ => rfl) ..).trans ((congrArg (listOf · m) hruns.queues).trans hq)
  · exact (memReply_leaves (byteAt · (a + i)) (fun _ _ _ _ => rfl) ..).trans (hin i hi)
  · exact (memReply_leaves (byteAt · x) (fun _ _ _ _ => rfl) ..).trans ((hout x hx).trans (hsame.bytes x))

/-! ### The branches of a request (R506, R543) -/

section
variable (m k : Nat) {h : Flit} {body : List Flit} (c : Chip)

theorem requestServed_read (hop : rqOp h.data = 0) (hm : rqMalformed 0 body = false) :
    requestServed m k h body c = serveRead m k h.data (bits (fData ((body.map (fun f => f.data)).getD 0 0#64)) 47 0)
      (bits (fData ((body.map (fun f => f.data)).getD 0 0#64)) 55 48 + 1) c := by
  simp only [requestServed, hop, hm, true_or, if_true, Bool.false_eq_true, if_false]

theorem requestServed_write (hop : rqOp h.data = 1) (hm : rqMalformed 1 body = false) :
    requestServed m k h body c = serveWrite m k h.data (bits (fData ((body.map (fun f => f.data)).getD 0 0#64)) 47 0)
      ((bodyBytes ((body.map (fun f => f.data)).drop 1)).take (bits (fData ((body.map (fun f => f.data)).getD 0 0#64)) 55 48 + 1)) c := by
  simp only [requestServed, hop, hm, or_true, if_true, Bool.false_eq_true, if_false, Nat.one_ne_zero]

theorem requestServed_malformed (hop : rqOp h.data < 2) (hm : rqMalformed (rqOp h.data) body = true) :
    requestServed m k h body c = memReply k h.data 3 [] c := by
  have hor : rqOp h.data = 0 ∨ rqOp h.data = 1 := by omega
  simp only [requestServed, hor, hm, if_true]

theorem requestServed_stream (hop : rqOp h.data = 2) (hb : body.length = 1)
    (hf : bits (fData ((body.map (fun f => f.data)).getD 0 0#64)) 36 0 % 2048 +
      (bits (fData ((body.map (fun f => f.data)).getD 0 0#64)) 47 37 + 1) ≤ 2048) :
    requestServed m k h body c = serveRead m k h.data (bits (fData ((body.map (fun f => f.data)).getD 0 0#64)) 36 0)
      (bits (fData ((body.map (fun f => f.data)).getD 0 0#64)) 47 37 + 1) c := by
  have h01 : ¬ (rqOp h.data = 0 ∨ rqOp h.data = 1) := by omega
  unfold requestServed
  rw [if_neg h01, if_pos hop, if_neg (by omega)]

end

/-- Settles O29: a request without errors is its bytes read or stored, then its reply on the wire of its tap. -/
theorem memoryRequests : Obligations.MemoryRequests := by
  intro m s k h body rest hs hq hidle ds d a n bs
  have hdone (stream : Bool) (hop : (rqOp h.data == 2) = stream) :
      memCycle m stream s.chip = requestServed m k h body (memRequestTaken m rest s.chip) := memCycle_serves hs hq hidle hop
  refine ⟨fun hop hm hc hl => ⟨_, ?_, readAnswered_facts (k := k) (h := h.data) rfl hc hl⟩, fun hop hm hn hc hl => ?_, fun hop hm => ?_,
    fun hop hb hf hc hl => ?_⟩
  · exact completes_done (congrArg (done s) ((hdone false (by rw [hop]; rfl)).trans (requestServed_read m k _ hop hm)))
  · rw [← hn] at hc hl
    obtain ⟨h1, h2, h3, h4⟩ := writeAnswered_facts (k := k) (h := h.data) (rest := rest) rfl hc hl
    rw [hn] at h2 h3
    exact ⟨_, completes_done (congrArg (done s) ((hdone false (by rw [hop]; rfl)).trans (requestServed_write m k _ hop hm))), h1, h2, h3, h4⟩
  · have hsame := memSame_memRequestTaken m rest s.chip
    refine ⟨memReply k h.data 3 [] (memRequestTaken m rest s.chip), ?_, ?_, ?_, congrArg (listOf · _) (wires_memReply_congr _ _ _ _ hsame.wires),
      fun x => ?_⟩
    · refine completes_done (congrArg (done s) ((hdone false ?_).trans (requestServed_malformed m k _ hop hm)))
      exact beq_false_of_ne (by omega)
    · exact (memReply_leaves (memQueue · m) (fun _ _ _ _ => rfl) ..).trans (memQueue_memRequestTaken m rest s.chip)
    · exact advanced_congr (advanced_memRequestTaken m rest s.chip) (memReply_leaves (reg · (Reg.MEM_M_REQS m)) (fun _ _ _ _ => rfl) ..)
    · exact (memReply_leaves (byteAt · x) (fun _ _ _ _ => rfl) ..).trans (hsame.bytes x)
  · obtain ⟨h1, -, h3, -⟩ := readAnswered_facts (k := k) (h := h.data) (rest := rest) rfl hc hl
    exact ⟨_, completes_done (congrArg (done s) ((hdone true (by rw [hop]; rfl)).trans (requestServed_stream m k _ hop hb hf))), h1, h3⟩

end Sys2Proof.Machine
end

section
/-!
PROOFS. The bring-up of a fabric link (R317): where RETRAIN_FAIL does not leave the link in its failed state.
-/

namespace Sys2Proof.Machine

open Sys2Proof.Safety

/-- A channel number past the ten of a link: its credit of link 0 has the address of the status of link 1. -/
def statusFvc : Nat := 16369

/-- Link 0 is up, and link 1, which retrains, has a flit for the channel `statusFvc` queued. -/
def strayRetrain : State :=
  { State.reset with chip :=
    { registersOf [(Reg.NLK_STATUS 0, 0x60000000), (Reg.NLK_STATUS 1, 0x80000001)] with
      links := [(1, { queue := [{ fvc := statusFvc, flit := 0#64, tb := none, epoch := none }] })] } }

theorem statusFvc_credits_status : Reg.NLK_CREDIT 0 statusFvc = Reg.NLK_STATUS 1 := rfl

theorem strayRetrain_retrains : linkState strayRetrain.chip 1 = 4 := by decide +kernel

/-- The flit moves to link 0 and leaves on it, and the credit it takes writes 0 over the failed state. -/
theorem state_after_retrainFail : linkState (chipAfter (.retrainFail 1) strayRetrain) 1 = 0 := by decide +kernel

/-- Refutes O41: the statement speaks of every state, and in `strayRetrain` RETRAIN_FAIL leaves link 1 down in state 0, since the
flit moved to link 0 takes its credit from the status of link 1. -/
theorem not_linkBringUp : ¬ Obligations.LinkBringUp := by
  unfold Obligations.LinkBringUp
  intro h
  obtain ⟨-, -, -, -, -, -, -, -, hfail, -⟩ := h 1 strayRetrain
  obtain ⟨c', hc, hstate, -⟩ := hfail strayRetrain_retrains
  rw [← chipAfter_of_completes hc] at hstate
  exact absurd (state_after_retrainFail.symm.trans hstate) (by decide)

end Sys2Proof.Machine
end

section
/-!
PROOFS. The links of the fabric: what a link holds after its own and another link's updates, and what sending leaves of every link
and of the rest of the chip (R313 to R316).
-/

namespace Sys2Proof.Machine

open Sys2Proof.Safety

/-! ### One link -/

@[simp] theorem linkAt_modLink_same (e : Nat) (f : Link → Link) (c : Chip) : linkAt (modLink e f c) e = f (linkAt c e) := by
  simp [linkAt, modLink]

theorem linkAt_modLink_ne {e k : Nat} (f : Link → Link) (c : Chip) (h : k ≠ e) : linkAt (modLink e f c) k = linkAt c k := by
  simp [linkAt, modLink, mapGet_mapPut_ne _ _ _ h]

@[simp] theorem linkAt_setReg (a : Nat) (v : Word) (c : Chip) (k : Nat) : linkAt (setReg a v c) k = linkAt c k := rfl

@[simp] theorem reg_modLink (e : Nat) (f : Link → Link) (c : Chip) (a : Nat) : reg (modLink e f c) a = reg c a := rfl

theorem frame_modLink {as ts : List Nat} {c d : Chip} (e : Nat) (f : Link → Link) (h : Frame as ts c { d with links := c.links }) :
    Frame as ts c { modLink e f d with links := c.links } := h

theorem out_sendFrame (e ftype seq : Nat) (slots : List DWord) (c : Chip) :
    (linkAt (sendFrame e ftype seq slots c) e).out.length = (linkAt c e).out.length + 1 := by
  simp [sendFrame]

theorem reg_sendFrame (e ftype seq : Nat) (slots : List DWord) (c : Chip) (a : Nat) :
    reg (sendFrame e ftype seq slots c) a = reg c a := rfl

/-! ### What sending leaves

Sending changes a link's sequence number, its waiting and unacknowledged flits, the credits it owes and the frames it has sent. -/

/-- The parts of a link that sending leaves. -/
def Link.kept (L : Link) : Link := { L with txSeq := 0, retry := [], queue := [], owed := [], out := [] }

/-- Nothing but registers and the sending parts of the links has changed. -/
structure OnlySends (c c' : Chip) : Prop where
  rest : c' = { c with regs := c'.regs, links := c'.links }
  links : ∀ k, (linkAt c' k).kept = (linkAt c k).kept

theorem onlySends_refl (c : Chip) : OnlySends c c := ⟨rfl, fun _ => rfl⟩

theorem onlySends_trans {c c' c'' : Chip} (h : OnlySends c c') (k : OnlySends c' c'') : OnlySends c c'' :=
  ⟨by rw [k.rest, h.rest], fun i => (k.links i).trans (h.links i)⟩

theorem onlySends_setReg {c d : Chip} (a : Nat) (v : Word) (h : OnlySends c d) : OnlySends c (setReg a v d) :=
  ⟨by rw [h.rest]; rfl, h.links⟩

theorem onlySends_modLink {c d : Chip} (e : Nat) {f : Link → Link} (hf : ∀ L, (f L).kept = L.kept) (h : OnlySends c d) :
    OnlySends c (modLink e f d) := by
  refine ⟨by rw [h.rest]; rfl, fun k => ?_⟩
  by_cases hk : k = e
  · rw [hk, linkAt_modLink_same, hf, h.links]
  · rw [linkAt_modLink_ne f d hk, h.links]

theorem onlySends_sendFrame {c d : Chip} (e ftype seq : Nat) (slots : List DWord) (h : OnlySends c d) :
    OnlySends c (sendFrame e ftype seq slots d) := onlySends_modLink e (fun _ => rfl) h

theorem onlySends_takeSlots (e n : Nat) {c d : Chip} (h : OnlySends c d) : OnlySends c (takeSlots e n d).2 := by
  induction n generalizing d with
  | zero => exact h
  | succ n ih =>
    unfold takeSlots
    split
    · exact h
    · exact ih (onlySends_setReg _ _ (onlySends_modLink e (fun _ => rfl) h))

theorem onlySends_sendData (e n : Nat) {c d : Chip} (h : OnlySends c d) : OnlySends c (sendData e n d) := by
  induction n generalizing d with
  | zero => exact h
  | succ n ih =>
    have hs := onlySends_takeSlots e 3 h
    unfold sendData
    split
    · split
      · exact h
      · next heq =>
        rw [heq] at hs
        exact ih (onlySends_setReg _ _ (onlySends_setReg _ _ (onlySends_modLink e (fun _ => rfl) (onlySends_sendFrame e _ _ _ hs))))
    · exact h

theorem onlySends_pump (e : Nat) {c d : Chip} (h : OnlySends c d) : OnlySends c (pump e d) := onlySends_sendData e _ h

theorem onlySends_fabQueue {k d l : Nat} {by_ : Option (Nat × Nat)} {tb : Option Nat} {fs : List (DWord × Bool × Bool × Bool)}
    {c c1 c' : Chip} (h : OnlySends c c1) (hq : fabQueue k d l by_ tb fs c1 = some c') : OnlySends c c' := by
  obtain ⟨e, -, rfl⟩ := Option.map_eq_some_iff.1 hq
  exact onlySends_pump e (onlySends_modLink e (fun _ => rfl) h)

theorem onlySends_fabQueue_getD (k d l : Nat) (by_ : Option (Nat × Nat)) (tb : Option Nat) (fs : List (DWord × Bool × Bool × Bool))
    {c c1 : Chip} (h : OnlySends c c1) : OnlySends c ((fabQueue k d l by_ tb fs c1).getD c1) := by
  cases hq : fabQueue k d l by_ tb fs c1 with
  | none => exact h
  | some c' => exact onlySends_fabQueue h hq

theorem gw_of_onlySends {c c' : Chip} (h : OnlySends c c') : c'.gw = c.gw := by rw [h.rest]
theorem fabJobs_of_onlySends {c c' : Chip} (h : OnlySends c c') : c'.fabJobs = c.fabJobs := by rw [h.rest]

theorem rxAt_of_onlySends {c c' : Chip} (h : OnlySends c c') (e v : Nat) : rxAt c' e v = rxAt c e v := by
  have hk := congrArg (fun L => listOf (Link.rx L) v) (h.links e)
  exact hk

/-! ### Receive buffers (R316) -/

theorem rxAt_setRx_same (e v : Nat) (l : List DWord) (c : Chip) : rxAt (setRx e v l c) e v = l := by
  unfold rxAt setRx
  rw [putNum, linkAt_setReg, linkAt_modLink_same]
  exact listOf_setList_same v l _

theorem rxAt_setRx_ne {e v u : Nat} (h : u ≠ v) (l : List DWord) (c : Chip) : rxAt (setRx e v l c) e u = rxAt c e u := by
  unfold rxAt setRx
  rw [putNum, linkAt_setReg, linkAt_modLink_same]
  exact listOf_setList_ne l _ h

/-- A flit leaves its receive buffer. -/
theorem rxAt_popRx (e v n : Nat) (c : Chip) : rxAt (popRx e v n c) e v = (rxAt c e v).drop n := by
  have h : rxAt (popRx e v n c) e v = rxAt (setRx e v ((rxAt c e v).drop n) c) e v := by
    unfold popRx sendFrame rxAt
    rw [linkAt_modLink_same, linkAt_modLink_same]
  rw [h, rxAt_setRx_same]

theorem reg_popRx {a : Nat} {e v : Nat} (h : a ≠ Reg.NLK_RXOCC e v) (n : Nat) (c : Chip) : reg (popRx e v n c) a = reg c a := by
  unfold popRx setRx
  rw [reg_sendFrame, reg_modLink, reg_putNum_ne h, reg_modLink]

/-- A flit that leaves a receive buffer changes links and the buffer's length alone. -/
theorem popRx_rest (e v n : Nat) (c : Chip) : popRx e v n c = { c with regs := (popRx e v n c).regs, links := (popRx e v n c).links } := rfl

theorem RXOCC_lt {e v : Nat} (he : e < 8) (hv : v < 10) : Reg.NLK_RXOCC e v < Reg.GW_TOPO := by
  unfold Reg.NLK_RXOCC Reg.GW_TOPO
  omega

/-- A register of the gateways stays when a flit leaves a receive buffer. -/
theorem reg_popRx_gateway {a e v : Nat} (he : e < 8) (hv : v < 10) (ha : Reg.GW_TOPO ≤ a) (n : Nat) (c : Chip) :
    reg (popRx e v n c) a = reg c a := by
  have := RXOCC_lt he hv
  exact reg_popRx (by omega) n c

end Sys2Proof.Machine
end

section
/-!
PROOFS. Settles O44: FENCE and END marks (R326, R334), the gateways' tables (R339) and the time-out of a reduction (R333).
-/

namespace Sys2Proof.Machine

open Sys2Proof.Safety

/-! ### FENCE marks (R326) -/

/-- With nothing in reassembly there is nothing to inject. -/
theorem injectAll_empty {c : Chip} (h : c.gw.reasm = []) : injectAll c = c := by
  have hp : pumpReasm [] [] c = c := by
    unfold pumpReasm modGw
    rw [← h]
  unfold injectAll injectRounds
  simp only [h, hp, List.length_nil, Nat.lt_irrefl, if_false]

/-- A FENCE mark that has come for this device kept. -/
def fenceKept (e : Nat) (f : DWord) (G : Gateway) : Gateway :=
  { G with stamp := G.stamp + 1, fmarks := G.fmarks ++ [{ dir := e / 2, lane := kPar f, no := G.stamp, mark := f }] }

theorem fenceMarkRx_keeps {e v : Nat} {c : Chip} {f : DWord} {rest : List DWord} (hrx : rxAt c e v = f :: rest) (hm : isMark f = true)
    (hk : kType f = 0) (hd : mDest f = ownId c) (hr : c.gw.reasm = []) : fenceMarkRx e v c = modGw (fenceKept e f) (popRx e v 1 c) := by
  unfold fenceMarkRx
  rw [hrx]
  simp only [hm, hk, hd, beq_self_eq_true, Bool.and_self, if_true]
  exact injectAll_empty hr

/-! ### END marks (R334) -/

@[simp] theorem fabJob_modFab_same (j : Nat) (f : FabJob → FabJob) (c : Chip) : fabJob (modFab j f c) j = f (fabJob c j) := by
  simp [fabJob, modFab]

theorem fabJob_modFab_ne {j k : Nat} (f : FabJob → FabJob) (c : Chip) (h : k ≠ j) : fabJob (modFab j f c) k = fabJob c k := by
  simp [fabJob, modFab, mapGet_mapPut_ne _ _ _ h]

/-- The marks that the jobs have counted and the receive buffers are as they were. -/
structure MarksKept (c c' : Chip) : Prop where
  marks : ∀ k, (fabJob c' k).marks = (fabJob c k).marks
  rx : ∀ e v, rxAt c' e v = rxAt c e v

theorem marksKept_refl (c : Chip) : MarksKept c c := ⟨fun _ => rfl, fun _ _ => rfl⟩

theorem marksKept_trans {c c' c'' : Chip} (h : MarksKept c c') (k : MarksKept c' c'') : MarksKept c c'' :=
  ⟨fun j => (k.marks j).trans (h.marks j), fun e v => (k.rx e v).trans (h.rx e v)⟩

theorem marksKept_of_onlySends {c c' : Chip} (h : OnlySends c c') : MarksKept c c' :=
  ⟨fun k => by rw [fabJob, fabJobs_of_onlySends h]; rfl, fun e v => rxAt_of_onlySends h e v⟩

theorem marksKept_sendEnd (j par phase d hops : Nat) (c : Chip) : MarksKept c (sendEnd j par phase d hops c) := by
  unfold sendEnd
  split
  · exact marksKept_refl c
  · exact marksKept_of_onlySends (forAll_keeps (P := OnlySends c) _ (fun l _ x hx => onlySends_fabQueue_getD 0 d l none none _ hx) c
      (onlySends_refl c))

theorem marksKept_sendEnds (j par phase : Nat) (c : Chip) : MarksKept c (sendEnds j par phase c) := by
  have h1 (m : Sparse Bool) : MarksKept c (modFab j (fun F => { F with sent := m }) c) := by
    refine ⟨fun k => ?_, fun _ _ => rfl⟩
    by_cases hk : k = j
    · rw [hk, fabJob_modFab_same]
    · rw [fabJob_modFab_ne _ c hk]
  have h2 : MarksKept c (modFab j (fun F => { F with sent := mapPut (fun _ => false) F.sent (2 * phase + par) true }) c) := h1 _
  exact marksKept_trans (marksKept_trans h2 (marksKept_sendEnd ..)) (marksKept_sendEnd ..)

theorem marksKept_ite {p : Prop} [Decidable p] {c x y : Chip} (hx : MarksKept c x) (hy : MarksKept c y) :
    MarksKept c (if p then x else y) := by
  split
  · exact hx
  · exact hy

theorem marksKept_ownEnds (j : Nat) (c : Chip) : MarksKept c (ownEnds j c) := by
  unfold ownEnds jobRect
  refine marksKept_ite (marksKept_refl c) (marksKept_trans (c' := if marksSent c j 0 (tbAt c (jobAt c j).tb).parity then c
    else sendEnds j (tbAt c (jobAt c j).tb).parity 0 c) ?_ ?_)
  · exact marksKept_ite (marksKept_refl c) (marksKept_sendEnds ..)
  · exact marksKept_ite (marksKept_sendEnds ..) (marksKept_refl _)

theorem marksKept_noteFabric (j now : Nat) (c : Chip) : MarksKept c (noteFabric j now c) :=
  marksKept_ite ⟨fun _ => rfl, fun _ _ => rfl⟩ (marksKept_refl c)

theorem marksKept_noteFabrics (now : Nat) (c : Chip) : MarksKept c (noteFabrics now c) := by
  have hends : MarksKept c (allEnds c) :=
    forAll_keeps (P := MarksKept c) _ (fun j _ x hx => marksKept_trans hx (marksKept_ownEnds j x)) c (marksKept_refl c)
  exact forAll_keeps (P := MarksKept c) _ (fun j _ x hx => marksKept_trans hx (marksKept_noteFabric j now x)) _ hends

/-- The count of END marks of job `j` under `key` moved on. -/
def markCounted (j key : Nat) (c : Chip) : Chip :=
  modFab j (fun F => { F with marks := setNum key (numOf F.marks key + 1) F.marks }) c

theorem numOf_marks_markCounted (j key e v n : Nat) (c : Chip) :
    numOf (fabJob (markCounted j key (popRx e v n c)) j).marks key = numOf (fabJob c j).marks key + 1 := by
  rw [markCounted, fabJob_modFab_same]
  exact numOf_setNum_same key (numOf (fabJob c j).marks key + 1) (fabJob c j).marks

/-- An END mark of a job that runs here: counted, off its receive buffer, and nothing that follows takes either back. -/
theorem endMarkRx_counts {e v now : Nat} {c : Chip} {f : DWord} {rest : List DWord}
    (hrx : rxAt c e v = f :: rest) (hm : isMark f = true) (hk : kType f = 1) (hj : jobInFabric c (jobOfTb c (kTb f)) = true) :
    MarksKept (markCounted (jobOfTb c (kTb f)) (2 * kItem f + kDir f) (popRx e v 1 c)) (endMarkRx e v now c) := by
  have hforward (x : Chip) (b : Bool) (d l : Nat) (g : DWord) : MarksKept x
      (when_ b (fun x => (fabQueue 0 d l (some (e / 2, v % 2)) none (single g) x).getD x) x) := by
    cases b
    · exact marksKept_refl x
    · exact marksKept_of_onlySends (onlySends_fabQueue_getD 0 d l _ _ _ (onlySends_refl x))
  unfold endMarkRx
  rw [hrx]
  simp only [hm, hk, beq_self_eq_true, Bool.and_self, if_true]
  rw [hj]
  exact marksKept_trans (hforward ..) (marksKept_noteFabrics ..)

/-! ### Tables (R339) -/

theorem rfld_setReg_ne {a b : Nat} (h : b ≠ a) (v : Word) (hi lo : Nat) (c : Chip) : rfld (setReg a v c) b hi lo = rfld c b hi lo :=
  rfld_congr (reg_setReg_ne v c h)

theorem entryAt_mapPut_same (m : Sparse DWord) (k : Nat) (x : DWord) : entryAt (mapPut (fun _ => 0#64) m k x) k = x := by
  simp [entryAt]

theorem entryAt_mapPut_ne {k i : Nat} (m : Sparse DWord) (x : DWord) (h : i ≠ k) :
    entryAt (mapPut (fun _ => 0#64) m k x) i = entryAt m i := by
  simp [entryAt, mapGet_mapPut_ne _ _ _ h]

/-- The key table's entry at `k` written, in both copies. -/
def keyPut (k : Nat) (x : DWord) (G : Gateway) : Gateway :=
  { G with keyTable := mapPut (fun _ => 0#64) G.keyTable k x, ktMark := setNum k 0 (setNum (524288 + k) 0 G.ktMark) }

/-- The outbound tables' entry at `k` written. -/
def outPut (k : Nat) (x : DWord) (G : Gateway) : Gateway := { G with outTable := mapPut (fun _ => 0#64) G.outTable k x }

theorem tableCommit_key (v : Word) (c : Chip) : tableCommit false v c = stepIndex false
    (modGw (keyPut (ktPos c) (joinWords (reg c Reg.GW_KT_DATA_LO) v)) (setReg Reg.GW_KT_DATA_HI v c)) := by
  have hpos : ktPos (setReg Reg.GW_KT_DATA_HI v c) = ktPos c := rfld_setReg_ne (by decide) ..
  have hlo : reg (setReg Reg.GW_KT_DATA_HI v c) Reg.GW_KT_DATA_LO = reg c Reg.GW_KT_DATA_LO := reg_setReg_ne v c (by decide)
  rw [← hpos, ← hlo]
  rfl

theorem tableCommit_out (v : Word) (c : Chip) : tableCommit true v c = stepIndex true
    (modGw (outPut (outPos c) (joinWords (reg c Reg.GW_OUT_DATA_LO) v)) (setReg Reg.GW_OUT_DATA_HI v c)) := by
  have hpos : outPos (setReg Reg.GW_OUT_DATA_HI v c) = outPos c := rfld_setReg_ne (by decide) ..
  have hlo : reg (setReg Reg.GW_OUT_DATA_HI v c) Reg.GW_OUT_DATA_LO = reg c Reg.GW_OUT_DATA_LO := reg_setReg_ne v c (by decide)
  rw [← hpos, ← hlo]
  rfl

theorem frame_stepIndex {as ts : List Nat} {c d : Chip} {G : Gateway} (out : Bool)
    (ha : (if out then Reg.GW_OUT_ADDR else Reg.GW_KT_ADDR) ∈ as) (h : Frame as ts c { d with gw := G }) :
    Frame as ts c { stepIndex out d with gw := G } := by
  cases out
  · exact frame_setFld (c' := { d with gw := G }) _ _ _ _ ha h
  · exact frame_setFld (c' := { d with gw := G }) _ _ _ _ ha h

theorem rfld_stepIndex_key (c : Chip) : rfld (stepIndex false c) Reg.GW_KT_ADDR 17 0 = (rfld c Reg.GW_KT_ADDR 17 0 + 1) % 2 ^ 18 :=
  rfld_setFld _ _ _ _ _ (by decide) (by decide)

theorem rfld_stepIndex_out (c : Chip) : rfld (stepIndex true c) Reg.GW_OUT_ADDR 14 0 = (rfld c Reg.GW_OUT_ADDR 14 0 + 1) % 2 ^ 15 :=
  rfld_setFld _ _ _ _ _ (by decide) (by decide)

theorem rfld_modGw (f : Gateway → Gateway) (c : Chip) (a hi lo : Nat) : rfld (modGw f c) a hi lo = rfld c a hi lo := rfl

theorem gw_stepIndex (out : Bool) (c : Chip) : (stepIndex out c).gw = c.gw := by cases out <;> rfl

theorem numOf_keyPut (k : Nat) (x : DWord) (G : Gateway) :
    numOf (keyPut k x G).ktMark k = 0 ∧ numOf (keyPut k x G).ktMark (524288 + k) = 0 := by
  refine ⟨numOf_setNum_same k 0 _, ?_⟩
  exact (numOf_setNum_ne 0 _ (by omega)).trans (numOf_setNum_same (524288 + k) 0 _)

theorem keyCommit_outcome (v : Word) (s : State) : ∃ c', Completes (.gwTableCommit false v) s c' ∧
    entryAt c'.gw.keyTable (ktPos s.chip) = joinWords (reg s.chip Reg.GW_KT_DATA_LO) v ∧
    (∀ k, k ≠ ktPos s.chip → entryAt c'.gw.keyTable k = entryAt s.chip.gw.keyTable k) ∧
    numOf c'.gw.ktMark (ktPos s.chip) = 0 ∧ numOf c'.gw.ktMark (524288 + ktPos s.chip) = 0 ∧
    rfld c' Reg.GW_KT_ADDR 17 0 = (rfld s.chip Reg.GW_KT_ADDR 17 0 + 1) % 2 ^ 18 ∧
    Frame [Reg.GW_KT_DATA_HI, Reg.GW_KT_ADDR] [] s.chip { c' with gw := s.chip.gw } := by
  refine ⟨_, completes_done (congrArg (done s) (tableCommit_key v s.chip)), ?_⟩
  generalize joinWords (reg s.chip Reg.GW_KT_DATA_LO) v = x
  generalize ktPos s.chip = p
  rw [gw_stepIndex]
  refine ⟨entryAt_mapPut_same .., fun k hk => entryAt_mapPut_ne _ _ hk, (numOf_keyPut p x _).1, (numOf_keyPut p x _).2, ?_, ?_⟩
  · rw [rfld_stepIndex_key, rfld_modGw, rfld_setReg_ne (by decide)]
  · exact frame_stepIndex false (List.mem_cons_of_mem _ List.mem_cons_self) (frame_setReg _ _ List.mem_cons_self (frame_refl _ _ s.chip))

theorem outCommit_outcome (v : Word) (s : State) : ∃ c', Completes (.gwTableCommit true v) s c' ∧
    entryAt c'.gw.outTable (outPos s.chip) = joinWords (reg s.chip Reg.GW_OUT_DATA_LO) v ∧
    (∀ k, k ≠ outPos s.chip → entryAt c'.gw.outTable k = entryAt s.chip.gw.outTable k) ∧
    rfld c' Reg.GW_OUT_ADDR 14 0 = (rfld s.chip Reg.GW_OUT_ADDR 14 0 + 1) % 2 ^ 15 ∧
    Frame [Reg.GW_OUT_DATA_HI, Reg.GW_OUT_ADDR] [] s.chip { c' with gw := s.chip.gw } := by
  refine ⟨_, completes_done (congrArg (done s) (tableCommit_out v s.chip)), ?_⟩
  generalize joinWords (reg s.chip Reg.GW_OUT_DATA_LO) v = x
  generalize outPos s.chip = p
  rw [gw_stepIndex]
  refine ⟨entryAt_mapPut_same .., fun k hk => entryAt_mapPut_ne _ _ hk, ?_, ?_⟩
  · rw [rfld_stepIndex_out, rfld_modGw, rfld_setReg_ne (by decide)]
  · exact frame_stepIndex true (List.mem_cons_of_mem _ List.mem_cons_self) (frame_setReg _ _ List.mem_cons_self (frame_refl _ _ s.chip))

theorem toNat_ofNat_of_lt {n : Nat} (h : n < 2 ^ 64) : (BitVec.ofNat 64 n).toNat = n := by
  rw [BitVec.toNat_ofNat, Nat.mod_eq_of_lt h]

theorem tableRead_low (out : Bool) (s : State) :
    let x := if out then entryAt s.chip.gw.outTable (outPos s.chip) else entryAt s.chip.gw.keyTable (ktPos s.chip)
    ∃ c', Completes (.gwTableRead out false) s c' ∧ c'.readOut.toNat = x.toNat % 2 ^ 32 ∧
      (if out then c'.gw.outLatch else c'.gw.ktLatch) = x ∧
      Frame [] [] s.chip { c' with gw := s.chip.gw, readOut := s.chip.readOut } := by
  intro x
  have hx : x.toNat % 2 ^ 32 < 2 ^ 64 := by omega
  refine ⟨tableRead out false s.chip, rfl, ?_, ?_, frame_refl ..⟩
  · exact toNat_ofNat_of_lt hx
  · cases out <;> rfl

theorem tableRead_high (out : Bool) (s : State) : ∃ c', Completes (.gwTableRead out true) s c' ∧
    c'.readOut.toNat = (if out then s.chip.gw.outLatch else s.chip.gw.ktLatch).toNat / 2 ^ 32 ∧
    Frame [if out then Reg.GW_OUT_ADDR else Reg.GW_KT_ADDR] [] s.chip { c' with readOut := s.chip.readOut } := by
  have hx : (if out then s.chip.gw.outLatch else s.chip.gw.ktLatch).toNat / 2 ^ 32 < 2 ^ 64 := by omega
  refine ⟨tableRead out true s.chip, rfl, ?_, ?_⟩
  · cases out <;> exact toNat_ofNat_of_lt hx
  · cases out <;> exact frame_setFld (c' := s.chip) _ _ _ _ List.mem_cons_self (frame_refl ..)

/-! ### The time-out of a reduction (R333) -/

theorem reducing_iff (c : Chip) (j : Nat) :
    reducing c j = true ↔ ¬ ((fabJob c j).coll = [] ∧ (fabJob c j).drainDue = false ∧ (fabJob c j).ackDue = none) := by
  simp only [reducing, Bool.or_eq_true, Bool.not_eq_true', List.isEmpty_eq_false_iff, Option.isSome_iff_ne_none, not_and_or,
    Bool.not_eq_false, ne_eq, or_assoc]

theorem collTimeout_outcome (j : Fin 16) (s : State) :
    let F := fabJob s.chip j
    let idle := F.coll = [] ∧ F.drainDue = false ∧ F.ackDue = none
    ∃ c', Completes (.collTimeout j) s c' ∧ (idle → c' = s.chip) ∧
    (¬ idle → rflag c' (Reg.GW_JOB_EVENT j) 4 = true ∧ rflag c' Reg.GW_FAULT (16 + j) = true ∧
      Frame [Reg.GW_JOB_EVENT j, Reg.GW_FAULT] [] s.chip c') := by
  intro F idle
  have hne : Reg.GW_JOB_EVENT j ≠ Reg.GW_FAULT := by unfold Reg.GW_JOB_EVENT Reg.GW_FAULT; omega
  refine ⟨collTimeout j s.chip, rfl, fun h => ?_, fun h => ?_⟩
  · exact if_neg (fun hr => (reducing_iff s.chip j).1 hr h)
  · have hev : collTimeout j s.chip = gwEvent j 4 s.chip := if_pos ((reducing_iff s.chip j).2 h)
    rw [hev]
    refine ⟨?_, rflag_raise _ _ _ (by omega), ?_⟩
    · exact (rflag_congr (reg_raise_ne hne ..)).trans (rflag_raise _ _ _ (by omega))
    · exact frame_raise _ _ (List.mem_cons_of_mem _ List.mem_cons_self) (frame_raise _ _ List.mem_cons_self (frame_refl ..))

/-- Settles O44: a mark is off its buffer and kept or counted, a table's entry is its map's, and a reduction that has begun times out. -/
theorem marksAndTables : Obligations.MarksAndTables := by
  refine ⟨fun e v now s f rest hrx hm => ⟨fun hk hd hr => ?_, fun hk hj => ?_⟩, fun v s => ⟨keyCommit_outcome v s, outCommit_outcome v s⟩,
    fun out s => ⟨tableRead_low out s, tableRead_high out s⟩, collTimeout_outcome⟩
  · refine ⟨_, completes_done (congrArg (done s) (fenceMarkRx_keeps hrx hm hk hd hr)), ?_, rfl⟩
    exact (rxAt_popRx e v 1 s.chip).trans (by rw [hrx]; rfl)
  · have hkept := endMarkRx_counts (now := now) hrx hm hk hj
    refine ⟨endMarkRx e v now s.chip, rfl, ?_, ?_⟩
    · exact (hkept.rx e v).trans ((rxAt_popRx e v 1 s.chip).trans (by rw [hrx]; rfl))
    · rw [hkept.marks]
      exact numOf_marks_markCounted ..

end Sys2Proof.Machine
end

section
/-!
PROOFS. Settles O42: the frames of a link that is up (R314 to R318).
-/

namespace Sys2Proof.Machine

open Sys2Proof.Safety

/-! ### What sending on a link leaves of its registers

The credits of a link's ten channels lie above its status, faults and counters. A waiting flit may name any number as its channel, so
a credit that is taken lies somewhere above them; sending writes the count of sent frames and of unacknowledged ones besides. -/

/-- Registers that sending on link `e` leaves. -/
def BelowCredits (e a : Nat) : Prop := a < Reg.NLK_CREDIT e 0 ∧ a ≠ Reg.NLK_TX_FRAMES e ∧ a ≠ Reg.NLK_RETRY_OCC e

/-- Only sending on link `e` has happened. -/
structure SendsOn (e : Nat) (c c' : Chip) : Prop where
  sends : OnlySends c c'
  regs : ∀ a, BelowCredits e a → reg c' a = reg c a

theorem sendsOn_refl (e : Nat) (c : Chip) : SendsOn e c c := ⟨onlySends_refl c, fun _ _ => rfl⟩

theorem sendsOn_trans {e : Nat} {c c' c'' : Chip} (h : SendsOn e c c') (k : SendsOn e c' c'') : SendsOn e c c'' :=
  ⟨onlySends_trans h.sends k.sends, fun a ha => (k.regs a ha).trans (h.regs a ha)⟩

theorem sendsOn_modLink {e k : Nat} {c d : Chip} {f : Link → Link} (hf : ∀ L, (f L).kept = L.kept) (h : SendsOn e c d) :
    SendsOn e c (modLink k f d) := ⟨onlySends_modLink k hf h.sends, h.regs⟩

theorem sendsOn_setReg {e b : Nat} {c d : Chip} (v : Word) (hb : ∀ a, BelowCredits e a → a ≠ b) (h : SendsOn e c d) :
    SendsOn e c (setReg b v d) :=
  ⟨onlySends_setReg b v h.sends, fun a ha => (reg_setReg_ne v d (hb a ha)).trans (h.regs a ha)⟩

theorem sendsOn_credit {e : Nat} {c d : Chip} (v n : Nat) (h : SendsOn e c d) : SendsOn e c (putNum (Reg.NLK_CREDIT e v) n d) :=
  sendsOn_setReg _ (fun a ha => by have := ha.1; unfold Reg.NLK_CREDIT at *; omega) h

theorem sendsOn_noteRetry {e : Nat} {c d : Chip} (h : SendsOn e c d) : SendsOn e c (noteRetry e d) :=
  sendsOn_setReg _ (fun _ ha => ha.2.2) h

theorem sendsOn_sendFrame {e : Nat} {c d : Chip} (ftype seq : Nat) (slots : List DWord) (h : SendsOn e c d) :
    SendsOn e c (sendFrame e ftype seq slots d) := sendsOn_modLink (fun _ => rfl) h

theorem sendsOn_takeSlots (e n : Nat) {c d : Chip} (h : SendsOn e c d) : SendsOn e c (takeSlots e n d).2 := by
  induction n generalizing d with
  | zero => exact h
  | succ n ih =>
    unfold takeSlots
    split
    · exact h
    · exact ih (sendsOn_credit _ _ (sendsOn_modLink (fun _ => rfl) h))

theorem sendsOn_sendData (e n : Nat) {c d : Chip} (h : SendsOn e c d) : SendsOn e c (sendData e n d) := by
  induction n generalizing d with
  | zero => exact h
  | succ n ih =>
    have hs := sendsOn_takeSlots e 3 h
    unfold sendData
    split
    · split
      · exact h
      · next heq =>
        rw [heq] at hs
        exact ih (sendsOn_setReg _ (fun _ ha => ha.2.1)
          (sendsOn_noteRetry (sendsOn_modLink (fun _ => rfl) (sendsOn_sendFrame _ _ _ hs))))
    · exact h

theorem sendsOn_pump {e : Nat} {c d : Chip} (h : SendsOn e c d) : SendsOn e c (pump e d) := sendsOn_sendData e _ h

theorem sendsOn_takeAck {e : Nat} {c d : Chip} (a : Nat) (h : SendsOn e c d) : SendsOn e c (takeAck e a d) := by
  unfold takeAck
  simp only
  split
  · exact sendsOn_noteRetry (sendsOn_modLink (fun _ => rfl) h)
  · exact h

theorem sendsOn_when {e : Nat} {c d : Chip} {g : Chip → Chip} (b : Bool) (h : SendsOn e c d) (k : SendsOn e c (g d)) :
    SendsOn e c (when_ b g d) := by
  cases b
  · exact h
  · exact k

theorem sendsOn_takeFields {e : Nat} {c d : Chip} (f : BitVec 256) (h : SendsOn e c d) : SendsOn e c (takeFields e f d) := by
  have hack := sendsOn_takeAck (frAck f) h
  exact sendsOn_when _ hack (sendsOn_credit _ _ hack)

theorem sendsOn_resendFrames {e : Nat} {c d : Chip} (h : SendsOn e c d) : SendsOn e c (resendFrames e d) :=
  forAll_keeps (P := SendsOn e c) _ (fun _ _ _ hx => sendsOn_sendFrame _ _ _ hx) d h

theorem belowCredits_of_lt {e a : Nat} (h : a < Reg.NLK_TX_FRAMES e) : BelowCredits e a := by
  unfold BelowCredits Reg.NLK_CREDIT Reg.NLK_RETRY_OCC
  unfold Reg.NLK_TX_FRAMES at *
  omega

theorem belowCredits_RX_FRAMES (e : Nat) : BelowCredits e (Reg.NLK_RX_FRAMES e) := by
  unfold BelowCredits Reg.NLK_CREDIT Reg.NLK_RETRY_OCC Reg.NLK_TX_FRAMES Reg.NLK_RX_FRAMES
  omega

theorem STATUS_below (e : Nat) : Reg.NLK_STATUS e < Reg.NLK_TX_FRAMES e := by unfold Reg.NLK_STATUS Reg.NLK_TX_FRAMES; omega
theorem RETRIES_below (e : Nat) : Reg.NLK_RETRIES e < Reg.NLK_TX_FRAMES e := by unfold Reg.NLK_RETRIES Reg.NLK_TX_FRAMES; omega
theorem CFG_below (e : Nat) : Reg.NLK_CFG e < Reg.NLK_TX_FRAMES e := by unfold Reg.NLK_CFG Reg.NLK_TX_FRAMES; omega

theorem linkState_of_sendsOn {e : Nat} {c c' : Chip} (h : SendsOn e c c') : linkState c' e = linkState c e :=
  rfld_congr (h.regs _ (belowCredits_of_lt (STATUS_below e)))

theorem linkIsUp_of_sendsOn {e : Nat} {c c' : Chip} (h : SendsOn e c c') : linkIsUp c' e = linkIsUp c e := by
  rw [linkIsUp, linkIsUp, linkState_of_sendsOn h]

theorem rxNext_of_sendsOn {e : Nat} {c c' : Chip} (h : SendsOn e c c') : (linkAt c' e).rxNext = (linkAt c e).rxNext := by
  have hk := congrArg Link.rxNext (h.sends.links e)
  exact hk

theorem linkState_eq_of_up {c : Chip} {e : Nat} (h : linkIsUp c e = true) : linkState c e = 3 := beq_iff_eq.1 h

/-! ### Reception of data (R315, R316) -/

/-- A flit that names a channel of the link stands at the end of its receive buffer; the other buffers stay. -/
theorem rxAt_pushRx {v : Nat} (hv : v < 10) (e : Nat) (f : DWord) (c : Chip) :
    rxAt (pushRx e f c) e v = rxAt c e v ++ [f].filter (fun x => bits x.toNat 7 4 == v) := by
  unfold pushRx
  simp only
  by_cases h : bits f.toNat 7 4 = v
  · rw [if_pos (by omega), h, rxAt_setRx_same, List.filter_singleton]
    simp [h]
  · have hno : [f].filter (fun x => bits x.toNat 7 4 == v) = [] := by simp [h]
    rw [hno, List.append_nil]
    split
    · exact rxAt_setRx_ne (Ne.symm h) _ c
    · rfl

theorem rxAt_forAll_pushRx {v : Nat} (hv : v < 10) (e : Nat) (fs : List DWord) (c : Chip) :
    rxAt (forAll (pushRx e) fs c) e v = rxAt c e v ++ fs.filter (fun x => bits x.toNat 7 4 == v) := by
  induction fs generalizing c with
  | nil => simp
  | cons f fs ih =>
    rw [forAll_cons, ih, rxAt_pushRx hv, List.append_assoc, ← List.filter_append]
    rfl

/-- A received flit changes receive buffers and their lengths alone. -/
theorem pushRx_keeps {e a : Nat} (ha : BelowCredits e a) (f : DWord) (c : Chip) :
    reg (pushRx e f c) a = reg c a ∧ (linkAt (pushRx e f c) e).rxNext = (linkAt c e).rxNext := by
  have hne : a ≠ Reg.NLK_RXOCC e (bits f.toNat 7 4) := by
    have := ha.1
    unfold Reg.NLK_CREDIT at this
    unfold Reg.NLK_RXOCC
    omega
  unfold pushRx setRx
  simp only
  split
  · refine ⟨reg_putNum_ne hne .., ?_⟩
    rw [putNum, linkAt_setReg, linkAt_modLink_same]
  · exact ⟨rfl, rfl⟩

theorem forAll_pushRx_keeps {e a : Nat} (ha : BelowCredits e a) (fs : List DWord) (c : Chip) :
    reg (forAll (pushRx e) fs c) a = reg c a ∧ (linkAt (forAll (pushRx e) fs c) e).rxNext = (linkAt c e).rxNext :=
  ⟨reg_forAll fs (fun f _ d => (pushRx_keeps ha f d).1) c,
    forAll_leaves (fun d => (linkAt d e).rxNext) fs (fun f d => (pushRx_keeps ha f d).2) c⟩

/-- A data frame with the next SEQ: counted, and its flits in their buffers. -/
theorem dataFrame_takes {e : Nat} {f : BitVec 256} {c : Chip} (h : frSeq f = (linkAt c e).rxNext) :
    (linkAt (dataFrame e f c) e).rxNext = ((linkAt c e).rxNext + 1) % 1024 ∧ Advanced (Reg.NLK_RX_FRAMES e) 1 c (dataFrame e f c) ∧
      ∀ v, v < 10 → rxAt (dataFrame e f c) e v =
        rxAt c e v ++ ((List.range (frSlots f)).map (frSlot f)).filter (fun x => bits x.toNat 7 4 == v) := by
  obtain ⟨d, hd⟩ : ∃ d, d = count (Reg.NLK_RX_FRAMES e) 1 (modLink e (fun L => { L with rxNext := (L.rxNext + 1) % 1024, nak := false }) c) :=
    ⟨_, rfl⟩
  have hnext : (linkAt d e).rxNext = ((linkAt c e).rxNext + 1) % 1024 := by rw [hd, count, linkAt_setReg, linkAt_modLink_same]
  have hadv : Advanced (Reg.NLK_RX_FRAMES e) 1 c d := by
    rw [hd]
    exact advanced_of_count (reg_modLink ..) rfl
  have hrx (v : Nat) : rxAt d e v = rxAt c e v := by rw [rxAt, hd, count, linkAt_setReg, linkAt_modLink_same]; rfl
  have he : dataFrame e f c = sendFrame e 1 0 [] (forAll (pushRx e) ((List.range (frSlots f)).map (frSlot f)) d) := by
    rw [dataFrame, if_pos h, hd]
  have hs := sendsOn_sendFrame (e := e) 1 0 [] (sendsOn_refl e (forAll (pushRx e) ((List.range (frSlots f)).map (frSlot f)) d))
  obtain ⟨hreg, hfold⟩ := forAll_pushRx_keeps (belowCredits_RX_FRAMES e) ((List.range (frSlots f)).map (frSlot f)) d
  rw [he]
  refine ⟨(rxNext_of_sendsOn hs).trans (hfold.trans hnext), advanced_congr hadv hreg, fun v hv => ?_⟩
  rw [rxAt_of_onlySends hs.sends, rxAt_forAll_pushRx hv, hrx]

theorem frameRx_data {e : Nat} {f : BitVec 256} {c : Chip} (hup : linkIsUp c e = true) (hok : frameOk f = true) (ht : frType f = 0) :
    frameRx e f c = pump e (dataFrame e f (takeFields e f c)) := by
  unfold frameRx
  rw [if_neg (fun h => by rw [hup] at h; exact absurd h.2 (by decide)), if_neg (by rw [hok]; decide), ht]
  rfl

/-! ### A bad frame (R307, R315) -/

theorem frameRx_bad {e : Nat} {f : BitVec 256} {c : Chip} (hup : linkIsUp c e = true) (hok : frameOk f = false) :
    frameRx e f c = badFrame e c := by
  unfold frameRx
  rw [if_neg (fun h => by rw [hup] at h; exact absurd h.2 (by decide)), if_pos (by rw [hok]; rfl)]

/-- The registers that a bad frame writes, FEC's verdict being `uncorr`. -/
def linkCrcNoted (e : Nat) (uncorr : Bool) (c : Chip) : Chip :=
  when_ uncorr (fun c => c |> count (Reg.NLK_FEC_UNCORR e) 1 |> raise (Reg.NLK_FAULT e) 1)
    (raise (Reg.NLK_FAULT e) 0 (count (Reg.NLK_CRC_ERR e) 1 c))

theorem badFrame_eq (e : Nat) (c : Chip) :
    badFrame e c = askRetry e (linkCrcNoted e ((takeFree c).1.getLsbD 0) (takeFree c).2) := rfl

theorem linkCrcNoted_facts (e : Nat) (uncorr : Bool) (c : Chip) :
    Advanced (Reg.NLK_CRC_ERR e) 1 c (linkCrcNoted e uncorr c) ∧ rflag (linkCrcNoted e uncorr c) (Reg.NLK_FAULT e) 0 = true ∧
      (Advanced (Reg.NLK_FEC_UNCORR e) 1 c (linkCrcNoted e uncorr c) ∧ rflag (linkCrcNoted e uncorr c) (Reg.NLK_FAULT e) 1 = true ∨
        reg (linkCrcNoted e uncorr c) (Reg.NLK_FEC_UNCORR e) = reg c (Reg.NLK_FEC_UNCORR e)) ∧
      Frame [Reg.NLK_CRC_ERR e, Reg.NLK_FAULT e, Reg.NLK_FEC_UNCORR e] [] c (linkCrcNoted e uncorr c) := by
  have hCF : Reg.NLK_CRC_ERR e ≠ Reg.NLK_FAULT e := by unfold Reg.NLK_CRC_ERR Reg.NLK_FAULT; omega
  have hCU : Reg.NLK_CRC_ERR e ≠ Reg.NLK_FEC_UNCORR e := by unfold Reg.NLK_CRC_ERR Reg.NLK_FEC_UNCORR; omega
  have hUF : Reg.NLK_FEC_UNCORR e ≠ Reg.NLK_FAULT e := by unfold Reg.NLK_FEC_UNCORR Reg.NLK_FAULT; omega
  have hfault : Reg.NLK_FAULT e ∈ [Reg.NLK_CRC_ERR e, Reg.NLK_FAULT e, Reg.NLK_FEC_UNCORR e] := List.mem_cons_of_mem _ List.mem_cons_self
  have hbase : Frame [Reg.NLK_CRC_ERR e, Reg.NLK_FAULT e, Reg.NLK_FEC_UNCORR e] [] c
      (raise (Reg.NLK_FAULT e) 0 (count (Reg.NLK_CRC_ERR e) 1 c)) :=
    frame_raise _ _ hfault (frame_count _ _ List.mem_cons_self (frame_refl ..))
  have hcrc : Advanced (Reg.NLK_CRC_ERR e) 1 c (raise (Reg.NLK_FAULT e) 0 (count (Reg.NLK_CRC_ERR e) 1 c)) :=
    advanced_congr (advanced_count ..) (reg_raise_ne hCF ..)
  have hunc : reg (raise (Reg.NLK_FAULT e) 0 (count (Reg.NLK_CRC_ERR e) 1 c)) (Reg.NLK_FEC_UNCORR e) = reg c (Reg.NLK_FEC_UNCORR e) :=
    (reg_raise_ne hUF ..).trans (reg_count_ne hCU.symm ..)
  have hzero := rflag_raise (Reg.NLK_FAULT e) 0 (count (Reg.NLK_CRC_ERR e) 1 c) (by omega)
  cases uncorr
  · exact ⟨hcrc, hzero, .inr hunc, hbase⟩
  · unfold linkCrcNoted
    generalize raise (Reg.NLK_FAULT e) 0 (count (Reg.NLK_CRC_ERR e) 1 c) = d at hbase hcrc hunc hzero
    refine ⟨advanced_congr hcrc ((reg_raise_ne hCF ..).trans (reg_count_ne hCU ..)), ?_, .inl ⟨?_, rflag_raise _ _ _ (by omega)⟩, ?_⟩
    · exact rflag_raise_of_raised 1 (by omega) ((rflag_congr (reg_count_ne hUF.symm ..)).trans hzero)
    · exact advanced_of_count hunc (reg_raise_ne hUF ..)
    · exact frame_raise _ _ hfault (frame_count _ _ (List.mem_cons_of_mem _ (List.mem_cons_of_mem _ List.mem_cons_self)) hbase)

/-- One retry request for the first frame that fails. -/
theorem askRetry_facts (e : Nat) (c : Chip) : (linkAt (askRetry e c) e).nak = true ∧
    (linkAt (askRetry e c) e).out.length = (linkAt c e).out.length + (if (linkAt c e).nak then 0 else 1) ∧
    (∀ v, rxAt (askRetry e c) e v = rxAt c e v) ∧ (linkAt (askRetry e c) e).rxNext = (linkAt c e).rxNext ∧
    askRetry e c = { c with links := (askRetry e c).links } := by
  unfold askRetry
  by_cases h : (linkAt c e).nak = true
  · rw [if_pos h, if_pos h]
    exact ⟨h, rfl, fun _ => rfl, rfl, rfl⟩
  · rw [if_neg h, if_neg h]
    refine ⟨?_, ?_, fun v => ?_, ?_, rfl⟩
    · simp [sendFrame]
    · rw [out_sendFrame, linkAt_modLink_same]
    · simp [sendFrame, rxAt]
    · simp [sendFrame]

theorem badFrame_outcome (e : Nat) (c : Chip) :
    Advanced (Reg.NLK_CRC_ERR e) 1 c (badFrame e c) ∧ rflag (badFrame e c) (Reg.NLK_FAULT e) 0 = true ∧
      (∀ v, rxAt (badFrame e c) e v = rxAt c e v) ∧ (linkAt (badFrame e c) e).rxNext = (linkAt c e).rxNext ∧
      (linkAt (badFrame e c) e).nak = true ∧
      (linkAt (badFrame e c) e).out.length = (linkAt c e).out.length + (if (linkAt c e).nak then 0 else 1) ∧
      (Advanced (Reg.NLK_FEC_UNCORR e) 1 c (badFrame e c) ∧ rflag (badFrame e c) (Reg.NLK_FAULT e) 1 = true ∨
        reg (badFrame e c) (Reg.NLK_FEC_UNCORR e) = reg c (Reg.NLK_FEC_UNCORR e)) ∧
      Frame [Reg.NLK_CRC_ERR e, Reg.NLK_FAULT e, Reg.NLK_FEC_UNCORR e] [] c { badFrame e c with links := c.links, free := c.free } := by
  rw [badFrame_eq]
  generalize (takeFree c).1.getLsbD 0 = b
  obtain ⟨h1, h2, h3, h4⟩ := linkCrcNoted_facts e b (takeFree c).2
  have hlinks : linkAt (linkCrcNoted e b (takeFree c).2) e = linkAt c e := by
    obtain ⟨-, -, hr⟩ := h4
    rw [linkAt, hr]
    rfl
  obtain ⟨hnak, hout, hrx, hnext, hrest⟩ := askRetry_facts e (linkCrcNoted e b (takeFree c).2)
  generalize linkCrcNoted e b (takeFree c).2 = d at *
  have hregs (a : Nat) : reg (askRetry e d) a = reg d a := by
    rw [hrest]
    rfl
  refine ⟨advanced_congr h1 (hregs _), (rflag_congr (hregs _)).trans h2, fun v => ?_, by rw [hnext, hlinks], hnak,
    by rw [hout, hlinks], ?_, ?_⟩
  · rw [hrx, rxAt, hlinks]
    rfl
  · refine h3.imp (fun h => ⟨advanced_congr h.1 (hregs _), (rflag_congr (hregs _)).trans h.2⟩) (fun h => (hregs _).trans h)
  · have hfull : { askRetry e d with links := c.links, free := c.free } = { d with links := c.links, free := c.free } :=
      by rw [hrest]
    rw [hfull]
    obtain ⟨f1, f2, f3⟩ := h4
    exact ⟨f1, f2, by rw [f3]; rfl⟩

/-! ### Retrains and retries (R315, R317) -/

/-- The registers that a retrain writes. -/
def retrainRegs (e : Nat) : List Nat := [Reg.NLK_STATUS e, Reg.NLK_RETRAINS e, Reg.NLK_FAULT e]

theorem beginRetrain_up {e : Nat} {c : Chip} (h : linkIsUp c e = true) : linkState (beginRetrain e c) e = 4 ∧
    Advanced (Reg.NLK_RETRAINS e) 1 c (beginRetrain e c) ∧ rflag (beginRetrain e c) (Reg.NLK_FAULT e) 2 = true ∧
    Frame (retrainRegs e) [] c { beginRetrain e c with links := c.links } ∧
    (linkAt (beginRetrain e c) e).retry = (linkAt c e).retry ∧ (linkAt (beginRetrain e c) e).out = (linkAt c e).out := by
  have hSF : Reg.NLK_STATUS e ≠ Reg.NLK_FAULT e := by unfold Reg.NLK_STATUS Reg.NLK_FAULT; omega
  have hSR : Reg.NLK_STATUS e ≠ Reg.NLK_RETRAINS e := by unfold Reg.NLK_STATUS Reg.NLK_RETRAINS; omega
  have hRF : Reg.NLK_RETRAINS e ≠ Reg.NLK_FAULT e := by unfold Reg.NLK_RETRAINS Reg.NLK_FAULT; omega
  have he : beginRetrain e c = raise (Reg.NLK_FAULT e) 2 (count (Reg.NLK_RETRAINS e) 1
      (modLink e (fun L => { L with retraining := true, readySent := false, helloDue := false }) (setLinkState e 4 c))) := if_pos h
  rw [he]
  refine ⟨?_, ?_, rflag_raise _ _ _ (by omega), ?_, ?_, ?_⟩
  · exact (rfld_congr ((reg_raise_ne hSF ..).trans (reg_count_ne hSR ..))).trans (rfld_setFld _ 31 29 4 c (by decide) (by decide))
  · exact advanced_of_count (d := modLink e _ (setLinkState e 4 c)) (reg_setFld_ne hSR.symm ..) (reg_raise_ne hRF ..)
  · exact frame_raise (c' := count (Reg.NLK_RETRAINS e) 1 (setLinkState e 4 c)) _ _
      (List.mem_cons_of_mem _ (List.mem_cons_of_mem _ List.mem_cons_self))
      (frame_count _ _ (List.mem_cons_of_mem _ List.mem_cons_self) (frame_setFld _ _ _ _ List.mem_cons_self (frame_refl ..)))
  · simp [raise, setBit, count, setLinkState, setFld]
  · simp [raise, setBit, count, setLinkState, setFld]

theorem beginRetrain_down {e : Nat} {c : Chip} (h : linkIsUp c e = false) : beginRetrain e c = c := if_neg (by rw [h]; decide)

theorem retry_sendFrame (e ftype seq : Nat) (slots : List DWord) (c : Chip) :
    (linkAt (sendFrame e ftype seq slots c) e).retry = (linkAt c e).retry := by simp [sendFrame]

/-- Every unacknowledged frame is sent again, and stays unacknowledged. -/
theorem resendFrames_facts (e : Nat) (c : Chip) : (linkAt (resendFrames e c) e).retry = (linkAt c e).retry ∧
    (linkAt (resendFrames e c) e).out.length = (linkAt c e).out.length + (linkAt c e).retry.length := by
  have hall (l : List (Nat × List TxFlit)) (d : Chip) :
      (linkAt (forAll (fun x d => sendFrame e 0 x.1 (slotFlits x.2) d) l d) e).out.length = (linkAt d e).out.length + l.length := by
    induction l generalizing d with
    | nil => rfl
    | cons x xs ih => rw [forAll_cons, ih, out_sendFrame, List.length_cons]; omega
  exact ⟨forAll_leaves (fun d => (linkAt d e).retry) _ (fun _ _ => retry_sendFrame ..) c, hall _ c⟩

/-- The retries are too many within a millisecond. -/
def tooMany (e recent : Nat) (c : Chip) : Prop := max 1 (rfld c (Reg.NLK_CFG e) 15 0) ≤ recent

/-- The unacknowledged frames are sent again and counted; too many retries begin a retrain. -/
theorem retryAll_facts {e : Nat} {c : Chip} (hup : linkIsUp c e = true) (recent : Nat) :
    Advanced (Reg.NLK_RETRIES e) 1 c (retryAll e recent c) ∧ (linkAt (retryAll e recent c) e).retry = (linkAt c e).retry ∧
      (linkAt (retryAll e recent c) e).out.length = (linkAt c e).out.length + (linkAt c e).retry.length ∧
      (tooMany e recent c → linkState (retryAll e recent c) e = 4) ∧ (¬ tooMany e recent c → linkState (retryAll e recent c) e = 3) := by
  have hs := sendsOn_resendFrames (sendsOn_refl e c)
  have hSR : Reg.NLK_STATUS e ≠ Reg.NLK_RETRIES e := by unfold Reg.NLK_STATUS Reg.NLK_RETRIES; omega
  have hRx : Reg.NLK_RETRIES e ∉ retrainRegs e := by
    unfold retrainRegs Reg.NLK_RETRIES Reg.NLK_STATUS Reg.NLK_RETRAINS Reg.NLK_FAULT
    simp only [List.mem_cons, List.not_mem_nil, or_false]
    omega
  obtain ⟨hretry, hout⟩ := resendFrames_facts e c
  obtain ⟨d, hd⟩ : ∃ d, d = count (Reg.NLK_RETRIES e) 1 (resendFrames e c) := ⟨_, rfl⟩
  have hadv : Advanced (Reg.NLK_RETRIES e) 1 c d := by
    rw [hd]
    exact advanced_of_count (hs.regs _ (belowCredits_of_lt (RETRIES_below e))) rfl
  have hstate : linkState d e = 3 := by
    rw [hd]
    exact (rfld_congr (reg_count_ne hSR ..)).trans ((linkState_of_sendsOn hs).trans (linkState_eq_of_up hup))
  have hlink : linkAt d e = linkAt (resendFrames e c) e := by rw [hd]; rfl
  have hupd : linkIsUp d e = true := beq_iff_eq.2 hstate
  have he : retryAll e recent c = when_ (decide (max 1 (rfld c (Reg.NLK_CFG e) 15 0) ≤ recent)) (beginRetrain e) d := by
    rw [hd]
    rfl
  obtain ⟨g1, -, -, ⟨g4, -, -⟩, g5, g6⟩ := beginRetrain_up hupd
  rw [he]
  by_cases hm : tooMany e recent c
  · rw [show decide (max 1 (rfld c (Reg.NLK_CFG e) 15 0) ≤ recent) = true from decide_eq_true hm]
    refine ⟨advanced_congr hadv (g4 _ hRx), g5.trans (by rw [hlink, hretry]), ?_, fun _ => g1, fun h => absurd hm h⟩
    exact (congrArg List.length g6).trans (by rw [hlink, hout])
  · rw [show decide (max 1 (rfld c (Reg.NLK_CFG e) 15 0) ≤ recent) = false from decide_eq_false hm]
    exact ⟨hadv, by rw [← hretry, ← hlink]; rfl, by rw [← hout, ← hlink]; rfl, fun h => absurd h hm, fun _ => hstate⟩

theorem tooMany_of_sendsOn {e recent : Nat} {c c' : Chip} (h : SendsOn e c c') : tooMany e recent c' ↔ tooMany e recent c := by
  rw [tooMany, tooMany, rfld_congr (h.regs _ (belowCredits_of_lt (CFG_below e)))]

theorem retryRequest_facts {e : Nat} {c : Chip} {f : BitVec 256} (hup : linkIsUp c e = true) (hok : frameOk f = true)
    (ht : frType f = 2) (recent : Nat) : Advanced (Reg.NLK_RETRIES e) 1 c (retryRequest e f recent c) ∧
      (tooMany e recent c → linkState (retryRequest e f recent c) e = 4) ∧
      (¬ tooMany e recent c → linkState (retryRequest e f recent c) e = 3) := by
  have hfields := sendsOn_takeFields f (sendsOn_refl e c)
  have hR := belowCredits_of_lt (RETRIES_below e)
  obtain ⟨hadv, -, -, h4, h3⟩ := retryAll_facts ((linkIsUp_of_sendsOn hfields).trans hup) recent
  have hpump := sendsOn_pump (sendsOn_refl e (retryAll e recent (takeFields e f c)))
  have he : retryRequest e f recent c = pump e (retryAll e recent (takeFields e f c)) :=
    if_pos (by rw [hup, hok, ht]; rfl)
  rw [he]
  refine ⟨advanced_congr ?_ (hpump.regs _ hR), fun h => ?_, fun h => ?_⟩
  · rw [Advanced, ← hfields.regs _ hR]
    exact hadv
  · exact (linkState_of_sendsOn hpump).trans (h4 ((tooMany_of_sendsOn hfields).2 h))
  · exact (linkState_of_sendsOn hpump).trans (h3 (fun k => h ((tooMany_of_sendsOn hfields).1 k)))

/-- A flit that waits without credit: flagged, and a retrain begins (R318). -/
theorem creditWdog_facts {e v : Nat} {c : Chip} (hup : linkIsUp c e = true) (hc : txCredit c e v = 0)
    (hq : (linkAt c e).queue.any (fun f => f.fvc == v) = true) : rflag (creditWdog e v c) (Reg.NLK_FAULT e) 4 = true ∧
      linkState (creditWdog e v c) e = 4 ∧ Advanced (Reg.NLK_RETRAINS e) 1 c (creditWdog e v c) := by
  have hSF : Reg.NLK_STATUS e ≠ Reg.NLK_FAULT e := by unfold Reg.NLK_STATUS Reg.NLK_FAULT; omega
  have hRF : Reg.NLK_RETRAINS e ≠ Reg.NLK_FAULT e := by unfold Reg.NLK_RETRAINS Reg.NLK_FAULT; omega
  have hSR : Reg.NLK_STATUS e ≠ Reg.NLK_RETRAINS e := by unfold Reg.NLK_STATUS Reg.NLK_RETRAINS; omega
  obtain ⟨d, hd⟩ : ∃ d, d = raise (Reg.NLK_FAULT e) 4 c := ⟨_, rfl⟩
  have he : creditWdog e v c = beginRetrain e d := by
    rw [hd]
    exact if_pos (by rw [hup, hc, hq]; rfl)
  have hupd : linkIsUp d e = true := by
    rw [hd, linkIsUp, linkState, rfld_congr (reg_raise_ne hSF ..)]
    exact hup
  have hfour : rflag d (Reg.NLK_FAULT e) 4 = true := by rw [hd]; exact rflag_raise _ _ _ (by omega)
  have hret : reg d (Reg.NLK_RETRAINS e) = reg c (Reg.NLK_RETRAINS e) := by rw [hd]; exact reg_raise_ne hRF ..
  obtain ⟨g1, g2, -⟩ := beginRetrain_up hupd
  rw [he]
  refine ⟨?_, g1, by rw [Advanced, ← hret]; exact g2⟩
  rw [beginRetrain, if_pos hupd]
  refine rflag_raise_of_raised 2 (by omega) ?_
  exact (rflag_congr ((reg_count_ne hRF.symm ..).trans (reg_setFld_ne hSF.symm ..))).trans hfour

/-- A lane without lock shows, and a retrain begins (R317). -/
theorem laneLost_up {e lane : Nat} {c : Chip} (hup : linkIsUp c e = true) (hl : lane < 8) :
    rflag (laneLost e lane c) (Reg.NLK_STATUS e) (20 + lane) = false ∧ linkState (laneLost e lane c) e = 4 ∧
      Advanced (Reg.NLK_RETRAINS e) 1 c (laneLost e lane c) := by
  have hSF : Reg.NLK_STATUS e ≠ Reg.NLK_FAULT e := by unfold Reg.NLK_STATUS Reg.NLK_FAULT; omega
  have hSR : Reg.NLK_STATUS e ≠ Reg.NLK_RETRAINS e := by unfold Reg.NLK_STATUS Reg.NLK_RETRAINS; omega
  obtain ⟨d, hd⟩ : ∃ d, d = setBit (Reg.NLK_STATUS e) (20 + lane) false c := ⟨_, rfl⟩
  have hstate : linkState d e = 3 := by
    rw [hd, linkState, rfld_setBit_apart _ (by omega) (.inl (by omega))]
    exact linkState_eq_of_up hup
  have hlane : rflag d (Reg.NLK_STATUS e) (20 + lane) = false := by rw [hd]; exact rflag_setBit_same _ (by omega) _ _
  have hret : reg d (Reg.NLK_RETRAINS e) = reg c (Reg.NLK_RETRAINS e) := by rw [hd]; exact reg_setBit_ne hSR.symm ..
  have hupd : linkIsUp d e = true := beq_iff_eq.2 hstate
  have he : laneLost e lane c = beginRetrain e d := by
    unfold laneLost
    rw [linkState_eq_of_up hup, hd]
    rfl
  obtain ⟨g1, g2, -⟩ := beginRetrain_up hupd
  rw [he]
  refine ⟨?_, g1, by rw [Advanced, ← hret]; exact g2⟩
  rw [beginRetrain, if_pos hupd]
  refine (rflag_congr ((reg_raise_ne hSF ..).trans (reg_count_ne hSR ..))).trans ?_
  refine Eq.trans ?_ hlane
  unfold rflag
  rw [reg_modLink, setLinkState, setFld, reg_setReg_same]
  exact flag_putFld_apart _ 31 29 4 _ (by decide) (by decide) (.inl (by omega))

/-- Settles O42: the counters, the status and the buffers of a link lie outside what sending on it changes. -/
theorem linkFrames : Obligations.LinkFrames := by
  intro e s hup c L many
  refine ⟨fun f hok ht hseq => ?_, fun f hok => ?_, fun f recent hok ht => ?_, fun recent hr => ?_, fun v hc hq => ?_, fun lane => ?_⟩
  · have hfields := sendsOn_takeFields f (sendsOn_refl e.val s.chip)
    obtain ⟨h1, h2, h3⟩ := dataFrame_takes (hseq.trans (rxNext_of_sendsOn hfields).symm)
    have hpump := sendsOn_pump (sendsOn_refl e.val (dataFrame e f (takeFields e f s.chip)))
    have hR := belowCredits_RX_FRAMES e.val
    refine ⟨_, completes_done (congrArg (done s) (frameRx_data hup hok ht)), ?_, ?_, fun v hv => ?_⟩
    · exact (rxNext_of_sendsOn hpump).trans (h1.trans (by rw [rxNext_of_sendsOn hfields]))
    · refine advanced_congr ?_ (hpump.regs _ hR)
      rw [Advanced, ← hfields.regs _ hR]
      exact h2
    · exact (rxAt_of_onlySends hpump.sends e v).trans ((h3 v hv).trans (by rw [rxAt_of_onlySends hfields.sends]))
  · exact ⟨_, completes_done (congrArg (done s) (frameRx_bad hup hok)), badFrame_outcome e s.chip⟩
  · exact ⟨_, completes_done rfl, retryRequest_facts hup hok ht recent⟩
  · have he : retryTimeout e recent s.chip = retryAll e recent s.chip :=
      if_pos (by rw [hup, List.isEmpty_eq_false_iff.2 hr]; rfl)
    exact ⟨_, completes_done (congrArg (done s) he), retryAll_facts hup recent⟩
  · exact ⟨_, completes_done rfl, creditWdog_facts hup hc hq⟩
  · exact ⟨_, completes_done rfl, laneLost_up hup lane.isLt⟩

end Sys2Proof.Machine
end

section
/-!
PROOFS. Settles O43: events and packets that leave by (R321, R319), pass through (R311, R323) and enter from the fabric (R324 to R326).
-/

namespace Sys2Proof.Machine

open Sys2Proof.Safety

/-! ### Events that leave (R321, R338) -/

theorem onlyTaps_of_tapEvent {k : Nat} {c c1 : Chip} {f : DWord} (h : tapEvent k c = some (f, c1)) : OnlyTaps c c1 := by
  unfold tapEvent at h
  split at h
  · next ht =>
    cases h
    exact onlyTaps_of_tapTake ht
  · obtain ⟨⟨x, y, z⟩, ht, he⟩ := Option.map_eq_some_iff.1 h
    cases he
    exact onlyTaps_of_tapTake ht

/-- The gateways' census counts and the flits they hold for replay are as they were. -/
structure GwKept (c c' : Chip) : Prop where
  census : c'.gw.census = c.gw.census
  hold : c'.gw.hold = c.gw.hold

theorem gwKept_of_gw {c c' : Chip} (h : c'.gw = c.gw) : GwKept c c' := ⟨by rw [h], by rw [h]⟩

theorem gwKept_trans {c c' c'' : Chip} (h : GwKept c c') (k : GwKept c' c'') : GwKept c c'' :=
  ⟨k.census.trans h.census, k.hold.trans h.hold⟩

theorem gwKept_fabTally (tb par item n : Nat) (c : Chip) : GwKept c (fabTally tb par item n c) := ⟨rfl, rfl⟩

theorem gwKept_sendFence (e k d lane dest tb : Nat) (c : Chip) : GwKept c (sendFence e k d lane dest tb c) := by
  obtain ⟨c1, hc1⟩ : ∃ c1, c1 = modGw (fun G => { G with fenceNo := setNum (1024 * e + dest) (fenceNo c e dest) G.fenceNo }) c := ⟨_, rfl⟩
  have h1 : GwKept c c1 := by rw [hc1]; exact ⟨rfl, rfl⟩
  have he : sendFence e k d lane dest tb c =
      (fabQueue k d (1 - lane) none none (single (fenceMark tb (1 - lane) (ownId c) dest (fenceNo c e dest))) c1).getD c1 := by
    rw [hc1]
    rfl
  rw [he]
  exact gwKept_trans h1 (gwKept_of_gw (gw_of_onlySends (onlySends_fabQueue_getD _ _ _ _ _ _ (onlySends_refl c1))))

theorem gwKept_sendEvent (d : Nat) (by_ : Option (Nat × Nat)) (tb : Option Nat) (f : DWord) (c : Chip) :
    GwKept c (sendEvent d by_ tb f c) := by
  unfold sendEvent
  split
  · next hq => exact gwKept_of_gw (gw_of_onlySends (onlySends_fabQueue (onlySends_refl c) hq))
  · exact ⟨rfl, rfl⟩

theorem gwKept_emitFabric (e tb : Nat) (f : DWord) (c : Chip) : GwKept c (emitFabric e tb f c) := by
  have hfence (b : Bool) (d : Nat) (x : Chip) : GwKept x (when_ b (sendFence e 0 d (xLane f) (xDest f) tb) x) := by
    cases b
    · exact gwKept_of_gw rfl
    · exact gwKept_sendFence ..
  unfold emitFabric
  split
  · exact gwKept_of_gw rfl
  · exact gwKept_trans (gwKept_trans (gwKept_fabTally ..) (hfence ..)) (gwKept_sendEvent ..)

theorem census_gwTally (tb par item n : Nat) (c : Chip) :
    numOf (gwTally tb par item n c).gw.census (8 * tb + 4 * par + item) = numOf c.gw.census (8 * tb + 4 * par + item) + n :=
  numOf_setNum_same (8 * tb + 4 * par + item) (numOf c.gw.census (8 * tb + 4 * par + item) + n) c.gw.census

theorem census_holdFlit (e tb : Nat) (f : DWord) (c : Chip) : (holdFlit e tb f c).gw.census = c.gw.census := by
  unfold holdFlit
  simp only
  split <;> rfl

/-- Where nothing is held, the flit is all that gateway `e` holds. -/
theorem hold_holdFlit {e : Nat} {c : Chip} (h : listOf c.gw.hold e = []) (tb : Nat) (f : DWord) :
    listOf (holdFlit e tb f c).gw.hold e = [(consumingStep c tb, tb, f)] := by
  unfold holdFlit
  simp only [h, List.filter_nil, List.length_nil, List.nil_append]
  exact listOf_setList_same e [(consumingStep c tb, tb, f)] c.gw.hold

theorem outboundEvent_takes {k e : Nat} {c c1 : Chip} {f : DWord} (hu : tapUnit k = .engine e)
    (hr : (jobAt c (jobOfTb c (tapTb c k))).resendDue = false) (ht : tapEvent k c = some (f, c1)) :
    outboundEvent k c = outbound e (tapTb c k) f c1 := by
  unfold outboundEvent
  rw [hu]
  simp only [hr, ht]
  rfl

theorem outbound_unkeyed {e tb : Nat} {f : DWord} {c : Chip} (h : outboundEntry (gwTally tb (fParity f) 1 1 c) (e / 2) f = none) :
    outbound e tb f c = raise Reg.GW_FAULT 1 (count Reg.GW_DROP_NOKEY 1 (gwTally tb (fParity f) 1 1 c)) := by
  unfold outbound
  simp only [h]

theorem outbound_keyed {e tb x : Nat} {f : DWord} {c : Chip} (h : outboundEntry (gwTally tb (fParity f) 1 1 c) (e / 2) f = some x) :
    outbound e tb f c = emitFabric e tb (fabricEvent x f) (holdFlit e tb (fabricEvent x f) (gwTally tb (fParity f) 1 1 c)) := by
  unfold outbound
  simp only [h]

/-- Every event that leaves a gateway is counted delivered to it. -/
theorem census_outbound (e tb : Nat) (f : DWord) (c : Chip) : numOf (outbound e tb f c).gw.census (8 * tb + 4 * fParity f + 1) =
    numOf c.gw.census (8 * tb + 4 * fParity f + 1) + 1 := by
  cases h : outboundEntry (gwTally tb (fParity f) 1 1 c) (e / 2) f with
  | none =>
    rw [outbound_unkeyed h]
    exact census_gwTally tb (fParity f) 1 1 c
  | some x =>
    rw [outbound_keyed h, (gwKept_emitFabric ..).census, census_holdFlit]
    exact census_gwTally tb (fParity f) 1 1 c

/-- The key of an event at gateway `e`: its index in the outbound window. -/
def outIndex (c : Chip) (e : Nat) (f : DWord) : Nat := (fAxon f + 65536 - fld (reg c (Reg.GW_OUT_WIN (e / 2))) 31 16) % 65536

theorem outboundEntry_invalid {c : Chip} {e : Nat} {f : DWord}
    (h : bit (outEntry c (e / 2) (fEpoch f) (outIndex c e f)) 63 = false) : outboundEntry c (e / 2) f = none := by
  unfold outIndex at h
  unfold outboundEntry
  simp only [h]
  exact if_pos (.inr (.inl rfl))

theorem outboundEntry_valid {c : Chip} {e : Nat} {f : DWord}
    (h : bit (outEntry c (e / 2) (fEpoch f) (outIndex c e f)) 63 = true)
    (h3 : bits (outEntry c (e / 2) (fEpoch f) (outIndex c e f)) 61 60 ≠ 3)
    (hi : outIndex c e f < min (fld (reg c (Reg.GW_OUT_WIN (e / 2))) 15 0) 32768) :
    outboundEntry c (e / 2) f = some (outEntry c (e / 2) (fEpoch f) (outIndex c e f)) := by
  unfold outIndex at h h3 hi
  unfold outIndex outboundEntry
  simp only [h]
  refine if_neg (fun hor => ?_)
  rcases hor with hor | hor | hor
  · omega
  · exact absurd hor (by decide)
  · exact h3 hor

theorem outboundEvent_outcome {k e : Nat} {c c1 : Chip} {f : DWord} (hu : tapUnit k = .engine e)
    (hr : (jobAt c (jobOfTb c (tapTb c k))).resendDue = false) (ht : tapEvent k c = some (f, c1)) :
    numOf (outboundEvent k c).gw.census (8 * tapTb c k + 4 * fParity f + 1) =
        numOf c.gw.census (8 * tapTb c k + 4 * fParity f + 1) + 1 ∧
      (bit (outEntry c (e / 2) (fEpoch f) (outIndex c e f)) 63 = false → Advanced Reg.GW_DROP_NOKEY 1 c (outboundEvent k c) ∧
        rflag (outboundEvent k c) Reg.GW_FAULT 1 = true ∧ (outboundEvent k c).gw.hold = c.gw.hold) ∧
      (bit (outEntry c (e / 2) (fEpoch f) (outIndex c e f)) 63 = true →
        bits (outEntry c (e / 2) (fEpoch f) (outIndex c e f)) 61 60 ≠ 3 →
        outIndex c e f < min (fld (reg c (Reg.GW_OUT_WIN (e / 2))) 15 0) 32768 → listOf c.gw.hold e = [] →
        listOf (outboundEvent k c).gw.hold e =
          [(consumingStep c (tapTb c k), tapTb c k, fabricEvent (outEntry c (e / 2) (fEpoch f) (outIndex c e f)) f)]) := by
  have hsame := onlyTaps_of_tapEvent ht
  have hgw : c1.gw = c.gw := part_of_onlyTaps hsame Chip.gw (fun _ _ => rfl)
  have hentry (tb : Nat) : outboundEntry (gwTally tb (fParity f) 1 1 c1) (e / 2) f = outboundEntry c (e / 2) f := by
    have hwin : reg (gwTally tb (fParity f) 1 1 c1) (Reg.GW_OUT_WIN (e / 2)) = reg c (Reg.GW_OUT_WIN (e / 2)) := reg_of_onlyTaps hsame _
    have htable (i : Nat) : outEntry (gwTally tb (fParity f) 1 1 c1) (e / 2) (fEpoch f) i = outEntry c (e / 2) (fEpoch f) i := by
      have ht : (gwTally tb (fParity f) 1 1 c1).gw.outTable = c1.gw.outTable := rfl
      rw [hgw] at ht
      rw [outEntry, outEntry, ht]
    unfold outboundEntry
    simp only [hwin, htable]
  have hstep (tb : Nat) : consumingStep (gwTally tb (fParity f) 1 1 c1) tb = consumingStep c tb :=
    part_of_onlyTaps hsame (fun x => consumingStep (gwTally tb (fParity f) 1 1 x) tb) (fun _ _ => rfl)
  rw [outboundEvent_takes hu hr ht]
  refine ⟨(census_outbound ..).trans (by rw [hgw]), fun h => ?_, fun h h3 hi hnone => ?_⟩
  · rw [outbound_unkeyed ((hentry _).trans (outboundEntry_invalid h))]
    refine ⟨?_, rflag_raise _ _ _ (by decide), hgw ▸ rfl⟩
    exact advanced_of_count (d := gwTally (tapTb c k) (fParity f) 1 1 c1) (reg_of_onlyTaps hsame _) (reg_raise_ne (by decide) ..)
  · rw [outbound_keyed ((hentry _).trans (outboundEntry_valid h h3 hi)), (gwKept_emitFabric ..).hold, hold_holdFlit, hstep]
    exact (congrArg (fun G => listOf (Gateway.hold G) e) hgw).trans hnone

/-! ### Packets that leave (R319, R322) -/

theorem packetDest_unasked {c : Chip} (h : c.gw.asked = []) (hd : DWord) (dest : Nat) : (packetDest hd dest c).1 = dest := by
  unfold packetDest
  rw [h]
  rfl

theorem packetDest_answers {c : Chip} {a : Asked} {rest : List Asked} (h : c.gw.asked = a :: rest) {hd : DWord}
    (ha : answersTo hd a = true) (dest : Nat) : (packetDest hd dest c).1 = a.src ∧ (packetDest hd dest c).2.gw.asked = rest := by
  have ht : takeFirst (answersTo hd) (a :: rest) = some (a, rest) := if_pos ha
  unfold packetDest
  rw [h, ht]
  exact ⟨rfl, rfl⟩

/-- The chip that the choice of the device leaves does not depend on the device that the command names. -/
theorem packetDest_chip (hd : DWord) (dest dest' : Nat) (c : Chip) : (packetDest hd dest c).2 = (packetDest hd dest' c).2 := by
  unfold packetDest
  split <;> rfl

/-- The flits of a packet begun by `p` as they wait to leave in direction `d`. -/
def packetFlits (c : Chip) (d : Nat) (p : DWord) (h : Flit) (body : List Flit) : List TxFlit :=
  txFlits (outFvc c (classOf (fKind p)) d none) none
    (headTail ((p, false) :: (h.data, h.poison) :: body.map (fun f => (f.data, f.poison))))

/-- An unfenced packet waits on the engine of its direction and lane. -/
theorem outboundPacket_queues {k dest e d e' : Nat} {h : Flit} {body : List Flit} {c c1 : Chip}
    {p : DWord} (hp : p = prefixFlit h.data (packetDest h.data dest c).1 (ownId c1)
      ((fSrc h.data % 2).xor ((packetDest h.data dest c).1 % 2)) 0)
    (hu : tapUnit k = .engine e) (hd : fabDir c (packetDest h.data dest c).1 = some d) (hn : nextPacketHead k c = some h.data)
    (ht : [2, 3, 4, 5].findSome? (fun v => tapTake k v (packetDest h.data dest c).2) = some (h, body, c1)) (hf : fFence h.data = false)
    (he : engineFor c1 d (pLane p) = some e') :
    outboundPacket k dest c = pump e' (modLink e' (fun L => { L with queue := L.queue ++ packetFlits c1 d p h body }) c1) := by
  unfold outboundPacket
  rw [hu, hn]
  dsimp only
  rw [hd, packetDest_chip h.data _ dest, ht]
  simp only [hf, Bool.false_eq_true, if_false, ← hp]
  unfold sendFabPacket fabQueue
  simp only [when_, Bool.false_eq_true, if_false, he, Option.map_some]
  rfl

/-! ### Transit (R311, R313, R323) -/

theorem transit_waits {e v d : Nat} {c : Chip} {f : DWord} {rest : List DWord} (hrx : rxAt c e v = f :: rest) (hev : isEvent f = true)
    (hh : eventHop c f = (false, some d)) (hroom : switchRoom c 0 d (xLane f) (some (e / 2, v % 2)) = false) : transit e v c = c := by
  unfold transit
  rw [hrx]
  simp only [hev, if_true, hh, hroom, Bool.not_false, Bool.or_true]

theorem transit_goes {e v d : Nat} {c : Chip} {f : DWord} {rest : List DWord} (hrx : rxAt c e v = f :: rest) (hev : isEvent f = true)
    (hh : eventHop c f = (false, some d)) (hfwd : isForwarded c e v = false)
    (hroom : switchRoom c 0 d (xLane f) (some (e / 2, v % 2)) = true) :
    transit e v c = popRx e v 1 (sendEvent d (some (e / 2, v % 2)) none f c) := by
  unfold transit
  rw [hrx]
  simp only [hev, if_true, hh, hroom, hfwd, Bool.not_true, Bool.or_false, Bool.false_eq_true, if_false, Bool.not_false, Bool.true_or]

theorem rxAt_sendEvent (d : Nat) (by_ : Option (Nat × Nat)) (tb : Option Nat) (f : DWord) (c : Chip) (e v : Nat) :
    rxAt (sendEvent d by_ tb f c) e v = rxAt c e v := by
  unfold sendEvent
  split
  · next hq => exact rxAt_of_onlySends (onlySends_fabQueue (onlySends_refl c) hq) e v
  · rfl

theorem sendEvent_unreached {d : Nat} {c : Chip} {f : DWord} (h : engineFor c d (xLane f) = none) (by_ : Option (Nat × Nat))
    (tb : Option Nat) : sendEvent d by_ tb f c = unreachEvent tb f c := by
  unfold sendEvent fabQueue
  rw [h]
  rfl

theorem unreachEvent_facts (tb : Option Nat) (f : DWord) (c : Chip) :
    Advanced Reg.GW_DROP_UNREACH (copiesBeyond c f) c (unreachEvent tb f c) ∧ rflag (unreachEvent tb f c) Reg.GW_FAULT 3 = true := by
  unfold unreachEvent
  simp only
  generalize copiesBeyond c f = n
  exact ⟨advanced_of_count (d := c) rfl (reg_raise_ne (by decide) ..), rflag_raise _ _ _ (by decide)⟩

theorem transit_outcome {e v d : Nat} (he : e < 8) (hv : v < 10) {c : Chip} {f : DWord} {rest : List DWord}
    (hrx : rxAt c e v = f :: rest) (hev : isEvent f = true) (hh : eventHop c f = (false, some d)) (hfwd : isForwarded c e v = false)
    (hroom : switchRoom c 0 d (xLane f) (some (e / 2, v % 2)) = true) :
    rxAt (transit e v c) e v = rest ∧ (engineFor c d (xLane f) = none →
      Advanced Reg.GW_DROP_UNREACH (copiesBeyond c f) c (transit e v c) ∧ rflag (transit e v c) Reg.GW_FAULT 3 = true) := by
  rw [transit_goes hrx hev hh hfwd hroom]
  refine ⟨by rw [rxAt_popRx, rxAt_sendEvent, hrx]; rfl, fun hn => ?_⟩
  obtain ⟨h1, h2⟩ := unreachEvent_facts none f c
  rw [sendEvent_unreached hn]
  exact ⟨advanced_congr h1 (reg_popRx_gateway he hv (by decide) ..), (rflag_congr (reg_popRx_gateway he hv (by decide) ..)).trans h2⟩

/-! ### Events that enter (R324, R325) -/

/-- The key table's entry of a fabric event. -/
def keyEntry (c : Chip) (f : DWord) : Nat := (mapGet (fun _ => 0#64) c.gw.keyTable (262144 * fEpoch f + xKey f)).toNat

/-- The tap of an entry at engine `e`'s gateway, a good one in its place. -/
def entryTap (c : Chip) (e x : Nat) : Nat := gatewayIn c ((engineTaps (2 * (e / 2) + bits x 24 21 / 5)).getD (bits x 24 21 % 5) 0)

theorem inboundEvent_copies {e v : Nat} {c : Chip} {f : DWord} {rest : List DWord} (hr : c.gw.reasm = []) (hrx : rxAt c e v = f :: rest)
    (hev : isEvent f = true) (hv : v < 2) (hu : xCast f = 0) (hh : eventHop c f = (true, none)) (hc : isCopied c e v = false) :
    inboundEvent e v c = popRx e v 1 (inboundCopy e f c) := by
  have h2 : decide (2 ≤ v) = false := decide_eq_false (by omega)
  have h3 : ¬ (0 : Nat) = 3 := by decide
  unfold inboundEvent
  rw [injectAll_empty hr]
  simp only [hrx, hh, hev, h2, hu, hc, h3, if_false, if_true, Bool.not_true, Bool.not_false, Bool.or_false, Bool.and_true,
    Bool.false_eq_true, Option.isNone_none, Bool.true_or]

/-- Whether an entry names a tile and a tap (Table 11.14). -/
def keyWordOk (x : Nat) : Bool := bit x 63 && bits x 62 61 != 3 && decide (bits x 24 21 < 10)

/-- The copy of event `f` as it enters reassembly with number `no`. -/
def entering (e x tap tb : Nat) (f : DWord) (no : Nat) : Inbound :=
  { no := no, dir := e / 2, lane := xLane f, flit := meshEvent x f, tap := tap, tb := tb, fenced := fFence f }

/-- The copy of an event with a good entry: late, into a reset, without a token, or into reassembly. -/
def copyTaken (e x tap tb : Nat) (f : DWord) (d : Chip) : Chip :=
  if lateFlit d (meshEvent x f) then raise Reg.GW_FAULT 0 (count Reg.GW_DROP_LATE 1 d)
  else if tapInReset d tap then count Reg.GW_DROP_RESET 1 d
  else if tokens d (e / 2) (xLane f) = 0 then raise Reg.GW_FAULT 2 (count Reg.GW_DROP_FULL 1 d)
  else
    (fun c' => when_ (fFence f && c'.gw.reasm.any (fun y => y.no == d.gw.stamp)) (count Reg.GW_FENCE_HELD 1) c')
      (injectAll (modGw (fun G => { G with stamp := G.stamp + 1, reasm := G.reasm ++ [entering e x tap tb f G.stamp] })
        (setTokens (e / 2) (xLane f) (tokens d (e / 2) (xLane f) - 1) d)))

/-- The copy of an event whose entry carries no mark. -/
theorem inboundCopy_unmarked {e : Nat} {c : Chip} {f : DWord}
    (hmark : numOf c.gw.ktMark (524288 * (e / 4) + (262144 * fEpoch f + xKey f)) = 0) : ∃ tb, inboundCopy e f c =
      if keyWordOk (keyEntry c f) then copyTaken e (keyEntry c f) (entryTap c e (keyEntry c f)) tb f (fabTally tb (fParity f) 1 1 c)
      else raise Reg.GW_FAULT 1 (count Reg.GW_DROP_NOKEY 1 (fabTally tb (fParity f) 1 1 c)) := by
  have h2 : ¬ (0 : Nat) = 2 := by decide
  have h1 : ¬ (0 : Nat) = 1 := by decide
  have hne : ((0 : Nat) != 2) = true := rfl
  unfold keyEntry keyWordOk inboundCopy
  simp only [hmark, h1, h2, hne, if_false, Bool.and_true]
  generalize (mapGet (fun _ => 0#64) c.gw.keyTable (262144 * fEpoch f + xKey f)).toNat = x
  cases (bit x 63 && bits x 62 61 != 3 && decide (bits x 24 21 < 10))
  · simp only [Bool.not_false, if_true, Bool.false_eq_true, if_false]
    exact ⟨_, rfl⟩
  · simp only [Bool.not_true, if_true, Bool.false_eq_true, if_false, copyTaken]
    exact ⟨_, rfl⟩

theorem wires_popRx (e v n : Nat) (c : Chip) : (popRx e v n c).wires = c.wires := rfl
theorem wire_popRx (e v n : Nat) (c : Chip) (t p u : Nat) : wire (popRx e v n c) t p u = wire c t p u := rfl
theorem gw_popRx (e v n : Nat) (c : Chip) : (popRx e v n c).gw = c.gw := rfl
theorem lateFlit_fabTally (tb par item n : Nat) (c : Chip) (m : DWord) : lateFlit (fabTally tb par item n c) m = lateFlit c m := rfl
theorem tapInReset_fabTally (tb par item n : Nat) (c : Chip) (k : Nat) : tapInReset (fabTally tb par item n c) k = tapInReset c k := rfl
theorem tokens_fabTally (tb par item n : Nat) (c : Chip) (d l : Nat) : tokens (fabTally tb par item n c) d l = tokens c d l := rfl

/-- A copy that nothing holds back is injected. -/
theorem injectAll_one {c : Chip} {y : Inbound} (h : c.gw.reasm = [y]) (hf : y.fenced = false)
    (hroom : inRoom c (tapTile y.tap) 5 1 = true) : injectAll c = modGw (fun G => { G with reasm := [] }) (injectCopy y c) := by
  have hp : pumpReasm [y] [] c = modGw (fun G => { G with reasm := [] }) (injectCopy y c) := by
    unfold pumpReasm
    simp only [List.any_nil, Bool.not_false, fenceFree, hf, Bool.true_or, hroom, Bool.and_self, if_true]
    rfl
  have hempty (d : Chip) : pumpReasm [] [] (modGw (fun G => { G with reasm := [] }) d) = modGw (fun G => { G with reasm := [] }) d := rfl
  unfold injectAll
  rw [h, List.length_singleton]
  unfold injectRounds
  rw [h, hp]
  simp only [List.length_singleton]
  unfold injectRounds
  rw [show (modGw (fun G => { G with reasm := [] }) (injectCopy y c)).gw.reasm = [] from rfl, hempty]
  rfl

theorem xLane_lt (f : DWord) : xLane f < 2 := by
  unfold xLane bits
  omega

theorem tokens_setTokens (d n : Nat) {l : Nat} (hl : l < 2) (c : Chip) : tokens (setTokens d l n c) d l = n % 1024 := by
  unfold tokens setTokens
  rw [rfld_setFld _ _ _ _ _ (by omega) (by omega), show 16 * l + 9 + 1 - 16 * l = 10 by omega]
  rfl

theorem tokens_lt (c : Chip) (d l : Nat) : tokens c d l < 1024 := by
  unfold tokens rfld fld bits
  rw [show 16 * l + 9 + 1 - 16 * l = 10 by omega]
  omega

section
variable (g : Gateway → Gateway) (d l n : Nat) (c : Chip)

theorem tokens_modGw : tokens (modGw g c) d l = tokens c d l := rfl
theorem inRoom_modGw (t p v : Nat) : inRoom (modGw g c) t p v = inRoom c t p v := rfl
theorem wire_modGw (t p v : Nat) : wire (modGw g c) t p v = wire c t p v := rfl
theorem inRoom_setTokens (t p v : Nat) : inRoom (setTokens d l n c) t p v = inRoom c t p v := rfl
theorem wire_setTokens (t p v : Nat) : wire (setTokens d l n c) t p v = wire c t p v := rfl

end

theorem injectCopy_facts (y : Inbound) (hl : y.lane < 2) (c : Chip) :
    wire (injectCopy y c) (tapTile y.tap) 5 1 = wire c (tapTile y.tap) 5 1 ++ [oneFlit 1 y.flit] ∧
      tokens (injectCopy y c) y.dir y.lane = (tokens c y.dir y.lane + 1) % 1024 ∧ (injectCopy y c).links = c.links :=
  ⟨wire_putWire_same (tapTile y.tap) 5 (oneFlit 1 y.flit) c, tokens_setTokens _ _ hl _, rfl⟩

/-- Injecting leaves the links. -/
theorem links_pumpReasm (xs kept : List Inbound) (c : Chip) : (pumpReasm xs kept c).links = c.links := by
  have hmark (b : Bool) (d l k : Nat) (g : DWord → Bool) (x : Chip) : (when_ b (useMark d l k g) x).links = x.links := by
    unfold when_ useMark
    split
    · split <;> rfl
    · rfl
  induction xs generalizing kept c with
  | nil => rfl
  | cons x xs ih =>
    unfold pumpReasm
    simp only
    split
    · rw [ih]
      exact hmark ..
    · exact ih _ _

theorem links_injectRounds (n : Nat) (c : Chip) : (injectRounds n c).links = c.links := by
  induction n generalizing c with
  | zero => rfl
  | succ n ih =>
    unfold injectRounds
    simp only
    split
    · rw [ih, links_pumpReasm]
    · exact links_pumpReasm ..

theorem links_when {c : Chip} {g : Chip → Chip} (b : Bool) (h : (g c).links = c.links) : (when_ b g c).links = c.links := by
  cases b
  · rfl
  · exact h

theorem links_copyTaken (e x tap tb : Nat) (f : DWord) (d : Chip) : (copyTaken e x tap tb f d).links = d.links := by
  unfold copyTaken
  split
  · rfl
  · split
    · rfl
    · split
      · rfl
      · exact (links_when _ rfl).trans (links_injectRounds ..)

/-- A copy that nothing holds back goes through reassembly at once, and its token is back. -/
theorem copyTaken_enters {e x tap : Nat} {f : DWord} {d : Chip} (hl : lateFlit d (meshEvent x f) = false)
    (hreset : tapInReset d tap = false) (ht : tokens d (e / 2) (xLane f) ≠ 0) (hfence : fFence f = false) (hnil : d.gw.reasm = [])
    (hroom : inRoom d (tapTile tap) 5 1 = true) (tb : Nat) :
    wire (copyTaken e x tap tb f d) (tapTile tap) 5 1 = wire d (tapTile tap) 5 1 ++ [oneFlit 1 (meshEvent x f)] ∧
      tokens (copyTaken e x tap tb f d) (e / 2) (xLane f) = tokens d (e / 2) (xLane f) ∧ (copyTaken e x tap tb f d).gw.reasm = [] := by
  have hlt := tokens_lt d (e / 2) (xLane f)
  obtain ⟨c2, hc2⟩ : ∃ c2, c2 = modGw (fun G => { G with stamp := G.stamp + 1, reasm := G.reasm ++ [entering e x tap tb f G.stamp] })
    (setTokens (e / 2) (xLane f) (tokens d (e / 2) (xLane f) - 1) d) := ⟨_, rfl⟩
  have hreasm : c2.gw.reasm = [entering e x tap tb f d.gw.stamp] := by
    rw [hc2, ← List.nil_append [entering e x tap tb f d.gw.stamp], ← hnil]
    rfl
  have htok : tokens c2 (e / 2) (xLane f) = tokens d (e / 2) (xLane f) - 1 := by
    rw [hc2, tokens_modGw, tokens_setTokens _ _ (xLane_lt f), Nat.mod_eq_of_lt (by omega)]
  have hroom2 : inRoom c2 (tapTile tap) 5 1 = true := by
    rw [hc2, inRoom_modGw, inRoom_setTokens, hroom]
  have hwire : wire c2 (tapTile tap) 5 1 = wire d (tapTile tap) 5 1 := by
    rw [hc2, wire_modGw, wire_setTokens]
  have he : copyTaken e x tap tb f d = modGw (fun G => { G with reasm := [] }) (injectCopy (entering e x tap tb f d.gw.stamp) c2) := by
    rw [copyTaken, if_neg (by rw [hl]; decide), if_neg (by rw [hreset]; decide), if_neg ht, ← hc2, injectAll_one hreasm hfence hroom2,
      hfence]
    rfl
  obtain ⟨h1, h2, -⟩ := injectCopy_facts (entering e x tap tb f d.gw.stamp) (xLane_lt f) c2
  have hback : tokens (injectCopy (entering e x tap tb f d.gw.stamp) c2) (e / 2) (xLane f) = (tokens c2 (e / 2) (xLane f) + 1) % 1024 := h2
  have hon : wire (injectCopy (entering e x tap tb f d.gw.stamp) c2) (tapTile tap) 5 1 =
      wire c2 (tapTile tap) 5 1 ++ [oneFlit 1 (meshEvent x f)] := h1
  rw [he, wire_modGw, tokens_modGw, hon, hback, hwire, htok]
  exact ⟨rfl, by omega, rfl⟩

/-- What a unicast event for this device leaves, by its entry and by what its tap and its lane's tokens allow. -/
theorem inboundEvent_outcome {e v : Nat} (he : e < 8) (hv : v < 2) {c : Chip} {f : DWord} {rest : List DWord}
    (hrx : rxAt c e v = f :: rest) (hev : isEvent f = true) (hu : xCast f = 0) (hfence : fFence f = false) (hr : c.gw.reasm = [])
    (hh : eventHop c f = (true, none)) (hc : isCopied c e v = false)
    (hmark : numOf c.gw.ktMark (524288 * (e / 4) + (262144 * fEpoch f + xKey f)) = 0) :
    rxAt (inboundEvent e v c) e v = rest ∧
      (bit (keyEntry c f) 63 = false → Advanced Reg.GW_DROP_NOKEY 1 c (inboundEvent e v c)) ∧
      (bit (keyEntry c f) 63 = true → bits (keyEntry c f) 62 61 ≠ 3 → bits (keyEntry c f) 24 21 < 10 →
        (lateFlit c (meshEvent (keyEntry c f) f) = true → Advanced Reg.GW_DROP_LATE 1 c (inboundEvent e v c)) ∧
        (lateFlit c (meshEvent (keyEntry c f) f) = false → tapInReset c (entryTap c e (keyEntry c f)) = true →
          Advanced Reg.GW_DROP_RESET 1 c (inboundEvent e v c)) ∧
        (lateFlit c (meshEvent (keyEntry c f) f) = false → tapInReset c (entryTap c e (keyEntry c f)) = false →
          (tokens c (e / 2) (xLane f) = 0 → Advanced Reg.GW_DROP_FULL 1 c (inboundEvent e v c)) ∧
          (tokens c (e / 2) (xLane f) ≠ 0 → inRoom c (tapTile (entryTap c e (keyEntry c f))) 5 1 = true →
            wire (inboundEvent e v c) (tapTile (entryTap c e (keyEntry c f))) 5 1 =
                wire c (tapTile (entryTap c e (keyEntry c f))) 5 1 ++ [oneFlit 1 (meshEvent (keyEntry c f) f)] ∧
              tokens (inboundEvent e v c) (e / 2) (xLane f) = tokens c (e / 2) (xLane f) ∧ (inboundEvent e v c).gw.reasm = []))) := by
  have hpop (a : Nat) (ha : Reg.GW_TOPO ≤ a) (x : Chip) : reg (popRx e v 1 x) a = reg x a := reg_popRx_gateway he (by omega) ha 1 x
  obtain ⟨tb, hcopy⟩ := inboundCopy_unmarked hmark
  generalize hd : fabTally tb (fParity f) 1 1 c = d at hcopy
  have hregd (a : Nat) : reg d a = reg c a := by rw [← hd]; rfl
  have hrxd : rxAt d e v = rxAt c e v := by rw [← hd]; rfl
  rw [inboundEvent_copies hr hrx hev hv hu hh hc, hcopy]
  refine ⟨?_, fun h => ?_, fun h h3 h10 => ?_⟩
  · rw [rxAt_popRx]
    split
    · rw [rxAt, linkAt, links_copyTaken, ← linkAt, ← rxAt, hrxd, hrx]
      rfl
    · exact (congrArg (List.drop 1) (hrxd.trans hrx)).trans rfl
  · rw [if_neg (by rw [keyWordOk, h, Bool.false_and, Bool.false_and]; decide)]
    exact advanced_congr (advanced_of_count (hregd _) (reg_raise_ne (by decide) 1 _)) (hpop _ (by decide) _)
  rw [if_pos (by rw [keyWordOk, h, bne_iff_ne.2 h3, decide_eq_true h10]; rfl)]
  have hlate : lateFlit d (meshEvent (keyEntry c f) f) = lateFlit c (meshEvent (keyEntry c f) f) := by
    rw [← hd, lateFlit_fabTally]
  have hres (k : Nat) : tapInReset d k = tapInReset c k := by rw [← hd, tapInReset_fabTally]
  have htok : tokens d (e / 2) (xLane f) = tokens c (e / 2) (xLane f) := by rw [← hd, tokens_fabTally]
  generalize entryTap c e (keyEntry c f) = tap
  generalize keyEntry c f = x at *
  refine ⟨fun hl => ?_, fun hl hreset => ?_, fun hl hreset => ⟨fun ht => ?_, fun ht hroom => ?_⟩⟩
  · rw [copyTaken, if_pos (hlate.trans hl)]
    exact advanced_congr (advanced_of_count (hregd _) (reg_raise_ne (by decide) 0 _)) (hpop _ (by decide) _)
  · rw [copyTaken, if_neg (by rw [hlate, hl]; decide), if_pos ((hres tap).trans hreset)]
    exact advanced_congr (advanced_of_count (hregd _) rfl) (hpop _ (by decide) _)
  · rw [copyTaken, if_neg (by rw [hlate, hl]; decide), if_neg (by rw [hres, hreset]; decide), if_pos (htok.trans ht)]
    exact advanced_congr (advanced_of_count (hregd _) (reg_raise_ne (by decide) 2 _)) (hpop _ (by decide) _)
  · rw [← hlate] at hl
    rw [← hres] at hreset
    rw [← htok] at ht
    have hnil : d.gw.reasm = [] := by rw [← hd]; exact hr
    have hroomd : inRoom d (tapTile tap) 5 1 = true := by rw [← hd]; exact hroom
    obtain ⟨h1, h2, h4⟩ := copyTaken_enters hl hreset ht hfence hnil hroomd tb
    have hwire : wire d (tapTile tap) 5 1 = wire c (tapTile tap) 5 1 := by rw [← hd]; rfl
    rw [wire_popRx, gw_popRx, ← hwire, ← htok, ← h2]
    refine ⟨h1, ?_, h4⟩
    exact rfld_congr (hpop (Reg.GW_TOK (e / 2)) (by unfold Reg.GW_TOPO Reg.GW_TOK; omega) _)

/-! ### Packets that enter (R319, R309) -/

/-- The packet's flits, each with its POISON, stand behind what lies on their wire. -/
theorem wire_injectPacket (tap : Nat) (h : DWord) (body : List DWord) (c : Chip) :
    (wire (injectPacket tap (h :: body) c) (tapTile tap) 5 (vcOf (fKind h) false)).map (fun f => f.data) =
      (wire c (tapTile tap) 5 (vcOf (fKind h) false)).map (fun f => f.data) ++ (h :: body).map meshFlit := by
  have hdata := data_packet (vcOf (fKind h) false) (meshFlit h) (body.map meshFlit)
  have hlen : (packet (vcOf (fKind h) false) (meshFlit h) (body.map meshFlit)).length = body.length + 1 := by
    have := congrArg List.length hdata
    simpa using this
  unfold injectPacket
  simp only
  rw [wire_sendPacket (v := vcOf (fKind h) false), List.map_append, List.map_map, List.map_cons, ← hdata]
  · congr 1
    have hz : ((fun f : Flit => f.data) ∘ fun x : Flit × DWord => { x.1 with poison := xPoison x.2 }) =
        (fun f : Flit => f.data) ∘ Prod.fst := rfl
    rw [hz, ← List.map_map, List.map_fst_zip]
    rw [hlen]
    simp
  · intro f hf
    obtain ⟨⟨a, b⟩, hab, rfl⟩ := List.mem_map.1 hf
    exact vc_packet _ _ _ a (List.of_mem_zip hab).1

/-- An unfenced packet for this device off its buffer: into the mesh, or dropped in a reset. -/
theorem inboundPacket_takes {e v row : Nat} {c : Chip} {p h : DWord} {body : List DWord}
    (hrx : rxPacket (rxAt c e v) = some (p :: h :: body)) (hv : 2 ≤ v) (hm : isMark p = false) (hk : fKind p ≠ 3)
    (hd : xDest p = ownId c) (hf : fFence p = false) : inboundPacket e v row c =
      if tapInReset c (gatewayIn c ((engineTaps e).getD row 0)) then count Reg.GW_DROP_RESET 1 (popRx e v (body.length + 2) c)
      else noteAsked p h (injectPacket (gatewayIn c ((engineTaps e).getD row 0)) (h :: body) (popRx e v (body.length + 2) c)) := by
  have h2 : decide (v < 2) = false := decide_eq_false (by omega)
  have h3 : (fKind p == 3) = false := beq_false_of_ne hk
  have h4 : (xDest p != ownId c) = false := by rw [hd, bne_self_eq_false]
  have hhold : fenceHolds c (e / 2) p (v / 2) = false := by rw [fenceHolds, hf, Bool.false_and]
  unfold inboundPacket
  rw [hrx]
  simp only [h2, hm, h3, h4, Bool.or_self, Bool.false_eq_true, if_false, hhold, hf, when_]
  split <;> rfl

theorem links_injectPacket (tap : Nat) (fs : List DWord) (c : Chip) :
    (injectPacket tap fs c).links = c.links ∧ (injectPacket tap fs c).gw = c.gw := by
  cases fs with
  | nil => exact ⟨rfl, rfl⟩
  | cons f fs =>
    exact ⟨forAll_leaves Chip.links (f := putWire (tapTile tap) 5) _ (fun _ _ => rfl) c,
      forAll_leaves Chip.gw (f := putWire (tapTile tap) 5) _ (fun _ _ => rfl) c⟩

theorem noteAsked_facts (p h : DWord) (c : Chip) : (noteAsked p h c).links = c.links ∧ (noteAsked p h c).wires = c.wires ∧
    (noteAsked p h c).gw.asked = c.gw.asked ++ (if fKind p = 4 then [{ src := pSrc p, tile := fSrc h, tag := fSub h % 8192 }] else []) := by
  unfold noteAsked
  by_cases hk : fKind p = 4
  · rw [if_pos hk, hk]
    exact ⟨rfl, rfl, rfl⟩
  · rw [if_neg hk, beq_false_of_ne hk, List.append_nil]
    exact ⟨rfl, rfl, rfl⟩

theorem inboundPacket_outcome {e v row : Nat} (he : e < 8) (hv10 : v < 10) {c : Chip} {p h : DWord} {body : List DWord}
    (hrx : rxPacket (rxAt c e v) = some (p :: h :: body)) (hv : 2 ≤ v) (hm : isMark p = false) (hk : fKind p ≠ 3)
    (hd : xDest p = ownId c) (hf : fFence p = false) {tap : Nat} (htap : tap = gatewayIn c ((engineTaps e).getD row 0)) :
    rxAt (inboundPacket e v row c) e v = (rxAt c e v).drop (body.length + 2) ∧
      (tapInReset c tap = false → (inboundPacket e v row c).gw.asked = c.gw.asked ++ (if fKind p = 4 then
          [{ src := pSrc p, tile := fSrc h, tag := fSub h % 8192 }] else []) ∧
        (wire (inboundPacket e v row c) (tapTile tap) 5 (vcOf (fKind h) false)).map (fun f => f.data) =
          (wire c (tapTile tap) 5 (vcOf (fKind h) false)).map (fun f => f.data) ++ (h :: body).map meshFlit) ∧
      (tapInReset c tap = true → Advanced Reg.GW_DROP_RESET 1 c (inboundPacket e v row c) ∧
        (inboundPacket e v row c).wires = c.wires) := by
  rw [inboundPacket_takes hrx hv hm hk hd hf, ← htap]
  have hpop := rxAt_popRx e v (body.length + 2) c
  have hwires := wires_popRx e v (body.length + 2) c
  have hgw := gw_popRx e v (body.length + 2) c
  have hreg : reg (popRx e v (body.length + 2) c) Reg.GW_DROP_RESET = reg c Reg.GW_DROP_RESET := reg_popRx_gateway he hv10 (by decide) ..
  generalize popRx e v (body.length + 2) c = d at *
  cases hreset : tapInReset c tap
  · rw [if_neg (by decide)]
    obtain ⟨n1, n2, n3⟩ := noteAsked_facts p h (injectPacket tap (h :: body) d)
    obtain ⟨i1, i2⟩ := links_injectPacket tap (h :: body) d
    refine ⟨?_, fun _ => ⟨by rw [n3, i2, hgw], ?_⟩, fun h => absurd h (by decide)⟩
    · rw [rxAt, linkAt, n1, i1]
      exact hpop
    · have hw : wire (noteAsked p h (injectPacket tap (h :: body) d)) (tapTile tap) 5 (vcOf (fKind h) false) =
          wire (injectPacket tap (h :: body) d) (tapTile tap) 5 (vcOf (fKind h) false) := congrArg (listOf · _) n2
      rw [hw, wire_injectPacket]
      unfold wire
      rw [hwires]
  · rw [if_pos rfl]
    exact ⟨hpop, fun h => absurd h (by decide), fun _ => ⟨advanced_of_count hreg rfl, hwires⟩⟩

/-- Settles O43: each command is cut at the branch its premises name. -/
theorem fabricTraffic : Obligations.FabricTraffic := by
  refine ⟨?_, ?_, ?_, ?_⟩
  · intro k s e f c1 tb w i x step hu hr ht
    exact ⟨_, completes_done rfl, outboundEvent_outcome hu hr ht⟩
  · intro k dest s e d e' h body c1 dst p flits hu hd hn ht hf he
    exact ⟨completes_done (congrArg (done s) (outboundPacket_queues rfl hu hd hn ht hf he)), fun ha => packetDest_unasked ha _ _,
      fun a rest ha hans => packetDest_answers ha hans _⟩
  · intro e v s f rest hrx hev
    refine ⟨fun d hh hfwd => ⟨fun hroom => ?_, fun hroom => ?_⟩, ?_⟩
    · exact completes_done (congrArg (done s) (transit_waits hrx hev hh hroom))
    · exact ⟨_, completes_done rfl, transit_outcome e.isLt v.isLt hrx hev hh hfwd hroom⟩
    · intro hv hu hd hf hr hh hc i x tap hmark
      exact ⟨_, completes_done rfl, inboundEvent_outcome e.isLt hv hrx hev hu hf hr hh hc hmark⟩
  · intro e v row s p h body tap hrx hv hm hk hd hf
    exact ⟨_, completes_done rfl, inboundPacket_outcome e.isLt v.isLt hrx hv hm hk hd hf rfl⟩

end Sys2Proof.Machine
end

section
/-!
PROOFS. Settles O55: the resets of the host interface and its link (R491, R493), the aperture (R481), the recovery transfer (R494)
and I3C (R528).
-/

namespace Sys2Proof.Machine

open Sys2Proof.Safety

/-! ### Records dropped from the hold (R491) -/

theorem RR_DROP_ne_FAULT (p : Nat) : Reg.HIF_RR_DROP p ≠ Reg.HIF_FAULT := by unfold Reg.HIF_RR_DROP Reg.HIF_FAULT; omega

theorem RR_DROP_inj {p q : Nat} (h : p ≠ q) : Reg.HIF_RR_DROP p ≠ Reg.HIF_RR_DROP q := by unfold Reg.HIF_RR_DROP; omega

theorem streamAt_modStream_ne {p q : Nat} (h : q ≠ p) (f : Stream → Stream) (c : Chip) : streamAt (modStream p f c) q = streamAt c q := by
  simp [streamAt, modStream, mapGet_mapPut_ne _ _ _ h]

theorem reg_dropRecord {p a : Nat} (h1 : a ≠ Reg.HIF_RR_DROP p) (h2 : a ≠ Reg.HIF_FAULT) (c : Chip) :
    reg (dropRecord p c) a = reg c a := (reg_raise_ne h2 0 _).trans (reg_count_ne h1 1 c)

theorem advanced_dropRecords {α : Type} (p : Nat) (l : List α) (c : Chip) :
    Advanced (Reg.HIF_RR_DROP p) l.length c (forAll (fun _ => dropRecord p) l c) := by
  induction l generalizing c with
  | nil =>
    have := (reg c (Reg.HIF_RR_DROP p)).isLt
    rw [Advanced, forAll_nil, List.length_nil]
    omega
  | cons x xs ih =>
    have h1 : Advanced (Reg.HIF_RR_DROP p) 1 c (dropRecord p c) := advanced_of_count (d := c) rfl (reg_raise_ne (RR_DROP_ne_FAULT p) 0 _)
    have h2 := ih (dropRecord p c)
    rw [forAll_cons, Advanced, List.length_cons]
    rw [Advanced] at h1 h2
    rw [h2, h1]
    omega

/-- What stays of a chip when stream `p`'s held records are dropped. -/
theorem dropHeld_keeps (p : Nat) (c : Chip) :
    (∀ a, a ≠ Reg.HIF_RR_DROP p → a ≠ Reg.HIF_FAULT → reg (dropHeld p c) a = reg c a) ∧ (dropHeld p c).host = c.host ∧
      (∀ q, q ≠ p → streamAt (dropHeld p c) q = streamAt c q) :=
  ⟨fun _ h1 h2 => reg_forAll (f := fun _ => dropRecord p) _ (fun _ _ d => reg_dropRecord h1 h2 d) _,
    forAll_leaves Chip.host (f := fun _ => dropRecord p) _ (fun _ _ => rfl) _,
    fun q h => (forAll_leaves (fun d => streamAt d q) (f := fun _ => dropRecord p) _ (fun _ _ => rfl) _).trans (streamAt_modStream_ne h _ c)⟩

/-- The hold of stream `p` is empty, its records are counted, and those to come are dropped. -/
theorem dropHeld_drops (p : Nat) (c : Chip) : (streamAt (dropHeld p c) p).out = [] ∧ (streamAt (dropHeld p c) p).dropping = true ∧
    Advanced (Reg.HIF_RR_DROP p) (streamAt c p).out.length c (dropHeld p c) := by
  have hs : streamAt (dropHeld p c) p = { streamAt c p with out := [], dropping := true, notified := false } :=
    (forAll_leaves (fun d => streamAt d p) (f := fun _ => dropRecord p) _ (fun _ _ => rfl) _).trans (streamAt_modStream_same ..)
  have hadv := advanced_dropRecords p (List.range (streamAt c p).out.length)
    (modStream p (fun S => { S with out := [], dropping := true, notified := false }) c)
  rw [List.length_range] at hadv
  exact ⟨by rw [hs], by rw [hs], hadv⟩

/-! ### Function-level reset (R493) -/

/-- Registers that a function-level reset keeps. -/
def flrKeeps (a : Nat) : Bool := !(decide (hifBase ≤ a) && decide (a < rcvBase)) || keptAtFlr a

/-- The taken commands that run on after a function-level reset, without completion. -/
def runningOn (l : List Taken) : List Taken :=
  (l.filter (fun x => decide (x.phase < 2) && decide (nAt x.record 0 2 ≤ 6))).map (fun x => { x with live := false })

/-- The chip with the registers and the host interface's own state as a function-level reset leaves them. -/
def flrCleared (c : Chip) : Chip :=
  { c with regs := c.regs.filter (fun x => flrKeeps x.1), host := { mem := c.host.mem, taken := runningOn c.host.taken } }

theorem flr_eq (c : Chip) : flr c = forAll dropHeld (List.range 16) (count Reg.HIF_FLR_COUNT 1 (flrCleared c)) := rfl

theorem reg_flrCleared (c : Chip) (a : Nat) : reg (flrCleared c) a = if flrKeeps a then reg c a else regReset a :=
  mapGet_filter_keys regReset flrKeeps c.regs a

theorem reg_forAll_dropHeld {a : Nat} (h1 : ∀ p, p < 16 → a ≠ Reg.HIF_RR_DROP p) (h2 : a ≠ Reg.HIF_FAULT) (c : Chip) :
    reg (forAll dropHeld (List.range 16) c) a = reg c a :=
  reg_forAll _ (fun p hp d => (dropHeld_keeps p d).1 a (h1 p (List.mem_range.1 hp)) h2) c

/-- A register that is neither the count of resets nor written as records are dropped. -/
theorem reg_flr {a : Nat} (h1 : ∀ p, p < 16 → a ≠ Reg.HIF_RR_DROP p) (h2 : a ≠ Reg.HIF_FAULT) (h3 : a ≠ Reg.HIF_FLR_COUNT) (c : Chip) :
    reg (flr c) a = if flrKeeps a then reg c a else regReset a := by
  rw [flr_eq, reg_forAll_dropHeld h1 h2, reg_count_ne h3, reg_flrCleared]

theorem host_flr (c : Chip) : (flr c).host = (flrCleared c).host := by
  rw [flr_eq]
  exact forAll_leaves Chip.host _ (fun p d => (dropHeld_keeps p d).2.1) _

theorem CQ_CFG_reset : ∀ q, q < 32 → flag (regReset (Reg.HIF_CQ_CFG q)) 31 = false := by decide +kernel

theorem RR_CFG_reset : ∀ p, p < 16 → flag (regReset (Reg.HIF_RR_CFG p)) 31 = false := by decide +kernel

theorem RR_DROP_reset : ∀ p, p < 16 → regReset (Reg.HIF_RR_DROP p) = 0#32 := by decide +kernel

theorem flrKeeps_outside {a : Nat} (h : a < hifBase ∨ rcvBase ≤ a) : flrKeeps a = true := by
  have hd : (decide (hifBase ≤ a) && decide (a < rcvBase)) = false := by
    rcases h with h | h
    · rw [decide_eq_false (Nat.not_le.2 h), Bool.false_and]
    · rw [decide_eq_false (Nat.not_lt.2 h), Bool.and_false]
  rw [flrKeeps, hd]
  rfl

theorem flrKeeps_inside {a : Nat} (h1 : hifBase + 0x40 ≤ a) (h2 : a < rcvBase) : flrKeeps a = false := by
  have hk : keptAtFlr a = false := by
    unfold keptAtFlr Reg.HIF_PCI_ID Reg.HIF_CTRL Reg.HIF_FLR_COUNT Reg.HIF_LINK_STATUS
    unfold hifBase at h1
    simp only [Bool.or_eq_false_iff, beq_eq_false_iff_ne]
    omega
  rw [flrKeeps, decide_eq_true (by omega), decide_eq_true h2, hk]
  rfl

/-- The ranges of the block's registers above its first ones. -/
theorem hif_ranges {p q : Nat} (hp : p < 16) (hq : q < 32) :
    (hifBase + 0x40 ≤ Reg.HIF_CQ_CFG q ∧ Reg.HIF_CQ_CFG q < rcvBase ∧ ∀ i, i < 16 → Reg.HIF_CQ_CFG q ≠ Reg.HIF_RR_DROP i) ∧
      (hifBase + 0x40 ≤ Reg.HIF_RR_CFG p ∧ Reg.HIF_RR_CFG p < rcvBase ∧ ∀ i, i < 16 → Reg.HIF_RR_CFG p ≠ Reg.HIF_RR_DROP i) ∧
      hifBase + 0x40 ≤ Reg.HIF_RR_DROP p ∧ Reg.HIF_RR_DROP p < rcvBase := by
  unfold hifBase rcvBase Reg.HIF_CQ_CFG Reg.HIF_RR_CFG Reg.HIF_RR_DROP
  refine ⟨⟨by omega, by omega, fun i hi => by omega⟩, ⟨by omega, by omega, fun i hi => by omega⟩, by omega, by omega⟩

/-- A register of the block's first ones is no count of dropped records. -/
theorem ne_RR_DROP_of_lt {a : Nat} (h : a < hifBase + 0x40 ∨ rcvBase ≤ a) : ∀ p, p < 16 → a ≠ Reg.HIF_RR_DROP p := by
  intro p hp
  have := (hif_ranges hp (by decide : 0 < 32)).2.2
  omega

/-- What a reset of the host interface leaves, whatever becomes of its link's status. -/
def FlrDone (c c' : Chip) : Prop :=
  (∀ q, q < 32 → cqOn c' q = false) ∧ (∀ p, p < 16 → rflag c' (Reg.HIF_RR_CFG p) 31 = false) ∧
  (∀ a, (a < hifBase ∨ rcvBase ≤ a) → reg c' a = reg c a) ∧ reg c' Reg.HIF_CTRL = reg c Reg.HIF_CTRL ∧
  reg c' Reg.HIF_PCI_ID = reg c Reg.HIF_PCI_ID ∧ Advanced Reg.HIF_FLR_COUNT 1 c c' ∧
  reg c' Reg.HIF_APERTURE_BASE = regReset Reg.HIF_APERTURE_BASE ∧
  c'.host.table = [] ∧ c'.host.pend = 0#64 ∧ c'.host.mem = c.host.mem ∧ (∀ x, x ∈ c'.host.taken → x.live = false) ∧
  (∀ p, p < 16 → (streamAt c' p).out = [] ∧ (streamAt c' p).dropping = true ∧
    ((streamAt c p).out.length ≤ 64 → (reg c' (Reg.HIF_RR_DROP p)).toNat = (streamAt c p).out.length))

/-- Each stream's hold is dropped by its own step, which no other stream's touches. -/
theorem streams_flr {p : Nat} (hp : p < 16) (c : Chip) : (streamAt (flr c) p).out = [] ∧ (streamAt (flr c) p).dropping = true ∧
    ((streamAt c p).out.length ≤ 64 → (reg (flr c) (Reg.HIF_RR_DROP p)).toNat = (streamAt c p).out.length) := by
  obtain ⟨d, hd⟩ : ∃ d, d = count Reg.HIF_FLR_COUNT 1 (flrCleared c) := ⟨_, rfl⟩
  have hs : streamAt d p = streamAt c p := by rw [hd]; rfl
  have hz : reg d (Reg.HIF_RR_DROP p) = 0#32 := by
    obtain ⟨-, -, hlo, hhi⟩ := hif_ranges hp (by decide : 0 < 32)
    have hne : Reg.HIF_RR_DROP p ≠ Reg.HIF_FLR_COUNT := by unfold Reg.HIF_RR_DROP Reg.HIF_FLR_COUNT; omega
    rw [hd, reg_count_ne hne, reg_flrCleared, flrKeeps_inside hlo hhi]
    exact RR_DROP_reset p hp
  rw [flr_eq, ← hd]
  refine forAll_through (P := fun x => reg x (Reg.HIF_RR_DROP p) = 0#32 ∧ streamAt x p = streamAt c p)
    (Q := fun x => (streamAt x p).out = [] ∧ (streamAt x p).dropping = true ∧
      ((streamAt c p).out.length ≤ 64 → (reg x (Reg.HIF_RR_DROP p)).toNat = (streamAt c p).out.length))
    (List.range 16) (List.mem_range.2 hp) List.nodup_range ?_ ?_ ?_ d ⟨hz, hs⟩
  · rintro q - hq x ⟨h1, h2⟩
    obtain ⟨k1, -, k3⟩ := dropHeld_keeps q x
    exact ⟨(k1 _ (RR_DROP_inj (Ne.symm hq)) (RR_DROP_ne_FAULT p)).trans h1, (k3 p (Ne.symm hq)).trans h2⟩
  · rintro x ⟨h1, h2⟩
    obtain ⟨k1, k2, k3⟩ := dropHeld_drops p x
    refine ⟨k1, k2, fun hlen => ?_⟩
    rw [Advanced, h1, h2, show (0#32).toNat = 0 from rfl, Nat.zero_add] at k3
    omega
  · rintro q - hq x ⟨h1, h2, h3⟩
    obtain ⟨k1, -, k3⟩ := dropHeld_keeps q x
    rw [k3 p (Ne.symm hq), k1 _ (RR_DROP_inj (Ne.symm hq)) (RR_DROP_ne_FAULT p)]
    exact ⟨h1, h2, h3⟩

theorem live_flrCleared (c : Chip) : ∀ x, x ∈ (flrCleared c).host.taken → x.live = false := by
  intro x hx
  obtain ⟨y, -, rfl⟩ := List.mem_map.1 hx
  rfl

theorem flrDone_flr (c : Chip) : FlrDone c (flr c) := by
  have hfirst {a : Nat} (hlt : a < hifBase + 0x40) (h2 : a ≠ Reg.HIF_FAULT) (h3 : a ≠ Reg.HIF_FLR_COUNT) :
      reg (flr c) a = if flrKeeps a then reg c a else regReset a := reg_flr (ne_RR_DROP_of_lt (.inl hlt)) h2 h3 c
  have hhost := host_flr c
  refine ⟨fun q hq => ?_, fun p hp => ?_, fun a ha => ?_, hfirst (by decide) (by decide) (by decide), hfirst (by decide) (by decide) (by decide),
    ?_, hfirst (by decide) (by decide) (by decide), by rw [hhost]; rfl, by rw [hhost]; rfl, by rw [hhost]; rfl,
    by rw [hhost]; exact live_flrCleared c, fun p hp => streams_flr hp c⟩
  · obtain ⟨⟨hlo, hhi, hne⟩, -⟩ := hif_ranges (by decide : 0 < 16) hq
    have h : reg (flr c) (Reg.HIF_CQ_CFG q) = regReset (Reg.HIF_CQ_CFG q) := by
      rw [reg_flr hne (by unfold Reg.HIF_CQ_CFG Reg.HIF_FAULT; omega) (by unfold Reg.HIF_CQ_CFG Reg.HIF_FLR_COUNT; omega),
        flrKeeps_inside hlo hhi]
      rfl
    rw [cqOn, rflag, h]
    exact CQ_CFG_reset q hq
  · obtain ⟨-, ⟨hlo, hhi, hne⟩, -⟩ := hif_ranges hp (by decide : 0 < 32)
    have h : reg (flr c) (Reg.HIF_RR_CFG p) = regReset (Reg.HIF_RR_CFG p) := by
      rw [reg_flr hne (by unfold Reg.HIF_RR_CFG Reg.HIF_FAULT; omega) (by unfold Reg.HIF_RR_CFG Reg.HIF_FLR_COUNT; omega),
        flrKeeps_inside hlo hhi]
      rfl
    rw [rflag, h]
    exact RR_CFG_reset p hp
  · have h1 : Reg.HIF_FAULT < rcvBase ∧ hifBase ≤ Reg.HIF_FAULT := by decide
    have h2 : Reg.HIF_FLR_COUNT < rcvBase ∧ hifBase ≤ Reg.HIF_FLR_COUNT := by decide
    rw [reg_flr (ne_RR_DROP_of_lt (by omega)) (by omega) (by omega), flrKeeps_outside ha]
    rfl
  · refine advanced_congr (d := count Reg.HIF_FLR_COUNT 1 (flrCleared c)) (advanced_of_count (d := flrCleared c) ?_ rfl) ?_
    · rw [reg_flrCleared]
      rfl
    · rw [flr_eq]
      exact reg_forAll_dropHeld (ne_RR_DROP_of_lt (.inl (by decide))) (by decide) _

theorem LINK_STATUS_flr (c : Chip) : reg (flr c) Reg.HIF_LINK_STATUS = reg c Reg.HIF_LINK_STATUS :=
  reg_flr (ne_RR_DROP_of_lt (.inl (by decide))) (by decide) (by decide) c

/-- The status of the link aside, taking it down leaves what a reset leaves. -/
theorem flrDone_linkDown {c d : Chip} (h : FlrDone c d) : FlrDone c (linkDown d) := by
  have hreg {a : Nat} (ha : a ≠ Reg.HIF_LINK_STATUS) : reg (linkDown d) a = reg d a := reg_putNum_ne ha 0 d
  obtain ⟨h1, h2, h3, h4, h5, h6, h7, h8, h9, h10, h11, h12⟩ := h
  refine ⟨fun q hq => ?_, fun p hp => ?_, fun a ha => ?_, (hreg (by decide)).trans h4, (hreg (by decide)).trans h5,
    advanced_congr h6 (hreg (by decide)), (hreg (by decide)).trans h7, h8, h9, h10, h11, fun p hp => ?_⟩
  · exact (rflag_congr (hreg (by unfold Reg.HIF_CQ_CFG Reg.HIF_LINK_STATUS; omega))).trans (h1 q hq)
  · exact (rflag_congr (hreg (by unfold Reg.HIF_RR_CFG Reg.HIF_LINK_STATUS; omega))).trans (h2 p hp)
  · have : Reg.HIF_LINK_STATUS < rcvBase ∧ hifBase ≤ Reg.HIF_LINK_STATUS := by decide
    exact (hreg (by omega)).trans (h3 a ha)
  · obtain ⟨k1, k2, k3⟩ := h12 p hp
    exact ⟨k1, k2, fun hl => by rw [hreg (by unfold Reg.HIF_RR_DROP Reg.HIF_LINK_STATUS; omega)]; exact k3 hl⟩

/-! ### The link (R491) -/

theorem pcieDown_of_up {c : Chip} (h : rflag c Reg.HIF_LINK_STATUS 0 = true) : pcieDown c = raise Reg.HIF_FAULT 3 (linkDown c) := if_pos h

/-- Whether the link may come up with a rate and a width (R491). -/
def linkFits (rate width : Nat) (c : Chip) : Bool :=
  domOn c 92 && decide (3 ≤ rate) && decide (rate ≤ 5) && (width == 1 || width == 2 || width == 4)

/-- Every ring is given what waits for it. -/
def ringsServed (c : Chip) : Chip := forAll (fun p => forAll (fun _ => ringWrite p) (List.range 64)) (List.range 16) c

theorem pcieUp_unfit {rate width : Nat} {c : Chip} (h : linkFits rate width c = false) : pcieUp rate width c = c :=
  if_neg (by rw [linkFits] at h; rw [h]; decide)

theorem pcieUp_fits {rate width : Nat} {c : Chip} (h : linkFits rate width c = true) :
    pcieUp rate width c = msixFlush (ringsServed (putNum Reg.HIF_LINK_STATUS (rate * 65536 + width * 256 + 3) c)) := if_pos h

theorem ringWrite_empty {p : Nat} {c : Chip} (h : (streamAt c p).out = []) : ringWrite p c = c := by
  unfold ringWrite
  rw [h]

theorem reg_noteRecord_below {a : Nat} (h : a < Reg.DEC_S_STATUS 0) (p : Nat) (bs : List Byte) (c : Chip) :
    reg (noteRecord p bs c) a = reg c a := by
  have h0 : Reg.DEC_S_STATUS 0 = 0x200000A0C004 := rfl
  have hcount (b : Bool) (r : Nat) (hr : a ≠ r) (x : Chip) : reg (when_ b (count r 1) x) a = reg x a := by
    cases b
    · rfl
    · exact reg_count_ne hr 1 x
  have hlast (w : Nat) : a ≠ Reg.DEC_S_LAST p w := by unfold Reg.DEC_S_LAST; omega
  have hgap : a ≠ Reg.DEC_S_GAP p := by unfold Reg.DEC_S_GAP; omega
  have hret : a ≠ Reg.DEC_S_RETRACTS p := by unfold Reg.DEC_S_RETRACTS; omega
  have hrec : a ≠ Reg.DEC_S_RECORDS p := by unfold Reg.DEC_S_RECORDS; omega
  unfold noteRecord
  exact (reg_forAll _ (fun w _ d => reg_putNum_ne (hlast w) _ d) _).trans
    ((hcount _ _ hgap _).trans ((hcount _ _ hret _).trans (reg_count_ne hrec 1 c)))

/-- A record that enters its ring leaves the registers below the streams' but the ring's pointer. -/
theorem reg_ringWrite_below {a p : Nat} (h : a < Reg.DEC_S_STATUS 0) (hw : a ≠ Reg.HIF_RR_WPTR p) (c : Chip) :
    reg (ringWrite p c) a = reg c a := by
  unfold ringWrite
  split
  · rfl
  · simp only
    split
    · rw [reg_writeBack, reg_noteRecord_below h, reg_putNum_ne hw]
      rfl
    · rfl

theorem reg_ringsServed_below {a : Nat} (h : a < Reg.DEC_S_STATUS 0) (hw : ∀ p, p < 16 → a ≠ Reg.HIF_RR_WPTR p) (c : Chip) :
    reg (ringsServed c) a = reg c a :=
  reg_forAll _ (fun p hp d => reg_forAll _ (fun _ _ x => reg_ringWrite_below h (hw p (List.mem_range.1 hp)) x) d) c

theorem ringsServed_empty {c : Chip} (h : ∀ p, p < 16 → (streamAt c p).out = []) : ringsServed c = c :=
  forAll_keeps (P := fun d => d = c) _ (fun p hp d hd => by
    rw [hd]
    exact forAll_keeps (P := fun x => x = c) _ (fun _ _ x hx => by rw [hx, ringWrite_empty (h p (List.mem_range.1 hp))]) c rfl) c rfl

theorem reg_msixFlush (c : Chip) (a : Nat) : reg (msixFlush c) a = reg c a := by
  have h : Flushed c (msixFlush c) := flushed_forAll _ c
  rw [h]
  rfl

theorem msixFlush_nothing {c : Chip} (h : c.host.pend = 0#64) : msixFlush c = c := by
  refine forAll_keeps (P := fun d => d = c) (f := msixFlushOne) _ (fun v _ d hd => ?_) c rfl
  have hb : bit (0#64).toNat v = false := by simp [bit]
  rw [hd, msixFlushOne, h, hb]
  rfl

/-- LINK_STATUS of a link that has come up. -/
def linkWord (rate width : Nat) : Nat := rate * 65536 + width * 256 + 3

theorem pcieUp_outcome {rate width : Nat} {c : Chip} (h : linkFits rate width c = true) :
    reg (pcieUp rate width c) Reg.HIF_LINK_STATUS = BitVec.ofNat 32 (linkWord rate width) ∧ hostReached (pcieUp rate width c) = true ∧
      ((∀ p, p < 16 → (streamAt c p).out = []) → c.host.pend = 0#64 →
        Frame [Reg.HIF_LINK_STATUS] [] c { pcieUp rate width c with host := c.host } ∧ (pcieUp rate width c).host = c.host) := by
  have he := pcieUp_fits h
  rw [← linkWord] at he
  have hlink : reg (pcieUp rate width c) Reg.HIF_LINK_STATUS = BitVec.ofNat 32 (linkWord rate width) := by
    rw [he, reg_msixFlush, reg_ringsServed_below (by decide) (fun p _ => by unfold Reg.HIF_LINK_STATUS Reg.HIF_RR_WPTR; omega)]
    exact reg_putNum_same ..
  have hdom : reg (pcieUp rate width c) (Reg.PWR_DOM 92) = reg c (Reg.PWR_DOM 92) := by
    have h0 : Reg.PWR_DOM 92 < Reg.HIF_LINK_STATUS := by decide
    rw [he, reg_msixFlush, reg_ringsServed_below (by decide) (fun p _ => by unfold Reg.HIF_RR_WPTR; unfold Reg.HIF_LINK_STATUS at h0; omega)]
    exact reg_putNum_ne (Nat.ne_of_lt h0) _ c
  refine ⟨hlink, ?_, fun hout hpend => ?_⟩
  · have h1 : rflag (pcieUp rate width c) Reg.HIF_LINK_STATUS 0 = true := by
      rw [rflag, hlink, flag, bit_eq_testBit, BitVec.toNat_ofNat, Nat.testBit_mod_two_pow, Nat.testBit_zero]
      unfold linkWord
      simp only [Nat.zero_lt_succ, decide_true, Bool.true_and, decide_eq_true_eq]
      omega
    have h2 : domOn (pcieUp rate width c) 92 = true := by
      rw [domOn, domState, rfld_congr hdom]
      simp only [linkFits, Bool.and_eq_true] at h
      exact h.1.1.1
    rw [hostReached, h1, h2]
    rfl
  · have hs : pcieUp rate width c = putNum Reg.HIF_LINK_STATUS (linkWord rate width) c := by
      rw [he, ringsServed_empty (c := putNum Reg.HIF_LINK_STATUS (linkWord rate width) c) hout,
        msixFlush_nothing (c := putNum Reg.HIF_LINK_STATUS (linkWord rate width) c) hpend]
    rw [hs]
    exact ⟨frame_putNum _ _ List.mem_cons_self (frame_refl ..), rfl⟩

/-! ### The aperture (R481) -/

theorem apertureBase_stores : StoresBits Reg.HIF_APERTURE_BASE 0xFFFF := by
  unfold StoresBits
  decide

theorem apertureBaseWrite_facts (v : Word) (c : Chip) : rfld (plainWrite Reg.HIF_APERTURE_BASE v c) Reg.HIF_APERTURE_BASE 15 0 = fld v 15 0 ∧
    Frame [Reg.HIF_APERTURE_BASE] [] c (plainWrite Reg.HIF_APERTURE_BASE v c) := by
  obtain ⟨r, hr, -⟩ := Option.map_eq_some_iff.1 apertureBase_stores
  refine ⟨?_, (plainWrite_stores hr v c).2⟩
  rw [rfld, reg_plainWrite_same apertureBase_stores, fld_and_of_ones (by decide)]

/-! ### Recovery (R494) -/

theorem recoveryPiece_ignored {v : Word} {s : State} (h : inFallow s.chip = false ∨ flag v 31 = false) : recoveryPiece v s = s := by
  unfold recoveryPiece
  refine if_neg ?_
  rcases h with h | h <;> simp [h]

/-- The staging area with a piece added. -/
def pieceStaged (v : Word) (c : Chip) : List Byte :=
  fitTo (fld v 29 19 * 262144) c.staging ++ bytesAt c rcvBase (min 262144 (fld v 18 0)) ++
    c.staging.drop (fld v 29 19 * 262144 + min 262144 (fld v 18 0))

/-- The length of the object that a last piece ends. -/
def objectLen (v : Word) : Nat := fld v 29 19 * 262144 + min 262144 (fld v 18 0)

theorem recoveryPiece_adds {v : Word} {s : State} (hf : inFallow s.chip = true) (h31 : flag v 31 = true) (h30 : flag v 30 = false) :
    recoveryPiece v s = { s with chip := putNum Reg.HIF_RCV_STATUS (2 * 2 ^ 29) { s.chip with staging := pieceStaged v s.chip } } := by
  unfold recoveryPiece
  simp only [hf, h31, h30, Bool.and_self, if_true, Bool.false_eq_true, if_false]
  rfl

/-- The state in which the object that a last piece ends is judged. -/
def unstaged (s : State) : State := { s with chip := { s.chip with staging := [] } }

/-- How an object in fallow mode ends, with the state it leaves. -/
def objectJudged (o : List Byte) (len : Nat) (s : State) : (Nat × Nat × Nat) × State :=
  if secState s.chip = 2 then ((5, 0, 0), unstaged s) else updateFirmware o len (unstaged s)

/-- HIF_RCV_STATUS of an object that has ended with a code. -/
def rcvWord (code : Nat) : Nat := if code = 0 then 3 * 2 ^ 29 else 4 * 2 ^ 29 + code

theorem recoveryPiece_ends {v : Word} {s : State} (hf : inFallow s.chip = true) (h31 : flag v 31 = true) (h30 : flag v 30 = true) :
    recoveryPiece v s = onChip (putNum Reg.HIF_RCV_STATUS
      (rcvWord (objectJudged ((pieceStaged v s.chip).take (objectLen v)) (objectLen v) s).1.1))
      (objectJudged ((pieceStaged v s.chip).take (objectLen v)) (objectLen v) s).2 := by
  unfold recoveryPiece
  simp only [hf, h31, h30, Bool.and_self, if_true]
  rfl

/-- What the judging of an object in fallow mode leaves, by its code. -/
structure Judged (s : State) (package : Prop) (code : Nat) (r : (Nat × Nat × Nat) × State) : Prop where
  ends : r.1.1 = code
  staging : r.2.chip.staging = []
  pending : r.2.pending = s.pending
  sec : code ≠ 0 → (package → r.2.sec = inError s.sec) ∧ (¬ package → r.2.sec = s.sec)

theorem judged_image {o : List Byte} {len : Nat} {s : State} (hf : inFallow s.chip = true) (hm : nAt o 0 4 = 0x474D4959) (package : Prop)
    (hp : ¬ package) : Judged s package (if (verifyCode s.sec s.chip (latchGrants s.chip) o len).1 = 0 then 0 else 2)
      (updateFirmware o len (unstaged s)) := by
  have hv : verifyCode (unstaged s).sec (unstaged s).chip (latchGrants (unstaged s).chip) o len =
      verifyCode s.sec s.chip (latchGrants s.chip) o len := verifyCode_congr rfl ..
  by_cases h : (verifyCode s.sec s.chip (latchGrants s.chip) o len).1 = 0
  · rw [if_pos h, updateFirmware_good_image (s := unstaged s) hf hm (by rw [hv]; exact h)]
    exact ⟨rfl, rfl, rfl, fun hn => absurd rfl hn⟩
  · rw [if_neg h, updateFirmware_bad_image (s := unstaged s) hf hm (by rw [hv]; exact h)]
    exact ⟨rfl, rfl, rfl, fun _ => ⟨fun hpk => absurd hpk hp, fun _ => rfl⟩⟩

theorem staging_noteRecovery (c : Chip) : (noteRecovery c).staging = c.staging := by
  rw [noteRecovery, putNum, setReg_staging]

theorem staging_failedChip (s : State) : (failedChip s).staging = s.chip.staging := by
  rw [failedChip, putNum, setReg_staging]

/-- A package in fallow mode ends as the signed object does, and a firmware of TYPE below 3 is noted besides. -/
theorem updateFirmware_package {o : List Byte} {len : Nat} {s : State} (hm : nAt o 0 4 ≠ 0x474D4959) : updateFirmware o len s =
    (if ((acceptPackage o len s).1.1 = 0 && inFallow (acceptPackage o len s).2.chip && decide ((acceptPackage o len s).1.2.1 < 3)) = true then
      ((acceptPackage o len s).1, { (acceptPackage o len s).2 with chip := noteRecovery (acceptPackage o len s).2.chip })
      else acceptPackage o len s) := by
  unfold updateFirmware
  refine (if_neg fun h => hm (eq_of_beq (Bool.and_eq_true_iff.1 h).2)).trans ?_
  obtain ⟨r, t⟩ := acceptPackage o len s
  dsimp only

theorem judged_package {o : List Byte} {len : Nat} {s : State} (hm : nAt o 0 4 ≠ 0x474D4959) (package : Prop) (hp : package) :
    Judged s package (objectCode s.sec s.chip fwType o len) (updateFirmware o len (unstaged s)) := by
  have hobj : objectCode (unstaged s).sec (unstaged s).chip fwType o len = objectCode s.sec s.chip fwType o len := objectCode_congr rfl ..
  have hst : (unstaged s).chip.staging = [] := rfl
  have hsec : (unstaged s).sec = s.sec := rfl
  have hpend : (unstaged s).pending = s.pending := rfl
  generalize unstaged s = u at hobj hst hsec hpend ⊢
  rw [updateFirmware_package hm]
  cases hc : objectCode s.sec s.chip fwType o len with
  | zero =>
    rw [acceptPackage_accepts (hobj.trans hc)]
    split
    · exact ⟨rfl, (staging_noteRecovery u.chip).trans hst, hpend, fun hn => absurd rfl hn⟩
    · exact ⟨rfl, hst, hpend, fun hn => absurd rfl hn⟩
  | succ n =>
    rw [acceptPackage_rejects (hobj.trans hc), if_neg (by simp)]
    exact ⟨rfl, (staging_failedChip u).trans hst, hpend, fun _ => ⟨fun _ => congrArg inError hsec, fun h => absurd hp h⟩⟩

theorem recoveryEnds_outcome {v : Word} {s : State} (hf : inFallow s.chip = true) (h31 : flag v 31 = true) (h30 : flag v 30 = true)
    {o : List Byte} (ho : o = (pieceStaged v s.chip).take (objectLen v)) {package : Prop} [Decidable package]
    (hp : package ↔ secState s.chip ≠ 2 ∧ nAt o 0 4 ≠ 0x474D4959) {code : Nat}
    (hcode : code = if secState s.chip = 2 then 5 else if nAt o 0 4 = 0x474D4959 then
      (if (verifyCode s.sec s.chip (latchGrants s.chip) o (objectLen v)).1 = 0 then 0 else 2)
      else objectCode s.sec s.chip fwType o (objectLen v)) :
    ∃ t, CompletesAt (.recoveryPiece v) s t ∧ t.chip.staging = [] ∧
      reg t.chip Reg.HIF_RCV_STATUS = BitVec.ofNat 32 (rcvWord code) ∧
      (code ≠ 0 → t.sec = if package then inError s.sec else s.sec) := by
  have hj : Judged s package code (objectJudged o (objectLen v) s) := by
    unfold objectJudged
    by_cases h2 : secState s.chip = 2
    · rw [if_pos h2] at hcode ⊢
      rw [hcode]
      exact ⟨rfl, rfl, rfl, fun _ => ⟨fun h => absurd h2 (hp.1 h).1, fun _ => rfl⟩⟩
    · rw [if_neg h2] at hcode ⊢
      by_cases hm : nAt o 0 4 = 0x474D4959
      · rw [if_pos hm] at hcode
        rw [hcode]
        exact judged_image hf hm package (fun h => (hp.1 h).2 hm)
      · rw [if_neg hm] at hcode
        rw [hcode]
        exact judged_package hm package (hp.2 ⟨h2, hm⟩)
  have hrun := recoveryPiece_ends hf h31 h30
  rw [← ho] at hrun
  generalize objectJudged o (objectLen v) s = r at hj hrun
  obtain ⟨h1, h2, h3, h4⟩ := hj
  refine ⟨onChip (putNum Reg.HIF_RCV_STATUS (rcvWord code)) r.2, ⟨?_, h3⟩, h2, reg_putNum_same .., fun hn => ?_⟩
  · rw [← h1, ← hrun]
    rfl
  · by_cases hpk : package
    · rw [if_pos hpk]
      exact (h4 hn).1 hpk
    · rw [if_neg hpk]
      exact (h4 hn).2 hpk

/-! ### I3C (R528) -/

theorem i3cWord_above {i : Nat} (h : 0x18 < i) (c : Chip) : i3cWord c i = 0#32 := by
  unfold i3cWord
  split <;> first | omega | rfl

/-- Settles O55: each reset is its registers cleared and its streams' holds dropped, and each other command its own equation. -/
theorem hostLinkResetsAndI3c : Obligations.HostLinkResetsAndI3c := by
  intro s c quiet flrDone
  refine ⟨⟨flr c, rfl, flrDone_flr c, LINK_STATUS_flr c⟩, ⟨linkDown (flr c), rfl, flrDone_linkDown (flrDone_flr c), reg_putNum_same ..⟩,
    fun h => ?_, fun h => ?_, fun rate width => ?_, fun v => ?_, fun v h => ?_, fun v hf h31 => ?_,
    fun i => completes_done rfl, fun p hp hi => ?_, fun h => ?_, fun h => ?_, fun h => ?_⟩
  · exact completes_done (congrArg (done s) (if_neg (by rw [h]; decide)))
  · refine ⟨_, completes_done (congrArg (done s) (pcieDown_of_up h)), ?_, rflag_raise _ _ _ (by decide), ?_⟩
    · exact (reg_raise_ne (by decide) 3 _).trans (reg_putNum_same ..)
    · exact frame_raise _ _ (List.mem_cons_of_mem _ List.mem_cons_self) (frame_putNum _ _ List.mem_cons_self (frame_refl ..))
  · intro good
    refine ⟨fun h => ?_, fun h => ⟨_, completes_done rfl, pcieUp_outcome h⟩⟩
    exact completes_done (congrArg (done s) (pcieUp_unfit h))
  · exact ⟨_, completes_done rfl, apertureBaseWrite_facts v c⟩
  · exact congrArg Host.Outcome.next (recoveryPiece_ignored h)
  · intro n base staged
    refine ⟨fun h30 => ?_, fun h30 => ?_⟩
    · refine ⟨_, completes_next rfl (recoveryPiece_adds hf h31 h30), rfl, reg_putNum_same .., ?_⟩
      exact frame_putNum (c' := s.chip) Reg.HIF_RCV_STATUS (2 * 2 ^ 29) List.mem_cons_self (frame_refl [Reg.HIF_RCV_STATUS] [] s.chip)
    · intro o package code
      exact recoveryEnds_outcome hf h31 h30 rfl Iff.rfl rfl
  · simp only [List.mem_cons, List.not_mem_nil, or_false] at hp
    refine completes_done (congrArg (done s) ?_)
    unfold i3cRead
    rcases hp with rfl | rfl | rfl | rfl | rfl | rfl | rfl <;> rw [hi] <;> rfl
  · refine completes_done (congrArg (done s) ?_)
    rw [i3cRead, i3cWord_above h]
  · exact completes_done (congrArg (done s) (if_neg (by rw [h]; decide)))
  · exact completes_done (congrArg (done s) (if_pos h))

end Sys2Proof.Machine
end

section
/-!
PROOFS. The power controller's registers: what a domain's state reads after a change of it, what a refusal shows, and what a
domain that loses its supply leaves of the others (R419 to R425).
-/

namespace Sys2Proof.Machine

open Sys2Proof.Safety

/-! ### Changes that stay within some registers and the power controller's own state -/

/-- Only the registers `as` and the power controller's own state have changed. -/
def WithinPower (as : List Nat) (c d : Chip) : Prop := Frame as [] c { d with power := c.power }

section
variable {as : List Nat} {a : Nat} {c d : Chip}

theorem within_refl (as : List Nat) (c : Chip) : WithinPower as c c := frame_refl ..

theorem within_modPower (f : Power → Power) (w : WithinPower as c d) : WithinPower as c (modPower f d) := w

theorem within_setReg (v : Word) (ha : a ∈ as) (w : WithinPower as c d) : WithinPower as c (setReg a v d) := frame_setReg a v ha w

theorem within_setFld (hi lo x : Nat) (ha : a ∈ as) (w : WithinPower as c d) : WithinPower as c (setFld a hi lo x d) :=
  frame_setReg a _ ha w

theorem within_setBit (i : Nat) (b : Bool) (ha : a ∈ as) (w : WithinPower as c d) : WithinPower as c (setBit a i b d) :=
  frame_setReg a _ ha w

theorem within_raise (i : Nat) (ha : a ∈ as) (w : WithinPower as c d) : WithinPower as c (raise a i d) := frame_setReg a _ ha w

theorem within_count (n : Nat) (ha : a ∈ as) (w : WithinPower as c d) : WithinPower as c (count a n d) := frame_setReg a _ ha w

theorem within_putNum (n : Nat) (ha : a ∈ as) (w : WithinPower as c d) : WithinPower as c (putNum a n d) := frame_setReg a _ ha w

theorem within_trans {e : Chip} (w : WithinPower as c d) (v : WithinPower as d e) : WithinPower as c e := by
  obtain ⟨h1, h2, h3⟩ := w
  obtain ⟨k1, k2, k3⟩ := v
  refine ⟨fun a ha => (k1 a ha).trans (h1 a ha), fun t ht => (k2 t ht).trans (h2 t ht), ?_⟩
  have h3' := congrArg (fun x : Chip => { x with power := c.power, regs := e.regs, tiles := e.tiles }) h3
  exact (congrArg (fun x : Chip => { x with power := c.power }) k3).trans h3'

theorem within_mono {as' : List Nat} (ha : ∀ a, a ∈ as → a ∈ as') (w : WithinPower as c d) : WithinPower as' c d :=
  frame_mono ha (fun _ h => h) w

end

@[simp] theorem reg_modPower (f : Power → Power) (c : Chip) (a : Nat) : reg (modPower f c) a = reg c a := rfl

@[simp] theorem modPower_power (f : Power → Power) (c : Chip) : (modPower f c).power = f c.power := rfl

@[simp] theorem power_setFld (a hi lo x : Nat) (c : Chip) : (setFld a hi lo x c).power = c.power := rfl

@[simp] theorem power_setBit (a i : Nat) (b : Bool) (c : Chip) : (setBit a i b c).power = c.power := rfl

@[simp] theorem power_putNum (a n : Nat) (c : Chip) : (putNum a n c).power = c.power := rfl

/-! ### Fields and flags of one register -/

theorem rfld_setFld_apart (a hi lo x h2 l2 : Nat) (c : Chip) (h : hi < 32) (hl : lo ≤ hi) (hd : h2 < lo ∨ hi < l2) :
    rfld (setFld a hi lo x c) a h2 l2 = rfld c a h2 l2 := by
  rw [rfld, setFld_eq, reg_setReg_same, fld_putFld_apart _ _ _ _ _ _ h hl hd]
  rfl

theorem rflag_setFld_apart (a hi lo x i : Nat) (c : Chip) (h : hi < 32) (hl : lo ≤ hi) (hd : i < lo ∨ hi < i) :
    rflag (setFld a hi lo x c) a i = rflag c a i := by
  rw [rflag, setFld_eq, reg_setReg_same, flag_putFld_apart _ _ _ _ _ h hl hd]
  rfl

theorem rfld_setFld_small {a hi lo x : Nat} (c : Chip) (h : hi < 32) (hl : lo ≤ hi) (hx : x < 2 ^ (hi + 1 - lo)) :
    rfld (setFld a hi lo x c) a hi lo = x := by
  rw [rfld_setFld _ _ _ _ _ h hl, Nat.mod_eq_of_lt hx]

/-! ### The state of a domain -/

theorem PWR_DOM_inj {d e : Nat} (h : d ≠ e) : Reg.PWR_DOM d ≠ Reg.PWR_DOM e := by unfold Reg.PWR_DOM; omega

/-- Registers beside PWR_DOM of the 96 domains. -/
def BesideDomains (a : Nat) : Prop := a < Reg.PWR_DOM 0 ∨ Reg.PWR_DOM 96 ≤ a

theorem PWR_DOM_ne {a d : Nat} (h : BesideDomains a) (hd : d < 96) : Reg.PWR_DOM d ≠ a := by
  unfold BesideDomains Reg.PWR_DOM at *; omega

theorem domState_congr {c c' : Chip} {d : Nat} (h : reg c' (Reg.PWR_DOM d) = reg c (Reg.PWR_DOM d)) : domState c' d = domState c d :=
  rfld_congr h

theorem domOn_congr {c c' : Chip} {d : Nat} (h : reg c' (Reg.PWR_DOM d) = reg c (Reg.PWR_DOM d)) : domOn c' d = domOn c d :=
  congrArg (· == 0) (domState_congr h)

theorem domState_setDom_same {st : Nat} (d : Nat) (c : Chip) (h : st < 8) : domState (setDom d st c) d = st :=
  rfld_setFld_small c (by decide) (by decide) h

theorem domState_setDom_ne {d e : Nat} (st : Nat) (c : Chip) (h : e ≠ d) : domState (setDom d st c) e = domState c e :=
  domState_congr (reg_setFld_ne (PWR_DOM_inj h) ..)

theorem reg_setDom_ne {a d : Nat} (st : Nat) (c : Chip) (h : a ≠ Reg.PWR_DOM d) : reg (setDom d st c) a = reg c a := reg_setFld_ne h ..

@[simp] theorem power_setDom (d st : Nat) (c : Chip) : (setDom d st c).power = c.power := rfl

@[simp] theorem domState_modPower (f : Power → Power) (d : Nat) (c : Chip) : domState (modPower f c) d = domState c d := rfl

/-- A request shown in REQ leaves STATE. -/
theorem domState_setReq (d x : Nat) (c : Chip) : domState (setFld (Reg.PWR_DOM d) 1 0 x c) d = domState c d :=
  rfld_setFld_apart _ _ _ _ _ _ _ (by decide) (by decide) (by decide)

theorem req_setReq {d x : Nat} (c : Chip) (h : x < 4) : rfld (setFld (Reg.PWR_DOM d) 1 0 x c) (Reg.PWR_DOM d) 1 0 = x :=
  rfld_setFld_small c (by decide) (by decide) h

theorem req_setDom (d st : Nat) (c : Chip) : rfld (setDom d st c) (Reg.PWR_DOM d) 1 0 = rfld c (Reg.PWR_DOM d) 1 0 :=
  rfld_setFld_apart _ _ _ _ _ _ _ (by decide) (by decide) (by decide)

/-- The register of a domain after the end of a request's refusal. -/
theorem dom_refuseDomain {id d : Nat} (c : Chip) (hd : d < 96) :
    reg (refuseDomain id d c) (Reg.PWR_DOM d) = putFld (reg c (Reg.PWR_DOM d)) 26 24 id := by
  have hl : Reg.PWR_DOM d ≠ Reg.PWR_LAST_REFUSE := by unfold Reg.PWR_LAST_REFUSE Reg.PWR_DOM; omega
  have hc : Reg.PWR_DOM d ≠ Reg.PWR_REFUSE_COUNT d := by unfold Reg.PWR_REFUSE_COUNT Reg.PWR_DOM; omega
  rw [refuseDomain, noteRefusal, reg_putNum_ne hl, setFld_eq, reg_setReg_same, reg_count_ne hc]

/-- What a refused request of domain `d` shows (R421). -/
structure DomainRefused (id d : Nat) (c c' : Chip) : Prop where
  shown : rfld c' (Reg.PWR_DOM d) 26 24 = id
  state : domState c' d = domState c d
  counted : Advanced (Reg.PWR_REFUSE_COUNT d) 1 c c'
  noted : reg c' Reg.PWR_LAST_REFUSE = BitVec.ofNat 32 (id * 2 ^ 24 + d)
  within : WithinPower [Reg.PWR_DOM d, Reg.PWR_REFUSE_COUNT d, Reg.PWR_LAST_REFUSE] c c'

theorem refuseDomain_refuses {id d : Nat} (hi : id < 8) (hd : d < 96) (c : Chip) : DomainRefused id d c (refuseDomain id d c) where
  shown := by
    rw [rfld, dom_refuseDomain c hd, fld_putFld_same _ _ _ _ (by decide) (by decide)]
    exact Nat.mod_eq_of_lt hi
  state := by
    rw [domState, rfld, dom_refuseDomain c hd, fld_putFld_apart _ _ _ _ _ _ (by decide) (by decide) (by decide)]
    rfl
  counted := by
    have hl : Reg.PWR_REFUSE_COUNT d ≠ Reg.PWR_LAST_REFUSE := by unfold Reg.PWR_LAST_REFUSE Reg.PWR_REFUSE_COUNT; omega
    have hc : Reg.PWR_REFUSE_COUNT d ≠ Reg.PWR_DOM d := by unfold Reg.PWR_DOM Reg.PWR_REFUSE_COUNT; omega
    exact advanced_congr (advanced_count ..) ((reg_putNum_ne hl ..).trans (reg_setFld_ne hc ..))
  noted := by
    rw [refuseDomain, noteRefusal, reg_putNum_same, Nat.zero_mul, Nat.add_zero]
  within := within_putNum _ (by simp) (within_setFld _ _ _ (by simp) (within_count _ (by simp) (within_refl ..)))

/-! ### Lost supplies (R419) -/

/-- Link `e` holds no frame and no flit. -/
def LinkEmpty (c : Chip) (e : Nat) : Prop := (linkAt c e).retry = [] ∧ (linkAt c e).queue = []

theorem linkEmpty_congr {c c' : Chip} (h : c'.links = c.links) (e : Nat) : LinkEmpty c' e ↔ LinkEmpty c e := by
  unfold LinkEmpty linkAt
  rw [h]

/-- A link with its frames and flits dropped. -/
def linkDropped (L : Link) : Link := { L with retry := [], queue := [] }

theorem dropLink_empty {e : Nat} {c : Chip} (h : LinkEmpty c e) : dropLink e c = noteRetry e (modLink e linkDropped c) := by
  obtain ⟨hr, hq⟩ := h
  unfold dropLink
  dsimp only
  rw [hr, hq]
  rfl

theorem linkEmpty_dropped {e k : Nat} {c : Chip} (h : LinkEmpty c k) : LinkEmpty (noteRetry e (modLink e linkDropped c)) k := by
  refine (linkEmpty_congr (c := modLink e linkDropped c) rfl k).2 ?_
  unfold LinkEmpty
  by_cases hk : k = e
  · rw [hk, linkAt_modLink_same]
    exact ⟨rfl, rfl⟩
  · rw [linkAt_modLink_ne _ _ hk]
    exact h

theorem linkDisableE_empty {e : Nat} {c : Chip} (h : LinkEmpty c e) : linkDisableE e c =
    noteRetry e (modLink e linkDropped (setReg (Reg.NLK_STATUS e) 0#32 (setBit (Reg.NLK_CTRL e) 31 false c))) :=
  dropLink_empty h

/-- What a domain that loses its supply leaves: every register below those of the host interface, the memory and the engines. -/
structure DomainLost (c c' : Chip) : Prop where
  regs : ∀ a, a < Reg.HIF_LINK_STATUS → reg c' a = reg c a
  power : c'.power = c.power
  tiles : c'.tiles = c.tiles
  flash : c'.flash = c.flash
  links : ∀ k, LinkEmpty c k → LinkEmpty c' k

theorem domainLost_refl (c : Chip) : DomainLost c c := ⟨fun _ _ => rfl, rfl, rfl, rfl, fun _ h => h⟩

theorem domainLost_trans {c c' c'' : Chip} (h : DomainLost c c') (k : DomainLost c' c'') : DomainLost c c'' :=
  ⟨fun a ha => (k.regs a ha).trans (h.regs a ha), k.power.trans h.power, k.tiles.trans h.tiles, k.flash.trans h.flash,
    fun e he => k.links e (h.links e he)⟩

theorem domainLost_setReg {a : Nat} (v : Word) (c : Chip) (ha : Reg.HIF_LINK_STATUS ≤ a) : DomainLost c (setReg a v c) :=
  ⟨fun _ hb => reg_setReg_ne v c (Nat.ne_of_lt (Nat.lt_of_lt_of_le hb ha)), rfl, rfl, rfl,
    fun k h => (linkEmpty_congr (setReg_links ..) k).2 h⟩

theorem PWR_DOM_below {d : Nat} (h : d < 96) : Reg.PWR_DOM d < Reg.HIF_LINK_STATUS := by
  unfold Reg.PWR_DOM Reg.HIF_LINK_STATUS; omega

theorem besideDomains_MEM_M_STATUS (m : Nat) : BesideDomains (Reg.MEM_M_STATUS m) := .inr (by unfold Reg.MEM_M_STATUS Reg.PWR_DOM; omega)

theorem domainLost_linkDisable {e : Nat} {c : Chip} (h : LinkEmpty c e) : DomainLost c (linkDisableE e c) := by
  have h1 : DomainLost c (setBit (Reg.NLK_CTRL e) 31 false c) := domainLost_setReg _ c (by unfold Reg.HIF_LINK_STATUS Reg.NLK_CTRL; omega)
  have h2 := domainLost_trans h1 (domainLost_setReg (a := Reg.NLK_STATUS e) 0#32 _ (by unfold Reg.HIF_LINK_STATUS Reg.NLK_STATUS; omega))
  rw [linkDisableE_empty h]
  refine domainLost_trans h2 ⟨fun a ha => ?_, ?_, ?_, ?_, fun k hk => linkEmpty_dropped hk⟩
  · exact reg_putNum_ne (by unfold Reg.HIF_LINK_STATUS Reg.NLK_RETRY_OCC at *; omega) ..
  · exact setReg_power ..
  · exact setReg_tiles ..
  · exact setReg_flash ..

theorem domainLost_loseController (m : Nat) (c : Chip) : DomainLost c (loseController m c) := ⟨fun _ _ => rfl, rfl, rfl, rfl, fun _ h => h⟩

/-- The domain of an engine whose link is empty, or of another unit, loses its supply. -/
theorem loseDomain_leaves {d : Nat} {c : Chip} (h : 84 ≤ d → d < 92 → LinkEmpty c (d - 84)) : DomainLost c (loseDomain d c) := by
  unfold loseDomain
  split
  · exact domainLost_trans (domainLost_loseController ..)
      (domainLost_setReg _ _ (by unfold Reg.HIF_LINK_STATUS Reg.MEM_M_STATUS; omega))
  · split
    · next hd => exact domainLost_linkDisable (h hd.1 hd.2)
    · split
      · exact domainLost_trans (c' := { c with streams := [] }) ⟨fun _ _ => rfl, rfl, rfl, rfl, fun _ h => h⟩
          (domainLost_setReg _ _ (Nat.le_refl _))
      · split
        · exact ⟨fun _ _ => rfl, rfl, rfl, rfl, fun _ h => h⟩
        · split
          · exact ⟨fun _ _ => rfl, rfl, rfl, rfl, fun _ h => h⟩
          · exact domainLost_refl c

/-- Domain `d` in OFF, its unit lost. -/
def domainStripped (d : Nat) (c : Chip) : Chip := loseDomain d (setDom d 2 c)

/-- The power controller without supplies. -/
def unpowered (P : Power) : Power := { P with stripped := true, held := [], goal := [], waiting := [] }

theorem stripSupplies_eq (c : Chip) : stripSupplies c = modPower unpowered (forAll domainStripped (List.range 96) c) := rfl

/-- What the loss of domains leaves while every link is empty. -/
structure Stripped (c c' : Chip) : Prop where
  links : ∀ k, k < 8 → LinkEmpty c' k
  power : c'.power = c.power
  tiles : c'.tiles = c.tiles
  flash : c'.flash = c.flash
  regs : ∀ a, a < Reg.PWR_DOM 0 → reg c' a = reg c a

section
variable {d : Nat} {c : Chip} (hq : ∀ k, k < 8 → LinkEmpty c k)
include hq

theorem domainStripped_loses (d : Nat) : DomainLost (setDom d 2 c) (domainStripped d c) :=
  loseDomain_leaves fun h1 h2 => (linkEmpty_congr (c := c) (setReg_links ..) _).2 (hq _ (by omega))

theorem domainStripped_leaves (d : Nat) : Stripped c (domainStripped d c) where
  links := fun k hk => (domainStripped_loses hq d).links k ((linkEmpty_congr (c := c) (setReg_links ..) k).2 (hq k hk))
  power := (domainStripped_loses hq d).power
  tiles := (domainStripped_loses hq d).tiles
  flash := (domainStripped_loses hq d).flash
  regs := fun a ha => ((domainStripped_loses hq d).regs a (Nat.lt_trans ha (PWR_DOM_below (by decide)))).trans
    (reg_setDom_ne 2 c (by unfold Reg.PWR_DOM at *; omega))

theorem domState_domainStripped {e : Nat} (he : e < 96) : domState (domainStripped d c) e = if e = d then 2 else domState c e := by
  refine (domState_congr ((domainStripped_loses hq d).regs _ (PWR_DOM_below he))).trans ?_
  split
  · next h =>
    rw [h]
    exact domState_setDom_same d c (by decide)
  · next h => exact domState_setDom_ne 2 c h

/-- Every domain of a list loses its supply. -/
theorem forAll_domainStripped (l : List Nat) : Stripped c (forAll domainStripped l c) ∧
    ∀ e, e < 96 → e ∈ l → domState (forAll domainStripped l c) e = 2 := by
  have hinv : ∀ d x, Stripped c x → Stripped c (domainStripped d x) := fun d x h =>
    have k := domainStripped_leaves h.links d
    ⟨k.links, k.power.trans h.power, k.tiles.trans h.tiles, k.flash.trans h.flash, fun a ha => (k.regs a ha).trans (h.regs a ha)⟩
  have h0 : Stripped c c := ⟨hq, rfl, rfl, rfl, fun _ _ => rfl⟩
  refine ⟨forAll_keeps (P := Stripped c) _ (fun d _ => hinv d) c h0, fun e he hl => ?_⟩
  refine (forAll_reaches (I := Stripped c) (P := fun e x => Stripped c x ∧ (e < 96 → domState x e = 2)) (f := domainStripped) hinv
    (fun d x h => ⟨hinv d x h, fun hd => ?_⟩) (fun d e x h => ⟨hinv d x h.1, fun hlt => ?_⟩) _ c h0 e hl).2 he
  · rw [domState_domainStripped h.links hd, if_pos rfl]
  · rw [domState_domainStripped h.1.links hlt, h.2 hlt, ite_self]

/-- The loss of every switched supply (R433, R525). -/
theorem stripSupplies_strips : (∀ e, e < 96 → domState (stripSupplies c) e = 2) ∧ (stripSupplies c).power.stripped = true ∧
    (stripSupplies c).power.tripped = c.power.tripped ∧ (stripSupplies c).power.clkLost = c.power.clkLost ∧
    ∀ a, a < Reg.PWR_DOM 0 → reg (stripSupplies c) a = reg c a := by
  have h := forAll_domainStripped hq (List.range 96)
  rw [stripSupplies_eq]
  generalize forAll domainStripped (List.range 96) c = x at h
  obtain ⟨⟨-, hp, -, -, hr⟩, hd⟩ := h
  exact ⟨fun e he => hd e he (List.mem_range.2 he), rfl, (congrArg Power.tripped hp :), (congrArg Power.clkLost hp :), hr⟩

end

end Sys2Proof.Machine
end

section
/-!
PROOFS. What the resets of a field and of the compute die clear and leave, and the fences set after a reset (Table 14.9, R413).
-/

namespace Sys2Proof.Machine

open Sys2Proof.Safety

/-! ### The reset of a field -/

/-- The chip of a field's reset after the neighbours have their credits again. -/
def creditsBack (f : Nat) (c : Chip) : Chip :=
  forAll (fun x c => modRouter x.1 (creditsAnew f x.1) c) (c.routers.filter (fun x => fieldOf x.1 != f)) c

/-- The field's memory reads zero. -/
def memoryZeroed (f : Nat) (c : Chip) : Chip := eraseMem (fun a => fieldUnit a == some f) { c with lost := setNum f 0 c.lost }

/-- What the field held is gone. -/
def fieldCleared (f : Nat) (c : Chip) : Chip :=
  { c with
    regs := c.regs.filter (fun x => !fieldRegister f x.1)
    tiles := c.tiles.filter (fun x => fieldOf x.1 != f)
    routers := c.routers.filter (fun x => fieldOf x.1 != f)
    wires := c.wires.filter (fun x => !wireOf f x.1)
    creditWires := c.creditWires.filter (fun x => !wireOf f x.1)
    tapIn := c.tapIn.filter (fun x => fieldOf (tapTile (x.1 / 8)) != f) }

theorem fieldReset_eq (f : Nat) (c : Chip) : fieldReset f c = fieldCleared f (creditsBack f (memoryZeroed f c)) := rfl

/-- The neighbours' credits leave whatever is not a router. -/
theorem creditsBack_leaves {β : Type} (g : Chip → β) (hg : ∀ t h d, g (modRouter t h d) = g d) (f : Nat) (c : Chip) :
    g (creditsBack f c) = g c :=
  forAll_leaves g (f := fun (x : Nat × Router) d => modRouter x.1 (creditsAnew f x.1) d) _ (fun x d => hg x.1 (creditsAnew f x.1) d) c

theorem mapGet_filter_out {β : Type} (d : Nat → β) (keep : Nat → Bool) (m : Sparse β) {k : Nat} (h : keep k = false) :
    mapGet d (m.filter (fun x => keep x.1)) k = d k := by
  rw [mapGet_filter_keys, h]
  rfl

theorem mapGet_filter_in {β : Type} (d : Nat → β) (keep : Nat → Bool) (m : Sparse β) {k : Nat} (h : keep k = true) :
    mapGet d (m.filter (fun x => keep x.1)) k = mapGet d m k := by
  rw [mapGet_filter_keys, h]
  rfl

section
variable {f : Nat} {c : Chip}

theorem tile_fieldCleared {t : Nat} (h : fieldOf t = f) : tile (fieldCleared f c) t = {} :=
  mapGet_filter_out _ (fun t => fieldOf t != f) c.tiles (by simp [h])

theorem tile_fieldCleared_other {t : Nat} (h : fieldOf t ≠ f) : tile (fieldCleared f c) t = tile c t :=
  mapGet_filter_in _ (fun t => fieldOf t != f) c.tiles (by simp [h])

theorem router_fieldCleared {t : Nat} (h : fieldOf t = f) : router (fieldCleared f c) t = {} :=
  mapGet_filter_out _ (fun t => fieldOf t != f) c.routers (by simp [h])

theorem reg_fieldCleared {a : Nat} (h : fieldRegister f a = true) : reg (fieldCleared f c) a = regReset a :=
  mapGet_filter_out _ (fun a => !fieldRegister f a) c.regs (by simp [h])

theorem reg_fieldCleared_other {a : Nat} (h : fieldRegister f a = false) : reg (fieldCleared f c) a = reg c a :=
  mapGet_filter_in _ (fun a => !fieldRegister f a) c.regs (by simp [h])

theorem tile_fieldReset {t : Nat} (h : fieldOf t = f) : tile (fieldReset f c) t = {} := tile_fieldCleared h

theorem router_fieldReset {t : Nat} (h : fieldOf t = f) : router (fieldReset f c) t = {} := router_fieldCleared h

theorem tile_fieldReset_other {t : Nat} (h : fieldOf t ≠ f) : tile (fieldReset f c) t = tile c t :=
  (tile_fieldCleared_other h).trans (creditsBack_leaves (fun d => tile d t) (fun _ _ _ => rfl) f (memoryZeroed f c))

theorem reg_fieldReset {a : Nat} (h : fieldRegister f a = true) : reg (fieldReset f c) a = regReset a := reg_fieldCleared h

theorem reg_fieldReset_other {a : Nat} (h : fieldRegister f a = false) : reg (fieldReset f c) a = reg c a :=
  (reg_fieldCleared_other h).trans (creditsBack_leaves (fun d => reg d a) (fun _ _ _ => rfl) f (memoryZeroed f c))

theorem power_fieldCleared : (fieldCleared f c).power = c.power := rfl

theorem power_fieldReset : (fieldReset f c).power = c.power := by
  rw [fieldReset_eq, power_fieldCleared, creditsBack_leaves Chip.power (fun _ _ _ => rfl)]
  rfl

end

/-- Every byte of a field that was reset reads zero. -/
theorem byteAt_memoryZeroed {f a : Nat} (c : Chip) (h : fieldUnit a = some f) : byteAt (memoryZeroed f c) a = 0#8 := by
  have ha : ¬ a < 2 ^ 37 := by
    unfold fieldUnit at h
    split at h
    · omega
    · cases h
  have hl : lossAt (setNum f 0 c.lost) a = 0 := by
    unfold lossAt
    rw [if_neg ha, h]
    exact numOf_setNum_same f 0 c.lost
  have hd : memDefault (setNum f 0 c.lost) a = 0#8 := by
    unfold memDefault
    rw [hl]
  exact (mapGet_filter_out _ (fun b => !(fieldUnit b == some f)) c.mem (by simp [h])).trans hd

theorem byteAt_fieldReset {f a : Nat} (c : Chip) (h : fieldUnit a = some f) : byteAt (fieldReset f c) a = 0#8 :=
  (creditsBack_leaves (fun d => byteAt d a) (fun _ _ _ => rfl) f (memoryZeroed f c)).trans (byteAt_memoryZeroed c h)

/-! ### The reset of the compute die -/

theorem tile_forAll_fieldReset {t : Nat} (ht : t < 8192) (c : Chip) : tile (forAll fieldReset (List.range 64) c) t = {} := by
  refine forAll_reaches (I := fun _ => True) (P := fun f d => ∀ t, fieldOf t = f → tile d t = {}) (fun _ _ _ => trivial)
    (fun f d _ t h => tile_fieldReset h) (fun f g d hd t h => ?_) (List.range 64) c trivial (fieldOf t)
    (List.mem_range.2 (fieldOf_lt ht)) t rfl
  by_cases hf : fieldOf t = f
  · exact tile_fieldReset hf
  · exact (tile_fieldReset_other hf).trans (hd t h)

theorem tile_seamReset (c : Chip) (t : Nat) : tile (seamReset c) t = tile c t := rfl

theorem tile_dieReset {t : Nat} (ht : t < 8192) (c : Chip) : tile (dieReset c) t = {} := by
  unfold dieReset
  exact (tile_seamReset ..).trans (tile_forAll_fieldReset ht _)

/-! ### Fences after a reset -/

theorem reg_fenceBad {a : Nat} (ts : List Nat) (h : ∀ t, t ∈ ts → a ≠ Reg.TILE_CTRL t) (c : Chip) : reg (fenceBad ts c) a = reg c a := by
  refine forAll_keeps (P := fun d => reg d a = reg c a) ts (fun t ht d hd => ?_) c rfl
  split
  · exact hd
  · exact (reg_setBit_ne (h t ht) ..).trans hd

theorem fenceBad_leaves {β : Type} (g : Chip → β) (hg : ∀ a v d, g (setReg a v d) = g d) (ts : List Nat) (c : Chip) :
    g (fenceBad ts c) = g c := by
  refine forAll_leaves g ts (fun t d => ?_) c
  split
  · rfl
  · exact hg ..

theorem tile_fenceBad (ts : List Nat) (c : Chip) (t : Nat) : tile (fenceBad ts c) t = tile c t :=
  fenceBad_leaves (fun d => tile d t) (fun _ _ _ => rfl) ts c

end Sys2Proof.Machine
end

section
/-!
PROOFS. Settles O48: requests, entries and wakes of a domain, the batches of a device change, and the pads (R420 to R426).
-/

namespace Sys2Proof.Machine

open Sys2Proof.Safety

/-! ### The refusers of Table 15.3 -/

theorem leaveRefuser_small (c : Chip) (d req : Nat) : leaveRefuser c d req < 8 := by
  unfold leaveRefuser
  repeat' split
  all_goals decide

theorem wakeRefuser_small (c : Chip) (d : Nat) : wakeRefuser c d < 8 := by
  unfold wakeRefuser
  repeat' split
  all_goals decide

/-! ### Requests (R421 to R423) -/

/-- Goal `g` of domain `d` set. -/
def withGoal (d g : Nat) (c : Chip) : Chip := modPower (fun P => { P with goal := setNum d g P.goal }) c

theorem goal_withGoal_same (d g : Nat) (c : Chip) : numOf (withGoal d g c).power.goal d = g := numOf_setNum_same d g c.power.goal

theorem goal_withGoal_ne {d e : Nat} (g : Nat) (c : Chip) (h : e ≠ d) : numOf (withGoal d g c).power.goal e = numOf c.power.goal e :=
  numOf_setNum_ne g c.power.goal h

/-- The domain's request no longer waits for EMPTY. -/
def unwaited (d : Nat) (c : Chip) : Chip := modPower (fun P => { P with waiting := setNum d 0 P.waiting }) c

/-- REQ is shown and the entry to it begun. -/
def entryBegun (d req : Nat) (c : Chip) : Chip :=
  c |> setFld (Reg.PWR_DOM d) 1 0 req |> setDom d 3 |> withGoal d req

/-- REQ is shown and the wake from state `st` begun. -/
def wakeFrom (d st : Nat) (c : Chip) : Chip :=
  c |> setFld (Reg.PWR_DOM d) 1 0 0 |> setDom d 4 |> withGoal d st

section
variable {d req : Nat} {c : Chip}

theorem beginEntry_begins (h : leaveRefuser c d req = 0) : beginEntry d req c = entryBegun d req c := by
  unfold beginEntry
  rw [h]
  rfl

theorem beginEntry_refuses (h : leaveRefuser c d req ≠ 0) : beginEntry d req c = refuseDomain (leaveRefuser c d req) d c := by
  obtain ⟨n, hn⟩ := Nat.exists_eq_succ_of_ne_zero h
  unfold beginEntry
  rw [hn]
  rfl

theorem actRequest_same (h : domState c d = req) : actRequest d req c = setFld (Reg.PWR_DOM d) 1 0 req (unwaited d c) := if_pos h

theorem actRequest_wakes (h : domState c d ≠ 0) (hw : wakeRefuser c d = 0) :
    actRequest d 0 c = wakeFrom d (domState c d) (unwaited d c) := by
  have hw' : wakeRefuser (unwaited d c) d = 0 := hw
  unfold actRequest
  refine (if_neg h).trans ((if_pos rfl).trans ?_)
  change (match wakeRefuser (unwaited d c) d with
    | 0 => _
    | _ => _) = _
  rw [hw']
  rfl

theorem actRequest_refuses_wake (h : domState c d ≠ 0) (hw : wakeRefuser c d ≠ 0) :
    actRequest d 0 c = refuseDomain (wakeRefuser c d) d (unwaited d c) := by
  obtain ⟨n, hn⟩ := Nat.exists_eq_succ_of_ne_zero hw
  have hn' : wakeRefuser (unwaited d c) d = n + 1 := hn
  unfold actRequest
  refine (if_neg h).trans ((if_pos rfl).trans ?_)
  change (match wakeRefuser (unwaited d c) d with
    | 0 => _
    | _ => _) = _
  rw [hn', hn]
  rfl

theorem actRequest_from_off (h : domState c d = 2) (hr : req ≠ 2) (hr0 : req ≠ 0) : actRequest d req c = unwaited d c := by
  have hs : domState c d ≠ req := by omega
  unfold actRequest
  exact (if_neg hs).trans ((if_neg hr0).trans (if_pos h))

theorem actRequest_enters (h : domState c d = 0) (hr : req ≠ 0) (he : 64 ≤ d ∨ fieldEmpty c d = true ∨ needed c d = true) :
    actRequest d req c = beginEntry d req (unwaited d c) := by
  have hs : domState c d ≠ req := by omega
  have h2 : domState c d ≠ 2 := by omega
  unfold actRequest
  refine (if_neg hs).trans ((if_neg hr).trans ((if_neg h2).trans (if_neg ?_)))
  rintro ⟨hd, -, hn, hf⟩
  have hn' : needed (unwaited d c) d = false := Bool.not_eq_true' _ ▸ hn
  have hf' : fieldEmpty (unwaited d c) d = false := Bool.not_eq_true' _ ▸ hf
  rcases he with h | h | h
  · omega
  · exact Bool.noConfusion (h.symm.trans hf')
  · exact Bool.noConfusion (h.symm.trans hn')

theorem actRequest_waits (h : domState c d = 0) (hr : req ≠ 0) (hd : d < 64) (hf : fieldEmpty c d = false) (hn : needed c d = false) :
    actRequest d req c = modPower (fun P => { P with waiting := setNum d req P.waiting }) (unwaited d c) := by
  have hs : domState c d ≠ req := by omega
  have h2 : domState c d ≠ 2 := by omega
  have hn' : needed (unwaited d c) d = false := hn
  have hf' : fieldEmpty (unwaited d c) d = false := hf
  unfold actRequest
  refine (if_neg hs).trans ((if_neg hr).trans ((if_neg h2).trans (if_pos ⟨hd, h, ?_, ?_⟩)))
  · exact congrArg (fun b => (!b) = true) hn' ▸ rfl
  · exact congrArg (fun b => (!b) = true) hf' ▸ rfl

end

theorem unwaited_waiting (d : Nat) (c : Chip) : numOf (unwaited d c).power.waiting d = 0 :=
  numOf_setNum_same d 0 c.power.waiting

theorem power_refuseDomain (id d : Nat) (c : Chip) : (refuseDomain id d c).power = c.power := by
  rw [refuseDomain, noteRefusal, power_putNum, power_setFld, count, setReg_power]

section
variable {d : Fin 96} {v : Word} {s : State}

theorem domainRequest_ignored (h : s.chip.power.stripped = true ∨ fld v 1 0 = 3) : Completes (.domainRequest d v) s s.chip :=
  completes_next rfl (congrArg (fun c => { s with chip := c }) (if_pos h.symm))

theorem domainRequest_without_ret (hs : s.chip.power.stripped = false) (h1 : fld v 1 0 = 1) (hr : hasRet d = false) :
    Completes (.domainRequest d v) s (raise Reg.PWR_FAULT 0 s.chip) := by
  refine completes_next rfl (congrArg (fun c => { s with chip := c }) ?_)
  exact (if_neg (by simp [h1, hs])).trans (if_pos ⟨h1, by simp [hr]⟩)

/-- A request that the supplies and Table 15.1 allow. -/
theorem domainRequest_taken (hs : s.chip.power.stripped = false) (h3 : fld v 1 0 < 3) (hr : fld v 1 0 = 1 → hasRet d = true) :
    Completes (.domainRequest d v) s (if 3 ≤ domState s.chip d
      then modPower (fun P => { P with held := setNum d (fld v 1 0 + 1) P.held }) s.chip else actRequest d (fld v 1 0) s.chip) := by
  refine completes_next rfl (congrArg (fun c => { s with chip := c }) ?_)
  refine (if_neg ?_).trans (if_neg ?_)
  · simp only [hs, Bool.false_eq_true, or_false]
    omega
  · rintro ⟨h1, hn⟩
    rw [hr h1] at hn
    exact Bool.noConfusion hn

theorem not_three_le {n m : Nat} (h : n = m) (hm : m < 3) : ¬ 3 ≤ n := by omega

/-- What the refusal of a request of domain `d` by a command shows. -/
theorem request_refused {i : Instr} {id : Nat} (hi : id < 8) (h : Completes i s (refuseDomain id d (unwaited d s.chip))) :
    ∃ c', Completes i s c' ∧ DomainRefused id d s.chip c' ∧ numOf c'.power.waiting d = 0 := by
  obtain ⟨h1, h2, h3, h4, h5⟩ := refuseDomain_refuses hi d.isLt (unwaited d s.chip)
  refine ⟨_, h, ⟨h1, h2, h3, h4, within_trans (within_modPower _ (within_refl ..)) h5⟩, ?_⟩
  rw [power_refuseDomain]
  exact unwaited_waiting d s.chip

end

section
variable {d req st : Nat} {c : Chip}

theorem entryBegun_begins (hr : req < 4) : domState (entryBegun d req c) d = 3 ∧ rfld (entryBegun d req c) (Reg.PWR_DOM d) 1 0 = req ∧
    numOf (entryBegun d req c).power.goal d = req ∧ WithinPower [Reg.PWR_DOM d] c (entryBegun d req c) :=
  ⟨domState_setDom_same d _ (by decide), (req_setDom d 3 _).trans (req_setReq c hr), goal_withGoal_same ..,
    within_modPower _ (within_setFld _ _ _ (by simp) (within_setFld _ _ _ (by simp) (within_refl ..)))⟩

theorem wakeFrom_begins : domState (wakeFrom d st c) d = 4 ∧ rfld (wakeFrom d st c) (Reg.PWR_DOM d) 1 0 = 0 ∧
    numOf (wakeFrom d st c).power.goal d = st ∧ WithinPower [Reg.PWR_DOM d] c (wakeFrom d st c) :=
  ⟨domState_setDom_same d _ (by decide), (req_setDom d 4 _).trans (req_setReq c (by decide)), goal_withGoal_same ..,
    within_modPower _ (within_setFld _ _ _ (by simp) (within_setFld _ _ _ (by simp) (within_refl ..)))⟩

theorem within_unwaited (as : List Nat) : WithinPower as c (unwaited d c) := within_modPower _ (within_refl ..)

/-! ### The ends of an entry and of its wait (R422, R423) -/

theorem actHeld_none (h : numOf c.power.held d = 0) : actHeld d c = c := by
  unfold actHeld
  rw [h]

/-- The domain has no goal any more. -/
def ungoaled (d : Nat) (c : Chip) : Chip := withGoal d 0 c

theorem domainEntryDone_ends (h3 : domState c d = 3) (he : entryFree c d = true)
    (hh : numOf (enterDomain d (numOf c.power.goal d) c).power.held d = 0) :
    domainEntryDone d c = ungoaled d (enterDomain d (numOf c.power.goal d) c) := by
  unfold domainEntryDone
  exact (if_pos h3).trans ((if_pos he).trans (actHeld_none hh))

theorem domainEntryDone_unanswered (h3 : domState c d = 3) (he : entryFree c d = false) : domainEntryDone d c = c := by
  unfold domainEntryDone
  exact (if_pos h3).trans (if_neg (by simp [he]))

theorem emptyTimeout_none (h : numOf c.power.waiting d = 0) : emptyTimeout d c = c := by
  unfold emptyTimeout
  exact if_pos h

theorem emptyTimeout_refuses (h : numOf c.power.waiting d ≠ 0) (hf : fieldEmpty c d = false) :
    emptyTimeout d c = refuseDomain 1 d (unwaited d c) := by
  have hf' : ¬ fieldEmpty (unwaited d c) d = true := fun h => Bool.noConfusion (h.symm.trans hf)
  unfold emptyTimeout
  exact (if_neg h).trans (if_neg hf')

/-- A domain in OFF has lost its unit; the others stand as they did. -/
theorem enterDomain_off (hl : 84 ≤ d → d < 92 → LinkEmpty c (d - 84)) : DomainLost (setDom d 2 c) (enterDomain d 2 c) :=
  loseDomain_leaves (c := setDom d 2 c) (fun h1 h2 => (linkEmpty_congr (setReg_links ..) _).2 (hl h1 h2))

theorem enterDomain_ret_other (h : d < 80 ∨ 84 ≤ d) : enterDomain d 1 c = setDom d 1 c := by
  unfold enterDomain
  exact (if_neg (by decide)).trans (if_neg (by omega))

theorem enterDomain_ret_controller (h1 : 80 ≤ d) (h2 : d < 84) :
    enterDomain d 1 c = setFld (Reg.MEM_M_STATUS (d - 80)) 31 29 3 (setDom d 1 c) := by
  unfold enterDomain
  exact (if_neg (by decide)).trans (if_pos ⟨h1, h2⟩)

theorem enterDomain_enters {g : Nat} (hg : g = 1 ∨ g = 2) (hd : d < 96) (hl : 84 ≤ d → d < 92 → LinkEmpty c (d - 84)) :
    domState (enterDomain d g c) d = g ∧ (enterDomain d g c).power = c.power := by
  rcases hg with rfl | rfl
  · by_cases h : 80 ≤ d ∧ d < 84
    · rw [enterDomain_ret_controller h.1 h.2]
      refine ⟨?_, rfl⟩
      rw [domState_congr (reg_setFld_ne (PWR_DOM_ne (besideDomains_MEM_M_STATUS _) hd) ..), domState_setDom_same d c (by decide)]
    · rw [enterDomain_ret_other (by omega)]
      exact ⟨domState_setDom_same d c (by decide), rfl⟩
  · obtain ⟨hreg, hpow, -⟩ := enterDomain_off hl
    exact ⟨(domState_congr (hreg _ (PWR_DOM_below hd))).trans (domState_setDom_same d c (by decide)), hpow⟩

end

theorem entry_done {d : Fin 96} {s : State} {g : Nat} (h3 : domState s.chip d = 3) (he : entryFree s.chip d = true)
    (hgoal : numOf s.chip.power.goal d = g) (hg : g = 1 ∨ g = 2) (hh : numOf s.chip.power.held d = 0)
    (hl : 84 ≤ d.val → d.val < 92 → LinkEmpty s.chip (d - 84)) :
    ∃ c', Completes (.domainEntryDone d) s c' ∧ domState c' d = g ∧ numOf c'.power.goal d = 0 ∧
      (g = 1 → (d.val < 80 ∨ 84 ≤ d.val) → WithinPower [Reg.PWR_DOM d] s.chip c') := by
  obtain ⟨hst, hp⟩ := enterDomain_enters (c := s.chip) hg d.isLt hl
  have hend := domainEntryDone_ends h3 he (by rw [hgoal, hp, hh])
  rw [hgoal] at hend
  refine ⟨_, completes_next (c := ungoaled d (enterDomain d g s.chip)) rfl (congrArg (fun c => { s with chip := c }) hend), hst, goal_withGoal_same .., fun h1 hd => ?_⟩
  rw [h1, enterDomain_ret_other hd]
  exact within_modPower _ (within_setFld _ _ _ (by simp) (within_refl ..))

/-! ### Wakes (R424 to R426) -/

/-- A controller that keeps its contents serves again. -/
def controllerBack (d : Nat) (c : Chip) : Chip := if 80 ≤ d ∧ d < 84 then setFld (Reg.MEM_M_STATUS (d - 80)) 31 29 2 c else c

section
variable {d : Nat} {c : Chip}

theorem power_controllerBack : (controllerBack d c).power = c.power := by
  unfold controllerBack
  split <;> rfl

theorem reg_controllerBack {a : Nat} (h : a ≠ Reg.MEM_M_STATUS (d - 80)) : reg (controllerBack d c) a = reg c a := by
  unfold controllerBack
  split
  · exact reg_setFld_ne h ..
  · rfl

theorem controllerBack_other (h : hasPads d = false) : controllerBack d c = c := by
  unfold controllerBack
  refine if_neg ?_
  rintro ⟨h1, h2⟩
  simp only [hasPads, Bool.and_eq_false_iff, decide_eq_false_iff_not] at h
  omega

theorem holdPads_none (h : hasPads d = false) : holdPads d c = c := by
  unfold holdPads
  exact if_neg (by simp [h])

theorem holdPads_holds (h : hasPads d = true) : holdPads d c =
    when_ (decide (80 ≤ d)) (setBit (Reg.MEM_M_STATUS (d - 80)) 27 true) (setBit Reg.PWR_PAD_HELD (d - 64) true c) := by
  unfold holdPads
  exact if_pos h

theorem power_holdPads : (holdPads d c).power = c.power := by
  unfold holdPads when_
  split
  · split
    · rw [power_setBit, power_setBit]
    · rfl
  · rfl

theorem reg_holdPads {a : Nat} (hp : a ≠ Reg.PWR_PAD_HELD) (h : a ≠ Reg.MEM_M_STATUS (d - 80)) : reg (holdPads d c) a = reg c a := by
  unfold holdPads when_
  split
  · split
    · exact (reg_setBit_ne h ..).trans (reg_setBit_ne hp ..)
    · exact reg_setBit_ne hp ..
  · rfl

theorem padHeld_holdPads (h : hasPads d = true) : padHeld (holdPads d c) (d - 64) = true := by
  have hd : d - 64 < 32 := by
    simp only [hasPads, Bool.and_eq_true, decide_eq_true_eq] at h
    omega
  have hm : Reg.PWR_PAD_HELD ≠ Reg.MEM_M_STATUS (d - 80) := by unfold Reg.PWR_PAD_HELD Reg.MEM_M_STATUS; omega
  have hb : rflag (setBit Reg.PWR_PAD_HELD (d - 64) true c) Reg.PWR_PAD_HELD (d - 64) = true := rflag_setBit_same _ hd true c
  rw [holdPads_holds h]
  unfold when_
  split
  · exact (rflag_congr (reg_setBit_ne hm ..)).trans hb
  · exact hb

/-- A domain back from RET, its pads held. -/
def awake (d : Nat) (c : Chip) : Chip := setDom d 0 (holdPads d (controllerBack d (ungoaled d c)))

theorem finishWake_from_ret (hh : numOf c.power.held d = 0) : finishWake d 1 c = awake d c := by
  have hpow : (awake d c).power = (ungoaled d c).power := by
    rw [awake, power_setDom, power_holdPads, power_controllerBack]
  exact actHeld_none (c := awake d c) (by rw [hpow]; exact hh)

theorem power_awake : (awake d c).power = (ungoaled d c).power := by
  rw [awake, power_setDom, power_holdPads, power_controllerBack]

theorem domState_awake_same : domState (awake d c) d = 0 := domState_setDom_same d _ (by decide)

theorem domState_awake_ne {e : Nat} (he : e < 96) (h : e ≠ d) : domState (awake d c) e = domState c e := by
  have hm : Reg.PWR_DOM e ≠ Reg.MEM_M_STATUS (d - 80) := PWR_DOM_ne (besideDomains_MEM_M_STATUS _) he
  have hp : Reg.PWR_DOM e ≠ Reg.PWR_PAD_HELD := PWR_DOM_ne (.inl (by decide)) he
  rw [awake, domState_setDom_ne _ _ h, domState_congr (reg_holdPads hp hm), domState_congr (reg_controllerBack hm)]
  rfl

theorem within_awake (h : hasPads d = false) : WithinPower [Reg.PWR_DOM d] c (awake d c) := by
  rw [awake, holdPads_none h, controllerBack_other h]
  exact within_setFld _ _ _ (by simp) (within_modPower _ (within_refl ..))

theorem padHeld_awake (h : hasPads d = true) : padHeld (awake d c) (d - 64) = true :=
  (rflag_congr (reg_setDom_ne 0 _ (by unfold Reg.PWR_PAD_HELD Reg.PWR_DOM; omega))).trans (padHeld_holdPads h)

theorem domainWakeDone_wakes (h4 : domState c d = 4) (hgoal : numOf c.power.goal d = 1) (hh : numOf c.power.held d = 0) :
    domainWakeDone d c = when_ (c.power.devWake.contains d) startWakes (awake d c) := by
  unfold domainWakeDone
  refine (if_pos h4).trans ?_
  rw [hgoal, finishWake_from_ret hh]

end

/-- A field back from OFF, in its reset. -/
def fieldBack (d : Nat) (c : Chip) : Chip := setDom d 5 (fieldReset d (ungoaled d c))

section
variable {d : Nat} {c : Chip}

theorem finishWake_from_off (h : d < 64) : finishWake d 2 c = fieldBack d c := by
  have hp : hasPads d = false := by
    rw [hasPads, decide_eq_false (by omega), Bool.false_and]
  have hr : domainReset d (ungoaled d c) = fieldReset d (ungoaled d c) := if_pos h
  unfold finishWake
  refine (if_pos ⟨rfl, h⟩).trans (congrArg (setDom d 5) ?_)
  exact (holdPads_none hp).trans hr

theorem domainWakeDone_resets (h4 : domState c d = 4) (hw : c.power.devWake.contains d = false) (hgoal : numOf c.power.goal d = 2)
    (h : d < 64) : domainWakeDone d c = fieldBack d c := by
  unfold domainWakeDone
  refine (if_pos h4).trans ?_
  rw [hgoal, finishWake_from_off h]
  unfold when_
  rw [hw]
  rfl

theorem tile_setDom (st t : Nat) : tile (setDom d st c) t = tile c t := rfl

theorem router_setDom (st t : Nat) : router (setDom d st c) t = router c t := rfl

theorem fieldBack_resets : domState (fieldBack d c) d = 5 ∧ ∀ t, fieldOf t = d → tile (fieldBack d c) t = {} ∧ router (fieldBack d c) t = {} :=
  ⟨domState_setDom_same d _ (by decide), fun _ h => ⟨(tile_setDom ..).trans (tile_fieldReset h), (router_setDom ..).trans (router_fieldReset h)⟩⟩

end

/-- The domains whose wake is due in a device change (R426). -/
def wakesDue (c : Chip) : List Nat :=
  c.power.devWake.filter (fun d => domState c d == 1 && (batchBefore c.power.devWake d).all (domOn c))

theorem startWakes_eq (c : Chip) : startWakes c = forAll wakeBegun (wakesDue c) c := rfl

theorem startWakes_begins {e : Nat} {c : Chip} (h : e ∈ wakesDue c) :
    domState (startWakes c) e = 4 ∧ numOf (startWakes c).power.goal e = 1 := by
  refine forAll_reaches (I := fun _ => True) (P := fun e c => domState c e = 4 ∧ numOf c.power.goal e = 1) (f := wakeBegun)
    (fun _ _ _ => trivial) (fun d c _ => ?_) (fun d e c he => ?_) (wakesDue c) c trivial e h
  · exact ⟨domState_setDom_same d c (by decide), goal_withGoal_same d 1 (setDom d 4 c)⟩
  · by_cases hd : e = d
    · rw [hd]
      exact ⟨domState_setDom_same d c (by decide), goal_withGoal_same d 1 (setDom d 4 c)⟩
    · exact ⟨(domState_setDom_ne 4 c hd).trans he.1, (goal_withGoal_ne 1 (setDom d 4 c) hd).trans he.2⟩

theorem startWakes_leaves {e : Nat} {c : Chip} (h : e ∉ wakesDue c) : domState (startWakes c) e = domState c e := by
  refine forAll_keeps (P := fun d => domState d e = domState c e) (f := wakeBegun) (wakesDue c) (fun d hd c' hc => ?_) c rfl
  exact (domState_setDom_ne 4 c' (fun he => h (by rw [he]; exact hd))).trans hc

/-- A retained domain of a device change: its wake begins when the batches before it are ON. -/
theorem domState_startWakes {e : Nat} {c : Chip} (he : e ∈ c.power.devWake) (h1 : domState c e = 1) :
    domState (startWakes c) e = if (batchBefore c.power.devWake e).all (domOn c) then 4 else 1 := by
  by_cases hb : (batchBefore c.power.devWake e).all (domOn c) = true
  · rw [if_pos hb]
    exact (startWakes_begins (List.mem_filter.2 ⟨he, by simp [h1, hb]⟩)).1
  · rw [if_neg hb, startWakes_leaves (fun h => hb ?_), h1]
    exact (Bool.and_eq_true_iff.1 (List.mem_filter.1 h).2).2

/-- The end of a wake in a device change: the next batch begins where every earlier domain is ON. -/
theorem nextBatch {d e : Nat} {c : Chip} (h4 : domState c d = 4) (hlt : ∀ x, x ∈ c.power.devWake → x < 96) (he : e ∈ c.power.devWake)
    (h1 : domState c e = 1) : domState (startWakes (awake d c)) e =
      if (batchBefore c.power.devWake e).all (fun x => x == d || domOn c x) then 4 else 1 := by
  have hw : (awake d c).power.devWake = c.power.devWake := by
    rw [power_awake]
    rfl
  have hne : e ≠ d := fun h => by
    rw [h, h4] at h1
    exact absurd h1 (by decide)
  have hon : ∀ x, x ∈ batchBefore c.power.devWake e → domOn (awake d c) x = (x == d || domOn c x) := fun x hx => by
    by_cases hd : x = d
    · rw [hd, domOn, domState_awake_same, beq_self_eq_true, beq_self_eq_true, Bool.true_or]
    · rw [domOn, domState_awake_ne (hlt x (List.mem_of_mem_take hx)) hd, beq_false_of_ne hd, Bool.false_or, domOn]
  have hall : (batchBefore c.power.devWake e).all (domOn (awake d c)) =
      (batchBefore c.power.devWake e).all (fun x => x == d || domOn c x) := by
    rw [Bool.eq_iff_iff, List.all_eq_true, List.all_eq_true]
    exact forall₂_congr fun x hx => by rw [hon x hx]
  rw [domState_startWakes (by rw [hw]; exact he) ((domState_awake_ne (hlt e he) hne).trans h1), hw, hall]

/-! ### Pads (R424) -/

/-- The release of pad `i` by the word `v`. -/
def padReleased (v : Word) (i : Nat) (c : Chip) : Chip :=
  if flag v i && padHeld c i && domOn c (64 + i) then
    c |> setBit Reg.PWR_PAD_HELD i false |> when_ (decide (16 ≤ i)) (setBit (Reg.MEM_M_STATUS (i - 16)) 27 false)
  else c

theorem padRelease_eq (v : Word) (c : Chip) : padRelease v c = tryResume (forAll (padReleased v) (List.range 20) c) := rfl

theorem regs_tryResume (c : Chip) : (tryResume c).regs = c.regs := by
  unfold tryResume
  split
  · refine forAll_leaves Chip.regs _ (fun k d => ?_) c
    split
    · exact modTb_regs ..
    · rfl
  · rfl

theorem reg_tryResume (c : Chip) (a : Nat) : reg (tryResume c) a = reg c a := congrArg (mapGet regReset · a) (regs_tryResume c)

theorem reg_padReleased {v : Word} {i a : Nat} (c : Chip) (hp : a ≠ Reg.PWR_PAD_HELD) (hm : 16 ≤ i → a ≠ Reg.MEM_M_STATUS (i - 16)) :
    reg (padReleased v i c) a = reg c a := by
  unfold padReleased when_
  split
  · split
    · next h => exact (reg_setBit_ne (hm (of_decide_eq_true h)) ..).trans (reg_setBit_ne hp ..)
    · exact reg_setBit_ne hp ..
  · rfl

theorem domOn_padReleased {v : Word} {i d : Nat} (c : Chip) (hd : d < 96) : domOn (padReleased v i c) d = domOn c d :=
  domOn_congr (reg_padReleased c (PWR_DOM_ne (.inl (by decide)) hd) (fun _ => PWR_DOM_ne (besideDomains_MEM_M_STATUS _) hd))

theorem held_padReleased (v : Word) (i : Nat) (c : Chip) : reg (padReleased v i c) Reg.PWR_PAD_HELD =
    if flag v i && padHeld c i && domOn c (64 + i) then putBit (reg c Reg.PWR_PAD_HELD) i false else reg c Reg.PWR_PAD_HELD := by
  have hm (m : Nat) : Reg.PWR_PAD_HELD ≠ Reg.MEM_M_STATUS m := by unfold Reg.PWR_PAD_HELD Reg.MEM_M_STATUS; omega
  unfold padReleased when_
  split
  · split
    · exact (reg_setBit_ne (hm _) ..).trans (reg_setBit_same ..)
    · exact reg_setBit_same ..
  · rfl

theorem padHeld_padReleased_same {v : Word} {i : Nat} (hi : i < 32) (c : Chip) :
    padHeld (padReleased v i c) i = (padHeld c i && !(flag v i && domOn c (64 + i))) := by
  rw [padHeld, rflag, held_padReleased]
  split
  · next h =>
    rw [flag_putBit_same _ _ _ hi]
    simp only [Bool.and_eq_true] at h
    rw [h.1.1, h.1.2, h.2]
    rfl
  · next h =>
    change padHeld c i = _
    cases hp : padHeld c i
    · rfl
    · rw [hp, Bool.and_true] at h
      rw [Bool.eq_false_iff.2 h]
      rfl

theorem padHeld_padReleased_ne {v : Word} {i j : Nat} (hi : i < 32) (h : j ≠ i) (c : Chip) :
    padHeld (padReleased v i c) j = padHeld c j := by
  rw [padHeld, rflag, held_padReleased]
  split
  · exact flag_putBit_ne _ _ _ _ hi h
  · rfl

theorem padHeld_padRelease {v : Word} {i : Nat} (c : Chip) (hi : i < 20) :
    padHeld (padRelease v c) i = (padHeld c i && !(flag v i && domOn c (64 + i))) := by
  rw [padRelease_eq]
  refine (rflag_congr (reg_tryResume ..)).trans ?_
  refine forAll_through (P := fun d => padHeld d i = padHeld c i ∧ domOn d (64 + i) = domOn c (64 + i))
    (Q := fun d => padHeld d i = (padHeld c i && !(flag v i && domOn c (64 + i)))) (List.range 20) (List.mem_range.2 hi)
    List.nodup_range (fun k hk hne d hd => ?_) (fun d hd => ?_) (fun k hk hne d hd => ?_) c ⟨rfl, rfl⟩
  · have hk' : k < 32 := by have := List.mem_range.1 hk; omega
    exact ⟨(padHeld_padReleased_ne hk' hne.symm d).trans hd.1, (domOn_padReleased d (by omega)).trans hd.2⟩
  · rw [padHeld_padReleased_same (by omega), hd.1, hd.2]
  · have hk' : k < 32 := by have := List.mem_range.1 hk; omega
    exact (padHeld_padReleased_ne hk' hne.symm d).trans hd

theorem reg_padRelease {v : Word} {a : Nat} (c : Chip) (hp : a ≠ Reg.PWR_PAD_HELD) (hm : ∀ m, m < 4 → a ≠ Reg.MEM_M_STATUS m) :
    reg (padRelease v c) a = reg c a := by
  rw [padRelease_eq, reg_tryResume]
  exact reg_forAll _ (fun i hi d => reg_padReleased d hp (fun h => hm _ (by have := List.mem_range.1 hi; omega))) c

/-! ### The obligation -/

section
variable {s : State} {d : Fin 96} {v : Word}

/-- A request from ON for RET or OFF. -/
theorem request_leaves (hs : s.chip.power.stripped = false) (h3 : fld v 1 0 < 3) (hr : fld v 1 0 = 1 → hasRet d = true)
    (h0 : domState s.chip d = 0) (hreq : fld v 1 0 ≠ 0) (he : 64 ≤ d.val ∨ fieldEmpty s.chip d = true ∨ needed s.chip d = true) :
    Completes (.domainRequest d v) s (beginEntry d (fld v 1 0) (unwaited d s.chip)) := by
  have h := domainRequest_taken hs h3 hr
  rwa [if_neg (by omega), actRequest_enters h0 hreq he] at h

theorem request_begins_entry (hs : s.chip.power.stripped = false) (h3 : fld v 1 0 < 3) (hr : fld v 1 0 = 1 → hasRet d = true)
    (h0 : domState s.chip d = 0) (hreq : fld v 1 0 ≠ 0) (he : 64 ≤ d.val ∨ fieldEmpty s.chip d = true ∨ needed s.chip d = true)
    (hl : leaveRefuser s.chip d (fld v 1 0) = 0) : ∃ c', Completes (.domainRequest d v) s c' ∧ domState c' d = 3 ∧
      rfld c' (Reg.PWR_DOM d) 1 0 = fld v 1 0 ∧ numOf c'.power.goal d = fld v 1 0 ∧ WithinPower [Reg.PWR_DOM d] s.chip c' := by
  have h := request_leaves hs h3 hr h0 hreq he
  rw [beginEntry_begins (c := unwaited d s.chip) hl] at h
  obtain ⟨h1, h2, h3, h4⟩ := entryBegun_begins (d := d) (c := unwaited d s.chip) (by omega : fld v 1 0 < 4)
  exact ⟨_, h, h1, h2, h3, within_trans (within_unwaited _) h4⟩

theorem request_refuses_entry (hs : s.chip.power.stripped = false) (h3 : fld v 1 0 < 3) (hr : fld v 1 0 = 1 → hasRet d = true)
    (h0 : domState s.chip d = 0) (hreq : fld v 1 0 ≠ 0) (he : 64 ≤ d.val ∨ fieldEmpty s.chip d = true ∨ needed s.chip d = true)
    (hl : leaveRefuser s.chip d (fld v 1 0) ≠ 0) : ∃ c', Completes (.domainRequest d v) s c' ∧
      DomainRefused (leaveRefuser s.chip d (fld v 1 0)) d s.chip c' ∧ numOf c'.power.waiting d = 0 := by
  have h := request_leaves hs h3 hr h0 hreq he
  rw [beginEntry_refuses (c := unwaited d s.chip) hl] at h
  exact request_refused (leaveRefuser_small ..) h

theorem request_begins_wake (hs : s.chip.power.stripped = false) (hreq : fld v 1 0 = 0) (h12 : domState s.chip d = 1 ∨ domState s.chip d = 2)
    (hw : wakeRefuser s.chip d = 0) : ∃ c', Completes (.domainRequest d v) s c' ∧ domState c' d = 4 ∧
      rfld c' (Reg.PWR_DOM d) 1 0 = 0 ∧ numOf c'.power.goal d = domState s.chip d ∧ WithinPower [Reg.PWR_DOM d] s.chip c' := by
  have h := domainRequest_taken (d := d) (v := v) hs (by omega) (by omega)
  rw [if_neg (by omega), hreq, actRequest_wakes (by omega) hw] at h
  obtain ⟨h1, h2, h3, h4⟩ := wakeFrom_begins (d := d) (st := domState s.chip d) (c := unwaited d s.chip)
  exact ⟨_, h, h1, h2, h3, within_trans (within_unwaited _) h4⟩

theorem request_refuses_wake (hs : s.chip.power.stripped = false) (hreq : fld v 1 0 = 0) (h12 : domState s.chip d = 1 ∨ domState s.chip d = 2)
    (hw : wakeRefuser s.chip d ≠ 0) : ∃ c', Completes (.domainRequest d v) s c' ∧
      DomainRefused (wakeRefuser s.chip d) d s.chip c' ∧ numOf c'.power.waiting d = 0 := by
  have h := domainRequest_taken (d := d) (v := v) hs (by omega) (by omega)
  rw [if_neg (by omega), hreq, actRequest_refuses_wake (by omega) hw] at h
  exact request_refused (wakeRefuser_small ..) h

theorem wake_done (h4 : domState s.chip d = 4) (hh : numOf s.chip.power.held d = 0) (hgoal : numOf s.chip.power.goal d = 1) :
    Completes (.domainWakeDone d) s (when_ (s.chip.power.devWake.contains d) startWakes (awake d s.chip)) :=
  completes_next rfl (congrArg (fun c => { s with chip := c }) (domainWakeDone_wakes h4 hgoal hh))

end

/-- Settles O48: each command is the branch of its definition that its state selects, and a domain's STATE is read back from PWR_DOM. -/
theorem powerDomains : Obligations.PowerDomains := by
  intro s d c quiet st refused
  have hrefused : ∀ {i id}, (∃ c', Completes i s c' ∧ DomainRefused id d c c' ∧ numOf c'.power.waiting d = 0) → refused i id := by
    rintro i id ⟨c', h, ⟨h1, h2, h3, h4, h5⟩, h6⟩
    exact ⟨c', h, h1, h2, h3, h4, h6, h5⟩
  refine ⟨fun v h => domainRequest_ignored h, fun v hs h1 hr => ?_, fun v hs h3 hr => ?_, fun h he => ?_, fun g h he hgoal hg hh hl => ?_,
    fun h => ?_, fun h hf => ?_, fun h hw hh hgoal => ?_, fun h hw hlt hh hgoal => ?_, fun h hw hgoal hd => ?_, fun v => ?_⟩
  · exact ⟨_, domainRequest_without_ret hs h1 hr, rflag_raise _ _ _ (by decide), frame_raise _ _ (by simp) (frame_refl ..)⟩
  · intro req i
    have htaken := domainRequest_taken hs h3 hr
    refine ⟨fun h => ?_, fun h heq => ?_, fun h0 hreq he => ⟨request_begins_entry hs h3 hr h0 hreq he, fun hl =>
      hrefused (request_refuses_entry hs h3 hr h0 hreq he hl)⟩, fun h0 hreq hd hf hn => ?_, fun h12 hreq => ⟨fun hw => ?_, fun hw =>
      hrefused (request_refuses_wake hs hreq h12 hw)⟩, fun h2 h1 => ?_⟩
    · rwa [if_pos h] at htaken
    · rw [if_neg (Nat.not_le_of_lt h), actRequest_same heq] at htaken
      exact ⟨_, htaken, domState_setReq .., req_setReq _ (by omega), within_setFld _ _ _ (by simp) (within_unwaited _)⟩
    · rw [if_neg (not_three_le h0 (by decide)), actRequest_waits h0 hreq hd hf hn] at htaken
      exact ⟨_, htaken, numOf_setNum_same .., within_modPower _ (within_unwaited _)⟩
    · exact request_begins_wake hs hreq h12 hw
    · have hne : fld v 1 0 ≠ 2 ∧ fld v 1 0 ≠ 0 := by omega
      rw [if_neg (not_three_le h2 (by decide)), actRequest_from_off h2 hne.1 hne.2] at htaken
      exact ⟨_, htaken, within_unwaited _⟩
  · exact completes_next rfl (congrArg (fun c => { s with chip := c }) (domainEntryDone_unanswered h he))
  · exact entry_done h he hgoal hg hh hl
  · exact completes_next rfl (congrArg (fun c => { s with chip := c }) (emptyTimeout_none h))
  · exact hrefused (request_refused (by decide) (completes_next rfl (congrArg (fun c => { s with chip := c }) (emptyTimeout_refuses h hf))))
  · have hdone := wake_done h hh hgoal
    rw [hw] at hdone
    exact ⟨_, hdone, domState_awake_same, padHeld_awake, within_awake⟩
  · have hdone := wake_done h hh hgoal
    rw [hw] at hdone
    refine ⟨_, hdone, ?_, fun e _ he h1 => nextBatch h hlt he h1⟩
    refine (startWakes_leaves fun hd => ?_).trans domState_awake_same
    have h1 := (Bool.and_eq_true_iff.1 (List.mem_filter.1 hd).2).1
    rw [domState_awake_same] at h1
    exact Bool.noConfusion h1
  · exact ⟨_, completes_next rfl (congrArg (fun c => { s with chip := c }) (domainWakeDone_resets h hw hgoal hd)), fieldBack_resets⟩
  · exact ⟨_, completes_next rfl rfl, fun i hi => padHeld_padRelease c hi, fun a hp hm => reg_padRelease c hp hm⟩

end Sys2Proof.Machine
end

section
/-!
PROOFS. Device states: the begin of a change, its batches and its end (R426 to R429).
-/

namespace Sys2Proof.Machine

open Sys2Proof.Safety

/-! ### The state of the device -/

theorem devState_congr {c c' : Chip} (h : reg c' Reg.PWR_DEV_STATUS = reg c Reg.PWR_DEV_STATUS) : devState c' = devState c := rfld_congr h

theorem domOn_setReg {a : Nat} (v : Word) (c : Chip) (h : a < Reg.PWR_DOM 0) : domOn (setReg a v c) = domOn c := by
  funext d
  exact domOn_congr (reg_setReg_ne v c (by unfold Reg.PWR_DOM at *; omega))

theorem reg_startWakes {a : Nat} (c : Chip) (h : a < Reg.PWR_DOM 0) : reg (startWakes c) a = reg c a :=
  forAll_leaves (fun d => reg d a) (f := wakeBegun) _ (fun d x => reg_setDom_ne 4 x (by unfold Reg.PWR_DOM at *; omega)) c

theorem startWakes_lists (c : Chip) : (startWakes c).power.devEnter = c.power.devEnter ∧ (startWakes c).power.devWake = c.power.devWake :=
  ⟨forAll_leaves (fun x => x.power.devEnter) (f := wakeBegun) _ (fun _ _ => rfl) c,
    forAll_leaves (fun x => x.power.devWake) (f := wakeBegun) _ (fun _ _ => rfl) c⟩

/-- The domains that a change to `g` retains, in the order in which they enter. -/
def domainsToEnter (g : Nat) (c : Chip) : List Nat := ((stateDomains g).filter (domOn c)).reverse

/-- The domains that a change to `g` wakes, in their order. -/
def domainsToWake (g : Nat) (c : Chip) : List Nat :=
  (stateDomains 2).filter (fun d => c.power.devRet.contains d && domState c d == 1 && !(stateDomains g).contains d)

/-- A change to `g` shown as begun, its domains fixed. -/
def changeShown (g : Nat) (c : Chip) : Chip :=
  c |> raise Reg.PWR_DEV_STATUS 29
    |> modPower (fun P => { P with devGoal := some g, devEnter := domainsToEnter g c, devWake := domainsToWake g c })

theorem beginDevice_eq (g : Nat) (c : Chip) : beginDevice g c = startWakes (changeShown g c) := rfl

theorem domOn_changeShown (g : Nat) (c : Chip) : domOn (changeShown g c) = domOn c := domOn_setReg _ c (by decide)

theorem domState_changeShown (g d : Nat) (c : Chip) : domState (changeShown g c) d = domState c d :=
  domState_congr (reg_raise_ne (by unfold Reg.PWR_DOM Reg.PWR_DEV_STATUS; omega) ..)

theorem devState_beginDevice (g : Nat) (c : Chip) : devState (beginDevice g c) = devState c := by
  rw [beginDevice_eq, devState_congr (reg_startWakes _ (by decide))]
  exact rfld_setBit_apart _ (by decide) (by decide) true c

theorem devEnter_beginDevice (g : Nat) (c : Chip) : (beginDevice g c).power.devEnter = domainsToEnter g c := (startWakes_lists _).1

theorem devWake_beginDevice (g : Nat) (c : Chip) : (beginDevice g c).power.devWake = domainsToWake g c := (startWakes_lists _).2

/-- Each domain to wake is in the first batch, and wakes, or stays in RET. -/
theorem beginDevice_wakes {g d : Nat} {c : Chip} (hd : d ∈ domainsToWake g c) :
    if (batchBefore (domainsToWake g c) d).all (domOn c)
      then domState (beginDevice g c) d = 4 ∧ numOf (beginDevice g c).power.goal d = 1 else domState (beginDevice g c) d = 1 := by
  have h1 : domState (changeShown g c) d = 1 := by
    have h := (List.mem_filter.1 hd).2
    simp only [Bool.and_eq_true, beq_iff_eq] at h
    rw [domState_changeShown, h.1.2]
  have hst := domState_startWakes (c := changeShown g c) hd h1
  have hall : (batchBefore (domainsToWake g c) d).all (domOn c) = (batchBefore (changeShown g c).power.devWake d).all (domOn (changeShown g c)) := by
    rw [domOn_changeShown]
    rfl
  rw [beginDevice_eq, hall]
  split
  · next h =>
    rw [if_pos h] at hst
    exact ⟨hst, (startWakes_begins (List.mem_filter.2 ⟨hd, by rw [h1, h]; rfl⟩)).2⟩
  · next h => rwa [if_neg h] at hst

/-! ### Requests for HOLD and DEEP -/

section
variable {g : Nat} {v : Word} {c : Chip}

theorem devEnterState_ignored (h : devBusy c = true ∨ devState c = g) : devEnterState g v c = c := by
  unfold devEnterState
  refine if_pos ?_
  rcases h with h | h <;> simp [h]

theorem devEnterState_refused (hb : devBusy c = false) (hg : devState c ≠ g) (h : deviceRefuser c (flag v 28) (fld v 15 0) ≠ 0) :
    devEnterState g v c = refuseDevice (deviceRefuser c (flag v 28) (fld v 15 0)) c := by
  obtain ⟨n, hn⟩ := Nat.exists_eq_succ_of_ne_zero h
  unfold devEnterState
  rw [if_neg (by simp [hb, hg]), hn]
  rfl

/-- The stop of every timebase armed, with the step shown. -/
def holdsArmed (v : Word) (c : Chip) : Chip :=
  c |> setFld Reg.PWR_DEV_STATUS 15 0 (if flag v 28 then fld v 15 0 else 0) |> forAll (armHold (flag v 28) (fld v 15 0)) (List.range 16)

theorem devEnterState_begins (hb : devBusy c = false) (hg : devState c ≠ g) (h : deviceRefuser c (flag v 28) (fld v 15 0) = 0) :
    devEnterState g v c = beginDevice g (holdsArmed v c) := by
  unfold devEnterState
  rw [if_neg (by simp [hb, hg]), h]
  rfl

theorem regs_armHold (joint : Bool) (t16 k : Nat) (c : Chip) : (armHold joint t16 k c).regs = c.regs := by
  unfold armHold
  split
  · split <;> exact modTb_regs ..
  · rfl

theorem regs_holdsArmed : (holdsArmed v c).regs = (setFld Reg.PWR_DEV_STATUS 15 0 (if flag v 28 then fld v 15 0 else 0) c).regs :=
  forAll_leaves Chip.regs _ (fun k d => regs_armHold _ _ k d) _

theorem reg_holdsArmed (a : Nat) : reg (holdsArmed v c) a = reg (setFld Reg.PWR_DEV_STATUS 15 0 (if flag v 28 then fld v 15 0 else 0) c) a :=
  congrArg (mapGet regReset · a) regs_holdsArmed

theorem devState_holdsArmed : devState (holdsArmed v c) = devState c :=
  (rfld_congr (reg_holdsArmed _)).trans (rfld_setFld_apart _ _ _ _ _ _ c (by decide) (by decide) (by decide))

theorem domainsToEnter_holdsArmed : domainsToEnter g (holdsArmed v c) = domainsToEnter g c := by
  have h : domOn (holdsArmed v c) = domOn c := by
    funext d
    refine (domOn_congr (reg_holdsArmed _)).trans ?_
    exact congrFun (domOn_setReg _ c (by decide)) d
  unfold domainsToEnter
  rw [h]

end

/-- What a refused device request leaves of STATE and of the other registers. -/
theorem refuseDevice_leaves {id : Nat} (c : Chip) : devState (refuseDevice id c) = devState c ∧ Advanced Reg.PWR_DEV_REFUSE 1 c (refuseDevice id c) ∧
    Frame [Reg.PWR_DEV_REFUSE, Reg.PWR_DEV_STATUS, Reg.PWR_LAST_REFUSE] [] c (refuseDevice id c) := by
  have hr : reg (refuseDevice id c) Reg.PWR_DEV_STATUS = putFld (reg c Reg.PWR_DEV_STATUS) 26 24 id := by
    rw [refuseDevice, noteRefusal, reg_putNum_ne (by decide), setFld_eq, reg_setReg_same, reg_count_ne (by decide)]
  refine ⟨?_, ?_, ?_⟩
  · rw [devState, rfld, hr, fld_putFld_apart _ _ _ _ _ _ (by decide) (by decide) (by decide)]
    rfl
  · exact advanced_congr (advanced_count ..) ((reg_putNum_ne (by decide) ..).trans (reg_setFld_ne (by decide) ..))
  · exact frame_putNum _ _ (by simp) (frame_setFld _ _ _ _ (by simp) (frame_count _ _ (by simp) (frame_refl ..)))

/-- DEV_HOLD and DEV_DEEP, each by the branch that the state selects. -/
theorem deviceEnters {i : Instr} {s : State} {g : Nat} {v : Word} (hi : exec i s = .next { s with chip := devEnterState g v s.chip }) :
    ((devBusy s.chip = true ∨ devState s.chip = g) → Completes i s s.chip) ∧
    (devBusy s.chip = false → devState s.chip ≠ g → deviceRefuser s.chip (flag v 28) (fld v 15 0) ≠ 0 → ∃ c', Completes i s c' ∧
      rfld c' Reg.PWR_DEV_STATUS 26 24 = deviceRefuser s.chip (flag v 28) (fld v 15 0) ∧ Advanced Reg.PWR_DEV_REFUSE 1 s.chip c' ∧
      devState c' = devState s.chip ∧ devBusy c' = false ∧
      Frame [Reg.PWR_DEV_REFUSE, Reg.PWR_DEV_STATUS, Reg.PWR_LAST_REFUSE] [] s.chip c') ∧
    (devBusy s.chip = false → devState s.chip ≠ g → deviceRefuser s.chip (flag v 28) (fld v 15 0) = 0 → ∃ c', Completes i s c' ∧
      devBusy c' = true ∧ devState c' = devState s.chip ∧ c'.power.devGoal = some g ∧
      c'.power.devEnter = ((stateDomains g).filter (domOn s.chip)).reverse) := by
  refine ⟨fun h => completes_next hi (congrArg (fun c => { s with chip := c }) (devEnterState_ignored h)), fun hb hg hid => ?_, fun hb hg hid => ?_⟩
  · have hlt : deviceRefuser s.chip (flag v 28) (fld v 15 0) < 8 := by
      rcases deviceRefuser_cases s.chip (flag v 28) (fld v 15 0) with h | h | h <;> omega
    obtain ⟨-, hbusy, hshown⟩ := refuseDevice_refuses hlt s.chip
    obtain ⟨hst, hadv, hfr⟩ := refuseDevice_leaves (id := deviceRefuser s.chip (flag v 28) (fld v 15 0)) s.chip
    exact ⟨_, completes_next hi (congrArg (fun c => { s with chip := c }) (devEnterState_refused hb hg hid)), hshown, hadv, hst,
      hbusy.trans hb, hfr⟩
  · obtain ⟨-, hgoal, hbusy⟩ := beginDevice_begins g (holdsArmed v s.chip)
    exact ⟨_, completes_next hi (congrArg (fun c => { s with chip := c }) (devEnterState_begins hb hg hid)), hbusy,
      (devState_beginDevice ..).trans devState_holdsArmed, hgoal, (devEnter_beginDevice ..).trans domainsToEnter_holdsArmed⟩

/-! ### DEV_RUN -/

theorem devRun_ignored {c : Chip} (h : devBusy c = true ∨ devState c = 0) : devRun c = c := by
  unfold devRun
  refine if_pos ?_
  rcases h with h | h <;> simp [h]

theorem devRun_begins {c : Chip} (hb : devBusy c = false) (hg : devState c ≠ 0) : devRun c = beginDevice 0 c := by
  unfold devRun
  exact if_neg (by simp [hb, hg])

theorem domainsToWake_run (c : Chip) :
    domainsToWake 0 c = (stateDomains 2).filter (fun d => c.power.devRet.contains d && domState c d == 1) :=
  List.filter_congr fun d _ => by
    change (_ && !([] : List Nat).contains d) = _
    rw [List.contains_nil, Bool.not_false, Bool.and_true]

/-! ### The end of a change -/

/-- Device state `g` entered and shown, before the timebases may resume. -/
def changeEnded (g : Nat) (c : Chip) : Chip :=
  c |> setFld Reg.PWR_DEV_STATUS 31 30 g |> setBit Reg.PWR_DEV_STATUS 29 false |> setFld Reg.PWR_DEV_STATUS 15 0 0
    |> modPower (fun P => { P with devGoal := none, devRet := P.devRet.filter (stateDomains g).contains, devEnter := [], devWake := [] })
    |> raise Reg.PWR_FAULT 1

/-- Whether a change to `g` may end. -/
def changeReady (g : Nat) (c : Chip) : Bool :=
  (g == 0 || allHeld c) && c.power.devEnter.all (fun d => domState c d == 1) && c.power.devWake.all (domOn c)

section
variable {g : Nat} {c : Chip}

theorem devStateDone_none (h : c.power.devGoal = none) : devStateDone c = c := by
  unfold devStateDone
  rw [h]

theorem devStateDone_waits (h : c.power.devGoal = some g) (hr : changeReady g c = false) : devStateDone c = c := by
  unfold devStateDone
  rw [h]
  exact if_neg (fun h => Bool.noConfusion (h.symm.trans hr))

theorem devStateDone_ends (h : c.power.devGoal = some g) (hr : changeReady g c = true) : devStateDone c = tryResume (changeEnded g c) := by
  unfold devStateDone
  rw [h]
  exact if_pos hr

theorem status_changeEnded : reg (changeEnded g c) Reg.PWR_DEV_STATUS =
    putFld (putBit (putFld (reg c Reg.PWR_DEV_STATUS) 31 30 g) 29 false) 15 0 0 := by
  unfold changeEnded
  rw [reg_raise_ne (by decide), reg_modPower, setFld_eq, reg_setReg_same, reg_setBit_same, setFld_eq, reg_setReg_same]

theorem devState_changeEnded (hg : g < 4) : devState (changeEnded g c) = g := by
  rw [devState, rfld, status_changeEnded, fld_putFld_apart _ _ _ _ _ _ (by decide) (by decide) (by decide),
    fld_putBit_apart _ _ _ _ _ (by decide) (by decide), fld_putFld_same _ _ _ _ (by decide) (by decide)]
  exact Nat.mod_eq_of_lt hg

theorem devBusy_changeEnded : devBusy (changeEnded g c) = false := by
  rw [devBusy, rflag, status_changeEnded, flag_putFld_apart _ _ _ _ _ (by decide) (by decide) (by decide), flag_putBit_same _ _ _ (by decide)]

theorem within_changeEnded : WithinPower [Reg.PWR_DEV_STATUS, Reg.PWR_FAULT] c (changeEnded g c) :=
  within_raise _ (by simp) (within_modPower _ (within_setFld _ _ _ (by simp) (within_setBit _ _ (by simp)
    (within_setFld _ _ _ (by simp) (within_refl ..)))))

/-- Timebases that resume change nothing but themselves. -/
theorem tryResume_leaves (P : Power) (T : Sparse Timebase) (d : Chip) :
    ({ tryResume d with power := P, tbs := T } : Chip) = { d with power := P, tbs := T } := by
  unfold tryResume
  split
  · refine forAll_leaves (fun x : Chip => ({ x with power := P, tbs := T } : Chip)) _ (fun k x => ?_) d
    split <;> rfl
  · rfl

theorem power_tryResume (d : Chip) : (tryResume d).power = d.power := by
  unfold tryResume
  split
  · refine forAll_leaves Chip.power _ (fun k x => ?_) d
    split
    · exact modTb_power ..
    · rfl
  · rfl

end

theorem deviceStateDone {s : State} {g : Nat} (hgoal : s.chip.power.devGoal = some g) (hg : g < 3) (hr : changeReady g s.chip = true) :
    ∃ c', Completes .devStateDone s c' ∧ devState c' = g ∧ devBusy c' = false ∧ rflag c' Reg.PWR_FAULT 1 = true ∧ c'.power.devGoal = none ∧
      Frame [Reg.PWR_DEV_STATUS, Reg.PWR_FAULT] [] s.chip { { c' with power := s.chip.power } with tbs := s.chip.tbs } := by
  refine ⟨_, completes_next rfl (congrArg (fun c => { s with chip := c }) (devStateDone_ends hgoal hr)), ?_, ?_, ?_, ?_, ?_⟩
  · exact (rfld_congr (reg_tryResume ..)).trans (devState_changeEnded (by omega))
  · exact (rflag_congr (reg_tryResume ..)).trans devBusy_changeEnded
  · exact (rflag_congr (reg_tryResume ..)).trans (rflag_raise _ _ _ (by decide))
  · rw [power_tryResume]
    rfl
  · have h := tryResume_leaves s.chip.power s.chip.tbs (changeEnded g s.chip)
    have hw := within_changeEnded (g := g) (c := s.chip)
    have h' : Frame [Reg.PWR_DEV_STATUS, Reg.PWR_FAULT] [] s.chip
        { changeEnded g s.chip with power := s.chip.power, tbs := s.chip.tbs } := hw
    rw [← h] at h'
    exact h'

end Sys2Proof.Machine
end

section
/-!
PROOFS. Operating points: requests, steps and floors of the two halves (R430 to R432, R436).
-/

namespace Sys2Proof.Machine

open Sys2Proof.Safety

/-! ### The registers and accounts of the halves -/

theorem halfReg_other (e : Bool) : halfReg e ≠ halfReg (!e) := by cases e <;> decide

theorem halfReg_below (e : Bool) : halfReg e = Reg.PWR_HALF_W ∨ halfReg e = Reg.PWR_HALF_E := by cases e <;> simp [halfReg]

theorem halfReg_ne {a : Nat} (hw : a ≠ Reg.PWR_HALF_W) (he : a ≠ Reg.PWR_HALF_E) (e : Bool) : a ≠ halfReg e := by
  rcases halfReg_below e with h | h <;> rw [h] <;> assumption

theorem halfOf_modHalf_same (e : Bool) (f : Half → Half) (c : Chip) : halfOf (modHalf e f c) e = f (halfOf c e) := by cases e <;> rfl

theorem halfOf_modHalf_other (e : Bool) (f : Half → Half) (c : Chip) : halfOf (modHalf e f c) (!e) = halfOf c (!e) := by cases e <;> rfl

theorem halfOf_congr {c c' : Chip} (h : c'.power = c.power) (e : Bool) : halfOf c' e = halfOf c e := by
  unfold halfOf
  rw [h]

theorem halfPoint_congr {c c' : Chip} {e : Bool} (h : reg c' (halfReg e) = reg c (halfReg e)) : halfPoint c' e = halfPoint c e := rfld_congr h

theorem reg_modHalf (e : Bool) (f : Half → Half) (c : Chip) (a : Nat) : reg (modHalf e f c) a = reg c a := rfl

theorem power_raise (a i : Nat) (c : Chip) : (raise a i c).power = c.power := rfl

theorem halfPoint_lt (c : Chip) (e : Bool) : halfPoint c e < 4 := Nat.mod_lt _ (by decide)

theorem halfFloor_lt (c : Chip) (e : Bool) : halfFloor c e < 4 := by
  cases e <;> exact Nat.mod_lt _ (by decide)

theorem halfFloor_congr {c c' : Chip} (h : reg c' Reg.PWR_FLOOR = reg c Reg.PWR_FLOOR) (e : Bool) : halfFloor c' e = halfFloor c e := by
  unfold halfFloor
  rw [rfld_congr h, rfld_congr h]

/-- CHANGING and TARGET of a half leave its POINT. -/
theorem halfPoint_setBit (e b : Bool) (c : Chip) : halfPoint (setBit (halfReg e) 31 b c) e = halfPoint c e :=
  rfld_setBit_apart _ (by decide) (by decide) b c

theorem halfPoint_setTarget (e : Bool) (g : Nat) (c : Chip) : halfPoint (setFld (halfReg e) 1 0 g c) e = halfPoint c e :=
  rfld_setFld_apart _ _ _ _ _ _ c (by decide) (by decide) (by decide)

/-! ### The begin of a change -/

theorem startChange_cases (e : Bool) (c : Chip) : startChange e c = c ∨ startChange e c = raise (halfReg e) 31 c := by
  unfold startChange
  split
  · exact .inr rfl
  · exact .inl rfl

section
variable {e : Bool} {c : Chip}

theorem power_startChange : (startChange e c).power = c.power := by
  rcases startChange_cases e c with h | h <;> rw [h]
  exact power_raise ..

theorem reg_startChange {a : Nat} (h : a ≠ halfReg e) : reg (startChange e c) a = reg c a := by
  rcases startChange_cases e c with hc | hc <;> rw [hc]
  exact reg_raise_ne h ..

theorem startChange_begins (hg : (halfOf c e).goal.isSome = true) (ho : rflag c (halfReg (!e)) 31 = false) :
    startChange e c = raise (halfReg e) 31 c := if_pos (by rw [hg, ho]; rfl)

theorem within_startChange {as : List Nat} {d : Chip} (h : halfReg e ∈ as) (w : WithinPower as d c) : WithinPower as d (startChange e c) := by
  rcases startChange_cases e c with hc | hc <;> rw [hc]
  · exact w
  · exact within_raise _ h w

theorem rfld_startChange {hi lo : Nat} (h : hi < 31) : rfld (startChange e c) (halfReg e) hi lo = rfld c (halfReg e) hi lo := by
  rcases startChange_cases e c with hc | hc <;> rw [hc]
  exact rfld_setBit_apart _ (by decide) (.inr h) true c

end

/-! ### A request carried out or refused -/

/-- What a point request for code `g` that is carried out leaves. -/
structure PointTaken (e : Bool) (g : Nat) (c c' : Chip) : Prop where
  target : rfld c' (halfReg e) 1 0 = g
  point : halfPoint c' e = halfPoint c e
  goal : (halfOf c' e).goal = if halfPoint c e = g then none else some g
  stands : halfPoint c e = g → rflag c' (halfReg e) 31 = false
  changes : halfPoint c e ≠ g → rflag c (halfReg (!e)) 31 = false → rflag c' (halfReg e) 31 = true
  other : halfOf c' (!e) = halfOf c (!e)
  within : WithinPower [halfReg e] c c'

/-- TARGET shown. -/
def targetShown (e : Bool) (g : Nat) (c : Chip) : Chip := setFld (halfReg e) 1 0 g c

section
variable {e : Bool} {g : Nat} {c : Chip}

theorem takePoint_stands (h : halfPoint c e = g) :
    takePoint e g c = setBit (halfReg e) 31 false (modHalf e (fun h => { h with goal := none }) (targetShown e g c)) := by
  unfold takePoint
  exact if_pos ((halfPoint_setTarget e g c).trans h)

theorem takePoint_changes (h : halfPoint c e ≠ g) :
    takePoint e g c = startChange e (modHalf e (fun h => { h with goal := some g }) (targetShown e g c)) := by
  unfold takePoint
  exact if_neg (fun hp => h ((halfPoint_setTarget e g c).symm.trans hp))

theorem within_targetShown : WithinPower [halfReg e] c (targetShown e g c) := within_setFld _ _ _ (by simp) (within_refl ..)

theorem takePoint_takes (hg : g < 4) : PointTaken e g c (takePoint e g c) := by
  by_cases h : halfPoint c e = g
  · rw [takePoint_stands h]
    refine ⟨?_, ?_, ?_, fun _ => rflag_setBit_same _ (by decide) .., fun hn => absurd h hn, ?_, ?_⟩
    · exact (rfld_setBit_apart _ (by decide) (by decide) ..).trans (rfld_setFld_small c (by decide) (by decide) hg)
    · exact (halfPoint_setBit ..).trans (halfPoint_setTarget ..)
    · rw [if_pos h, halfOf_congr (power_setBit ..), halfOf_modHalf_same]
    · rw [halfOf_congr (power_setBit ..), halfOf_modHalf_other]
      exact halfOf_congr (power_setFld ..) _
    · exact within_setBit _ _ (by simp) (within_modPower _ within_targetShown)
  · rw [takePoint_changes h]
    refine ⟨?_, ?_, ?_, fun hs => absurd hs h, fun _ ho => ?_, ?_, ?_⟩
    · exact (rfld_startChange (by decide)).trans (rfld_setFld_small c (by decide) (by decide) hg)
    · exact (rfld_startChange (by decide)).trans (halfPoint_setTarget ..)
    · rw [if_neg h, halfOf_congr power_startChange, halfOf_modHalf_same]
    · rw [startChange_begins]
      · exact rflag_raise _ _ _ (by decide)
      · rw [halfOf_modHalf_same]
        rfl
      · exact (rflag_congr (reg_setFld_ne (halfReg_other e).symm ..)).trans ho
    · rw [halfOf_congr power_startChange, halfOf_modHalf_other]
      exact halfOf_congr (power_setFld ..) _
    · exact within_startChange (by simp) (within_modPower _ within_targetShown)

end

/-- What a refused point request shows (R436). -/
structure PointRefused (e : Bool) (id : Nat) (c c' : Chip) : Prop where
  shown : rfld c' (halfReg e) 26 24 = id
  point : halfPoint c' e = halfPoint c e
  counted : rfld c' (halfReg e) 15 4 = min 4095 (rfld c (halfReg e) 15 4 + 1)
  power : c'.power = c.power
  frame : Frame [halfReg e, Reg.PWR_LAST_REFUSE] [] c c'

theorem refusePoint_refuses {id : Nat} (hi : id < 8) (e : Bool) (c : Chip) : PointRefused e id c (refusePoint e id c) := by
  have hl : halfReg e ≠ Reg.PWR_LAST_REFUSE := (halfReg_ne (by decide) (by decide) e).symm
  have hr : reg (refusePoint e id c) (halfReg e) = putFld (putFld (reg c (halfReg e)) 15 4 (min 4095 (rfld c (halfReg e) 15 4 + 1))) 26 24 id := by
    rw [refusePoint, noteRefusal, reg_putNum_ne hl, setFld_eq, reg_setReg_same, setFld_eq, reg_setReg_same]
  refine ⟨?_, ?_, ?_, ?_, frame_putNum _ _ (by simp) (frame_setFld _ _ _ _ (by simp) (frame_setFld _ _ _ _ (by simp) (frame_refl ..)))⟩
  · rw [rfld, hr, fld_putFld_same _ _ _ _ (by decide) (by decide)]
    exact Nat.mod_eq_of_lt hi
  · rw [halfPoint, rfld, hr, fld_putFld_apart _ _ _ _ _ _ (by decide) (by decide) (by decide),
      fld_putFld_apart _ _ _ _ _ _ (by decide) (by decide) (by decide)]
    rfl
  · rw [rfld, hr, fld_putFld_apart _ _ _ _ _ _ (by decide) (by decide) (by decide), fld_putFld_same _ _ _ _ (by decide) (by decide)]
    exact Nat.mod_eq_of_lt (by omega)
  · rw [refusePoint, noteRefusal, power_putNum, power_setFld, power_setFld]

/-! ### POINT_REQUEST -/

section
variable {e : Bool} {v : Word} {c : Chip}

theorem pointRequest_unpowered (h : c.power.stripped = true) : pointRequest e v c = c := if_pos h

theorem not_stripped (h : c.power.stripped = false) : ¬ c.power.stripped = true := fun h' => Bool.noConfusion (h'.symm.trans h)

/-- Whether the word asks for a higher point of a hot half. -/
def asksHot (e : Bool) (v : Word) (c : Chip) : Bool := decide (fld v 1 0 < halfPoint c e) && halfHot c e

theorem asksHot_iff : asksHot e v c = true ↔ fld v 1 0 < halfPoint c e ∧ halfHot c e = true := by simp [asksHot]

theorem pointRequest_hot (hs : c.power.stripped = false) (h : asksHot e v c = true) : pointRequest e v c = refusePoint e 3 c := by
  unfold pointRequest
  exact (if_neg (not_stripped hs)).trans (if_pos (asksHot_iff.1 h))

theorem pointRequest_below_floor (hs : c.power.stripped = false) (h : asksHot e v c = false) (hf : halfFloor c e < fld v 1 0) :
    pointRequest e v c = refusePoint e 7 c := by
  unfold pointRequest
  exact (if_neg (not_stripped hs)).trans ((if_neg (fun hp => Bool.noConfusion ((asksHot_iff.2 hp).symm.trans h))).trans (if_pos hf))

theorem pointRequest_takes (hs : c.power.stripped = false) (h : asksHot e v c = false) (hf : fld v 1 0 ≤ halfFloor c e) :
    pointRequest e v c = takePoint e (fld v 1 0) c := by
  unfold pointRequest
  exact (if_neg (not_stripped hs)).trans
    ((if_neg (fun hp => Bool.noConfusion ((asksHot_iff.2 hp).symm.trans h))).trans (if_neg (Nat.not_lt.2 hf)))

end

/-! ### POINT_STEP_DONE (R431) -/

/-- The code next to `p` on the way to `g`. -/
def codeToward (g p : Nat) : Nat := if g < p then p - 1 else if p < g then p + 1 else p

theorem codeToward_lt {g p : Nat} (hg : g < 4) (hp : p < 4) : codeToward g p < 4 := by
  unfold codeToward
  split
  · omega
  · split <;> omega

/-- What a step of a changing half toward `g` leaves. -/
structure PointStepped (e : Bool) (g : Nat) (c c' : Chip) : Prop where
  point : halfPoint c' e = codeToward g (halfPoint c e)
  reached : halfPoint c' e = g → (halfOf c' e).goal = none ∧ rflag c' (halfReg e) 31 = false
  goesOn : halfPoint c' e ≠ g → (halfOf c' e).goal = some g ∧ rflag c' (halfReg e) 31 = true
  within : WithinPower [halfReg e, halfReg (!e)] c c'

section
variable {e : Bool} {g : Nat} {c : Chip}

/-- POINT one code nearer to `g`. -/
def pointMoved (e : Bool) (g : Nat) (c : Chip) : Chip := setFld (halfReg e) 17 16 (codeToward g (halfPoint c e)) c

theorem halfPoint_pointMoved (hg : g < 4) : halfPoint (pointMoved e g c) e = codeToward g (halfPoint c e) :=
  rfld_setFld_small c (by decide) (by decide) (codeToward_lt hg (halfPoint_lt c e))

theorem changing_pointMoved : rflag (pointMoved e g c) (halfReg e) 31 = rflag c (halfReg e) 31 :=
  rflag_setFld_apart _ _ _ _ _ c (by decide) (by decide) (by decide)

/-- The half's change is over, and the other half's may begin. -/
def changeOver (e : Bool) (c : Chip) : Chip :=
  c |> modHalf e (fun h => { h with goal := none }) |> setBit (halfReg e) 31 false |> startChange (!e)

theorem changeOver_facts : reg (changeOver e c) (halfReg e) = putBit (reg c (halfReg e)) 31 false ∧ (halfOf (changeOver e c) e).goal = none := by
  constructor
  · unfold changeOver
    rw [reg_startChange (halfReg_other e), reg_setBit_same, reg_modHalf]
  · unfold changeOver
    rw [halfOf_congr power_startChange, halfOf_congr (power_setBit ..), halfOf_modHalf_same]

theorem within_changeOver {as : List Nat} {d : Chip} (h : halfReg e ∈ as) (ho : halfReg (!e) ∈ as) (w : WithinPower as d c) :
    WithinPower as d (changeOver e c) := within_startChange ho (within_setBit _ _ h (within_modPower _ w))

theorem halfPoint_changeOver : halfPoint (changeOver e c) e = halfPoint c e := by
  rw [halfPoint, rfld, changeOver_facts.1, fld_putBit_apart _ _ _ _ _ (by decide) (by decide)]
  rfl

theorem pointStepDone_moves (hgoal : (halfOf c e).goal = some g) (hc : rflag c (halfReg e) 31 = true) : pointStepDone e c =
    if codeToward g (halfPoint c e) = g then changeOver e (pointMoved e g c) else pointMoved e g c := by
  unfold pointStepDone
  rw [hgoal]
  exact if_pos hc

theorem pointStepDone_idle (h : (halfOf c e).goal = none ∨ rflag c (halfReg e) 31 = false) : pointStepDone e c = c := by
  unfold pointStepDone
  split
  · next g hg =>
    rcases h with h | h
    · rw [h] at hg
      cases hg
    · exact if_neg (fun h' => Bool.noConfusion (h'.symm.trans h))
  · rfl

theorem within_pointMoved : WithinPower [halfReg e, halfReg (!e)] c (pointMoved e g c) := within_setFld _ _ _ (by simp) (within_refl ..)

theorem pointStepDone_steps (hgoal : (halfOf c e).goal = some g) (hc : rflag c (halfReg e) 31 = true) (hg : g < 4) :
    PointStepped e g c (pointStepDone e c) := by
  have hp := halfPoint_pointMoved (e := e) (c := c) hg
  rw [pointStepDone_moves hgoal hc]
  by_cases h : codeToward g (halfPoint c e) = g
  · rw [if_pos h]
    have hp' := halfPoint_changeOver.trans hp
    refine ⟨hp', fun _ => ⟨changeOver_facts.2, ?_⟩, fun hn => absurd (hp'.trans h) hn,
      within_changeOver (by simp) (by simp) within_pointMoved⟩
    rw [rflag, changeOver_facts.1, flag_putBit_same _ _ _ (by decide)]
  · rw [if_neg h]
    exact ⟨hp, fun hs => absurd (hp.symm.trans hs) h, fun _ => ⟨(congrArg Half.goal (halfOf_congr (power_setFld ..) e)).trans hgoal,
      changing_pointMoved.trans hc⟩, within_pointMoved⟩

end

/-! ### FLOOR_WRITE (R432) -/

/-- How a half stands after the floors were raised to its floor. -/
structure AtFloor (e : Bool) (c c' : Chip) : Prop where
  stays : halfPoint c e ≤ halfFloor c e → reg c' (halfReg e) = reg c (halfReg e)
  takes : halfFloor c e < halfPoint c e → halfHot c e = false →
    rfld c' (halfReg e) 1 0 = halfFloor c e ∧ (halfOf c' e).goal = some (halfFloor c e)
  refuses : halfFloor c e < halfPoint c e → halfHot c e = true → rfld c' (halfReg e) 26 24 = 3

theorem atFloor_congr {e : Bool} {c c' d d' : Chip} (h : AtFloor e d d') (hr : reg d (halfReg e) = reg c (halfReg e))
    (hf : halfFloor d e = halfFloor c e) (ho : halfOf d e = halfOf c e) (hr' : reg c' (halfReg e) = reg d' (halfReg e))
    (ho' : halfOf c' e = halfOf d' e) : AtFloor e c c' := by
  have hp : halfPoint d e = halfPoint c e := halfPoint_congr hr
  have hh : halfHot d e = halfHot c e := by
    unfold halfHot
    rw [ho]
  obtain ⟨h1, h2, h3⟩ := h
  rw [hp, hf] at h1 h2 h3
  rw [hh] at h2 h3
  refine ⟨fun h => (hr'.trans (h1 h)).trans hr, fun h hn => ?_, fun h hn => (rfld_congr hr').trans (h3 h hn)⟩
  obtain ⟨k1, k2⟩ := h2 h hn
  exact ⟨(rfld_congr hr').trans k1, (congrArg Half.goal ho').trans k2⟩

section
variable {e : Bool} {c : Chip}

theorem raiseToFloor_stays (h : halfPoint c e ≤ halfFloor c e) : raiseToFloor e c = c := if_pos h

theorem raiseToFloor_refuses (h : halfFloor c e < halfPoint c e) (hh : halfHot c e = true) : raiseToFloor e c = refusePoint e 3 c :=
  (if_neg (Nat.not_le.2 h)).trans (if_pos hh)

theorem raiseToFloor_takes (h : halfFloor c e < halfPoint c e) (hh : halfHot c e = false) : raiseToFloor e c = takePoint e (halfFloor c e) c :=
  (if_neg (Nat.not_le.2 h)).trans (if_neg (fun h' => Bool.noConfusion (h'.symm.trans hh)))

theorem raiseToFloor_atFloor : AtFloor e c (raiseToFloor e c) where
  stays := fun h => by rw [raiseToFloor_stays h]
  takes := fun h hh => by
    have k := takePoint_takes (e := e) (c := c) (halfFloor_lt c e)
    rw [raiseToFloor_takes h hh]
    exact ⟨k.target, k.goal.trans (if_neg (Nat.ne_of_gt h))⟩
  refuses := fun h hh => by
    rw [raiseToFloor_refuses h hh]
    exact (refusePoint_refuses (by decide) e c).shown

theorem raiseToFloor_leaves : WithinPower [halfReg e, Reg.PWR_LAST_REFUSE] c (raiseToFloor e c) ∧
    halfOf (raiseToFloor e c) (!e) = halfOf c (!e) := by
  by_cases h : halfPoint c e ≤ halfFloor c e
  · rw [raiseToFloor_stays h]
    exact ⟨within_refl .., rfl⟩
  · cases hh : halfHot c e
    · rw [raiseToFloor_takes (Nat.not_le.1 h) hh]
      have k := takePoint_takes (e := e) (c := c) (halfFloor_lt c e)
      exact ⟨within_mono (by simp) k.within, k.other⟩
    · rw [raiseToFloor_refuses (Nat.not_le.1 h) hh]
      have k := refusePoint_refuses (id := 3) (by decide) e c
      refine ⟨?_, halfOf_congr k.power _⟩
      exact within_putNum _ (by simp) (within_setFld _ _ _ (by simp) (within_setFld _ _ _ (by simp) (within_refl ..)))

end

theorem reg_within {as : List Nat} {a : Nat} {c d : Chip} (w : WithinPower as c d) (h : a ∉ as) : reg d a = reg c a := w.1 a h

/-- The floors stored, the west half raised, then the east half. -/
theorem floorWrite_facts (v : Word) (c : Chip) : reg (floorWrite v c) Reg.PWR_FLOOR = v &&& 0x303#32 ∧
    (∀ e, AtFloor e (setReg Reg.PWR_FLOOR (v &&& 0x303#32) c) (floorWrite v c)) ∧
    WithinPower [Reg.PWR_FLOOR, Reg.PWR_HALF_W, Reg.PWR_HALF_E, Reg.PWR_LAST_REFUSE] c (floorWrite v c) := by
  have h0 : reg (setReg Reg.PWR_FLOOR (v &&& 0x303#32) c) Reg.PWR_FLOOR = v &&& 0x303#32 := reg_setReg_same ..
  have w0 : WithinPower [Reg.PWR_FLOOR, Reg.PWR_HALF_W, Reg.PWR_HALF_E, Reg.PWR_LAST_REFUSE] c (setReg Reg.PWR_FLOOR (v &&& 0x303#32) c) :=
    within_setReg _ (by simp) (within_refl ..)
  have heq : floorWrite v c = raiseToFloor true (raiseToFloor false (setReg Reg.PWR_FLOOR (v &&& 0x303#32) c)) := rfl
  rw [heq]
  generalize setReg Reg.PWR_FLOOR (v &&& 0x303#32) c = c0 at h0 w0 ⊢
  obtain ⟨w1, o1⟩ := raiseToFloor_leaves (e := false) (c := c0)
  have a1 := raiseToFloor_atFloor (e := false) (c := c0)
  generalize raiseToFloor false c0 = c1 at w1 o1 a1 ⊢
  obtain ⟨w2, o2⟩ := raiseToFloor_leaves (e := true) (c := c1)
  have a2 := raiseToFloor_atFloor (e := true) (c := c1)
  generalize raiseToFloor true c1 = c2 at w2 o2 a2 ⊢
  have f1 : reg c1 Reg.PWR_FLOOR = reg c0 Reg.PWR_FLOOR := reg_within w1 (by decide)
  refine ⟨(reg_within w2 (by decide)).trans (f1.trans h0), fun e => ?_, ?_⟩
  · cases e
    · exact atFloor_congr a1 rfl rfl rfl (reg_within w2 (by decide)) o2
    · exact atFloor_congr a2 (reg_within w1 (by decide)) (halfFloor_congr f1 _) o1 rfl rfl
  · exact within_trans w0 (within_trans (within_mono (by simp [halfReg]) w1) (within_mono (by simp [halfReg]) w2))

end Sys2Proof.Machine
end

section
/-!
PROOFS. Thermal limits: samples, steps, the trip and the die reset (R433); settles O49.
-/

namespace Sys2Proof.Machine

open Sys2Proof.Safety

/-! ### One thermal step of a half -/

/-- The part of a half's account that only a sample changes. -/
def Half.limits (h : Half) : Bool × Bool := (h.throttled, h.emergency)

/-- The registers that a thermal step may write. -/
def ThermalStepReg (a : Nat) : Prop := a = Reg.PWR_HALF_W ∨ a = Reg.PWR_HALF_E ∨ a = Reg.PWR_FLOOR_BREACH ∨ a = Reg.PWR_FAULT

theorem thermalStepReg_halfReg (e : Bool) : ThermalStepReg (halfReg e) := by
  rcases halfReg_below e with h | h
  · exact .inl h
  · exact .inr (.inl h)

/-- What a thermal step leaves. -/
structure StepsThermally (c c' : Chip) : Prop where
  regs : ∀ a, ¬ ThermalStepReg a → reg c' a = reg c a
  limits : ∀ e, (halfOf c' e).limits = (halfOf c e).limits
  links : c'.links = c.links
  rest : (c'.power.tripped, c'.power.ioThrottled) = (c.power.tripped, c.power.ioThrottled)

theorem stepsThermally_refl (c : Chip) : StepsThermally c c := ⟨fun _ _ => rfl, fun _ => rfl, rfl, rfl⟩

section
variable {c d : Chip}

theorem stepsThermally_setReg {a : Nat} (v : Word) (ha : ThermalStepReg a) (h : StepsThermally c d) : StepsThermally c (setReg a v d) :=
  ⟨fun b hb => (reg_setReg_ne v d (fun he => hb (by rw [he]; exact ha))).trans (h.regs b hb), h.limits, h.links, h.rest⟩

theorem stepsThermally_goal (e : Bool) (g : Option Nat) (h : StepsThermally c d) :
    StepsThermally c (modHalf e (fun x => { x with goal := g }) d) := by
  obtain ⟨h1, h2, h3, h4⟩ := h
  refine ⟨h1, fun b => (?_ : _ = (halfOf d b).limits).trans (h2 b), h3, ?_⟩
  · cases b <;> cases e <;> rfl
  · cases e <;> exact h4

theorem stepsThermally_when {b : Bool} {f : Chip → Chip} (hf : StepsThermally c (f d)) (h : StepsThermally c d) :
    StepsThermally c (when_ b f d) := by
  cases b
  · exact h
  · exact hf

theorem stepsThermally_startChange (e : Bool) (h : StepsThermally c d) : StepsThermally c (startChange e d) := by
  rcases startChange_cases e d with hc | hc <;> rw [hc]
  · exact h
  · exact stepsThermally_setReg _ (thermalStepReg_halfReg e) h

theorem stepsThermally_changeOver (e : Bool) (h : StepsThermally c d) : StepsThermally c (changeOver e d) :=
  stepsThermally_startChange _ (stepsThermally_setReg _ (thermalStepReg_halfReg e) (stepsThermally_goal e none h))

end

/-- The floor's breach counted and flagged (R432). -/
def breachCounted (c : Chip) : Chip := c |> count Reg.PWR_FLOOR_BREACH 1 |> raise Reg.PWR_FAULT 3

/-- Whether a thermal step ends the half's change: it aimed at a higher point, or has reached its goal (Table 15.9). -/
def changeGivenUp (e : Bool) (c : Chip) : Bool :=
  (match (halfOf c e).goal with | some g => decide (g ≤ halfPoint c e) | none => false) || (halfOf c e).goal == some (halfPoint c e + 1)

/-- Whether a lowering threshold holds for the half. -/
def lowers (e : Bool) (c : Chip) : Prop :=
  halfPoint c e < 3 ∧ ((halfOf c e).emergency ∨ ((halfOf c e).throttled ∧ halfPoint c e < halfFloor c e))

/-- POINT one code down. -/
def pointLowered (e : Bool) (c : Chip) : Chip := setFld (halfReg e) 17 16 (halfPoint c e + 1) c

theorem thermalLower_lowers {e : Bool} {c : Chip} (h : lowers e c) : thermalLower e c =
    when_ (decide (halfFloor c e < halfPoint c e + 1)) breachCounted
      (when_ (changeGivenUp e c) (changeOver e) (pointLowered e c)) := by
  unfold thermalLower
  exact if_pos h

theorem thermalLower_idle {e : Bool} {c : Chip} (h : ¬ lowers e c) : thermalLower e c = c := by
  unfold thermalLower
  exact if_neg h

section
variable {e : Bool} {c : Chip}

theorem halfPoint_breachCounted : halfPoint (breachCounted c) e = halfPoint c e :=
  halfPoint_congr ((reg_raise_ne (halfReg_ne (by decide) (by decide) e).symm ..).trans
    (reg_count_ne (halfReg_ne (by decide) (by decide) e).symm ..))

theorem halfPoint_when {b : Bool} {f : Chip → Chip} (h : halfPoint (f c) e = halfPoint c e) : halfPoint (when_ b f c) e = halfPoint c e := by
  cases b
  · rfl
  · exact h

theorem halfPoint_pointLowered (h : halfPoint c e < 3) : halfPoint (pointLowered e c) e = halfPoint c e + 1 :=
  rfld_setFld_small c (by decide) (by decide) (by omega)

theorem halfPoint_thermalLower (h : lowers e c) : halfPoint (thermalLower e c) e = halfPoint c e + 1 := by
  rw [thermalLower_lowers h, halfPoint_when halfPoint_breachCounted, halfPoint_when halfPoint_changeOver, halfPoint_pointLowered h.1]

theorem thermalLower_steps : StepsThermally c (thermalLower e c) := by
  by_cases h : lowers e c
  · have h1 : StepsThermally c (pointLowered e c) := stepsThermally_setReg _ (thermalStepReg_halfReg e) (stepsThermally_refl c)
    have h2 := stepsThermally_when (b := changeGivenUp e c) (stepsThermally_changeOver e h1) h1
    rw [thermalLower_lowers h]
    exact stepsThermally_when (stepsThermally_setReg _ (.inr (.inr (.inr rfl))) (stepsThermally_setReg _ (.inr (.inr (.inl rfl))) h2)) h2
  · rw [thermalLower_idle h]
    exact stepsThermally_refl c

end

/-! ### A sample -/

/-- The registers that a sample may write. -/
def SampleReg (a : Nat) : Prop :=
  ThermalStepReg a ∨ a = Reg.PWR_TEMP_MAX ∨ a = Reg.PWR_THERM_STATUS ∨ ∃ f, a = Reg.PWR_FLD_TEMP f

/-- What a part of a sample leaves beside the limits of the halves. -/
structure Samples (c c' : Chip) : Prop where
  regs : ∀ a, ¬ SampleReg a → reg c' a = reg c a
  links : c'.links = c.links
  tripped : c'.power.tripped = c.power.tripped

section
variable {c d d' : Chip}

theorem samples_refl (c : Chip) : Samples c c := ⟨fun _ _ => rfl, rfl, rfl⟩

theorem samples_step (h : Samples c d) (k : StepsThermally d d') : Samples c d' :=
  ⟨fun a ha => (k.regs a (fun h => ha (.inl h))).trans (h.regs a ha), k.links.trans h.links, (Prod.mk.inj k.rest).1.trans h.tripped⟩

theorem samples_setReg {a : Nat} (v : Word) (ha : SampleReg a) (h : Samples c d) : Samples c (setReg a v d) :=
  ⟨fun b hb => (reg_setReg_ne v d (fun he => hb (by rw [he]; exact ha))).trans (h.regs b hb), h.links, h.tripped⟩

theorem samples_thermalFault (b : Nat) (h : Samples c d) : Samples c (thermalFault b d) := by
  unfold thermalFault
  split
  · exact h
  · exact samples_setReg _ (.inl (.inr (.inr (.inr rfl)))) ⟨h.regs, h.links, h.tripped⟩

theorem samples_noteTempMax (x : Int) (h : Samples c d) : Samples c (noteTempMax x d) := by
  unfold noteTempMax
  split
  · exact samples_setReg _ (.inr (.inl rfl)) h
  · exact h

theorem samples_fieldTemps (h : Samples c d) : Samples c (fieldTemps d) := by
  refine forAll_keeps (P := Samples c) _ (fun f _ x hx => ?_) d h
  split
  · exact samples_setReg _ (.inr (.inr (.inr ⟨f, rfl⟩))) ⟨hx.regs, hx.links, hx.tripped⟩
  · exact hx

end

/-- A half's limits after a reading (R433). -/
def limitsAt (c : Chip) (e : Bool) (hot : Int) : Bool × Bool :=
  (holdsAt (throttleAt c) hot (halfOf c e).throttled, holdsAt (emergencyAt c) hot (halfOf c e).emergency)

/-- A half's account after a reading. -/
def readingTaken (e : Bool) (hot : Int) (c : Chip) : Chip :=
  modHalf e (fun h => { h with hot := hot, throttled := (limitsAt c e hot).1, emergency := (limitsAt c e hot).2 }) c

/-- A half's limits that have just been reached. -/
def throttleReached (e : Bool) (hot : Int) (c : Chip) : Bool := (limitsAt c e hot).1 && !(halfOf c e).throttled

def emergencyReached (e : Bool) (hot : Int) (c : Chip) : Bool := (limitsAt c e hot).2 && !(halfOf c e).emergency

theorem sampleHalf_eq (e : Bool) (hot : Int) (c : Chip) : sampleHalf e hot c =
    when_ (throttleReached e hot c || emergencyReached e hot c) (thermalLower e)
      (when_ (throttleReached e hot c) (thermalFault 2) (readingTaken e hot c)) := rfl

theorem power_thermalFault (b : Nat) (c : Chip) : (thermalFault b c).power = c.power := by
  unfold thermalFault
  split <;> rfl

theorem limits_readingTaken_same (e : Bool) (hot : Int) (c : Chip) : (halfOf (readingTaken e hot c) e).limits = limitsAt c e hot := by
  unfold readingTaken
  rw [halfOf_modHalf_same]
  rfl

theorem samples_readingTaken {c d : Chip} (e : Bool) (hot : Int) (h : Samples c d) : Samples c (readingTaken e hot d) :=
  ⟨h.regs, h.links, (by cases e <;> rfl : (readingTaken e hot d).power.tripped = d.power.tripped).trans h.tripped⟩

theorem samples_when {c d : Chip} {b : Bool} {f : Chip → Chip} (hf : Samples c d → Samples c (f d)) (h : Samples c d) :
    Samples c (when_ b f d) := by
  cases b
  · exact h
  · exact hf h

/-- A half's sample sets its limits by the reading, keeps the other half's, and may step the half down. -/
theorem sampleHalf_samples (e : Bool) (hot : Int) (c : Chip) : Samples c (sampleHalf e hot c) ∧
    (halfOf (sampleHalf e hot c) e).limits = limitsAt c e hot ∧ (halfOf (sampleHalf e hot c) (!e)).limits = (halfOf c (!e)).limits := by
  have hf : ∀ b, (halfOf (when_ (throttleReached e hot c) (thermalFault 2) (readingTaken e hot c)) b).limits =
      (halfOf (readingTaken e hot c) b).limits := fun b => by
    unfold when_
    split
    · rw [halfOf_congr (power_thermalFault ..)]
    · rfl
  have h1 : Samples c (when_ (throttleReached e hot c) (thermalFault 2) (readingTaken e hot c)) :=
    samples_when (samples_thermalFault 2) (samples_readingTaken e hot (samples_refl c))
  rw [sampleHalf_eq]
  generalize when_ (throttleReached e hot c) (thermalFault 2) (readingTaken e hot c) = d at hf h1
  have hl : ∀ b, (halfOf (when_ (throttleReached e hot c || emergencyReached e hot c) (thermalLower e) d) b).limits = (halfOf d b).limits := fun b => by
    unfold when_
    split
    · exact thermalLower_steps.limits b
    · rfl
  refine ⟨samples_when (fun h => samples_step h thermalLower_steps) h1, (hl e).trans ((hf e).trans (limits_readingTaken_same ..)),
    (hl (!e)).trans ((hf (!e)).trans ?_)⟩
  exact congrArg Half.limits (halfOf_modHalf_other ..)

/-! ### A sample of the whole device -/

/-- Both halves, the I/O dies, the interval's extremes, the fields' readings and the highest reading. -/
def readingsTaken (w e io : Int) (c : Chip) : Chip :=
  c |> sampleHalf false w |> sampleHalf true e
    |> modPower (fun P => { P with ioThrottled := holdsAt (throttleAt c) io P.ioThrottled })
    |> noteExtremes [w, e, io] |> fieldTemps
    |> noteTempMax w |> noteTempMax e |> noteTempMax io

/-- The readings shown. -/
def statusShown (w e io : Int) (c : Chip) : Chip :=
  putNum Reg.PWR_THERM_STATUS (unsign 8 w * 2 ^ 24 + unsign 8 e * 2 ^ 16 + unsign 8 io * 2 ^ 8 +
    4 * b2n (decide (110 ≤ w) || decide (110 ≤ e) || decide (110 ≤ io) || c.power.tripped) +
    2 * b2n ((halfOf c false).emergency || (halfOf c true).emergency) + b2n (halfHot c false || halfHot c true || c.power.ioThrottled)) c

theorem power_statusShown (w e io : Int) (c : Chip) : (statusShown w e io c).power = c.power := power_putNum ..

theorem links_statusShown (w e io : Int) (c : Chip) : (statusShown w e io c).links = c.links := setReg_links ..

theorem reg_statusShown {a : Nat} (w e io : Int) (c : Chip) (h : a ≠ Reg.PWR_THERM_STATUS) : reg (statusShown w e io c) a = reg c a :=
  reg_putNum_ne h ..

/-- The power controller once the trip has come. -/
def tripNoted (c : Chip) : Chip := modPower (fun P => { P with tripped := true }) c

theorem links_tripNoted (c : Chip) : (tripNoted c).links = c.links := rfl

theorem reg_tripNoted (c : Chip) (a : Nat) : reg (tripNoted c) a = reg c a := rfl

theorem tripped_tripNoted (c : Chip) : (tripNoted c).power.tripped = true := rfl

theorem thermalSample_eq (w e io : Int) (c : Chip) : thermalSample w e io c =
    when_ ((decide (110 ≤ w) || decide (110 ≤ e) || decide (110 ≤ io) || (readingsTaken w e io c).power.tripped) &&
      !(readingsTaken w e io c).power.tripped) (fun c => stripSupplies (tripNoted c))
      (statusShown w e io (readingsTaken w e io c)) := rfl

theorem power_fieldTemps (c : Chip) : (fieldTemps c).power = c.power := by
  refine forAll_leaves Chip.power _ (fun f d => ?_) c
  split <;> rfl

theorem power_noteTempMax (x : Int) (c : Chip) : (noteTempMax x c).power = c.power := by
  unfold noteTempMax
  split <;> rfl

theorem limitsAt_congr {c c' : Chip} {e : Bool} {hot : Int} (hr : reg c' Reg.PWR_THERM_CFG = reg c Reg.PWR_THERM_CFG)
    (hl : (halfOf c' e).limits = (halfOf c e).limits) : limitsAt c' e hot = limitsAt c e hot := by
  obtain ⟨ht, he⟩ := Prod.mk.inj hl
  have h1 : throttleAt c' = throttleAt c := by
    unfold throttleAt
    rw [rfld_congr hr]
  have h2 : emergencyAt c' = emergencyAt c := by
    unfold emergencyAt
    rw [rfld_congr hr]
  unfold limitsAt
  rw [h1, h2, ht, he]

theorem not_sampleReg {a : Nat} (h1 : a < Reg.PWR_FLD_TEMP 0)
    (h2 : a ∉ [Reg.PWR_HALF_W, Reg.PWR_HALF_E, Reg.PWR_FLOOR_BREACH, Reg.PWR_FAULT, Reg.PWR_TEMP_MAX, Reg.PWR_THERM_STATUS]) : ¬ SampleReg a := by
  rintro ((h | h | h | h) | h | h | ⟨f, h⟩)
  on_goal 7 => rw [h] at h1; unfold Reg.PWR_FLD_TEMP at h1; omega
  all_goals rw [h] at h2; exact h2 (by simp)

theorem readingsTaken_samples (w e io : Int) (c : Chip) : Samples c (readingsTaken w e io c) ∧
    (halfOf (readingsTaken w e io c) false).limits = limitsAt c false w ∧ (halfOf (readingsTaken w e io c) true).limits = limitsAt c true e := by
  obtain ⟨s1, l1, o1⟩ := sampleHalf_samples false w c
  unfold readingsTaken
  generalize sampleHalf false w c = c1 at s1 l1 o1
  obtain ⟨s2, l2, o2⟩ := sampleHalf_samples true e c1
  generalize sampleHalf true e c1 = c2 at s2 l2 o2
  have s3 : Samples c (noteExtremes [w, e, io] (modPower (fun P => { P with ioThrottled := holdsAt (throttleAt c) io P.ioThrottled }) c2)) :=
    ⟨fun a ha => (s2.regs a ha).trans (s1.regs a ha), s2.links.trans s1.links, s2.tripped.trans s1.tripped⟩
  have h3 : ∀ b, halfOf (noteExtremes [w, e, io] (modPower (fun P => { P with ioThrottled := holdsAt (throttleAt c) io P.ioThrottled }) c2)) b =
      halfOf c2 b := fun b => by cases b <;> rfl
  generalize noteExtremes [w, e, io] (modPower (fun P => { P with ioThrottled := holdsAt (throttleAt c) io P.ioThrottled }) c2) = c3 at s3 h3
  have hp : (noteTempMax io (noteTempMax e (noteTempMax w (fieldTemps c3)))).power = c3.power := by
    rw [power_noteTempMax, power_noteTempMax, power_noteTempMax, power_fieldTemps]
  refine ⟨samples_noteTempMax io (samples_noteTempMax e (samples_noteTempMax w (samples_fieldTemps s3))), ?_, ?_⟩
  · rw [halfOf_congr hp, h3]
    exact o2.trans l1
  · rw [halfOf_congr hp, h3, l2]
    exact limitsAt_congr (s1.regs _ (not_sampleReg (by decide) (by decide))) o1

/-! ### The status word -/

/-- The fields of a word put together from three bytes and three bits. -/
theorem statusWord_fields {a b d t m h : Nat} (ha : a < 256) (hb : b < 256) (hd : d < 256) (ht : t ≤ 1) (hm : m ≤ 1) (hh : h ≤ 1) :
    let v := BitVec.ofNat 32 (a * 2 ^ 24 + b * 2 ^ 16 + d * 2 ^ 8 + 4 * t + 2 * m + h)
    fld v 31 24 = a ∧ fld v 23 16 = b ∧ fld v 15 8 = d ∧ (t = 0 → flag v 2 = false) := by
  have hmod : (a * 2 ^ 24 + b * 2 ^ 16 + d * 2 ^ 8 + 4 * t + 2 * m + h) % 2 ^ 32 = a * 2 ^ 24 + b * 2 ^ 16 + d * 2 ^ 8 + 4 * t + 2 * m + h := by
    omega
  refine ⟨?_, ?_, ?_, fun h0 => ?_⟩
  · rw [fld, bits, BitVec.toNat_ofNat, hmod]
    omega
  · rw [fld, bits, BitVec.toNat_ofNat, hmod]
    omega
  · rw [fld, bits, BitVec.toNat_ofNat, hmod]
    omega
  · have hbit : (a * 2 ^ 24 + b * 2 ^ 16 + d * 2 ^ 8 + 4 * t + 2 * m + h) / 2 ^ 2 % 2 = 0 := by omega
    rw [flag, bit, BitVec.toNat_ofNat, hmod, hbit]
    rfl

/-- A sample below the trip: the readings and the limits. -/
theorem thermalSample_cool {w e io : Int} {c : Chip} (ht : c.power.tripped = false) (hw : w < 110) (he : e < 110) (hio : io < 110) :
    let d := thermalSample w e io c
    d.power.tripped = false ∧ rfld d Reg.PWR_THERM_STATUS 31 24 = unsign 8 w ∧ rfld d Reg.PWR_THERM_STATUS 23 16 = unsign 8 e ∧
      rfld d Reg.PWR_THERM_STATUS 15 8 = unsign 8 io ∧ rflag d Reg.PWR_THERM_STATUS 2 = false ∧
      (halfOf d false).limits = limitsAt c false w ∧ (halfOf d true).limits = limitsAt c true e := by
  obtain ⟨⟨-, -, hs⟩, h1, h2⟩ := readingsTaken_samples w e io c
  have hcool : (decide (110 ≤ w) || decide (110 ≤ e) || decide (110 ≤ io) || (readingsTaken w e io c).power.tripped) = false := by
    rw [hs, ht, decide_eq_false (by omega), decide_eq_false (by omega), decide_eq_false (by omega)]
    rfl
  rw [thermalSample_eq, hcool, Bool.false_and]
  unfold when_
  generalize readingsTaken w e io c = d at hs h1 h2 hcool
  rw [if_neg (by decide)]
  obtain ⟨k1, k2, k3, k4⟩ := statusWord_fields (unsign_lt 8 w) (unsign_lt 8 e) (unsign_lt 8 io)
    (b2n_le (decide (110 ≤ w) || decide (110 ≤ e) || decide (110 ≤ io) || d.power.tripped))
    (b2n_le ((halfOf d false).emergency || (halfOf d true).emergency)) (b2n_le (halfHot d false || halfHot d true || d.power.ioThrottled))
  have hr : reg (statusShown w e io d) Reg.PWR_THERM_STATUS = _ := reg_putNum_same ..
  have hp := power_statusShown w e io d
  refine ⟨by rw [hp, hs, ht], ?_, ?_, ?_, ?_, by rw [halfOf_congr hp, h1], by rw [halfOf_congr hp, h2]⟩
  · rw [rfld, hr]; exact k1
  · rw [rfld, hr]; exact k2
  · rw [rfld, hr]; exact k3
  · rw [rflag, hr]; exact k4 (by rw [hcool]; rfl)

/-- A sample at the trip, every link empty: every switched supply is removed. -/
theorem thermalSample_trips {w e io : Int} {c : Chip} (ht : c.power.tripped = false) (hot : 110 ≤ w ∨ 110 ≤ e ∨ 110 ≤ io)
    (hq : ∀ k, k < 8 → LinkEmpty c k) :
    ∃ d, thermalSample w e io c = d ∧ d.power.tripped = true ∧ d.power.stripped = true ∧ (∀ n, n < 96 → domState d n = 2) ∧
      reg d Reg.BOOT_STATUS = reg c Reg.BOOT_STATUS := by
  obtain ⟨⟨hr, hl, hs⟩, -, -⟩ := readingsTaken_samples w e io c
  have htrip : ((decide (110 ≤ w) || decide (110 ≤ e) || decide (110 ≤ io) || (readingsTaken w e io c).power.tripped) &&
      !(readingsTaken w e io c).power.tripped) = true := by
    rw [hs, ht]
    simpa [or_assoc] using hot
  rw [thermalSample_eq, htrip]
  generalize readingsTaken w e io c = d at hr hl hs
  have hl' := (links_tripNoted (statusShown w e io d)).trans ((links_statusShown w e io d).trans hl)
  have hr' := (reg_tripNoted (statusShown w e io d) Reg.BOOT_STATUS).trans
    ((reg_statusShown w e io d (by decide)).trans (hr _ (not_sampleReg (by decide) (by decide))))
  have ht' := tripped_tripNoted (statusShown w e io d)
  unfold when_
  rw [if_pos rfl]
  dsimp only
  generalize tripNoted (statusShown w e io d) = x at hl' hr' ht'
  obtain ⟨h1, h2, h3, -, h5⟩ := stripSupplies_strips (c := x) fun k hk => (linkEmpty_congr hl' k).2 (hq k hk)
  exact ⟨stripSupplies x, rfl, h3.trans ht', h2, h1, (h5 _ (by decide)).trans hr'⟩

theorem thermalSample_completes {w e io : Int} {s : State} (h : (thermalSample w e io s.chip).power.tripped = false) :
    Completes (.thermalSample w e io) s (thermalSample w e io s.chip) := by
  refine completes_next rfl ?_
  unfold thermalNow
  exact if_neg (fun hn => Bool.noConfusion ((Bool.and_eq_true_iff.1 hn).2.symm.trans h))

theorem thermalTrip_completes {w e io : Int} {s : State} (h : 10 ≤ bootState s.chip)
    (hb : reg (thermalSample w e io s.chip) Reg.BOOT_STATUS = reg s.chip Reg.BOOT_STATUS) :
    Completes (.thermalSample w e io) s (thermalSample w e io s.chip) := by
  have hn : ¬ bootState (thermalSample w e io s.chip) < 10 := by
    rw [bootState, rfld_congr hb]
    exact Nat.not_lt.2 h
  refine completes_next rfl ?_
  unfold thermalNow
  dsimp only
  split
  · unfold failNow
    exact if_neg (by
      change ¬ (decide (bootState (thermalSample w e io s.chip) < 10) && _ && _ && _) = true
      rw [decide_eq_false hn, Bool.false_and, Bool.false_and, Bool.false_and]
      exact Bool.false_ne_true)
  · rfl

/-! ### The die reset (Table 15.8) -/

/-- Whether the half asks for a reset of the die. -/
def dieAt (e : Bool) (c : Chip) : Bool := decide (104 ≤ (halfOf c e).hot) && halfPoint c e == 3

theorem dieAt_iff {e : Bool} {c : Chip} : dieAt e c = true ↔ 104 ≤ (halfOf c e).hot ∧ halfPoint c e = 3 := by simp [dieAt]

theorem thermalDieReset_idle {c : Chip} (hw : ¬ dieAt false c = true) (he : ¬ dieAt true c = true) : thermalDieReset c = c := by
  unfold thermalDieReset
  refine if_neg fun h => ?_
  rcases Bool.or_eq_true_iff.1 h with h | h
  · exact hw h
  · exact he h

theorem thermalDieReset_resets {c : Chip} (h : dieAt false c = true ∨ dieAt true c = true) :
    thermalDieReset c = thermalFault 4 (fenceBad (List.range 8192) (dieReset c)) := by
  unfold thermalDieReset
  exact if_pos (Bool.or_eq_true_iff.2 h)

theorem rflag_thermalFault {b : Nat} (hb : b < 32) (c : Chip) : rflag (thermalFault b c) Reg.PWR_FAULT b = true := by
  unfold thermalFault
  split
  · next h => exact h
  · exact rflag_raise _ _ _ hb

theorem tile_thermalFault (b t : Nat) (c : Chip) : tile (thermalFault b c) t = tile c t := by
  unfold thermalFault
  split <;> rfl

theorem tile_thermalDieReset {c : Chip} {t : Nat} (h : dieAt false c = true ∨ dieAt true c = true) (ht : t < 8192) :
    tile (thermalDieReset c) t = {} := by
  rw [thermalDieReset_resets h, tile_thermalFault, tile_fenceBad, tile_dieReset ht]

/-! ### The obligation -/

/-- POINT_REQUEST of a half, by what the half allows (R421, R436). -/
theorem pointRequest_outcomes (s : State) (east : Bool) :
    (∀ v : Word,
      (s.chip.power.stripped = true → Completes (.pointRequest east v) s s.chip) ∧
      (s.chip.power.stripped = false → asksHot east v s.chip = true →
        ∃ c', Completes (.pointRequest east v) s c' ∧ PointRefused east 3 s.chip c') ∧
      (s.chip.power.stripped = false → asksHot east v s.chip = false → halfFloor s.chip east < fld v 1 0 →
        ∃ c', Completes (.pointRequest east v) s c' ∧ PointRefused east 7 s.chip c') ∧
      (s.chip.power.stripped = false → asksHot east v s.chip = false → fld v 1 0 ≤ halfFloor s.chip east →
        ∃ c', Completes (.pointRequest east v) s c' ∧ PointTaken east (fld v 1 0) s.chip c')) := fun v => by
  refine ⟨fun h => ?_, fun hs h => ?_, fun hs h hf => ?_, fun hs h hf => ?_⟩
  · exact completes_next rfl (congrArg (fun c => { s with chip := c }) (pointRequest_unpowered h))
  · exact ⟨_, completes_next rfl (congrArg (fun c => { s with chip := c }) (pointRequest_hot hs h)), refusePoint_refuses (by decide) ..⟩
  · exact ⟨_, completes_next rfl (congrArg (fun c => { s with chip := c }) (pointRequest_below_floor hs h hf)),
      refusePoint_refuses (by decide) ..⟩
  · exact ⟨_, completes_next rfl (congrArg (fun c => { s with chip := c }) (pointRequest_takes hs h hf)),
      takePoint_takes (Nat.mod_lt _ (by decide))⟩

/-- Settles O49: a device change is its shown begin, its batches and its end; a point, a floor and a limit are fields of their own. -/
theorem deviceStatesPointsThermal : Obligations.DeviceStatesPointsThermal := by
  intro s c quiet enters
  refine ⟨fun v => ⟨deviceEnters rfl, deviceEnters rfl⟩, fun h => ?_, fun hb hg => ?_, fun h => ?_, fun g hgoal hg => ?_, fun east => ?_,
    fun w e io ht => ⟨fun hw he hio => ?_, fun hot hboot hq => ?_⟩, fun h => ?_, fun hw he => ?_⟩
  · exact completes_next rfl (congrArg (fun c => { s with chip := c }) (devRun_ignored h))
  · obtain ⟨-, hgoal, hbusy⟩ := beginDevice_begins 0 s.chip
    have hwake := devWake_beginDevice 0 s.chip
    refine ⟨_, completes_next rfl (congrArg (fun c => { s with chip := c }) (devRun_begins hb hg)), hbusy, hgoal,
      hwake.trans (domainsToWake_run _), fun d hd => ?_⟩
    rw [hwake] at hd ⊢
    exact beginDevice_wakes hd
  · exact completes_next rfl (congrArg (fun c => { s with chip := c }) (devStateDone_none h))
  · exact ⟨fun hr => completes_next rfl (congrArg (fun c => { s with chip := c }) (devStateDone_waits hgoal hr)),
      fun hr => deviceStateDone hgoal hg hr⟩
  · intro p R hot
    have hpoint := pointRequest_outcomes s east
    refine ⟨fun v => ?_, fun h => ?_, fun g hgoal hg hc => ?_, fun v => ?_, fun hp hem => ?_, fun h => ?_⟩
    · obtain ⟨h1, h2, h3, h4⟩ := hpoint v
      refine ⟨h1, fun hs h => ?_, fun hs h hf => ?_, fun hs h hf => ?_⟩
      · obtain ⟨c', hc, k⟩ := h2 hs h
        exact ⟨c', hc, k.shown, k.point, k.counted, k.frame⟩
      · obtain ⟨c', hc, k⟩ := h3 hs h hf
        exact ⟨c', hc, k.shown, k.point, k.counted, k.frame⟩
      · obtain ⟨c', hc, k⟩ := h4 hs h hf
        exact ⟨c', hc, k.target, k.point, k.goal, k.stands, k.changes, k.within⟩
    · exact completes_next rfl (congrArg (fun c => { s with chip := c }) (pointStepDone_idle h))
    · obtain ⟨h1, h2, h3, h4⟩ := pointStepDone_steps hgoal hc hg
      exact ⟨_, completes_next rfl rfl, h1, h2, h3, h4⟩
    · obtain ⟨hfloor, hat, hwithin⟩ := floorWrite_facts v s.chip
      obtain ⟨h1, h2, h3⟩ := hat east
      have hr : reg (setReg Reg.PWR_FLOOR (v &&& 0x303#32) s.chip) (halfReg east) = reg s.chip (halfReg east) :=
        reg_setReg_ne _ _ (halfReg_ne (by decide) (by decide) east).symm
      have hf : halfFloor (setReg Reg.PWR_FLOOR (v &&& 0x303#32) s.chip) east = halfFloor (floorWrite v s.chip) east :=
        halfFloor_congr ((reg_setReg_same ..).trans hfloor.symm) east
      rw [halfPoint_congr hr, hf] at h1 h2 h3
      exact ⟨_, completes_next rfl rfl, hfloor, fun h => (h1 h).trans hr, h2, h3, hwithin⟩
    · exact ⟨_, completes_next rfl rfl, halfPoint_thermalLower ⟨hp, .inl hem⟩⟩
    · refine completes_next rfl (congrArg (fun c => { s with chip := c }) (thermalLower_idle ?_))
      rintro ⟨hp, hl⟩
      rcases h with h | ⟨hne, hnt⟩
      · exact absurd hp (Nat.not_lt.2 h)
      · rcases hl with hl | ⟨hl, -⟩
        · exact Bool.noConfusion (hl.symm.trans hne)
        · exact Bool.noConfusion (hl.symm.trans hnt)
  · obtain ⟨h0, h1, h2, h3, h4, h5, h6⟩ := thermalSample_cool ht hw he hio
    obtain ⟨hwt, hwe⟩ := Prod.mk.inj h5
    obtain ⟨het, hee⟩ := Prod.mk.inj h6
    exact ⟨_, thermalSample_completes h0, h1, h2, h3, h4, hwt, hwe, het, hee⟩
  · obtain ⟨d, hd, h1, h2, h3, h4⟩ := thermalSample_trips ht hot hq
    rw [← hd] at h1 h2 h3 h4
    exact ⟨_, thermalTrip_completes hboot h4, h1, h2, h3⟩
  · have h' : dieAt false s.chip = true ∨ dieAt true s.chip = true := h.imp dieAt_iff.2 dieAt_iff.2
    refine ⟨_, completes_next rfl rfl, ?_, fun t ht => tile_thermalDieReset h' ht⟩
    rw [thermalDieReset_resets h']
    exact rflag_thermalFault (by decide) _
  · exact completes_next rfl (congrArg (fun c => { s with chip := c })
      (thermalDieReset_idle (fun h => hw (dieAt_iff.1 h)) (fun h => he (dieAt_iff.1 h))))

end Sys2Proof.Machine
end

section
/-!
PROOFS. Resets of a tile, a field, the die and the cluster, and their end (R411 to R414, R420, R438).
-/

namespace Sys2Proof.Machine

open Sys2Proof.Safety

/-! ### The reset of a tile -/

section
variable {t : Nat} {c : Chip}

theorem tile_tileReset : tile (tileReset t c) t = {} := mapGet_filter_out _ (fun u => u != t) c.tiles (by simp)

theorem tile_tileReset_other {u : Nat} (h : u ≠ t) : tile (tileReset t c) u = tile c u :=
  mapGet_filter_in _ (fun u => u != t) c.tiles (by simp [h])

theorem reg_tileReset {a : Nat} (h : tileRegister t a = true) : reg (tileReset t c) a = regReset a :=
  mapGet_filter_out _ (fun a => !tileRegister t a) c.regs (by simp [h])

theorem reg_tileReset_other {a : Nat} (h : tileRegister t a = false) : reg (tileReset t c) a = reg c a :=
  mapGet_filter_in _ (fun a => !tileRegister t a) c.regs (by simp [h])

theorem wire_tileReset : wire (tileReset t c) t 4 2 = unsent (wire c t 4 2) := listOf_setList_same ..

theorem wireKey_inj {r q v r' q' v' : Nat} (hq : q < 8) (hv : v < 8) (hq' : q' < 8) (hv' : v' < 8) (h : wireKey r q v = wireKey r' q' v') :
    (r, q, v) = (r', q', v') := by
  unfold wireKey at h
  have hr : r = r' := by omega
  have hqq : q = q' := by omega
  have hvv : v = v' := by omega
  rw [hr, hqq, hvv]

theorem wire_tileReset_other {r q v : Nat} (hq : q < 8) (hv : v < 8) (h : (r, q, v) ≠ (t, 4, 2)) :
    wire (tileReset t c) r q v = wire c r q v :=
  listOf_setList_ne _ _ (fun hk => h (wireKey_inj hq hv (by decide) (by decide) hk))

/-- A tile's registers lie in its window, below the control space. -/
theorem not_tileRegister {a : Nat} (ht : t < 8192) (ha : 0x200000000000 ≤ a) : tileRegister t a = false := by
  unfold tileRegister win
  simp only [Bool.or_eq_false_iff, Bool.and_eq_false_iff, decide_eq_false_iff_not]
  omega

end

/-- What a tile reset by a command leaves. -/
structure TileCleared (t : Nat) (c c' : Chip) : Prop where
  tile : tile c' t = {}
  status : reg c' Reg.BOOT_RST_STATUS = BitVec.ofNat 32 (2 ^ 31 + 2 ^ 28 + t)
  tiles : ∀ u, u ≠ t → Machine.tile c' u = Machine.tile c u
  own : ∀ a, tileRegister t a = true → reg c' a = regReset a
  regs : ∀ a, tileRegister t a = false → a ≠ Reg.BOOT_RST_STATUS → reg c' a = reg c a
  slots : wire c' t 4 2 = unsent (wire c t 4 2)
  wires : ∀ r q v, q < 8 → v < 8 → (r, q, v) ≠ (t, 4, 2) → wire c' r q v = wire c r q v
  rest : c' = { c with regs := c'.regs, tiles := c'.tiles, wires := c'.wires }

section
variable (k u : Nat) (c : Chip)

theorem tile_rstBegun (t : Nat) : tile (rstBegun k u c) t = tile c t := tile_setReg ..

theorem router_rstBegun (t : Nat) : router (rstBegun k u c) t = router c t := router_setReg ..

theorem byteAt_rstBegun (a : Nat) : byteAt (rstBegun k u c) a = byteAt c a := byteAt_setReg ..

theorem wire_rstBegun (r q v : Nat) : wire (rstBegun k u c) r q v = wire c r q v := congrArg (listOf · (wireKey r q v)) (setReg_wires ..)

theorem parts_rstBegun : (rstBegun k u c).secQ = c.secQ ∧ (rstBegun k u c).cores = c.cores ∧
    (rstBegun k u c).tiles = c.tiles ∧ (rstBegun k u c).mem = c.mem := ⟨setReg_secQ .., setReg_cores .., setReg_tiles .., setReg_mem ..⟩

end

theorem reg_rstBegun {a : Nat} (k u : Nat) (c : Chip) (h : a ≠ Reg.BOOT_RST_STATUS) : reg (rstBegun k u c) a = reg c a := reg_putNum_ne h ..

theorem rest_rstBegun (k u : Nat) (c : Chip) : rstBegun k u c = { c with regs := (rstBegun k u c).regs } := rfl

theorem tileReset_clears {t : Nat} (ht : t < 8192) (c : Chip) : TileCleared t c (rstBegun 1 t (tileReset t c)) where
  tile := (tile_rstBegun ..).trans tile_tileReset
  status := by
    rw [rstBegun, reg_putNum_same, Nat.one_mul]
  tiles := fun u hu => (tile_rstBegun ..).trans (tile_tileReset_other hu)
  own := fun a ha => (reg_rstBegun _ _ _ (fun h => by rw [h, not_tileRegister ht (by decide)] at ha; cases ha)).trans (reg_tileReset ha)
  regs := fun a ha hne => (reg_rstBegun _ _ _ hne).trans (reg_tileReset_other ha)
  slots := (wire_rstBegun ..).trans wire_tileReset
  wires := fun r q v hq hv h => (wire_rstBegun ..).trans (wire_tileReset_other hq hv h)
  rest := by
    rw [rest_rstBegun]
    rfl

/-! ### RST_TILE, RST_FIELD and RST_DIE -/

section
variable {v : Word} {c : Chip}

theorem rstTile_idle (h : flag v 31 = false) : rstTile v c = c := if_pos (by rw [h]; rfl)

theorem rstField_idle (h : flag v 31 = false) : rstField v c = c := if_pos (by rw [h]; rfl)

theorem rstDie_idle (h : flag v 31 = false) : rstDie v c = c := if_pos (by rw [h]; rfl)

theorem go_taken (h : flag v 31 = true) : ¬ (!flag v 31) = true := by
  rw [h]
  exact Bool.false_ne_true

theorem rstTile_refused (h : flag v 31 = true) (hb : rstBusy c = true ∨ (seqEn c (fld v 12 0) = true ∧ fenced c (fld v 12 0) = false)) :
    rstTile v c = rstRefused c := by
  unfold rstTile
  refine (if_neg (go_taken h)).trans (if_pos ?_)
  rcases hb with hb | ⟨hs, hf⟩
  · rw [hb, Bool.true_or]
  · rw [hs, hf, Bool.not_false, Bool.true_and, Bool.or_true]

theorem rstTile_resets (h : flag v 31 = true) (hb : rstBusy c = false) (hs : seqEn c (fld v 12 0) = false ∨ fenced c (fld v 12 0) = true) :
    rstTile v c = rstBegun 1 (fld v 12 0) (tileReset (fld v 12 0) c) := by
  unfold rstTile
  refine (if_neg (go_taken h)).trans (if_neg ?_)
  rw [hb, Bool.false_or]
  rcases hs with hs | hf
  · rw [hs]
    exact Bool.false_ne_true
  · rw [hf, Bool.not_true, Bool.and_false]
    exact Bool.false_ne_true

theorem rstField_refused (h : flag v 31 = true) (hb : rstBusy c = true ∨ fieldInUse c (fld v 5 0) = true) : rstField v c = rstRefused c := by
  unfold rstField
  exact (if_neg (go_taken h)).trans (if_pos (Bool.or_eq_true_iff.2 hb))

theorem rstField_resets (h : flag v 31 = true) (hb : rstBusy c = false) (hu : fieldInUse c (fld v 5 0) = false) :
    rstField v c = rstBegun 2 (fld v 5 0) (fieldReset (fld v 5 0) c) := by
  unfold rstField
  refine (if_neg (go_taken h)).trans (if_neg ?_)
  rw [hb, hu]
  exact Bool.false_ne_true

theorem rstDie_refused (h : flag v 31 = true) (hb : rstBusy c = true) : rstDie v c = rstRefused c := by
  unfold rstDie
  exact (if_neg (go_taken h)).trans (if_pos hb)

theorem rstDie_resets (h : flag v 31 = true) (hb : rstBusy c = false) : rstDie v c = rstBegun 3 0 (dieReset c) := by
  unfold rstDie
  refine (if_neg (go_taken h)).trans (if_neg ?_)
  rw [hb]
  exact Bool.false_ne_true

end

theorem rstRefused_refuses (c : Chip) : rflag (rstRefused c) Reg.BOOT_FAULT 1 = true ∧ Frame [Reg.BOOT_FAULT] [] c (rstRefused c) :=
  ⟨rflag_raise _ _ _ (by decide), frame_raise _ _ (by simp) (frame_refl ..)⟩

/-- BOOT_RST_STATUS belongs to no field. -/
theorem not_fieldRegister_status {f : Nat} (hf : f < 64) : fieldRegister f Reg.BOOT_RST_STATUS = false := by
  have h1 : windowField Reg.BOOT_RST_STATUS = none := by decide
  have h2 : ¬ fieldWin f ≤ Reg.BOOT_RST_STATUS := by
    unfold fieldWin Reg.BOOT_RST_STATUS
    omega
  unfold fieldRegister
  rw [h1, decide_eq_false h2]
  rfl

/-! ### The reset of the cluster (R438) -/

/-- What the parts of a cluster reset leave. -/
structure ClusterLeaves (c c' : Chip) : Prop where
  tiles : c'.tiles = c.tiles
  mem : c'.mem = c.mem
  dom : reg c' (Reg.PWR_DOM 93) = reg c (Reg.PWR_DOM 93)

section
variable {c d : Chip} (h : ClusterLeaves c d)
include h

theorem clusterLeaves_setReg {a : Nat} (v : Word) (ha : Reg.PWR_DOM 93 ≠ a) : ClusterLeaves c (setReg a v d) :=
  ⟨(setReg_tiles ..).trans h.tiles, (setReg_mem ..).trans h.mem, (reg_setReg_ne v d ha).trans h.dom⟩

theorem clusterLeaves_resetRegs {lo hi : Nat} (ha : Reg.PWR_DOM 93 < lo ∨ hi ≤ Reg.PWR_DOM 93) : ClusterLeaves c (resetRegs lo hi d) :=
  ⟨h.tiles, h.mem, (reg_resetRegs_outside ha d).trans h.dom⟩

theorem clusterLeaves_when {b : Bool} {f : Chip → Chip} (hf : ClusterLeaves c (f d)) : ClusterLeaves c (when_ b f d) := by
  cases b
  · exact h
  · exact hf

end

theorem clusterLeaves_refl (c : Chip) : ClusterLeaves c c := ⟨rfl, rfl, rfl⟩

/-- The sources in service for targets 0 to 3 pend again where their line is asserted, and the thresholds are 0. -/
theorem clusterLeaves_irqReset {s : State} (h : ∀ x, x ∈ s.irq → x.source < 512) : ClusterLeaves s.chip (clusterIrqReset s).chip := by
  refine forAll_keeps (P := ClusterLeaves s.chip) _ (fun k _ d hd => ?_) _
    (forAll_keeps (P := ClusterLeaves s.chip) _ (fun x hx d hd => ?_) _ (clusterLeaves_refl _))
  · exact clusterLeaves_setReg hd _ (by unfold Reg.IRQ_T_THRESH Reg.PWR_DOM; omega)
  · have hs := h x (List.mem_filter.1 hx).1
    exact clusterLeaves_when hd (clusterLeaves_setReg hd _ (by unfold Reg.IRQ_PEND Reg.PWR_DOM; omega))

theorem clusterLeaves_verifyFailed {c d : Chip} (code i n : Nat) (h : ClusterLeaves c d) : ClusterLeaves c (verifyFailed code i n d) := by
  have h1 := clusterLeaves_setReg h (a := Reg.IMG_STATUS) (BitVec.ofNat 32 (3 * 2 ^ 29 + i % 4096 * 65536 + code)) (by decide)
  unfold verifyFailed
  exact clusterLeaves_setReg (clusterLeaves_when h1 (clusterLeaves_setReg h1 _ (by decide))) _ (by decide)

/-- The Thistle core's registers after its restart. -/
def thistleCleared (c : Chip) : Chip :=
  c |> when_ (imgState c == 1) (verifyFailed 0x21 0 0) |> when_ (licState c == 1) (putNum Reg.LIC_STATUS 0)
    |> resetBlock 0x200000E00000 0x100000

theorem thistleRestart_chip (s : State) : (thistleRestart s).chip =
    noteInfo { s.sec with keys := [], derived := false, drbg := false } { thistleCleared s.chip with secQ := [] } := rfl

theorem clusterLeaves_thistleCleared {c d : Chip} (h : ClusterLeaves c d) : ClusterLeaves c (thistleCleared d) := by
  have h1 := clusterLeaves_when (b := imgState d == 1) h (clusterLeaves_verifyFailed 0x21 0 0 h)
  have h2 := clusterLeaves_when (b := licState d == 1) h1 (clusterLeaves_setReg h1 (a := Reg.LIC_STATUS) 0#32 (by decide))
  exact clusterLeaves_resetRegs h2 (.inl (by decide))

theorem clusterLeaves_thistleRestart {c : Chip} {s : State} (h : ClusterLeaves c s.chip) : ClusterLeaves c (thistleRestart s).chip := by
  have h1 := clusterLeaves_thistleCleared h
  have h2 : ClusterLeaves c { thistleCleared s.chip with secQ := [] } := ⟨h1.tiles, h1.mem, h1.dom⟩
  rw [thistleRestart_chip]
  exact clusterLeaves_setReg h2 _ (by decide)

theorem secQ_thistleRestart (s : State) : (thistleRestart s).chip.secQ = [] := by
  rw [thistleRestart_chip, noteInfo, putNum, setReg_secQ]

/-- The cores of domain 93 restarted, with the watchdog's registers reset. -/
def coresRestarted (c : Chip) : Chip :=
  { resetRegs Reg.TMR_WDOG_CFG (Reg.TMR_WDOG_LEFT + 4) c with cores := if domOn c 93 then [(0, 1)] else [] }

/-- The end of a cluster reset, once the Thistle core has restarted. -/
def clusterUp (s : State) : State :=
  { s with sec := takeFirmware 1 (takeFirmware 3 s.sec), chip := rstBegun 4 0 (coresRestarted s.chip) }

theorem clusterReset_eq (s : State) : clusterReset s = clusterUp (thistleRestart (clusterIrqReset s)) := rfl

theorem sec_thistleRestart (s : State) : (thistleRestart s).sec.keys = [] ∧ (thistleRestart s).sec.derived = false ∧
    (thistleRestart s).sec.drbg = false := ⟨rfl, rfl, rfl⟩

theorem irq_mk (c : Chip) (v : List Service) (x : Sec) (q : List Instr) : ({ chip := c, irq := v, sec := x, pending := q } : State).irq = v := rfl

theorem irq_thistleRestart (s : State) : (thistleRestart s).irq = s.irq := by rw [thistleRestart, irq_mk]

theorem irq_clusterIrqReset (s : State) : (clusterIrqReset s).irq = s.irq.filter (fun x => decide (4 ≤ x.target)) := rfl

theorem pending_clusterIrqReset (s : State) : (clusterIrqReset s).pending = s.pending := rfl

theorem takeFirmware_keeps (typ : Nat) (x : Sec) :
    (takeFirmware typ x).keys = x.keys ∧ (takeFirmware typ x).derived = x.derived ∧ (takeFirmware typ x).drbg = x.drbg := by
  unfold takeFirmware
  split <;> exact ⟨rfl, rfl, rfl⟩

/-- What a cluster reset leaves. -/
structure ClusterRestarted (s t : State) : Prop where
  status : reg t.chip Reg.BOOT_RST_STATUS = 0xC0000000#32
  irq : t.irq = s.irq.filter (fun x => decide (4 ≤ x.target))
  keys : t.sec.keys = []
  derived : t.sec.derived = false
  drbg : t.sec.drbg = false
  secQ : t.chip.secQ = []
  cores : t.chip.cores = (if domOn s.chip 93 then [(0, 1)] else [])
  tiles : t.chip.tiles = s.chip.tiles
  mem : t.chip.mem = s.chip.mem
  pending : t.pending = s.pending

theorem parts_coresRestarted (c : Chip) : (coresRestarted c).secQ = c.secQ ∧ (coresRestarted c).cores = (if domOn c 93 then [(0, 1)] else []) ∧
    (coresRestarted c).tiles = c.tiles ∧ (coresRestarted c).mem = c.mem := ⟨rfl, rfl, rfl, rfl⟩

theorem clusterReset_restarts {s : State} (h : ∀ x, x ∈ s.irq → x.source < 512) : ClusterRestarted s (clusterReset s) := by
  have hl := clusterLeaves_thistleRestart (clusterLeaves_irqReset h)
  have hq := secQ_thistleRestart (clusterIrqReset s)
  obtain ⟨k0, d0, b0⟩ := sec_thistleRestart (clusterIrqReset s)
  have hi := (irq_thistleRestart (clusterIrqReset s)).trans (irq_clusterIrqReset s)
  have hp := (pending_thistleRestart (clusterIrqReset s)).trans (pending_clusterIrqReset s)
  rw [clusterReset_eq]
  generalize thistleRestart (clusterIrqReset s) = r at hl hq k0 d0 b0 hi hp
  obtain ⟨k1, d1, b1⟩ := takeFirmware_keeps 3 r.sec
  obtain ⟨k2, d2, b2⟩ := takeFirmware_keeps 1 (takeFirmware 3 r.sec)
  obtain ⟨q1, c1, t1, m1⟩ := parts_coresRestarted r.chip
  obtain ⟨q2, c2, t2, m2⟩ := parts_rstBegun 4 0 (coresRestarted r.chip)
  refine ⟨?_, hi, (k2.trans k1).trans k0, (d2.trans d1).trans d0, (b2.trans b1).trans b0, (q2.trans q1).trans hq, ?_,
    (t2.trans t1).trans hl.tiles, (m2.trans m1).trans hl.mem, hp⟩
  · exact (reg_putNum_same ..).trans (by decide)
  · rw [← domOn_congr hl.dom]
    exact c2.trans c1

/-! ### RESET_DONE (R413, R420) -/

theorem tileGood_setReg (a : Nat) (v : Word) (c : Chip) (t : Nat) : tileGood (setReg a v c) t = tileGood c t := rfl

/-- Every bad tile of the list is fenced. -/
theorem fenceBad_fences {ts : List Nat} {t : Nat} {c : Chip} (h : t ∈ ts) (hbad : tileGood c t = false) : fenced (fenceBad ts c) t = true := by
  refine forAll_reaches (I := fun d => ∀ u, tileGood d u = tileGood c u) (P := fun u d => tileGood c u = false → fenced d u = true)
    (fun u d hd => ?_) (fun u d hd hu => ?_) (fun u w d hw hbad => ?_) ts c (fun _ => rfl) t h hbad
  · split
    · exact hd
    · exact fun w => (tileGood_setReg ..).trans (hd w)
  · rw [if_neg (by rw [hd u, hu]; exact Bool.false_ne_true)]
    exact rflag_setBit_same _ (by decide) ..
  · split
    · exact hw hbad
    · by_cases heq : w = u
      · rw [heq]
        exact rflag_setBit_same _ (by decide) ..
      · exact (rflag_congr (reg_setBit_ne (by unfold Reg.TILE_CTRL; omega) ..)).trans (hw hbad)

theorem fenceBad_good {t : Nat} {c : Chip} (h : tileGood c t = true) : fenceBad [t] c = c := if_pos h

theorem mem_fieldTiles_lt {f t : Nat} (hf : f < 8192) (h : t ∈ fieldTiles f) : t < 2 ^ 21 := by
  obtain ⟨i, hi, rfl⟩ := List.mem_map.1 h
  have := List.mem_range.1 hi
  unfold tileAt
  omega

/-- The fences lie in the tiles' windows, below the control space. -/
theorem reg_fenceBad_control {a : Nat} {ts : List Nat} (ha : 0x200000000000 ≤ a) (h : ∀ t, t ∈ ts → t < 2 ^ 21) (c : Chip) :
    reg (fenceBad ts c) a = reg c a :=
  reg_fenceBad ts (fun t ht => by have := h t ht; unfold Reg.TILE_CTRL; omega) c

/-- The reset's end shown. -/
def statusCleared (c : Chip) : Chip := putNum Reg.BOOT_RST_STATUS 0 c

theorem reg_statusCleared (c : Chip) : reg (statusCleared c) Reg.BOOT_RST_STATUS = 0#32 := reg_putNum_same ..

theorem onChip_statusCleared (s : State) : onChip (putNum Reg.BOOT_RST_STATUS 0) s = onChip statusCleared s := rfl

theorem onChip_fences (ts : List Nat) (s : State) :
    onChip (fenceBad ts) (onChip (putNum Reg.BOOT_RST_STATUS 0) s) = onChip (fun c => fenceBad ts (statusCleared c)) s := rfl

theorem frame_statusCleared (c : Chip) : Frame [Reg.BOOT_RST_STATUS] [] c (statusCleared c) := frame_putNum _ _ (by simp) (frame_refl ..)

theorem tileGood_statusCleared (c : Chip) (t : Nat) : tileGood (statusCleared c) t = tileGood c t := rfl

section
variable {s : State} (hb : rstBusy s.chip = true)
include hb

theorem resetDone_tile (hk : rfld s.chip Reg.BOOT_RST_STATUS 30 28 = 1) :
    resetDone s = onChip (fun c => fenceBad [rfld s.chip Reg.BOOT_RST_STATUS 12 0] (statusCleared c)) s := by
  unfold resetDone
  dsimp only
  rw [if_pos hb, hk]
  exact onChip_fences ..

theorem resetDone_field (hk : rfld s.chip Reg.BOOT_RST_STATUS 30 28 = 2) :
    resetDone s = onChip (fun c => fenceBad (fieldTiles (rfld s.chip Reg.BOOT_RST_STATUS 12 0)) (statusCleared c)) s := by
  unfold resetDone
  dsimp only
  rw [if_pos hb, hk]
  exact onChip_fences ..

theorem resetDone_die (hk : rfld s.chip Reg.BOOT_RST_STATUS 30 28 = 3) :
    resetDone s = onChip (fun c => fenceBad (List.range 8192) (statusCleared c)) s := by
  unfold resetDone
  dsimp only
  rw [if_pos hb, hk]
  exact onChip_fences ..

theorem resetDone_thistle (h1 : rfld s.chip Reg.BOOT_RST_STATUS 30 28 ≠ 1) (h2 : rfld s.chip Reg.BOOT_RST_STATUS 30 28 ≠ 2)
    (h3 : rfld s.chip Reg.BOOT_RST_STATUS 30 28 ≠ 3) : resetDone s = thistleUp (onChip statusCleared s) := by
  unfold resetDone
  dsimp only
  rw [if_pos hb]
  split
  · next h => exact absurd h h1
  · next h => exact absurd h h2
  · next h => exact absurd h h3
  · next => exact congrArg thistleUp (onChip_statusCleared s)

end

/-- The end of a reset of KIND 1 to 3: the status is clear and the bad tiles are fenced. -/
theorem resetDone_fences {s : State} {ts : List Nat} (hts : ∀ t, t ∈ ts → t < 2 ^ 21) (hrun : resetDone s = onChip (fun c => fenceBad ts (statusCleared c)) s) :
    CompletesAt .resetDone s (onChip (fun c => fenceBad ts (statusCleared c)) s) ∧
      reg (onChip (fun c => fenceBad ts (statusCleared c)) s).chip Reg.BOOT_RST_STATUS = 0#32 ∧
      ∀ t, t ∈ ts → tileGood s.chip t = false → fenced (onChip (fun c => fenceBad ts (statusCleared c)) s).chip t = true :=
  ⟨completesAt_next rfl hrun rfl, (reg_fenceBad_control (by decide) hts _).trans (reg_statusCleared _),
    fun _ ht hbad => fenceBad_fences ht ((tileGood_statusCleared ..).trans hbad)⟩

theorem secState_thistleUp (s : State) : secState (thistleUp s).chip = 1 := by
  unfold secState rfld thistleUp
  rw [reg_putNum_same]
  exact fld_infoWord _ (by decide) _

theorem status_thistleUp (s : State) : reg (thistleUp (onChip statusCleared s)).chip Reg.BOOT_RST_STATUS = 0#32 :=
  (reg_putNum_ne (by decide) ..).trans (reg_statusCleared s.chip)

/-- The field whose reset is complete is ON and its bad tiles are fenced. -/
def fieldOn (d : Nat) (c : Chip) : Chip := fenceBad (fieldTiles d) (setDom d 0 c)

theorem resetDone_wakes {s : State} {d : Nat} (hb : rstBusy s.chip = false) (hd : d < 64) (h5 : domState s.chip d = 5)
    (hlow : ∀ e, e < d → domState s.chip e ≠ 5) (hh : numOf s.chip.power.held d = 0) : resetDone s = onChip (fieldOn d) s := by
  have hfind : (List.range 64).find? (fun d => domState s.chip d == 5) = some d :=
    List.find?_range_eq_some.2 ⟨by simp [h5], List.mem_range.2 hd, fun e he => by simp [hlow e he]⟩
  have hp : (fieldOn d s.chip).power = s.chip.power := fenceBad_leaves Chip.power (fun _ _ _ => setReg_power ..) _ _
  unfold resetDone
  dsimp only
  rw [if_neg (by rw [hb]; exact Bool.false_ne_true), hfind]
  exact congrArg (fun c => { s with chip := c }) (actHeld_none (c := fieldOn d s.chip) (by rw [hp]; exact hh))

theorem resetDone_idle {s : State} (hb : rstBusy s.chip = false) (h : ∀ d, d < 64 → domState s.chip d ≠ 5) : resetDone s = s := by
  have hfind : (List.range 64).find? (fun d => domState s.chip d == 5) = none :=
    List.find?_eq_none.2 fun d hd => by simp [h d (List.mem_range.1 hd)]
  unfold resetDone
  dsimp only
  rw [if_neg (by rw [hb]; exact Bool.false_ne_true), hfind]

theorem fieldOn_on {d : Nat} (hd : d < 64) (c : Chip) : domState (fieldOn d c) d = 0 := by
  have h := reg_fenceBad_control (a := Reg.PWR_DOM d) (by unfold Reg.PWR_DOM; omega) (fun t => mem_fieldTiles_lt (by omega : d < 8192)) (setDom d 0 c)
  exact (domState_congr h).trans (domState_setDom_same d c (by decide))

theorem fieldOn_fences {d w : Nat} {c : Chip} (hw : w ∈ fieldTiles d) (hbad : tileGood c w = false) : fenced (fieldOn d c) w = true :=
  fenceBad_fences hw ((tileGood_setReg ..).trans hbad)

end Sys2Proof.Machine
end

section
/-!
PROOFS. A floor plan committed (R403); settles O53.
-/

namespace Sys2Proof.Machine

open Sys2Proof.Safety

/-! ### A FLOORPLAN record (Table 14.5) -/

/-- The fixed part before a record's bitmaps. -/
def planHead (c : Chip) (rev : Nat) (body : List Byte) : List Byte :=
  toBytes 4 0x4E504C46 ++ toBytes 4 rev ++ toBytes 4 5192 ++ toBytes 1 (variantOf c) ++
    toBytes 1 (b2n (decide (onesIn (cut body 0x28 1024) < 7936)) + 2 * b2n (decide (4096 ≤ c.flash.fieldMap.length))) ++
    toBytes 2 (onesIn (cut body 0x28 1024)) ++ toBytes 8 (serialOf c)

theorem planRecord_eq (c : Chip) (rev : Nat) (body : List Byte) :
    planRecord c rev body = planHead c rev body ++ (body ++ (toBytes 4 (crc32 (planHead c rev body ++ body)) ++ toBytes 4 0)) := by
  have h : planRecord c rev body = (planHead c rev body ++ body) ++ toBytes 4 (crc32 (planHead c rev body ++ body)) ++ toBytes 4 0 := rfl
  rw [h, List.append_assoc, List.append_assoc]

theorem length_planHead (c : Chip) (rev : Nat) (body : List Byte) : (planHead c rev body).length = 0x18 := by
  simp only [planHead, List.length_append, length_toBytes]

theorem length_planRecord {c : Chip} {rev : Nat} {body : List Byte} (h : body.length = 0x1428) : (planRecord c rev body).length = fpLength := by
  rw [planRecord_eq]
  simp only [List.length_append, length_toBytes, length_planHead, h, fpLength]

theorem cut_planRecord {c : Chip} {rev : Nat} {body : List Byte} (h : body.length = 0x1428) : cut (planRecord c rev body) 0x18 0x1428 = body := by
  rw [planRecord_eq, cut, List.drop_left' (length_planHead c rev body), List.take_left' h]

theorem revision_planRecord (c : Chip) (rev : Nat) (body : List Byte) : nAt (planRecord c rev body) 4 4 = rev % 2 ^ 32 := by
  have h : planRecord c rev body = toBytes 4 0x4E504C46 ++ (toBytes 4 rev ++ ((planRecord c rev body).drop 8)) := by
    rw [planRecord_eq, planHead]
    simp only [List.append_assoc]
    rw [← List.append_assoc (toBytes 4 0x4E504C46) (toBytes 4 rev) _, ← List.append_assoc (toBytes 4 0x4E504C46) (toBytes 4 rev) (List.drop _ _)]
    congr 1
  rw [nAt, h, List.drop_left' (length_toBytes 4 _), List.take_left' (length_toBytes 4 _), ofBytes_toBytes]
  exact congrArg (rev % ·) (by decide)

/-! ### Publishing a record -/

/-- What a published record leaves. -/
structure Published (r : List Byte) (c c' : Chip) : Prop where
  revision : reg c' Reg.BOOT_FP_REV = BitVec.ofNat 32 (nAt r 4 4)
  kept : c'.flash.fpRev = nAt r 4 4
  last : c'.flash.fpLast = r
  fieldMap : c'.flash.fieldMap = c.flash.fieldMap
  bytes : bytesAt c' fpBase r.length = r

section
variable {r : List Byte} {c d : Chip} (h : Published r c d)
include h

theorem published_setReg {a : Nat} (v : Word) (ha : Reg.BOOT_FP_REV ≠ a) : Published r c (setReg a v d) := by
  obtain ⟨h1, h2, h3, h4, h5⟩ := h
  have hf : (setReg a v d).flash = d.flash := setReg_flash ..
  refine ⟨(reg_setReg_ne v d ha).trans h1, by rw [hf, h2], by rw [hf, h3], by rw [hf, h4], ?_⟩
  exact (List.map_congr_left fun i _ => byteAt_setReg a v d (fpBase + i)).trans h5

theorem published_when {b : Bool} {f : Chip → Chip} (hf : Published r c (f d)) : Published r c (when_ b f d) := by
  cases b
  · exact h
  · exact hf

end

theorem flash_putBytes (bs : List Byte) (a : Nat) (c : Chip) : (putBytes a bs c).flash = c.flash := by
  induction bs generalizing a c with
  | nil => rfl
  | cons b bs ih => exact (ih (a + 1) (putByte a b c)).trans rfl

/-- The record kept in flash and written to its place. -/
def planStored (r : List Byte) (c : Chip) : Chip :=
  putBytes fpBase r { c with flash := { c.flash with fpRev := nAt r 4 4, fpLast := r } }

theorem published_stored (r : List Byte) (c : Chip) : Published r c (putNum Reg.BOOT_FP_REV (nAt r 4 4) (planStored r c)) := by
  have hf : (putNum Reg.BOOT_FP_REV (nAt r 4 4) (planStored r c)).flash = { c.flash with fpRev := nAt r 4 4, fpLast := r } :=
    (setReg_flash ..).trans (flash_putBytes ..)
  refine ⟨reg_putNum_same .., by rw [hf], by rw [hf], by rw [hf], ?_⟩
  exact (List.map_congr_left fun i _ => byteAt_setReg _ _ (planStored r c) (fpBase + i)).trans (bytesAt_putBytes r fpBase _)

theorem publishPlan_publishes (r : List Byte) (c : Chip) : Published r c (publishPlan r c) := by
  have h := published_setReg (published_stored r c) (a := Reg.BOOT_FP_GOOD) (BitVec.ofNat 32 (nAt r 0x0E 2)) (by decide)
  unfold publishPlan
  refine published_setReg (published_setReg (published_setReg (published_setReg ?_ _ (by decide)) _ (by decide)) _ (by decide)) _ (by decide)
  exact published_when h (published_setReg h _ (by decide))

/-! ### The field map -/

theorem appendField_appends (e : Word) (c : Chip) : ∃ l, (appendField e c).flash.fieldMap = c.flash.fieldMap ++ l := by
  unfold appendField
  split
  · exact ⟨[], (List.append_nil _).symm⟩
  · split
    · exact ⟨[e], rfl⟩
    · exact ⟨[], (congrArg Flash.fieldMap (setReg_flash ..)).trans (List.append_nil _).symm⟩

theorem forAll_appendField (es : List Word) (c : Chip) : ∃ l, (forAll appendField es c).flash.fieldMap = c.flash.fieldMap ++ l := by
  refine forAll_keeps (P := fun d => ∃ l, d.flash.fieldMap = c.flash.fieldMap ++ l) es (fun e _ d ⟨l, hl⟩ => ?_) c ⟨[], (List.append_nil _).symm⟩
  obtain ⟨m, hm⟩ := appendField_appends e d
  exact ⟨l ++ m, by rw [hm, hl, List.append_assoc]⟩

theorem length_bytesAt (c : Chip) (a n : Nat) : (bytesAt c a n).length = n := by simp [bytesAt]

/-- The edit copy published. -/
theorem changePlan_publishes {new : List Byte} (hn : new.length = fpLength) (c : Chip) :
    let old := bytesAt c fpBase fpLength
    let c' := changePlan new c
    reg c' Reg.BOOT_FP_REV = BitVec.ofNat 32 (nAt old 4 4 + 1) ∧ c'.flash.fpRev = (nAt old 4 4 + 1) % 2 ^ 32 ∧
      bytesAt c' fpBase fpLength = c'.flash.fpLast ∧ c'.flash.fpLast.length = fpLength ∧ cut c'.flash.fpLast 0x18 0x1428 = cut new 0x18 0x1428 ∧
      ∃ l, c'.flash.fieldMap = c.flash.fieldMap ++ l := by
  intro old c'
  have hbody : (cut new 0x18 0x1428).length = 0x1428 := by
    rw [cut, List.length_take, List.length_drop, hn]
    decide
  obtain ⟨l, hl⟩ := forAll_appendField (newlyBad old new) c
  have hc : c' = publishPlan (planRecord (forAll appendField (newlyBad old new) c) (nAt old 4 4 + 1) (cut new 0x18 0x1428))
      (forAll appendField (newlyBad old new) c) := rfl
  have hlen := length_planRecord (c := forAll appendField (newlyBad old new) c) (rev := nAt old 4 4 + 1) hbody
  have hcut := cut_planRecord (c := forAll appendField (newlyBad old new) c) (rev := nAt old 4 4 + 1) hbody
  have hrev := revision_planRecord (forAll appendField (newlyBad old new) c) (nAt old 4 4 + 1) (cut new 0x18 0x1428)
  generalize forAll appendField (newlyBad old new) c = d at hl hc hlen hcut hrev
  generalize planRecord d (nAt old 4 4 + 1) (cut new 0x18 0x1428) = r at hc hlen hcut hrev
  obtain ⟨h1, h2, h3, h4, h5⟩ := publishPlan_publishes r d
  rw [← hc] at h1 h2 h3 h4 h5
  refine ⟨?_, h2.trans hrev, ?_, by rw [h3, hlen], by rw [h3, hcut], l, h4.trans hl⟩
  · rw [h1, hrev]
    exact BitVec.eq_of_toNat_eq (by rw [BitVec.toNat_ofNat, BitVec.toNat_ofNat, Nat.mod_mod])
  · rw [← hlen, h5, h3]

theorem fpCommit_refused {c : Chip} (h : planShrinks (bytesAt c fpBase fpLength) (bytesAt c fpEdit fpLength) = false) :
    fpCommit c = raise Reg.BOOT_FAULT 2 c := by
  unfold fpCommit
  exact if_neg (by rw [h]; exact Bool.false_ne_true)

theorem fpCommit_commits {c : Chip} (h : planShrinks (bytesAt c fpBase fpLength) (bytesAt c fpEdit fpLength) = true) :
    fpCommit c = changePlan (bytesAt c fpEdit fpLength) c := by
  unfold fpCommit
  exact if_pos h

/-- A plan that only loses units is committed. -/
theorem fpCommit_publishes {s : State} (h : planShrinks (bytesAt s.chip fpBase fpLength) (bytesAt s.chip fpEdit fpLength) = true) :
    ∃ c', Completes .fpCommit s c' ∧
      reg c' Reg.BOOT_FP_REV = BitVec.ofNat 32 (nAt (bytesAt s.chip fpBase fpLength) 4 4 + 1) ∧
      c'.flash.fpRev = (nAt (bytesAt s.chip fpBase fpLength) 4 4 + 1) % 2 ^ 32 ∧
      bytesAt c' fpBase fpLength = c'.flash.fpLast ∧ c'.flash.fpLast.length = fpLength ∧
      cut c'.flash.fpLast 0x18 0x1428 = cut (bytesAt s.chip fpEdit fpLength) 0x18 0x1428 ∧
      ∃ l, c'.flash.fieldMap = s.chip.flash.fieldMap ++ l := by
  have hn := length_bytesAt s.chip fpEdit fpLength
  have hrun : Completes .fpCommit s (changePlan (bytesAt s.chip fpEdit fpLength) s.chip) :=
    completes_next rfl (congrArg (fun x => { s with chip := x }) (fpCommit_commits h))
  generalize bytesAt s.chip fpEdit fpLength = new at hn hrun
  exact ⟨_, hrun, changePlan_publishes hn s.chip⟩

/-! ### The obligation -/

section
variable {s : State} {v : Word}

/-- A field reset by RST_FIELD. -/
theorem rstField_clears (h : flag v 31 = true) (hb : rstBusy s.chip = false) (hu : fieldInUse s.chip (fld v 5 0) = false) :
    ∃ c', Completes (.rstField v) s c' ∧ reg c' Reg.BOOT_RST_STATUS = BitVec.ofNat 32 (2 ^ 31 + 2 * 2 ^ 28 + fld v 5 0) ∧
      (∀ u, fieldOf u = fld v 5 0 → tile c' u = {} ∧ router c' u = {}) ∧ (∀ u, fieldOf u ≠ fld v 5 0 → tile c' u = tile s.chip u) ∧
      (∀ a, fieldRegister (fld v 5 0) a = true → reg c' a = regReset a) ∧
      (∀ a, fieldRegister (fld v 5 0) a = false → a ≠ Reg.BOOT_RST_STATUS → reg c' a = reg s.chip a) ∧
      (∀ a, fieldUnit a = some (fld v 5 0) → byteAt c' a = 0#8) := by
  have hf : fld v 5 0 < 64 := Nat.mod_lt _ (by decide)
  refine ⟨_, completes_next rfl (congrArg (fun c => { s with chip := c }) (rstField_resets h hb hu)), reg_putNum_same ..,
    fun u hu => ⟨(tile_rstBegun ..).trans (tile_fieldReset hu), (router_rstBegun ..).trans (router_fieldReset hu)⟩,
    fun u hu => (tile_rstBegun ..).trans (tile_fieldReset_other hu), fun a ha => ?_,
    fun a ha hne => (reg_rstBegun _ _ _ hne).trans (reg_fieldReset_other ha),
    fun a ha => (byteAt_rstBegun ..).trans (byteAt_fieldReset _ ha)⟩
  refine (reg_rstBegun _ _ _ fun he => ?_).trans (reg_fieldReset ha)
  rw [he, not_fieldRegister_status hf] at ha
  cases ha

/-- A die reset by RST_DIE. -/
theorem rstDie_clears (h : flag v 31 = true) (hb : rstBusy s.chip = false) : ∃ c', Completes (.rstDie v) s c' ∧
    reg c' Reg.BOOT_RST_STATUS = 0xB0000000#32 ∧ ∀ u, u < 8192 → tile c' u = {} :=
  ⟨_, completes_next rfl (congrArg (fun c => { s with chip := c }) (rstDie_resets h hb)), (reg_putNum_same ..).trans (by decide),
    fun _ hu => (tile_rstBegun ..).trans (tile_dieReset hu _)⟩

theorem irq_onChip (f : Chip → Chip) (s : State) : (onChip f s).irq = s.irq := rfl

theorem irq_thistleUp (s : State) : (thistleUp s).irq = s.irq := by rw [thistleUp, irq_mk]

theorem sec_thistleUp (s : State) : (thistleUp s).sec = { s.sec with derived := !s.sec.seedKill, drbg := true } := rfl

/-- The end of the reset in progress, by its KIND. -/
theorem resetDone_ends (hb : rstBusy s.chip = true) :
    let k := rfld s.chip Reg.BOOT_RST_STATUS 30 28
    let u := rfld s.chip Reg.BOOT_RST_STATUS 12 0
    ∃ t, CompletesAt .resetDone s t ∧ reg t.chip Reg.BOOT_RST_STATUS = 0#32 ∧ t.irq = s.irq ∧
      (k = 1 → tileGood s.chip u = false → fenced t.chip u = true) ∧
      (k = 1 → tileGood s.chip u = true → Frame [Reg.BOOT_RST_STATUS] [] s.chip t.chip) ∧
      (k = 2 → u < 64 → ∀ w, w ∈ fieldTiles u → tileGood s.chip w = false → fenced t.chip w = true) ∧
      (k = 3 → ∀ w, w < 8192 → tileGood s.chip w = false → fenced t.chip w = true) ∧
      (k = 4 → t.sec = { s.sec with derived := !s.sec.seedKill, drbg := true } ∧ secState t.chip = 1) := by
  intro k u
  have hu : u < 8192 := Nat.mod_lt _ (by decide)
  by_cases h1 : k = 1
  · obtain ⟨hrun, hst, hf⟩ := resetDone_fences (ts := [u]) (fun t ht => by rw [List.mem_singleton.1 ht]; omega) (resetDone_tile hb h1)
    refine ⟨_, hrun, hst, irq_onChip .., fun _ => hf u List.mem_cons_self, fun _ hg => ?_, by omega, by omega, by omega⟩
    change Frame _ _ _ (fenceBad [u] (statusCleared s.chip))
    rw [fenceBad_good (c := statusCleared s.chip) ((tileGood_statusCleared ..).trans hg)]
    exact frame_statusCleared _
  · by_cases h2 : k = 2
    · obtain ⟨hrun, hst, hf⟩ := resetDone_fences (fun t => mem_fieldTiles_lt hu) (resetDone_field hb h2)
      exact ⟨_, hrun, hst, irq_onChip .., by omega, by omega, fun _ _ => hf, by omega, by omega⟩
    · by_cases h3 : k = 3
      · obtain ⟨hrun, hst, hf⟩ := resetDone_fences (fun t ht => by have := List.mem_range.1 ht; omega) (resetDone_die hb h3)
        exact ⟨_, hrun, hst, irq_onChip .., by omega, by omega, by omega, fun _ w hw => hf w (List.mem_range.2 hw), by omega⟩
      · exact ⟨_, completesAt_next rfl (resetDone_thistle hb h1 h2 h3) (pending_thistleUp _), status_thistleUp s, irq_thistleUp _, by omega, by omega, by omega, by omega,
          fun _ => ⟨sec_thistleUp _, secState_thistleUp _⟩⟩

end

/-- Settles O53: a reset is the part's own clearing and its shown status, and a committed plan is the record it publishes. -/
theorem partResetsAndFloorPlan : Obligations.PartResetsAndFloorPlan := by
  intro s c refused clusterRestarts
  have hrefused : ∀ {i : Instr}, Completes i s (rstRefused c) → refused i := fun h => ⟨_, h, rstRefused_refuses c⟩
  have hcluster : ∀ {i : Instr}, exec i s = .next (clusterReset s) → (∀ x, x ∈ s.irq → x.source < 512) → clusterRestarts i := fun hi h => by
    obtain ⟨h1, h2, h3, h4, h5, h6, h7, h8, h9, h10⟩ := clusterReset_restarts h
    exact ⟨_, completesAt_next hi rfl h10, h1, h2, h3, h4, h5, h6, h7, h8, h9⟩
  have hdone : ∀ {i : Instr} {d e : Chip}, exec i s = done s d → d = e → Completes i s e := fun hi he =>
    completes_next hi (congrArg (fun x => { s with chip := x }) he)
  refine ⟨fun v => ⟨fun h => ?_, fun h => ?_⟩, fun hsrc hw hs => ?_, fun h => ?_, fun hb => resetDone_ends hb, fun hb h => ?_,
    fun d hb hd h5 hlow hh => ?_, ?_⟩
  · refine ⟨hdone rfl (rstTile_idle h), hdone rfl (rstField_idle h), hdone rfl (rstDie_idle h), completes_next rfl ?_⟩
    unfold rstCc
    exact if_pos (by rw [h]; rfl)
  · intro t f
    refine ⟨fun hb => ⟨hrefused (hdone rfl (rstTile_refused h (.inl hb))), hrefused (hdone rfl (rstField_refused h (.inl hb))),
      hrefused (hdone rfl (rstDie_refused h hb)), hrefused (completes_next rfl ?_)⟩,
      fun hs hf => hrefused (hdone rfl (rstTile_refused h (.inr ⟨hs, hf⟩))), fun hu => hrefused (hdone rfl (rstField_refused h (.inr hu))),
      fun hb hs => ?_, fun hb hu => rstField_clears h hb hu, fun hb => rstDie_clears h hb, fun hb hsrc => hcluster (congrArg Host.Outcome.next (?_ : rstCc v s = clusterReset s)) hsrc⟩
    · unfold rstCc
      exact (if_neg (go_taken h)).trans (if_pos hb)
    · obtain ⟨h1, h2, h3, h4, h5, h6, h7, h8⟩ := tileReset_clears (t := t) (Nat.mod_lt _ (by decide)) c
      exact ⟨_, hdone rfl (rstTile_resets h hb hs), h1, h2, h3, h4, h5, h6, h7, h8⟩
    · unfold rstCc
      exact (if_neg (go_taken h)).trans (if_neg (by rw [hb]; exact Bool.false_ne_true))
  · refine hcluster (congrArg _ (?_ : runtimeExpire s = clusterReset s)) hsrc
    unfold runtimeExpire
    exact if_pos (by rw [hw, hs]; rfl)
  · refine completes_next rfl (?_ : runtimeExpire s = s)
    unfold runtimeExpire
    refine if_neg fun hn => ?_
    obtain ⟨hw, hs⟩ := Bool.and_eq_true_iff.1 hn
    rcases h with h | h
    · exact Bool.noConfusion (hw.symm.trans h)
    · exact h (eq_of_beq hs)
  · exact completes_next rfl (resetDone_idle hb h)
  · exact ⟨_, completes_next rfl (resetDone_wakes hb hd h5 hlow hh), fieldOn_on hd _, fun w hw hbad => fieldOn_fences hw hbad⟩
  · exact ⟨fun h => ⟨_, hdone rfl (fpCommit_refused h), rflag_raise _ _ _ (by decide), frame_raise _ _ (by simp) (frame_refl ..)⟩,
      fun h => fpCommit_publishes h⟩

end Sys2Proof.Machine
end

section
/-!
PROOFS. What the warm and the cold reset of the device clear and keep, and how a start begins (Table 14.9, R391, R411).
-/

namespace Sys2Proof.Machine

open Sys2Proof.Safety

/-! ### The registers of the start -/

/-- The registers that show a start, which no test or load of a stage writes. -/
def StartReg (a : Nat) : Prop := Reg.BOOT_STATUS ≤ a ∧ a < Reg.BOOT_STAGE_TIME 10 ∧ a ≠ Reg.BOOT_FAULT

theorem startReg_stageTime {n : Nat} (h : n < 10) : StartReg (Reg.BOOT_STAGE_TIME n) := by
  unfold StartReg Reg.BOOT_STAGE_TIME Reg.BOOT_STATUS Reg.BOOT_FAULT
  omega

theorem not_startReg_above {a : Nat} (h : Reg.BOOT_STAGE_TIME 10 ≤ a) : ¬ StartReg a := fun hs => absurd hs.2.1 (Nat.not_lt.2 h)

/-! ### The restart of the Thistle core -/

/-- The restart changes registers and the queue of the chip alone. -/
theorem thistleRestart_leaves {β : Type} (g : Chip → β) (hg : ∀ r q d, g { d with regs := r, secQ := q } = g d) (s : State) :
    g (thistleRestart s).chip = g s.chip := by
  have hset : ∀ a v d, g (setReg a v d) = g d := fun a v d => hg (setReg a v d).regs d.secQ d
  have hverify : ∀ code i n d, g (verifyFailed code i n d) = g d := fun code i n d => by
    unfold verifyFailed when_
    refine (hset ..).trans ?_
    split
    · exact (hset ..).trans (hset ..)
    · exact hset ..
  have hclear : ∀ d, g (thistleCleared d) = g d := fun d => by
    unfold thistleCleared
    refine (hg (resetRegs _ _ _).regs _ _).trans ?_
    unfold when_
    split
    · refine (hset ..).trans ?_
      split
      · exact hverify ..
      · rfl
    · split
      · exact hverify ..
      · rfl
  rw [thistleRestart_chip, noteInfo, putNum]
  refine (hset ..).trans ((hg _ [] (thistleCleared s.chip)).trans (hclear _))

theorem reg_thistleCleared {a : Nat} (h : StartReg a) (c : Chip) : reg (thistleCleared c) a = reg c a := by
  have hne : ∀ b, Reg.BOOT_STAGE_TIME 10 ≤ b → a ≠ b := fun b hb he => not_startReg_above hb (he ▸ h)
  have hverify : ∀ code i n d, reg (verifyFailed code i n d) a = reg d a := fun code i n d => by
    unfold verifyFailed when_
    rw [reg_count_ne (hne _ (by decide))]
    split
    · rw [reg_putNum_ne (hne _ (by decide)), reg_putNum_ne (hne _ (by decide))]
    · exact reg_putNum_ne (hne _ (by decide)) ..
  unfold thistleCleared resetBlock
  rw [reg_resetRegs_outside (.inl (Nat.lt_trans h.2.1 (by decide)))]
  unfold when_
  split
  · rw [reg_putNum_ne (hne _ (by decide))]
    split
    · exact hverify ..
    · rfl
  · split
    · exact hverify ..
    · rfl

theorem reg_thistleRestart {a : Nat} (h : StartReg a) (s : State) : reg (thistleRestart s).chip a = reg s.chip a := by
  rw [thistleRestart_chip]
  exact (reg_putNum_ne (fun he => not_startReg_above (by decide) (he ▸ h)) ..).trans (reg_thistleCleared h _)

/-! ### The warm reset -/

/-- The chip's own part of a warm reset: what keeps nothing is empty, and the registers and bytes that Table 14.9 keeps stay. -/
def warmCleared (c : Chip) : Chip :=
  { c with
    regs := c.regs.filter (fun x => keptAtWarm x.1), mem := c.mem.filter (fun x => byteAtWarm x.1)
    ecc := c.ecc.filter (fun x => byteAtWarm (8 * x.1)), lost := c.lost.filter (fun x => decide (100 ≤ x.1))
    tiles := [], routers := [], wires := [], creditWires := [], tapIn := [], tbs := [], sysref := {}, jobs := []
    fieldJob := [], seamCnt := [], seamLast := [], seamMax := [], loadCensus := [], drain := none, reports := []
    memQ := [], scrubAt := [], scrubPass := [], encs := [], streams := []
    host := { mem := c.host.mem }, links := [], gw := {}, fabJobs := []
    power := { tripped := c.power.tripped, clkLost := c.power.clkLost }
    lineWas := [], asked5 := [], shared := [], cores := [], staging := [], loading := 0, accepted := none
    drains := 0, drainEpoch := 0 }

/-- The firmware that waits takes effect, and the controllers train. -/
def warmRestarted (s : State) : State :=
  onChip (forAll controllerReset (List.range 4)) { s with sec := takeFirmware 1 (takeFirmware 2 (takeFirmware 3 s.sec)) }

theorem switchedReset_eq (s : State) :
    switchedReset s = warmRestarted (thistleRestart { s with chip := warmCleared s.chip, irq := [] }) := rfl

theorem controllerReset_leaves {β : Type} (g : Chip → β) (hg : ∀ r q d, g { d with regs := r, memQ := q } = g d) (m : Nat) (c : Chip) :
    g (controllerReset m c) = g c :=
  (hg (controllerReset m c).regs (controllerReset m c).memQ c : _)

theorem reg_controllerReset {a : Nat} (h : StartReg a) (m : Nat) (c : Chip) : reg (controllerReset m c) a = reg c a := by
  have hlt := h.2.1
  have ha : a < 0x200000901000 + 0x1000 * m ∨ 0x200000901000 + 0x1000 * m + 0x1000 ≤ a := by
    unfold Reg.BOOT_STAGE_TIME at hlt
    omega
  unfold controllerReset
  refine (reg_setFld_ne ?_ ..).trans (reg_resetRegs_outside ha c)
  unfold Reg.BOOT_STAGE_TIME at hlt
  unfold Reg.MEM_M_STATUS
  omega

/-- A part of the chip that neither the Thistle core's restart nor the controllers' reset touches. -/
theorem switchedReset_leaves {β : Type} (g : Chip → β) (hg : ∀ r q m d, g { d with regs := r, secQ := q, memQ := m } = g d) (s : State) :
    g (switchedReset s).chip = g (warmCleared s.chip) := by
  rw [switchedReset_eq]
  refine (forAll_leaves g _ (fun m d => controllerReset_leaves g (fun r q d => hg r d.secQ q d) m d) _).trans ?_
  exact thistleRestart_leaves g (fun r q d => hg r q d.memQ d) _

theorem keptAtWarm_of_startReg {a : Nat} (h : StartReg a) : keptAtWarm a = true := by
  obtain ⟨h1, h2, -⟩ := h
  unfold Reg.BOOT_STATUS at h1
  unfold Reg.BOOT_STAGE_TIME at h2
  unfold keptAtWarm
  dsimp only
  rw [decide_eq_true h1, decide_eq_true (by omega : a - 0x200000000000 < 0x100000)]
  rfl

theorem reg_switchedReset {a : Nat} (h : StartReg a) (s : State) : reg (switchedReset s).chip a = reg s.chip a := by
  rw [switchedReset_eq]
  refine (reg_forAll _ (fun m _ d => reg_controllerReset h m d) _).trans ((reg_thistleRestart h _).trans ?_)
  exact mapGet_filter_in regReset keptAtWarm s.chip.regs (keptAtWarm_of_startReg h)

/-- An address of LPDDR5X reads the same default when the losses of other memories are forgotten. -/
theorem memDefault_warm {a : Nat} (h : a < 2 ^ 37) (lost : Sparse Nat) :
    memDefault (lost.filter (fun x => decide (100 ≤ x.1))) a = memDefault lost a := by
  have hg : ∀ k, 100 ≤ k → mapGet (fun _ => 0) (lost.filter (fun x => decide (100 ≤ x.1))) k = mapGet (fun _ => 0) lost k := fun k hk =>
    mapGet_filter_in _ (fun k => decide (100 ≤ k)) lost (decide_eq_true hk)
  have hl : lossAt (lost.filter (fun x => decide (100 ≤ x.1))) a = lossAt lost a := by
    unfold lossAt
    simp only [h, if_true]
    rw [hg _ (by omega), hg _ (by omega)]
  unfold memDefault
  rw [hl]

theorem mapGet_default {β : Type} {d d' : Nat → β} (m : Sparse β) {k : Nat} (h : d k = d' k) : mapGet d m k = mapGet d' m k := by
  induction m with
  | nil => exact h
  | cons p m ih =>
    unfold mapGet
    rw [ih]

theorem byteAt_warmCleared {a : Nat} (h : a < 2 ^ 37) (c : Chip) : byteAt (warmCleared c) a = byteAt c a := by
  have hk : byteAtWarm a = true := by
    unfold byteAtWarm
    rw [decide_eq_true h]
    rfl
  exact (mapGet_filter_in _ byteAtWarm c.mem hk).trans (mapGet_default c.mem (memDefault_warm h c.lost))

/-- What a warm reset leaves. -/
structure WarmReset (s t : State) : Prop where
  tiles : t.chip.tiles = []
  routers : t.chip.routers = []
  tbs : t.chip.tbs = []
  links : t.chip.links = []
  irq : t.irq = []
  keys : t.sec.keys = []
  flash : t.chip.flash = s.chip.flash
  regs : ∀ a, StartReg a → reg t.chip a = reg s.chip a
  memory : ∀ a, a < 2 ^ 37 → byteAt t.chip a = byteAt s.chip a
  pending : t.pending = s.pending

theorem irq_warmRestarted (s : State) : (warmRestarted s).irq = s.irq := rfl

theorem keys_warmRestarted (s : State) : (warmRestarted s).sec.keys = s.sec.keys :=
  (takeFirmware_keeps 1 _).1.trans ((takeFirmware_keeps 2 _).1.trans (takeFirmware_keeps 3 _).1)

theorem switchedReset_resets (s : State) : WarmReset s (switchedReset s) where
  tiles := switchedReset_leaves Chip.tiles (fun _ _ _ _ => rfl) s
  routers := switchedReset_leaves Chip.routers (fun _ _ _ _ => rfl) s
  tbs := switchedReset_leaves Chip.tbs (fun _ _ _ _ => rfl) s
  links := switchedReset_leaves Chip.links (fun _ _ _ _ => rfl) s
  irq := by rw [switchedReset_eq, irq_warmRestarted, irq_thistleRestart]
  keys := by rw [switchedReset_eq, keys_warmRestarted, (sec_thistleRestart _).1]
  flash := switchedReset_leaves Chip.flash (fun _ _ _ _ => rfl) s
  regs := fun _ ha => reg_switchedReset ha s
  memory := fun a ha => (switchedReset_leaves (fun d => byteAt d a) (fun _ _ _ _ => rfl) s).trans (byteAt_warmCleared ha s.chip)
  pending := pending_switchedReset s

/-! ### The cold reset -/

/-- The chip with nothing but what lies outside every domain: fuses, flash and the host's memory. -/
def coldChip (c : Chip) : Chip :=
  { fuses := c.fuses, flash := c.flash, free := c.free, host := { mem := c.host.mem }, readOut := c.readOut
    power := { clkLost := c.power.clkLost } }

/-- The registers that come from flash, and memory whose contents are lost. -/
def coldShown (c : Chip) : Chip :=
  coldChip c
    |> putNum Reg.BOOT_FAIL_COUNT c.flash.failCount |> putNum Reg.BOOT_FALLOW_CAUSE c.flash.fallowCause
    |> setReg Reg.BOOT_FAIL_HIST c.flash.hist |> setReg Reg.BOOT_CFG c.flash.cfg |> putNum Reg.BOOT_FP_REV c.flash.fpRev
    |> setReg Reg.MEM_CFG (reg c Reg.MEM_CFG) |> forAll loseController (List.range 4)

/-- The Thistle core's state after a cold reset. -/
def coldSec (x : Sec) : Sec :=
  takeFirmware 1 (takeFirmware 2 (takeFirmware 3 (takeFirmware 4 { x with keys := [], scope := 0, derived := false, drbg := false })))

theorem coldReset_eq (s : State) : coldReset s = { s with chip := noteInfo (coldSec s.sec) (coldShown s.chip), irq := [], sec := coldSec s.sec } := rfl

theorem coldShown_leaves {β : Type} (g : Chip → β) (hg : ∀ r l n m e d, g { d with regs := r, lost := l, free := n, mem := m, ecc := e } = g d)
    (c : Chip) : g (coldShown c) = g (coldChip c) := by
  have hset : ∀ a v d, g (setReg a v d) = g d := fun a v d => hg (setReg a v d).regs d.lost d.free d.mem d.ecc d
  have hlose : ∀ m d, g (loseController m d) = g d := fun m d =>
    hg d.regs (loseController m d).lost (loseController m d).free (loseController m d).mem (loseController m d).ecc d
  unfold coldShown
  refine (forAll_leaves g _ hlose _).trans ?_
  exact (hset ..).trans ((hset ..).trans ((hset ..).trans ((hset ..).trans ((hset ..).trans (hset ..)))))

theorem coldReset_leaves {β : Type} (g : Chip → β) (hg : ∀ r l n m e d, g { d with regs := r, lost := l, free := n, mem := m, ecc := e } = g d)
    (s : State) : g (coldReset s).chip = g (coldChip s.chip) := by
  rw [coldReset_eq]
  exact (hg (noteInfo (coldSec s.sec) (coldShown s.chip)).regs _ _ _ _ (coldShown s.chip)).trans (coldShown_leaves g hg s.chip)

theorem takeFirmware_scope (typ : Nat) (x : Sec) : (takeFirmware typ x).scope = x.scope := by
  unfold takeFirmware
  split <;> rfl

/-- What a cold reset leaves. -/
structure ColdReset (s t : State) : Prop where
  tiles : t.chip.tiles = []
  routers : t.chip.routers = []
  tbs : t.chip.tbs = []
  irq : t.irq = []
  keys : t.sec.keys = []
  scope : t.sec.scope = 0
  flash : t.chip.flash = s.chip.flash
  fuses : t.chip.fuses = s.chip.fuses
  pending : t.pending = s.pending

theorem coldReset_resets (s : State) : ColdReset s (coldReset s) where
  tiles := coldReset_leaves Chip.tiles (fun _ _ _ _ _ _ => rfl) s
  routers := coldReset_leaves Chip.routers (fun _ _ _ _ _ _ => rfl) s
  tbs := coldReset_leaves Chip.tbs (fun _ _ _ _ _ _ => rfl) s
  irq := by rw [coldReset_eq, irq_mk]
  keys := (takeFirmware_keeps 1 _).1.trans ((takeFirmware_keeps 2 _).1.trans ((takeFirmware_keeps 3 _).1.trans (takeFirmware_keeps 4 _).1))
  scope := (takeFirmware_scope 1 _).trans ((takeFirmware_scope 2 _).trans ((takeFirmware_scope 3 _).trans (takeFirmware_scope 4 _)))
  flash := coldReset_leaves Chip.flash (fun _ _ _ _ _ _ => rfl) s
  fuses := coldReset_leaves Chip.fuses (fun _ _ _ _ _ _ => rfl) s
  pending := by rw [coldReset_eq, pending_mk]

/-! ### A start begins -/

/-- The word of BOOT_STATUS at the begin of a start. -/
theorem startWord_fields (w p r : Bool) : let v := BitVec.ofNat 32 (b2n w * 2 ^ 27 + b2n p * 2 ^ 26 + b2n r * 2 ^ 25)
    fld v 31 28 = 0 ∧ flag v 27 = w ∧ flag v 25 = r := by
  cases w <;> cases p <;> cases r <;> decide

theorem status_beginStart (w r : Bool) (c : Chip) : reg (beginStart w r c) Reg.BOOT_STATUS =
    BitVec.ofNat 32 (b2n w * 2 ^ 27 + b2n (rflag c Reg.BOOT_STATUS 26) * 2 ^ 26 + b2n r * 2 ^ 25) := by
  unfold beginStart
  refine (reg_forAll _ (fun n _ d => reg_putNum_ne (by unfold Reg.BOOT_STATUS Reg.BOOT_STAGE_TIME; omega) ..) _).trans ?_
  exact (reg_putNum_ne (by decide) ..).trans (reg_putNum_same ..)

theorem beginStart_begins (w r : Bool) (c : Chip) : bootState (beginStart w r c) = 0 ∧ rflag (beginStart w r c) Reg.BOOT_STATUS 27 = w ∧
    rflag (beginStart w r c) Reg.BOOT_STATUS 25 = r := by
  unfold bootState rfld rflag
  rw [status_beginStart]
  exact startWord_fields ..

theorem beginStart_leaves {β : Type} (g : Chip → β) (hg : ∀ r b d, g { d with regs := r, boot := b } = g d) (w r : Bool) (c : Chip) :
    g (beginStart w r c) = g c := by
  have hset : ∀ a v d, g (setReg a v d) = g d := fun a v d => hg (setReg a v d).regs d.boot d
  unfold beginStart
  refine (forAll_leaves g _ (fun n d => hset ..) _).trans ((hset ..).trans ((hset ..).trans ?_))
  exact hg c.regs {} c

end Sys2Proof.Machine
end

section
/-!
PROOFS. Failed starts, fallow mode and the starts that resets begin (R406 to R410, R415, R525).
-/

namespace Sys2Proof.Machine

open Sys2Proof.Safety

/-! ### Records of a start -/

/-- A record changes no part of the chip but its registers, the recorder's own state and the free values. -/
theorem recordWrite_leaves {β : Type} (g : Chip → β) (hg : ∀ r x n d, g { d with regs := r, recd := x, free := n } = g d)
    (typ subject : Nat) (body : List Byte) (c : Chip) : g (recordWrite typ subject body c) = g c := by
  have hset : ∀ a v d, g (setReg a v d) = g d := fun a v d => hg (setReg a v d).regs d.recd d.free d
  cases hon : rflag c Reg.REC_CTRL 31 && rflag c Reg.REC_CTRL typ with
  | false => rw [recordWrite_off subject body hon]
  | true =>
    obtain ⟨h31, htyp⟩ := (Bool.and_eq_true _ _).mp hon
    have hbegun : g (recordBegun c) = g c := by
      unfold recordBegun when_
      split
      · exact (hset ..).trans (hg c.regs _ _ c)
      · exact hg c.regs _ _ c
    rw [recordWrite_on subject body h31 htyp]
    refine (hset ..).trans ((hset ..).trans ((hset ..).trans ?_))
    unfold slotPut
    exact (forAll_leaves g (f := ringPut (nextSlot c) (ringRecord typ subject body c)) _ (fun _ _ => hset ..) _).trans hbegun

theorem reg_recordStart {a : Nat} (h : a < Reg.BOOT_STAGE_TIME 10 ∨ (Reg.PWR_DOM 0 ≤ a ∧ a < Reg.PWR_DOM 96)) (kind n : Nat) (c : Chip) :
    reg (recordStart kind n c) a = reg c a := by
  have hlt : a < 0x200000100280 := by
    unfold Reg.BOOT_STAGE_TIME Reg.PWR_DOM at h
    omega
  have hne : ∀ b, 0x200000100280 ≤ b → a ≠ b := fun b hb => by omega
  exact reg_recordWrite_ne (.inl (Nat.lt_of_lt_of_le hlt (by decide))) (hne _ (by decide)) (hne _ (by decide)) (hne _ (by decide))
    (hne _ (by decide)) ..

/-! ### Fallow mode (R408) -/

/-- The domains that lose their supply in fallow mode. -/
def fallowOff (c : Chip) : List Nat := (List.range 96).filter (fun d => (d != 92 && d != 93) || c.power.tripped || c.power.clkLost)

/-- Core 0 runs and the cause is kept. -/
def fallowCores (cause : Nat) (c : Chip) : Chip := { c with boot := {}, cores := [(0, 1)], flash := { c.flash with fallowCause := cause } }

/-- Fallow mode shown. -/
def fallowShown (cause : Nat) (c : Chip) : Chip :=
  c |> setBoot 11 |> setBit Reg.BOOT_STATUS 27 false |> putNum Reg.BOOT_FALLOW_CAUSE cause

/-- The chip in fallow mode, from one whose switched domains are reset. -/
def fallowChip (cause : Nat) (c : Chip) : Chip :=
  recordStart 2 0 (fallowShown cause (forAll domainStripped (fallowOff (fallowCores cause c)) (fallowCores cause c)))

theorem enterFallow_chip (cause : Nat) (s : State) : (enterFallow cause s).chip = fallowChip cause (thistleUp (switchedReset s)).chip := rfl

/-- What entering fallow mode leaves. -/
structure InFallow (cause : Nat) (c c' : Chip) : Prop where
  state : bootState c' = 11
  cause : c'.flash.fallowCause = cause
  count : c'.flash.failCount = c.flash.failCount
  hist : c'.flash.hist = c.flash.hist
  tiles : c'.tiles = []
  doms : ∀ d, d < 96 → d ≠ 92 → d ≠ 93 → domState c' d = 2
  regs : ∀ a, StartReg a → a ≠ Reg.BOOT_STATUS → a ≠ Reg.BOOT_FALLOW_CAUSE → reg c' a = reg c a

theorem reg_fallowShown {a : Nat} (cause : Nat) (c : Chip) (h1 : a ≠ Reg.BOOT_STATUS) (h2 : a ≠ Reg.BOOT_FALLOW_CAUSE) :
    reg (fallowShown cause c) a = reg c a := (reg_putNum_ne h2 ..).trans ((reg_setBit_ne h1 ..).trans (reg_setFld_ne h1 ..))

theorem flash_fallowShown (cause : Nat) (c : Chip) : (fallowShown cause c).flash = c.flash :=
  (setReg_flash ..).trans ((setReg_flash ..).trans (setReg_flash ..))

theorem tiles_fallowShown (cause : Nat) (c : Chip) : (fallowShown cause c).tiles = c.tiles :=
  (setReg_tiles ..).trans ((setReg_tiles ..).trans (setReg_tiles ..))

theorem linkEmpty_of_nil {c : Chip} (h : c.links = []) (k : Nat) : LinkEmpty c k := by
  unfold LinkEmpty linkAt
  rw [h]
  exact ⟨rfl, rfl⟩

theorem links_fallowCores (cause : Nat) (c : Chip) : (fallowCores cause c).links = c.links := rfl

theorem tiles_fallowCores (cause : Nat) (c : Chip) : (fallowCores cause c).tiles = c.tiles := rfl

theorem flash_fallowCores (cause : Nat) (c : Chip) : (fallowCores cause c).flash = { c.flash with fallowCause := cause } := rfl

theorem reg_fallowCores (cause : Nat) (c : Chip) (a : Nat) : reg (fallowCores cause c) a = reg c a := rfl

theorem enterFallow_enters (cause : Nat) (s : State) : InFallow cause s.chip (enterFallow cause s).chip := by
  have hr := switchedReset_resets s
  have hstate := bootState_enterFallow cause s
  have htiles : (thistleUp (switchedReset s)).chip.tiles = [] := (setReg_tiles ..).trans hr.tiles
  have hlinks : (thistleUp (switchedReset s)).chip.links = [] := (setReg_links ..).trans hr.links
  have hflash : (thistleUp (switchedReset s)).chip.flash = s.chip.flash := (setReg_flash ..).trans hr.flash
  have hregs : ∀ a, StartReg a → reg (thistleUp (switchedReset s)).chip a = reg s.chip a := fun a ha =>
    (reg_putNum_ne (fun he => not_startReg_above (by decide) (he ▸ ha)) ..).trans (hr.regs a ha)
  rw [enterFallow_chip] at hstate ⊢
  generalize (thistleUp (switchedReset s)).chip = c at hstate htiles hlinks hflash hregs
  have ht := tiles_fallowCores cause c
  have hf := flash_fallowCores cause c
  have hg := reg_fallowCores cause c
  have hmem : ∀ d, d < 96 → d ≠ 92 → d ≠ 93 → d ∈ fallowOff (fallowCores cause c) := fun d hd h2 h3 =>
    List.mem_filter.2 ⟨List.mem_range.2 hd, by rw [bne_iff_ne.2 h2, bne_iff_ne.2 h3]; rfl⟩
  obtain ⟨hs, hd⟩ := forAll_domainStripped (c := fallowCores cause c)
    (fun k _ => linkEmpty_of_nil ((links_fallowCores cause c).trans hlinks) k) (fallowOff (fallowCores cause c))
  unfold fallowChip at hstate ⊢
  generalize forAll domainStripped (fallowOff (fallowCores cause c)) (fallowCores cause c) = x at hs hd hstate
  have hxf : (recordStart 2 0 (fallowShown cause x)).flash = { s.chip.flash with fallowCause := cause } := by
    rw [recordStart, flash_recordWrite, flash_fallowShown, hs.flash, hf, hflash]
  refine ⟨hstate, by rw [hxf], by rw [hxf], by rw [hxf], ?_, fun d hlt h2 h3 => ?_, fun a ha h1 h2 => ?_⟩
  · refine (recordWrite_leaves Chip.tiles (fun _ _ _ _ => rfl) ..).trans ?_
    rw [tiles_fallowShown, hs.tiles, ht, htiles]
  · have hdom : Reg.PWR_DOM 0 ≤ Reg.PWR_DOM d ∧ Reg.PWR_DOM d < Reg.PWR_DOM 96 := by
      unfold Reg.PWR_DOM
      omega
    have hne : ∀ b, b < Reg.PWR_DOM 0 → Reg.PWR_DOM d ≠ b := fun b hb he => absurd hdom.1 (by rw [he]; omega)
    refine (domState_congr ?_).trans (hd d hlt (hmem d hlt h2 h3))
    exact (reg_recordStart (.inr hdom) ..).trans (reg_fallowShown _ _ (hne _ (by decide)) (hne _ (by decide)))
  · refine (reg_recordStart (.inl ha.2.1) ..).trans ((reg_fallowShown _ _ h1 h2).trans ?_)
    rw [hs.regs a (Nat.lt_trans ha.2.1 (by decide)), hg, hregs a ha]

/-! ### A failed start (R406) -/

/-- The count of failed starts with one more. -/
def failsCounted (c : Chip) : Nat := min 3 (rfld c Reg.BOOT_FAIL_COUNT 1 0 + 1)

/-- The history of causes with one more. -/
def histShifted (cause : Nat) (c : Chip) : Word := BitVec.ofNat 32 ((reg c Reg.BOOT_FAIL_HIST).toNat * 256 + cause)

/-- What a failed start leaves, from the chip `c` and the Thistle core's state `x`. -/
structure StartFailed (cause : Nat) (c : Chip) (x : Sec) (t : State) : Prop where
  count : t.chip.flash.failCount = failsCounted c
  hist : t.chip.flash.hist = histShifted cause c
  holds : failsCounted c < 3 → bootState t.chip = 12 ∧ t.chip.boot.wdogPeriod = 0 ∧ t.sec = x
  fallow : failsCounted c = 3 → bootState t.chip = 11 ∧ t.chip.flash.fallowCause = cause ∧
    ∀ d, d < 96 → d ≠ 92 → d ≠ 93 → domState t.chip d = 2

theorem startFailed_congr {cause : Nat} {c c' : Chip} {x : Sec} {t : State} (h : StartFailed cause c' x t)
    (h1 : reg c' Reg.BOOT_FAIL_COUNT = reg c Reg.BOOT_FAIL_COUNT) (h2 : reg c' Reg.BOOT_FAIL_HIST = reg c Reg.BOOT_FAIL_HIST) :
    StartFailed cause c x t := by
  have hk : failsCounted c' = failsCounted c := by
    unfold failsCounted
    rw [rfld_congr h1]
  have hh : histShifted cause c' = histShifted cause c := by
    unfold histShifted
    rw [h2]
  obtain ⟨k1, k2, k3, k4⟩ := h
  rw [hk] at k1 k3 k4
  rw [hh] at k2
  exact ⟨k1, k2, k3, k4⟩

/-- The failure kept in flash. -/
def failureKept (cause : Nat) (c : Chip) : Chip :=
  { c with
    flash := { c.flash with failCount := failsCounted c, hist := histShifted cause c }
    boot := { c.boot with wdogPeriod := 0, load := none } }

/-- The failure kept and shown. -/
def failureNoted (cause : Nat) (c : Chip) : Chip :=
  failureKept cause c |> putNum Reg.BOOT_FAIL_COUNT (failsCounted c) |> setReg Reg.BOOT_FAIL_HIST (histShifted cause c)

/-- The state with the failure kept and shown. -/
def failedState (cause : Nat) (s : State) : State := { s with chip := failureNoted cause s.chip }

theorem startFail_eq {cause : Nat} (h : cause < 256) (s : State) : startFail cause s =
    if failsCounted s.chip = 3 then enterFallow cause (failedState cause s) else onChip (setBoot 12) (failedState cause s) := by
  have hm : cause % 256 = cause := Nat.mod_eq_of_lt h
  unfold startFail
  rw [hm]
  rfl

theorem parts_failureKept (cause : Nat) (c : Chip) : (failureKept cause c).flash.failCount = failsCounted c ∧
    (failureKept cause c).flash.hist = histShifted cause c ∧ (failureKept cause c).boot.wdogPeriod = 0 := ⟨rfl, rfl, rfl⟩

theorem flash_failureNoted (cause : Nat) (c : Chip) : (failureNoted cause c).flash = (failureKept cause c).flash :=
  (setReg_flash ..).trans (setReg_flash ..)

theorem boot_failureNoted (cause : Nat) (c : Chip) : (failureNoted cause c).boot = (failureKept cause c).boot :=
  (setReg_boot ..).trans (setReg_boot ..)

theorem reg_failureKept (cause : Nat) (c : Chip) (a : Nat) : reg (failureKept cause c) a = reg c a := rfl

theorem reg_failureNoted {a : Nat} (cause : Nat) (c : Chip) (h1 : a ≠ Reg.BOOT_FAIL_COUNT) (h2 : a ≠ Reg.BOOT_FAIL_HIST) :
    reg (failureNoted cause c) a = reg c a := (reg_setReg_ne _ _ h2).trans ((reg_putNum_ne h1 ..).trans (reg_failureKept ..))

theorem flash_setBoot (n : Nat) (c : Chip) : (setBoot n c).flash = c.flash := setReg_flash ..

theorem boot_setBoot (n : Nat) (c : Chip) : (setBoot n c).boot = c.boot := setReg_boot ..

theorem startFail_failed {cause : Nat} (h : cause < 256) (s : State) : StartFailed cause s.chip s.sec (startFail cause s) := by
  obtain ⟨hc, hh, hw⟩ := parts_failureKept cause s.chip
  rw [startFail_eq h]
  split
  · next h3 =>
    have hf := enterFallow_enters cause (failedState cause s)
    have hk : (failedState cause s).chip.flash = (failureKept cause s.chip).flash := flash_failureNoted ..
    refine ⟨hf.count.trans (by rw [hk, hc]), hf.hist.trans (by rw [hk, hh]), fun hlt => absurd h3 (Nat.ne_of_lt hlt),
      fun _ => ⟨hf.state, hf.cause, hf.doms⟩⟩
  · next h3 =>
    have hk : (onChip (setBoot 12) (failedState cause s)).chip.flash = (failureKept cause s.chip).flash :=
      (flash_setBoot ..).trans (flash_failureNoted ..)
    have hb : (onChip (setBoot 12) (failedState cause s)).chip.boot = (failureKept cause s.chip).boot :=
      (boot_setBoot ..).trans (boot_failureNoted ..)
    exact ⟨by rw [hk, hc], by rw [hk, hh], fun _ => ⟨bootState_setBoot .., by rw [hb, hw], rfl⟩, fun he => absurd he h3⟩

/-- A failed start keeps the times of the stages. -/
theorem stageTime_startFail {cause n : Nat} (h : cause < 256) (hn : n < 10) (s : State) :
    reg (startFail cause s).chip (Reg.BOOT_STAGE_TIME n) = reg s.chip (Reg.BOOT_STAGE_TIME n) := by
  have hne : ∀ a, a < 0x200000000040 → Reg.BOOT_STAGE_TIME n ≠ a := fun a ha => by
    unfold Reg.BOOT_STAGE_TIME
    omega
  have hnoted := reg_failureNoted cause s.chip (hne Reg.BOOT_FAIL_COUNT (by decide)) (hne Reg.BOOT_FAIL_HIST (by decide))
  rw [startFail_eq h]
  split
  · exact ((enterFallow_enters cause (failedState cause s)).regs _ (startReg_stageTime hn) (hne _ (by decide)) (hne _ (by decide))).trans hnoted
  · exact (reg_setFld_ne (hne _ (by decide)) ..).trans hnoted

/-- Whether a start runs. -/
def inStart (c : Chip) : Bool := decide (bootState c < 10) && !c.boot.inReset

theorem failNow_fails {cause : Nat} {s : State} (h1 : 1 ≤ cause) (h2 : cause ≤ 11) (h : inStart s.chip = true) :
    failNow cause s = startFail cause s := by
  unfold failNow
  refine if_pos ?_
  rw [← inStart, h, decide_eq_true h1, decide_eq_true h2]
  rfl

theorem failNow_idle {cause : Nat} {s : State} (h : cause = 0 ∨ 11 < cause ∨ inStart s.chip = false) : failNow cause s = s := by
  unfold failNow
  refine if_neg fun hn => ?_
  rw [← inStart] at hn
  simp only [Bool.and_eq_true, decide_eq_true_eq] at hn
  obtain ⟨⟨hs, h1⟩, h2⟩ := hn
  rcases h with h | h | h
  · omega
  · omega
  · rw [h] at hs
    exact Bool.noConfusion hs

/-! ### The starts that resets begin -/

/-- What a start that a reset has begun leaves. -/
structure StartBegun (w r : Bool) (t : State) : Prop where
  state : bootState t.chip = 0
  warm : rflag t.chip Reg.BOOT_STATUS 27 = w
  retry : rflag t.chip Reg.BOOT_STATUS 25 = r
  tiles : t.chip.tiles = []
  routers : t.chip.routers = []
  tbs : t.chip.tbs = []
  irq : t.irq = []
  keys : t.sec.keys = []

theorem chip_onChip (f : Chip → Chip) (s : State) : (onChip f s).chip = f s.chip := rfl

theorem secState_onChip (f : Chip → Chip) (s : State) : (onChip f s).sec = s.sec := rfl

theorem onChip_onChip (f g : Chip → Chip) (s : State) : onChip f (onChip g s) = onChip (fun c => f (g c)) s := rfl

/-- A start that begins after a reset has cleared the device. -/
theorem startBegun_of {t : State} (w r : Bool) (h1 : t.chip.tiles = []) (h2 : t.chip.routers = []) (h3 : t.chip.tbs = []) (h4 : t.irq = [])
    (h5 : t.sec.keys = []) : StartBegun w r (onChip (beginStart w r) t) := by
  obtain ⟨k1, k2, k3⟩ := beginStart_begins w r t.chip
  have k4 := beginStart_leaves Chip.tiles (fun _ _ _ => rfl) w r t.chip
  have k5 := beginStart_leaves Chip.routers (fun _ _ _ => rfl) w r t.chip
  have k6 := beginStart_leaves Chip.tbs (fun _ _ _ => rfl) w r t.chip
  have hc := chip_onChip (beginStart w r) t
  have hi := irq_onChip (beginStart w r) t
  have hx := secState_onChip (beginStart w r) t
  generalize onChip (beginStart w r) t = u at hc hi hx
  rw [← hc] at k1 k2 k3 k4 k5 k6
  exact ⟨k1, k2, k3, k4.trans h1, k5.trans h2, k6.trans h3, hi.trans h4, by rw [hx]; exact h5⟩

theorem warm_begins (w r : Bool) (s : State) : StartBegun w r (onChip (beginStart w r) (switchedReset s)) ∧
    ∀ a, a < 2 ^ 37 → byteAt (onChip (beginStart w r) (switchedReset s)).chip a = byteAt s.chip a := by
  have h := switchedReset_resets s
  generalize switchedReset s = t at h
  refine ⟨startBegun_of w r h.tiles h.routers h.tbs h.irq h.keys, fun a ha => ?_⟩
  rw [chip_onChip, beginStart_leaves (fun d => byteAt d a) (fun _ _ _ => rfl) w r t.chip]
  exact h.memory a ha

theorem cold_begins (w r : Bool) (s : State) : StartBegun w r (onChip (beginStart w r) (coldReset s)) ∧
    (onChip (beginStart w r) (coldReset s)).sec.scope = 0 ∧ (onChip (beginStart w r) (coldReset s)).chip.flash = s.chip.flash := by
  have h := coldReset_resets s
  generalize coldReset s = t at h
  refine ⟨startBegun_of w r h.tiles h.routers h.tbs h.irq h.keys, h.scope, ?_⟩
  rw [chip_onChip, beginStart_leaves Chip.flash (fun _ _ _ => rfl) w r t.chip]
  exact h.flash

/-! ### POWER_ON -/

/-- The strap shown at the begin of a cold start. -/
def strapShown (strap : Bool) (c : Chip) : Chip := c |> beginStart false false |> setBit Reg.BOOT_STATUS 26 strap

theorem powerOn_idle {strap : Bool} {s : State} (h1 : s.chip.boot.inReset = false) (h2 : bootState s.chip ≠ 0) : powerOn strap s = s := by
  unfold powerOn
  exact if_neg (by rw [h1, beq_false_of_ne h2]; exact Bool.false_ne_true)

theorem powerOn_starts {strap : Bool} {s : State} (h : s.chip.boot.inReset = true ∨ bootState s.chip = 0) :
    powerOn strap s = if strap then enterFallow 0x0C (onChip (strapShown strap) (coldReset s)) else onChip (strapShown strap) (coldReset s) := by
  unfold powerOn
  refine if_pos ?_
  rcases h with h | h
  · rw [h, Bool.true_or]
  · rw [h, beq_self_eq_true, Bool.or_true]

theorem strapShown_eq (strap : Bool) (t : State) :
    onChip (strapShown strap) t = onChip (setBit Reg.BOOT_STATUS 26 strap) (onChip (beginStart false false) t) := by
  rw [onChip_onChip]
  unfold strapShown
  rfl

theorem setBit_strap_leaves (strap : Bool) (c : Chip) :
    bootState (setBit Reg.BOOT_STATUS 26 strap c) = bootState c ∧
    rflag (setBit Reg.BOOT_STATUS 26 strap c) Reg.BOOT_STATUS 27 = rflag c Reg.BOOT_STATUS 27 ∧
    rflag (setBit Reg.BOOT_STATUS 26 strap c) Reg.BOOT_STATUS 25 = rflag c Reg.BOOT_STATUS 25 ∧
    (setBit Reg.BOOT_STATUS 26 strap c).tiles = c.tiles ∧ (setBit Reg.BOOT_STATUS 26 strap c).routers = c.routers ∧
    (setBit Reg.BOOT_STATUS 26 strap c).tbs = c.tbs :=
  ⟨rfld_setBit_apart _ (by decide) (by decide) .., rflag_setBit_bit _ (by decide) (by decide) .., rflag_setBit_bit _ (by decide) (by decide) ..,
    setReg_tiles .., setReg_routers .., setReg_tbs ..⟩

theorem strapShown_begins (strap : Bool) (s : State) : StartBegun false false (onChip (strapShown strap) (coldReset s)) ∧
    (onChip (strapShown strap) (coldReset s)).sec.scope = 0 := by
  rw [strapShown_eq]
  have h := cold_begins false false s
  generalize onChip (beginStart false false) (coldReset s) = t at h
  obtain ⟨⟨h1, h2, h3, h4, h5, h6, h7, h8⟩, h9, -⟩ := h
  obtain ⟨k1, k2, k3, k4, k5, k6⟩ := setBit_strap_leaves strap t.chip
  have hc := chip_onChip (setBit Reg.BOOT_STATUS 26 strap) t
  have hi := irq_onChip (setBit Reg.BOOT_STATUS 26 strap) t
  have hx := secState_onChip (setBit Reg.BOOT_STATUS 26 strap) t
  generalize onChip (setBit Reg.BOOT_STATUS 26 strap) t = u at hc hi hx
  rw [← hc] at k1 k2 k3 k4 k5 k6
  exact ⟨⟨k1.trans h1, k2.trans h2, k3.trans h3, k4.trans h4, k5.trans h5, k6.trans h6, hi.trans h7, by rw [hx]; exact h8⟩,
    by rw [hx]; exact h9⟩

end Sys2Proof.Machine
end

section
/-!
PROOFS. The stages of a start and what each of their ends leaves of the registers that show it (Tables 14.1 and 14.2, R391).
-/

namespace Sys2Proof.Machine

open Sys2Proof.Safety

/-! ### The registers of the start stay -/

/-- Every register that shows a start stays. -/
def StartKept (c d : Chip) : Prop := ∀ a, StartReg a → reg d a = reg c a

theorem StartKept.refl (c : Chip) : StartKept c c := fun _ _ => rfl

theorem StartKept.trans {c d e : Chip} (h : StartKept c d) (h' : StartKept d e) : StartKept c e := fun a ha => (h' a ha).trans (h a ha)

theorem startKept_setReg {a : Nat} (h : ¬ StartReg a) (v : Word) (c : Chip) : StartKept c (setReg a v c) := fun _ hb =>
  reg_setReg_ne v c fun he => h (he ▸ hb)

theorem StartKept.setReg {c d : Chip} (h : StartKept c d) {a : Nat} (ha : Reg.BOOT_STAGE_TIME 10 ≤ a) (v : Word) : StartKept c (setReg a v d) :=
  h.trans (startKept_setReg (not_startReg_above ha) v d)

theorem StartKept.when {c d : Chip} {b : Bool} {f : Chip → Chip} (h : StartKept c d) (hf : ∀ d, StartKept d (f d)) : StartKept c (when_ b f d) := by
  cases b
  · exact h
  · exact h.trans (hf d)

theorem startKept_forAll {α : Type} {f : α → Chip → Chip} (l : List α) (h : ∀ x, x ∈ l → ∀ c, StartKept c (f x c)) (c : Chip) :
    StartKept c (forAll f l c) := fun a ha => reg_forAll l (fun x hx c => h x hx c a ha) c

theorem startKept_recordStart (kind n : Nat) (c : Chip) : StartKept c (recordStart kind n c) := fun _ ha => reg_recordStart (.inl ha.2.1) ..

/-- The registers of a floor plan show no start. -/
theorem not_planReg {a : Nat} (ha : StartReg a) : a ∉ planRegs := fun hp => by
  obtain ⟨-, hlt, hne⟩ := ha
  simp only [planRegs, List.mem_cons, List.not_mem_nil, or_false] at hp
  simp only [Reg.BOOT_STAGE_TIME, Reg.BOOT_FAULT, Reg.BOOT_FP_REV, Reg.BOOT_FP_GOOD, Reg.SEAM_ROW_GOOD_LO, Reg.SEAM_ROW_GOOD_HI,
    Reg.SEAM_ROW_EN_LO, Reg.SEAM_ROW_EN_HI] at hlt hne hp
  omega

theorem startKept_plan {c d : Chip} (h : EndKeeps (· ∈ planRegs) c d) : StartKept c d := fun a ha => h.regs a (not_planReg ha)

/-! ### What a stage took -/

theorem stageTime_shows {n : Nat} (h : n < 10) (ms : Nat) (c : Chip) : reg (stageTime n ms c) (Reg.BOOT_STAGE_TIME n) = BitVec.ofNat 32 ms :=
  (reg_count_ne (by unfold Reg.BOOT_STAGE_TIME Reg.BOOT_ELAPSED; omega) ..).trans (reg_putNum_same ..)

theorem reg_stageTime {a n : Nat} (h : a ≠ Reg.BOOT_ELAPSED) (hn : a ≠ Reg.BOOT_STAGE_TIME n) (ms : Nat) (c : Chip) :
    reg (stageTime n ms c) a = reg c a := (reg_count_ne h ..).trans (reg_putNum_ne hn ..)

theorem reg_stageTime_before {a : Nat} (h : a ≠ Reg.BOOT_ELAPSED) (hn : a < Reg.BOOT_STAGE_TIME 0) (n ms : Nat) (c : Chip) :
    reg (stageTime n ms c) a = reg c a := reg_stageTime h (by unfold Reg.BOOT_STAGE_TIME at hn ⊢; omega) ms c

theorem parts_stageTime (n ms : Nat) (c : Chip) : (stageTime n ms c).fuses = c.fuses ∧ (stageTime n ms c).flash = c.flash ∧
    (stageTime n ms c).boot = c.boot :=
  ⟨(setReg_fuses ..).trans (setReg_fuses ..), (setReg_flash ..).trans (setReg_flash ..), (setReg_boot ..).trans (setReg_boot ..)⟩

/-! ### Stages 1 and 2 -/

theorem startKept_showGrants (g : Sparse Nat) (c : Chip) : StartKept c (showGrants g c) :=
  startKept_forAll _ (fun n _ d => by
    dsimp only
    split
    · exact .refl d
    · exact (StartKept.refl d).setReg (by unfold Reg.BOOT_STAGE_TIME Reg.LIC_GRANT; omega) _) c

theorem startKept_mirrorReload {c : Chip} (h : ∀ x, x ∈ c.flash.mirror → inRing x.1 = true) : StartKept c (mirrorReload c) := by
  have hreset : StartKept c (resetRegs (Reg.REC_RING 0) (Reg.REC_RING 65536) c) := fun a ha =>
    reg_resetRegs_outside (.inl (Nat.lt_trans ha.2.1 (by decide))) c
  have hring : ∀ d, StartKept d (forAll (fun x c => setReg x.1 x.2 c) c.flash.mirror d) := startKept_forAll _ fun x hx d => by
    refine (StartKept.refl d).setReg (Nat.le_trans (by decide : _ ≤ Reg.REC_RING 0) ?_) _
    exact of_decide_eq_true (Bool.and_eq_true_iff.1 (h x hx)).1
  have hseq : ∀ d n, StartKept d { d with recd := { d.recd with last := n } } := fun _ _ _ _ => rfl
  exact ((((hreset.trans (hring _)).trans (hseq _ _)).setReg (by decide) _).setReg (by decide) _).trans (startKept_recordStart _ _ _)

/-- A domain that fuses or grants exclude goes OFF. -/
def excludedOff (d : Nat) (c : Chip) : Chip := if excluded c d then c |> setDom d 2 |> setFld (Reg.PWR_DOM d) 1 0 2 else c

/-- The fuses shown. -/
def fusesShown (c : Chip) : Chip :=
  c |> raise Reg.FUSE_STATUS 31 |> putNum Reg.FUSE_SERIAL_LO (serialOf c % 2 ^ 32) |> putNum Reg.FUSE_SERIAL_HI (serialOf c / 2 ^ 32)
    |> setReg Reg.FUSE_VARIANT c.fuses.variant |> putNum Reg.FUSE_DEFECT_COUNT c.fuses.defects.length

theorem fuseRead_eq (c : Chip) :
    fuseRead c = when_ (!isWarm c && c.recd.last == 0) mirrorReload (forAll excludedOff (List.range 96) (fusesShown c)) := rfl

theorem startKept_fusesShown (c : Chip) : StartKept c (fusesShown c) :=
  (((((StartKept.refl c).setReg (by decide) _).setReg (by decide) _).setReg (by decide) _).setReg (by decide) _).setReg (by decide) _

theorem flash_fusesShown (c : Chip) : (fusesShown c).flash = c.flash :=
  (setReg_flash ..).trans ((setReg_flash ..).trans ((setReg_flash ..).trans ((setReg_flash ..).trans (setReg_flash ..))))

theorem startKept_excludedOff (d : Nat) (c : Chip) : StartKept c (excludedOff d c) := by
  have hd : Reg.BOOT_STAGE_TIME 10 ≤ Reg.PWR_DOM d := by
    unfold Reg.BOOT_STAGE_TIME Reg.PWR_DOM
    omega
  unfold excludedOff
  split
  · exact ((StartKept.refl c).setReg hd _).setReg hd _
  · exact .refl c

theorem flash_excludedOff (d : Nat) (c : Chip) : (excludedOff d c).flash = c.flash := by
  unfold excludedOff
  split
  · exact (setReg_flash ..).trans (setReg_flash ..)
  · rfl

theorem startKept_fuseRead {c : Chip} (h : ∀ x, x ∈ c.flash.mirror → inRing x.1 = true) : StartKept c (fuseRead c) := by
  have hkept := (startKept_fusesShown c).trans (startKept_forAll (f := excludedOff) (List.range 96) (fun d _ => startKept_excludedOff d) (fusesShown c))
  have hflash := (forAll_leaves Chip.flash (List.range 96) flash_excludedOff (fusesShown c)).trans (flash_fusesShown c)
  rw [fuseRead_eq]
  generalize forAll excludedOff (List.range 96) (fusesShown c) = d at hkept hflash
  unfold when_
  split
  · exact hkept.trans (startKept_mirrorReload (by rw [hflash]; exact h))
  · exact hkept

/-! ### Stage 5 -/

theorem memStatus_above (m : Nat) : Reg.BOOT_STAGE_TIME 10 ≤ Reg.MEM_M_STATUS m := by
  unfold Reg.BOOT_STAGE_TIME Reg.MEM_M_STATUS
  omega

theorem startKept_memoryTrain (c : Chip) : StartKept c (memoryTrain c) :=
  startKept_forAll _ (fun m _ d => (StartKept.refl d).setReg (memStatus_above m) _) c

/-- The end of stage 5 for controller `m`, of which the defects `es` are known. -/
def controllerReady (es : List Word) (m : Nat) (c : Chip) : Chip :=
  if listed es 9 m then setFld (Reg.MEM_M_STATUS m) 31 29 4 c
  else if memState c m = 2 then c
  else c |> setFld (Reg.MEM_M_STATUS m) 31 29 2 |> setBit (Reg.MEM_M_STATUS m) 28 (isWarm c)

theorem memoryReady_eq (c : Chip) : memoryReady c = forAll (controllerReady (badEntries c)) (List.range 4) c := rfl

theorem reg_controllerReady {a m : Nat} (h : a ≠ Reg.MEM_M_STATUS m) (es : List Word) (c : Chip) : reg (controllerReady es m c) a = reg c a := by
  unfold controllerReady
  split
  · exact reg_setFld_ne h ..
  · split
    · rfl
    · exact (reg_setBit_ne h ..).trans (reg_setFld_ne h ..)

theorem startKept_memoryReady (c : Chip) : StartKept c (memoryReady c) :=
  startKept_forAll _ (fun m _ d _ ha => reg_controllerReady (fun he => not_startReg_above (memStatus_above m) (he ▸ ha)) _ d) c

theorem memState_controllerReady (es : List Word) (m : Nat) (c : Chip) : (memState (controllerReady es m c) m == 4) = listed es 9 m := by
  unfold controllerReady
  cases h : listed es 9 m with
  | true =>
    rw [if_pos rfl]
    exact beq_iff_eq.2 (rfld_setFld _ _ _ _ _ (by decide) (by decide))
  | false =>
    rw [if_neg Bool.false_ne_true]
    split
    · next h2 => rw [h2]; rfl
    · have h2 : memState (c |> setFld (Reg.MEM_M_STATUS m) 31 29 2 |> setBit (Reg.MEM_M_STATUS m) 28 (isWarm c)) m = 2 :=
        (rfld_setBit_apart _ (by decide) (by decide) ..).trans (rfld_setFld _ _ _ _ _ (by decide) (by decide))
      rw [h2]
      rfl

/-- After stage 5 exactly the controllers known bad do not serve. -/
theorem memState_memoryReady {m : Nat} (h : m < 4) (c : Chip) : (memState (memoryReady c) m == 4) = listed (badEntries c) 9 m := by
  rw [memoryReady_eq]
  refine forAll_through (P := fun _ => True) (Q := fun d => (memState d m == 4) = listed (badEntries c) 9 m) (List.range 4) (List.mem_range.2 h)
    List.nodup_range (fun _ _ _ _ _ => trivial) (fun d _ => memState_controllerReady _ m d) (fun k _ hk d hd => ?_) c trivial
  have hne : Reg.MEM_M_STATUS m ≠ Reg.MEM_M_STATUS k := by
    unfold Reg.MEM_M_STATUS
    omega
  rw [← hd]
  exact congrArg (· == 4) (rfld_congr (reg_controllerReady hne _ d))

/-! ### The floor plan that a start builds (R393, R400 to R402) -/

/-- The parts of a chip that a floor plan is built from. -/
def PlanParts (c d : Chip) : Prop := d.fuses = c.fuses ∧ d.flash = c.flash ∧ d.boot = c.boot

theorem PlanParts.setReg {c d : Chip} (h : PlanParts c d) (a : Nat) (v : Word) : PlanParts c (setReg a v d) :=
  ⟨(setReg_fuses ..).trans h.1, (setReg_flash ..).trans h.2.1, (setReg_boot ..).trans h.2.2⟩

theorem PlanParts.symm {c d : Chip} (h : PlanParts c d) : PlanParts d c := ⟨h.1.symm, h.2.1.symm, h.2.2.symm⟩

theorem PlanParts.trans {c d e : Chip} (h : PlanParts c d) (h' : PlanParts d e) : PlanParts c e :=
  ⟨h'.1.trans h.1, h'.2.1.trans h.2.1, h'.2.2.trans h.2.2⟩

theorem planParts_setReg (a : Nat) (v : Word) (c : Chip) : PlanParts c (setReg a v c) := PlanParts.setReg ⟨rfl, rfl, rfl⟩ a v

section
variable {c d : Chip} (h : PlanParts c d)
include h

theorem badEntries_congr : badEntries d = badEntries c := by
  obtain ⟨h1, h2, h3⟩ := h
  unfold badEntries
  rw [h1, h2, h3]

theorem planParts_addTests (ds : List Word) : PlanParts (addTests ds c) (addTests ds d) := by
  obtain ⟨h1, h2, h3⟩ := h
  refine ⟨h1, h2, ?_⟩
  unfold addTests
  rw [h3]

theorem planParts_appendField (e : Word) : PlanParts (appendField e c) (appendField e d) := by
  obtain ⟨h1, h2, h3⟩ := h
  unfold appendField
  rw [h2]
  split
  · exact ⟨h1, h2, h3⟩
  · split
    · exact ⟨h1, rfl, h3⟩
    · exact ((planParts_setReg ..).symm.trans ⟨h1, h2, h3⟩).trans (planParts_setReg ..)

end

theorem planParts_forAll {α : Type} {f : α → Chip → Chip} (hf : ∀ x c d, PlanParts c d → PlanParts (f x c) (f x d)) (l : List α) {c d : Chip}
    (h : PlanParts c d) : PlanParts (forAll f l c) (forAll f l d) := by
  induction l generalizing c d with
  | nil => exact h
  | cons x l ih => exact ih (hf x c d h)

/-- The defects of the test map that fail a unit, once each. -/
def testDefects (c : Chip) : List Word := oncePerUnit (c.boot.testMap.filter (testFails c.fuses.variant c.fuses.defects))

/-- The defects of the test map that neither the fuses nor the field map have. -/
def freshDefects (c : Chip) : List Word :=
  ((testDefects c).filter (fun e => !c.fuses.defects.any (fun x => deUnit x == deUnit e))).filter
    (fun e => !c.flash.fieldMap.any (fun x => deUnit x == deUnit e))

/-- The fused units that the test passed. -/
def passedDefects (c : Chip) : List Word :=
  (oncePerUnit (c.fuses.defects.filter (fun e => decide (deType e < 10)))).filter (fun e => !(testDefects c).any (fun x => deUnit x == deUnit e))

theorem mergeTests_eq (c : Chip) : mergeTests c = forAll appendField (freshDefects c)
    (count Reg.FUSE_TEST_DISAGREE_FAIL (freshDefects c).length (count Reg.FUSE_TEST_DISAGREE_PASS (passedDefects c).length c)) := rfl

theorem freshDefects_congr {c d : Chip} (h : PlanParts c d) : freshDefects d = freshDefects c := by
  obtain ⟨h1, h2, h3⟩ := h
  unfold freshDefects testDefects
  rw [h1, h2, h3]

theorem planParts_mergeTests {c d : Chip} (h : PlanParts c d) : PlanParts (mergeTests c) (mergeTests d) := by
  rw [mergeTests_eq, mergeTests_eq, freshDefects_congr h]
  exact planParts_forAll (fun e _ _ => fun h => planParts_appendField h e) _
    (((planParts_setReg ..).trans (planParts_setReg ..)).symm.trans (h.trans ((planParts_setReg ..).trans (planParts_setReg ..))))

theorem startKept_mergeTests (c : Chip) : StartKept c (mergeTests c) := by
  rw [mergeTests_eq]
  exact (((StartKept.refl c).setReg (by decide) _).setReg (by decide) _).trans
    (startKept_forAll _ (fun e _ d => startKept_plan (endKeeps_appendField e d)) _)

theorem fuses_appendField (e : Word) (c : Chip) : (appendField e c).fuses = c.fuses := by
  unfold appendField
  split
  · rfl
  · split
    · rfl
    · exact setReg_fuses ..

theorem fuses_mergeTests (c : Chip) : (mergeTests c).fuses = c.fuses := by
  rw [mergeTests_eq]
  exact (forAll_leaves Chip.fuses _ fuses_appendField _).trans ((setReg_fuses ..).trans (setReg_fuses ..))

/-- The record that a start publishes. -/
def builtPlan (c : Chip) : List Byte :=
  planRecord c (if planContents (planRecord c 0 (planBody c.fuses.variant (badEntries c))) == planContents c.flash.fpLast then c.flash.fpRev
    else c.flash.fpRev + 1) (planBody c.fuses.variant (badEntries c))

/-- The seams enabled that the plan calls good. -/
def seamsEnabled (c : Chip) : Chip :=
  c |> setReg Reg.SEAM_ROW_EN_LO (reg c Reg.SEAM_ROW_GOOD_LO) |> setReg Reg.SEAM_ROW_EN_HI (reg c Reg.SEAM_ROW_GOOD_HI)

theorem buildPlan_eq (c : Chip) : buildPlan c = fenceBad (List.range 8192) (seamsEnabled (publishPlan (builtPlan c) c)) := rfl

theorem reg_buildPlan {a : Nat} (h : 0x200000000000 ≤ a) (hn : a ∉ planRegs) (c : Chip) : reg (buildPlan c) a = reg c a := by
  have hlo : a ≠ Reg.SEAM_ROW_EN_LO := fun he => hn (by rw [he]; simp [planRegs])
  have hhi : a ≠ Reg.SEAM_ROW_EN_HI := fun he => hn (by rw [he]; simp [planRegs])
  rw [buildPlan_eq]
  refine (reg_fenceBad_control h (fun t ht => by have := List.mem_range.1 ht; omega) _).trans ?_
  exact (reg_setReg_ne _ _ hhi).trans ((reg_setReg_ne _ _ hlo).trans ((endKeeps_publishPlan _ c).regs a hn))

theorem startKept_buildPlan (c : Chip) : StartKept c (buildPlan c) := fun _ ha => reg_buildPlan ha.1 (not_planReg ha) c

theorem memState_buildPlan {m : Nat} (h : m < 4) (c : Chip) : memState (buildPlan c) m = memState c m := by
  refine rfld_congr (reg_buildPlan ?_ ?_ c)
  · unfold Reg.MEM_M_STATUS
    omega
  · simp only [planRegs, List.mem_cons, List.not_mem_nil, or_false, Reg.MEM_M_STATUS, Reg.BOOT_FAULT, Reg.BOOT_FP_REV, Reg.BOOT_FP_GOOD,
      Reg.SEAM_ROW_GOOD_LO, Reg.SEAM_ROW_GOOD_HI, Reg.SEAM_ROW_EN_LO, Reg.SEAM_ROW_EN_HI]
    omega

/-! ### The controllers of a plan -/

/-- The byte of a plan's record that holds the controllers. -/
theorem planBody_controllers (v : Word) (es : List Word) : ∃ x y z l, planBody v es = x :: y :: z :: l := ⟨_, _, _, _, rfl⟩

theorem builtPlan_controllers (c : Chip) :
    ∃ b, (builtPlan c)[0x1A]? = some b ∧ b.toNat = nAt (planBody c.fuses.variant (badEntries c)) 2 1 := by
  obtain ⟨x, y, z, l, hb⟩ := planBody_controllers c.fuses.variant (badEntries c)
  unfold builtPlan
  generalize planBody c.fuses.variant (badEntries c) = body at hb
  refine ⟨z, ?_, ?_⟩
  · rw [planRecord_eq, List.getElem?_append_right (by rw [length_planHead]; decide), length_planHead, hb]
    rfl
  · rw [hb]
    exact (Nat.add_zero _).symm

theorem byteAt_buildPlan (c : Chip) (a : Nat) : byteAt (buildPlan c) a = byteAt (publishPlan (builtPlan c) c) a := by
  rw [buildPlan_eq]
  exact (fenceBad_leaves (fun d => byteAt d a) (fun b v d => byteAt_setReg b v d a) _ _).trans
    ((byteAt_setReg ..).trans (byteAt_setReg ..))

/-- The address of the byte of the published record that holds the controllers. -/
def controllersAt : Nat := fpBase + 0x1A

theorem controllers_buildPlan (c : Chip) : (byteAt (buildPlan c) controllersAt).toNat = nAt (planBody c.fuses.variant (badEntries c)) 2 1 := by
  obtain ⟨b, hb, hn⟩ := builtPlan_controllers c
  have hp := (publishPlan_publishes (builtPlan c) c).bytes
  rw [byteAt_buildPlan]
  generalize builtPlan c = r at hb hp
  have hg : (bytesAt (publishPlan r c) fpBase r.length)[0x1A]? = some b := by rw [hp, hb]
  obtain ⟨hlt, -⟩ := List.getElem?_eq_some_iff.1 hb
  rw [bytesAt, List.getElem?_map, List.getElem?_range hlt] at hg
  rw [controllersAt, ← hn]
  exact congrArg BitVec.toNat (Option.some.inj hg)

theorem controllerGood_eq {m : Nat} (h : m < 4) (c : Chip) : controllerGood c m = bit (byteAt c controllersAt).toNat m := by
  unfold controllerGood fpBit controllersAt
  rw [Nat.div_eq_of_lt (by omega), Nat.mod_eq_of_lt (by omega), Nat.add_zero]

/-! ### Stage 6 -/

/-- The map mode and the presence of the controllers shown, from which stage 6 then zeroes every line. -/
def mapShown (c : Chip) : Chip :=
  let good := (List.range 4).filter (controllerGood c)
  let ecc := rflag c Reg.MEM_CFG 31
  let present := (good.map (fun m => 2 ^ (16 + m))).foldl (· + ·) 0
  c |> putNum Reg.MEM_STATUS (b2n ecc * 2 ^ 31 + b2n (good.length != 4) * 2 ^ 30 + present + good.length * (if ecc then 31 else 32))
    |> forAll (fun m => setFld (Reg.MEM_M_STATUS m) 31 29 4) ((List.range 4).filter (fun m => !controllerGood c m))
    |> forAll notePpr good

theorem memoryMap_eq (c : Chip) : memoryMap c = zeroMemory (mapShown c) := rfl

theorem reg_zeroMemory (c : Chip) (a : Nat) : reg (zeroMemory c) a = reg c a := rfl

theorem startKept_notePpr (m : Nat) (c : Chip) : StartKept c (notePpr m c) := fun a ha =>
  reg_setFld_ne (c := (takeFree c).2) (fun he => not_startReg_above (by unfold Reg.BOOT_STAGE_TIME Reg.MEM_M_PPR; omega) (he ▸ ha)) ..

theorem startKept_mapShown (c : Chip) : StartKept c (mapShown c) :=
  (((StartKept.refl c).setReg (by decide) _).trans
    (startKept_forAll _ (fun m _ d => (StartKept.refl d).setReg (memStatus_above m) _) _)).trans
    (startKept_forAll _ (fun m _ => startKept_notePpr m) _)

theorem startKept_memoryMap (c : Chip) : StartKept c (memoryMap c) := fun a ha => by
  rw [memoryMap_eq, reg_zeroMemory]
  exact startKept_mapShown c a ha

theorem byteAt_notePpr (m a : Nat) (c : Chip) : byteAt (notePpr m c) a = byteAt c a := rfl

theorem byteAt_mapShown (c : Chip) (a : Nat) : byteAt (mapShown c) a = byteAt c a := by
  unfold mapShown
  dsimp only
  refine (forAll_leaves (fun d => byteAt d a) _ (fun m d => byteAt_notePpr m a d) _).trans ?_
  exact (forAll_leaves (fun d => byteAt d a) _ (fun m d => byteAt_setReg ..) _).trans (byteAt_setReg ..)

/-- The floor plan's record lies outside LPDDR5X. -/
theorem byteAt_zeroMemory_plan (c : Chip) : byteAt (zeroMemory c) controllersAt = byteAt c controllersAt := by
  have hl : ∀ lost, lossAt lost controllersAt = 0 := fun lost => by
    have hf : fieldUnit controllersAt = none := by decide
    unfold lossAt
    rw [if_neg (by decide), hf]
  have hd : ∀ lost lost', memDefault lost controllersAt = memDefault lost' controllersAt := fun lost lost' => by
    unfold memDefault
    rw [hl, hl]
  refine (mapGet_filter_in _ (fun a => !decide (a < 2 ^ 37)) c.mem (by decide)).trans ?_
  exact mapGet_default c.mem (hd ..)

/-- After stage 6 exactly the controllers that the plan calls good serve. -/
theorem controllerGood_memoryMap {m : Nat} (h : m < 4) (c : Chip) :
    controllerGood (memoryMap (buildPlan c)) m = bit (nAt (planBody c.fuses.variant (badEntries c)) 2 1) m := by
  rw [controllerGood_eq h, memoryMap_eq, byteAt_zeroMemory_plan, byteAt_mapShown, controllers_buildPlan]

end Sys2Proof.Machine
end

section
/-!
PROOFS. START_STAGE_DONE: what completes, what fails and what a start goes on to (R391 to R404).
-/

namespace Sys2Proof.Machine

open Sys2Proof.Safety

theorem completesAt_exec {i : Instr} {s t : State} (h : exec i s = .next t) : CompletesAt i s t := by
  obtain ⟨u, hu, hp⟩ := everyCommandCompletes i s
  have : u = t := Host.Outcome.next.inj (hu.symm.trans h)
  exact ⟨h, this ▸ hp⟩

/-! ### The ends of the stages -/

/-- The grants shown and latched. -/
def grantsShown (g : Sparse Nat) (c : Chip) : Chip := { showGrants g c with loadGrants := latchGrants (showGrants g c) }

/-- The fuses read, with core 0 started and the bring-up watchdog's period taken. -/
def fusesTaken (c : Chip) : Chip :=
  { fuseRead c with cores := [(0, 1)], boot := { c.boot with wdogPeriod := max 1 (rfld c Reg.BOOT_WDOG_CFG 15 0) } }

/-- The controllers' defects that stage 5 found enter the test map. -/
def memoryTested (ds : List Word) (c : Chip) : Chip := addTests (ds.filter (fun e => deType e == 9)) c

/-- The end of stage 5, which in a warm start also builds the floor plan. -/
def stageFive (warm : Bool) (ds : List Word) (c : Chip) : Chip := when_ warm buildPlan (memoryReady (memoryTested ds c))

/-- The end of stage 6. -/
def stageSix (ds : List Word) (c : Chip) : Chip := memoryMap (buildPlan (mergeTests (addTests ds c)))

theorem stageEnd_one (ds : List Word) (t : State) : stageEnd 1 ds t = onChip (grantsShown t.sec.grants) (thistleUp t) := rfl

theorem stageEnd_two (ds : List Word) (t : State) : stageEnd 2 ds t = onChip fusesTaken t := rfl

theorem stageEnd_tests {n : Nat} (h : n = 3 ∨ n = 4) (ds : List Word) (t : State) :
    stageEnd n ds t = if isWarm t.chip then t else onChip (addTests ds) t := by
  rcases h with rfl | rfl <;> rfl

theorem when_true (f : Chip → Chip) (c : Chip) : when_ true f c = f c := rfl

theorem when_false (f : Chip → Chip) (c : Chip) : when_ false f c = c := rfl

theorem stageFive_cold (ds : List Word) (c : Chip) : stageFive false ds c = memoryReady (memoryTested ds c) :=
  when_false ..

theorem stageFive_warm (ds : List Word) (c : Chip) : stageFive true ds c = buildPlan (memoryReady (memoryTested ds c)) :=
  when_true ..

theorem stageEnd_five (ds : List Word) (t : State) : stageEnd 5 ds t = onChip (stageFive (isWarm t.chip) ds) t := by
  have h : stageEnd 5 ds t = if isWarm t.chip then onChip buildPlan (onChip (fun c => memoryReady (memoryTested ds c)) t)
      else onChip (fun c => memoryReady (memoryTested ds c)) t := rfl
  rw [h]
  cases isWarm t.chip
  · exact (if_neg Bool.false_ne_true).trans (congrArg (onChip · t) (funext fun c => (stageFive_cold ds c).symm))
  · refine (if_pos rfl).trans ?_
    rw [onChip_onChip]
    exact congrArg (onChip · t) (funext fun c => (stageFive_warm ds c).symm)

theorem stageEnd_six (ds : List Word) (t : State) : stageEnd 6 ds t = onChip (stageSix ds) t := rfl

theorem startKept_addTests (ds : List Word) (c : Chip) : StartKept c (addTests ds c) := fun _ _ => rfl

theorem reg_grantsLatched (g : Sparse Word) (c : Chip) (a : Nat) : reg { c with loadGrants := g } a = reg c a := rfl

theorem startKept_grantsShown (g : Sparse Nat) (c : Chip) : StartKept c (grantsShown g c) := fun a ha => by
  unfold grantsShown
  rw [reg_grantsLatched]
  exact startKept_showGrants g c a ha

theorem startKept_thistleUp (t : State) : StartKept t.chip (thistleUp t).chip := (StartKept.refl t.chip).setReg (a := Reg.SEC_INFO) (by decide) _

theorem reg_coresStarted (k : Sparse Nat) (b : Boot) (c : Chip) (a : Nat) : reg { c with cores := k, boot := b } a = reg c a := rfl

theorem startKept_fusesTaken {c : Chip} (h : ∀ x, x ∈ c.flash.mirror → inRing x.1 = true) : StartKept c (fusesTaken c) := fun a ha => by
  unfold fusesTaken
  rw [reg_coresStarted]
  exact startKept_fuseRead h a ha

theorem startKept_stageFive (warm : Bool) (ds : List Word) (c : Chip) : StartKept c (stageFive warm ds c) :=
  ((startKept_addTests _ c).trans (startKept_memoryReady _)).when startKept_buildPlan

theorem startKept_stageSix (ds : List Word) (c : Chip) : StartKept c (stageSix ds c) :=
  (((startKept_addTests ds c).trans (startKept_mergeTests _)).trans (startKept_buildPlan _)).trans (startKept_memoryMap _)

/-- The end of a stage before the last keeps the registers of the start. -/
theorem startKept_stageEnd {n : Nat} (h : n < 9) (ds : List Word) (t : State)
    (hm : n = 2 → ∀ x, x ∈ t.chip.flash.mirror → inRing x.1 = true) : StartKept t.chip (stageEnd n ds t).chip := by
  match n, h, hm with
  | 0, _, _ | 7, _, _ | 8, _, _ => exact .refl _
  | 1, _, _ =>
    rw [stageEnd_one, chip_onChip]
    exact (startKept_thistleUp t).trans (startKept_grantsShown _ _)
  | 2, _, hm =>
    rw [stageEnd_two, chip_onChip]
    exact startKept_fusesTaken (hm rfl)
  | 3, _, _ | 4, _, _ =>
    rw [stageEnd_tests (by decide)]
    split
    · exact .refl _
    · exact startKept_addTests _ _
  | 5, _, _ =>
    rw [stageEnd_five, chip_onChip]
    exact startKept_stageFive _ _ _
  | 6, _, _ =>
    rw [stageEnd_six, chip_onChip]
    exact startKept_stageSix _ _

/-! ### START_STAGE_DONE -/

/-- The state after the end of the running stage, its time recorded. -/
def stageLeft (ms : Nat) (ds : List Word) (s : State) : State :=
  stageEnd (bootState s.chip) ds (onChip (stageTime (bootState s.chip) ms) s)

/-- The start goes on to stage `m`. -/
def stageNext (m : Nat) (c : Chip) : Chip := c |> setBoot m |> when_ (m == 5) memoryTrain

/-- Where the start goes after the end of stage `n`. -/
def stageAdvance (n : Nat) (warm : Bool) (t : State) : State :=
  if n < 9 then
    if n = 5 ∧ (List.range 4).all (fun m => memState t.chip m == 4) then startFail 5 t
    else if n = 6 ∧ (List.range 4).all (fun m => !controllerGood t.chip m) then startFail 5 t
    else if n = 7 then stageEight (onChip (stageNext (stageAfter warm n)) t) else onChip (stageNext (stageAfter warm n)) t
  else t

section
variable {s : State} {ms cause : Nat} {ds : List Word}

theorem stageDone_idle (h : starting s.chip = false ∨ (bootState s.chip = 9 ∧ s.chip.boot.loaded = true)) : stageDone ms cause ds s = s := by
  unfold stageDone
  refine if_pos ?_
  rcases h with h | ⟨h9, hl⟩
  · rw [h]
    rfl
  · rw [h9, hl]
    exact Bool.or_true _

/-- The end of a stage that a start waits for. -/
theorem stageDone_taken (h : starting s.chip = true) (h9 : ¬ (bootState s.chip = 9 ∧ s.chip.boot.loaded = true)) :
    ¬ (!starting s.chip || (bootState s.chip == 9 && s.chip.boot.loaded)) = true := fun hn => by
  rw [h, Bool.not_true, Bool.false_or, Bool.and_eq_true, beq_iff_eq] at hn
  exact h9 hn

theorem stageDone_foreign (h0 : cause ≠ 0) (hc : (stageCauses (bootState s.chip)).contains cause = false) : stageDone ms cause ds s = s := by
  unfold stageDone
  by_cases hi : (!starting s.chip || (bootState s.chip == 9 && s.chip.boot.loaded)) = true
  · exact if_pos hi
  · exact (if_neg hi).trans ((if_neg fun hn => h0 hn.1).trans ((if_pos h0).trans (if_neg (by rw [hc]; exact Bool.false_ne_true))))

/-- The time of a stage that failed, with the fuses' fault shown. -/
def stageBroken (ms cause : Nat) (c : Chip) : Chip :=
  c |> stageTime (bootState c) ms |> when_ (cause == 2) (raise Reg.FUSE_STATUS 30)

theorem stageDone_fails (h : starting s.chip = true) (h9 : ¬ (bootState s.chip = 9 ∧ s.chip.boot.loaded = true)) (h0 : cause ≠ 0)
    (hc : (stageCauses (bootState s.chip)).contains cause = true) : stageDone ms cause ds s = startFail cause (onChip (stageBroken ms cause) s) := by
  unfold stageDone
  exact (if_neg (stageDone_taken h h9)).trans ((if_neg (fun hn => h0 hn.1)).trans ((if_pos h0).trans (if_pos hc)))

theorem stageDone_held (hl : s.chip.boot.load.isSome = true) : stageDone ms 0 ds s = s := by
  unfold stageDone
  dsimp only
  split
  · rfl
  · exact if_pos ⟨rfl, hl⟩

theorem stageDone_ends (h : starting s.chip = true) (h9 : ¬ (bootState s.chip = 9 ∧ s.chip.boot.loaded = true)) (hl : s.chip.boot.load = none) :
    stageDone ms 0 ds s = stageAdvance (bootState s.chip) (isWarm s.chip) (stageLeft ms ds s) := by
  have hn : ¬ ((0 : Nat) = 0 ∧ s.chip.boot.load.isSome = true) := fun hn => by
    rw [hl] at hn
    exact Bool.noConfusion hn.2
  unfold stageDone
  exact (if_neg (stageDone_taken h h9)).trans ((if_neg hn).trans (if_neg fun hz => hz rfl))

end

/-! ### Where a start goes on to -/

theorem startReg_status : StartReg Reg.BOOT_STATUS := ⟨Nat.le_refl _, by decide, by decide⟩

theorem reg_stageNext {a : Nat} (h : StartReg a) (hs : a ≠ Reg.BOOT_STATUS) (m : Nat) (c : Chip) : reg (stageNext m c) a = reg c a := by
  unfold stageNext when_
  split
  · exact (startKept_memoryTrain _ a h).trans (reg_setFld_ne hs ..)
  · exact reg_setFld_ne hs ..

theorem bootState_stageNext (m : Nat) (c : Chip) : bootState (stageNext m c) = m % 16 := by
  unfold stageNext when_
  split
  · exact (bootState_congr (startKept_memoryTrain _ _ startReg_status)).trans (bootState_setBoot ..)
  · exact bootState_setBoot ..

theorem stageAfter_le {n : Nat} (h : n < 9) (warm : Bool) : stageAfter warm n < 10 := by
  unfold stageAfter
  split
  · split <;> omega
  · omega

/-- The running start `s` goes on to stage `m`, after stage `n` has taken `ms`. -/
structure GoesOn (n m ms : Nat) (c : Chip) : Prop where
  state : bootState c = m
  time : reg c (Reg.BOOT_STAGE_TIME n) = BitVec.ofNat 32 ms

theorem goesOn_stageNext {n ms : Nat} (h : n < 9) (warm : Bool) {t : State} (ht : reg t.chip (Reg.BOOT_STAGE_TIME n) = BitVec.ofNat 32 ms) :
    GoesOn n (stageAfter warm n) ms (onChip (stageNext (stageAfter warm n)) t).chip := by
  rw [chip_onChip]
  have := stageAfter_le h warm
  refine ⟨(bootState_stageNext ..).trans (Nat.mod_eq_of_lt (by omega)), (reg_stageNext (startReg_stageTime (by omega)) ?_ ..).trans ht⟩
  unfold Reg.BOOT_STAGE_TIME Reg.BOOT_STATUS
  omega

section
variable {n : Nat} {warm : Bool} {t : State} (h : n < 9)
include h

theorem stageAdvance_next (h5 : n = 5 → (List.range 4).all (fun m => memState t.chip m == 4) = false)
    (h6 : n = 6 → (List.range 4).all (fun m => !controllerGood t.chip m) = false) (h7 : n ≠ 7) :
    stageAdvance n warm t = onChip (stageNext (stageAfter warm n)) t := by
  unfold stageAdvance
  refine (if_pos h).trans ((if_neg fun hn => ?_).trans ((if_neg fun hn => ?_).trans (if_neg h7)))
  · rw [h5 hn.1] at hn
    exact Bool.noConfusion hn.2
  · rw [h6 hn.1] at hn
    exact Bool.noConfusion hn.2

end

theorem stageAdvance_seven (warm : Bool) (t : State) :
    stageAdvance 7 warm t = stageEight (onChip (stageNext (stageAfter warm 7)) t) := by
  unfold stageAdvance
  exact (if_pos (by decide)).trans ((if_neg fun hn => absurd hn.1 (by decide)).trans ((if_neg fun hn => absurd hn.1 (by decide)).trans (if_pos rfl)))

theorem stageAdvance_noMemory {t : State} (warm : Bool) (h : (List.range 4).all (fun m => memState t.chip m == 4) = true) :
    stageAdvance 5 warm t = startFail 5 t := by
  unfold stageAdvance
  exact (if_pos (by decide)).trans (if_pos ⟨rfl, h⟩)

theorem stageAdvance_noController {t : State} (warm : Bool) (h : (List.range 4).all (fun m => !controllerGood t.chip m) = true) :
    stageAdvance 6 warm t = startFail 5 t := by
  unfold stageAdvance
  exact (if_pos (by decide)).trans ((if_neg fun hn => absurd hn.1 (by decide)).trans (if_pos ⟨rfl, h⟩))

theorem stageAdvance_last (warm : Bool) (t : State) : stageAdvance 9 warm t = t := if_neg (by decide)

/-! ### What is left after a stage's own end -/

section
variable {s : State} (ms : Nat) (ds : List Word)

theorem time_stageLeft (h : bootState s.chip < 9) (hm : bootState s.chip = 2 → ∀ x, x ∈ s.chip.flash.mirror → inRing x.1 = true) :
    reg (stageLeft ms ds s).chip (Reg.BOOT_STAGE_TIME (bootState s.chip)) = BitVec.ofNat 32 ms := by
  have hf := (parts_stageTime (bootState s.chip) ms s.chip).2.1
  refine (startKept_stageEnd h ds _ (fun h2 => ?_) _ (startReg_stageTime (by omega))).trans (stageTime_shows (by omega) ..)
  rw [chip_onChip, hf]
  exact hm h2

theorem reg_stageLeft {a : Nat} (h : bootState s.chip < 9) (h2 : bootState s.chip ≠ 2) (ha : StartReg a) (h1 : a ≠ Reg.BOOT_ELAPSED)
    (h0 : a < Reg.BOOT_STAGE_TIME 0) : reg (stageLeft ms ds s).chip a = reg s.chip a :=
  (startKept_stageEnd h ds _ (fun hn => absurd hn h2) a ha).trans (reg_stageTime_before h1 h0 ..)

theorem planParts_stageTime (n : Nat) (c : Chip) : PlanParts c (stageTime n ms c) := parts_stageTime n ms c

theorem all_four {f g : Nat → Bool} (h : ∀ m, m < 4 → f m = g m) : (List.range 4).all f = (List.range 4).all g := by
  have hr : List.range 4 = [0, 1, 2, 3] := by decide
  rw [hr]
  simp only [List.all_cons, List.all_nil, h 0 (by decide), h 1 (by decide), h 2 (by decide), h 3 (by decide)]

theorem stageLeft_five (h : bootState s.chip = 5) :
    stageLeft ms ds s = onChip (stageFive (isWarm (stageTime 5 ms s.chip)) ds) (onChip (stageTime 5 ms) s) := by
  unfold stageLeft
  rw [h, stageEnd_five, chip_onChip]

theorem memState_stageFive {m : Nat} (hm : m < 4) (warm : Bool) (c : Chip) :
    (memState (stageFive warm ds c) m == 4) = listed (badEntries (memoryTested ds c)) 9 m := by
  rw [← memState_memoryReady hm]
  cases warm
  · rw [stageFive_cold]
  · rw [stageFive_warm, memState_buildPlan hm]

theorem allBad_stageLeft (h : bootState s.chip = 5) : (List.range 4).all (fun m => memState (stageLeft ms ds s).chip m == 4) =
    (List.range 4).all (fun m => listed (badEntries (memoryTested ds s.chip)) 9 m) := by
  rw [stageLeft_five ms ds h, chip_onChip, chip_onChip]
  refine all_four fun m hm => (memState_stageFive ds hm _ _).trans ?_
  rw [memoryTested, memoryTested, badEntries_congr (planParts_addTests (planParts_stageTime ms 5 s.chip) _)]

theorem stageLeft_six (h : bootState s.chip = 6) : stageLeft ms ds s = onChip (stageSix ds) (onChip (stageTime 6 ms) s) := by
  unfold stageLeft
  rw [h, stageEnd_six]

theorem noneGood_stageLeft (h : bootState s.chip = 6) : (List.range 4).all (fun m => !controllerGood (stageLeft ms ds s).chip m) =
    (List.range 4).all (fun m => !bit (nAt (planBody s.chip.fuses.variant (badEntries (mergeTests (addTests ds s.chip)))) 2 1) m) := by
  have hp := planParts_mergeTests (planParts_addTests (planParts_stageTime ms 6 s.chip) ds)
  have hv : (mergeTests (addTests ds s.chip)).fuses = s.chip.fuses := fuses_mergeTests _
  rw [stageLeft_six ms ds h, chip_onChip, chip_onChip]
  refine all_four fun m hm => ?_
  rw [stageSix, controllerGood_memoryMap hm, badEntries_congr hp, hp.1, hv]

theorem sec_stageLeft (h : bootState s.chip = 5 ∨ bootState s.chip = 6) : (stageLeft ms ds s).sec = s.sec := by
  rcases h with h | h
  · rw [stageLeft_five ms ds h, secState_onChip, secState_onChip]
  · rw [stageLeft_six ms ds h, secState_onChip, secState_onChip]

end

/-! ### Stage 8 begins -/

theorem sendHalf_leaves {β : Type} (g : Chip → β) (hg : ∀ t p fs d, g (sendPacket t p fs d) = g d) (mop t a b : Nat) (ld : Broadcast) (q : Nat)
    (c : Chip) : g (sendHalf mop t a b ld q c) = g c := by
  unfold sendHalf
  split
  · exact hg ..
  · rfl

theorem sendSpans_leaves {β : Type} (g : Chip → β) (hg : ∀ t p fs d, g (sendPacket t p fs d) = g d) (ld : Broadcast) (c : Chip) :
    g (sendSpans ld c) = g c :=
  forAll_leaves g _ (fun _ d => forAll_leaves g _ (fun _ e => forAll_leaves g _ (fun _ _ => sendHalf_leaves g hg ..) e) d) c

theorem boot_sendPacket (t p : Nat) (fs : List Flit) (c : Chip) : (sendPacket t p fs c).boot = c.boot :=
  forAll_leaves Chip.boot (f := putWire t p) fs (fun _ _ => rfl) c

theorem reg_loadSet (b : Boot) (c : Chip) (a : Nat) : reg { c with boot := b } a = reg c a := rfl

theorem reg_beginBroadcast (n : Nat) (data : List Byte) (c : Chip) (a : Nat) : reg (beginBroadcast n data c) a = reg c a := by
  unfold beginBroadcast
  exact (sendSpans_leaves (fun d => reg d a) (fun t p fs d => reg_sendPacket t p fs d a) _ _).trans (reg_loadSet ..)

theorem load_beginBroadcast (n : Nat) (data : List Byte) (c : Chip) :
    ∃ ld, (beginBroadcast n data c).boot.load = some ld ∧ ld.round = 0 := by
  refine ⟨{ blocks := n, data := data, round := 0 }, ?_, rfl⟩
  unfold beginBroadcast
  rw [sendSpans_leaves Chip.boot boot_sendPacket]

theorem stageEight_eq (s : State) : ∃ n data, stageEight s = onChip (beginBroadcast n data) s := ⟨_, _, rfl⟩

/-! ### Stage 9 -/

/-- The chip as stage 9 loads it. -/
def startImageTaken (c : Chip) : Chip := { c with boot := { c.boot with loaded := true }, askedGrants := latchGrants c }

theorem stageNine_waits {s : State} (h : autostarts (onChip startImageTaken s) = false) : stageNine s = onChip startImageTaken s := by
  unfold stageNine
  exact if_neg (fun hn => Bool.noConfusion (h.symm.trans hn))

theorem autostarts_congr {s t : State} (h : reg t.chip Reg.BOOT_CFG = reg s.chip Reg.BOOT_CFG) (hx : t.sec = s.sec) : autostarts t = autostarts s := by
  unfold autostarts
  rw [rflag_congr h, hx]

theorem latchGrants_congr {c d : Chip} (h : ∀ n, n ∈ [1, 2, 3, 4, 5] → reg d (Reg.LIC_GRANT n) = reg c (Reg.LIC_GRANT n)) :
    latchGrants d = latchGrants c := by
  unfold latchGrants
  simp only [List.foldl_cons, List.foldl_nil, h 1 (by decide), h 2 (by decide), h 3 (by decide), h 4 (by decide), h 5 (by decide)]

/-- A start image that does not verify fails the start. -/
theorem stageNine_rejects {s : State} (h : autostarts (onChip startImageTaken s) = true)
    (hv : (verifyCode s.sec (startImageTaken s.chip) (latchGrants s.chip) s.sec.startImage s.sec.startImage.length).1 ≠ 0) :
    ∃ code i d, stageNine s = startFail 10 (onChip (verifyFailed code i d) (onChip startImageTaken s)) := by
  unfold stageNine
  dsimp only
  split
  · split
    · next he => exact absurd (congrArg Prod.fst he) hv
    · exact ⟨_, _, _, rfl⟩
  · next hn => exact absurd h hn

theorem autostarts_timed (s : State) (ms : Nat) : autostarts (onChip startImageTaken (onChip (stageTime 9 ms) s)) = autostarts s :=
  autostarts_congr ((reg_stageTime_before (a := Reg.BOOT_CFG) (by decide) (by decide) 9 ms s.chip)) rfl

/-- The running start's last stage, its time recorded. -/
theorem stageLeft_nine {s : State} (ms : Nat) (ds : List Word) (h : bootState s.chip = 9) :
    stageLeft ms ds s = stageNine (onChip (stageTime 9 ms) s) := by
  unfold stageLeft
  rw [h]
  rfl

/-! ### The outcomes of START_STAGE_DONE -/

theorem stageCauses_lt {n cause : Nat} (h : (stageCauses n).contains cause = true) : cause < 256 := by
  have hm := List.mem_of_elem_eq_true h
  unfold stageCauses at hm
  split at hm <;> simp only [List.mem_cons, List.not_mem_nil, or_false] at hm <;> omega

theorem reg_stageBroken {a : Nat} (h : a < Reg.BOOT_STAGE_TIME 10) (ms cause : Nat) (c : Chip) :
    reg (stageBroken ms cause c) a = reg (stageTime (bootState c) ms c) a := by
  unfold stageBroken when_
  split
  · exact reg_raise_ne (Nat.ne_of_lt (Nat.lt_trans h (by decide))) ..
  · rfl

theorem starting_lt {c : Chip} (h : starting c = true) : bootState c < 10 := by
  unfold starting at h
  simp only [Bool.and_eq_true, decide_eq_true_eq] at h
  exact h.1.1.1

section
variable {s : State} {ms : Nat} {ds : List Word}

/-- A failure that leaves the registers of failed starts and the Thistle core. -/
theorem startFail_completes {i : Instr} {t : State} {cause : Nat} (hc : cause < 256) (hi : exec i s = .next (startFail cause t))
    (h1 : reg t.chip Reg.BOOT_FAIL_COUNT = reg s.chip Reg.BOOT_FAIL_COUNT) (h2 : reg t.chip Reg.BOOT_FAIL_HIST = reg s.chip Reg.BOOT_FAIL_HIST)
    (hx : t.sec = s.sec) : ∃ u, CompletesAt i s u ∧ StartFailed cause s.chip s.sec u :=
  ⟨_, completesAt_exec hi, startFailed_congr (hx ▸ startFail_failed hc t) h1 h2⟩

section
variable (h : starting s.chip = true) (h9 : ¬ (bootState s.chip = 9 ∧ s.chip.boot.loaded = true))
include h h9

/-- A stage that fails with one of its causes, its time recorded. -/
theorem stage_fails {cause : Nat} (h0 : cause ≠ 0) (hc : (stageCauses (bootState s.chip)).contains cause = true) :
    (∃ u, CompletesAt (.startStageDone ms cause ds) s u ∧ StartFailed cause s.chip s.sec u) ∧
    ∃ u, CompletesAt (.startStageDone ms cause ds) s u ∧ reg u.chip (Reg.BOOT_STAGE_TIME (bootState s.chip)) = BitVec.ofNat 32 ms := by
  have hi : exec (.startStageDone ms cause ds) s = .next (startFail cause (onChip (stageBroken ms cause) s)) :=
    congrArg Host.Outcome.next (stageDone_fails h h9 h0 hc)
  have hlt := stageCauses_lt hc
  have hn := starting_lt h
  have hreg : ∀ a, a < Reg.BOOT_STAGE_TIME 0 → a ≠ Reg.BOOT_ELAPSED →
      reg (onChip (stageBroken ms cause) s).chip a = reg s.chip a := fun a ha h1 => by
    rw [chip_onChip, reg_stageBroken (Nat.lt_trans ha (by decide)), reg_stageTime_before h1 ha]
  refine ⟨startFail_completes hlt hi (hreg _ (by decide) (by decide)) (hreg _ (by decide) (by decide)) (secState_onChip ..),
    _, completesAt_exec hi, ?_⟩
  rw [stageTime_startFail hlt hn, chip_onChip, reg_stageBroken (startReg_stageTime hn).2.1, stageTime_shows hn]

variable (hl : s.chip.boot.load = none)
include hl

theorem exec_stageDone {t : State} (ht : stageAdvance (bootState s.chip) (isWarm s.chip) (stageLeft ms ds s) = t) :
    exec (.startStageDone ms 0 ds) s = .next t := congrArg Host.Outcome.next ((stageDone_ends h h9 hl).trans ht)

/-- The start goes on to the next stage. -/
theorem stage_goesOn (hn : bootState s.chip < 9) (h7 : bootState s.chip ≠ 7)
    (hm : bootState s.chip = 2 → ∀ x, x ∈ s.chip.flash.mirror → inRing x.1 = true)
    (h5 : bootState s.chip = 5 → (List.range 4).all (fun m => listed (badEntries (memoryTested ds s.chip)) 9 m) = false)
    (h6 : bootState s.chip = 6 → (List.range 4).all (fun m =>
      !bit (nAt (planBody s.chip.fuses.variant (badEntries (mergeTests (addTests ds s.chip)))) 2 1) m) = false) :
    ∃ t, CompletesAt (.startStageDone ms 0 ds) s t ∧ GoesOn (bootState s.chip) (stageAfter (isWarm s.chip) (bootState s.chip)) ms t.chip :=
  ⟨_, completesAt_exec (exec_stageDone h h9 hl (stageAdvance_next hn (fun he => (allBad_stageLeft ms ds he).trans (h5 he))
    (fun he => (noneGood_stageLeft ms ds he).trans (h6 he)) h7)), goesOn_stageNext hn _ (time_stageLeft ms ds hn hm)⟩

/-- Stage 8 begins with its broadcast. -/
theorem stage_broadcasts (h7 : bootState s.chip = 7) : ∃ t, CompletesAt (.startStageDone ms 0 ds) s t ∧
    GoesOn 7 (stageAfter (isWarm s.chip) 7) ms t.chip ∧ ∃ ld, t.chip.boot.load = some ld ∧ ld.round = 0 := by
  have hadv : stageAdvance (bootState s.chip) (isWarm s.chip) (stageLeft ms ds s) =
      stageEight (onChip (stageNext (stageAfter (isWarm s.chip) 7)) (stageLeft ms ds s)) := by rw [h7, stageAdvance_seven]
  have ht := time_stageLeft ms ds (by omega : bootState s.chip < 9) (by omega)
  rw [h7] at ht
  obtain ⟨hs, hg⟩ := goesOn_stageNext (by decide : 7 < 9) (isWarm s.chip) ht
  obtain ⟨n, data, he⟩ := stageEight_eq (onChip (stageNext (stageAfter (isWarm s.chip) 7)) (stageLeft ms ds s))
  refine ⟨_, completesAt_exec (exec_stageDone h h9 hl (hadv.trans he)), ?_⟩
  rw [chip_onChip]
  exact ⟨⟨(bootState_congr (reg_beginBroadcast ..)).trans hs, (reg_beginBroadcast ..).trans hg⟩, load_beginBroadcast ..⟩

theorem stage_noMemory (h5 : bootState s.chip = 5)
    (hb : (List.range 4).all (fun m => listed (badEntries (memoryTested ds s.chip)) 9 m) = true) :
    ∃ u, CompletesAt (.startStageDone ms 0 ds) s u ∧ StartFailed 5 s.chip s.sec u := by
  have hadv : stageAdvance (bootState s.chip) (isWarm s.chip) (stageLeft ms ds s) = startFail 5 (stageLeft ms ds s) := by
    rw [h5]
    exact stageAdvance_noMemory _ ((allBad_stageLeft ms ds h5).trans hb)
  exact startFail_completes (by decide) (exec_stageDone h h9 hl hadv)
    (reg_stageLeft ms ds (by omega) (by omega) ⟨by decide, by decide, by decide⟩ (by decide) (by decide))
    (reg_stageLeft ms ds (by omega) (by omega) ⟨by decide, by decide, by decide⟩ (by decide) (by decide)) (sec_stageLeft ms ds (.inl h5))

theorem stage_noController (h6 : bootState s.chip = 6) (hb : (List.range 4).all (fun m =>
      !bit (nAt (planBody s.chip.fuses.variant (badEntries (mergeTests (addTests ds s.chip)))) 2 1) m) = true) :
    ∃ u, CompletesAt (.startStageDone ms 0 ds) s u ∧ StartFailed 5 s.chip s.sec u := by
  have hadv : stageAdvance (bootState s.chip) (isWarm s.chip) (stageLeft ms ds s) = startFail 5 (stageLeft ms ds s) := by
    rw [h6]
    exact stageAdvance_noController _ ((noneGood_stageLeft ms ds h6).trans hb)
  exact startFail_completes (by decide) (exec_stageDone h h9 hl hadv)
    (reg_stageLeft ms ds (by omega) (by omega) ⟨by decide, by decide, by decide⟩ (by decide) (by decide))
    (reg_stageLeft ms ds (by omega) (by omega) ⟨by decide, by decide, by decide⟩ (by decide) (by decide)) (sec_stageLeft ms ds (.inr h6))

theorem exec_stageNine (hn : bootState s.chip = 9) :
    exec (.startStageDone ms 0 ds) s = .next (stageNine (onChip (stageTime 9 ms) s)) := by
  refine exec_stageDone h h9 hl ?_
  rw [hn, stageAdvance_last, stageLeft_nine ms ds hn]

end

end

end Sys2Proof.Machine
end

section
/-!
PROOFS. Stage 9, READY, the bring-up watchdog and the loss of SYS_CLK (R394, R395, R407, R525); settles O52.
-/

namespace Sys2Proof.Machine

open Sys2Proof.Safety

/-! ### Stage 9 -/

theorem startKept_verifyFailed (code i d : Nat) (c : Chip) : StartKept c (verifyFailed code i d c) :=
  ((((StartKept.refl c).setReg (by decide) _).when fun e => (StartKept.refl e).setReg (a := Reg.IMG_DETAIL) (by decide) _)).setReg (by decide) _

theorem reg_startImageTaken (c : Chip) (a : Nat) : reg (startImageTaken c) a = reg c a := rfl

theorem fuses_startImageTaken (c : Chip) : (startImageTaken c).fuses = c.fuses := rfl

theorem loaded_startImageTaken (c : Chip) : (startImageTaken c).boot.loaded = true := rfl

theorem latchGrants_timed (ms : Nat) (c : Chip) : latchGrants (stageTime 9 ms c) = latchGrants c :=
  latchGrants_congr fun n _ => reg_stageTime (by unfold Reg.LIC_GRANT Reg.BOOT_ELAPSED; omega) (by unfold Reg.LIC_GRANT Reg.BOOT_STAGE_TIME; omega) ..

section
variable {s : State} {ms : Nat} {ds : List Word} (h : starting s.chip = true) (h9 : ¬ (bootState s.chip = 9 ∧ s.chip.boot.loaded = true))
  (hl : s.chip.boot.load = none) (hn : bootState s.chip = 9)
include h h9 hl hn

/-- Without a start image, stage 9 waits for BOOT_READY. -/
theorem stage_waits (ha : autostarts s = false) :
    ∃ t, CompletesAt (.startStageDone ms 0 ds) s t ∧ bootState t.chip = 9 ∧ t.chip.boot.loaded = true := by
  refine ⟨_, completesAt_exec ((exec_stageNine h h9 hl hn).trans (congrArg _ (stageNine_waits ((autostarts_timed s ms).trans ha)))), ?_⟩
  rw [chip_onChip, chip_onChip]
  refine ⟨(bootState_congr ((reg_startImageTaken ..).trans ?_)).trans hn, loaded_startImageTaken _⟩
  exact reg_stageTime_before (by decide) (by decide) ..

/-- A start image that does not verify fails the start. -/
theorem stage_rejects (ha : autostarts s = true)
    (hv : (verifyCode s.sec s.chip (latchGrants s.chip) s.sec.startImage s.sec.startImage.length).1 ≠ 0) :
    ∃ u, CompletesAt (.startStageDone ms 0 ds) s u ∧ StartFailed 10 s.chip s.sec u := by
  have hf : (startImageTaken (stageTime 9 ms s.chip)).fuses = s.chip.fuses := (fuses_startImageTaken _).trans (parts_stageTime ..).1
  have hreg : ∀ a, StartReg a → a < Reg.BOOT_STAGE_TIME 0 → a ≠ Reg.BOOT_ELAPSED →
      reg (startImageTaken (stageTime 9 ms s.chip)) a = reg s.chip a := fun a _ ha h1 =>
    (reg_startImageTaken ..).trans (reg_stageTime_before h1 ha ..)
  obtain ⟨code, i, d, he⟩ := stageNine_rejects (s := onChip (stageTime 9 ms) s) ((autostarts_timed s ms).trans ha) (by
    rw [secState_onChip, chip_onChip, latchGrants_timed, verifyCode_congr hf]
    exact hv)
  have hkept : ∀ a, StartReg a → a < Reg.BOOT_STAGE_TIME 0 → a ≠ Reg.BOOT_ELAPSED →
      reg (onChip (verifyFailed code i d) (onChip startImageTaken (onChip (stageTime 9 ms) s))).chip a = reg s.chip a := fun a hs ha h1 => by
    rw [chip_onChip, chip_onChip, chip_onChip, startKept_verifyFailed code i d _ a hs, hreg a hs ha h1]
  exact startFail_completes (by decide) ((exec_stageNine h h9 hl hn).trans (congrArg _ he))
    (hkept _ ⟨by decide, by decide, by decide⟩ (by decide) (by decide)) (hkept _ ⟨by decide, by decide, by decide⟩ (by decide) (by decide))
    (by rw [secState_onChip, secState_onChip, secState_onChip])

end

/-! ### READY and the bring-up watchdog -/

/-- The failures forgotten and the watchdog stopped. -/
def failuresForgotten (c : Chip) : Chip := { c with flash := { c.flash with failCount := 0 }, boot := { c.boot with wdogPeriod := 0 } }

/-- READY shown. -/
def readyShown (ms : Nat) (c : Chip) : Chip :=
  failuresForgotten c |> setBoot 10 |> putNum Reg.BOOT_FAIL_COUNT 0 |> putNum Reg.BOOT_ELAPSED ms

theorem bootReady_ends {ms : Nat} {c : Chip} (h9 : bootState c = 9) (h : starting c = true) :
    bootReady ms c = recordStart (b2n (isWarm c)) 0 (readyShown ms c) := by
  unfold bootReady
  exact (if_pos ⟨h9, h⟩).trans rfl

theorem bootReady_idle {ms : Nat} {c : Chip} (h : bootState c ≠ 9 ∨ starting c = false) : bootReady ms c = c := by
  unfold bootReady
  refine if_neg fun hn => ?_
  rcases h with h | h
  · exact h hn.1
  · exact Bool.noConfusion (h.symm.trans hn.2)

theorem failuresForgotten_parts (c : Chip) : (failuresForgotten c).flash.failCount = 0 ∧ (failuresForgotten c).boot.wdogPeriod = 0 := ⟨rfl, rfl⟩

theorem readyShown_shows (ms : Nat) (c : Chip) : bootState (readyShown ms c) = 10 ∧ (readyShown ms c).flash.failCount = 0 ∧
    reg (readyShown ms c) Reg.BOOT_FAIL_COUNT = 0#32 ∧ reg (readyShown ms c) Reg.BOOT_ELAPSED = BitVec.ofNat 32 ms ∧
    (readyShown ms c).boot.wdogPeriod = 0 := by
  obtain ⟨hf, hb⟩ := failuresForgotten_parts c
  unfold readyShown
  generalize failuresForgotten c = d at hf hb
  have hflash : (d |> setBoot 10 |> putNum Reg.BOOT_FAIL_COUNT 0 |> putNum Reg.BOOT_ELAPSED ms).flash = d.flash :=
    (setReg_flash ..).trans ((setReg_flash ..).trans (setReg_flash ..))
  have hboot : (d |> setBoot 10 |> putNum Reg.BOOT_FAIL_COUNT 0 |> putNum Reg.BOOT_ELAPSED ms).boot = d.boot :=
    (setReg_boot ..).trans ((setReg_boot ..).trans (setReg_boot ..))
  refine ⟨?_, by rw [hflash, hf], ?_, reg_putNum_same .., by rw [hboot, hb]⟩
  · exact (bootState_congr ((reg_putNum_ne (by decide) ..).trans (reg_putNum_ne (by decide) ..))).trans (bootState_setBoot ..)
  · exact (reg_putNum_ne (by decide) ..).trans (reg_putNum_same ..)

/-- BOOT_READY in stage 9. -/
theorem bootReady_shows {ms : Nat} {c : Chip} (h9 : bootState c = 9) (h : starting c = true) : bootState (bootReady ms c) = 10 ∧
    (bootReady ms c).flash.failCount = 0 ∧ reg (bootReady ms c) Reg.BOOT_FAIL_COUNT = 0#32 ∧
    reg (bootReady ms c) Reg.BOOT_ELAPSED = BitVec.ofNat 32 ms ∧ (bootReady ms c).boot.wdogPeriod = 0 := by
  rw [bootReady_ends h9 h]
  obtain ⟨h1, h2, h3, h4, h5⟩ := readyShown_shows ms c
  generalize readyShown ms c = d at h1 h2 h3 h4 h5
  refine ⟨(bootState_congr (reg_recordStart (.inl (by decide)) ..)).trans h1, ?_, (reg_recordStart (.inl (by decide)) ..).trans h3,
    (reg_recordStart (.inl (by decide)) ..).trans h4, ?_⟩
  · exact (congrArg Flash.failCount (flash_recordWrite ..)).trans h2
  · exact (congrArg Boot.wdogPeriod (recordWrite_leaves Chip.boot (fun _ _ _ _ => rfl) ..)).trans h5

theorem bootKick_runs {c : Chip} (h : wdogRuns c = true) :
    bootKick c = { c with boot := { c.boot with wdogPeriod := max 1 (rfld c Reg.BOOT_WDOG_CFG 15 0) } } := if_pos h

theorem bootKick_idle {c : Chip} (h : wdogRuns c = false) : bootKick c = c := if_neg (by rw [h]; exact Bool.false_ne_true)

/-! ### The resets of the device -/

theorem holdExpire_idle {s : State} (h : bootState s.chip ≠ 12 ∨ s.chip.power.tripped = true) : holdExpire s = s := by
  unfold holdExpire
  refine if_neg fun hn => ?_
  rcases h with h | h
  · exact h hn.1
  · rw [h] at hn
    exact Bool.noConfusion hn.2

theorem holdExpire_starts {s : State} (h : bootState s.chip = 12) (ht : s.chip.power.tripped = false) :
    holdExpire s = onChip (beginStart false true) (switchedReset s) := by
  unfold holdExpire
  exact if_pos ⟨h, by rw [ht]; rfl⟩

/-- Whether resets by BOOT_WARM, BOOT_COLD and RESET_N do nothing. -/
def resetsIgnored (c : Chip) : Bool := c.boot.inReset || c.power.tripped

theorem resetsIgnored_true {c : Chip} (h : c.boot.inReset = true ∨ c.power.tripped = true) : resetsIgnored c = true := by
  unfold resetsIgnored
  rcases h with h | h <;> simp [h]

theorem resetsIgnored_false {c : Chip} (h1 : c.boot.inReset = false) (h2 : c.power.tripped = false) : resetsIgnored c = false := by
  unfold resetsIgnored
  rw [h1, h2]
  rfl

theorem resets_idle {s : State} (h : resetsIgnored s.chip = true) :
    Completes .bootWarm s s.chip ∧ Completes .resetNLow s s.chip ∧ Completes .bootCold s s.chip :=
  ⟨completes_next rfl (if_pos h), completes_next rfl (if_pos h), completes_next rfl (if_pos h)⟩

theorem exec_warmResets {s : State} (h : resetsIgnored s.chip = false) :
    exec .bootWarm s = .next (warmStart s) ∧ exec .resetNLow s = .next (warmStart s) := by
  have hn : ¬ resetsIgnored s.chip = true := by rw [h]; exact Bool.false_ne_true
  exact ⟨congrArg Host.Outcome.next (if_neg hn : bootWarm s = warmStart s), congrArg Host.Outcome.next (if_neg hn)⟩

/-- The failure count of a cold reset in fallow mode without a new accepted image. -/
def fallowCounted (c : Chip) : Chip := if inFallow c && !c.boot.recovered then { c with flash := { c.flash with failCount := 2 } } else c

theorem failCount_fallowCounted (c : Chip) :
    (fallowCounted c).flash.failCount = if inFallow c && !c.boot.recovered then 2 else c.flash.failCount := by
  unfold fallowCounted
  split <;> rfl

theorem exec_bootCold {s : State} (h : resetsIgnored s.chip = false) :
    exec .bootCold s = .next (onChip (beginStart false false) (coldReset (onChip fallowCounted s))) := by
  have hn : ¬ resetsIgnored s.chip = true := by rw [h]; exact Bool.false_ne_true
  refine congrArg Host.Outcome.next ?_
  unfold bootCold
  exact (if_neg hn).trans rfl

theorem warmStart_begins (s : State) : StartBegun (!rflag s.chip Reg.BOOT_CFG 30) false (warmStart s) ∧
    ∀ a, a < 2 ^ 37 → byteAt (warmStart s).chip a = byteAt s.chip a := warm_begins ..

/-- The device held in reset. -/
def heldInReset (c : Chip) : Chip := { c with boot := { c.boot with inReset := true } }

theorem heldInReset_parts (c : Chip) : (heldInReset c).boot.inReset = true ∧ (heldInReset c).tiles = c.tiles ∧
    (heldInReset c).flash = c.flash ∧ (heldInReset c).fuses = c.fuses := ⟨rfl, rfl, rfl, rfl⟩

theorem pwrGoodFall_holds (s : State) : (pwrGoodFall s).chip.boot.inReset = true ∧ (pwrGoodFall s).chip.tiles = [] ∧ (pwrGoodFall s).irq = [] ∧
    (pwrGoodFall s).sec.keys = [] ∧ (pwrGoodFall s).chip.flash = s.chip.flash ∧ (pwrGoodFall s).chip.fuses = s.chip.fuses := by
  have he : pwrGoodFall s = onChip heldInReset (coldReset s) := rfl
  have h := coldReset_resets s
  rw [he, chip_onChip, irq_onChip, secState_onChip]
  obtain ⟨k1, k2, k3, k4⟩ := heldInReset_parts (coldReset s).chip
  exact ⟨k1, k2.trans h.tiles, h.irq, h.keys, k3.trans h.flash, k4.trans h.fuses⟩

/-! ### SYS_CLK -/

/-- SYS_CLK lost or back. -/
def clockLost (b : Bool) (c : Chip) : Chip := modPower (fun P => { P with clkLost := b }) c

theorem reg_clockLost (b : Bool) (c : Chip) (a : Nat) : reg (clockLost b c) a = reg c a := rfl

theorem byteAt_clockLost (b : Bool) (c : Chip) (a : Nat) : byteAt (clockLost b c) a = byteAt c a := rfl

theorem clockLost_parts (b : Bool) (c : Chip) : (clockLost b c).power.clkLost = b ∧ (clockLost b c).power.stripped = c.power.stripped := ⟨rfl, rfl⟩

theorem sysClkLoss_idle {s : State} (h : s.chip.power.clkLost = true) : sysClkLoss s = s := if_pos h

/-- The loss of SYS_CLK outside a start. -/
theorem sysClkLoss_ready {s : State} (h : s.chip.power.clkLost = false) (hn : 10 ≤ bootState s.chip) (hq : ∀ k, k < 8 → LinkEmpty s.chip k) :
    ∃ c', Completes .sysClkLoss s c' ∧ c'.power.clkLost = true ∧ c'.power.stripped = true ∧ ∀ d, d < 96 → domState c' d = 2 := by
  obtain ⟨hd, hs, -, -, hr⟩ := stripSupplies_strips hq
  have hboot : bootState (clockLost true (stripSupplies s.chip)) = bootState s.chip :=
    bootState_congr ((reg_clockLost ..).trans (hr _ (by decide)))
  have he : sysClkLoss s = onChip (fun c => clockLost true (stripSupplies c)) s := by
    unfold sysClkLoss
    refine (if_neg (by rw [h]; exact Bool.false_ne_true)).trans (failNow_idle (.inr (.inr ?_)))
    unfold inStart
    rw [chip_onChip]
    exact Bool.and_eq_false_iff.2 (.inl (decide_eq_false (Nat.not_lt.2 (hn.trans (Nat.le_of_eq hboot.symm)))))
  obtain ⟨k1, k2⟩ := clockLost_parts true (stripSupplies s.chip)
  exact ⟨_, completes_next (congrArg Host.Outcome.next he) rfl, k1, k2.trans hs, fun d hlt => (domState_congr (reg_clockLost ..)).trans (hd d hlt)⟩

theorem sysClkRestored_idle {s : State} (h : s.chip.power.clkLost = false) : sysClkRestored s = s := by
  unfold sysClkRestored
  exact if_neg (by rw [h]; exact Bool.false_ne_true)

theorem sysClkRestored_warm {s : State} (h : s.chip.power.clkLost = true) (hn : bootState s.chip = 10 ∨ bootState s.chip = 11)
    (ht : s.chip.power.tripped = false) : sysClkRestored s = warmStart (onChip (clockLost false) s) := by
  unfold sysClkRestored
  exact (if_pos h).trans (if_pos ⟨hn, (by rw [ht]; rfl : (!s.chip.power.tripped) = true)⟩)

theorem sysClkRestored_back {s : State} (h : s.chip.power.clkLost = true)
    (hn : (bootState s.chip ≠ 10 ∧ bootState s.chip ≠ 11) ∨ s.chip.power.tripped = true) : sysClkRestored s = onChip (clockLost false) s := by
  unfold sysClkRestored
  refine (if_pos h).trans (if_neg fun hw => ?_)
  rcases hn with ⟨h10, h11⟩ | ht
  · exact hw.1.elim h10 h11
  · have : (!s.chip.power.tripped) = true := hw.2
    rw [ht] at this
    exact Bool.noConfusion this

theorem clockRestored_begins (s : State) : StartBegun (!rflag s.chip Reg.BOOT_CFG 30) false (warmStart (onChip (clockLost false) s)) ∧
    ∀ a, a < 2 ^ 37 → byteAt (warmStart (onChip (clockLost false) s)).chip a = byteAt s.chip a := by
  obtain ⟨h, hm⟩ := warmStart_begins (onChip (clockLost false) s)
  rw [chip_onChip, rflag_congr (reg_clockLost ..)] at h
  refine ⟨h, fun a ha => (hm a ha).trans ?_⟩
  rw [chip_onChip, byteAt_clockLost]

/-! ### The obligation -/

/-- Settles O52: every start is its reset followed by stage 0, a stage's end keeps what the next reads, and a failure is one function of
count, history and cause. -/
theorem startsAndDeviceResets : Obligations.StartsAndDeviceResets := by
  intro s c n warm running failed begins keepsMem next
  have hrun : running = inStart c := rfl
  have hfailed : ∀ {i : Instr} {cause : Nat}, (∃ u, CompletesAt i s u ∧ StartFailed cause c s.sec u) → failed i cause := fun ⟨u, hu, hf⟩ =>
    ⟨u, hu, hf.count, hf.hist, hf.holds, hf.fallow⟩
  have hnow : ∀ {i : Instr} {cause : Nat}, exec i s = .next (failNow cause s) → 1 ≤ cause → cause ≤ 11 → running = true → failed i cause :=
    fun hi h1 h2 hr => hfailed (startFail_completes (by omega) (hi.trans (congrArg _ (failNow_fails h1 h2 (hrun.symm.trans hr)))) rfl rfl rfl)
  have hbegins : ∀ {i : Instr} {w r : Bool} {more : State → Prop} {t : State}, exec i s = .next t → StartBegun w r t → more t → begins i w r more :=
    fun hi hb hm => ⟨_, completesAt_exec hi, hb.state, hb.warm, hb.retry, hb.tiles, hb.routers, hb.tbs, hb.irq, hb.keys, hm⟩
  have hgoes : ∀ {i : Instr} {m ms : Nat}, (∃ t, CompletesAt i s t ∧ GoesOn n m ms t.chip) → next i m ms := fun ⟨t, ht, hg⟩ =>
    ⟨t, ht, hg.state, hg.time⟩
  have hidle : ∀ {i : Instr} {t : State}, exec i s = .next t → t = s → Completes i s c := fun hi ht => completes_next hi ht
  refine ⟨fun cause h1 h2 hr => hnow rfl h1 h2 hr, fun cause h => hidle rfl (failNow_idle h), hnow rfl (by decide) (by decide),
    fun h => hidle rfl (failNow_idle (.inr (.inr h))), fun hr hw => hnow (congrArg Host.Outcome.next (if_pos hw)) (by decide) (by decide) hr,
    fun hw => hidle rfl (if_neg (by rw [hw]; exact Bool.false_ne_true)), fun ms cause ds => ⟨fun h => hidle rfl (stageDone_idle h), fun h h9 => ?_⟩,
    fun ms h9 h => ⟨_, completes_done rfl, bootReady_shows h9 h⟩, fun ms h => completes_done (congrArg (done s) (bootReady_idle h)),
    fun h => completes_done (congrArg (done s) (bootKick_runs h)), fun h => completes_done (congrArg (done s) (bootKick_idle h)),
    fun strap => ⟨fun h1 h2 => hidle rfl (powerOn_idle h1 h2), fun h hs => ?_, fun h hs => ?_⟩, fun h ht => ?_, fun h => hidle rfl (holdExpire_idle h),
    fun h => resets_idle (resetsIgnored_true h), fun h1 h2 => ?_, ⟨_, completesAt_exec rfl, pwrGoodFall_holds s⟩,
    fun h => hidle rfl (sysClkLoss_idle h), fun h hn hq => sysClkLoss_ready h hn hq, fun h => hidle rfl (sysClkRestored_idle h), fun h hn ht => ?_,
    fun h hn => completes_next rfl (sysClkRestored_back h hn)⟩
  case refine_1 =>
    refine ⟨fun h0 hc => hidle rfl (stageDone_foreign h0 hc), fun h0 hc => ?_, fun h0 hl => ?_, fun h0 hl h7 => ?_, fun h0 hl hn hm => ?_,
      fun h0 hl h5 hb => ?_, fun h0 hl h5 hb => ?_, fun h0 hl h6 hb => ?_, fun h0 hl h6 hb => ?_, fun h0 hl hn ha => ?_, fun h0 hl hn ha hv => ?_⟩
    · obtain ⟨h1, h2⟩ := stage_fails (ms := ms) (ds := ds) h h9 h0 hc
      exact ⟨hfailed h1, h2⟩
    all_goals subst h0
    · exact hidle rfl (stageDone_held hl)
    · obtain ⟨t, ht, hg, hld⟩ := stage_broadcasts (ms := ms) (ds := ds) h h9 hl h7
      exact ⟨t, ht, hg.state, hg.time, hld⟩
    · have hcases : bootState s.chip = 0 ∨ bootState s.chip = 1 ∨ bootState s.chip = 2 ∨ bootState s.chip = 3 ∨ bootState s.chip = 4 ∨
          bootState s.chip = 8 := by simpa only [List.mem_cons, List.not_mem_nil, or_false] using hn
      exact hgoes (stage_goesOn h h9 hl (by omega) (by omega) (fun _ => hm) (by omega) (by omega))
    · have hn : bootState s.chip = 5 := h5
      have hg := stage_goesOn (ms := ms) (ds := ds) h h9 hl (by omega) (by omega) (by omega) (fun _ => hb) (by omega)
      rw [← h5]
      exact hgoes hg
    · exact hfailed (stage_noMemory h h9 hl h5 hb)
    · have hn : bootState s.chip = 6 := h6
      have hg := stage_goesOn (ms := ms) (ds := ds) h h9 hl (by omega) (by omega) (by omega) (by omega) (fun _ => hb)
      rw [← h6]
      exact hgoes hg
    · exact hfailed (stage_noController h h9 hl h6 hb)
    · exact stage_waits h h9 hl hn ha
    · exact hfailed (stage_rejects h h9 hl hn ha hv)
  case refine_2 =>
    obtain ⟨hb, hsc⟩ := strapShown_begins strap s
    refine hbegins (congrArg Host.Outcome.next ((powerOn_starts h).trans ?_)) hb hsc
    rw [hs]
    rfl
  case refine_3 =>
    have hf := enterFallow_enters 0x0C (onChip (strapShown strap) (coldReset s))
    refine ⟨_, completesAt_exec (congrArg Host.Outcome.next ((powerOn_starts h).trans (if_pos hs))), hf.state, hf.cause, hf.tiles⟩
  case refine_4 => exact hbegins (congrArg Host.Outcome.next (holdExpire_starts h ht)) (warm_begins false true s).1 trivial
  case refine_5 =>
    have hi := resetsIgnored_false h1 h2
    obtain ⟨hw, hr⟩ := exec_warmResets hi
    obtain ⟨hb, hm⟩ := warmStart_begins s
    obtain ⟨hcb, hcs, hcf⟩ := cold_begins false false (onChip fallowCounted s)
    refine ⟨hbegins hw hb hm, hbegins hr hb hm, hbegins (exec_bootCold hi) hcb ⟨hcs, ?_⟩⟩
    rw [hcf, chip_onChip, failCount_fallowCounted]
  case refine_6 =>
    obtain ⟨hb, hm⟩ := clockRestored_begins s
    exact hbegins (congrArg Host.Outcome.next (sysClkRestored_warm h hn ht)) hb hm

end Sys2Proof.Machine
end
